-- ==== Sys2Proof/Word.lean ====
section
/-! DEFINITION. The word types of the T256 and the shape of a sparse table.
A word is 20 bits (R8); every register, entry field, record and message field is built from whole words. -/

namespace Sys2Proof

/-- A word (R8): 20 bits, numbered 19 down to 0 (R17). -/
abbrev Word := BitVec 20

/-- A byte of an octet stream (the flash image, the certificate, Ethernet). -/
abbrev Byte := BitVec 8

/-- An address of the management port (R516, R534): one word per 16-bit address. -/
abbrev Addr := BitVec 16

/-- A sparse table from a number to data: key and value pairs in one canonical form, keys strictly rising and
no entry equal to the value that an unlisted key reads as. -/
abbrev SMap (α : Type) := List (Nat × α)

end Sys2Proof
end

