-- ==== Sys2Proof/Syntax.lean ====
section
/-! DEFINITION. The commands of the T256: one constructor for each row of spec/opcode_table.json.
Each carries the instant `t` of the happening in ns, a whole number of TCLK cycles (log entry 1), and what the outside world supplies with it: the frame's address and data, a
converter's code, a received message. A command whose own condition does not hold in the state has no effect. -/

namespace Sys2Proof

/-- What a management frame is that is neither a READ, a WRITE nor the EXEC of a long operation (R517, R521). -/
inductive FrameKind where
  | nop
  /-- CMD 4h to Fh, or an EXEC whose code is none of R522. -/
  | notAllowed
  deriving DecidableEq, Repr, Inhabited

/-- A code of a TDC (R126): the coarse count `n` and the fine code `p` of one edge. -/
structure TdcCode where
  n : Nat
  p : Nat
  deriving DecidableEq, Repr, Inhabited

/-- One beat of a burst that does not read as it was written (R392): its rank, its burst, its number in the burst (0 to 15) and
the error symbols by position. -/
structure MemHit where
  rank  : Nat
  burst : Nat
  beat  : Nat
  errs  : List (Nat × BitVec 4)
  deriving DecidableEq, Repr, Inhabited

/-- A read of the module memory: its instant, and the beats that it finds in error. -/
structure MemAccess where
  t    : Nat
  hits : List MemHit
  deriving DecidableEq, Repr, Inhabited

/-- The codes of a pulse's leading edge, and of its trailing edge where that is known. -/
structure PulseCode where
  lead  : TdcCode
  trail : Option TdcCode
  deriving DecidableEq, Repr, Inhabited

/-- A channel of the mirror sensing (R242). -/
inductive SenseCh where
  | ctrl
  | mon
  deriving DecidableEq, Repr, Inhabited

/-- A safety channel of the SAF (R274): A the processor channel, B the hard-wired channel. -/
inductive SafCh where
  | a
  | b
  deriving DecidableEq, Repr, Inhabited

/-- A handshake client of the stall monitor (R39). -/
inductive StallUnit where
  | governor
  | hardChannel
  deriving DecidableEq, Repr, Inhabited

/-- A PLL of the TBU (R445). -/
inductive Pll where
  | timing
  | system
  deriving DecidableEq, Repr, Inhabited

/-- A port of the Flethes chain (R428). -/
inductive ChainSide where
  | up
  | down
  deriving DecidableEq, Repr, Inhabited

/-- A supply rail with a monitor (R540). -/
inductive Rail where
  | vddCore | vddTdc | vddAfe | vddSaf | vddLane | vddaLane | vddqMem | vddIo | vddIo33
  deriving DecidableEq, Repr, Inhabited

/-- How the flash ended an NVM operation (R487). -/
inductive NvmEnd where
  /-- The flash finished. `bytes` is what a READ read, or what the read-back of a PROGRAM returned. -/
  | finished (bytes : List Byte)
  /-- The flash did not finish in its SFDP maximum time plus 1 ms. -/
  | timeout
  deriving DecidableEq, Repr, Inhabited

/-- The sender's IPv4 address and UDP port of a message that arrived on an ETH lane (R426). -/
structure EthSrc where
  ip   : BitVec 32
  port : BitVec 16
  deriving DecidableEq, Repr, Inhabited

/-- What every chain message carries besides its payload (R413, R428): the port it arrived on, its SEQ and
whether its CRC-32C matched. -/
structure ChainHdr where
  side  : ChainSide
  seq   : Nat
  crcOk : Bool
  deriving DecidableEq, Repr, Inhabited

/-- The items of a PARAMS message (R430). -/
structure ChainParams where
  member  : Nat
  pos     : Nat
  slotn   : Nat
  slotlen : Nat
  mask    : BitVec 32
  dvx     : Bool
  dl      : Nat
  dr      : Nat
  ncol    : Nat
  /-- The sender is joined to the chain (R428). -/
  joined  : Bool
  /-- SLOTN and SLOTLEN of the chain head as the sender holds them, which R236 compares (log entry 108). -/
  headn   : Nat
  headlen : Nat
  deriving DecidableEq, Repr, Inhabited

/-- A training frame as it arrives (R407): the two copies of the control word. -/
structure TrainFrame where
  word        : Word
  copy        : Word
  /-- The marker arrived inverted, 24 zeros followed by 24 ones (R408). -/
  markerInv   : Bool
  deriving DecidableEq, Repr, Inhabited

/-- One Cutting List entry (R48): five words, and whether its stored check code matches (R80). -/
structure Entry where
  w0 : Word
  w1 : Word
  w2 : Word
  w3 : Word
  w4 : Word
  chk : Bool
  deriving DecidableEq, Repr, Inhabited

/-- One page of the Cutting List (R48, R50): its library index, its format version, its fire pitch in ns and its
entries; COUNT is their number, 0 before boot loads the page. -/
structure Page where
  lib     : Nat
  fmtMaj  : Nat
  fmtMin  : Nat
  pitch   : Nat
  entries : List Entry
  deriving DecidableEq, Repr, Inhabited

/-- The function of a safety cell (R278). -/
inductive CellType where
  | none | pzm | heg | notAllowed
  deriving DecidableEq, Repr, Inhabited

/-- One cell of a zone set (R278): channel A's range limits in 0.1 mm and channel B's in bins. -/
structure Cell where
  typ   : CellType
  anear : Nat
  afar  : Nat
  hnear : Nat
  hfar  : Nat
  deriving DecidableEq, Repr, Inhabited

/-- One zone set (R278): the cells by 32 × port + sector, the OFFOK bit of each port and TFRESH in µs (R288). -/
structure ZoneSet where
  cells  : List (Nat × Cell)
  offok  : List Nat
  tfresh : Nat
  /-- TFRESH of the library pages for which it differs (R309). -/
  tfreshOf : List (Nat × Nat)
  deriving DecidableEq, Repr, Inhabited

/-- Melaeloth's figures of a library page over its cells in use (R293, R294): T_R in µs, the fewest fires of a cell's row in
one dwell, the shortest dwell in ns and T_close in ns. -/
structure PageSafe where
  tr     : Nat
  fires  : Nat
  dwell  : Nat
  tclose : Nat
  deriving DecidableEq, Repr, Inhabited

/-- A character of the 8b/10b line of the safety port (R306): a data byte, the control characters that the port uses, or one
with a code or disparity error. -/
inductive LineChar where
  | data (b : Byte)
  | k285 | k277 | k297
  | bad
  deriving DecidableEq, Repr, Inhabited

/-- The tracked-target definition and limits of the safety section (R291, R292), with the scale of channel B. -/
structure Track where
  tmask  : List Nat
  twn    : Nat
  twf    : Nat
  /-- The window in channel B's bins. -/
  hwn    : Int
  hwf    : Int
  /-- Melaeloth's scale from 1/256 bin to 0.1 mm: 0.1 mm = (value × mul) div 2^20 + add. -/
  mul    : Int
  add    : Int
  tmin   : Nat
  pmin   : Int
  pmax   : Int
  vmax   : List Nat
  dirsign : Int
  ddb    : Int
  deriving DecidableEq, Repr, Inhabited

/-- One entry of the section table (R469), with what the boot loader's hardware answers for the section:
the SM3 of its stored bytes, and how its decompression ended (R376). -/
structure SecEntry where
  typ      : Nat
  comp     : Bool
  optional : Bool
  offset   : Nat
  slen     : Nat
  olen     : Nat
  digest   : BitVec 256
  sm3      : BitVec 256
  /-- The stored words of the section, before decompression. -/
  words    : List Word
  deriving DecidableEq, Repr, Inhabited

/-- One Shim set of a SHIM section (R484): its kind, its index and its words. -/
structure ShimSet where
  kind  : Nat
  index : Nat
  words : List Word
  deriving DecidableEq, Repr, Inhabited

/-- The image as the boot loader reads it from the flash (R468 to R470, R484): the header, the section table and the
content of each section. The manual lays out the header, the table, an entry of CLIST and the SHIM section; how
CONFIG, TABLES, SAFETY and EMISSION name the registers that their values go to is not stated, so their content
stands here by register address. -/
structure Image where
  /-- The bytes of the header (R468) and of the section table (R469) as read. -/
  header   : List Byte
  table    : List Byte
  magic    : BitVec 32
  fmtMaj   : Nat
  fmtMin   : Nat
  member   : Nat
  fuse     : Bool
  nvmlock  : Bool
  ikeyHash : BitVec 256
  /-- The verdicts of the two SM2 verifications (R474, R475). -/
  vsigOk   : Bool
  isigOk   : Bool
  sections : List SecEntry
  /-- CONFIG, TABLES, EMISSION, SAFETY and NETWORK: the register words they carry (R470), in ascending order of address. -/
  values   : List (Nat × Word)
  /-- START_OFS_r of every row in u, as CONFIG gives it (R481). -/
  startOfs : List Nat
  library  : List (Nat × Page)
  startLib : Nat
  startEntry : Nat
  startProfile : Nat
  pageB    : Nat
  datum    : List (Nat × Int)
  /-- Base and size in bursts of the partitions FRM0 to FRM3 (R388), and the point rate of each page in points/s, by
  library index (R355). -/
  frm      : List (Nat × Nat)
  /-- First bursts of TBL and CTX in subchannel B, and base and size of EXP (R388). -/
  tbl      : Nat
  ctx      : Nat
  exp      : Nat × Nat
  /-- The largest load of each client under the image's pages and setups, in bursts/s: subchannel, code, load (R391). -/
  loads    : List (Nat × Nat × Nat)
  ptRate   : List (Nat × Nat)
  zones    : List (Nat × ZoneSet)
  track    : Track
  /-- The response figures of the library pages that have cells in use (R293, R294). -/
  pageSafe : List (Nat × PageSafe)
  /-- The safety and emission digests that each SAF channel computed agree with the image (R311). -/
  safDigA  : Bool
  safDigB  : Bool
  shimBind : List Word
  shims    : List ShimSet
  deriving DecidableEq, Repr, Inhabited

/-- An element that calibration measures (R478). -/
inductive CalKind where
  | pllBand | tdc | comparator | skew | interpolator | hskew | adc | mirror
  deriving DecidableEq, Repr, Inhabited

/-- The measurements of one element (R479): its kind, its index in the numbering of R482 and one list of
quantities for each run. -/
structure CalElem where
  kind  : CalKind
  index : Nat
  runs  : List (List Int)
  deriving DecidableEq, Repr, Inhabited

/-- The flash as BOOT_FLASH finds it (R467): a valid SFDP table, a clean read, its density in bytes, and the single-rate read
modes that the table advertises, 0 1-1-4, 1 1-4-4, 2 4-4-4, 3 8-8-8, each with its highest clock in MHz. -/
structure Sfdp where
  valid    : Bool
  readOk   : Bool
  density  : Nat
  pageSize : Nat
  modes    : List (Nat × Nat)
  deriving DecidableEq, Repr, Inhabited

/-- The fitted module as BOOT_MEM reads it from the SPD (R385, R386), and how its training ended (R400). -/
structure Spd where
  rdimm     : Bool
  ranks     : Nat
  /-- Device density code: 0 8 Gb, 1 16 Gb, 2 32 Gb. -/
  dens      : Nat
  x4        : Bool
  /-- Devices of a rank in one subchannel; 3DS stacking; DIMMs on the channel. -/
  devices   : Nat
  stacked   : Bool
  dimms     : Nat
  rates     : List Nat
  trainOk   : Bool
  deriving DecidableEq, Repr, Inhabited

/-- The commands: one constructor per row of spec/opcode_table.json, in the table's order. -/
inductive Instr where
  -- management port
  | nop (t : Nat) (kind : FrameKind) (addr : Addr)
  | read (t : Nat) (addr : Addr)
  | write (t : Nat) (addr : Addr) (data : Word)
  | malformedFrame (t : Nat)
  | evqRead (t : Nat)
  -- long operations
  | profileSet (t : Nat)
  | profileSwitch (t : Nat)
  | profileEofTimeout (t : Nat)
  | recal (t : Nat)
  | recalEofTimeout (t : Nat)
  | recalRestart (t : Nat) (elems : List CalElem)
  | pageLoad (t : Nat)
  | pageLoadDone (a : MemAccess)
  | attest (t : Nat)
  | attestDone (t : Nat)
  | nvmProgram (t : Nat)
  | nvmDone (t : Nat) (ending : NvmEnd)
  | tbuRetune (t : Nat)
  | retuneRelock (t : Nat)
  | retuneTimeout (t : Nat)
  | scrubNow (t : Nat)
  | scrubNowDone (t : Nat) (hits : List MemHit)
  -- register writes and reads with a row of their own
  | pageSwitchBatten (t : Nat) (data : Word)
  | syncReleaseBatten (t : Nat) (data : Word)
  | arm (t : Nat) (data : Word)
  | disarm (t : Nat) (data : Word)
  | force (t : Nat) (data : Word)
  | capClear (t : Nat) (data : Word)
  | capSetupGo (t : Nat) (data : Word)
  | capSeglock (t : Nat) (n : Nat) (data : Word)
  | capRdata (t : Nat) (hits : List MemHit)
  | fsoCommit (t : Nat) (stream : Nat) (data : Word)
  | fsoPin (t : Nat) (data : Word)
  | fsoRel (t : Nat) (data : Word)
  | fsoResend (t : Nat) (data : Word)
  | fsoRdata (a : MemAccess)
  | exportGo (t : Nat) (data : Word)
  | exportAbort (t : Nat) (data : Word)
  | exportEnd (t : Nat) (hits : List MemHit)
  | contextSwap (t : Nat) (ctx : Nat) (hits : List MemHit)
  | manualSubstitution (t : Nat) (row : Nat) (data : Word)
  | portDisable (t : Nat) (port : Nat) (data : Word)
  | portEnable (t : Nat) (port : Nat) (data : Word)
  | airidxWrite (t : Nat) (data : Word)
  | rpeEhistWrite (t : Nat) (data : Word)
  | selWrite (t : Nat) (ch : SenseCh) (data : Word)
  | gainWrite (t : Nat) (ch : SenseCh) (data : Word)
  | driveStopClear (t : Nat) (data : Word)
  | laserFaultClear (t : Nat) (data : Word)
  | boostFaultClear (t : Nat) (data : Word)
  | modeRequest (t : Nat) (loop : Nat) (data : Word)
  | targetWrite (t : Nat) (data : Word)
  | jigWrite (t : Nat) (lane : Nat) (data : Word)
  | bitslip (t : Nat) (lane : Nat) (data : Word)
  | lnkTbusSet (t : Nat) (data : Word)
  | lnkTbusClr (t : Nat) (data : Word)
  | shimWindowWrite (t : Nat) (i : Nat) (data : Word)
  | certDataRead (t : Nat)
  -- the Cutting List sequencer
  | fire (t : Nat)
  | listen (t : Nat)
  | cal (t : Nat)
  | wait (t : Nat)
  | mark (t : Nat)
  | sync (t : Nat)
  | syncEvent (t : Nat)
  | syncTo (t : Nat)
  | branch (t : Nat)
  | pageImmediate (t : Nat)
  | pageIssue (t : Nat)
  | battenExecute (t : Nat)
  | pageReload (a : MemAccess)
  -- emitter drive and governor
  /-- `checkDone`: the governor's check had completed at t0 − 4 ns (R112). -/
  | fireCommand (t : Nat) (checkDone : Bool)
  /-- `code` and `trail` are the start TDC's codes of the edge and of its trailing edge, `bin` channel B's timer count. -/
  | startEdge (t : Nat) (row : Nat) (code : PulseCode) (bin : Int)
  | startDeadline (t : Nat) (row : Nat)
  | mpdReading (t : Nat) (row : Nat) (m : BitVec 16)
  | chargePwmEvent (t : Nat)
  | urgentConversion (t : Nat) (raw : Nat)
  | hvOv (t : Nat)
  | boostFault (t : Nat)
  | stallMonitorTrip (t : Nat) (unit : StallUnit)
  /-- `stop`: a STOP token arrived; otherwise no MOVING token came for two excitation periods. -/
  | movingDrop (t : Nat) (stop : Bool)
  -- receivers
  /-- `unit`: port 0 to 255, or 256 + r for spare r. `bin` is channel B's timer count of the rising edge; none for a hit of
  the ring oscillator (R149), which no comparator gives. -/
  | comparatorEdge (t : Nat) (unit : Nat) (lead : TdcCode) (trail : Option TdcCode) (hi : Option TdcCode) (bin : Option Int)
  | receiverClose (t : Nat) (unit : Nat)
  | spareSettled (t : Nat) (row : Nat)
  | verificationDone (t : Nat) (row : Nat)
  | backgroundTable (t : Nat) (port : Nat)
  | skewUpdate (t : Nat) (unit : Nat)
  | gateEnd (t : Nat) (unit : Nat)
  | hitExpiry (t : Nat) (port : Nat)
  /-- An edge in the TCLK cycle that begins at `t`; `p` is the trigger TDC's fine code (R126, R130). -/
  | trigInEdge (t : Nat) (k : Nat) (rising : Bool) (p : BitVec 8)
  | fsyncInEdge (t : Nat) (rising : Bool) (p : BitVec 8)
  -- histograms, echoes, ambient
  | binning (t : Nat) (port : Nat)
  | echoExtraction (t : Nat) (hits : List MemHit)
  | shotSet (t : Nat)
  | historyFrameEnd (t : Nat)
  | ambientSample (t : Nat)
  | trackerTick (t : Nat)
  | seedingEnd (t : Nat)
  -- frames
  | sof (t : Nat)
  | eol (t : Nat)
  | eof (t : Nat)
  | pointRecordPlace (t : Nat)
  | frameStartEvent (t : Nat)
  | facceptEdge (t : Nat) (n : Nat)
  | accwaitExpiry (t : Nat) (stream : Nat)
  /-- `late`: the line was not fetched before the partner's queue had sent the previous record (R358). -/
  | lineFetch (t : Nat) (stream : Nat) (resend : Bool) (hits : List MemHit) (late : Bool)
  -- capture
  | captureRecord (t : Nat)
  | trigger (t : Nat)
  | posttExpiry (t : Nat)
  | rearm (t : Nat)
  | avgIntervalEnd (t : Nat)
  -- mirror
  /-- `codes`: ADC-A's codes of the channel's conversions in the period, in order (R244). -/
  | excitationPeriodEnd (t : Nat) (ch : SenseCh) (codes : List (BitVec 12))
  | takeoverSettled (t : Nat) (ch : SenseCh)
  | stbyOpen (t : Nat) (input : Nat)
  | cicOutput (t : Nat) (ch : SenseCh)
  | turningPointEvent (t : Nat) (ch : SenseCh)
  | kick (t : Nat)
  | mstartExpiry (t : Nat)
  -- timebase
  /-- `count`: TCLK cycles (or system VCO cycles ÷ 5) over the window; `missing`: an edge was missing in it;
  `phase`: the phase in ticks of the first reference edge against the divided TCLK (R452). -/
  | lockWindow (t : Nat) (pll : Pll) (count : Nat) (missing : Bool) (phase : Int)
  | referenceLoss (t : Nat)
  | ptpSourceLoss (t : Nat)
  | tsnap (t : Nat)
  | slewComplete (t : Nat)
  -- safety
  | deviceTelegram (t : Nat)
  /-- One copy of a press telegram: the 16 words of path 1, or the characters received on path 2. -/
  | pressTelegram (t : Nat) (path : Nat) (words : List Word) (line : List LineChar)
  | pressTmo (t : Nat)
  | channelBWindowEnd (t : Nat) (row : Nat)
  | channelAEvaluation (t : Nat)
  | freshnessExpiry (t : Nat) (ch : SafCh) (cell : Nat)
  | tbridgeExpiry (t : Nat) (port : Nat)
  | trackingInterval (t : Nat) (ch : SafCh)
  /-- The level at one pin of pair n (0 to 3): pin A or B. -/
  | safeInChange (t : Nat) (n : Nat) (pinB : Bool) (level : Bool)
  | inputDisc (t : Nat) (n : Nat)
  | zoneSetSwitch (t : Nat) (ch : SafCh)
  | safeReset (t : Nat)
  | disc (t : Nat)
  | tclrExpiry (t : Nat)
  /-- `rbLow`, `rbHigh`: the read-back was low at the end of the pulse and high 50 µs after it; `otherFell`: the
  other output's read-back fell during the pulse. -/
  | ossdTest (t : Nat) (outB : Bool) (rbLow rbHigh otherFell : Bool)
  | ossdFault (t : Nat) (outB : Bool)
  | edmFault (t : Nat)
  | heartbeat (t : Nat)
  | lockstep (t : Nat)
  -- lanes and partners
  /-- `lane`: 0 to 7 data, 8 to 11 chain (0 SCU0, 1 SCU1, 2 SCD0, 3 SCD1). -/
  | laneStageAdvance (t : Nat) (lane : Nat)
  | trainingFrame (t : Nat) (lane : Nat) (frame : TrainFrame)
  | laneStageTimeout (t : Nat) (lane : Nat)
  | laneLoss (t : Nat) (lane : Nat)
  | hello (t : Nat) (lane : Nat) (src : EthSrc) (msg : List Word)
  | select (t : Nat) (lane : Nat) (src : EthSrc) (msg : List Word)
  | sub (t : Nat) (lane : Nat) (src : EthSrc) (msg : List Word)
  | keepalive (t : Nat) (lane : Nat) (src : EthSrc) (msg : List Word)
  | bye (t : Nat) (lane : Nat) (src : EthSrc) (msg : List Word)
  | keepaliveSend (t : Nat) (partner : Nat)
  | keepaliveTimeout (t : Nat) (partner : Nat)
  | accept (t : Nat) (lane : Nat) (src : EthSrc) (msg : List Word)
  | commit (t : Nat) (lane : Nat) (src : EthSrc) (msg : List Word)
  | chainJoin (t : Nat)
  | probeSend (t : Nat)
  | probe (t : Nat) (hdr : ChainHdr)
  /-- `hold`: H in ticks; `head`: the head's device time in ticks, as the neighbour forwards it; `rtt`: the round
  trip on the member's own clock, ticks; `ofs`: the neighbour's sum of hop means, ticks. -/
  | echo (t : Nat) (hdr : ChainHdr) (hold rtt : Nat) (head : Nat) (ofs : Int)
  | params (t : Nat) (hdr : ChainHdr) (p : ChainParams)
  | batten (t : Nat) (hdr : ChainHdr) (sync : Bool) (pg : Bool) (arg : Nat) (te : Nat)
  | tbedge (t : Nat) (hdr : ChainHdr) (line : Nat) (level : Bool) (stamp : Nat) (fine : BitVec 8)
  | triggerBusEvent (t : Nat) (line : Nat)
  | dove (t : Nat) (hdr : ChainHdr) (record : List Word)
  | timeset (t : Nat) (hdr : ChainHdr) (tsnap : Nat) (delta : Int) (origin : Nat)
  | arpRequest (t : Nat) (lane : Nat) (senderIp targetIp : BitVec 32) (senderMac : BitVec 48)
  | icmpEchoRequest (t : Nat) (lane : Nat) (ip : BitVec 32) (payload : List Byte)
  /-- A PTP Announce: domain, and the master's data set in the order of comparison of the default profile. -/
  | ptpAnnounce (t : Nat) (lane : Nat) (domain : Nat) (dataset : List Nat)
  /-- A PTP Sync, or the Follow_Up of a two-step Sync: the master's time and the arrival time, in ticks. -/
  | ptpSync (t : Nat) (lane : Nat) (domain : Nat) (twoStep : Bool) (master arrival : Nat)
  /-- A PTP Delay_Resp: the departure of the Delay_Req and its arrival at the master, in ticks. -/
  | ptpDelayResp (t : Nat) (lane : Nat) (domain : Nat) (departure arrival : Nat)
  -- memory
  /-- `dur` is how long the pass that starts takes, in ns. -/
  | scrubPassStart (t : Nat) (subB : Bool) (dur : Nat) (hits : List MemHit)
  /-- The module's sensors, whole °C. -/
  | thermalSensorRead (t : Nat) (temps : List Int)
  | periodicRecalibration (t : Nat) (subB : Bool)
  -- housekeeping
  | roundStart (t : Nat)
  /-- `raw`: the code that the converter gave for the channel. -/
  | conversionEnd (t : Nat) (ch : Nat) (raw : Nat)
  /-- `raws`: the codes of TS0 to TS11. -/
  | interimConversion (t : Nat) (raws : List Nat)
  | thermalTrip (t : Nat) (sensor : Nat)
  | thermalRelease (t : Nat)
  -- reset and boot
  /-- `low`: how long RESET_N was held low, in ns. -/
  | resetN (t : Nat) (low : Nat)
  | railLoss (t : Nat) (rail : Rail)
  | watchdog (t : Nat)
  | resetRelease (t : Nat)
  | bootFlash (t : Nat) (flash : Sfdp)
  | bootVerify (t : Nat) (image : Image)
  | bootCal (t : Nat) (elems : List CalElem)
  | bootMem (t : Nat) (spd : Spd)
  | bootTbl (t : Nat)
  | bootSeed (t : Nat)
  -- the last rows of the table
  | edmInputChange (t : Nat) (pinB : Bool) (level : Bool)
  | arpReply (t : Nat) (lane : Nat) (ip : BitVec 32) (mac : BitVec 48)
  | arpRequestTimeout (t : Nat) (lane : Nat) (ip : BitVec 32)
  deriving DecidableEq, Repr

end Sys2Proof
end

