-- ==== Sys2Proof/Decode.lean ====
section
/-! DEFINITION. The commands by the bits of the opcode table. -/

namespace Sys2Proof

/-- The command that a word spells by the table's bits: no row of spec/opcode_table.json gives bits, so none. -/
def decodeTableWord (_nbits _w : Nat) : Option Instr := none

end Sys2Proof
end

