-- ==== Sys2Proof/Config.lean ====
section
/-! DEFINITION. The free values: constants without a body, for what the manual leaves open. Nothing proves a value of
one, so a statement about the model holds whatever it is. -/

namespace Sys2Proof.Config

/-- A fresh free value: the `n`-th one that the model draws (`State.free` counts them; log entry 3). -/
opaque freeValue : Nat → Nat

/-- The SM3 hash of GB/T 32905-2016 over a byte stream (R474, R488), which the manual names and does not give
(log entry 5). -/
opaque sm3 : List Byte → BitVec 256

/-- The SM2 signature (r, s) that the device key gives for a digest (R488), log entry 5; the number is fresh
for each signature. -/
opaque sm2Sign : Nat → BitVec 256 → BitVec 256 × BitVec 256

/-- The SM3 digest of the device's identity public key (R484), which differs from device to device. -/
opaque identityHash : BitVec 256

/-- The device's certificate (R490), at most 2,048 bytes of it. -/
opaque certificate : List Byte

/-- The correction of an entry of SINT (false) or COST (true) where the rounded entries of a channel do not sum to 0 (R246,
log entry 22): for NEX, PHOFS and the index. -/
opaque tableFix : Bool → Nat → Nat → Nat → Int

/-- The value in 1/16 °C that the factory trim in OTP gives on-die sensor `n` for a corrected code (R498), and for a raw code
of an interim conversion with the OTP offset and gain (R513). -/
opaque sensorTrim : Nat → Nat → Int
opaque interimTrim : Nat → Nat → Int

end Sys2Proof.Config
end

