-- ==== Sys2Proof/Machine/RegMap.lean ====
section
/-! DEFINITION. The register map (R534) and the access and reset value of every field, one row per register or per
array of registers, transcribed from the register tables of spec/. A field whose table gives no reset value is listed
with 0 (log entry 4). -/

namespace Sys2Proof.Machine

/-- The access codes of R22. -/
inductive Acc where
  | rw | ro | w1c | rc | wo | lk | sf
  deriving DecidableEq, Repr

/-- A field of a register: bits hi to lo, access code and reset value. -/
structure FieldDesc where
  hi : Nat
  lo : Nat
  acc : Acc
  reset : Nat
  deriving DecidableEq, Repr

/-- A row of the map: `count` registers from `base` on, `stride` apart, of the same fields. -/
structure RegRow where
  base : Nat
  count : Nat
  stride : Nat
  fields : List FieldDesc
  deriving DecidableEq, Repr

namespace RegMap

/-- CTL, block 0xxxh. -/
def rows0 : List RegRow :=
  [⟨0x0000, 1, 1, [⟨19, 12, .ro, 84⟩, ⟨11, 4, .ro, 8⟩, ⟨3, 0, .ro, 2⟩]⟩, -- CTL_ID (R532)
   ⟨0x0001, 1, 1, [⟨19, 17, .ro, 1⟩, ⟨16, 16, .ro, 0⟩, ⟨15, 15, .ro, 0⟩, ⟨14, 14, .ro, 0⟩, ⟨13, 13, .ro, 0⟩, ⟨8, 0, .ro, 0⟩]⟩, -- CTL_STATUS (R533)
   ⟨0x0002, 1, 1, [⟨19, 17, .ro, 0⟩, ⟨3, 3, .w1c, 1⟩, ⟨2, 2, .w1c, 0⟩, ⟨1, 1, .w1c, 0⟩, ⟨0, 0, .w1c, 0⟩]⟩, -- CTL_RESET_CAUSE (R533)
   ⟨0x0003, 1, 1, [⟨19, 0, .ro, 0⟩]⟩, -- CTL_OPRESULT (R533)
   ⟨0x0004, 1, 1, [⟨19, 16, .ro, 0⟩, ⟨15, 15, .ro, 0⟩, ⟨14, 14, .ro, 0⟩, ⟨13, 13, .ro, 0⟩]⟩, -- CTL_OPSTAT (R533)
   ⟨0x0005, 1, 1, [⟨19, 16, .rw, 12⟩, ⟨15, 12, .rw, 0⟩]⟩, -- CTL_EVCFG (R533)
   ⟨0x0006, 1, 1, [⟨19, 0, .rc, 0⟩]⟩, -- CTL_EVLOST (R533)
   ⟨0x0007, 1, 1, [⟨19, 0, .rc, 0⟩]⟩, -- CTL_SPIERR (R533)
   ⟨0x0008, 4, 1, [⟨19, 0, .ro, 0⟩]⟩, -- CTL_EVQ (R533)
   ⟨0x0100, 1, 1, [⟨19, 19, .ro, 0⟩, ⟨18, 18, .ro, 0⟩, ⟨17, 17, .ro, 0⟩, ⟨16, 14, .ro, 0⟩, ⟨13, 13, .ro, 0⟩, ⟨12, 12, .rc, 0⟩, ⟨11, 0, .ro, 0⟩]⟩, -- CTL_SEQ_STATUS (R82)
   ⟨0x0101, 1, 1, [⟨19, 19, .w1c, 0⟩, ⟨18, 15, .w1c, 0⟩]⟩, -- CTL_SEQ_FLAGS (R83)
   ⟨0x0102, 1, 1, [⟨3, 0, .rw, 0⟩]⟩, -- CTL_SEQ_HOSTF (R83)
   ⟨0x0103, 4, 1, [⟨11, 0, .ro, 0⟩]⟩, -- CTL_SEQ_LC (R84)
   ⟨0x0107, 2, 1, [⟨19, 16, .ro, 0⟩, ⟨12, 0, .ro, 0⟩]⟩, -- CTL_SEQ_PGINFO (R85)
   ⟨0x0109, 1, 1, [⟨19, 8, .ro, 0⟩, ⟨7, 0, .ro, 0⟩]⟩, -- CTL_SEQ_PITCH (R86)
   ⟨0x010A, 1, 1, [⟨19, 12, .lk, 2⟩, ⟨11, 4, .lk, 0⟩, ⟨3, 0, .ro, 0⟩]⟩, -- CTL_SEQ_FMT (R86)
   ⟨0x010B, 1, 1, [⟨19, 0, .rc, 0⟩]⟩, -- CTL_SEQ_SLIP (R87)
   ⟨0x010C, 1, 1, [⟨19, 0, .rc, 0⟩]⟩, -- CTL_SEQ_HOLD (R87)
   ⟨0x010D, 1, 1, [⟨19, 19, .rw, 0⟩, ⟨3, 0, .rw, 0⟩]⟩, -- CTL_SEQ_LOADARG (R88)
   ⟨0x010E, 1, 1, [⟨19, 18, .wo, 0⟩, ⟨17, 17, .wo, 0⟩, ⟨11, 0, .wo, 0⟩]⟩, -- CTL_BATTEN (R89)
   ⟨0x010F, 1, 1, [⟨19, 0, .lk, 20000⟩]⟩, -- CTL_BATTEN_LEAD (R89)
   ⟨0x0110, 3, 1, [⟨19, 0, .ro, 0⟩]⟩, -- CTL_BATTEN_TIME (R89)
   ⟨0x0120, 1, 1, [⟨5, 0, .lk, 0⟩]⟩, -- CTL_SLOT_CFG (R240)
   ⟨0x0121, 1, 1, [⟨19, 0, .lk, 0⟩]⟩, -- CTL_SLOT_LEN (R240)
   ⟨0x0122, 2, 1, [⟨15, 0, .lk, 0⟩]⟩, -- CTL_SLOT_MASK (R240)
   ⟨0x0124, 1, 1, [⟨19, 19, .ro, 0⟩, ⟨18, 18, .ro, 0⟩, ⟨17, 17, .ro, 0⟩]⟩, -- CTL_SLOT_STAT (R240)
   ⟨0x0125, 1, 1, [⟨19, 0, .rc, 0⟩]⟩, -- CTL_SLOT_VIOL (R240)
   ⟨0x0126, 1, 1, [⟨19, 19, .lk, 0⟩, ⟨14, 8, .lk, 0⟩, ⟨6, 0, .lk, 0⟩]⟩, -- CTL_DOVE (R240)
   ⟨0x0130, 1, 1, [⟨19, 17, .ro, 0⟩, ⟨16, 16, .ro, 0⟩, ⟨7, 0, .ro, 0⟩]⟩, -- CTL_PROFILE (R515)
   ⟨0x0131, 1, 1, [⟨19, 17, .rw, 0⟩]⟩, -- CTL_PROF_ARG (R515)
   ⟨0x0138, 5, 1, [⟨19, 19, .lk, 0⟩, ⟨18, 15, .lk, 0⟩, ⟨14, 7, .lk, 0⟩, ⟨6, 6, .lk, 0⟩]⟩, -- CTL_PROF_REC (R515)
   ⟨0x0140, 5, 1, [⟨11, 0, .lk, 0⟩]⟩, -- CTL_PROF_ENT (R515)
   ⟨0x0148, 5, 1, [⟨15, 0, .lk, 0⟩]⟩] -- CTL_PROF_ZS (R515)

/-- TBU, block 1xxxh. -/
def rows1 : List RegRow :=
  [⟨0x1000, 1, 1, [⟨19, 19, .ro, 0⟩, ⟨18, 18, .ro, 0⟩, ⟨17, 17, .ro, 0⟩, ⟨16, 16, .ro, 0⟩, ⟨15, 15, .ro, 0⟩, ⟨14, 14, .ro, 0⟩, ⟨13, 13, .ro, 0⟩, ⟨12, 11, .ro, 0⟩, ⟨10, 10, .ro, 0⟩, ⟨9, 9, .w1c, 0⟩, ⟨8, 8, .w1c, 0⟩]⟩, -- TBU_STATUS (R461)
   ⟨0x1001, 1, 1, [⟨19, 0, .lk, 0⟩]⟩, -- TBU_REFF (R461)
   ⟨0x1002, 1, 1, [⟨7, 0, .lk, 0⟩]⟩, -- TBU_REFF_HI (R461)
   ⟨0x1003, 1, 1, [⟨19, 0, .rw, 0⟩]⟩, -- TBU_S_REFF (R461)
   ⟨0x1004, 1, 1, [⟨7, 0, .rw, 0⟩]⟩, -- TBU_S_REFF_HI (R461)
   ⟨0x1005, 1, 1, [⟨19, 8, .lk, 4095⟩, ⟨7, 0, .lk, 2⟩]⟩, -- TBU_LOCK (R461)
   ⟨0x1006, 1, 1, [⟨19, 0, .lk, 0⟩]⟩, -- TBU_DSEED (R461)
   ⟨0x1007, 1, 1, [⟨9, 0, .rw, 1000⟩]⟩, -- TBU_PJMAX (R461)
   ⟨0x1008, 1, 1, [⟨7, 0, .rw, 20⟩]⟩, -- TBU_SLEW (R461)
   ⟨0x1009, 1, 1, [⟨9, 0, .rw, 100⟩]⟩, -- TBU_REFQUAL (R461)
   ⟨0x100A, 1, 1, [⟨13, 0, .rw, 1000⟩]⟩, -- TBU_TLOOP (R461)
   ⟨0x100B, 1, 1, [⟨19, 0, .ro, 0⟩]⟩, -- TBU_TERR (R461)
   ⟨0x100C, 1, 1, [⟨19, 0, .ro, 0⟩]⟩, -- TBU_FOFS (R461)
   ⟨0x100D, 3, 1, [⟨19, 0, .ro, 0⟩]⟩, -- TBU_SNAPT (R461)
   ⟨0x1010, 2, 1, [⟨19, 0, .ro, 0⟩]⟩, -- TBU_SNAPD (R461)
   ⟨0x1012, 1, 1, [⟨19, 0, .ro, 0⟩]⟩, -- TBU_HOLDMS (R461)
   ⟨0x1013, 1, 1, [⟨19, 0, .rc, 0⟩]⟩, -- TBU_SNAPCNT (R461)
   ⟨0x1014, 1, 1, [⟨19, 0, .rc, 0⟩]⟩, -- TBU_LOSSCNT (R461)
   ⟨0x1020, 4, 1, [⟨19, 18, .rw, 0⟩, ⟨17, 16, .rw, 0⟩, ⟨15, 15, .rw, 0⟩, ⟨9, 0, .rw, 0⟩]⟩, -- TBU_CK (R462)
   ⟨0x1024, 4, 1, [⟨19, 18, .ro, 0⟩, ⟨17, 16, .ro, 0⟩, ⟨15, 15, .ro, 0⟩, ⟨9, 0, .ro, 0⟩]⟩] -- TBU_CKA (R462)

/-- EDU, block 2xxxh. -/
def rows2 : List RegRow :=
  [⟨0x2000, 1, 1, [⟨19, 19, .ro, 0⟩, ⟨18, 18, .ro, 0⟩, ⟨17, 17, .ro, 0⟩, ⟨16, 16, .ro, 0⟩, ⟨15, 14, .ro, 0⟩, ⟨7, 0, .ro, 0⟩]⟩, -- EDU_STATUS (R116)
   ⟨0x2001, 1, 1, [⟨19, 19, .w1c, 0⟩, ⟨18, 18, .w1c, 0⟩, ⟨17, 17, .w1c, 0⟩, ⟨15, 8, .w1c, 0⟩, ⟨7, 0, .w1c, 0⟩]⟩, -- EDU_FAULT (R117)
   ⟨0x2002, 1, 1, [⟨7, 0, .rw, 0⟩]⟩, -- EDU_ROW_EN (R118)
   ⟨0x2003, 1, 1, [⟨9, 0, .lk, 0⟩]⟩, -- EDU_GMAX (R118)
   ⟨0x2004, 1, 1, [⟨9, 0, .rw, 0⟩]⟩, -- EDU_HV_SET (R118)
   ⟨0x2005, 1, 1, [⟨19, 10, .lk, 0⟩, ⟨9, 0, .lk, 0⟩]⟩, -- EDU_HV_LIM (R118)
   ⟨0x2006, 1, 1, [⟨9, 0, .ro, 0⟩]⟩, -- EDU_HV (R118)
   ⟨0x2007, 1, 1, [⟨15, 8, .lk, 236⟩, ⟨7, 0, .lk, 70⟩]⟩, -- EDU_TWIN (R118)
   ⟨0x2008, 8, 1, [⟨9, 0, .rw, 0⟩]⟩, -- EDU_ISET (R118)
   ⟨0x2010, 1, 1, [⟨19, 0, .lk, 0⟩]⟩, -- EDU_DITH_SEED (R118)
   ⟨0x2011, 1, 1, [⟨19, 0, .ro, 0⟩]⟩, -- EDU_DITH_STATE (R118)
   ⟨0x2012, 1, 1, [⟨9, 0, .rw, 0⟩]⟩, -- EDU_MPD_THR (R118)
   ⟨0x2018, 8, 1, [⟨19, 19, .ro, 0⟩, ⟨15, 0, .ro, 0⟩]⟩, -- EDU_MPD_E (R118)
   ⟨0x2020, 8, 1, [⟨19, 0, .rc, 0⟩]⟩, -- EDU_SYNTH (R118)
   ⟨0x2040, 64, 1, [⟨5, 0, .rw, 0⟩]⟩, -- EDU_TRIM (R118)
   ⟨0x2080, 8, 1, [⟨4, 0, .ro, 0⟩]⟩, -- EDU_ADJ (R118)
   ⟨0x2100, 1, 1, [⟨19, 0, .lk, 0⟩]⟩, -- EDU_GOV_K (R118)
   ⟨0x2101, 1, 1, [⟨19, 0, .lk, 0⟩]⟩, -- EDU_MPD_K (R118)
   ⟨0x2102, 1, 1, [⟨7, 0, .lk, 32⟩]⟩, -- EDU_EXCESS (R118)
   ⟨0x2108, 6, 1, [⟨19, 0, .lk, 0⟩]⟩, -- EDU_CEIL_M (R118)
   ⟨0x210E, 6, 1, [⟨19, 0, .lk, 0⟩]⟩, -- EDU_CEIL_S (R118)
   ⟨0x2118, 6, 1, [⟨19, 0, .ro, 0⟩]⟩, -- EDU_GSUM (R118)
   ⟨0x2120, 3, 1, [⟨19, 0, .rc, 0⟩]⟩, -- EDU_GINH (R118)
   ⟨0x2123, 1, 1, [⟨19, 0, .rc, 0⟩]⟩, -- EDU_GINH_LATE (R118)
   ⟨0x2200, 16, 4, [⟨19, 17, .lk, 0⟩, ⟨7, 0, .lk, 0⟩]⟩, -- EDU_BURST_W0 (R119)
   ⟨0x2201, 16, 4, [⟨15, 8, .lk, 0⟩, ⟨7, 0, .lk, 0⟩]⟩, -- EDU_BURST_W1 (R119)
   ⟨0x2202, 16, 4, [⟨15, 8, .lk, 0⟩, ⟨7, 0, .lk, 0⟩]⟩, -- EDU_BURST_W2 (R119)
   ⟨0x2203, 16, 4, [⟨15, 8, .lk, 0⟩, ⟨7, 0, .lk, 0⟩]⟩] -- EDU_BURST_W3 (R119)

/-- STU and CEN, block 3xxxh. -/
def rows3a : List RegRow :=
  [⟨0x3000, 1, 1, [⟨19, 19, .ro, 0⟩, ⟨18, 18, .ro, 0⟩, ⟨17, 17, .ro, 0⟩, ⟨16, 16, .ro, 0⟩, ⟨15, 15, .ro, 0⟩, ⟨14, 14, .ro, 0⟩, ⟨13, 12, .ro, 0⟩, ⟨11, 10, .ro, 0⟩, ⟨9, 9, .ro, 0⟩, ⟨8, 8, .ro, 0⟩]⟩, -- STU_STATUS (R270)
   ⟨0x3001, 1, 1, [⟨19, 16, .w1c, 0⟩, ⟨15, 12, .w1c, 0⟩, ⟨11, 11, .w1c, 0⟩, ⟨10, 10, .w1c, 0⟩, ⟨9, 8, .ro, 0⟩, ⟨7, 7, .ro, 0⟩, ⟨6, 5, .ro, 0⟩, ⟨4, 4, .ro, 0⟩]⟩, -- STU_FAULT (R270)
   ⟨0x3002, 1, 1, [⟨19, 19, .lk, 0⟩, ⟨12, 0, .lk, 0⟩]⟩, -- STU_MIRCFG (R271)
   ⟨0x3003, 1, 1, [⟨19, 13, .lk, 0⟩, ⟨9, 0, .lk, 0⟩]⟩, -- STU_EXC (R271)
   ⟨0x3004, 1, 1, [⟨10, 0, .rw, 0⟩]⟩, -- STU_EXAMP (R271)
   ⟨0x3005, 1, 1, [⟨19, 19, .lk, 0⟩, ⟨18, 18, .lk, 0⟩, ⟨17, 17, .rw, 0⟩, ⟨16, 15, .rw, 0⟩, ⟨14, 13, .lk, 0⟩, ⟨12, 9, .lk, 0⟩]⟩, -- STU_SNS_C (R271)
   ⟨0x3006, 1, 1, [⟨19, 19, .lk, 0⟩, ⟨18, 18, .lk, 0⟩, ⟨17, 17, .rw, 0⟩, ⟨16, 15, .rw, 0⟩, ⟨14, 13, .lk, 0⟩, ⟨12, 9, .lk, 0⟩]⟩, -- STU_SNS_M (R271)
   ⟨0x3008, 4, 1, [⟨11, 0, .lk, 0⟩]⟩, -- STU_IZ (R271)
   ⟨0x300C, 4, 1, [⟨13, 0, .lk, 0⟩]⟩, -- STU_TRIM (R271)
   ⟨0x3010, 1, 1, [⟨19, 0, .lk, 0⟩]⟩, -- STU_AWLO_C (R271)
   ⟨0x3011, 1, 1, [⟨19, 0, .lk, 0⟩]⟩, -- STU_AWHI_C (R271)
   ⟨0x3012, 1, 1, [⟨19, 0, .lk, 0⟩]⟩, -- STU_AWLO_M (R271)
   ⟨0x3013, 1, 1, [⟨19, 0, .lk, 0⟩]⟩, -- STU_AWHI_M (R271)
   ⟨0x3014, 1, 1, [⟨19, 18, .lk, 0⟩, ⟨17, 9, .lk, 0⟩, ⟨8, 8, .lk, 0⟩]⟩, -- STU_CIC (R271)
   ⟨0x3015, 2, 1, [⟨19, 0, .lk, 0⟩]⟩, -- STU_CICSH (R271)
   ⟨0x3017, 1, 1, [⟨19, 0, .lk, 0⟩]⟩, -- STU_KANG_C (R271)
   ⟨0x3018, 1, 1, [⟨19, 0, .lk, 0⟩]⟩, -- STU_KANG_M (R271)
   ⟨0x3019, 1, 1, [⟨19, 0, .ro, 0⟩]⟩, -- STU_ANG_C (R271)
   ⟨0x301A, 1, 1, [⟨19, 0, .ro, 0⟩]⟩, -- STU_ANG_M (R271)
   ⟨0x301C, 1, 1, [⟨19, 0, .ro, 0⟩]⟩, -- STU_IPR_C (R271)
   ⟨0x301D, 1, 1, [⟨19, 0, .ro, 0⟩]⟩, -- STU_IPR_M (R271)
   ⟨0x301E, 1, 1, [⟨19, 0, .ro, 0⟩]⟩, -- STU_AMP (R271)
   ⟨0x301F, 1, 1, [⟨19, 0, .ro, 0⟩]⟩, -- STU_HPER (R271)
   ⟨0x3020, 1, 1, [⟨13, 0, .ro, 0⟩]⟩, -- STU_GD (R271)
   ⟨0x3021, 1, 1, [⟨19, 0, .lk, 0⟩]⟩, -- STU_BORG (R271)
   ⟨0x3022, 1, 1, [⟨19, 0, .lk, 0⟩]⟩, -- STU_BWID (R271)
   ⟨0x3023, 1, 1, [⟨12, 0, .lk, 0⟩]⟩, -- STU_NBIN (R271)
   ⟨0x3024, 1, 1, [⟨19, 0, .lk, 0⟩]⟩, -- STU_MWLO (R271)
   ⟨0x3025, 1, 1, [⟨19, 0, .lk, 0⟩]⟩, -- STU_MWHI (R271)
   ⟨0x3026, 1, 1, [⟨19, 0, .lk, 0⟩]⟩, -- STU_TPMIN (R271)
   ⟨0x3027, 1, 1, [⟨19, 0, .ro, 0⟩]⟩, -- STU_TPERR (R271)
   ⟨0x3028, 1, 1, [⟨19, 0, .rc, 0⟩]⟩, -- STU_REPL (R271)
   ⟨0x3029, 1, 1, [⟨19, 0, .rc, 0⟩]⟩, -- STU_BADPER (R271)
   ⟨0x302A, 1, 1, [⟨15, 0, .lk, 0⟩]⟩, -- STU_MSTART (R271)
   ⟨0x302B, 1, 1, [⟨7, 0, .lk, 0⟩]⟩, -- STU_NRD (R271)
   ⟨0x3030, 1, 1, [⟨19, 0, .ro, 0⟩]⟩, -- STU_F0 (R271)
   ⟨0x3031, 1, 1, [⟨19, 0, .ro, 0⟩]⟩, -- STU_Q (R271)
   ⟨0x3032, 1, 1, [⟨15, 0, .ro, 0⟩]⟩, -- STU_DEC (R271)
   ⟨0x3033, 1, 1, [⟨19, 0, .ro, 0⟩]⟩, -- STU_KG (R271)
   ⟨0x3034, 1, 1, [⟨19, 0, .ro, 0⟩]⟩] -- STU_MA1 (R271)

/-- STU and CEN, block 3xxxh. -/
def rows3b : List RegRow :=
  [⟨0x3035, 1, 1, [⟨19, 0, .ro, 0⟩]⟩, -- STU_MA2 (R271)
   ⟨0x3036, 1, 1, [⟨19, 0, .ro, 0⟩]⟩, -- STU_MB (R271)
   ⟨0x3038, 1, 1, [⟨19, 0, .lk, 0⟩]⟩, -- STU_RLIMA (R271)
   ⟨0x3039, 1, 1, [⟨19, 0, .lk, 0⟩]⟩, -- STU_RLIMT (R271)
   ⟨0x303A, 1, 1, [⟨19, 0, .lk, 0⟩]⟩, -- STU_XTOL (R271)
   ⟨0x303B, 1, 1, [⟨19, 0, .ro, 0⟩]⟩, -- STU_RES (R271)
   ⟨0x3040, 3, 16, [⟨19, 19, .rw, 0⟩, ⟨18, 18, .rw, 0⟩, ⟨17, 17, .ro, 0⟩]⟩, -- CEN_CTL (R272)
   ⟨0x3041, 1, 1, [⟨19, 0, .rw, 0⟩]⟩, -- CEN_L0_TGT (R272)
   ⟨0x3042, 3, 16, [⟨19, 0, .ro, 0⟩]⟩, -- CEN_SPT (R272)
   ⟨0x3043, 3, 16, [⟨19, 0, .rw, 0⟩]⟩, -- CEN_SLEW (R272)
   ⟨0x3044, 3, 16, [⟨19, 0, .rw, 0⟩]⟩, -- CEN_VMAX (R272)
   ⟨0x3045, 3, 16, [⟨19, 0, .rw, 0⟩]⟩, -- CEN_AMAX (R272)
   ⟨0x3046, 3, 16, [⟨19, 0, .rw, 0⟩]⟩, -- CEN_JMAX (R272)
   ⟨0x3051, 1, 1, [⟨19, 0, .ro, 0⟩]⟩, -- CEN_L1_TGT (R272)
   ⟨0x3080, 2, 4, [⟨19, 0, .rw, 0⟩]⟩, -- CEN_L0_BAND (R273)
   ⟨0x3081, 2, 4, [⟨19, 0, .rw, 0⟩]⟩, -- CEN_L0_WIDTH (R273)
   ⟨0x3082, 2, 4, [⟨17, 8, .rw, 0⟩, ⟨7, 0, .rw, 0⟩]⟩, -- CEN_L0_DUTY (R273)
   ⟨0x3083, 2, 4, [⟨19, 0, .rw, 0⟩]⟩, -- CEN_L0_LIM (R273)
   ⟨0x3088, 2, 4, [⟨19, 0, .rw, 0⟩]⟩, -- CEN_L1_BAND (R273)
   ⟨0x3089, 2, 4, [⟨19, 0, .rw, 0⟩]⟩, -- CEN_L1_WIDTH (R273)
   ⟨0x308A, 2, 4, [⟨7, 0, .rw, 0⟩]⟩, -- CEN_L1_DUTY (R273)
   ⟨0x308B, 2, 4, [⟨19, 0, .rw, 0⟩]⟩, -- CEN_L1_LIM (R273)
   ⟨0x3090, 2, 4, [⟨19, 0, .rw, 20⟩]⟩, -- CEN_L2_BAND (R273)
   ⟨0x3091, 2, 4, [⟨0, 1, .rw, 0⟩]⟩, -- CEN_L2_WIDTH (R273)
   ⟨0x3092, 2, 4, [⟨4, 0, .rw, 0⟩]⟩, -- CEN_L2_DUTY (R273)
   ⟨0x3093, 2, 4, [⟨4, 0, .rw, 0⟩]⟩] -- CEN_L2_LIM (R273)

/-- STU and CEN, block 3xxxh. -/
def rows3 : List RegRow := rows3a ++ rows3b

/-- RTA (ports), block 4xxxh. -/
def rows4 : List RegRow :=
  [⟨0x4000, 256, 16, [⟨19, 19, .rw, 0⟩, ⟨18, 17, .rw, 0⟩, ⟨16, 15, .rw, 0⟩, ⟨14, 11, .rw, 0⟩, ⟨10, 10, .rw, 0⟩]⟩, -- RTA_PCFG (R159)
   ⟨0x4001, 256, 16, [⟨19, 16, .rw, 0⟩, ⟨9, 0, .rw, 0⟩]⟩, -- RTA_PTHRL (R159)
   ⟨0x4002, 256, 16, [⟨19, 16, .rw, 0⟩, ⟨9, 0, .rw, 0⟩]⟩, -- RTA_PTHRH (R159)
   ⟨0x4003, 256, 16, [⟨9, 0, .ro, 0⟩]⟩, -- RTA_PATHR (R159)
   ⟨0x4004, 256, 16, [⟨19, 19, .ro, 0⟩, ⟨18, 18, .ro, 0⟩, ⟨17, 17, .ro, 0⟩, ⟨16, 16, .ro, 0⟩, ⟨15, 15, .ro, 1⟩, ⟨14, 14, .w1c, 0⟩, ⟨13, 13, .w1c, 0⟩, ⟨12, 11, .ro, 0⟩, ⟨10, 10, .ro, 0⟩]⟩, -- RTA_PSTAT (R159)
   ⟨0x4005, 256, 16, [⟨19, 0, .rc, 0⟩]⟩, -- RTA_PSTOPS (R159)
   ⟨0x4006, 256, 16, [⟨19, 0, .rc, 0⟩]⟩, -- RTA_PEARLY (R159)
   ⟨0x4007, 256, 16, [⟨19, 0, .rc, 0⟩]⟩, -- RTA_PMERGED (R159)
   ⟨0x4008, 256, 16, [⟨19, 0, .rc, 0⟩]⟩, -- RTA_POVF (R159)
   ⟨0x4009, 256, 16, [⟨19, 0, .rc, 0⟩]⟩, -- RTA_PMORE (R159)
   ⟨0x400A, 256, 16, [⟨19, 19, .ro, 0⟩, ⟨18, 18, .ro, 0⟩, ⟨17, 17, .ro, 0⟩, ⟨16, 16, .ro, 0⟩, ⟨11, 0, .ro, 0⟩]⟩, -- RTA_PCHK (R159)
   ⟨0x400B, 256, 16, [⟨19, 0, .ro, 0⟩]⟩, -- RTA_PFQN (R159)
   ⟨0x400C, 256, 16, [⟨19, 0, .ro, 0⟩]⟩, -- RTA_PFQP (R159)
   ⟨0x400D, 256, 16, [⟨19, 0, .ro, 0⟩]⟩, -- RTA_PFQP_HI (R159)
   ⟨0x400E, 256, 16, [⟨19, 0, .ro, 0⟩]⟩, -- RTA_PBGN (R159)
   ⟨0x400F, 256, 16, [⟨15, 0, .ro, 0⟩]⟩] -- RTA_PSKEW (R159)

/-- RTA, block 5xxxh. -/
def rows5 : List RegRow :=
  [⟨0x5000, 1, 1, [⟨19, 12, .ro, 0⟩, ⟨8, 0, .ro, 0⟩]⟩, -- RTA_GSTAT (R161)
   ⟨0x5001, 1, 1, [⟨15, 8, .rw, 8⟩, ⟨1, 0, .rw, 2⟩]⟩, -- RTA_CHK (R161)
   ⟨0x5002, 1, 1, [⟨19, 0, .rw, 131072⟩]⟩, -- RTA_BGH (R161)
   ⟨0x5003, 1, 1, [⟨15, 8, .rw, 4⟩, ⟨7, 0, .rw, 64⟩]⟩, -- RTA_TRK (R161)
   ⟨0x5004, 1, 1, [⟨19, 0, .rw, 4530⟩]⟩, -- RTA_AIRIDX (R161)
   ⟨0x5005, 1, 1, [⟨9, 0, .sf, 0⟩]⟩, -- RTA_ATHR_MAX (R161)
   ⟨0x5006, 1, 1, [⟨7, 0, .rw, 64⟩]⟩, -- RTA_SKEWN (R161)
   ⟨0x5007, 1, 1, [⟨7, 0, .rw, 16⟩]⟩, -- RTA_FQW (R161)
   ⟨0x5008, 8, 1, [⟨19, 19, .ro, 0⟩, ⟨18, 18, .ro, 0⟩, ⟨17, 17, .wo, 0⟩, ⟨16, 16, .ro, 0⟩, ⟨15, 14, .ro, 0⟩, ⟨12, 8, .ro, 0⟩, ⟨4, 0, .wo, 0⟩]⟩, -- RTA_SPARE (R162)
   ⟨0x5010, 1, 1, [⟨8, 0, .rw, 0⟩]⟩, -- RTA_LUT_SEL (R161)
   ⟨0x5011, 1, 1, [⟨7, 0, .ro, 0⟩]⟩, -- RTA_STARTFAIL (R161)
   ⟨0x5012, 1, 1, [⟨19, 0, .rw, 1000⟩]⟩, -- RTA_FGATE (R161)
   ⟨0x5013, 1, 1, [⟨15, 0, .sf, 0⟩]⟩, -- RTA_AIRDEV (R161)
   ⟨0x5014, 1, 1, [⟨19, 19, .rw, 0⟩, ⟨18, 11, .rw, 0⟩, ⟨10, 0, .rw, 0⟩]⟩, -- RTA_JIG (R161)
   ⟨0x5020, 8, 1, [⟨19, 19, .rw, 0⟩, ⟨18, 13, .rw, 0⟩]⟩, -- RTA_FCFG_S (R163)
   ⟨0x5028, 4, 1, [⟨19, 19, .rw, 0⟩, ⟨18, 13, .rw, 0⟩, ⟨12, 12, .lk, 0⟩, ⟨11, 11, .rw, 0⟩]⟩, -- RTA_FCFG_T (R163)
   ⟨0x5030, 12, 4, [⟨19, 0, .ro, 0⟩]⟩, -- RTA_FRES_N (R163)
   ⟨0x5031, 12, 4, [⟨19, 0, .ro, 0⟩]⟩, -- RTA_FRES_PERIOD (R163)
   ⟨0x5032, 12, 4, [⟨19, 0, .ro, 0⟩]⟩, -- RTA_FRES_PERIOD_HI (R163)
   ⟨0x5033, 12, 4, [⟨19, 0, .ro, 0⟩]⟩, -- RTA_FRES_RSVD (R163)
   ⟨0x5100, 256, 1, [⟨12, 0, .ro, 0⟩]⟩, -- RTA_LUT (R161)
   ⟨0x5400, 1024, 1, [⟨15, 0, .rw, 0⟩]⟩] -- RTA_WALK (R161)

/-- RPE, block 6xxxh. -/
def rows6a : List RegRow :=
  [⟨0x6000, 1, 1, [⟨3, 0, .rw, 4⟩]⟩, -- RPE_HCFG (R191)
   ⟨0x6001, 1, 1, [⟨8, 0, .ro, 0⟩]⟩, -- RPE_HSTAT (R191)
   ⟨0x6002, 1, 1, [⟨19, 0, .rc, 0⟩]⟩, -- RPE_STRETCH (R192)
   ⟨0x6003, 1, 1, [⟨19, 0, .rc, 0⟩]⟩, -- RPE_PARTIAL (R192)
   ⟨0x6004, 1, 1, [⟨19, 0, .rc, 0⟩]⟩, -- RPE_SATCNT (R192)
   ⟨0x6005, 1, 1, [⟨19, 0, .rc, 0⟩]⟩, -- RPE_CREJ (R192)
   ⟨0x6006, 1, 1, [⟨19, 0, .rc, 0⟩]⟩, -- RPE_ZLAG (R192)
   ⟨0x6007, 1, 1, [⟨19, 0, .rc, 0⟩]⟩, -- RPE_NOREC (R192)
   ⟨0x6008, 8, 1, [⟨19, 18, .rw, 0⟩, ⟨3, 0, .rw, 0⟩]⟩, -- RPE_COINC (R193)
   ⟨0x6010, 1, 1, [⟨19, 12, .lk, 80⟩, ⟨11, 4, .lk, 3⟩]⟩, -- RPE_ECFG (R220)
   ⟨0x6011, 1, 1, [⟨11, 0, .lk, 64⟩]⟩, -- RPE_ELIVE (R220)
   ⟨0x6012, 1, 1, [⟨19, 12, .rw, 24⟩, ⟨11, 4, .rw, 64⟩]⟩, -- RPE_ECLS (R220)
   ⟨0x6013, 1, 1, [⟨19, 12, .rw, 32⟩, ⟨11, 0, .rw, 16⟩]⟩, -- RPE_EMCFG (R220)
   ⟨0x6014, 1, 1, [⟨3, 0, .rw, 4⟩]⟩, -- RPE_EHIST (R220)
   ⟨0x6018, 8, 1, [⟨19, 19, .lk, 0⟩]⟩, -- RPE_EGRP (R220)
   ⟨0x6020, 11, 1, [⟨3, 0, .lk, 0⟩]⟩, -- RPE_MFSEL (R220)
   ⟨0x6030, 1, 1, [⟨19, 16, .ro, 0⟩, ⟨15, 15, .ro, 1⟩, ⟨8, 0, .ro, 0⟩]⟩, -- RPE_ESTAT (R220)
   ⟨0x6031, 1, 1, [⟨19, 0, .rc, 0⟩]⟩, -- RPE_ECHOES (R220)
   ⟨0x6032, 1, 1, [⟨19, 0, .rc, 0⟩]⟩, -- RPE_NOECHO (R220)
   ⟨0x6033, 1, 1, [⟨19, 0, .rc, 0⟩]⟩, -- RPE_MOREECHO (R220)
   ⟨0x6034, 1, 1, [⟨19, 0, .rc, 0⟩]⟩, -- RPE_MISTCNT (R220)
   ⟨0x6035, 1, 1, [⟨19, 0, .rc, 0⟩]⟩, -- RPE_FORCNT (R220)
   ⟨0x6036, 1, 1, [⟨19, 0, .rc, 0⟩]⟩, -- RPE_BGFALL (R220)
   ⟨0x6037, 1, 1, [⟨19, 0, .rc, 0⟩]⟩, -- RPE_HISTUE (R220)
   ⟨0x6040, 1, 1, [⟨19, 18, .lk, 0⟩, ⟨17, 12, .lk, 0⟩, ⟨11, 11, .lk, 0⟩, ⟨9, 0, .lk, 0⟩]⟩, -- RPE_AMBCFG (R239)
   ⟨0x6041, 2, 1, [⟨19, 0, .lk, 0⟩]⟩, -- RPE_AMBNORM (R239)
   ⟨0x6043, 1, 1, [⟨7, 0, .lk, 16⟩]⟩, -- RPE_AMBSEED (R239)
   ⟨0x6044, 1, 1, [⟨9, 0, .rw, 0⟩]⟩, -- RPE_AMBSTALE (R239)
   ⟨0x6045, 1, 1, [⟨2, 0, .lk, 0⟩]⟩, -- RPE_AMBHI (R239)
   ⟨0x6046, 1, 1, [⟨19, 0, .rc, 0⟩]⟩, -- RPE_AMBEVT (R239)
   ⟨0x6048, 8, 1, [⟨19, 0, .lk, 0⟩]⟩, -- RPE_AMBLVL (R239)
   ⟨0x6050, 8, 1, [⟨19, 0, .lk, 0⟩]⟩, -- RPE_AMBREL (R239)
   ⟨0x6058, 8, 1, [⟨7, 0, .lk, 0⟩]⟩, -- RPE_AMBSTEP (R239)
   ⟨0x6060, 1, 1, [⟨19, 12, .rw, 16⟩, ⟨7, 0, .rw, 4⟩]⟩, -- RPE_FOR_CFG (R239)
   ⟨0x6061, 1, 1, [⟨19, 0, .rw, 0⟩]⟩, -- RPE_FOR_PMIN (R239)
   ⟨0x6062, 1, 1, [⟨19, 0, .rw, 0⟩]⟩, -- RPE_FOR_PMAX (R239)
   ⟨0x6063, 1, 1, [⟨8, 0, .rw, 0⟩, ⟨19, 12, .rw, 0⟩]⟩, -- RPE_FOR_PORTS (R239)
   ⟨0x6064, 1, 1, [⟨19, 19, .ro, 0⟩, ⟨8, 0, .ro, 0⟩]⟩, -- RPE_FOR_STAT (R239)
   ⟨0x6068, 16, 1, [⟨15, 0, .ro, 0⟩]⟩, -- RPE_FOR_HIT (R239)
   ⟨0x6100, 256, 1, [⟨19, 0, .ro, 1048575⟩]⟩] -- RPE_ZANC (R193)

/-- RPE, block 6xxxh. -/
def rows6b : List RegRow :=
  [⟨0x6200, 256, 1, [⟨19, 0, .lk, 0⟩]⟩, -- RPE_ROFS (R220)
   ⟨0x6300, 1, 1, [⟨19, 0, .ro, 383763⟩]⟩, -- RPE_KR (R220)
   ⟨0x6301, 1, 1, [⟨19, 0, .ro, 9⟩]⟩, -- RPE_KR_HI (R220)
   ⟨0x6400, 16, 64, [⟨19, 15, .lk, 0⟩, ⟨14, 10, .lk, 0⟩, ⟨9, 7, .lk, 0⟩]⟩, -- RPE_FTAB_W0 (R221)
   ⟨0x6401, 16, 64, [⟨19, 12, .lk, 0⟩, ⟨11, 4, .lk, 1⟩]⟩, -- RPE_FTAB_W1 (R221)
   ⟨0x6402, 16, 64, [⟨15, 0, .lk, 0⟩]⟩, -- RPE_FTAB_W2 (R221)
   ⟨0x6408, 16, 64, [⟨11, 0, .lk, 1⟩]⟩, -- RPE_FTAB_C0 (R221)
   ⟨0x6409, 16, 64, [⟨11, 0, .lk, 0⟩]⟩, -- RPE_FTAB_C1 (R221)
   ⟨0x640A, 16, 64, [⟨11, 0, .lk, 0⟩]⟩, -- RPE_FTAB_C2 (R221)
   ⟨0x640B, 16, 64, [⟨11, 0, .lk, 0⟩]⟩, -- RPE_FTAB_C3 (R221)
   ⟨0x640C, 16, 64, [⟨11, 0, .lk, 0⟩]⟩, -- RPE_FTAB_C4 (R221)
   ⟨0x640D, 16, 64, [⟨11, 0, .lk, 0⟩]⟩, -- RPE_FTAB_C5 (R221)
   ⟨0x640E, 16, 64, [⟨11, 0, .lk, 0⟩]⟩, -- RPE_FTAB_C6 (R221)
   ⟨0x640F, 16, 64, [⟨11, 0, .lk, 0⟩]⟩, -- RPE_FTAB_C7 (R221)
   ⟨0x6410, 16, 64, [⟨11, 0, .lk, 0⟩]⟩, -- RPE_FTAB_C8 (R221)
   ⟨0x6411, 16, 64, [⟨11, 0, .lk, 0⟩]⟩, -- RPE_FTAB_C9 (R221)
   ⟨0x6412, 16, 64, [⟨11, 0, .lk, 0⟩]⟩, -- RPE_FTAB_C10 (R221)
   ⟨0x6413, 16, 64, [⟨11, 0, .lk, 0⟩]⟩, -- RPE_FTAB_C11 (R221)
   ⟨0x6414, 16, 64, [⟨11, 0, .lk, 0⟩]⟩, -- RPE_FTAB_C12 (R221)
   ⟨0x6415, 16, 64, [⟨11, 0, .lk, 0⟩]⟩, -- RPE_FTAB_C13 (R221)
   ⟨0x6416, 16, 64, [⟨11, 0, .lk, 0⟩]⟩, -- RPE_FTAB_C14 (R221)
   ⟨0x6417, 16, 64, [⟨11, 0, .lk, 0⟩]⟩, -- RPE_FTAB_C15 (R221)
   ⟨0x6418, 16, 64, [⟨11, 0, .lk, 0⟩]⟩, -- RPE_FTAB_C16 (R221)
   ⟨0x6419, 16, 64, [⟨11, 0, .lk, 0⟩]⟩, -- RPE_FTAB_C17 (R221)
   ⟨0x641A, 16, 64, [⟨11, 0, .lk, 0⟩]⟩, -- RPE_FTAB_C18 (R221)
   ⟨0x641B, 16, 64, [⟨11, 0, .lk, 0⟩]⟩, -- RPE_FTAB_C19 (R221)
   ⟨0x641C, 16, 64, [⟨11, 0, .lk, 0⟩]⟩, -- RPE_FTAB_C20 (R221)
   ⟨0x641D, 16, 64, [⟨11, 0, .lk, 0⟩]⟩, -- RPE_FTAB_C21 (R221)
   ⟨0x641E, 16, 64, [⟨11, 0, .lk, 0⟩]⟩, -- RPE_FTAB_C22 (R221)
   ⟨0x641F, 16, 64, [⟨11, 0, .lk, 0⟩]⟩, -- RPE_FTAB_C23 (R221)
   ⟨0x6420, 16, 64, [⟨11, 0, .lk, 0⟩]⟩, -- RPE_FTAB_C24 (R221)
   ⟨0x6421, 16, 64, [⟨11, 0, .lk, 0⟩]⟩, -- RPE_FTAB_C25 (R221)
   ⟨0x6422, 16, 64, [⟨11, 0, .lk, 0⟩]⟩, -- RPE_FTAB_C26 (R221)
   ⟨0x6423, 16, 64, [⟨11, 0, .lk, 0⟩]⟩, -- RPE_FTAB_C27 (R221)
   ⟨0x6424, 16, 64, [⟨11, 0, .lk, 0⟩]⟩, -- RPE_FTAB_C28 (R221)
   ⟨0x6425, 16, 64, [⟨11, 0, .lk, 0⟩]⟩, -- RPE_FTAB_C29 (R221)
   ⟨0x6426, 16, 64, [⟨11, 0, .lk, 0⟩]⟩, -- RPE_FTAB_C30 (R221)
   ⟨0x6427, 16, 64, [⟨11, 0, .lk, 0⟩]⟩, -- RPE_FTAB_C31 (R221)
   ⟨0x6800, 256, 1, [⟨19, 0, .ro, 0⟩]⟩, -- RPE_LAMB (R239)
   ⟨0x6900, 256, 1, [⟨9, 9, .ro, 0⟩, ⟨8, 8, .ro, 0⟩, ⟨7, 0, .ro, 0⟩]⟩] -- RPE_ALVL (R239)

/-- RPE, block 6xxxh. -/
def rows6 : List RegRow := rows6a ++ rows6b

/-- CAP, block 7xxxh. -/
def rows7a : List RegRow :=
  [⟨0x7000, 1, 1, [⟨19, 17, .ro, 0⟩, ⟨16, 16, .ro, 1⟩, ⟨15, 14, .ro, 0⟩]⟩, -- CAP_STATUS (R338)
   ⟨0x7001, 1, 1, [⟨19, 19, .rw, 0⟩, ⟨18, 18, .wo, 0⟩, ⟨17, 17, .wo, 0⟩]⟩, -- CAP_CTL (R338)
   ⟨0x7002, 1, 1, [⟨19, 19, .wo, 0⟩]⟩, -- CAP_SETUP (R338)
   ⟨0x7003, 1, 1, [⟨19, 18, .rw, 0⟩, ⟨17, 16, .rw, 0⟩, ⟨15, 15, .rw, 0⟩, ⟨14, 11, .rw, 0⟩, ⟨10, 8, .rw, 0⟩, ⟨7, 7, .rw, 0⟩, ⟨6, 6, .lk, 0⟩]⟩, -- CAP_S_MODE (R339)
   ⟨0x7004, 1, 1, [⟨15, 0, .rw, 32768⟩]⟩, -- CAP_S_TRIG (R339)
   ⟨0x7005, 2, 1, [⟨19, 0, .rw, 0⟩]⟩, -- CAP_S_SEGW (R339)
   ⟨0x7007, 1, 1, [⟨19, 0, .rw, 0⟩]⟩, -- CAP_S_NSEG (R339)
   ⟨0x7008, 2, 1, [⟨19, 0, .rw, 0⟩]⟩, -- CAP_S_PREW (R339)
   ⟨0x700A, 2, 1, [⟨19, 0, .rw, 0⟩]⟩, -- CAP_S_POSTW (R339)
   ⟨0x700C, 1, 1, [⟨19, 0, .rw, 0⟩]⟩, -- CAP_S_POSTT (R339)
   ⟨0x700D, 1, 1, [⟨19, 0, .rw, 0⟩]⟩, -- CAP_S_AVGI (R339)
   ⟨0x700E, 1, 1, [⟨19, 0, .rw, 0⟩]⟩, -- CAP_S_RLO (R339)
   ⟨0x700F, 1, 1, [⟨19, 0, .rw, 0⟩]⟩, -- CAP_S_RHI (R339)
   ⟨0x7010, 12, 1, [⟨19, 0, .rw, 0⟩]⟩, -- CAP_S_PMASK (R339)
   ⟨0x701C, 1, 1, [⟨15, 0, .rw, 0⟩]⟩, -- CAP_S_PMASK_TOP (R339)
   ⟨0x7020, 1, 1, [⟨19, 0, .ro, 1048575⟩]⟩, -- CAP_LAST (R340)
   ⟨0x7021, 1, 1, [⟨19, 0, .ro, 0⟩]⟩, -- CAP_LASTIDX (R340)
   ⟨0x7022, 1, 1, [⟨19, 0, .ro, 1048575⟩]⟩, -- CAP_OLDEST (R340)
   ⟨0x7024, 2, 1, [⟨19, 0, .rw, 1048575⟩]⟩, -- CAP_SEGLOCK (R340)
   ⟨0x7026, 1, 1, [⟨19, 0, .rc, 0⟩]⟩, -- CAP_SEGS (R340)
   ⟨0x7027, 1, 1, [⟨19, 0, .rc, 0⟩]⟩, -- CAP_MISSED (R340)
   ⟨0x7028, 1, 1, [⟨19, 0, .rc, 0⟩]⟩, -- CAP_LOST (R340)
   ⟨0x7029, 1, 1, [⟨19, 0, .rc, 0⟩]⟩, -- CAP_POISON (R340)
   ⟨0x7030, 2, 1, [⟨19, 0, .rw, 0⟩]⟩, -- CAP_RADDR (R340)
   ⟨0x7032, 1, 1, [⟨19, 0, .ro, 0⟩]⟩, -- CAP_RDATA (R340)
   ⟨0x7033, 1, 1, [⟨19, 19, .rc, 0⟩]⟩, -- CAP_RSTAT (R340)
   ⟨0x7043, 1, 1, [⟨19, 18, .ro, 0⟩, ⟨17, 16, .ro, 0⟩, ⟨15, 15, .ro, 0⟩, ⟨14, 11, .ro, 0⟩, ⟨10, 8, .ro, 0⟩, ⟨7, 7, .ro, 0⟩, ⟨6, 6, .ro, 0⟩]⟩, -- CAP_A_MODE (R339)
   ⟨0x7044, 1, 1, [⟨15, 0, .ro, 32768⟩]⟩, -- CAP_A_TRIG (R339)
   ⟨0x7045, 2, 1, [⟨19, 0, .ro, 0⟩]⟩, -- CAP_A_SEGW (R339)
   ⟨0x7047, 1, 1, [⟨19, 0, .ro, 0⟩]⟩, -- CAP_A_NSEG (R339)
   ⟨0x7048, 2, 1, [⟨19, 0, .ro, 0⟩]⟩, -- CAP_A_PREW (R339)
   ⟨0x704A, 2, 1, [⟨19, 0, .ro, 0⟩]⟩, -- CAP_A_POSTW (R339)
   ⟨0x704C, 1, 1, [⟨19, 0, .ro, 0⟩]⟩, -- CAP_A_POSTT (R339)
   ⟨0x704D, 1, 1, [⟨19, 0, .ro, 0⟩]⟩, -- CAP_A_AVGI (R339)
   ⟨0x704E, 1, 1, [⟨19, 0, .ro, 0⟩]⟩, -- CAP_A_RLO (R339)
   ⟨0x704F, 1, 1, [⟨19, 0, .ro, 0⟩]⟩, -- CAP_A_RHI (R339)
   ⟨0x7050, 12, 1, [⟨19, 0, .ro, 0⟩]⟩, -- CAP_A_PMASK (R339)
   ⟨0x705C, 1, 1, [⟨15, 0, .ro, 0⟩]⟩, -- CAP_A_PMASK_TOP (R339)
   ⟨0x7080, 4, 8, [⟨19, 0, .lk, 0⟩]⟩, -- CAP_REG_W0 (R341)
   ⟨0x7081, 4, 8, [⟨19, 0, .lk, 0⟩]⟩] -- CAP_REG_W1 (R341)

/-- CAP, block 7xxxh. -/
def rows7b : List RegRow :=
  [⟨0x7082, 4, 8, [⟨19, 0, .lk, 0⟩]⟩, -- CAP_REG_W2 (R341)
   ⟨0x7083, 4, 8, [⟨19, 0, .lk, 0⟩]⟩, -- CAP_REG_W3 (R341)
   ⟨0x7084, 4, 8, [⟨19, 19, .lk, 0⟩]⟩, -- CAP_REG_W4 (R341)
   ⟨0x7085, 4, 8, [⟨19, 0, .ro, 0⟩]⟩, -- CAP_REG_W5 (R341)
   ⟨0x7086, 4, 8, [⟨19, 0, .ro, 0⟩]⟩, -- CAP_REG_W6 (R341)
   ⟨0x7087, 4, 8, [⟨19, 0, .ro, 0⟩]⟩] -- CAP_REG_W7 (R341)

/-- CAP, block 7xxxh. -/
def rows7 : List RegRow := rows7a ++ rows7b

/-- FSO, block 8xxxh. -/
def rows8a : List RegRow :=
  [⟨0x8000, 1, 1, [⟨19, 19, .ro, 0⟩, ⟨18, 15, .ro, 0⟩, ⟨14, 11, .ro, 15⟩]⟩, -- FSO_STATUS (R362)
   ⟨0x8001, 1, 1, [⟨19, 18, .lk, 0⟩, ⟨17, 6, .lk, 0⟩]⟩, -- FSO_CFG (R362)
   ⟨0x8002, 1, 1, [⟨19, 0, .lk, 0⟩]⟩, -- FSO_FTICKS (R362)
   ⟨0x8003, 1, 1, [⟨19, 0, .lk, 0⟩]⟩, -- FSO_FPER (R362)
   ⟨0x8004, 1, 1, [⟨19, 0, .rw, 0⟩]⟩, -- FSO_ACCWAIT (R362)
   ⟨0x8005, 1, 1, [⟨3, 0, .lk, 0⟩]⟩, -- FSO_ACCPIN (R362)
   ⟨0x8008, 3, 1, [⟨19, 0, .ro, 0⟩]⟩, -- FSO_FCNT (R362)
   ⟨0x800B, 1, 1, [⟨19, 0, .ro, 0⟩]⟩, -- FSO_ENC (R362)
   ⟨0x8040, 4, 32, [⟨19, 19, .rw, 0⟩, ⟨18, 18, .rw, 0⟩]⟩, -- FSO_S_CTL (R363)
   ⟨0x8041, 4, 32, [⟨19, 8, .rw, 0⟩, ⟨7, 0, .rw, 0⟩]⟩, -- FSO_S_WIN0 (R363)
   ⟨0x8042, 4, 32, [⟨19, 8, .rw, 0⟩, ⟨7, 0, .rw, 0⟩]⟩, -- FSO_S_WIN1 (R363)
   ⟨0x8043, 4, 32, [⟨19, 16, .rw, 0⟩, ⟨15, 13, .rw, 0⟩, ⟨12, 12, .rw, 0⟩]⟩, -- FSO_S_VEN0 (R363)
   ⟨0x8044, 4, 32, [⟨19, 16, .rw, 0⟩, ⟨15, 13, .rw, 0⟩, ⟨12, 12, .rw, 0⟩]⟩, -- FSO_S_VEN1 (R363)
   ⟨0x8045, 4, 32, [⟨19, 16, .rw, 0⟩, ⟨15, 13, .rw, 0⟩, ⟨12, 12, .rw, 0⟩]⟩, -- FSO_S_VEN2 (R363)
   ⟨0x8046, 4, 32, [⟨19, 16, .rw, 0⟩, ⟨15, 13, .rw, 0⟩, ⟨12, 12, .rw, 0⟩]⟩, -- FSO_S_VEN3 (R363)
   ⟨0x8047, 4, 32, [⟨19, 16, .rw, 0⟩, ⟨15, 13, .rw, 0⟩, ⟨12, 12, .rw, 0⟩]⟩, -- FSO_S_VEN4 (R363)
   ⟨0x8048, 4, 32, [⟨19, 16, .rw, 0⟩, ⟨15, 13, .rw, 0⟩, ⟨12, 12, .rw, 0⟩]⟩, -- FSO_S_VEN5 (R363)
   ⟨0x8049, 4, 32, [⟨19, 16, .rw, 0⟩, ⟨15, 13, .rw, 0⟩, ⟨12, 12, .rw, 0⟩]⟩, -- FSO_S_VEN6 (R363)
   ⟨0x804A, 4, 32, [⟨19, 16, .rw, 0⟩, ⟨15, 13, .rw, 0⟩, ⟨12, 12, .rw, 0⟩]⟩, -- FSO_S_VEN7 (R363)
   ⟨0x804B, 4, 32, [⟨19, 19, .wo, 0⟩]⟩, -- FSO_S_CMT (R363)
   ⟨0x8050, 4, 32, [⟨19, 0, .ro, 0⟩]⟩, -- FSO_S_ACT0 (R363)
   ⟨0x8051, 4, 32, [⟨19, 0, .ro, 0⟩]⟩, -- FSO_S_ACT1 (R363)
   ⟨0x8052, 4, 32, [⟨19, 0, .ro, 0⟩]⟩, -- FSO_S_ACT2 (R363)
   ⟨0x8053, 4, 32, [⟨19, 0, .ro, 0⟩]⟩, -- FSO_S_ACT3 (R363)
   ⟨0x8054, 4, 32, [⟨19, 0, .ro, 0⟩]⟩, -- FSO_S_ACT4 (R363)
   ⟨0x8055, 4, 32, [⟨19, 0, .ro, 0⟩]⟩, -- FSO_S_ACT5 (R363)
   ⟨0x8056, 4, 32, [⟨19, 0, .ro, 0⟩]⟩, -- FSO_S_ACT6 (R363)
   ⟨0x8057, 4, 32, [⟨19, 0, .ro, 0⟩]⟩, -- FSO_S_ACT7 (R363)
   ⟨0x8058, 4, 32, [⟨19, 0, .ro, 0⟩]⟩, -- FSO_S_ACT8 (R363)
   ⟨0x8059, 4, 32, [⟨19, 0, .ro, 0⟩]⟩, -- FSO_S_ACT9 (R363)
   ⟨0x805A, 4, 32, [⟨19, 0, .ro, 0⟩]⟩, -- FSO_S_ACT10 (R363)
   ⟨0x805B, 4, 32, [⟨19, 19, .ro, 0⟩, ⟨18, 18, .ro, 0⟩, ⟨17, 17, .ro, 0⟩]⟩, -- FSO_S_CST (R363)
   ⟨0x805C, 4, 32, [⟨19, 0, .ro, 0⟩]⟩, -- FSO_S_CFRM0 (R363)
   ⟨0x805D, 4, 32, [⟨19, 0, .ro, 0⟩]⟩, -- FSO_S_CFRM1 (R363)
   ⟨0x805E, 4, 32, [⟨19, 0, .ro, 0⟩]⟩, -- FSO_S_CFRM2 (R363)
   ⟨0x805F, 4, 32, [⟨19, 11, .ro, 0⟩, ⟨10, 9, .ro, 3⟩]⟩, -- FSO_S_SLOT (R363)
   ⟨0x8100, 1, 1, [⟨19, 18, .wo, 0⟩, ⟨17, 17, .wo, 0⟩]⟩, -- FSO_PIN (R364)
   ⟨0x8101, 1, 1, [⟨19, 19, .ro, 0⟩, ⟨18, 17, .ro, 0⟩, ⟨7, 0, .ro, 0⟩]⟩, -- FSO_PINRES (R364)
   ⟨0x8102, 3, 1, [⟨19, 0, .ro, 0⟩]⟩, -- FSO_PINFCNT (R364)
   ⟨0x8105, 1, 1, [⟨19, 18, .wo, 0⟩, ⟨7, 0, .wo, 0⟩]⟩] -- FSO_REL (R364)

/-- FSO, block 8xxxh. -/
def rows8b : List RegRow :=
  [⟨0x8106, 1, 1, [⟨19, 18, .wo, 0⟩, ⟨5, 0, .wo, 0⟩]⟩, -- FSO_RESEND (R364)
   ⟨0x8108, 1, 1, [⟨19, 8, .rw, 0⟩, ⟨7, 0, .rw, 0⟩]⟩, -- FSO_RADDR (R364)
   ⟨0x8109, 1, 1, [⟨19, 18, .rw, 0⟩, ⟨17, 15, .rw, 0⟩]⟩, -- FSO_RADDR1 (R364)
   ⟨0x810A, 1, 1, [⟨19, 0, .ro, 0⟩]⟩, -- FSO_RDATA (R364)
   ⟨0x810B, 1, 1, [⟨19, 19, .rc, 0⟩]⟩, -- FSO_RSTAT (R364)
   ⟨0x8120, 1, 1, [⟨19, 0, .rc, 0⟩]⟩, -- FSO_UNDERRUN (R365)
   ⟨0x8121, 1, 1, [⟨19, 0, .rc, 0⟩]⟩, -- FSO_DROP (R365)
   ⟨0x8122, 1, 1, [⟨19, 0, .rc, 0⟩]⟩, -- FSO_NOBUF (R365)
   ⟨0x8123, 1, 1, [⟨19, 0, .rc, 0⟩]⟩, -- FSO_NOFRAME (R365)
   ⟨0x8124, 1, 1, [⟨19, 0, .rc, 0⟩]⟩, -- FSO_BUSYEV (R365)
   ⟨0x8125, 1, 1, [⟨19, 0, .rc, 0⟩]⟩, -- FSO_ACCSKIP (R365)
   ⟨0x8126, 1, 1, [⟨19, 0, .rc, 0⟩]⟩, -- FSO_ORPHAN (R365)
   ⟨0x8127, 1, 1, [⟨19, 0, .rc, 0⟩]⟩, -- FSO_OUTLINE (R365)
   ⟨0x8128, 1, 1, [⟨19, 0, .rc, 0⟩]⟩, -- FSO_DVLATE (R365)
   ⟨0x8129, 1, 1, [⟨19, 0, .rc, 0⟩]⟩] -- FSO_POISON (R365)

/-- FSO, block 8xxxh. -/
def rows8 : List RegRow := rows8a ++ rows8b

/-- CMP, block 9xxxh. -/
def rows9 : List RegRow :=
  [⟨0x9000, 1, 1, [⟨19, 19, .ro, 0⟩, ⟨18, 18, .ro, 0⟩]⟩, -- CMP_STATUS (R381)
   ⟨0x9001, 1, 1, [⟨15, 0, .ro, 0⟩]⟩, -- CMP_CTXUSE (R381)
   ⟨0x9002, 1, 1, [⟨3, 0, .lk, 4⟩]⟩, -- CMP_CFG (R381)
   ⟨0x9010, 1, 1, [⟨19, 0, .rc, 0⟩]⟩, -- CMP_NOSHRINK0 (R381)
   ⟨0x9011, 1, 1, [⟨19, 0, .rc, 0⟩]⟩, -- CMP_NOSHRINK1 (R381)
   ⟨0x9012, 1, 1, [⟨19, 0, .rc, 0⟩]⟩, -- CMP_CHAINEND (R381)
   ⟨0x9013, 1, 1, [⟨19, 0, .rc, 0⟩]⟩, -- CMP_EXPAND (R381)
   ⟨0x9014, 1, 1, [⟨19, 0, .rc, 0⟩]⟩, -- CMP_DECERR (R381)
   ⟨0x9015, 1, 1, [⟨19, 0, .rc, 0⟩]⟩, -- CMP_POISON (R381)
   ⟨0x9016, 1, 1, [⟨19, 0, .rc, 0⟩]⟩, -- CMP_SWAPS (R381)
   ⟨0x9040, 16, 1, [⟨19, 19, .ro, 0⟩, ⟨18, 18, .ro, 1⟩, ⟨17, 16, .ro, 0⟩, ⟨15, 15, .ro, 0⟩, ⟨14, 14, .ro, 0⟩, ⟨13, 10, .ro, 0⟩]⟩, -- CMP_CTX (R382)
   ⟨0x9100, 1, 1, [⟨19, 19, .wo, 0⟩, ⟨18, 18, .wo, 0⟩, ⟨17, 17, .rw, 0⟩, ⟨5, 0, .rw, 0⟩]⟩, -- CMP_EXP_CTL (R383)
   ⟨0x9101, 1, 1, [⟨19, 0, .rw, 0⟩]⟩, -- CMP_EXP_SLOT (R383)
   ⟨0x9102, 2, 1, [⟨19, 0, .rw, 0⟩]⟩, -- CMP_EXP_START (R383)
   ⟨0x9104, 2, 1, [⟨19, 0, .rw, 0⟩]⟩, -- CMP_EXP_COUNT (R383)
   ⟨0x9106, 12, 1, [⟨19, 0, .rw, 0⟩]⟩, -- CMP_EXP_MASK (R383)
   ⟨0x9112, 1, 1, [⟨15, 0, .rw, 0⟩]⟩, -- CMP_EXP_MASK_TOP (R383)
   ⟨0x9113, 1, 1, [⟨19, 19, .ro, 0⟩, ⟨18, 16, .ro, 0⟩]⟩, -- CMP_EXP_RES (R383)
   ⟨0x9114, 2, 1, [⟨19, 0, .ro, 0⟩]⟩, -- CMP_EXP_OUT (R383)
   ⟨0x9116, 1, 1, [⟨19, 0, .ro, 0⟩]⟩, -- CMP_EXP_NBLK (R383)
   ⟨0x9200, 16, 4, [⟨19, 0, .rw, 0⟩]⟩, -- CMP_LINK_W0 (R384)
   ⟨0x9201, 16, 4, [⟨19, 0, .rw, 0⟩]⟩, -- CMP_LINK_W1 (R384)
   ⟨0x9202, 16, 4, [⟨19, 0, .rw, 0⟩]⟩, -- CMP_LINK_W2 (R384)
   ⟨0x9203, 16, 4, [⟨19, 0, .rw, 0⟩]⟩] -- CMP_LINK_W3 (R384)

/-- MEM, block Axxxh. -/
def rowsA : List RegRow :=
  [⟨0xA000, 1, 1, [⟨19, 19, .ro, 0⟩, ⟨18, 18, .ro, 0⟩, ⟨17, 17, .ro, 0⟩, ⟨16, 16, .ro, 0⟩, ⟨15, 14, .ro, 0⟩, ⟨13, 12, .ro, 0⟩, ⟨11, 8, .ro, 0⟩, ⟨7, 7, .ro, 0⟩, ⟨6, 6, .ro, 0⟩, ⟨5, 5, .ro, 0⟩]⟩, -- MEM_STATUS (R402)
   ⟨0xA001, 1, 1, [⟨3, 0, .lk, 0⟩]⟩, -- MEM_CFG (R402)
   ⟨0xA004, 4, 1, [⟨19, 0, .lk, 0⟩]⟩, -- MEM_ROTA (R402)
   ⟨0xA008, 4, 1, [⟨19, 0, .lk, 0⟩]⟩, -- MEM_ROTB (R402)
   ⟨0xA00C, 1, 1, [⟨19, 0, .lk, 600⟩]⟩, -- MEM_SPASS (R402)
   ⟨0xA00D, 1, 1, [⟨9, 0, .lk, 128⟩]⟩, -- MEM_RECAL (R402)
   ⟨0xA00E, 1, 1, [⟨11, 0, .lk, 64⟩]⟩, -- MEM_MARKN (R402)
   ⟨0xA00F, 1, 1, [⟨19, 0, .ro, 0⟩]⟩, -- MEM_MARK (R402)
   ⟨0xA010, 1, 1, [⟨19, 0, .rc, 0⟩]⟩, -- MEM_CE_A (R403)
   ⟨0xA011, 1, 1, [⟨19, 0, .rc, 0⟩]⟩, -- MEM_CE_B (R403)
   ⟨0xA012, 1, 1, [⟨19, 0, .rc, 0⟩]⟩, -- MEM_UE_A (R403)
   ⟨0xA013, 1, 1, [⟨19, 0, .rc, 0⟩]⟩, -- MEM_UE_B (R403)
   ⟨0xA014, 1, 1, [⟨19, 0, .rc, 0⟩]⟩, -- MEM_PASS_A (R403)
   ⟨0xA015, 1, 1, [⟨19, 0, .rc, 0⟩]⟩, -- MEM_PASS_B (R403)
   ⟨0xA016, 1, 1, [⟨19, 0, .rc, 0⟩]⟩, -- MEM_WBQOVF (R403)
   ⟨0xA020, 3, 1, [⟨19, 0, .ro, 0⟩]⟩, -- MEM_LASTUE (R403)
   ⟨0xA024, 3, 1, [⟨19, 0, .ro, 0⟩]⟩, -- MEM_LASTCE (R403)
   ⟨0xA030, 1, 1, [⟨19, 19, .rw, 0⟩]⟩, -- MEM_SNARG (R402)
   ⟨0xA031, 2, 1, [⟨19, 0, .rw, 0⟩]⟩, -- MEM_SNARG_START (R402)
   ⟨0xA033, 1, 1, [⟨19, 0, .rw, 0⟩]⟩, -- MEM_SNARG_COUNT (R402)
   ⟨0xA040, 40, 1, [⟨19, 0, .rc, 0⟩]⟩] -- MEM_SYMCE (R403)

/-- LNK, block Bxxxh. -/
def rowsBa : List RegRow :=
  [⟨0xB000, 1, 1, [⟨19, 12, .ro, 0⟩, ⟨11, 8, .ro, 0⟩, ⟨6, 0, .ro, 0⟩]⟩, -- LNK_STATUS (R439)
   ⟨0xB001, 1, 1, [⟨19, 19, .ro, 0⟩, ⟨18, 18, .ro, 0⟩, ⟨17, 17, .ro, 0⟩, ⟨16, 16, .ro, 0⟩, ⟨15, 15, .ro, 0⟩, ⟨14, 14, .ro, 0⟩, ⟨13, 13, .ro, 0⟩, ⟨12, 8, .ro, 0⟩]⟩, -- LNK_CHAIN (R439)
   ⟨0xB002, 1, 1, [⟨19, 19, .lk, 0⟩, ⟨18, 16, .lk, 0⟩, ⟨15, 15, .lk, 0⟩, ⟨7, 0, .lk, 0⟩]⟩, -- LNK_CFG (R439)
   ⟨0xB003, 1, 1, [⟨13, 0, .lk, 100⟩]⟩, -- LNK_KATMO (R439)
   ⟨0xB004, 1, 1, [⟨19, 0, .lk, 4000⟩]⟩, -- LNK_TBLAT (R439)
   ⟨0xB005, 1, 1, [⟨19, 0, .ro, 0⟩]⟩, -- LNK_HOPD (R439)
   ⟨0xB006, 1, 1, [⟨15, 0, .lk, 0⟩]⟩, -- LNK_HOPASYM (R439)
   ⟨0xB007, 2, 1, [⟨19, 0, .ro, 0⟩]⟩, -- LNK_CHOFS (R439)
   ⟨0xB010, 8, 1, [⟨19, 19, .lk, 0⟩, ⟨18, 14, .lk, 0⟩, ⟨13, 11, .lk, 0⟩, ⟨10, 10, .lk, 0⟩]⟩, -- LNK_TB (R439)
   ⟨0xB018, 1, 1, [⟨7, 0, .ro, 0⟩]⟩, -- LNK_TBUS (R439)
   ⟨0xB019, 1, 1, [⟨7, 0, .wo, 0⟩]⟩, -- LNK_TBUS_SET (R439)
   ⟨0xB01A, 1, 1, [⟨7, 0, .wo, 0⟩]⟩, -- LNK_TBUS_CLR (R439)
   ⟨0xB01B, 1, 1, [⟨19, 19, .lk, 0⟩, ⟨18, 16, .lk, 0⟩, ⟨15, 15, .lk, 0⟩, ⟨14, 12, .lk, 0⟩]⟩, -- LNK_TOUT (R439)
   ⟨0xB020, 1, 1, [⟨19, 0, .rc, 0⟩]⟩, -- LNK_NOROOM (R440)
   ⟨0xB021, 1, 1, [⟨19, 0, .rc, 0⟩]⟩, -- LNK_VERSION (R440)
   ⟨0xB022, 1, 1, [⟨19, 0, .rc, 0⟩]⟩, -- LNK_FAILOVER (R440)
   ⟨0xB023, 1, 1, [⟨19, 0, .rc, 0⟩]⟩, -- LNK_MSGCRC (R440)
   ⟨0xB024, 1, 1, [⟨19, 0, .rc, 0⟩]⟩, -- LNK_BADMSG (R440)
   ⟨0xB025, 1, 1, [⟨19, 0, .rc, 0⟩]⟩, -- LNK_DUPSEQ (R440)
   ⟨0xB026, 1, 1, [⟨19, 0, .rc, 0⟩]⟩, -- LNK_TBLATE (R440)
   ⟨0xB027, 1, 1, [⟨19, 0, .rc, 0⟩]⟩, -- LNK_EVLOST (R440)
   ⟨0xB030, 1, 1, [⟨19, 19, .sf, 0⟩, ⟨18, 16, .sf, 0⟩]⟩, -- LNK_SAFEP (R439)
   ⟨0xB031, 2, 1, [⟨19, 0, .sf, 0⟩]⟩, -- LNK_SAFEP_ADDR (R439)
   ⟨0xB033, 1, 1, [⟨15, 0, .sf, 0⟩]⟩, -- LNK_SAFEP_PORT (R439)
   ⟨0xB100, 12, 32, [⟨19, 18, .lk, 0⟩, ⟨17, 17, .lk, 0⟩, ⟨16, 14, .lk, 0⟩, ⟨13, 13, .lk, 0⟩, ⟨11, 11, .rw, 0⟩, ⟨10, 8, .rw, 0⟩, ⟨7, 7, .rw, 0⟩, ⟨6, 6, .wo, 0⟩, ⟨5, 5, .rw, 0⟩]⟩, -- LNK_LCFG (R441)
   ⟨0xB101, 12, 32, [⟨19, 17, .ro, 7⟩, ⟨16, 16, .ro, 0⟩, ⟨15, 15, .ro, 0⟩, ⟨14, 14, .ro, 0⟩, ⟨13, 13, .ro, 0⟩, ⟨12, 12, .ro, 0⟩, ⟨5, 0, .ro, 0⟩]⟩, -- LNK_LSTAT (R441)
   ⟨0xB102, 12, 32, [⟨19, 16, .rw, 0⟩, ⟨13, 8, .rw, 0⟩, ⟨4, 0, .rw, 0⟩]⟩, -- LNK_TXFIR (R441)
   ⟨0xB103, 12, 32, [⟨3, 0, .ro, 0⟩]⟩, -- LNK_RXEQ (R441)
   ⟨0xB104, 12, 32, [⟨17, 12, .ro, 0⟩, ⟨11, 6, .ro, 0⟩, ⟨5, 0, .ro, 0⟩]⟩, -- LNK_DFE0 (R441)
   ⟨0xB105, 12, 32, [⟨11, 6, .ro, 0⟩, ⟨5, 0, .ro, 0⟩]⟩, -- LNK_DFE1 (R441)
   ⟨0xB106, 12, 32, [⟨19, 0, .rc, 0⟩]⟩, -- LNK_LERR (R441)
   ⟨0xB107, 12, 32, [⟨19, 0, .rc, 0⟩]⟩, -- LNK_PRBSERR (R441)
   ⟨0xB108, 12, 32, [⟨19, 0, .rc, 0⟩]⟩, -- LNK_RETRAIN (R441)
   ⟨0xB109, 12, 32, [⟨19, 0, .rc, 0⟩]⟩, -- LNK_LLOSS (R441)
   ⟨0xB400, 64, 8, [⟨19, 17, .ro, 0⟩, ⟨16, 15, .ro, 0⟩, ⟨14, 12, .ro, 0⟩, ⟨11, 9, .ro, 0⟩, ⟨8, 6, .ro, 0⟩, ⟨5, 5, .ro, 0⟩, ⟨4, 4, .ro, 0⟩, ⟨3, 3, .ro, 0⟩]⟩, -- LNK_PTN_W0 (R442)
   ⟨0xB401, 64, 8, [⟨19, 16, .ro, 0⟩, ⟨15, 15, .ro, 0⟩, ⟨14, 14, .ro, 0⟩, ⟨3, 0, .ro, 0⟩]⟩, -- LNK_PTN_W1 (R442)
   ⟨0xB402, 64, 8, [⟨19, 0, .ro, 0⟩]⟩, -- LNK_PTN_W2 (R442)
   ⟨0xB403, 64, 8, [⟨19, 0, .ro, 0⟩]⟩, -- LNK_PTN_W3 (R442)
   ⟨0xB404, 64, 8, [⟨15, 0, .ro, 0⟩]⟩, -- LNK_PTN_W4 (R442)
   ⟨0xB405, 64, 8, [⟨19, 0, .ro, 0⟩]⟩] -- LNK_PTN_W5 (R442)

/-- LNK, block Bxxxh. -/
def rowsBb : List RegRow :=
  [⟨0xB406, 64, 8, [⟨19, 0, .ro, 0⟩]⟩, -- LNK_PTN_W6 (R442)
   ⟨0xB407, 64, 8, [⟨19, 0, .ro, 0⟩]⟩, -- LNK_PTN_W7 (R442)
   ⟨0xB600, 3, 1, [⟨15, 0, .lk, 0⟩]⟩, -- LNK_MAC (R443)
   ⟨0xB610, 8, 8, [⟨15, 0, .lk, 0⟩]⟩, -- LNK_IP (R443)
   ⟨0xB611, 8, 8, [⟨15, 0, .lk, 0⟩]⟩, -- LNK_IP_HI (R443)
   ⟨0xB612, 8, 8, [⟨15, 0, .lk, 0⟩]⟩, -- LNK_MASK (R443)
   ⟨0xB613, 8, 8, [⟨15, 0, .lk, 0⟩]⟩, -- LNK_MASK_HI (R443)
   ⟨0xB614, 8, 8, [⟨15, 0, .lk, 0⟩]⟩, -- LNK_GW (R443)
   ⟨0xB615, 8, 8, [⟨15, 0, .lk, 0⟩]⟩, -- LNK_GW_HI (R443)
   ⟨0xB680, 1, 1, [⟨15, 0, .lk, 50710⟩]⟩, -- LNK_UDP_DLP (R443)
   ⟨0xB681, 1, 1, [⟨15, 0, .lk, 50711⟩]⟩] -- LNK_UDP_OST (R443)

/-- LNK, block Bxxxh. -/
def rowsB : List RegRow := rowsBa ++ rowsBb

/-- SAF, block Cxxxh. -/
def rowsC : List RegRow :=
  [⟨0xC000, 1, 1, [⟨19, 17, .ro, 0⟩, ⟨16, 16, .ro, 0⟩, ⟨15, 15, .ro, 0⟩, ⟨14, 14, .ro, 1⟩, ⟨13, 13, .ro, 1⟩, ⟨12, 9, .ro, 0⟩, ⟨8, 8, .ro, 0⟩, ⟨7, 7, .ro, 0⟩, ⟨6, 6, .ro, 0⟩, ⟨5, 5, .ro, 0⟩, ⟨4, 4, .ro, 0⟩, ⟨3, 3, .ro, 0⟩, ⟨2, 2, .ro, 0⟩, ⟨1, 1, .ro, 0⟩]⟩, -- SAF_STATUS (R312)
   ⟨0xC001, 1, 1, [⟨19, 16, .ro, 0⟩, ⟨15, 8, .ro, 0⟩]⟩, -- SAF_CAUSE (R312)
   ⟨0xC002, 1, 1, [⟨19, 15, .ro, 0⟩, ⟨14, 10, .ro, 0⟩]⟩, -- SAF_FUNC (R312)
   ⟨0xC003, 1, 1, [⟨19, 0, .ro, 0⟩]⟩, -- SAF_TPOS_A (R312)
   ⟨0xC004, 1, 1, [⟨19, 0, .ro, 0⟩]⟩, -- SAF_TSPD_A (R312)
   ⟨0xC005, 1, 1, [⟨19, 0, .ro, 0⟩]⟩, -- SAF_TPOS_B (R312)
   ⟨0xC006, 1, 1, [⟨19, 0, .ro, 0⟩]⟩, -- SAF_TSPD_B (R312)
   ⟨0xC007, 1, 1, [⟨19, 0, .ro, 0⟩]⟩, -- SAF_TRESP (R312)
   ⟨0xC008, 1, 1, [⟨19, 0, .sf, 0⟩]⟩, -- SAF_TRESPMAX (R312)
   ⟨0xC009, 1, 1, [⟨19, 16, .sf, 0⟩, ⟨15, 12, .sf, 0⟩, ⟨11, 11, .sf, 0⟩, ⟨10, 10, .sf, 0⟩, ⟨9, 9, .sf, 0⟩, ⟨8, 4, .sf, 0⟩, ⟨3, 2, .sf, 0⟩]⟩, -- SAF_CFG (R312)
   ⟨0xC00A, 1, 1, [⟨5, 0, .sf, 0⟩]⟩, -- SAF_TBRIDGE (R312)
   ⟨0xC00B, 1, 1, [⟨19, 0, .sf, 0⟩]⟩, -- SAF_TDISC (R312)
   ⟨0xC00C, 1, 1, [⟨9, 0, .sf, 0⟩]⟩, -- SAF_TEDM (R312)
   ⟨0xC00D, 1, 1, [⟨6, 0, .sf, 0⟩]⟩, -- SAF_OPW (R312)
   ⟨0xC00E, 1, 1, [⟨13, 0, .sf, 0⟩]⟩, -- SAF_OSTTMO (R312)
   ⟨0xC00F, 1, 1, [⟨9, 0, .sf, 0⟩]⟩, -- SAF_TCLR (R312)
   ⟨0xC010, 1, 1, [⟨19, 0, .sf, 0⟩]⟩, -- SAF_SORG (R312)
   ⟨0xC011, 1, 1, [⟨19, 0, .sf, 0⟩]⟩, -- SAF_SWID (R312)
   ⟨0xC012, 1, 1, [⟨19, 0, .sf, 0⟩]⟩, -- SAF_XPOS (R312)
   ⟨0xC013, 1, 1, [⟨3, 0, .sf, 0⟩]⟩, -- SAF_XBAND (R312)
   ⟨0xC014, 1, 1, [⟨19, 0, .ro, 0⟩]⟩, -- SAF_TFRESH (R312)
   ⟨0xC018, 1, 1, [⟨19, 0, .rc, 0⟩]⟩, -- SAF_DEMCNT (R313)
   ⟨0xC019, 1, 1, [⟨19, 0, .rc, 0⟩]⟩, -- SAF_OSTCRC1 (R313)
   ⟨0xC01A, 1, 1, [⟨19, 0, .rc, 0⟩]⟩, -- SAF_OSTCRC2 (R313)
   ⟨0xC01B, 1, 1, [⟨19, 0, .rc, 0⟩]⟩, -- SAF_OSTMIS (R313)
   ⟨0xC01C, 1, 1, [⟨19, 0, .rc, 0⟩]⟩, -- SAF_OSTTO (R313)
   ⟨0xC01D, 1, 1, [⟨19, 0, .rc, 0⟩]⟩, -- SAF_XCHK (R313)
   ⟨0xC01E, 1, 1, [⟨19, 0, .rc, 0⟩]⟩, -- SAF_RESETS (R313)
   ⟨0xC020, 1, 1, [⟨19, 0, .ro, 0⟩]⟩, -- SAF_SEQTX (R312)
   ⟨0xC021, 1, 1, [⟨19, 0, .ro, 0⟩]⟩, -- SAF_SEQRX (R312)
   ⟨0xC030, 12, 1, [⟨19, 0, .ro, 0⟩]⟩, -- SAF_SDIG (R312)
   ⟨0xC03C, 1, 1, [⟨15, 0, .ro, 0⟩]⟩, -- SAF_SDIG_TOP (R312)
   ⟨0xC040, 12, 1, [⟨19, 0, .ro, 0⟩]⟩, -- SAF_EDIG (R312)
   ⟨0xC04C, 1, 1, [⟨15, 0, .ro, 0⟩]⟩] -- SAF_EDIG_TOP (R312)

/-- CTL (housekeeping), block Dxxxh. -/
def rowsD : List RegRow :=
  [⟨0xD000, 1, 1, [⟨19, 19, .ro, 0⟩, ⟨18, 18, .ro, 0⟩, ⟨7, 0, .ro, 0⟩]⟩, -- CTL_HK_STATUS (R514)
   ⟨0xD001, 1, 1, [⟨11, 0, .ro, 0⟩]⟩, -- CTL_HK_TMAX (R514)
   ⟨0xD002, 1, 1, [⟨19, 19, .rw, 0⟩, ⟨16, 0, .rw, 1000⟩]⟩, -- CTL_HK_CFG (R514)
   ⟨0xD003, 1, 1, [⟨12, 0, .rw, 0⟩]⟩, -- CTL_HK_AIN (R514)
   ⟨0xD004, 1, 1, [⟨15, 0, .lk, 0⟩]⟩, -- CTL_HK_URG (R514)
   ⟨0xD005, 1, 1, [⟨11, 0, .rw, 1600⟩]⟩, -- CTL_HK_TWARN (R514)
   ⟨0xD006, 1, 1, [⟨12, 0, .lk, 4112⟩]⟩, -- CTL_HK_DIODE (R514)
   ⟨0xD007, 1, 1, [⟨19, 17, .lk, 0⟩, ⟨11, 0, .ro, 0⟩]⟩, -- CTL_HK_BIAS (R514)
   ⟨0xD008, 1, 1, [⟨11, 0, .lk, 0⟩]⟩, -- CTL_HK_BSLEW (R514)
   ⟨0xD009, 1, 1, [⟨3, 0, .lk, 0⟩]⟩, -- CTL_HK_BTS (R514)
   ⟨0xD010, 32, 1, [⟨11, 0, .lk, 0⟩]⟩, -- CTL_HK_BTAB (R514)
   ⟨0xD030, 16, 1, [⟨12, 0, .lk, 0⟩]⟩, -- CTL_HK_SUPLIM (R514)
   ⟨0xD041, 1, 1, [⟨19, 0, .rc, 0⟩]⟩, -- CTL_HK_ABORT (R514)
   ⟨0xD042, 1, 1, [⟨19, 0, .rc, 0⟩]⟩, -- CTL_HK_URGCNT (R514)
   ⟨0xD100, 36, 1, [⟨19, 19, .ro, 0⟩, ⟨18, 18, .ro, 0⟩, ⟨11, 0, .ro, 0⟩]⟩, -- CTL_HK_RAW (R514)
   ⟨0xD140, 36, 1, [⟨19, 0, .ro, 0⟩]⟩] -- CTL_HK_VAL (R514)

/-- CTL (Shims), block Exxxh. -/
def rowsE : List RegRow :=
  [⟨0xE000, 1, 1, [⟨19, 19, .rw, 0⟩, ⟨18, 15, .rw, 0⟩, ⟨8, 0, .rw, 0⟩]⟩, -- CTL_SHM_SEL (R495)
   ⟨0xE001, 1, 1, [⟨19, 18, .ro, 0⟩, ⟨17, 17, .ro, 0⟩, ⟨8, 0, .ro, 0⟩]⟩, -- CTL_SHM_STAT (R495)
   ⟨0xE010, 12, 1, [⟨19, 0, .ro, 0⟩]⟩, -- CTL_SHMDIG (R495)
   ⟨0xE01C, 1, 1, [⟨15, 0, .ro, 0⟩]⟩, -- CTL_SHMDIG_TOP (R495)
   ⟨0xE100, 256, 1, [⟨19, 0, .rw, 0⟩]⟩] -- CTL_SHM_DATA (R495)

/-- CTL (boot and attestation), block Fxxxh. -/
def rowsF : List RegRow :=
  [⟨0xF000, 1, 1, [⟨19, 19, .ro, 0⟩, ⟨18, 16, .ro, 0⟩, ⟨15, 8, .ro, 0⟩, ⟨7, 7, .ro, 0⟩, ⟨6, 6, .ro, 0⟩, ⟨5, 5, .ro, 0⟩, ⟨4, 4, .ro, 0⟩, ⟨3, 3, .ro, 0⟩, ⟨2, 2, .ro, 0⟩, ⟨1, 1, .ro, 0⟩, ⟨0, 0, .ro, 0⟩]⟩, -- CTL_BOOT (R492)
   ⟨0xF001, 1, 1, [⟨19, 16, .lk, 0⟩, ⟨15, 12, .lk, 0⟩, ⟨11, 4, .lk, 0⟩, ⟨3, 3, .lk, 0⟩, ⟨2, 2, .lk, 0⟩]⟩, -- CTL_IMGVER (R492)
   ⟨0xF010, 12, 1, [⟨19, 0, .ro, 0⟩]⟩, -- CTL_IMGDIG (R492)
   ⟨0xF01C, 1, 1, [⟨15, 0, .ro, 0⟩]⟩, -- CTL_IMGDIG_TOP (R492)
   ⟨0xF020, 12, 1, [⟨19, 0, .ro, 0⟩]⟩, -- CTL_KEYHASH (R492)
   ⟨0xF02C, 1, 1, [⟨15, 0, .ro, 0⟩]⟩, -- CTL_KEYHASH_TOP (R492)
   ⟨0xF02D, 1, 1, [⟨19, 18, .rw, 0⟩]⟩, -- CTL_RECAL_ARG (R492)
   ⟨0xF030, 12, 1, [⟨19, 0, .rw, 0⟩]⟩, -- CTL_ATT_CHAL (R493)
   ⟨0xF03C, 1, 1, [⟨15, 0, .rw, 0⟩]⟩, -- CTL_ATT_CHAL_TOP (R493)
   ⟨0xF03D, 1, 1, [⟨19, 0, .ro, 0⟩]⟩, -- CTL_ATT_STATE (R493)
   ⟨0xF040, 12, 1, [⟨19, 0, .ro, 0⟩]⟩, -- CTL_ATT_SIG (R493)
   ⟨0xF04C, 1, 1, [⟨15, 0, .ro, 0⟩]⟩, -- CTL_ATT_SIG_TOP (R493)
   ⟨0xF04D, 12, 1, [⟨19, 0, .ro, 0⟩]⟩, -- CTL_ATT_SIG_S (R493)
   ⟨0xF059, 1, 1, [⟨15, 0, .ro, 0⟩]⟩, -- CTL_ATT_SIG_STOP (R493)
   ⟨0xF05A, 1, 1, [⟨11, 0, .ro, 0⟩]⟩, -- CTL_CERT_LEN (R493)
   ⟨0xF05B, 1, 1, [⟨10, 0, .rw, 0⟩]⟩, -- CTL_CERT_ADDR (R493)
   ⟨0xF05C, 1, 1, [⟨15, 0, .ro, 0⟩]⟩, -- CTL_CERT_DATA (R493)
   ⟨0xF080, 1, 1, [⟨19, 18, .rw, 0⟩, ⟨7, 0, .rw, 0⟩]⟩, -- CTL_NVM_OP (R494)
   ⟨0xF081, 1, 1, [⟨19, 0, .rw, 0⟩]⟩, -- CTL_NVM_ADDR (R494)
   ⟨0xF082, 1, 1, [⟨6, 0, .rw, 0⟩]⟩, -- CTL_NVM_ADDR_HI (R494)
   ⟨0xF100, 128, 1, [⟨15, 0, .rw, 0⟩]⟩] -- CTL_NVM_BUF (R494)

/-- The rows of the block that an address falls in. -/
def rowsOf (a : Nat) : List RegRow :=
  match a / 4096 with
  | 0 => rows0
  | 1 => rows1
  | 2 => rows2
  | 3 => rows3
  | 4 => rows4
  | 5 => rows5
  | 6 => rows6
  | 7 => rows7
  | 8 => rows8
  | 9 => rows9
  | 10 => rowsA
  | 11 => rowsB
  | 12 => rowsC
  | 13 => rowsD
  | 14 => rowsE
  | 15 => rowsF
  | _ => []

/-- The row covers the address. -/
def RegRow.has (r : RegRow) (a : Nat) : Bool :=
  Nat.ble r.base a && (a - r.base) % r.stride == 0 && Nat.blt ((a - r.base) / r.stride) r.count

/-- The fields of the register at an address; none where no register stands (R26). -/
def fieldsAt (a : Nat) : Option (List FieldDesc) :=
  ((rowsOf a).find? (RegRow.has · a)).map RegRow.fields

/-- Lay the values of fields out in a word. -/
def pack : List (Nat × Nat) → Nat
  | [] => 0
  | (lo, v) :: r => v * 2 ^ lo + pack r

/-- The reset value of the word at an address. -/
def resetWord (a : Nat) : Word :=
  match fieldsAt a with
  | none => 0
  | some fs => BitVec.ofNat 20 (pack (fs.map fun f => (f.lo, f.reset)))

/-- The bits of the fields that satisfy a test on their access code. -/
def mask (fs : List FieldDesc) (p : Acc → Bool) : Word :=
  BitVec.ofNat 20 (pack ((fs.filter fun f => p f.acc).map fun f => (f.lo, 2 ^ (f.hi + 1 - f.lo) - 1)))

end RegMap

end Sys2Proof.Machine
end

