-- ==== Sys2Proof/Machine/Fields.lean ====
section
/-! DEFINITION. A name for every field of the register map: address (of element `i`, and `j` where an array has two
indices), high bit and low bit. -/

namespace Sys2Proof.Machine

/-- A field of a register word: its address and its bits. -/
structure Fld where
  addr : Nat
  hi : Nat
  lo : Nat
  deriving DecidableEq, Repr

namespace F

def CTL_ID_FAMILY : Fld := ⟨0x0000, 19, 12⟩
def CTL_ID_MEMBER : Fld := ⟨0x0000, 11, 4⟩
def CTL_ID_STEPPING : Fld := ⟨0x0000, 3, 0⟩
def CTL_STATUS_STATE : Fld := ⟨0x0001, 19, 17⟩
def CTL_STATUS_READY : Fld := ⟨0x0001, 16, 16⟩
def CTL_STATUS_FAULT : Fld := ⟨0x0001, 15, 15⟩
def CTL_STATUS_HALT : Fld := ⟨0x0001, 14, 14⟩
def CTL_STATUS_CLAMP : Fld := ⟨0x0001, 13, 13⟩
def CTL_STATUS_EVN : Fld := ⟨0x0001, 8, 0⟩
def CTL_RESET_CAUSE_LAST : Fld := ⟨0x0002, 19, 17⟩
def CTL_RESET_CAUSE_POWER : Fld := ⟨0x0002, 3, 3⟩
def CTL_RESET_CAUSE_PIN : Fld := ⟨0x0002, 2, 2⟩
def CTL_RESET_CAUSE_THERMAL : Fld := ⟨0x0002, 1, 1⟩
def CTL_RESET_CAUSE_WATCHDOG : Fld := ⟨0x0002, 0, 0⟩
def CTL_OPRESULT_RESULT : Fld := ⟨0x0003, 19, 0⟩
def CTL_OPSTAT_CMD : Fld := ⟨0x0004, 19, 16⟩
def CTL_OPSTAT_DONE : Fld := ⟨0x0004, 15, 15⟩
def CTL_OPSTAT_VALID : Fld := ⟨0x0004, 14, 14⟩
def CTL_OPSTAT_ABORT : Fld := ⟨0x0004, 13, 13⟩
def CTL_EVCFG_QEN : Fld := ⟨0x0005, 19, 16⟩
def CTL_EVCFG_IEN : Fld := ⟨0x0005, 15, 12⟩
def CTL_EVLOST_COUNT : Fld := ⟨0x0006, 19, 0⟩
def CTL_SPIERR_COUNT : Fld := ⟨0x0007, 19, 0⟩
def CTL_EVQ_ENTRY (i : Nat) : Fld := ⟨0x0008 + i, 19, 0⟩
def CTL_SEQ_STATUS_ACTPG : Fld := ⟨0x0100, 19, 19⟩
def CTL_SEQ_STATUS_PEND : Fld := ⟨0x0100, 18, 18⟩
def CTL_SEQ_STATUS_PENDPG : Fld := ⟨0x0100, 17, 17⟩
def CTL_SEQ_STATUS_STATE : Fld := ⟨0x0100, 16, 14⟩
def CTL_SEQ_STATUS_LOADING : Fld := ⟨0x0100, 13, 13⟩
def CTL_SEQ_STATUS_BADENT : Fld := ⟨0x0100, 12, 12⟩
def CTL_SEQ_STATUS_PC : Fld := ⟨0x0100, 11, 0⟩
def CTL_SEQ_FLAGS_SYNC_TO : Fld := ⟨0x0101, 19, 19⟩
def CTL_SEQ_FLAGS_TRIG : Fld := ⟨0x0101, 18, 15⟩
def CTL_SEQ_HOSTF_HOST : Fld := ⟨0x0102, 3, 0⟩
def CTL_SEQ_LC_LC (i : Nat) : Fld := ⟨0x0103 + i, 11, 0⟩
def CTL_SEQ_PGINFO_LIB (i : Nat) : Fld := ⟨0x0107 + i, 19, 16⟩
def CTL_SEQ_PGINFO_COUNT (i : Nat) : Fld := ⟨0x0107 + i, 12, 0⟩
def CTL_SEQ_PITCH_PITCH_B : Fld := ⟨0x0109, 19, 8⟩
def CTL_SEQ_PITCH_PITCH_A_HI : Fld := ⟨0x0109, 7, 0⟩
def CTL_SEQ_FMT_MAJOR : Fld := ⟨0x010A, 19, 12⟩
def CTL_SEQ_FMT_MINOR : Fld := ⟨0x010A, 11, 4⟩
def CTL_SEQ_FMT_PITCH_A_LO : Fld := ⟨0x010A, 3, 0⟩
def CTL_SEQ_SLIP_COUNT : Fld := ⟨0x010B, 19, 0⟩
def CTL_SEQ_HOLD_COUNT : Fld := ⟨0x010C, 19, 0⟩
def CTL_SEQ_LOADARG_TGT : Fld := ⟨0x010D, 19, 19⟩
def CTL_SEQ_LOADARG_LIB : Fld := ⟨0x010D, 3, 0⟩
def CTL_BATTEN_KIND : Fld := ⟨0x010E, 19, 18⟩
def CTL_BATTEN_PG : Fld := ⟨0x010E, 17, 17⟩
def CTL_BATTEN_ARG : Fld := ⟨0x010E, 11, 0⟩
def CTL_BATTEN_LEAD_LEAD : Fld := ⟨0x010F, 19, 0⟩
def CTL_BATTEN_TIME_TIME (i : Nat) : Fld := ⟨0x0110 + i, 19, 0⟩
def CTL_SLOT_CFG_SLOTN : Fld := ⟨0x0120, 5, 0⟩
def CTL_SLOT_LEN_LEN : Fld := ⟨0x0121, 19, 0⟩
def CTL_SLOT_MASK_MASK (i : Nat) : Fld := ⟨0x0122 + i, 15, 0⟩
def CTL_SLOT_STAT_CONFLICT : Fld := ⟨0x0124, 19, 19⟩
def CTL_SLOT_STAT_UPCONF : Fld := ⟨0x0124, 18, 18⟩
def CTL_SLOT_STAT_DNCONF : Fld := ⟨0x0124, 17, 17⟩
def CTL_SLOT_VIOL_COUNT : Fld := ⟨0x0125, 19, 0⟩
def CTL_DOVE_DVX : Fld := ⟨0x0126, 19, 19⟩
def CTL_DOVE_DL : Fld := ⟨0x0126, 14, 8⟩
def CTL_DOVE_DR : Fld := ⟨0x0126, 6, 0⟩
def CTL_PROFILE_ACTIVE : Fld := ⟨0x0130, 19, 17⟩
def CTL_PROFILE_SWPEND : Fld := ⟨0x0130, 16, 16⟩
def CTL_PROFILE_GATED : Fld := ⟨0x0130, 7, 0⟩
def CTL_PROF_ARG_CODE : Fld := ⟨0x0131, 19, 17⟩
def CTL_PROF_REC_DEF (i : Nat) : Fld := ⟨0x0138 + i, 19, 19⟩
def CTL_PROF_REC_LIB (i : Nat) : Fld := ⟨0x0138 + i, 18, 15⟩
def CTL_PROF_REC_ROWMASK (i : Nat) : Fld := ⟨0x0138 + i, 14, 7⟩
def CTL_PROF_REC_HKLP (i : Nat) : Fld := ⟨0x0138 + i, 6, 6⟩
def CTL_PROF_ENT_ENTRY (i : Nat) : Fld := ⟨0x0140 + i, 11, 0⟩
def CTL_PROF_ZS_ZSOK (i : Nat) : Fld := ⟨0x0148 + i, 15, 0⟩
def TBU_STATUS_TLOCK : Fld := ⟨0x1000, 19, 19⟩
def TBU_STATUS_SLOCK : Fld := ⟨0x1000, 18, 18⟩
def TBU_STATUS_REFOK : Fld := ⟨0x1000, 17, 17⟩
def TBU_STATUS_HOLDOVER : Fld := ⟨0x1000, 16, 16⟩
def TBU_STATUS_SLEWING : Fld := ⟨0x1000, 15, 15⟩
def TBU_STATUS_SNAPPEND : Fld := ⟨0x1000, 14, 14⟩
def TBU_STATUS_RETUNE : Fld := ⟨0x1000, 13, 13⟩
def TBU_STATUS_TSRC : Fld := ⟨0x1000, 12, 11⟩
def TBU_STATUS_TSLOST : Fld := ⟨0x1000, 10, 10⟩
def TBU_STATUS_REFLOSS : Fld := ⟨0x1000, 9, 9⟩
def TBU_STATUS_UNLOCK : Fld := ⟨0x1000, 8, 8⟩
def TBU_REFF_F : Fld := ⟨0x1001, 19, 0⟩
def TBU_REFF_HI_F : Fld := ⟨0x1002, 7, 0⟩
def TBU_S_REFF_F : Fld := ⟨0x1003, 19, 0⟩
def TBU_S_REFF_HI_F : Fld := ⟨0x1004, 7, 0⟩
def TBU_LOCK_NWINM1 : Fld := ⟨0x1005, 19, 8⟩
def TBU_LOCK_LTOL : Fld := ⟨0x1005, 7, 0⟩
def TBU_DSEED_SEED : Fld := ⟨0x1006, 19, 0⟩
def TBU_PJMAX_PJMAX : Fld := ⟨0x1007, 9, 0⟩
def TBU_SLEW_SLEW : Fld := ⟨0x1008, 7, 0⟩
def TBU_REFQUAL_REFQUAL : Fld := ⟨0x1009, 9, 0⟩
def TBU_TLOOP_TLOOP : Fld := ⟨0x100A, 13, 0⟩
def TBU_TERR_E : Fld := ⟨0x100B, 19, 0⟩
def TBU_FOFS_FOFS : Fld := ⟨0x100C, 19, 0⟩
def TBU_SNAPT_TSNAP (i : Nat) : Fld := ⟨0x100D + i, 19, 0⟩
def TBU_SNAPD_DELTA (i : Nat) : Fld := ⟨0x1010 + i, 19, 0⟩
def TBU_HOLDMS_MS : Fld := ⟨0x1012, 19, 0⟩
def TBU_SNAPCNT_COUNT : Fld := ⟨0x1013, 19, 0⟩
def TBU_LOSSCNT_COUNT : Fld := ⟨0x1014, 19, 0⟩
def TBU_CK_FMT (i : Nat) : Fld := ⟨0x1020 + i, 19, 18⟩
def TBU_CK_SRC (i : Nat) : Fld := ⟨0x1020 + i, 17, 16⟩
def TBU_CK_KEEP (i : Nat) : Fld := ⟨0x1020 + i, 15, 15⟩
def TBU_CK_DIVM1 (i : Nat) : Fld := ⟨0x1020 + i, 9, 0⟩
def TBU_CKA_FMT (i : Nat) : Fld := ⟨0x1024 + i, 19, 18⟩
def TBU_CKA_SRC (i : Nat) : Fld := ⟨0x1024 + i, 17, 16⟩
def TBU_CKA_KEEP (i : Nat) : Fld := ⟨0x1024 + i, 15, 15⟩
def TBU_CKA_DIVM1 (i : Nat) : Fld := ⟨0x1024 + i, 9, 0⟩
def EDU_STATUS_CHG_OK : Fld := ⟨0x2000, 19, 19⟩
def EDU_STATUS_MOVING : Fld := ⟨0x2000, 18, 18⟩
def EDU_STATUS_TEMP_EMIT : Fld := ⟨0x2000, 17, 17⟩
def EDU_STATUS_GOV_TRIP : Fld := ⟨0x2000, 16, 16⟩
def EDU_STATUS_BOOST : Fld := ⟨0x2000, 15, 14⟩
def EDU_STATUS_ROW_ACT : Fld := ⟨0x2000, 7, 0⟩
def EDU_FAULT_HV_OV : Fld := ⟨0x2001, 19, 19⟩
def EDU_FAULT_BOOST_FAULT : Fld := ⟨0x2001, 18, 18⟩
def EDU_FAULT_TDIODE_FAULT : Fld := ⟨0x2001, 17, 17⟩
def EDU_FAULT_EMIT_EXCESS : Fld := ⟨0x2001, 15, 8⟩
def EDU_FAULT_LASER_FAULT : Fld := ⟨0x2001, 7, 0⟩
def EDU_ROW_EN_EN : Fld := ⟨0x2002, 7, 0⟩
def EDU_GMAX_GMAX : Fld := ⟨0x2003, 9, 0⟩
def EDU_HV_SET_HV : Fld := ⟨0x2004, 9, 0⟩
def EDU_HV_LIM_TON_MAX : Fld := ⟨0x2005, 19, 10⟩
def EDU_HV_LIM_HV_MAX : Fld := ⟨0x2005, 9, 0⟩
def EDU_HV_HV : Fld := ⟨0x2006, 9, 0⟩
def EDU_TWIN_TLO : Fld := ⟨0x2007, 15, 8⟩
def EDU_TWIN_THI : Fld := ⟨0x2007, 7, 0⟩
def EDU_ISET_G (i : Nat) : Fld := ⟨0x2008 + i, 9, 0⟩
def EDU_DITH_SEED_SEED : Fld := ⟨0x2010, 19, 0⟩
def EDU_DITH_STATE_STATE : Fld := ⟨0x2011, 19, 0⟩
def EDU_MPD_THR_THR : Fld := ⟨0x2012, 9, 0⟩
def EDU_MPD_E_SAT (i : Nat) : Fld := ⟨0x2018 + i, 19, 19⟩
def EDU_MPD_E_M (i : Nat) : Fld := ⟨0x2018 + i, 15, 0⟩
def EDU_SYNTH_COUNT (i : Nat) : Fld := ⟨0x2020 + i, 19, 0⟩
def EDU_TRIM_T (i : Nat) : Fld := ⟨0x2040 + i, 5, 0⟩
def EDU_ADJ_ADJ (i : Nat) : Fld := ⟨0x2080 + i, 4, 0⟩
def EDU_GOV_K_KGOV : Fld := ⟨0x2100, 19, 0⟩
def EDU_MPD_K_KMPD : Fld := ⟨0x2101, 19, 0⟩
def EDU_EXCESS_EXC : Fld := ⟨0x2102, 7, 0⟩
def EDU_CEIL_M_CEIL (i : Nat) : Fld := ⟨0x2108 + i, 19, 0⟩
def EDU_CEIL_S_CEIL (i : Nat) : Fld := ⟨0x210E + i, 19, 0⟩
def EDU_GSUM_SUM (i : Nat) : Fld := ⟨0x2118 + i, 19, 0⟩
def EDU_GINH_COUNT (i : Nat) : Fld := ⟨0x2120 + i, 19, 0⟩
def EDU_GINH_LATE_COUNT : Fld := ⟨0x2123, 19, 0⟩
def EDU_BURST_W0_PM1 (i : Nat) : Fld := ⟨0x2200 + 4 * i, 19, 17⟩
def EDU_BURST_W0_OFS2 (i : Nat) : Fld := ⟨0x2200 + 4 * i, 7, 0⟩
def EDU_BURST_W1_OFS3 (i : Nat) : Fld := ⟨0x2201 + 4 * i, 15, 8⟩
def EDU_BURST_W1_OFS4 (i : Nat) : Fld := ⟨0x2201 + 4 * i, 7, 0⟩
def EDU_BURST_W2_OFS5 (i : Nat) : Fld := ⟨0x2202 + 4 * i, 15, 8⟩
def EDU_BURST_W2_OFS6 (i : Nat) : Fld := ⟨0x2202 + 4 * i, 7, 0⟩
def EDU_BURST_W3_OFS7 (i : Nat) : Fld := ⟨0x2203 + 4 * i, 15, 8⟩
def EDU_BURST_W3_OFS8 (i : Nat) : Fld := ⟨0x2203 + 4 * i, 7, 0⟩
def STU_STATUS_DRIVE : Fld := ⟨0x3000, 19, 19⟩
def STU_STATUS_MOVTOK : Fld := ⟨0x3000, 18, 18⟩
def STU_STATUS_TAKEOVER : Fld := ⟨0x3000, 17, 17⟩
def STU_STATUS_TPVALID : Fld := ⟨0x3000, 16, 16⟩
def STU_STATUS_CSEL : Fld := ⟨0x3000, 15, 15⟩
def STU_STATUS_MSEL : Fld := ⟨0x3000, 14, 14⟩
def STU_STATUS_L0MODE : Fld := ⟨0x3000, 13, 12⟩
def STU_STATUS_L1MODE : Fld := ⟨0x3000, 11, 10⟩
def STU_STATUS_L0ARR : Fld := ⟨0x3000, 9, 9⟩
def STU_STATUS_L1ARR : Fld := ⟨0x3000, 8, 8⟩
def STU_FAULT_SENSOR_OPEN : Fld := ⟨0x3001, 19, 16⟩
def STU_FAULT_STBY_OPEN : Fld := ⟨0x3001, 15, 12⟩
def STU_FAULT_MIRROR_IMPLAUSIBLE : Fld := ⟨0x3001, 11, 11⟩
def STU_FAULT_DRIVE_STOP : Fld := ⟨0x3001, 10, 10⟩
def STU_FAULT_STOPCAUSE : Fld := ⟨0x3001, 9, 8⟩
def STU_FAULT_TP_LOST : Fld := ⟨0x3001, 7, 7⟩
def STU_FAULT_IMPLCAUSE : Fld := ⟨0x3001, 6, 5⟩
def STU_FAULT_MTP_LOST : Fld := ⟨0x3001, 4, 4⟩
def STU_MIRCFG_MMODE : Fld := ⟨0x3002, 19, 19⟩
def STU_MIRCFG_F0NOM : Fld := ⟨0x3002, 12, 0⟩
def STU_EXC_NEX : Fld := ⟨0x3003, 19, 13⟩
def STU_EXC_PHOFS : Fld := ⟨0x3003, 9, 0⟩
def STU_EXAMP_EXAMP : Fld := ⟨0x3004, 10, 0⟩
def STU_SNS_C_EN : Fld := ⟨0x3005, 19, 19⟩
def STU_SNS_C_PARTEN : Fld := ⟨0x3005, 18, 18⟩
def STU_SNS_C_SEL : Fld := ⟨0x3005, 17, 17⟩
def STU_SNS_C_GAIN : Fld := ⟨0x3005, 16, 15⟩
def STU_SNS_C_BOC : Fld := ⟨0x3005, 14, 13⟩
def STU_SNS_C_SETTLE : Fld := ⟨0x3005, 12, 9⟩
def STU_SNS_M_EN : Fld := ⟨0x3006, 19, 19⟩
def STU_SNS_M_PARTEN : Fld := ⟨0x3006, 18, 18⟩
def STU_SNS_M_SEL : Fld := ⟨0x3006, 17, 17⟩
def STU_SNS_M_GAIN : Fld := ⟨0x3006, 16, 15⟩
def STU_SNS_M_BOC : Fld := ⟨0x3006, 14, 13⟩
def STU_SNS_M_SETTLE : Fld := ⟨0x3006, 12, 9⟩
def STU_IZ_IZ (i : Nat) : Fld := ⟨0x3008 + i, 11, 0⟩
def STU_TRIM_TRIM (i : Nat) : Fld := ⟨0x300C + i, 13, 0⟩
def STU_AWLO_C_AW : Fld := ⟨0x3010, 19, 0⟩
def STU_AWHI_C_AW : Fld := ⟨0x3011, 19, 0⟩
def STU_AWLO_M_AW : Fld := ⟨0x3012, 19, 0⟩
def STU_AWHI_M_AW : Fld := ⟨0x3013, 19, 0⟩
def STU_CIC_NM3 : Fld := ⟨0x3014, 19, 18⟩
def STU_CIC_RM1 : Fld := ⟨0x3014, 17, 9⟩
def STU_CIC_MM1 : Fld := ⟨0x3014, 8, 8⟩
def STU_CICSH_SH (i : Nat) : Fld := ⟨0x3015 + i, 19, 0⟩
def STU_KANG_C_KANG : Fld := ⟨0x3017, 19, 0⟩
def STU_KANG_M_KANG : Fld := ⟨0x3018, 19, 0⟩
def STU_ANG_C_ANG : Fld := ⟨0x3019, 19, 0⟩
def STU_ANG_M_ANG : Fld := ⟨0x301A, 19, 0⟩
def STU_IPR_C_IPRW : Fld := ⟨0x301C, 19, 0⟩
def STU_IPR_M_IPRW : Fld := ⟨0x301D, 19, 0⟩
def STU_AMP_A : Fld := ⟨0x301E, 19, 0⟩
def STU_HPER_TH : Fld := ⟨0x301F, 19, 0⟩
def STU_GD_GD : Fld := ⟨0x3020, 13, 0⟩
def STU_BORG_BORG : Fld := ⟨0x3021, 19, 0⟩
def STU_BWID_BWID : Fld := ⟨0x3022, 19, 0⟩
def STU_NBIN_NBIN : Fld := ⟨0x3023, 12, 0⟩
def STU_MWLO_MW : Fld := ⟨0x3024, 19, 0⟩
def STU_MWHI_MW : Fld := ⟨0x3025, 19, 0⟩
def STU_TPMIN_TPMIN : Fld := ⟨0x3026, 19, 0⟩
def STU_TPERR_ERR : Fld := ⟨0x3027, 19, 0⟩
def STU_REPL_COUNT : Fld := ⟨0x3028, 19, 0⟩
def STU_BADPER_COUNT : Fld := ⟨0x3029, 19, 0⟩
def STU_MSTART_MSTART : Fld := ⟨0x302A, 15, 0⟩
def STU_NRD_NRD : Fld := ⟨0x302B, 7, 0⟩
def STU_F0_F0 : Fld := ⟨0x3030, 19, 0⟩
def STU_Q_Q : Fld := ⟨0x3031, 19, 0⟩
def STU_DEC_DEC : Fld := ⟨0x3032, 15, 0⟩
def STU_KG_KG : Fld := ⟨0x3033, 19, 0⟩
def STU_MA1_MA : Fld := ⟨0x3034, 19, 0⟩
def STU_MA2_MA : Fld := ⟨0x3035, 19, 0⟩
def STU_MB_MB : Fld := ⟨0x3036, 19, 0⟩
def STU_RLIMA_RLIMA : Fld := ⟨0x3038, 19, 0⟩
def STU_RLIMT_RLIMT : Fld := ⟨0x3039, 19, 0⟩
def STU_XTOL_XTOL : Fld := ⟨0x303A, 19, 0⟩
def STU_RES_RES : Fld := ⟨0x303B, 19, 0⟩
def CEN_CTL_MODE (i : Nat) : Fld := ⟨0x3040 + 16 * i, 19, 19⟩
def CEN_CTL_BSEL (i : Nat) : Fld := ⟨0x3040 + 16 * i, 18, 18⟩
def CEN_CTL_ABANK (i : Nat) : Fld := ⟨0x3040 + 16 * i, 17, 17⟩
def CEN_L0_TGT_TGT : Fld := ⟨0x3041, 19, 0⟩
def CEN_SPT_SPT (i : Nat) : Fld := ⟨0x3042 + 16 * i, 19, 0⟩
def CEN_SLEW_SLEW (i : Nat) : Fld := ⟨0x3043 + 16 * i, 19, 0⟩
def CEN_VMAX_VMAX (i : Nat) : Fld := ⟨0x3044 + 16 * i, 19, 0⟩
def CEN_AMAX_AMAX (i : Nat) : Fld := ⟨0x3045 + 16 * i, 19, 0⟩
def CEN_JMAX_JMAX (i : Nat) : Fld := ⟨0x3046 + 16 * i, 19, 0⟩
def CEN_L1_TGT_TGT : Fld := ⟨0x3051, 19, 0⟩
def CEN_L0_BAND_BAND (i : Nat) : Fld := ⟨0x3080 + 4 * i, 19, 0⟩
def CEN_L0_WIDTH_WIDTH (i : Nat) : Fld := ⟨0x3081 + 4 * i, 19, 0⟩
def CEN_L0_DUTY_PWMP (i : Nat) : Fld := ⟨0x3082 + 4 * i, 17, 8⟩
def CEN_L0_DUTY_DUTY (i : Nat) : Fld := ⟨0x3082 + 4 * i, 7, 0⟩
def CEN_L0_LIM_LIM (i : Nat) : Fld := ⟨0x3083 + 4 * i, 19, 0⟩
def CEN_L1_BAND_BAND (i : Nat) : Fld := ⟨0x3088 + 4 * i, 19, 0⟩
def CEN_L1_WIDTH_WIDTH (i : Nat) : Fld := ⟨0x3089 + 4 * i, 19, 0⟩
def CEN_L1_DUTY_NP (i : Nat) : Fld := ⟨0x308A + 4 * i, 7, 0⟩
def CEN_L1_LIM_LIM (i : Nat) : Fld := ⟨0x308B + 4 * i, 19, 0⟩
def CEN_L2_BAND_BAND (i : Nat) : Fld := ⟨0x3090 + 4 * i, 19, 0⟩
def CEN_L2_WIDTH_NONE (i : Nat) : Fld := ⟨0x3091 + 4 * i, 0, 1⟩
def CEN_L2_DUTY_ADJLO (i : Nat) : Fld := ⟨0x3092 + 4 * i, 4, 0⟩
def CEN_L2_LIM_ADJHI (i : Nat) : Fld := ⟨0x3093 + 4 * i, 4, 0⟩
def RTA_PCFG_EN (i : Nat) : Fld := ⟨0x4000 + 16 * i, 19, 19⟩
def RTA_PCFG_MODE (i : Nat) : Fld := ⟨0x4000 + 16 * i, 18, 17⟩
def RTA_PCFG_WMODE (i : Nat) : Fld := ⟨0x4000 + 16 * i, 16, 15⟩
def RTA_PCFG_WTAB (i : Nat) : Fld := ⟨0x4000 + 16 * i, 14, 11⟩
def RTA_PCFG_HIEN (i : Nat) : Fld := ⟨0x4000 + 16 * i, 10, 10⟩
def RTA_PTHRL_HYS (i : Nat) : Fld := ⟨0x4001 + 16 * i, 19, 16⟩
def RTA_PTHRL_THR (i : Nat) : Fld := ⟨0x4001 + 16 * i, 9, 0⟩
def RTA_PTHRH_HYS (i : Nat) : Fld := ⟨0x4002 + 16 * i, 19, 16⟩
def RTA_PTHRH_THR (i : Nat) : Fld := ⟨0x4002 + 16 * i, 9, 0⟩
def RTA_PATHR_ATHR (i : Nat) : Fld := ⟨0x4003 + 16 * i, 9, 0⟩
def RTA_PSTAT_ACTIVE (i : Nat) : Fld := ⟨0x4004 + 16 * i, 19, 19⟩
def RTA_PSTAT_FAILED (i : Nat) : Fld := ⟨0x4004 + 16 * i, 18, 18⟩
def RTA_PSTAT_SPARED (i : Nat) : Fld := ⟨0x4004 + 16 * i, 17, 17⟩
def RTA_PSTAT_OFF (i : Nat) : Fld := ⟨0x4004 + 16 * i, 16, 16⟩
def RTA_PSTAT_PDRAINED (i : Nat) : Fld := ⟨0x4004 + 16 * i, 15, 15⟩
def RTA_PSTAT_SKEWJUMP (i : Nat) : Fld := ⟨0x4004 + 16 * i, 14, 14⟩
def RTA_PSTAT_LUTJUMP (i : Nat) : Fld := ⟨0x4004 + 16 * i, 13, 13⟩
def RTA_PSTAT_CHKFAILS (i : Nat) : Fld := ⟨0x4004 + 16 * i, 12, 11⟩
def RTA_PSTAT_CALSUB (i : Nat) : Fld := ⟨0x4004 + 16 * i, 10, 10⟩
def RTA_PSTOPS_COUNT (i : Nat) : Fld := ⟨0x4005 + 16 * i, 19, 0⟩
def RTA_PEARLY_COUNT (i : Nat) : Fld := ⟨0x4006 + 16 * i, 19, 0⟩
def RTA_PMERGED_COUNT (i : Nat) : Fld := ⟨0x4007 + 16 * i, 19, 0⟩
def RTA_POVF_COUNT (i : Nat) : Fld := ⟨0x4008 + 16 * i, 19, 0⟩
def RTA_PMORE_COUNT (i : Nat) : Fld := ⟨0x4009 + 16 * i, 19, 0⟩
def RTA_PCHK_VALID (i : Nat) : Fld := ⟨0x400A + 16 * i, 19, 19⟩
def RTA_PCHK_PASS (i : Nat) : Fld := ⟨0x400A + 16 * i, 18, 18⟩
def RTA_PCHK_LOHIT (i : Nat) : Fld := ⟨0x400A + 16 * i, 17, 17⟩
def RTA_PCHK_HIHIT (i : Nat) : Fld := ⟨0x400A + 16 * i, 16, 16⟩
def RTA_PCHK_DEV (i : Nat) : Fld := ⟨0x400A + 16 * i, 11, 0⟩
def RTA_PFQN_N (i : Nat) : Fld := ⟨0x400B + 16 * i, 19, 0⟩
def RTA_PFQP_PERIOD (i : Nat) : Fld := ⟨0x400C + 16 * i, 19, 0⟩
def RTA_PFQP_HI_PERIOD (i : Nat) : Fld := ⟨0x400D + 16 * i, 19, 0⟩
def RTA_PBGN_HITS (i : Nat) : Fld := ⟨0x400E + 16 * i, 19, 0⟩
def RTA_PSKEW_SKEW (i : Nat) : Fld := ⟨0x400F + 16 * i, 15, 0⟩
def RTA_GSTAT_SPUSE : Fld := ⟨0x5000, 19, 12⟩
def RTA_GSTAT_NOFF : Fld := ⟨0x5000, 8, 0⟩
def RTA_CHK_TOL : Fld := ⟨0x5001, 15, 8⟩
def RTA_CHK_NFAIL : Fld := ⟨0x5001, 1, 0⟩
def RTA_BGH_H : Fld := ⟨0x5002, 19, 0⟩
def RTA_TRK_SKEWTRK : Fld := ⟨0x5003, 15, 8⟩
def RTA_TRK_LUTTRK : Fld := ⟨0x5003, 7, 0⟩
def RTA_AIRIDX_AIRIDX : Fld := ⟨0x5004, 19, 0⟩
def RTA_ATHR_MAX_MAX : Fld := ⟨0x5005, 9, 0⟩
def RTA_SKEWN_N : Fld := ⟨0x5006, 7, 0⟩
def RTA_FQW_W : Fld := ⟨0x5007, 7, 0⟩
def RTA_SPARE_INUSE (i : Nat) : Fld := ⟨0x5008 + i, 19, 19⟩
def RTA_SPARE_FAILED (i : Nat) : Fld := ⟨0x5008 + i, 18, 18⟩
def RTA_SPARE_MAN (i : Nat) : Fld := ⟨0x5008 + i, 17, 17⟩
def RTA_SPARE_PASS (i : Nat) : Fld := ⟨0x5008 + i, 16, 16⟩
def RTA_SPARE_CHKFAILS (i : Nat) : Fld := ⟨0x5008 + i, 15, 14⟩
def RTA_SPARE_SRC (i : Nat) : Fld := ⟨0x5008 + i, 12, 8⟩
def RTA_SPARE_MSRC (i : Nat) : Fld := ⟨0x5008 + i, 4, 0⟩
def RTA_LUT_SEL_SEL : Fld := ⟨0x5010, 8, 0⟩
def RTA_STARTFAIL_FAIL : Fld := ⟨0x5011, 7, 0⟩
def RTA_FGATE_GATE : Fld := ⟨0x5012, 19, 0⟩
def RTA_AIRDEV_AIRDEV : Fld := ⟨0x5013, 15, 0⟩
def RTA_JIG_DRAW : Fld := ⟨0x5014, 19, 19⟩
def RTA_JIG_DPORT : Fld := ⟨0x5014, 18, 11⟩
def RTA_JIG_DPREM1 : Fld := ⟨0x5014, 10, 0⟩
def RTA_FCFG_S_FEN (i : Nat) : Fld := ⟨0x5020 + i, 19, 19⟩
def RTA_FCFG_S_PRESCM1 (i : Nat) : Fld := ⟨0x5020 + i, 18, 13⟩
def RTA_FCFG_T_FEN (i : Nat) : Fld := ⟨0x5028 + i, 19, 19⟩
def RTA_FCFG_T_PRESCM1 (i : Nat) : Fld := ⟨0x5028 + i, 18, 13⟩
def RTA_FCFG_T_SRC (i : Nat) : Fld := ⟨0x5028 + i, 12, 12⟩
def RTA_FCFG_T_POL (i : Nat) : Fld := ⟨0x5028 + i, 11, 11⟩
def RTA_FRES_N_N (i : Nat) : Fld := ⟨0x5030 + 4 * i, 19, 0⟩
def RTA_FRES_PERIOD_PERIOD (i : Nat) : Fld := ⟨0x5031 + 4 * i, 19, 0⟩
def RTA_FRES_PERIOD_HI_PERIOD (i : Nat) : Fld := ⟨0x5032 + 4 * i, 19, 0⟩
def RTA_FRES_RSVD_RSVD (i : Nat) : Fld := ⟨0x5033 + 4 * i, 19, 0⟩
def RTA_LUT_LUT (i : Nat) : Fld := ⟨0x5100 + i, 12, 0⟩
def RTA_WALK_W (i : Nat) : Fld := ⟨0x5400 + i, 15, 0⟩
def RPE_HCFG_ZCBINK : Fld := ⟨0x6000, 3, 0⟩
def RPE_HSTAT_NSTRETCH : Fld := ⟨0x6001, 8, 0⟩
def RPE_STRETCH_COUNT : Fld := ⟨0x6002, 19, 0⟩
def RPE_PARTIAL_COUNT : Fld := ⟨0x6003, 19, 0⟩
def RPE_SATCNT_COUNT : Fld := ⟨0x6004, 19, 0⟩
def RPE_CREJ_COUNT : Fld := ⟨0x6005, 19, 0⟩
def RPE_ZLAG_COUNT : Fld := ⟨0x6006, 19, 0⟩
def RPE_NOREC_COUNT : Fld := ⟨0x6007, 19, 0⟩
def RPE_COINC_KM1 (i : Nat) : Fld := ⟨0x6008 + i, 19, 18⟩
def RPE_COINC_CWM1 (i : Nat) : Fld := ⟨0x6008 + i, 3, 0⟩
def RPE_ECFG_KSIG : Fld := ⟨0x6010, 19, 12⟩
def RPE_ECFG_MINC : Fld := ⟨0x6010, 11, 4⟩
def RPE_ELIVE_LIVEMIN : Fld := ⟨0x6011, 11, 0⟩
def RPE_ECLS_FRAT : Fld := ⟨0x6012, 19, 12⟩
def RPE_ECLS_MAMP : Fld := ⟨0x6012, 11, 4⟩
def RPE_EMCFG_MWID : Fld := ⟨0x6013, 19, 12⟩
def RPE_EMCFG_HTOL : Fld := ⟨0x6013, 11, 0⟩
def RPE_EHIST_HDEPTH : Fld := ⟨0x6014, 3, 0⟩
def RPE_EGRP_PU (i : Nat) : Fld := ⟨0x6018 + i, 19, 19⟩
def RPE_MFSEL_TAB (i : Nat) : Fld := ⟨0x6020 + i, 3, 0⟩
def RPE_ESTAT_HFR : Fld := ⟨0x6030, 19, 16⟩
def RPE_ESTAT_NOHIST : Fld := ⟨0x6030, 15, 15⟩
def RPE_ESTAT_QLEN : Fld := ⟨0x6030, 8, 0⟩
def RPE_ECHOES_COUNT : Fld := ⟨0x6031, 19, 0⟩
def RPE_NOECHO_COUNT : Fld := ⟨0x6032, 19, 0⟩
def RPE_MOREECHO_COUNT : Fld := ⟨0x6033, 19, 0⟩
def RPE_MISTCNT_COUNT : Fld := ⟨0x6034, 19, 0⟩
def RPE_FORCNT_COUNT : Fld := ⟨0x6035, 19, 0⟩
def RPE_BGFALL_COUNT : Fld := ⟨0x6036, 19, 0⟩
def RPE_HISTUE_COUNT : Fld := ⟨0x6037, 19, 0⟩
def RPE_AMBCFG_NAM1 : Fld := ⟨0x6040, 19, 18⟩
def RPE_AMBCFG_RAM1 : Fld := ⟨0x6040, 17, 12⟩
def RPE_AMBCFG_HUSE : Fld := ⟨0x6040, 11, 11⟩
def RPE_AMBCFG_TPER : Fld := ⟨0x6040, 9, 0⟩
def RPE_AMBNORM_GNORM (i : Nat) : Fld := ⟨0x6041 + i, 19, 0⟩
def RPE_AMBSEED_SEEDN : Fld := ⟨0x6043, 7, 0⟩
def RPE_AMBSTALE_STALEMAX : Fld := ⟨0x6044, 9, 0⟩
def RPE_AMBHI_AHLVL : Fld := ⟨0x6045, 2, 0⟩
def RPE_AMBEVT_COUNT : Fld := ⟨0x6046, 19, 0⟩
def RPE_AMBLVL_LVL (i : Nat) : Fld := ⟨0x6048 + i, 19, 0⟩
def RPE_AMBREL_REL (i : Nat) : Fld := ⟨0x6050 + i, 19, 0⟩
def RPE_AMBSTEP_STEP (i : Nat) : Fld := ⟨0x6058 + i, 7, 0⟩
def RPE_FOR_CFG_FNMIN : Fld := ⟨0x6060, 19, 12⟩
def RPE_FOR_CFG_FPTOL : Fld := ⟨0x6060, 7, 0⟩
def RPE_FOR_PMIN_FPMIN : Fld := ⟨0x6061, 19, 0⟩
def RPE_FOR_PMAX_FPMAX : Fld := ⟨0x6062, 19, 0⟩
def RPE_FOR_PORTS_FPORTS : Fld := ⟨0x6063, 8, 0⟩
def RPE_FOR_PORTS_FAGE : Fld := ⟨0x6063, 19, 12⟩
def RPE_FOR_STAT_FOREIGN : Fld := ⟨0x6064, 19, 19⟩
def RPE_FOR_STAT_NHIT : Fld := ⟨0x6064, 8, 0⟩
def RPE_FOR_HIT_HIT (i : Nat) : Fld := ⟨0x6068 + i, 15, 0⟩
def RPE_ZANC_ZANC (i : Nat) : Fld := ⟨0x6100 + i, 19, 0⟩
def RPE_ROFS_ROFS (i : Nat) : Fld := ⟨0x6200 + i, 19, 0⟩
def RPE_KR_KR : Fld := ⟨0x6300, 19, 0⟩
def RPE_KR_HI_KR : Fld := ⟨0x6301, 19, 0⟩
def RPE_FTAB_W0_NTM1 (i : Nat) : Fld := ⟨0x6400 + 64 * i, 19, 15⟩
def RPE_FTAB_W0_CT (i : Nat) : Fld := ⟨0x6400 + 64 * i, 14, 10⟩
def RPE_FTAB_W0_S (i : Nat) : Fld := ⟨0x6400 + 64 * i, 9, 7⟩
def RPE_FTAB_W1_DW (i : Nat) : Fld := ⟨0x6401 + 64 * i, 19, 12⟩
def RPE_FTAB_W1_SEP (i : Nat) : Fld := ⟨0x6401 + 64 * i, 11, 4⟩
def RPE_FTAB_W2_TOFS (i : Nat) : Fld := ⟨0x6402 + 64 * i, 15, 0⟩
def RPE_FTAB_C0_C (i : Nat) : Fld := ⟨0x6408 + 64 * i, 11, 0⟩
def RPE_FTAB_C1_C (i : Nat) : Fld := ⟨0x6409 + 64 * i, 11, 0⟩
def RPE_FTAB_C2_C (i : Nat) : Fld := ⟨0x640A + 64 * i, 11, 0⟩
def RPE_FTAB_C3_C (i : Nat) : Fld := ⟨0x640B + 64 * i, 11, 0⟩
def RPE_FTAB_C4_C (i : Nat) : Fld := ⟨0x640C + 64 * i, 11, 0⟩
def RPE_FTAB_C5_C (i : Nat) : Fld := ⟨0x640D + 64 * i, 11, 0⟩
def RPE_FTAB_C6_C (i : Nat) : Fld := ⟨0x640E + 64 * i, 11, 0⟩
def RPE_FTAB_C7_C (i : Nat) : Fld := ⟨0x640F + 64 * i, 11, 0⟩
def RPE_FTAB_C8_C (i : Nat) : Fld := ⟨0x6410 + 64 * i, 11, 0⟩
def RPE_FTAB_C9_C (i : Nat) : Fld := ⟨0x6411 + 64 * i, 11, 0⟩
def RPE_FTAB_C10_C (i : Nat) : Fld := ⟨0x6412 + 64 * i, 11, 0⟩
def RPE_FTAB_C11_C (i : Nat) : Fld := ⟨0x6413 + 64 * i, 11, 0⟩
def RPE_FTAB_C12_C (i : Nat) : Fld := ⟨0x6414 + 64 * i, 11, 0⟩
def RPE_FTAB_C13_C (i : Nat) : Fld := ⟨0x6415 + 64 * i, 11, 0⟩
def RPE_FTAB_C14_C (i : Nat) : Fld := ⟨0x6416 + 64 * i, 11, 0⟩
def RPE_FTAB_C15_C (i : Nat) : Fld := ⟨0x6417 + 64 * i, 11, 0⟩
def RPE_FTAB_C16_C (i : Nat) : Fld := ⟨0x6418 + 64 * i, 11, 0⟩
def RPE_FTAB_C17_C (i : Nat) : Fld := ⟨0x6419 + 64 * i, 11, 0⟩
def RPE_FTAB_C18_C (i : Nat) : Fld := ⟨0x641A + 64 * i, 11, 0⟩
def RPE_FTAB_C19_C (i : Nat) : Fld := ⟨0x641B + 64 * i, 11, 0⟩
def RPE_FTAB_C20_C (i : Nat) : Fld := ⟨0x641C + 64 * i, 11, 0⟩
def RPE_FTAB_C21_C (i : Nat) : Fld := ⟨0x641D + 64 * i, 11, 0⟩
def RPE_FTAB_C22_C (i : Nat) : Fld := ⟨0x641E + 64 * i, 11, 0⟩
def RPE_FTAB_C23_C (i : Nat) : Fld := ⟨0x641F + 64 * i, 11, 0⟩
def RPE_FTAB_C24_C (i : Nat) : Fld := ⟨0x6420 + 64 * i, 11, 0⟩
def RPE_FTAB_C25_C (i : Nat) : Fld := ⟨0x6421 + 64 * i, 11, 0⟩
def RPE_FTAB_C26_C (i : Nat) : Fld := ⟨0x6422 + 64 * i, 11, 0⟩
def RPE_FTAB_C27_C (i : Nat) : Fld := ⟨0x6423 + 64 * i, 11, 0⟩
def RPE_FTAB_C28_C (i : Nat) : Fld := ⟨0x6424 + 64 * i, 11, 0⟩
def RPE_FTAB_C29_C (i : Nat) : Fld := ⟨0x6425 + 64 * i, 11, 0⟩
def RPE_FTAB_C30_C (i : Nat) : Fld := ⟨0x6426 + 64 * i, 11, 0⟩
def RPE_FTAB_C31_C (i : Nat) : Fld := ⟨0x6427 + 64 * i, 11, 0⟩
def RPE_LAMB_LAMB (i : Nat) : Fld := ⟨0x6800 + i, 19, 0⟩
def RPE_ALVL_AMB_NOSEED (i : Nat) : Fld := ⟨0x6900 + i, 9, 9⟩
def RPE_ALVL_AMB_STALE (i : Nat) : Fld := ⟨0x6900 + i, 8, 8⟩
def RPE_ALVL_ON (i : Nat) : Fld := ⟨0x6900 + i, 7, 0⟩
def CAP_STATUS_STATE : Fld := ⟨0x7000, 19, 17⟩
def CAP_STATUS_DRAINED : Fld := ⟨0x7000, 16, 16⟩
def CAP_STATUS_REG : Fld := ⟨0x7000, 15, 14⟩
def CAP_CTL_ARM : Fld := ⟨0x7001, 19, 19⟩
def CAP_CTL_FORCE : Fld := ⟨0x7001, 18, 18⟩
def CAP_CTL_CLEAR : Fld := ⟨0x7001, 17, 17⟩
def CAP_SETUP_GO : Fld := ⟨0x7002, 19, 19⟩
def CAP_S_MODE_REG : Fld := ⟨0x7003, 19, 18⟩
def CAP_S_MODE_KIND : Fld := ⟨0x7003, 17, 16⟩
def CAP_S_MODE_AVG : Fld := ⟨0x7003, 15, 15⟩
def CAP_S_MODE_MSEL : Fld := ⟨0x7003, 14, 11⟩
def CAP_S_MODE_RAWK : Fld := ⟨0x7003, 10, 8⟩
def CAP_S_MODE_SKIP0 : Fld := ⟨0x7003, 7, 7⟩
def CAP_S_MODE_AUTOARM : Fld := ⟨0x7003, 6, 6⟩
def CAP_S_TRIG_TRIGEN : Fld := ⟨0x7004, 15, 0⟩
def CAP_S_SEGW_SEGW (i : Nat) : Fld := ⟨0x7005 + i, 19, 0⟩
def CAP_S_NSEG_NSEG : Fld := ⟨0x7007, 19, 0⟩
def CAP_S_PREW_PREW (i : Nat) : Fld := ⟨0x7008 + i, 19, 0⟩
def CAP_S_POSTW_POSTW (i : Nat) : Fld := ⟨0x700A + i, 19, 0⟩
def CAP_S_POSTT_POSTT : Fld := ⟨0x700C, 19, 0⟩
def CAP_S_AVGI_AVGI : Fld := ⟨0x700D, 19, 0⟩
def CAP_S_RLO_R : Fld := ⟨0x700E, 19, 0⟩
def CAP_S_RHI_R : Fld := ⟨0x700F, 19, 0⟩
def CAP_S_PMASK_PMASK (i : Nat) : Fld := ⟨0x7010 + i, 19, 0⟩
def CAP_S_PMASK_TOP_PMASK : Fld := ⟨0x701C, 15, 0⟩
def CAP_LAST_SLOT : Fld := ⟨0x7020, 19, 0⟩
def CAP_LASTIDX_IDX : Fld := ⟨0x7021, 19, 0⟩
def CAP_OLDEST_SLOT : Fld := ⟨0x7022, 19, 0⟩
def CAP_SEGLOCK_SLOT (i : Nat) : Fld := ⟨0x7024 + i, 19, 0⟩
def CAP_SEGS_COUNT : Fld := ⟨0x7026, 19, 0⟩
def CAP_MISSED_COUNT : Fld := ⟨0x7027, 19, 0⟩
def CAP_LOST_COUNT : Fld := ⟨0x7028, 19, 0⟩
def CAP_POISON_COUNT : Fld := ⟨0x7029, 19, 0⟩
def CAP_RADDR_ADDR (i : Nat) : Fld := ⟨0x7030 + i, 19, 0⟩
def CAP_RDATA_DATA : Fld := ⟨0x7032, 19, 0⟩
def CAP_RSTAT_UE : Fld := ⟨0x7033, 19, 19⟩
def CAP_A_MODE_REG : Fld := ⟨0x7043, 19, 18⟩
def CAP_A_MODE_KIND : Fld := ⟨0x7043, 17, 16⟩
def CAP_A_MODE_AVG : Fld := ⟨0x7043, 15, 15⟩
def CAP_A_MODE_MSEL : Fld := ⟨0x7043, 14, 11⟩
def CAP_A_MODE_RAWK : Fld := ⟨0x7043, 10, 8⟩
def CAP_A_MODE_SKIP0 : Fld := ⟨0x7043, 7, 7⟩
def CAP_A_MODE_AUTOARM : Fld := ⟨0x7043, 6, 6⟩
def CAP_A_TRIG_TRIGEN : Fld := ⟨0x7044, 15, 0⟩
def CAP_A_SEGW_SEGW (i : Nat) : Fld := ⟨0x7045 + i, 19, 0⟩
def CAP_A_NSEG_NSEG : Fld := ⟨0x7047, 19, 0⟩
def CAP_A_PREW_PREW (i : Nat) : Fld := ⟨0x7048 + i, 19, 0⟩
def CAP_A_POSTW_POSTW (i : Nat) : Fld := ⟨0x704A + i, 19, 0⟩
def CAP_A_POSTT_POSTT : Fld := ⟨0x704C, 19, 0⟩
def CAP_A_AVGI_AVGI : Fld := ⟨0x704D, 19, 0⟩
def CAP_A_RLO_R : Fld := ⟨0x704E, 19, 0⟩
def CAP_A_RHI_R : Fld := ⟨0x704F, 19, 0⟩
def CAP_A_PMASK_PMASK (i : Nat) : Fld := ⟨0x7050 + i, 19, 0⟩
def CAP_A_PMASK_TOP_PMASK : Fld := ⟨0x705C, 15, 0⟩
def CAP_REG_W0_BASE (i : Nat) : Fld := ⟨0x7080 + 8 * i, 19, 0⟩
def CAP_REG_W1_BASE (i : Nat) : Fld := ⟨0x7081 + 8 * i, 19, 0⟩
def CAP_REG_W2_SIZE (i : Nat) : Fld := ⟨0x7082 + 8 * i, 19, 0⟩
def CAP_REG_W3_SIZE (i : Nat) : Fld := ⟨0x7083 + 8 * i, 19, 0⟩
def CAP_REG_W4_RING (i : Nat) : Fld := ⟨0x7084 + 8 * i, 19, 19⟩
def CAP_REG_W5_RSVD (i : Nat) : Fld := ⟨0x7085 + 8 * i, 19, 0⟩
def CAP_REG_W6_RSVD (i : Nat) : Fld := ⟨0x7086 + 8 * i, 19, 0⟩
def CAP_REG_W7_RSVD (i : Nat) : Fld := ⟨0x7087 + 8 * i, 19, 0⟩
def FSO_STATUS_FOPEN : Fld := ⟨0x8000, 19, 19⟩
def FSO_STATUS_SCAN : Fld := ⟨0x8000, 18, 15⟩
def FSO_STATUS_DRAINED : Fld := ⟨0x8000, 14, 11⟩
def FSO_CFG_FSMODE : Fld := ⟨0x8001, 19, 18⟩
def FSO_CFG_NLM1 : Fld := ⟨0x8001, 17, 6⟩
def FSO_FTICKS_FTICKS : Fld := ⟨0x8002, 19, 0⟩
def FSO_FPER_FPER : Fld := ⟨0x8003, 19, 0⟩
def FSO_ACCWAIT_WAIT : Fld := ⟨0x8004, 19, 0⟩
def FSO_ACCPIN_EN : Fld := ⟨0x8005, 3, 0⟩
def FSO_FCNT_FCNT (i : Nat) : Fld := ⟨0x8008 + i, 19, 0⟩
def FSO_ENC_ENC : Fld := ⟨0x800B, 19, 0⟩
def FSO_S_CTL_EN (i : Nat) : Fld := ⟨0x8040 + 32 * i, 19, 19⟩
def FSO_S_CTL_SCALE (i : Nat) : Fld := ⟨0x8040 + 32 * i, 18, 18⟩
def FSO_S_WIN0_WL0 (i : Nat) : Fld := ⟨0x8041 + 32 * i, 19, 8⟩
def FSO_S_WIN0_WC0 (i : Nat) : Fld := ⟨0x8041 + 32 * i, 7, 0⟩
def FSO_S_WIN1_WNLM1 (i : Nat) : Fld := ⟨0x8042 + 32 * i, 19, 8⟩
def FSO_S_WIN1_WNCM1 (i : Nat) : Fld := ⟨0x8042 + 32 * i, 7, 0⟩
def FSO_S_VEN0_KIND (i : Nat) : Fld := ⟨0x8043 + 32 * i, 19, 16⟩
def FSO_S_VEN0_ESEL (i : Nat) : Fld := ⟨0x8043 + 32 * i, 15, 13⟩
def FSO_S_VEN0_EN (i : Nat) : Fld := ⟨0x8043 + 32 * i, 12, 12⟩
def FSO_S_VEN1_KIND (i : Nat) : Fld := ⟨0x8044 + 32 * i, 19, 16⟩
def FSO_S_VEN1_ESEL (i : Nat) : Fld := ⟨0x8044 + 32 * i, 15, 13⟩
def FSO_S_VEN1_EN (i : Nat) : Fld := ⟨0x8044 + 32 * i, 12, 12⟩
def FSO_S_VEN2_KIND (i : Nat) : Fld := ⟨0x8045 + 32 * i, 19, 16⟩
def FSO_S_VEN2_ESEL (i : Nat) : Fld := ⟨0x8045 + 32 * i, 15, 13⟩
def FSO_S_VEN2_EN (i : Nat) : Fld := ⟨0x8045 + 32 * i, 12, 12⟩
def FSO_S_VEN3_KIND (i : Nat) : Fld := ⟨0x8046 + 32 * i, 19, 16⟩
def FSO_S_VEN3_ESEL (i : Nat) : Fld := ⟨0x8046 + 32 * i, 15, 13⟩
def FSO_S_VEN3_EN (i : Nat) : Fld := ⟨0x8046 + 32 * i, 12, 12⟩
def FSO_S_VEN4_KIND (i : Nat) : Fld := ⟨0x8047 + 32 * i, 19, 16⟩
def FSO_S_VEN4_ESEL (i : Nat) : Fld := ⟨0x8047 + 32 * i, 15, 13⟩
def FSO_S_VEN4_EN (i : Nat) : Fld := ⟨0x8047 + 32 * i, 12, 12⟩
def FSO_S_VEN5_KIND (i : Nat) : Fld := ⟨0x8048 + 32 * i, 19, 16⟩
def FSO_S_VEN5_ESEL (i : Nat) : Fld := ⟨0x8048 + 32 * i, 15, 13⟩
def FSO_S_VEN5_EN (i : Nat) : Fld := ⟨0x8048 + 32 * i, 12, 12⟩
def FSO_S_VEN6_KIND (i : Nat) : Fld := ⟨0x8049 + 32 * i, 19, 16⟩
def FSO_S_VEN6_ESEL (i : Nat) : Fld := ⟨0x8049 + 32 * i, 15, 13⟩
def FSO_S_VEN6_EN (i : Nat) : Fld := ⟨0x8049 + 32 * i, 12, 12⟩
def FSO_S_VEN7_KIND (i : Nat) : Fld := ⟨0x804A + 32 * i, 19, 16⟩
def FSO_S_VEN7_ESEL (i : Nat) : Fld := ⟨0x804A + 32 * i, 15, 13⟩
def FSO_S_VEN7_EN (i : Nat) : Fld := ⟨0x804A + 32 * i, 12, 12⟩
def FSO_S_CMT_COMMIT (i : Nat) : Fld := ⟨0x804B + 32 * i, 19, 19⟩
def FSO_S_ACT0_ACT (i : Nat) : Fld := ⟨0x8050 + 32 * i, 19, 0⟩
def FSO_S_ACT1_ACT (i : Nat) : Fld := ⟨0x8051 + 32 * i, 19, 0⟩
def FSO_S_ACT2_ACT (i : Nat) : Fld := ⟨0x8052 + 32 * i, 19, 0⟩
def FSO_S_ACT3_ACT (i : Nat) : Fld := ⟨0x8053 + 32 * i, 19, 0⟩
def FSO_S_ACT4_ACT (i : Nat) : Fld := ⟨0x8054 + 32 * i, 19, 0⟩
def FSO_S_ACT5_ACT (i : Nat) : Fld := ⟨0x8055 + 32 * i, 19, 0⟩
def FSO_S_ACT6_ACT (i : Nat) : Fld := ⟨0x8056 + 32 * i, 19, 0⟩
def FSO_S_ACT7_ACT (i : Nat) : Fld := ⟨0x8057 + 32 * i, 19, 0⟩
def FSO_S_ACT8_ACT (i : Nat) : Fld := ⟨0x8058 + 32 * i, 19, 0⟩
def FSO_S_ACT9_ACT (i : Nat) : Fld := ⟨0x8059 + 32 * i, 19, 0⟩
def FSO_S_ACT10_ACT (i : Nat) : Fld := ⟨0x805A + 32 * i, 19, 0⟩
def FSO_S_CST_PEND (i : Nat) : Fld := ⟨0x805B + 32 * i, 19, 19⟩
def FSO_S_CST_SRC (i : Nat) : Fld := ⟨0x805B + 32 * i, 18, 18⟩
def FSO_S_CST_NEXT2 (i : Nat) : Fld := ⟨0x805B + 32 * i, 17, 17⟩
def FSO_S_CFRM0_FRAME (i : Nat) : Fld := ⟨0x805C + 32 * i, 19, 0⟩
def FSO_S_CFRM1_FRAME (i : Nat) : Fld := ⟨0x805D + 32 * i, 19, 0⟩
def FSO_S_CFRM2_FRAME (i : Nat) : Fld := ⟨0x805E + 32 * i, 19, 0⟩
def FSO_S_SLOT_ST0ST2 (i : Nat) : Fld := ⟨0x805F + 32 * i, 19, 11⟩
def FSO_S_SLOT_PINSLOT (i : Nat) : Fld := ⟨0x805F + 32 * i, 10, 9⟩
def FSO_PIN_STREAM : Fld := ⟨0x8100, 19, 18⟩
def FSO_PIN_WHICH : Fld := ⟨0x8100, 17, 17⟩
def FSO_PINRES_VALID : Fld := ⟨0x8101, 19, 19⟩
def FSO_PINRES_SLOT : Fld := ⟨0x8101, 18, 17⟩
def FSO_PINRES_GEN : Fld := ⟨0x8101, 7, 0⟩
def FSO_PINFCNT_FCNT (i : Nat) : Fld := ⟨0x8102 + i, 19, 0⟩
def FSO_REL_STREAM : Fld := ⟨0x8105, 19, 18⟩
def FSO_REL_GEN : Fld := ⟨0x8105, 7, 0⟩
def FSO_RESEND_STREAM : Fld := ⟨0x8106, 19, 18⟩
def FSO_RESEND_PARTNER : Fld := ⟨0x8106, 5, 0⟩
def FSO_RADDR_LINE : Fld := ⟨0x8108, 19, 8⟩
def FSO_RADDR_COL : Fld := ⟨0x8108, 7, 0⟩
def FSO_RADDR1_STREAM : Fld := ⟨0x8109, 19, 18⟩
def FSO_RADDR1_VEN : Fld := ⟨0x8109, 17, 15⟩
def FSO_RDATA_DATA : Fld := ⟨0x810A, 19, 0⟩
def FSO_RSTAT_NOPIN : Fld := ⟨0x810B, 19, 19⟩
def FSO_UNDERRUN_COUNT : Fld := ⟨0x8120, 19, 0⟩
def FSO_DROP_COUNT : Fld := ⟨0x8121, 19, 0⟩
def FSO_NOBUF_COUNT : Fld := ⟨0x8122, 19, 0⟩
def FSO_NOFRAME_COUNT : Fld := ⟨0x8123, 19, 0⟩
def FSO_BUSYEV_COUNT : Fld := ⟨0x8124, 19, 0⟩
def FSO_ACCSKIP_COUNT : Fld := ⟨0x8125, 19, 0⟩
def FSO_ORPHAN_COUNT : Fld := ⟨0x8126, 19, 0⟩
def FSO_OUTLINE_COUNT : Fld := ⟨0x8127, 19, 0⟩
def FSO_DVLATE_COUNT : Fld := ⟨0x8128, 19, 0⟩
def FSO_POISON_COUNT : Fld := ⟨0x8129, 19, 0⟩
def CMP_STATUS_BUSY0 : Fld := ⟨0x9000, 19, 19⟩
def CMP_STATUS_BUSY1 : Fld := ⟨0x9000, 18, 18⟩
def CMP_CTXUSE_USE : Fld := ⟨0x9001, 15, 0⟩
def CMP_CFG_KINIT : Fld := ⟨0x9002, 3, 0⟩
def CMP_NOSHRINK0_COUNT : Fld := ⟨0x9010, 19, 0⟩
def CMP_NOSHRINK1_COUNT : Fld := ⟨0x9011, 19, 0⟩
def CMP_CHAINEND_COUNT : Fld := ⟨0x9012, 19, 0⟩
def CMP_EXPAND_COUNT : Fld := ⟨0x9013, 19, 0⟩
def CMP_DECERR_COUNT : Fld := ⟨0x9014, 19, 0⟩
def CMP_POISON_COUNT : Fld := ⟨0x9015, 19, 0⟩
def CMP_SWAPS_COUNT : Fld := ⟨0x9016, 19, 0⟩
def CMP_CTX_INUSE (i : Nat) : Fld := ⟨0x9040 + i, 19, 19⟩
def CMP_CTX_DRAINED (i : Nat) : Fld := ⟨0x9040 + i, 18, 18⟩
def CMP_CTX_CLIENT (i : Nat) : Fld := ⟨0x9040 + i, 17, 16⟩
def CMP_CTX_RESIDENT (i : Nat) : Fld := ⟨0x9040 + i, 15, 15⟩
def CMP_CTX_ENG (i : Nat) : Fld := ⟨0x9040 + i, 14, 14⟩
def CMP_CTX_SRC (i : Nat) : Fld := ⟨0x9040 + i, 13, 10⟩
def CMP_EXP_CTL_GO : Fld := ⟨0x9100, 19, 19⟩
def CMP_EXP_CTL_ABORT : Fld := ⟨0x9100, 18, 18⟩
def CMP_EXP_CTL_TOHOST : Fld := ⟨0x9100, 17, 17⟩
def CMP_EXP_CTL_PARTNER : Fld := ⟨0x9100, 5, 0⟩
def CMP_EXP_SLOT_SLOT : Fld := ⟨0x9101, 19, 0⟩
def CMP_EXP_START_START (i : Nat) : Fld := ⟨0x9102 + i, 19, 0⟩
def CMP_EXP_COUNT_COUNT (i : Nat) : Fld := ⟨0x9104 + i, 19, 0⟩
def CMP_EXP_MASK_EXPMASK (i : Nat) : Fld := ⟨0x9106 + i, 19, 0⟩
def CMP_EXP_MASK_TOP_EXPMASK : Fld := ⟨0x9112, 15, 0⟩
def CMP_EXP_RES_DONE : Fld := ⟨0x9113, 19, 19⟩
def CMP_EXP_RES_RESULT : Fld := ⟨0x9113, 18, 16⟩
def CMP_EXP_OUT_OUT (i : Nat) : Fld := ⟨0x9114 + i, 19, 0⟩
def CMP_EXP_NBLK_NBLK : Fld := ⟨0x9116, 19, 0⟩
def CMP_LINK_W0_BASE (i : Nat) : Fld := ⟨0x9200 + 4 * i, 19, 0⟩
def CMP_LINK_W1_BASE (i : Nat) : Fld := ⟨0x9201 + 4 * i, 19, 0⟩
def CMP_LINK_W2_LEN (i : Nat) : Fld := ⟨0x9202 + 4 * i, 19, 0⟩
def CMP_LINK_W3_LEN (i : Nat) : Fld := ⟨0x9203 + 4 * i, 19, 0⟩
def MEM_STATUS_TRAINED : Fld := ⟨0xA000, 19, 19⟩
def MEM_STATUS_UNAVA : Fld := ⟨0xA000, 18, 18⟩
def MEM_STATUS_UNAVB : Fld := ⟨0xA000, 17, 17⟩
def MEM_STATUS_ZFILL : Fld := ⟨0xA000, 16, 16⟩
def MEM_STATUS_RANKS : Fld := ⟨0xA000, 15, 14⟩
def MEM_STATUS_DENS : Fld := ⟨0xA000, 13, 12⟩
def MEM_STATUS_RATE : Fld := ⟨0xA000, 11, 8⟩
def MEM_STATUS_MEM_UNSUP : Fld := ⟨0xA000, 7, 7⟩
def MEM_STATUS_MEM_CAP : Fld := ⟨0xA000, 6, 6⟩
def MEM_STATUS_MEM_TRAIN : Fld := ⟨0xA000, 5, 5⟩
def MEM_CFG_RATEMAX : Fld := ⟨0xA001, 3, 0⟩
def MEM_ROTA_TURN (i : Nat) : Fld := ⟨0xA004 + i, 19, 0⟩
def MEM_ROTB_TURN (i : Nat) : Fld := ⟨0xA008 + i, 19, 0⟩
def MEM_SPASS_SPASS : Fld := ⟨0xA00C, 19, 0⟩
def MEM_RECAL_RECAL : Fld := ⟨0xA00D, 9, 0⟩
def MEM_MARKN_MARKN : Fld := ⟨0xA00E, 11, 0⟩
def MEM_MARK_MARK : Fld := ⟨0xA00F, 19, 0⟩
def MEM_CE_A_COUNT : Fld := ⟨0xA010, 19, 0⟩
def MEM_CE_B_COUNT : Fld := ⟨0xA011, 19, 0⟩
def MEM_UE_A_COUNT : Fld := ⟨0xA012, 19, 0⟩
def MEM_UE_B_COUNT : Fld := ⟨0xA013, 19, 0⟩
def MEM_PASS_A_COUNT : Fld := ⟨0xA014, 19, 0⟩
def MEM_PASS_B_COUNT : Fld := ⟨0xA015, 19, 0⟩
def MEM_WBQOVF_COUNT : Fld := ⟨0xA016, 19, 0⟩
def MEM_LASTUE_REC (i : Nat) : Fld := ⟨0xA020 + i, 19, 0⟩
def MEM_LASTCE_REC (i : Nat) : Fld := ⟨0xA024 + i, 19, 0⟩
def MEM_SNARG_SUB : Fld := ⟨0xA030, 19, 19⟩
def MEM_SNARG_START_START (i : Nat) : Fld := ⟨0xA031 + i, 19, 0⟩
def MEM_SNARG_COUNT_COUNT : Fld := ⟨0xA033, 19, 0⟩
def MEM_SYMCE_COUNT (i : Nat) : Fld := ⟨0xA040 + i, 19, 0⟩
def LNK_STATUS_LUP : Fld := ⟨0xB000, 19, 12⟩
def LNK_STATUS_CUP : Fld := ⟨0xB000, 11, 8⟩
def LNK_STATUS_NPTN : Fld := ⟨0xB000, 6, 0⟩
def LNK_CHAIN_CHAIN_UP : Fld := ⟨0xB001, 19, 19⟩
def LNK_CHAIN_HEAD : Fld := ⟨0xB001, 18, 18⟩
def LNK_CHAIN_CHAIN_FULL : Fld := ⟨0xB001, 17, 17⟩
def LNK_CHAIN_DVCONF_UP : Fld := ⟨0xB001, 16, 16⟩
def LNK_CHAIN_DVCONF_DN : Fld := ⟨0xB001, 15, 15⟩
def LNK_CHAIN_UPDEG : Fld := ⟨0xB001, 14, 14⟩
def LNK_CHAIN_DNDEG : Fld := ⟨0xB001, 13, 13⟩
def LNK_CHAIN_POS : Fld := ⟨0xB001, 12, 8⟩
def LNK_CFG_ROLE : Fld := ⟨0xB002, 19, 19⟩
def LNK_CFG_PTPLANE : Fld := ⟨0xB002, 18, 16⟩
def LNK_CFG_PTPEN : Fld := ⟨0xB002, 15, 15⟩
def LNK_CFG_PTPDOM : Fld := ⟨0xB002, 7, 0⟩
def LNK_KATMO_KATMO : Fld := ⟨0xB003, 13, 0⟩
def LNK_TBLAT_TBLAT : Fld := ⟨0xB004, 19, 0⟩
def LNK_HOPD_D : Fld := ⟨0xB005, 19, 0⟩
def LNK_HOPASYM_ASYM : Fld := ⟨0xB006, 15, 0⟩
def LNK_CHOFS_OFS (i : Nat) : Fld := ⟨0xB007 + i, 19, 0⟩
def LNK_TB_EN (i : Nat) : Fld := ⟨0xB010 + i, 19, 19⟩
def LNK_TB_DRVPOS (i : Nat) : Fld := ⟨0xB010 + i, 18, 14⟩
def LNK_TB_SRC (i : Nat) : Fld := ⟨0xB010 + i, 13, 11⟩
def LNK_TB_POL (i : Nat) : Fld := ⟨0xB010 + i, 10, 10⟩
def LNK_TBUS_LEVEL : Fld := ⟨0xB018, 7, 0⟩
def LNK_TBUS_SET_LINE : Fld := ⟨0xB019, 7, 0⟩
def LNK_TBUS_CLR_LINE : Fld := ⟨0xB01A, 7, 0⟩
def LNK_TOUT_EN0 : Fld := ⟨0xB01B, 19, 19⟩
def LNK_TOUT_LINE0 : Fld := ⟨0xB01B, 18, 16⟩
def LNK_TOUT_EN1 : Fld := ⟨0xB01B, 15, 15⟩
def LNK_TOUT_LINE1 : Fld := ⟨0xB01B, 14, 12⟩
def LNK_NOROOM_COUNT : Fld := ⟨0xB020, 19, 0⟩
def LNK_VERSION_COUNT : Fld := ⟨0xB021, 19, 0⟩
def LNK_FAILOVER_COUNT : Fld := ⟨0xB022, 19, 0⟩
def LNK_MSGCRC_COUNT : Fld := ⟨0xB023, 19, 0⟩
def LNK_BADMSG_COUNT : Fld := ⟨0xB024, 19, 0⟩
def LNK_DUPSEQ_COUNT : Fld := ⟨0xB025, 19, 0⟩
def LNK_TBLATE_COUNT : Fld := ⟨0xB026, 19, 0⟩
def LNK_EVLOST_COUNT : Fld := ⟨0xB027, 19, 0⟩
def LNK_SAFEP_ETH : Fld := ⟨0xB030, 19, 19⟩
def LNK_SAFEP_LANE : Fld := ⟨0xB030, 18, 16⟩
def LNK_SAFEP_ADDR_ADDR (i : Nat) : Fld := ⟨0xB031 + i, 19, 0⟩
def LNK_SAFEP_PORT_PORT : Fld := ⟨0xB033, 15, 0⟩
def LNK_LCFG_MODE (i : Nat) : Fld := ⟨0xB100 + 32 * i, 19, 18⟩
def LNK_LCFG_RATE (i : Nat) : Fld := ⟨0xB100 + 32 * i, 17, 17⟩
def LNK_LCFG_AGG (i : Nat) : Fld := ⟨0xB100 + 32 * i, 16, 14⟩
def LNK_LCFG_POLSET (i : Nat) : Fld := ⟨0xB100 + 32 * i, 13, 13⟩
def LNK_LCFG_ADAPTFRZ (i : Nat) : Fld := ⟨0xB100 + 32 * i, 11, 11⟩
def LNK_LCFG_JIG (i : Nat) : Fld := ⟨0xB100 + 32 * i, 10, 8⟩
def LNK_LCFG_LOCKDIS (i : Nat) : Fld := ⟨0xB100 + 32 * i, 7, 7⟩
def LNK_LCFG_BITSLIP (i : Nat) : Fld := ⟨0xB100 + 32 * i, 6, 6⟩
def LNK_LCFG_PRBSSEL (i : Nat) : Fld := ⟨0xB100 + 32 * i, 5, 5⟩
def LNK_LSTAT_STAGE (i : Nat) : Fld := ⟨0xB101 + 32 * i, 19, 17⟩
def LNK_LSTAT_SIG (i : Nat) : Fld := ⟨0xB101 + 32 * i, 16, 16⟩
def LNK_LSTAT_BITLOCK (i : Nat) : Fld := ⟨0xB101 + 32 * i, 15, 15⟩
def LNK_LSTAT_BLOCK (i : Nat) : Fld := ⟨0xB101 + 32 * i, 14, 14⟩
def LNK_LSTAT_POLINV (i : Nat) : Fld := ⟨0xB101 + 32 * i, 13, 13⟩
def LNK_LSTAT_LSWAP (i : Nat) : Fld := ⟨0xB101 + 32 * i, 12, 12⟩
def LNK_LSTAT_NPTN (i : Nat) : Fld := ⟨0xB101 + 32 * i, 5, 0⟩
def LNK_TXFIR_PRE (i : Nat) : Fld := ⟨0xB102 + 32 * i, 19, 16⟩
def LNK_TXFIR_MAIN (i : Nat) : Fld := ⟨0xB102 + 32 * i, 13, 8⟩
def LNK_TXFIR_POST (i : Nat) : Fld := ⟨0xB102 + 32 * i, 4, 0⟩
def LNK_RXEQ_CTLE (i : Nat) : Fld := ⟨0xB103 + 32 * i, 3, 0⟩
def LNK_DFE0_DFE1 (i : Nat) : Fld := ⟨0xB104 + 32 * i, 17, 12⟩
def LNK_DFE0_DFE2 (i : Nat) : Fld := ⟨0xB104 + 32 * i, 11, 6⟩
def LNK_DFE0_DFE3 (i : Nat) : Fld := ⟨0xB104 + 32 * i, 5, 0⟩
def LNK_DFE1_DFE4 (i : Nat) : Fld := ⟨0xB105 + 32 * i, 11, 6⟩
def LNK_DFE1_DFE5 (i : Nat) : Fld := ⟨0xB105 + 32 * i, 5, 0⟩
def LNK_LERR_COUNT (i : Nat) : Fld := ⟨0xB106 + 32 * i, 19, 0⟩
def LNK_PRBSERR_COUNT (i : Nat) : Fld := ⟨0xB107 + 32 * i, 19, 0⟩
def LNK_RETRAIN_COUNT (i : Nat) : Fld := ⟨0xB108 + 32 * i, 19, 0⟩
def LNK_LLOSS_COUNT (i : Nat) : Fld := ⟨0xB109 + 32 * i, 19, 0⟩
def LNK_PTN_W0_STATE (i : Nat) : Fld := ⟨0xB400 + 8 * i, 19, 17⟩
def LNK_PTN_W0_VMAJ (i : Nat) : Fld := ⟨0xB400 + 8 * i, 16, 15⟩
def LNK_PTN_W0_VMIN (i : Nat) : Fld := ⟨0xB400 + 8 * i, 14, 12⟩
def LNK_PTN_W0_LANE (i : Nat) : Fld := ⟨0xB400 + 8 * i, 11, 9⟩
def LNK_PTN_W0_AGG (i : Nat) : Fld := ⟨0xB400 + 8 * i, 8, 6⟩
def LNK_PTN_W0_COMP (i : Nat) : Fld := ⟨0xB400 + 8 * i, 5, 5⟩
def LNK_PTN_W0_ETH (i : Nat) : Fld := ⟨0xB400 + 8 * i, 4, 4⟩
def LNK_PTN_W0_SAFE (i : Nat) : Fld := ⟨0xB400 + 8 * i, 3, 3⟩
def LNK_PTN_W1_SUBS (i : Nat) : Fld := ⟨0xB401 + 8 * i, 19, 16⟩
def LNK_PTN_W1_EVT (i : Nat) : Fld := ⟨0xB401 + 8 * i, 15, 15⟩
def LNK_PTN_W1_SAFSUB (i : Nat) : Fld := ⟨0xB401 + 8 * i, 14, 14⟩
def LNK_PTN_W1_CSTAT (i : Nat) : Fld := ⟨0xB401 + 8 * i, 3, 0⟩
def LNK_PTN_W2_ADDR (i : Nat) : Fld := ⟨0xB402 + 8 * i, 19, 0⟩
def LNK_PTN_W3_ADDR (i : Nat) : Fld := ⟨0xB403 + 8 * i, 19, 0⟩
def LNK_PTN_W4_PORT (i : Nat) : Fld := ⟨0xB404 + 8 * i, 15, 0⟩
def LNK_PTN_W5_TXSEQ (i : Nat) : Fld := ⟨0xB405 + 8 * i, 19, 0⟩
def LNK_PTN_W6_RXSEQ (i : Nat) : Fld := ⟨0xB406 + 8 * i, 19, 0⟩
def LNK_PTN_W7_IDLE (i : Nat) : Fld := ⟨0xB407 + 8 * i, 19, 0⟩
def LNK_MAC_MAC (i : Nat) : Fld := ⟨0xB600 + i, 15, 0⟩
def LNK_IP_IP (i : Nat) : Fld := ⟨0xB610 + 8 * i, 15, 0⟩
def LNK_IP_HI_IP (i : Nat) : Fld := ⟨0xB611 + 8 * i, 15, 0⟩
def LNK_MASK_MASK (i : Nat) : Fld := ⟨0xB612 + 8 * i, 15, 0⟩
def LNK_MASK_HI_MASK (i : Nat) : Fld := ⟨0xB613 + 8 * i, 15, 0⟩
def LNK_GW_GW (i : Nat) : Fld := ⟨0xB614 + 8 * i, 15, 0⟩
def LNK_GW_HI_GW (i : Nat) : Fld := ⟨0xB615 + 8 * i, 15, 0⟩
def LNK_UDP_DLP_PORT : Fld := ⟨0xB680, 15, 0⟩
def LNK_UDP_OST_PORT : Fld := ⟨0xB681, 15, 0⟩
def SAF_STATUS_STATE : Fld := ⟨0xC000, 19, 17⟩
def SAF_STATUS_OSSDA : Fld := ⟨0xC000, 16, 16⟩
def SAF_STATUS_OSSDB : Fld := ⟨0xC000, 15, 15⟩
def SAF_STATUS_DEMA : Fld := ⟨0xC000, 14, 14⟩
def SAF_STATUS_DEMB : Fld := ⟨0xC000, 13, 13⟩
def SAF_STATUS_ZS : Fld := ⟨0xC000, 12, 9⟩
def SAF_STATUS_ZSPEND : Fld := ⟨0xC000, 8, 8⟩
def SAF_STATUS_EDMA : Fld := ⟨0xC000, 7, 7⟩
def SAF_STATUS_EDMB : Fld := ⟨0xC000, 6, 6⟩
def SAF_STATUS_RBA : Fld := ⟨0xC000, 5, 5⟩
def SAF_STATUS_RBB : Fld := ⟨0xC000, 4, 4⟩
def SAF_STATUS_BRIDGE : Fld := ⟨0xC000, 3, 3⟩
def SAF_STATUS_PRESSOK : Fld := ⟨0xC000, 2, 2⟩
def SAF_STATUS_RETCLAMP : Fld := ⟨0xC000, 1, 1⟩
def SAF_CAUSE_CLCAUSE : Fld := ⟨0xC001, 19, 16⟩
def SAF_CAUSE_STCAUSE : Fld := ⟨0xC001, 15, 8⟩
def SAF_FUNC_FDEMA : Fld := ⟨0xC002, 19, 15⟩
def SAF_FUNC_FDEMB : Fld := ⟨0xC002, 14, 10⟩
def SAF_TPOS_A_P : Fld := ⟨0xC003, 19, 0⟩
def SAF_TSPD_A_P : Fld := ⟨0xC004, 19, 0⟩
def SAF_TPOS_B_P : Fld := ⟨0xC005, 19, 0⟩
def SAF_TSPD_B_P : Fld := ⟨0xC006, 19, 0⟩
def SAF_TRESP_TR : Fld := ⟨0xC007, 19, 0⟩
def SAF_TRESPMAX_MAX : Fld := ⟨0xC008, 19, 0⟩
def SAF_CFG_CM1 : Fld := ⟨0xC009, 19, 16⟩
def SAF_CFG_CAM1 : Fld := ⟨0xC009, 15, 12⟩
def SAF_CFG_RSTMODE : Fld := ⟨0xC009, 11, 11⟩
def SAF_CFG_EDMEN : Fld := ⟨0xC009, 10, 10⟩
def SAF_CFG_PRESSEN : Fld := ⟨0xC009, 9, 9⟩
def SAF_CFG_NSECTM1 : Fld := ⟨0xC009, 8, 4⟩
def SAF_CFG_TCM1 : Fld := ⟨0xC009, 3, 2⟩
def SAF_TBRIDGE_TB : Fld := ⟨0xC00A, 5, 0⟩
def SAF_TDISC_TD : Fld := ⟨0xC00B, 19, 0⟩
def SAF_TEDM_TE : Fld := ⟨0xC00C, 9, 0⟩
def SAF_OPW_OPW : Fld := ⟨0xC00D, 6, 0⟩
def SAF_OSTTMO_TMO : Fld := ⟨0xC00E, 13, 0⟩
def SAF_TCLR_TCLR : Fld := ⟨0xC00F, 9, 0⟩
def SAF_SORG_S : Fld := ⟨0xC010, 19, 0⟩
def SAF_SWID_S : Fld := ⟨0xC011, 19, 0⟩
def SAF_XPOS_XPOS : Fld := ⟨0xC012, 19, 0⟩
def SAF_XBAND_XB : Fld := ⟨0xC013, 3, 0⟩
def SAF_TFRESH_TF : Fld := ⟨0xC014, 19, 0⟩
def SAF_DEMCNT_COUNT : Fld := ⟨0xC018, 19, 0⟩
def SAF_OSTCRC1_COUNT : Fld := ⟨0xC019, 19, 0⟩
def SAF_OSTCRC2_COUNT : Fld := ⟨0xC01A, 19, 0⟩
def SAF_OSTMIS_COUNT : Fld := ⟨0xC01B, 19, 0⟩
def SAF_OSTTO_COUNT : Fld := ⟨0xC01C, 19, 0⟩
def SAF_XCHK_COUNT : Fld := ⟨0xC01D, 19, 0⟩
def SAF_RESETS_COUNT : Fld := ⟨0xC01E, 19, 0⟩
def SAF_SEQTX_SEQ : Fld := ⟨0xC020, 19, 0⟩
def SAF_SEQRX_SEQ : Fld := ⟨0xC021, 19, 0⟩
def SAF_SDIG_DIG (i : Nat) : Fld := ⟨0xC030 + i, 19, 0⟩
def SAF_SDIG_TOP_DIG : Fld := ⟨0xC03C, 15, 0⟩
def SAF_EDIG_DIG (i : Nat) : Fld := ⟨0xC040 + i, 19, 0⟩
def SAF_EDIG_TOP_DIG : Fld := ⟨0xC04C, 15, 0⟩
def CTL_HK_STATUS_TEMP_WARN : Fld := ⟨0xD000, 19, 19⟩
def CTL_HK_STATUS_DIE115 : Fld := ⟨0xD000, 18, 18⟩
def CTL_HK_STATUS_SUPPLY_WARN : Fld := ⟨0xD000, 7, 0⟩
def CTL_HK_TMAX_T : Fld := ⟨0xD001, 11, 0⟩
def CTL_HK_CFG_LP : Fld := ⟨0xD002, 19, 19⟩
def CTL_HK_CFG_PERIOD : Fld := ⟨0xD002, 16, 0⟩
def CTL_HK_AIN_AINMASK : Fld := ⟨0xD003, 12, 0⟩
def CTL_HK_URG_URGDLY : Fld := ⟨0xD004, 15, 0⟩
def CTL_HK_TWARN_TWARN : Fld := ⟨0xD005, 11, 0⟩
def CTL_HK_DIODE_NIDEAL : Fld := ⟨0xD006, 12, 0⟩
def CTL_HK_BIAS_BSRC : Fld := ⟨0xD007, 19, 17⟩
def CTL_HK_BIAS_BCODE : Fld := ⟨0xD007, 11, 0⟩
def CTL_HK_BSLEW_BSLEW : Fld := ⟨0xD008, 11, 0⟩
def CTL_HK_BTS_TS : Fld := ⟨0xD009, 3, 0⟩
def CTL_HK_BTAB_TCODE (i : Nat) : Fld := ⟨0xD010 + i, 11, 0⟩
def CTL_HK_SUPLIM_SLOSHI (i : Nat) : Fld := ⟨0xD030 + i, 12, 0⟩
def CTL_HK_ABORT_COUNT : Fld := ⟨0xD041, 19, 0⟩
def CTL_HK_URGCNT_COUNT : Fld := ⟨0xD042, 19, 0⟩
def CTL_HK_RAW_VALID (i : Nat) : Fld := ⟨0xD100 + i, 19, 19⟩
def CTL_HK_RAW_LPC (i : Nat) : Fld := ⟨0xD100 + i, 18, 18⟩
def CTL_HK_RAW_CORR (i : Nat) : Fld := ⟨0xD100 + i, 11, 0⟩
def CTL_HK_VAL_VAL (i : Nat) : Fld := ⟨0xD140 + i, 19, 0⟩
def CTL_SHM_SEL_VIEW : Fld := ⟨0xE000, 19, 19⟩
def CTL_SHM_SEL_KIND : Fld := ⟨0xE000, 18, 15⟩
def CTL_SHM_SEL_INDEX : Fld := ⟨0xE000, 8, 0⟩
def CTL_SHM_STAT_SRC : Fld := ⟨0xE001, 19, 18⟩
def CTL_SHM_STAT_STAGED : Fld := ⟨0xE001, 17, 17⟩
def CTL_SHM_STAT_LEN : Fld := ⟨0xE001, 8, 0⟩
def CTL_SHMDIG_DIG (i : Nat) : Fld := ⟨0xE010 + i, 19, 0⟩
def CTL_SHMDIG_TOP_DIG : Fld := ⟨0xE01C, 15, 0⟩
def CTL_SHM_DATA_DATA (i : Nat) : Fld := ⟨0xE100 + i, 19, 0⟩
def CTL_BOOT_FAILED : Fld := ⟨0xF000, 19, 19⟩
def CTL_BOOT_STEP : Fld := ⟨0xF000, 18, 16⟩
def CTL_BOOT_CAUSE : Fld := ⟨0xF000, 15, 8⟩
def CTL_BOOT_PROV : Fld := ⟨0xF000, 7, 7⟩
def CTL_BOOT_FUSEDEF : Fld := ⟨0xF000, 6, 6⟩
def CTL_BOOT_SHIMIMG : Fld := ⟨0xF000, 5, 5⟩
def CTL_BOOT_SHIMDISC : Fld := ⟨0xF000, 4, 4⟩
def CTL_BOOT_SAFCAL : Fld := ⟨0xF000, 3, 3⟩
def CTL_BOOT_MEMDONE : Fld := ⟨0xF000, 2, 2⟩
def CTL_BOOT_CALDONE : Fld := ⟨0xF000, 1, 1⟩
def CTL_BOOT_MEMRUN : Fld := ⟨0xF000, 0, 0⟩
def CTL_IMGVER_MAJ : Fld := ⟨0xF001, 19, 16⟩
def CTL_IMGVER_MIN : Fld := ⟨0xF001, 15, 12⟩
def CTL_IMGVER_MEMBER : Fld := ⟨0xF001, 11, 4⟩
def CTL_IMGVER_FUSE : Fld := ⟨0xF001, 3, 3⟩
def CTL_IMGVER_NVMLOCK : Fld := ⟨0xF001, 2, 2⟩
def CTL_IMGDIG_DIG (i : Nat) : Fld := ⟨0xF010 + i, 19, 0⟩
def CTL_IMGDIG_TOP_DIG : Fld := ⟨0xF01C, 15, 0⟩
def CTL_KEYHASH_HASH (i : Nat) : Fld := ⟨0xF020 + i, 19, 0⟩
def CTL_KEYHASH_TOP_HASH : Fld := ⟨0xF02C, 15, 0⟩
def CTL_RECAL_ARG_MODE : Fld := ⟨0xF02D, 19, 18⟩
def CTL_ATT_CHAL_CHAL (i : Nat) : Fld := ⟨0xF030 + i, 19, 0⟩
def CTL_ATT_CHAL_TOP_CHAL : Fld := ⟨0xF03C, 15, 0⟩
def CTL_ATT_STATE_STATE : Fld := ⟨0xF03D, 19, 0⟩
def CTL_ATT_SIG_SIG (i : Nat) : Fld := ⟨0xF040 + i, 19, 0⟩
def CTL_ATT_SIG_TOP_SIG : Fld := ⟨0xF04C, 15, 0⟩
def CTL_ATT_SIG_S_SIG (i : Nat) : Fld := ⟨0xF04D + i, 19, 0⟩
def CTL_ATT_SIG_STOP_SIG : Fld := ⟨0xF059, 15, 0⟩
def CTL_CERT_LEN_LEN : Fld := ⟨0xF05A, 11, 0⟩
def CTL_CERT_ADDR_ADDR : Fld := ⟨0xF05B, 10, 0⟩
def CTL_CERT_DATA_DATA : Fld := ⟨0xF05C, 15, 0⟩
def CTL_NVM_OP_OP : Fld := ⟨0xF080, 19, 18⟩
def CTL_NVM_OP_LENM1 : Fld := ⟨0xF080, 7, 0⟩
def CTL_NVM_ADDR_ADDR : Fld := ⟨0xF081, 19, 0⟩
def CTL_NVM_ADDR_HI_ADDR : Fld := ⟨0xF082, 6, 0⟩
def CTL_NVM_BUF_DATA (i : Nat) : Fld := ⟨0xF100 + i, 15, 0⟩

end F

end Sys2Proof.Machine
end

