-- ==== Sys2Proof/Machine/State.lean ====
section
/-! DEFINITION. The state of the T256 as plain data, and the state after reset.
Every register word of the map (R534) lives in `regs`, by address; what stands beside it is the state that the manual
gives the units and that no register word holds. A docstring names the rule and, where it is not the empty or zero value
stated by that rule, the reset value. -/

namespace Sys2Proof.Machine

/-- No command of the T256 stops the device with a fault: the manual gives every one an effect, so this type has no
constructor and nobody raises one (safe). -/
inductive Fault where
  deriving DecidableEq, Repr

/-- Why a command has no meaning in this model. -/
inductive Refusal where
  /-- Raised by the arm of exec of a command that has no meaning yet (safe: the run stops). -/
  | notModelled (mnemonic : String)
  deriving DecidableEq, Repr

/-- The device states of R46. -/
inductive DevState where
  | reset | boot | run | degraded | thermal
  deriving DecidableEq, Repr, Inhabited

/-- The event classes of R526, with their codes 00b to 11b. -/
inductive EvClass where
  | info | warn | fault | safety
  deriving DecidableEq, Repr, Inhabited

/-- An entry of the event queue (R525): CODE, CLASS, ARG and the device time in ns at which it was queued. -/
structure EvEntry where
  code : Nat
  cls  : EvClass
  arg  : Nat
  time : Nat
  deriving DecidableEq, Repr, Inhabited

/-- The status codes of R520, 0h to Ah. -/
inductive Status where
  | ok | busy | refused | badaddr | locked | temp | version | nofit | noroom | draining | signature
  deriving DecidableEq, Repr, Inhabited

/-- A response of the management port (R517): STATUS, ADDR and DATA. -/
structure Resp where
  status : Status
  addr   : Addr
  data   : Word
  deriving DecidableEq, Repr, Inhabited

/-- The long operation in progress (R522) with its arguments as taken at the EXEC; times are `clk`. -/
inductive LongOp where
  /-- The profile code, the start, and whether an EOF (or its timeout) has come since (R510). -/
  | profileSet (code t0 : Nat) (eof : Bool)
  /-- The mode, the start, and whether the sequencer has stopped (R486). -/
  | recal (mode t0 : Nat) (stopped : Bool)
  | pageLoad (pgB : Bool) (lib t0 : Nat)
  | attest (chal : List Word) (state : Word)
  | nvm (op addr len : Nat)
  | retune (t0 : Nat)
  | scrub (subB : Bool) (start count : Nat)
  deriving DecidableEq, Repr, Inhabited

/-- The management port. -/
structure Mgmt where
  /-- Response due with the next well-formed frame (R517); reset STATUS 0h, ADDR FFFFh, DATA 00000h (R519). -/
  resp : Resp
  /-- Response shifted out on MGT_MISO during the last well-formed frame (R517); reset none. -/
  shifted : Option Resp
  /-- R12 shadows: the latched higher words, by address; an unlisted word reads its reset value. -/
  shadow : SMap Word
  /-- R13: staged higher words of multi-word registers, by address. -/
  staged : SMap Word
  /-- Long operation in progress; BUSY is high while there is one (R522, R523). -/
  op : Option LongOp
  /-- Event queue CTL_EVQ, oldest first, at most 256 entries (R525). -/
  evq : List EvEntry
  /-- Events lost to a full queue and not yet reported by EVQ_OVF (R526). -/
  lost : Nat
  deriving DecidableEq, Repr, Inhabited

/-- The sequencer states (R82). -/
inductive SeqSt where
  | idle | run | syncwait | halted
  deriving DecidableEq, Repr, Inhabited

/-- A pending Batten (R73, R89): sync release or page switch, the page, ENTRY or code, and Te in device ns. -/
structure Batten where
  sync : Bool
  pgB  : Bool
  arg  : Nat
  te   : Nat
  deriving DecidableEq, Repr, Inhabited

/-- A posted fire (R54, R55): its fields, the instant in device ns, the dither drawn, and the current set and trims
in force when the entry was issued (R95). `held` marks a fire counted in CTL_SEQ_HOLD (R52). -/
structure Fire where
  id      : Nat
  instant : Nat
  row     : Nat
  burst   : Nat
  zoom    : Bool
  lsrc    : Bool
  bink    : Nat
  pw      : Nat
  kerf    : Nat
  win     : Nat
  hofs    : Nat
  nm1     : Nat
  col     : Nat
  line    : Nat
  colmask : BitVec 8
  d       : Int
  g       : Nat
  trims   : List Nat
  held    : Bool
  deriving DecidableEq, Repr, Inhabited

/-- The kind of a window (R141). -/
inductive WinKind where
  | fire | listen | cal
  deriving DecidableEq, Repr, Inhabited

/-- A LISTEN or CAL window as posted (R61, R62): its group (8: all groups), opening instant in device ns and the entry's
fields. Fires numbered below `id` were posted before it. -/
structure WinPost where
  id     : Nat
  kind   : WinKind
  group  : Nat
  instant : Nat
  /-- Window length in ns (WIN = 0 taken as 4,096). -/
  len    : Nat
  bink   : Nat
  amb    : Bool
  freq   : Bool
  presc  : Nat
  mode   : Nat
  amp    : Nat
  delay  : Nat
  spare  : Bool
  held   : Bool
  deriving DecidableEq, Repr, Inhabited

/-- A mark on its way down the data path (R64), with the parts that no unit has taken yet, or the token of a page
switch, of a profile switch or of a close on the spot, with its close cause (R168). -/
structure Mark where
  sof : Bool
  eol : Bool
  eof : Bool
  tag : Nat
  /-- Fires numbered below this were posted before the mark. -/
  id : Nat
  /-- Close cause of a page (2) or profile (6) switch; none for a MARK. -/
  cause : Option Nat
  /-- The mark has passed the ports: results numbered below this stand before it. -/
  ord : Option Nat
  deriving DecidableEq, Repr, Inhabited

/-- The Cutting List sequencer. -/
structure Seq where
  /-- R82 STATE; reset IDLE. -/
  st : SeqSt
  /-- R82 ACTPG: page B is active. -/
  actB : Bool
  /-- Index of the next entry to issue. -/
  next : Nat
  /-- R82 PC: index of the entry most recently issued. -/
  pc : Nat
  /-- Schedule cursor T in device ns (R51). -/
  cursor : Nat
  /-- Page A (R48); COUNT 0 before boot loads it. -/
  pageA : Page
  /-- Page B (R48). -/
  pageB : Page
  /-- The library in subchannel B, by index (R77). -/
  library : List (Nat × Page)
  /-- The library as it waits in the on-die boot buffer until TBL (R473). -/
  bootLib : List (Nat × Page)
  /-- The image's start library page, start entry and second library page (R77). -/
  startLib : Nat
  startEntry : Nat
  startB : Nat
  /-- The page being loaded (R78). -/
  loading : Option Bool
  /-- A reload after R80 has failed: the sequencer stays HALTED until reset (R396). -/
  reloadBad : Bool
  /-- The pending Batten (R75). -/
  batten : Option Batten
  /-- A switch deferred under R78: page, ENTRY, and whether a Batten ordered it. -/
  deferred : Option (Bool × Nat × Bool)
  /-- The SYNC being waited for (R65): SRC, ARG, OFS, TMO and the issue instant. -/
  syncSrc : Nat
  syncArg : Nat
  syncOfs : Nat
  syncTmo : Nat
  syncIssue : Nat
  /-- Instant of the first event of the awaited source (R65). -/
  syncHit : Option Nat
  /-- Posted fires in order (R52). -/
  fires : List Fire
  /-- LISTEN and CAL windows posted and not yet open (R52). -/
  wins : List WinPost
  /-- Closing bounds of posted windows, device ns (R63). -/
  bounds : List Nat
  /-- Marks on the data path in order (R64). -/
  marks : List Mark
  /-- Marks that end or open a frame on their way to the echo stage (R206): true for an EOF, false for an SOF, each with
  the number below which results stand before it and the generation of the echo history when it passed the ports. -/
  echoMarks : List (Bool × Nat × Nat)
  /-- Tag of the last SOF or EOL mark that the FSO took (R353). -/
  tag : Nat
  /-- A frame is open as the marks pass the ports (R64). -/
  frmOpen : Bool
  /-- The model's own numbering of fires. -/
  nextId : Nat
  deriving DecidableEq, Repr, Inhabited

/-- Loop L2 of one row (R107): emitting fires counted and the sum of their ratios, ETA once 256 fires are in, and
whether the L2_LIMIT of the present arrival at a limit has been raised. -/
structure L2Row where
  n    : Nat
  sum  : Rat
  eta  : Option Rat
  told : Bool
  deriving DecidableEq, Repr, Inhabited

/-- A fire whose start or whose energy reading is due: row, t0 (`clk`), burst end in 1/4 ns, E_pred, E_nom and
whether it emits. -/
structure Flight where
  id    : Nat
  row   : Nat
  t0    : Nat
  endQ  : Nat
  epred : Nat
  enom  : Nat
  emit  : Bool
  deriving DecidableEq, Repr, Inhabited

/-- A charge of the governor (R110, R113): t0 of its shot in `clk`, the energy in EU, and the instant (`clk`) from which
the sums hold it: t0 − 4 ns for E_pred, the arrival of the reading for an excess. -/
structure Charge where
  t0    : Nat
  eu    : Nat
  since : Nat
  deriving DecidableEq, Repr, Inhabited

/-- The drive of one fire (R90 to R93): its row, t0 in `clk`, whether the shot emits, its columns, V_ref of each column in
units of 250/126 µV, the sub-pulse offsets in ns, PW and the burst end in 1/4 ns. -/
structure Beam where
  row  : Nat
  t0   : Nat
  emit : Bool
  cols : BitVec 8
  vref : List Nat
  ofs  : List Nat
  pw   : Nat
  endQ : Nat
  deriving DecidableEq, Repr, Inhabited

/-- A switching burst of the boost on HV_SW (R105, R258): its start in `clk`, its pulses and the length of each in ns. -/
structure HvBurst where
  start  : Nat
  pulses : Nat
  width  : Nat
  deriving DecidableEq, Repr, Inhabited

/-- The emitter drive unit and the governor. -/
structure Edu where
  /-- Governor charges (R110) of every shot still in W3. -/
  shots : List Charge
  /-- The last fire as ROW_G, the column sinks and their pre-charge carry it out (R90 to R93); none before the first fire,
  with every gate and sink off (R120). -/
  beam : Option Beam
  /-- Last actual fire of each row, `clk` (R52). -/
  rowLast : List (Nat × Nat)
  /-- Burst end of the previous fire of any row, in 1/4 ns (R52). -/
  prevEndQ : Option Nat
  /-- Emitting fires whose start is due (R100). -/
  starts : List Flight
  /-- Emitting fires whose energy reading is due (R113). -/
  reads : List Flight
  /-- Consecutive missing starts of each row (R101). -/
  miss : SMap Nat
  /-- Loop L2 of each row (R107). -/
  l2 : List (Nat × L2Row)
  /-- MOVING input: asserted since this `clk` (R114); reset not asserted. -/
  movSince : Option Nat
  /-- Last MOVING token, `clk` (R114). -/
  movTok : Option Nat
  /-- The last interruption of MOVING: since when it had been asserted and when it dropped, `clk` (R112, R114). -/
  movLast : Option (Nat × Nat)
  /-- L1 switching without a break since this `clk` (R106). -/
  swSince : Option Nat
  /-- The switching burst that L1 issued at the last charge PWM event (R105); reset none, HV_SW low (R120). -/
  hvBurst : Option HvBurst
  /-- The over-voltage comparator holds switching stopped (R106). -/
  ovStop : Bool
  /-- The most recent fire of any row was inhibited by a window or a late check (R71 flag 05h). -/
  lastInh : Bool
  /-- The sequencer has started (R108, R120). -/
  started : Bool
  /-- The sequencer is stopped by RECAL, which forbids charging (R486). -/
  recalStop : Bool
  /-- A diode outside the window forbids charging, and the rounds it has been back inside (R108). -/
  diodeOut : Bool
  diodeIn : Nat
  /-- A diode fault forbids charging, and the rounds both diodes have been valid (R108). -/
  diodeFlt : Bool
  diodeOk : Nat
  /-- A die sensor above 115 °C forbids charging, and the rounds all have been at or below 113 °C (R108). -/
  dieHot : Bool
  dieOk : Nat
  deriving DecidableEq, Repr, Inhabited

/-- A captured edge in fine units u from the window opening (R127), with its fine code. -/
structure Edge where
  lead  : Nat
  trail : Option Nat
  hi    : Option Nat
  code  : Nat
  merged : Bool
  deriving DecidableEq, Repr, Inhabited

/-- A stop (R142) with its signed interval in u before rounding (R134). -/
structure Stop where
  time   : Nat
  tot    : Nat
  hiofs  : Nat
  hi     : Bool
  merged : Bool
  zero   : Bool
  early  : Bool
  totsat : Bool
  wcor   : Bool
  i16    : Int
  deriving DecidableEq, Repr, Inhabited

/-- The open receivers of one port or spare (R128, R134, R135, R156). -/
structure PWin where
  /-- Edges waiting for the start reference. -/
  waiting : List Edge
  stops   : List Stop
  /-- Leading edges captured (at most 8, R128) and the trailing edge of the last accepted one, in u. -/
  ncap    : Nat
  lastEnd : Option Nat
  /-- The last accepted edge gave the last kept stop. -/
  lastKept : Bool
  more    : Bool
  ovf     : Bool
  loHit   : Bool
  hiHit   : Bool
  /-- Stops discarded because their interval exceeds 0FFFFFh (R134). -/
  discards : Nat
  /-- Frequency mode: edges seen, and the sums of R156 over the prescaled ones. -/
  fqSeen  : Nat
  fqN     : Nat
  fqS     : Nat
  fqK     : Nat
  /-- Levels and modes with which the window opened (R124): MODE, WMODE, WTAB, HIEN, the effective thresholds, the
  thresholds of the registers, and the skew and source of the unit. -/
  mode    : Nat
  wmode   : Nat
  wtab    : Nat
  hien    : Bool
  thrL    : Nat
  thrH    : Nat
  skew    : Int
  subst   : Bool
  /-- The walk table with which the window opened (R161); empty with WMODE 00b. -/
  walk    : List Int
  deriving DecidableEq, Repr, Inhabited

/-- The window of one port group (R52, R137). -/
structure GWin where
  kind    : WinKind
  /-- Opening instant by `clk` and in device ns. -/
  openClk : Nat
  openDev : Nat
  /-- Window length in ns (WIN = 0 taken as 4,096). -/
  len     : Nat
  /-- Start reference a in u (R129, R134), once known, and OFS_S of the row as the window opened (R158). -/
  ref     : Option Int
  startSkew : Int
  post    : Option WinPost
  fire    : Option Fire
  synth   : Bool
  noemit  : Bool
  holdover : Bool
  /-- Frame line of the fire (R55, R255) and whether the line is marked SUBST by a takeover (R265). -/
  line    : Nat
  subst   : Bool
  /-- Ports of the group with EN = 0 or OFF at the opening (R172). -/
  dead    : List Nat
  /-- Ports of the group that were ACTIVE at the opening (R166). -/
  active  : List Nat
  /-- Zoom anchor of each active port at the opening, and the ports whose previous histogram was not released then
  (R177, R179). -/
  zanc    : List (Nat × Nat)
  unrel   : List Nat
  /-- KM1 and CWM1 of the group at the opening, and ZCBINK then (R172, R189). -/
  km1     : Nat
  cwm1    : Nat
  zcbink  : Nat
  /-- The spare serving a port of the group at the opening, and the port. -/
  served  : List (Nat × Nat)
  /-- Receivers still open, by unit. -/
  units   : List (Nat × PWin)
  /-- Units that have closed, as they stood at the close. -/
  closed  : List (Nat × PWin)
  /-- Units that opened. -/
  opened  : List Nat
  deriving DecidableEq, Repr, Inhabited

/-- The shot header of R141; `kind` 0 FIRE, 1 LISTEN, 2 CAL. -/
structure ShotHdr where
  port : Nat
  nstop : Nat
  synth : Bool
  noemit : Bool
  holdover : Bool
  subst : Bool
  more : Bool
  ovf : Bool
  kind : Nat
  deriving DecidableEq, Repr, Inhabited

/-- The shot of one port after its receivers closed: shot header and stops (R141, R142). -/
structure Shot where
  header : ShotHdr
  stops  : List Stop
  deriving DecidableEq, Repr, Inhabited

/-- A fire whose shots wait for the histogram stage (R170, R173) or the single-shot path (R186). -/
structure FireRec where
  fire    : Fire
  openDev : Nat
  synth   : Bool
  noemit  : Bool
  holdover : Bool
  line    : Nat
  dead    : List Nat
  active  : List Nat
  zanc    : List (Nat × Nat)
  unrel   : List Nat
  km1     : Nat
  cwm1    : Nat
  zcbink  : Nat
  /-- Ports that opened and will deliver a shot. -/
  opened  : List Nat
  shots   : List (Nat × Shot)
  /-- Ports whose shot has been taken. -/
  taken   : List Nat
  deriving DecidableEq, Repr, Inhabited

/-- What a TDC unit keeps between windows: ports 0 to 255, spares 256 to 263, start TDCs 264 to 271, trigger TDCs 272 to
275 (numbering of RTA_LUT_SEL, R161). -/
structure UnitSt where
  /-- Fine table (R131); empty: linear, LUT[p] = 16·p (R164). -/
  lut     : List Nat
  /-- Table waiting for the next shot boundary (R133). -/
  pendLut : Option (List Nat)
  /-- Background density histogram by fine code and its hits (R133). -/
  bg      : SMap Nat
  bgN     : Nat
  /-- SKEW accumulation (R148). -/
  skSum   : Int
  skN     : Nat
  /-- Frequency gate (R156): a, bp, nt and windows taken; for a start or trigger TDC its start instant. -/
  fqA     : Int
  fqB     : Int
  fqT     : Nat
  fqW     : Nat
  /-- Edges seen, sums of the open gate window and time of the gate's start (start and trigger TDCs). -/
  fqSeen  : Nat
  fqN     : Nat
  fqS     : Nat
  fqK     : Nat
  gate0   : Nat
  /-- The trailing edge of the last accepted edge of a start or trigger TDC, in u from the gate's start (R128, R156), and
  whether that edge is still to come. -/
  lastEnd : Option Int
  fqOpen  : Bool
  /-- Consecutive failed self-checks of a start TDC (R129). -/
  fails   : Nat
  /-- DENSITY hits seen in Jig mode (R150). -/
  jig     : Nat
  /-- Instant (`clk`) of the last failed self-check of the unit (R158). -/
  failAt  : Option Nat
  /-- A trigger TDC without calibration stamps with COARSE (R478). -/
  coarse  : Bool
  deriving DecidableEq, Repr, Inhabited

/-- A substitution in progress in one group (R152): the port, its start and its stage. -/
inductive SubStage where
  | settling | verifying
  deriving DecidableEq, Repr, Inhabited

structure Sub where
  port  : Nat
  t0    : Nat
  stage : SubStage
  deriving DecidableEq, Repr, Inhabited

/-- The receiver and timing array. -/
structure Rta where
  /-- Open window of each group (R52). -/
  wins : List (Nat × GWin)
  /-- TDC units that differ from their state after reset. -/
  units : SMap UnitSt
  /-- Fires whose shots wait to be binned, oldest first (R180). -/
  recs : List FireRec
  /-- Substitutions in progress by group (R152). -/
  subs : List (Nat × Sub)
  /-- The verification window of a spare (R152), by group. -/
  verif : List (Nat × PWin)
  /-- Configuration copied by a serving spare (R152): the words PCFG, PTHRL, PTHRH and PATHR, by spare. -/
  copied : List (Nat × List Word)
  /-- START_OFS_r in u (R481) by row, and the starts received while seeding, newest first. -/
  startOfs : SMap Nat
  seedStarts : List (Nat × List Int)
  /-- Skew Shims (R482): OFS_S by row, and of spare r for source j at 32·r + j. -/
  startSkew : SMap Int
  spareSkew : SMap Int
  /-- EN = 0 waits for the port's next shot boundary (R155). -/
  disabling : List Nat
  /-- Closes of a port for its own cause (R168) that wait until its earlier shots are binned: port and CAUSE. -/
  closing : List (Nat × Nat)
  deriving DecidableEq, Repr, Inhabited

/-- A histogram in accumulation, stretching or closed (R167, R170, R182). -/
structure Hist where
  port    : Nat
  bink    : Nat
  origin  : Nat
  n       : Nat
  wendL   : Nat
  hofs    : Nat
  zoomE   : Bool
  nm1     : Nat
  win     : Nat
  binkE   : Nat
  burst   : Nat
  bins    : SMap Nat
  nshot   : Nat
  nemit   : Nat
  nsynth  : Nat
  ambpre  : Nat
  ambpost : Nat
  livepre : Nat
  livepost : Nat
  ncrej   : Nat
  partialC : Bool
  stretch : Bool
  sat     : Bool
  zoom    : Bool
  zcold   : Bool
  mixed   : Bool
  noemit  : Bool
  holdover : Bool
  zlag    : Bool
  subst   : Bool
  more    : Bool
  ovf     : Bool
  lsrc    : Bool
  line    : Nat
  pix     : Nat
  tlast   : Nat
  cause   : Option Nat
  /-- The anchor was invalidated after the close (R176). -/
  zinv    : Bool
  /-- Generation of the echo history at the close: a histogram uses the history in force then (R206). -/
  gen     : Nat
  /-- READY was high at the close (R190). -/
  live    : Bool
  /-- Place in the order of results (R180); set at the close. -/
  ord     : Nat
  deriving DecidableEq, Repr, Inhabited

/-- What the ambient tracker may sample (R223). -/
inductive AmbRec where
  | listen (port nstop live bink b4 : Nat) (more anyBin : Bool)
  | hist (port ambpost livepost : Nat) (more : Bool)
  deriving DecidableEq, Repr, Inhabited

/-- The ambient tracker of one port (R224, R225, R229). -/
structure Trk where
  sum   : Nat
  cnt   : Nat
  vprev : Nat
  stale : Nat
  /-- Integrators and combs, modulo 2^40. -/
  ints  : List Nat
  combs : List Nat
  /-- Seeding samples. -/
  seedSum : Nat
  seedN : Nat
  deriving DecidableEq, Repr, Inhabited

/-- Foreign evaluation of one port (R231). -/
structure Foreign where
  hit   : Bool
  gateAt : Nat
  pprev : Nat
  deriving DecidableEq, Repr, Inhabited

/-- The class of an echo (R213). -/
inductive EchoClass where
  | surface | mist | foreign | nohist
  deriving DecidableEq, Repr, Inhabited

/-- An echo block (R213). -/
structure Echo where
  tint  : Nat
  tfrac : Nat
  conf  : Nat
  cls   : EchoClass
  edge  : Bool
  rneg  : Bool
  ra    : Nat
  rb    : Nat
  amp   : Nat
  width : Nat
  sata  : Bool
  deriving DecidableEq, Repr, Inhabited

/-- A point record (R212). -/
structure Point where
  ord : Nat
  port : Nat
  strong : Nat
  partialC : Bool
  stretch : Bool
  sat : Bool
  noemit : Bool
  holdover : Bool
  subst : Bool
  zcold : Bool
  line : Nat
  pix : Nat
  nohist : Bool
  moreecho : Bool
  synth : Bool
  mixed : Bool
  zlag : Bool
  more : Bool
  ovf : Bool
  lsrc : Bool
  single : Bool
  bgsrc : Nat
  histue : Bool
  bink : Nat
  burst : Nat
  nshot : Nat
  memUe : Bool
  bg : Nat
  tlast : Nat
  echoes : List Echo
  deriving DecidableEq, Repr, Inhabited

/-- A shot set of the single-shot path (R186). -/
structure Single where
  ord : Nat
  port : Nat
  header : ShotHdr
  stops : List Stop
  line : Nat
  pix : Nat
  lsrc : Bool
  burst : Nat
  tfire : Nat
  noemit : Bool
  synth : Bool
  holdover : Bool
  deriving DecidableEq, Repr, Inhabited

/-- One history slot of a key (R389): frame number and TINT values. -/
structure HistSlot where
  frame : Nat
  tints : List Nat
  deriving DecidableEq, Repr, Inhabited

/-- The return processing engine. -/
structure Rpe where
  /-- Open or stretching histogram of each port (R165, R169, R181). -/
  acc : List (Nat × Hist)
  /-- Closed histograms queued to the echo stage, in order of close (R180); a port's RD is busy while it has one. -/
  queue : List Hist
  /-- Shot sets of the single-shot path, in order (R186). -/
  singles : List Single
  /-- Records that reached the ambient tracker and are not sampled yet (R223). -/
  ambQ : List AmbRec
  /-- Results numbered so far. -/
  nextOrd : Nat
  /-- Echo history by key 256·LINE + PIX (R206, R389). -/
  history : List (Nat × List HistSlot)
  /-- Clears of the history so far, and the cleared histories that closed histograms still use, each with its HFR. -/
  gen : Nat
  oldHist : List (Nat × Nat × List (Nat × List HistSlot))
  /-- Frames ended since reset, modulo 2^20 (R389). -/
  frameNo : Nat
  /-- A frame is open at the echo stage (R206). -/
  frameOpen : Bool
  /-- The ambient trackers that differ from their state after reset (R241). -/
  trk : SMap Trk
  /-- Tracker ticks since the last CIC output (R225). -/
  trkPhase : Nat
  /-- Instant (`clk`) at which the present tracker tick began (R224). -/
  tickAt : Nat
  /-- The seeding step of boot runs (R229). -/
  seeding : Bool
  /-- Foreign hits (R231). -/
  hits : SMap Foreign
  /-- Point records on their way to the FSO and to channel A, in order (R195). -/
  points : List Point
  safPoints : List Point
  deriving DecidableEq, Repr, Inhabited

/-- A CIC decimator (R250): integrators, comb delays and the phase of the decimation. -/
structure Cic where
  ints  : List Int
  combs : List (List Int)
  phase : Nat
  deriving DecidableEq, Repr, Inhabited

/-- One CIC output of a channel: y_I, y_Q, its instant (device ns) and whether a replaced sample lies in its span. -/
structure CicOut where
  yi : Int
  yq : Int
  time : Nat
  repl : Bool
  deriving DecidableEq, Repr, Inhabited

/-- A turning point (R253, R254): its instant in device ns and its polarity. -/
structure TpEv where
  time : Nat
  pos  : Bool
  deriving DecidableEq, Repr, Inhabited

/-- Turning point detection and prediction of one channel (R253, R254). -/
structure Tp where
  /-- Filtered angles k − 1 and k with their outputs' instants and replacement marks, newest first. -/
  th : List (Int × Nat × Bool)
  /-- Last turning point, measured or predicted, and the last measured one. -/
  last : Option TpEv
  /-- The turning points before it, newest first, at most seven. -/
  before : List TpEv
  lastMeas : Option TpEv
  /-- Th_last in ns and A_last in µrad (R253); 0 until measured. -/
  thLast : Nat
  ampLast : Nat
  /-- Turning points measured since start or since prediction stopped (R254). -/
  nmeas : Nat
  /-- Predictions issued with no turning point measured for any of them. -/
  npred : Nat
  /-- Prediction stopped. -/
  lost : Bool
  /-- Turning-point events issued, newest first, at most two (R255). -/
  events : List TpEv
  deriving DecidableEq, Repr, Inhabited

/-- A sense channel (R242 to R249). -/
structure Sense where
  /-- Gain in force and the gain and selection waiting for the next period boundary. -/
  gain : Nat
  pendGain : Option Nat
  pendSel : Option Bool
  /-- The present period is replaced because a gain change took effect at its start (R248). -/
  replPeriod : Bool
  /-- Samples before this device instant are replaced (selection time plus SETTLE). -/
  settleTo : Nat
  /-- Accepted pI and pQ of the last whole period by conversion (R248). -/
  stored : List (Int × Int)
  /-- Consecutive judged bad periods (R247). -/
  bad : Nat
  /-- Takeover in progress (R265). -/
  takeover : Bool
  /-- Fires with LSRC = 1 carry SUBST from this device instant (R265). -/
  substFrom : Option Nat
  cicI : Cic
  cicQ : Cic
  /-- Samples since the last replaced one; none before any. -/
  sinceRepl : Option Nat
  /-- CIC outputs not yet taken. -/
  outs : List CicOut
  tp : Tp
  deriving DecidableEq, Repr, Inhabited

/-- A loop of the Control Engine (R257 to R262): mode, pending hand-over, generator state in 1/256 unit, output. -/
structure Loop where
  profile : Bool
  pending : Bool
  spt : Int
  p : Int
  v : Int
  a : Int
  /-- Change of the set-point over the last sample. -/
  rate : Int
  reached : Bool
  /-- Consecutive samples within BAND with the generator reached (R261). -/
  arr : Nat
  u : Int
  meas : Int
  measPrev : Int
  deriving DecidableEq, Repr, Inhabited

/-- The steering unit. -/
structure Stu where
  ctrl : Sense
  mon : Sense
  l0 : Loop
  l1 : Loop
  /-- The drive runs (R266, R269). -/
  drive : Bool
  /-- The last STOP token (R256, R268), `clk`. -/
  stopAt : Option Nat
  /-- Instant (`clk`) of the last write of BSEL of each loop, and BSEL as it stood before that instant (R268). -/
  bselAt : List (Nat × Nat × Bool)
  /-- The mirror start of R269: `clk` at which L0 was started. -/
  startAt : Option Nat
  /-- Next kick: its centre in device ns (R258). -/
  kickAt : Option Nat
  /-- State of the bridge: 0 both pins low, 1 positive, −1 negative, and until when (R258). -/
  bridge : Int
  bridgeTo : Nat
  /-- Polarity of the last start-up kick (R258). -/
  startPol : Bool
  /-- Consecutive implausible samples (R264). -/
  impl : Nat
  /-- The model's previous quantities (R264): u of the last sample, and A or θ of the last two, newest first. -/
  prevU : Int
  prevTh : List Int
  deriving DecidableEq, Repr, Inhabited

/-- The SAF states of R298. -/
inductive SafSt where
  | init | stop | interlock | clear | clamp
  deriving DecidableEq, Repr, Inhabited

/-- The tracked target in one channel (R291, R292): the contributions not evaluated yet, each with its device instant
and value, and the position and speed of the last interval. -/
structure TrkPos where
  items : List (Nat × Int)
  pos : Option Int
  speed : Option Int
  lost : Nat
  /-- Consecutive failures and passes of SLP, SLS and SDI, and their demands. -/
  fails : List Nat
  passes : List Nat
  dem : List Bool
  deriving DecidableEq, Repr, Inhabited

/-- One safety channel (R282 to R288): confirmation counts by cell 32·port + sector, intruded and BLIND cells, the last
evaluation of each cell (`clk`), the zone set in force and the one it waits for. -/
structure SafChan where
  cnt : SMap Nat
  clr : SMap Nat
  intr : List Nat
  blind : List Nat
  seen : List (Nat × Nat)
  /-- Cells in use not evaluated yet since INIT (R311). -/
  unseen : List Nat
  zs : Nat
  pendZs : Option (Nat × Nat)
  trk : TrkPos
  /-- Safety digests of this channel agree with the image (R311). -/
  digest : Bool
  deriving DecidableEq, Repr, Inhabited

/-- A start edge that channel B is evaluating (R283): its bin, sector, zone set and the ports hit so far. -/
structure ChbWin where
  bin : Int
  sect : Nat
  zs : Nat
  hits : List Nat
  /-- `clk` of the start edge, and whether the evaluation has ended; the window is kept for the tracked target (R291). -/
  t0 : Nat
  done : Bool
  deriving DecidableEq, Repr, Inhabited

/-- One pin of a safe input (R281): its level, since when (`clk`), and its filtered level. -/
structure SafePin where
  raw : Bool
  since : Nat
  filt : Bool
  deriving DecidableEq, Repr, Inhabited

/-- A pair of safe inputs (R281): its pins, its value and since when the filtered levels differ. -/
structure SafePair where
  a : SafePin
  b : SafePin
  val : Bool
  diffAt : Option Nat
  deriving DecidableEq, Repr, Inhabited

/-- A copy of a press telegram waiting for its twin (R307): path, words (path 2 inverted back), arrival. -/
structure PressCopy where
  path : Nat
  words : List Word
  time : Nat
  /-- Its TIME lay within 2 ms of device time at its arrival. -/
  timeOk : Bool
  deriving DecidableEq, Repr, Inhabited

/-- The safety subsystem. -/
structure Saf where
  /-- R298; reset INIT. -/
  st : SafSt
  chA : SafChan
  chB : SafChan
  /-- Zone sets and tracked target of the safety section (R278, R291). -/
  zones : List (Nat × ZoneSet)
  track : Track
  /-- The safety section has been loaded since the last reset (R314). -/
  loaded : Bool
  /-- The response figures of each library page (R293, R294). -/
  pageSafe : List (Nat × PageSafe)
  /-- Channel B's windows in evaluation by row, oldest first (R283). -/
  wins : List (Nat × ChbWin)
  /-- HSKEW Shims: of port ch, and of spare r for source j at 256 + 32·r + j (R482). -/
  hskew : SMap Int
  /-- Ports whose cells are held, and until when in `clk` (R285); key 256 holds all cells for a takeover on MON. -/
  holds : List (Nat × Nat)
  /-- Keys whose substitution or takeover has outlasted its hold: their cells are BLIND until it completes (R285). -/
  late : List Nat
  /-- θ_S log of channel A: device instant and sector, newest first (R287). -/
  sectLog : List (Nat × Nat)
  /-- Stall trip of channel B, heartbeat loss, lockstep mismatch, digest mismatch are Clamp causes still present. -/
  causes : List Nat
  /-- CLCAUSE of the Clamp in force (R315); 0 none. -/
  clcause : Nat
  /-- The retention store holds a Clamp record with this cause (R300); it survives every reset. -/
  retained : Option Nat
  /-- A channel demanded at the last evaluation, and the instant (`clk`) at which the last demand ended (R298). -/
  demOn : Bool
  demAt : Nat
  /-- Since when DEMA and DEMB have differed (R297). -/
  diffAt : Option Nat
  /-- Since when |P_A − P_B| has exceeded XPOS (R292). -/
  trkDiffAt : Option Nat
  /-- Cells discrepant at every check: the first and the latest of these checks (R296). -/
  cellDisc : List (Nat × Nat × Nat)
  /-- Records of each cell since its last cross-check (R296). -/
  checks : SMap Nat
  /-- Safe inputs 0 to 3 (R281). -/
  in0 : SafePair
  in1 : SafePair
  in2 : SafePair
  in3 : SafePair
  /-- SAFE_IN3 rose, and fell again, at these instants (`clk`, R299). -/
  resetRise : Option Nat
  resetFall : Option Nat
  /-- Filtered EDM levels and since when both have been high or low (R302). -/
  edmA : Bool
  edmB : Bool
  edmAt : Nat
  /-- Both EDM inputs have read low within TEDM of the last switch-on; both have read high within TEDM of the last switch-off
  (R302). -/
  edmLow : Bool
  edmHigh : Bool
  /-- Commanded outputs (R295), last change, and read-backs. -/
  ossdA : Bool
  ossdB : Bool
  ossdAt : Nat
  /-- The outputs have been switched since INIT. -/
  switched : Bool
  rbA : Bool
  rbB : Bool
  /-- Pre-test of each output passed in INIT (R301). -/
  preA : Bool
  preB : Bool
  /-- Speed set and zone bank of the press telegram (R304). -/
  spdsel : Nat
  zbank : Nat
  /-- Telegrams (R303, R307): own SEQ, last accepted SEQ, instant of the last acceptance, waiting copy. -/
  seqTx : Nat
  seqRx : Option Nat
  pressAt : Nat
  pressOk : Bool
  /-- OSTTMO expired since the last acceptance (R308). -/
  pressTmo : Bool
  copy : Option PressCopy
  /-- The step of the last time snap and the instant until which R307 also accepts times without it (R454). -/
  snapD : Int
  snapTo : Nat
  /-- Last telegram sent on path 1 and path 2, 16 words each (R303, R305). -/
  tx1 : List Word
  tx2 : List Word
  /-- `clk` at which the frame of `tx2` began on SAFE_TX (R306). -/
  txAt : Nat
  /-- DCODE and DCNT (R304, R528). -/
  dcode : Nat
  dcnt : Nat
  /-- Device time at which the event of DCODE was raised (R536). -/
  dcodeAt : Nat
  deriving DecidableEq, Repr, Inhabited

/-- The states of the CAP (R338). -/
inductive CapSt where
  | idle | pre | post | rearm | full
  deriving DecidableEq, Repr, Inhabited

/-- A trigger condition (R316): source, instant in device ns, fine part, COARSE. -/
structure Cond where
  src : Nat
  time : Nat
  fine : Nat
  coarse : Bool
  deriving DecidableEq, Repr, Inhabited

/-- A record offered to the CAP (R322, R323): TYPE, port, reference time, words behind the prefix, and the value that
each MSEL would compute. -/
structure CapRec where
  typ : Nat
  port : Nat
  time : Nat
  body : List Word
  /-- Window kind of a RAW record (0 FIRE, 1 LISTEN, 2 CAL) and its NSTOP. -/
  rawKind : Nat
  nstop : Nat
  /-- Values by MSEL that the record has (R332). -/
  vals : List (Nat × Nat)
  /-- A point record's RANGE inputs (R318): NOEMIT, and RA of its echoes without SATA. -/
  noemit : Bool
  ranges : List Nat
  deriving DecidableEq, Repr, Inhabited

/-- A stored record: its words and its place in the record area. -/
structure CapItem where
  ofs : Nat
  words : List Word
  time : Nat
  port : Nat
  deriving DecidableEq, Repr, Inhabited

/-- A capture segment being filled (R326, R331). -/
structure Seg where
  slot : Nat
  idx : Nat
  /-- Stored records, oldest first: the pre-trigger part and the post-trigger part. -/
  pre : List CapItem
  post : List CapItem
  wptr : Nat
  triggered : Bool
  ttrig : Nat
  tfine : Nat
  coarse : Bool
  srcMask : Nat
  /-- Source whose instant is the trigger time (R317). -/
  tsrc : Nat
  preshort : Bool
  lost : Nat
  lostB : Bool
  addtrig : Nat
  mcnt : Nat
  mmin : Nat
  mmax : Nat
  msum : Nat
  /-- Word bucket in 1/1,000 word, reference time of the last record taken and of the last record written (R324,
  R325). -/
  bucket : Nat
  lastRef : Option Nat
  lastSt : Option Nat
  /-- A word of the segment was read with an uncorrectable error (R334). -/
  poison : Bool
  deriving DecidableEq, Repr, Inhabited

/-- A valid segment in its slot (R329, R331): its index, FIRST and USED, and its records, oldest first. -/
structure SegDone where
  idx : Nat
  first : Nat
  used : Nat
  items : List CapItem
  poison : Bool
  deriving DecidableEq, Repr, Inhabited

/-- An averaging interval (R333). -/
structure Avg where
  start : Nat
  cnt : Nat
  min : Nat
  max : Nat
  sum : Nat
  noval : Nat
  deriving DecidableEq, Repr, Inhabited

/-- The capture engine. -/
structure Cap where
  st : CapSt
  /-- DRAINED (R330); reset 1. -/
  drained : Bool
  seg : Option Seg
  /-- Valid segments of the region by slot, in the order in which they closed (R329). -/
  slots : List (Nat × SegDone)
  /-- The words of subchannel A that the CAP has written, 25 to a burst (R319). -/
  store : SMap Word
  /-- The slot most recently taken since the commit. -/
  lastSlot : Option Nat
  /-- The CAP is FULL because every valid slot is locked (R336). -/
  lockFull : Bool
  /-- Next IDX and segments closed since the commit (R329). -/
  idx : Nat
  /-- Instant of the last close and of the last arm (device ns). -/
  closeAt : Nat
  armAt : Nat
  /-- Conditions on their way to the CAP, in order of arrival (R317). -/
  conds : List Cond
  /-- Records offered to the CAP, in order of arrival (R322). -/
  recs : List CapRec
  /-- RAW records that wait for windows opened before theirs, with the `clk` of the opening, in the order of R322. -/
  rawWait : List (Nat × CapRec)
  /-- The setup of the image: the words 7003h to 701Ch (R337). -/
  imgSetup : List Word
  /-- Missed conditions for the next segment that closes (R328). -/
  missed : Nat
  avg : Option Avg
  /-- Export holds this slot (R329). -/
  expSlot : Option Nat
  deriving DecidableEq, Repr, Inhabited

/-- The states of a frame slot (R348). -/
inductive SlotSt where
  | free | asm | ready | scan
  deriving DecidableEq, Repr, Inhabited

/-- The line header data of one line of a frame (R353). -/
structure LineHd where
  tag : Nat
  nrec : Nat
  enc : Nat
  ltime : Nat
  holdover : Bool
  subst : Bool
  noemit : Bool
  deriving DecidableEq, Repr, Inhabited

/-- A frame slot of a stream (R348): state, GEN, FCNT, the definition it was built under, pixels by
2^20·Veneer + 256·line + column, the pixels (256·line + column) that hold a record, and its lines. -/
structure FrmSlot where
  st : SlotSt
  gen : Nat
  fcnt : Nat
  defn : List Word
  pix : List (Nat × Word)
  recd : List Nat
  lines : List (Nat × LineHd)
  timejump : Bool
  tflip : Nat
  deriving DecidableEq, Repr, Inhabited

/-- A scan or resend in progress (R352, R358): slot, GEN, FCNT, definition and TIMEJUMP of the frame at its start, the next
line and enabled Veneer, VOID Veneers, the partner of a resend. -/
structure Scan where
  slot : Nat
  gen : Nat
  fcnt : Nat
  defn : List Word
  timejump : Bool
  line : Nat
  ven : Nat
  void : List Nat
  partner : Option Nat
  /-- Partners that receive the frame (R350, R351), plus 64 for one that receives it compressed. -/
  dests : List Nat
  deriving DecidableEq, Repr, Inhabited

/-- A pending commit of a stream (R354): the definition, whether a partner sent it, the frame that takes it and its `clk`, and the
definition and frame of the commit that it replaced (R360). -/
structure Pend where
  defn : List Word
  partner : Bool
  frame : Nat
  at0 : Nat
  older : Option (List Word × Nat)
  deriving DecidableEq, Repr, Inhabited

/-- A stream of the FSO (R342, R348, R350). -/
structure Stream where
  s0 : FrmSlot
  s1 : FrmSlot
  s2 : FrmSlot
  scan : Option Scan
  /-- Resends ordered, in order (R357). -/
  resend : List Scan
  pend : Option Pend
  /-- Pinned slot (R357); slot and GEN of the frame most recently scanned. -/
  pin : Option Nat
  lastScan : Option (Nat × Nat)
  /-- Acceptances held (R350): partners, and the FACCEPT pin. -/
  accs : List Nat
  pinAcc : Bool
  /-- A frame start event waits for acceptances since this device instant (R350). -/
  waitAt : Option Nat
  /-- The last event that found no READY frame: its `clk`, its instant and FSO_NOFRAME before it (R360). -/
  evAt : Option (Nat × Nat × Nat)
  /-- `clk` of the last flip (R360). -/
  flipAt : Nat
  /-- Frames dropped since the previous flip (R352). -/
  drops : Nat
  deriving DecidableEq, Repr, Inhabited

/-- The frame scan-out. -/
structure Fso where
  str0 : Stream
  str1 : Stream
  str2 : Stream
  str3 : Stream
  /-- 60-bit frame counter FCNT (R346) and whether a frame is open. -/
  fcnt : Nat
  frameOpen : Bool
  /-- The latch point of the last frame has passed (R354). -/
  latched : Bool
  /-- The first frame to open after a snap carries TIMEJUMP (R454). -/
  timejump : Bool
  /-- Encoder counts with their device instants, newest first (R353). -/
  encLog : List (Nat × Nat)
  /-- The port that the fires place at a column; a column stands for the port of its number until one does (R344). -/
  colPort : List (Nat × Nat)
  /-- Base and size in bursts of each stream's partition (R388), and the point rate of each library page in points/s
  (R355), as the image gives them. -/
  frm : List (Nat × Nat)
  ptRate : List (Nat × Nat)
  /-- Datum tables by 256·stream + column (R343), as loaded and as they wait for TBL. -/
  datum : List (Nat × Int)
  bootDatum : List (Nat × Int)
  deriving DecidableEq, Repr, Inhabited

/-- Who uses a compression context (R382). -/
inductive CtxClient where
  | none | scanout | exporting | boot
  deriving DecidableEq, Repr, Inhabited

/-- A compression context (R367, R370): history newest first, A, k, prev. -/
structure Ctx where
  used : Bool
  drained : Bool
  client : CtxClient
  resident : Bool
  eng : Bool
  src : Nat
  /-- The last words, newest first, at most 26,214; their number since the stream's start; the encoder's table: one more
  than the latest position stored under a hash (R371). -/
  hist : List Word
  pos : Nat
  tab : SMap Nat
  prev : Word
  a : Nat
  k : Nat
  fresh : Bool
  /-- Instant of the last use, for the least recently used choice (R368). -/
  lastUse : Nat
  deriving DecidableEq, Repr, Inhabited

/-- An export job (R374, R375): its context and the arguments as taken at GO, and whether an ABORT waits. -/
structure ExpJob where
  ctx : Nat
  slot : Nat
  start : Nat
  count : Nat
  abort : Bool
  tohost : Bool
  partner : Nat
  mask : List Nat
  deriving DecidableEq, Repr, Inhabited

/-- The compression engine. -/
structure Cmp where
  ctxs : List (Nat × Ctx)
  job : Option ExpJob
  /-- Output of the last export in the descriptor chain (R374). -/
  output : List Word
  /-- The words of the export partition that exports have written, by word offset (R374, R384). -/
  expStore : SMap Word
  deriving DecidableEq, Repr, Inhabited

/-- The module memory. -/
structure Mem where
  /-- Poisoned bursts (R395): 2^40·(subchannel) + burst. -/
  poison : List Nat
  /-- Marked devices (R394): 2·subchannel + rank, position. -/
  marks : List (Nat × Nat)
  /-- CEs by 20·subchannel + 10·rank + position within the present pass (R394). -/
  passCe : SMap Nat
  /-- Positions that have raised MEM_MARK2 in this pass. -/
  mark2 : List Nat
  /-- A scrub pass runs on subchannel A, B, and when it completes (`clk`, R397). -/
  passA : Option Nat
  passB : Option Nat
  /-- Write-back queue of corrected demand reads (R397): instant (`clk`) and burst, keyed as `poison`. -/
  wbq : List (Nat × Nat)
  /-- Refresh at twice the normal rate; a sensor is above 95 °C (R387). -/
  fast : Bool
  hot : Bool
  /-- `clk` until which subchannel A, B is unavailable (R399). -/
  unavA : Option Nat
  unavB : Option Nat
  selfRef : Bool
  /-- What wrong corrections left in bursts (R393), keyed as `poison`: the bits that differ from what was written; and the bits
  that the latest read alone delivered wrong. -/
  flips : SMap Nat
  seen : SMap Nat
  /-- First bursts of TBL and CTX in subchannel B, and base and size of EXP (R388). -/
  tblAt : Nat
  ctxAt : Nat
  expAt : Nat × Nat
  deriving DecidableEq, Repr, Inhabited

/-- The stages of a lane (R406). -/
inductive Stage where
  | detect | prbs | train | lock | caps | active | jig | off
  deriving DecidableEq, Repr, Inhabited

/-- A lane (R405 to R410). -/
structure Lane where
  stage : Stage
  /-- Governor instant at which the stage began. -/
  since : Nat
  polinv : Bool
  lswap : Bool
  /-- Consecutive training frames in which both ends reported READY (R406). -/
  ready : Nat
  /-- Receive word boundary in Jig mode (R410). -/
  slip : Nat
  /-- What the receiver last saw where the stage does not settle it (R441): signal, bit lock, block lock in bits 2 to 0. -/
  sense : Nat
  deriving DecidableEq, Repr, Inhabited

/-- A message sent to a partner: its TYPE, SEQ, payload and instant (R413, R423). -/
structure Sent where
  typ : Nat
  seq : Nat
  payload : List Word
  time : Nat
  deriving DecidableEq, Repr, Inhabited

/-- The states of a partner entry (R442). -/
inductive PtnSt where
  | free | caps | active | suspended
  deriving DecidableEq, Repr, Inhabited

/-- A partner entry (R416 to R424, R442). -/
structure Partner where
  st : PtnSt
  maj : Nat
  min : Nat
  offMaj : Nat
  offMin : Nat
  lane : Nat
  agg : Nat
  comp : Bool
  eth : Bool
  safe : Bool
  subs : Nat
  evt : Bool
  safSub : Bool
  cstat : Nat
  tag : BitVec 32
  port : BitVec 16
  txSeq : Nat
  rxSeq : Option Nat
  /-- `clk` of the last message received and sent (R419). -/
  rxAt : Nat
  txAt : Nat
  /-- Event queue of the partner, oldest first, at most 64 (R420, R528). -/
  evq : List EvEntry
  /-- Messages that left in the last 4 µs, newest first (R423). -/
  sent : List Sent
  /-- The entry closes at the end of the frame in progress (R419). -/
  closing : Bool
  deriving DecidableEq, Repr, Inhabited

/-- A trigger bus edge on its way (R433): line, level, event instant in device ns, fine part. -/
structure BusEdge where
  line : Nat
  level : Bool
  time : Nat
  fine : Nat
  deriving DecidableEq, Repr, Inhabited

/-- A neighbour on the chain (R428, R430). -/
structure Neigh where
  params : Option ChainParams
  rxSeq : Option Nat
  txSeq : Nat
  /-- UPDEG or DNDEG: the port runs on one lane (R429). -/
  deg : Bool
  deriving DecidableEq, Repr, Inhabited

/-- An outstanding ARP request (R425): address, requests sent, instant of the last. -/
structure ArpReq where
  lane : Nat
  ip : BitVec 32
  tries : Nat
  at0 : Nat
  deriving DecidableEq, Repr, Inhabited

/-- PTP (R425, R427, R450). -/
structure Ptp where
  /-- Data set of the selected master, in the order of comparison. -/
  best : Option (List Nat)
  /-- Last Sync: `clk`; Sync interval in ns; t2 − t1 in ticks. -/
  syncAt : Option Nat
  interval : Nat
  ms : Option Int
  /-- Mean path delay in ticks. -/
  delay : Option Int
  /-- First offsets after start or after TSLOST (R452, R460). -/
  first : List Int
  deriving DecidableEq, Repr, Inhabited

/-- What the device sent during the last command. -/
inductive Out where
  /-- A DLP message to a partner (R412): partner, lane, TYPE, SEQ, payload. -/
  | dlp (partner lane typ seq : Nat) (payload : List Word)
  /-- A CAPS to a sender without an entry (R416). -/
  | capsNone (lane : Nat) (status : Nat)
  /-- A chain message: port, TYPE, SEQ, payload. -/
  | chain (side : ChainSide) (typ seq : Nat) (payload : List Nat)
  | arpReply (lane : Nat) (ip : BitVec 32) (mac : BitVec 48)
  | arpRequest (lane : Nat) (ip : BitVec 32)
  | icmpReply (lane : Nat) (ip : BitVec 32) (payload : List Byte)
  | delayReq (lane : Nat)
  /-- An Ovmor safety telegram on path 1 (R303). -/
  | ost (words : List Word)
  /-- A frame on SAFE_TX (R306). -/
  | safeTx (frame : List LineChar)
  /-- A training frame of a lane: its 1,024 bits in the order sent (R407). -/
  | train (lane : Nat) (frame : List Bool)
  deriving DecidableEq, Repr, Inhabited

/-- The link subsystem. -/
structure Lnk where
  lanes : List (Nat × Lane)
  partners : List (Nat × Partner)
  /-- Joined to the chain and position (R428). -/
  joined : Bool
  pos : Nat
  full : Bool
  up : Neigh
  down : Neigh
  dvUp : Bool
  dvDn : Bool
  /-- Last 64 hop delays in ticks, newest first (R431). -/
  hops : List Int
  /-- The neighbour's sum of hop means (R431). -/
  upOfs : Int
  /-- Governor instant of the last PROBE (R431). -/
  probeAt : Nat
  /-- Trigger bus edges to come (R433). -/
  bus : List BusEdge
  /-- Levels of TRIG_OUT0 and TRIG_OUT1 (R434). -/
  tout0 : Bool
  tout1 : Bool
  /-- ARP cache by lane: address and MAC, newest first, at most 64 (R425). -/
  arp : List (Nat × BitVec 32 × BitVec 48)
  arpReqs : List ArpReq
  ptp : Ptp
  deriving DecidableEq, Repr, Inhabited

/-- A PLL (R447): lock and counts of consecutive good and bad windows. -/
structure PllSt where
  lock : Bool
  good : Nat
  bad : Nat
  deriving DecidableEq, Repr, Inhabited

/-- A pending time snap (R453): Tsnap in device ns before the step, Δ, position of the deciding device. -/
structure Snap where
  time : Nat
  delta : Int
  origin : Nat
  deriving DecidableEq, Repr, Inhabited

/-- The timebase unit. -/
structure Tbu where
  /-- `clk` at which the timing PLL first locked: the zero of governor time (R110); none before. -/
  gov0 : Option Nat
  timing : PllSt
  system : PllSt
  /-- The reference qualifies; since when it has been good (`clk`). -/
  refOk : Bool
  goodSince : Option Nat
  holdover : Bool
  holdAt : Nat
  /-- Good windows of the timing PLL since the reference qualified in holdover (R448). -/
  regood : Nat
  retune : Bool
  slewing : Bool
  /-- Time error still to remove, ticks (R451, R452), and the instant (`clk`) at which the running slew has removed the whole
  of it (R452). -/
  err : Int
  slewTo : Nat
  tsLost : Bool
  /-- Δ of a decided snap that waits for the deciding device's latch point (R453). -/
  snapWait : Option Int
  snaps : List Snap
  /-- Time error of a returning reference to be judged after Tsnap (R459). -/
  judge : Option Int
  /-- The head's time less device time by the latest ECHO, ticks (R432); a joined member has yet to take chain time
  (R452, R460). -/
  chainE : Option Int
  rejoin : Bool
  /-- Clock outputs on their backup clock, with the divider B (R458). -/
  backup : List (Nat × Nat)
  /-- LFSRs of the two modulators as loaded (R446). -/
  lfsrT : Word
  lfsrS : Word
  deriving DecidableEq, Repr, Inhabited

/-- Housekeeping (R499, R502). -/
structure Hk where
  /-- Channels still to convert in the present round. -/
  todo : List Nat
  /-- Instant (`clk`) from which the round conversion in progress runs; an urgent conversion restarts it (R500). -/
  convAt : Nat
  /-- CAL has calibrated ADC-B, so rounds run (R512). -/
  rounds : Bool
  /-- A round has completed (R513). -/
  firstRound : Bool
  /-- Instant at which the last urgent conversion started, and of the charge PWM event that asks for the next. -/
  urgAt : Option Nat
  pwmAt : Option Nat
  /-- LP as it applied at the start of the present round (R499). -/
  lp : Bool
  /-- Consecutive rounds outside and inside the limits by supply monitor (R502). -/
  supOut : SMap Nat
  supIn : SMap Nat
  /-- Latest interim values of TS0 to TS11 in 1/16 °C (R513). -/
  interim : List Int
  /-- Instant (`clk`) of the thermal trip (R504). -/
  coolAt : Option Nat
  deriving DecidableEq, Repr, Inhabited

/-- The steps of boot (R463). -/
structure Boot where
  refDone : Bool
  flashDone : Bool
  verifyDone : Bool
  calDone : Bool
  memDone : Bool
  tblDone : Bool
  failed : Bool
  /-- The flash's read mode, as in `Sfdp`, and its clock in MHz; 4-byte addresses (R467). -/
  readMode : Option (Nat × Nat)
  addr4 : Bool
  /-- SFDP density and page size (R467, R487). -/
  density : Nat
  pageSize : Nat
  /-- Shims in force by kind, index (512·kind + index) and the staged copy (R482, R483). -/
  shims : List (Nat × List Word)
  staged : List (Nat × List Word)
  /-- Sets taken from a SHIM section (1) or by RECAL LOAD (2). -/
  shimSrc : List (Nat × Nat)
  /-- SHIM section accepted; waits for the end of CAL. -/
  shimSec : List ShimSet
  shimOk : Bool
  /-- What CMP1 delivered to the destination of each section of the image, by type: the words after decompression (R366). -/
  content : List (Nat × List Word)
  /-- `clk` at which READY rose (R397). -/
  readyAt : Option Nat
  /-- Header and section table as read, for IMGDIG (R488). -/
  imgBytes : List Byte
  /-- Instant (`clk`) at which the seeding step started the sequencer (R229). -/
  seedAt : Nat
  /-- Register words of the image, for the limits that refer to it (R144). -/
  airidx : Nat
  startProfile : Nat
  /-- OTP (R476): state of the two hash slots (bits programmed, valid) and the fused hash. It survives every reset. -/
  otp : List (Bool × Bool)
  fused : Option (BitVec 256)
  nvmlock : Bool
  deriving DecidableEq, Repr, Inhabited

/-- The T256. -/
structure State where
  /-- The model's time line in ns: the greatest instant of the commands taken so far (log entry 1). -/
  clk : Nat
  /-- Device time minus `clk` in ns (R453, R460). -/
  tofs : Int
  /-- Device state (R46); reset RESET. -/
  dev : DevState
  /-- Every register word that differs from its reset value, by address (R534). -/
  regs : SMap Word
  mgmt : Mgmt
  seq : Seq
  edu : Edu
  rta : Rta
  rpe : Rpe
  stu : Stu
  saf : Saf
  cap : Cap
  fso : Fso
  cmp : Cmp
  mem : Mem
  lnk : Lnk
  tbu : Tbu
  hk : Hk
  boot : Boot
  /-- What the device sent during the last command. -/
  out : List Out
  /-- Instant (`clk`) before which RESET_N was low or a rail was not good (R46, R541). -/
  goodAt : Nat
  /-- Free values drawn so far: the model's own count (DESIGN CHOICE, log entry 3). -/
  free : Nat
  /-- What the device has set in the present cycle, by address: the bits of one-bit fields, the amount of a counter. A
  clearing read, write or BRANCH in the same cycle leaves it set (R23, R70; log entry 165). -/
  fresh : SMap Word
  /-- Commands waiting, first in, first out. -/
  pending : List Instr
  deriving DecidableEq, Repr

/-- A lane after reset: its stage reads 111b, OFF (R441). -/
def Lane.reset : Lane := { (default : Lane) with stage := .off }

/-- The T256 right after a power-on reset, in RESET (R46). Every register word is at the reset value of RegMap (`regs`
lists only what differs), and what stands beside the registers is empty, zero, false or the first value of its type,
but for the response of R519, DRAINED of the CAP (R330) and the stage of the lanes (R441). -/
def State.reset : State :=
  { clk := 0, tofs := 0, dev := .reset, regs := [],
    mgmt := { (default : Mgmt) with resp := ⟨.ok, 0xFFFF, 0⟩ },
    seq := default, edu := default, rta := default, rpe := default, stu := default, saf := default,
    cap := { (default : Cap) with drained := true },
    fso := default, cmp := default, mem := default,
    lnk := { (default : Lnk) with lanes := (List.range 12).map fun n => (n, Lane.reset) },
    tbu := default, hk := default,
    boot := { (default : Boot) with otp := [(false, false), (false, false)] },
    out := [], goodAt := 0, free := 0, fresh := [], pending := [] }

end Sys2Proof.Machine
end

