-- ==== Sys2Proof/Machine/Ops.lean ====
section
/-! DEFINITION. The named operations on the state that every meaning is written over: sparse tables, register words and
fields, the two times, events, messages to partners, and the helpers of integer arithmetic. -/

namespace Sys2Proof

/-! ### Sparse tables -/

/-- The value that a table gives a key, `d k` where the key is not listed. -/
def SMap.get {α : Type} (d : Nat → α) : SMap α → Nat → α
  | [], k => d k
  | (k', v) :: m, k => if k = k' then v else SMap.get d m k

/-- Put an entry at its place among rising keys. -/
def SMap.insert {α : Type} (k : Nat) (v : α) : SMap α → SMap α
  | [] => [(k, v)]
  | (k', v') :: m => if k < k' then (k, v) :: (k', v') :: m else (k', v') :: SMap.insert k v m

/-- Take the entry of a key out. -/
def SMap.erase {α : Type} (m : SMap α) (k : Nat) : SMap α := m.filter fun e => e.1 != k

/-- Give a key a value; a key at its unlisted value is not listed, so equal tables are equal data. -/
def SMap.put {α : Type} [DecidableEq α] (d : Nat → α) (m : SMap α) (k : Nat) (v : α) : SMap α :=
  if v = d k then m.erase k else (m.erase k).insert k v

/-- The canonical form: keys strictly rising, no entry equal to what an unlisted key reads as. -/
def SMap.wf {α : Type} [DecidableEq α] (d : Nat → α) (m : SMap α) : Bool :=
  (m.map Prod.fst).Pairwise (· < ·) && m.all fun e => e.2 != d e.1

/-- The same for a table of natural numbers whose unlisted value is 0. -/
def SMap.nat (m : SMap Nat) (k : Nat) : Nat := SMap.get (fun _ => 0) m k

def SMap.setNat (m : SMap Nat) (k v : Nat) : SMap Nat := SMap.put (fun _ => 0) m k v

/-- The entry of a key in a plain association list. -/
def assoc {α : Type} (m : List (Nat × α)) (k : Nat) : Option α := (m.find? fun e => e.1 == k).map Prod.snd

/-- Replace or add the entry of a key; keys stay in the order of first entry. -/
def assocPut {α : Type} (m : List (Nat × α)) (k : Nat) (v : α) : List (Nat × α) :=
  if m.any (fun e => e.1 == k) then m.map fun e => if e.1 == k then (k, v) else e else m ++ [(k, v)]

def assocDel {α : Type} (m : List (Nat × α)) (k : Nat) : List (Nat × α) := m.filter fun e => e.1 != k

/-- The element of a list at an index, or a default. -/
def nth {α : Type} (l : List α) (i : Nat) (d : α) : α := l.getD i d

/-- Replace the element at an index. -/
def setNth {α : Type} (l : List α) (i : Nat) (v : α) : List α := l.set i v

/-! ### Integer arithmetic -/

/-- Bits hi to lo of a number. -/
def bitsOf (n hi lo : Nat) : Nat := n / 2 ^ lo % 2 ^ (hi + 1 - lo)

/-- One bit of a number. -/
def bitOf (n i : Nat) : Bool := n / 2 ^ i % 2 == 1

/-- A `w`-bit number read in two's complement (R14). -/
def signed (w n : Nat) : Int := if n < 2 ^ (w - 1) then (n : Int) else (n : Int) - 2 ^ w

/-- A number in two's complement over `w` bits (R14). -/
def unsigned (w : Nat) (z : Int) : Nat := (z % 2 ^ w).toNat

/-- Saturate into a range. -/
def clampZ (lo hi z : Int) : Int := if z < lo then lo else if hi < z then hi else z

/-- Saturate a count at the all-ones value of `w` bits (R15). -/
def satN (w n : Nat) : Nat := min n (2 ^ w - 1)

/-- The newer-than comparison of a wrapping 20-bit counter (R15): over half its range. -/
def newer (a b : Nat) : Bool := let d := (a + 2 ^ 20 - b % 2 ^ 20) % 2 ^ 20; d != 0 && Nat.blt d (2 ^ 19)

/-- ceil(a / b). -/
def cdiv (a b : Nat) : Nat := (a + b - 1) / b

/-- 1 for true. -/
def b2n (b : Bool) : Nat := if b then 1 else 0

/-- The words of a number, least significant first (R11). -/
def wordsOf (n : Nat) : Nat → List Word
  | 0 => []
  | k + 1 => BitVec.ofNat 20 n :: wordsOf (n / 2 ^ 20) k

/-- The number that words hold, least significant first (R11). -/
def natOf : List Word → Nat
  | [] => 0
  | w :: r => w.toNat + 2 ^ 20 * natOf r

/-- A word of fields at their low bits. -/
def mkWord (fs : List (Nat × Nat)) : Word := BitVec.ofNat 20 (Machine.RegMap.pack fs)

/-- The bits of a number, bit 0 first. -/
def bitsLE (n : Nat) : Nat → List Bool
  | 0 => []
  | k + 1 => (n % 2 == 1) :: bitsLE (n / 2) k

/-- The bit stream of words (R305): word 0 first, each from bit 0 to bit 19. -/
def streamBits (ws : List Word) : List Bool := ws.flatMap fun w => bitsLE w.toNat 20

/-- A reflected 32-bit CRC with initial value and final XOR FFFFFFFFh (R305), by the reversed polynomial. -/
def crc32 (rev : Nat) (bits : List Bool) : Nat :=
  (bits.foldl (fun c b =>
    let x := if (c % 2 == 1) != b then c / 2 ^^^ rev else c / 2
    x) 0xFFFFFFFF) ^^^ 0xFFFFFFFF

/-- CRC-32C of path 1 and of DLP messages: 1EDC6F41h reversed (R305, R413). -/
def crcA (bits : List Bool) : Nat := crc32 0x82F63B78 bits

/-- The CRC of path 2: 741B8CD7h reversed (R305). -/
def crcB (bits : List Bool) : Nat := crc32 0xEB31D82E bits

namespace Machine

/-! ### The parts of the state -/

/-- Change one part of the state and nothing else. -/
def State.modMgmt (s : State) (f : Mgmt → Mgmt) : State := { s with mgmt := f s.mgmt }
def State.modSeq (s : State) (f : Seq → Seq) : State := { s with seq := f s.seq }
def State.modEdu (s : State) (f : Edu → Edu) : State := { s with edu := f s.edu }
def State.modRta (s : State) (f : Rta → Rta) : State := { s with rta := f s.rta }
def State.modRpe (s : State) (f : Rpe → Rpe) : State := { s with rpe := f s.rpe }
def State.modStu (s : State) (f : Stu → Stu) : State := { s with stu := f s.stu }
def State.modSaf (s : State) (f : Saf → Saf) : State := { s with saf := f s.saf }
def State.modCap (s : State) (f : Cap → Cap) : State := { s with cap := f s.cap }
def State.modFso (s : State) (f : Fso → Fso) : State := { s with fso := f s.fso }
def State.modCmp (s : State) (f : Cmp → Cmp) : State := { s with cmp := f s.cmp }
def State.modMem (s : State) (f : Mem → Mem) : State := { s with mem := f s.mem }
def State.modLnk (s : State) (f : Lnk → Lnk) : State := { s with lnk := f s.lnk }
def State.modTbu (s : State) (f : Tbu → Tbu) : State := { s with tbu := f s.tbu }
def State.modHk (s : State) (f : Hk → Hk) : State := { s with hk := f s.hk }
def State.modBoot (s : State) (f : Boot → Boot) : State := { s with boot := f s.boot }

/-- A bank's page, and the page in use (R50). -/
def Seq.pageOf (q : Seq) (b : Bool) : Page := if b then q.pageB else q.pageA
def Seq.active (q : Seq) : Page := q.pageOf q.actB

/-- Set the difference between device time and the model's instant. -/
def State.setTofs (s : State) (z : Int) : State := { s with tofs := z }

/-- Note when the last low RESET_N or bad rail ended. -/
def State.setGoodAt (s : State) (t : Nat) : State := { s with goodAt := t }

/-- Enter a device state (R46). -/
def State.setDev (s : State) (d : DevState) : State := { s with dev := d }

/-! ### Register words and fields -/

/-- The register word at an address as it is held. -/
def State.word (s : State) (a : Nat) : Word := SMap.get RegMap.resetWord s.regs a

/-- Hold a word at an address. -/
def State.setWord (s : State) (a : Nat) (w : Word) : State :=
  { s with regs := SMap.put RegMap.resetWord s.regs a w }

/-- The value of a field. -/
def State.rd (s : State) (f : Fld) : Nat := bitsOf (s.word f.addr).toNat f.hi f.lo

/-- The value of a signed field (R14). -/
def State.rdZ (s : State) (f : Fld) : Int := signed (f.hi + 1 - f.lo) (s.rd f)

/-- A one-bit field. -/
def State.flag (s : State) (f : Fld) : Bool := s.rd f != 0

/-- A word with a field replaced: the bits below it, the value modulo the field's width, the bits above it. -/
def putBits (w : Word) (hi lo v : Nat) : Word :=
  let n := w.toNat
  BitVec.ofNat 20 (n % 2 ^ lo + v % 2 ^ (hi + 1 - lo) * 2 ^ lo + n / 2 ^ (hi + 1) * 2 ^ (hi + 1))

/-- What the device has set in the present cycle at an address (R23). -/
def State.freshAt (s : State) (a : Nat) : Word := SMap.get (fun _ => 0) s.fresh a

/-- Give a field a value modulo its width, of which the part `k` counts as set in the present cycle (R23). -/
def State.wrNote (s : State) (f : Fld) (v k : Nat) : State :=
  { s with regs := SMap.put RegMap.resetWord s.regs f.addr (putBits (s.word f.addr) f.hi f.lo v),
           fresh := SMap.put (fun _ => 0) s.fresh f.addr (putBits (s.freshAt f.addr) f.hi f.lo k) }

/-- Give a field a value modulo its width. A one-bit field that is set, even if it was set before, and the bits of a wider
field that rise are set in the present cycle (R23). -/
def State.wr (s : State) (f : Fld) (v : Nat) : State :=
  s.wrNote f v (if f.hi == f.lo then v else v &&& ((s.rd f ^^^ (2 ^ (f.hi + 1 - f.lo) - 1)) ||| bitsOf (s.freshAt f.addr).toNat f.hi f.lo))

/-- Give a signed field a value modulo its width. -/
def State.wrZ (s : State) (f : Fld) (z : Int) : State := s.wr f (unsigned (f.hi + 1 - f.lo) z)

/-- Set or clear a one-bit field. -/
def State.put (s : State) (f : Fld) (b : Bool) : State := s.wr f (b2n b)

/-- Set bit `k` of a field of flags. -/
def State.setBit (s : State) (f : Fld) (k : Nat) : State := s.put ⟨f.addr, f.lo + k, f.lo + k⟩ true

/-- Add to a counter field that saturates at all ones (R15); what it counts in one cycle outlasts a clearing read in that
cycle (R23). -/
def State.count (s : State) (f : Fld) (n : Nat) : State :=
  let w := f.hi + 1 - f.lo
  s.wrNote f (satN w (s.rd f + n)) (satN w (bitsOf (s.freshAt f.addr).toNat f.hi f.lo + n))

/-- Increment a counter field that saturates (R15). -/
def State.inc (s : State) (f : Fld) : State := s.count f 1

/-- The value of a register of `n` words (R11). -/
def State.rdWide (s : State) (a n : Nat) : Nat := natOf ((List.range n).map fun i => s.word (a + i))

/-- Give a register of several words a value (R11). -/
def State.wrWords (s : State) (a : Nat) : List Word → State
  | [] => s
  | w :: ws => (s.setWord a w).wrWords (a + 1) ws

def State.wrWide (s : State) (a n v : Nat) : State := s.wrWords a (wordsOf v n)

/-- The bits that are set in a word field of `w` bits, as their numbers. -/
def setBits (n w : Nat) : List Nat := (List.range w).filter (bitOf n)

/-! ### Time -/

/-- Device time in ns (R460). -/
def State.now (s : State) : Nat := (s.clk + s.tofs).toNat

/-- Governor time in ns (R110). -/
def State.gov (s : State) : Nat :=
  match s.tbu.gov0 with
  | none => 0
  | some z => s.clk - z

/-- Begin a command at instant `t`: time never runs back, nothing has been sent yet, and what was set in an earlier cycle
is no longer set in the present one (R23). -/
def State.begin (s : State) (t : Nat) : State :=
  { s with clk := max s.clk t, out := [], fresh := if s.clk < t then [] else s.fresh }

/-- The model's instant `clk` of a device time. -/
def State.clkOf (s : State) (dev : Nat) : Nat := (dev - s.tofs).toNat

/-- Send something out of the device. -/
def State.send (s : State) (o : Out) : State := { s with out := s.out ++ [o] }

/-- Draw a free value (log entry 3). -/
def State.draw (s : State) : Nat × State := (Config.freeValue s.free, { s with free := s.free + 1 })

/-- READY (R46). -/
def State.ready (s : State) : Bool := s.dev == .run || s.dev == .degraded

/-- The device is out of RESET. -/
def State.alive (s : State) : Bool := s.dev != .reset

/-! ### Messages to partners -/

/-- The stage of a lane. -/
def State.lane (s : State) (n : Nat) : Lane := (assoc s.lnk.lanes n).getD Lane.reset

def State.setLane (s : State) (n : Nat) (l : Lane) : State :=
  s.modLnk fun x => { x with lanes := assocPut x.lanes n l }

def State.ptn (s : State) (n : Nat) : Partner := (assoc s.lnk.partners n).getD default

def State.setPtn (s : State) (n : Nat) (p : Partner) : State :=
  s.modLnk fun x => { x with partners := assocPut x.partners n p }

/-- The partner's home lane can carry a message now: the entry is in CAPS or ACTIVE and the lane in CAPS or ACTIVE. -/
def State.canSend (s : State) (n : Nat) : Bool :=
  let p := s.ptn n
  (p.st == .caps || p.st == .active) && ((s.lane p.lane).stage == .active || (s.lane p.lane).stage == .caps)

/-- Send one DLP message to a partner (R412 to R414): number it, log it for R423, note the instant. -/
def State.sendDlp (s : State) (n typ : Nat) (payload : List Word) : State :=
  let p := s.ptn n
  let m : Sent := ⟨typ, p.txSeq, payload, s.clk⟩
  let p' := { p with txSeq := (p.txSeq + 1) % 2 ^ 20, txAt := s.clk,
                     sent := m :: p.sent.filter fun x => s.clk ≤ x.time + 4000 }
  (s.setPtn n p').send (.dlp n p.lane typ p.txSeq payload)

/-! ### Events -/

/-- The class code of R526. -/
def EvClass.code : EvClass → Nat
  | .info => 0
  | .warn => 1
  | .fault => 2
  | .safety => 3

/-- The four words of an event queue entry (R525). -/
def EvEntry.words (e : EvEntry) : List Word :=
  mkWord [(12, e.code % 256), (10, e.cls.code), (0, e.arg % 1024)] :: wordsOf e.time 3

/-- Put an entry at the end of a queue, before entries of the same instant with a higher CODE (R536). -/
def insertEv (e : EvEntry) : List EvEntry → List EvEntry
  | [] => [e]
  | x :: q => if x.time == e.time && Nat.blt e.code x.code then e :: x :: q else x :: insertEv e q

/-- The class is queued (R526): FAULT and SAFETY always are. -/
def State.queues (s : State) (c : EvClass) : Bool :=
  c == .fault || c == .safety || bitOf (s.rd F.CTL_EVCFG_QEN) c.code

/-- Queue an entry in CTL_EVQ, or count it as lost when 256 entries wait (R525, R526). -/
def State.queueEv (s : State) (e : EvEntry) : State :=
  if s.mgmt.evq.length < 256 then s.modMgmt fun m => { m with evq := insertEv e m.evq }
  else (s.modMgmt fun m => { m with lost := m.lost + 1 }).inc F.CTL_EVLOST_COUNT

/-- Copy an event to one partner with an EVENTS subscription (R528, R420): sent at once where its lane can carry it,
else queued, 64 entries at most, the oldest dropped and counted. -/
def State.eventTo (s : State) (e : EvEntry) (n : Nat) : State :=
  let p := s.ptn n
  if p.evt && p.st == .active then
    if s.canSend n then s.sendDlp n 0x20 e.words
    else if p.evq.length < 64 then s.setPtn n { p with evq := p.evq ++ [e] }
    else (s.setPtn n { p with evq := p.evq.drop 1 ++ [e] }).inc F.LNK_EVLOST_COUNT
  else s

/-- DCODE and DCNT of the device telegram (R304, R528): the most recent event of class FAULT or SAFETY. -/
def State.noteDcode (s : State) (e : EvEntry) : State :=
  if e.cls == .fault || e.cls == .safety then
    let late := s.saf.dcodeAt == e.time && Nat.blt e.code s.saf.dcode
    s.modSaf fun v => { v with dcode := if late then v.dcode else e.code, dcodeAt := e.time, dcnt := satN 12 (v.dcnt + 1) }
  else s

/-- Raise an event (R525 to R529): CTL_EVQ when its class is queued, every subscribed partner, and DCODE. -/
def State.raise (s : State) (code : Nat) (cls : EvClass) (arg : Nat) : State :=
  let e : EvEntry := ⟨code, cls, arg % 1024, s.now⟩
  let s := if s.queues cls then s.queueEv e else s
  let s := (s.lnk.partners.map Prod.fst).foldl (fun s n => s.eventTo e n) s
  s.noteDcode e

/-! ### Long operations -/

/-- An accepted EXEC (R522, R524): BUSY rises and CTL_OPSTAT names the operation. -/
def State.startOp (s : State) (code : Nat) (op : LongOp) : State :=
  let s := s.modMgmt fun m => { m with op := some op }
  (((s.wr F.CTL_OPSTAT_CMD code).put F.CTL_OPSTAT_DONE false).put F.CTL_OPSTAT_VALID false).put F.CTL_OPSTAT_ABORT false

/-- The code of a long operation (R522). -/
def LongOp.code : LongOp → Nat
  | .profileSet .. => 1
  | .recal .. => 2
  | .pageLoad .. => 3
  | .attest .. => 4
  | .nvm .. => 5
  | .retune .. => 6
  | .scrub .. => 7

/-- The code of a status (R520). -/
def Status.toNat : Status → Nat
  | .ok => 0 | .busy => 1 | .refused => 2 | .badaddr => 3 | .locked => 4 | .temp => 5 | .version => 6 | .nofit => 7
  | .noroom => 8 | .draining => 9 | .signature => 10

/-- The end of a long operation (R524): the result, DONE and VALID, the event OP_DONE, and then BUSY falls. -/
def State.endOp (s : State) (result : Nat) : State :=
  match s.mgmt.op with
  | none => s
  | some op =>
    let s := ((s.wr F.CTL_OPRESULT_RESULT result).put F.CTL_OPSTAT_DONE true).put F.CTL_OPSTAT_VALID true
    let s := s.raise 0x01 .info op.code
    s.modMgmt fun m => { m with op := none }

/-! ### The Flethes chain -/

/-- On a head, the device holds chain position 0 (R428). -/
def State.isHead (s : State) : Bool := s.flag F.LNK_CFG_ROLE

/-- A lane of the chain port is ACTIVE: lanes 8 and 9 upstream, 10 and 11 downstream. -/
def State.portUp (s : State) (side : ChainSide) : Bool :=
  match side with
  | .up => (s.lane 8).stage == .active || (s.lane 9).stage == .active
  | .down => (s.lane 10).stage == .active || (s.lane 11).stage == .active

/-- The other chain port. -/
def otherSide : ChainSide → ChainSide
  | .up => .down
  | .down => .up

/-- The neighbour on a port. -/
def State.neigh (s : State) (side : ChainSide) : Neigh := match side with | .up => s.lnk.up | .down => s.lnk.down

def State.setNeigh (s : State) (side : ChainSide) (n : Neigh) : State :=
  s.modLnk fun x => match side with | .up => { x with up := n } | .down => { x with down := n }

/-- Send a chain message on a port whose lane is ACTIVE (R414, R435); a device that is not joined sends none downstream. -/
def State.sendChain (s : State) (side : ChainSide) (typ : Nat) (payload : List Nat) : State :=
  if s.portUp side && (side == .up || s.isHead || s.lnk.joined) then
    let n := s.neigh side
    (s.setNeigh side { n with txSeq := (n.txSeq + 1) % 2 ^ 20 }).send (.chain side typ n.txSeq payload)
  else s

end Machine

end Sys2Proof
end

