-- ==== Sys2Proof/Machine/Capture.lean ====
section
/-! DEFINITION. The capture engine (chapter 10): trigger conditions, records, segments and their store in subchannel A. -/

namespace Sys2Proof

/-- rdiv of the echo chapter: a / b rounded half up, for a ≥ 0 and b > 0. -/
def rdiv (a b : Nat) : Nat := (2 * a + b) / (2 * b)

namespace Machine

/-- The key of a burst in `Mem.poison`. -/
def burstKey (sub burst : Nat) : Nat := sub * 2 ^ 40 + burst

def State.poisoned (s : State) (sub burst : Nat) : Bool := s.mem.poison.contains (burstKey sub burst)

/-- A client writes bursts of a subchannel whole (R390, R395, R401): their poison, their queued write-backs and what a wrong
correction left in them go. -/
def State.writeBursts (s : State) (sub : Nat) (p : Nat → Bool) : State :=
  let keep := fun (k : Nat) => !(k / 2 ^ 40 == sub && p (k % 2 ^ 40))
  s.modMem fun m => { m with poison := m.poison.filter keep, wbq := m.wbq.filter (fun e => keep e.2),
                             flips := m.flips.filter fun e => keep e.1 }

/-- A client writes one burst. -/
def State.writeBurst (s : State) (sub burst : Nat) : State := s.writeBursts sub (· == burst)

/-- A burst of a set in a subchannel is poisoned. -/
def State.poisonIn (s : State) (sub : Nat) (p : Nat → Bool) : Bool :=
  s.mem.poison.any fun k => k / 2 ^ 40 == sub && p (k % 2 ^ 40)

/-- A stored word as a client reads it (R393): with the bits that wrong corrections turned in its burst. -/
def State.asRead (s : State) (sub i : Nat) (w : Word) : Word :=
  let k := burstKey sub (i / 25)
  w ^^^ BitVec.ofNat 20 ((SMap.nat s.mem.flips k ^^^ SMap.nat s.mem.seen k) / 2 ^ (20 * (i % 25)))

/-- The subchannel can be used (R399, R447): the system PLL is locked, and it is not in self-refresh, recalibration or
retraining. -/
def State.memAvail (s : State) (sub : Nat) : Bool :=
  let un := if sub == 0 then s.mem.unavA else s.mem.unavB
  s.tbu.system.lock && !s.mem.selfRef && (match un with | none => true | some e => decide (e ≤ s.clk))


/-! ### The committed setup and its geometry -/

/-- Base and size of a region in bursts (R341). -/
def State.regBase (s : State) (n : Nat) : Nat := s.rdWide (0x7080 + 8 * n) 2
def State.regSize (s : State) (n : Nat) : Nat := s.rdWide (0x7082 + 8 * n) 2

/-- The region in use, and its policy. -/
def State.capReg (s : State) : Nat := s.rd F.CAP_A_MODE_REG
def State.capRing (s : State) : Bool := s.flag (F.CAP_REG_W4_RING s.capReg)

/-- SEGW, PREW and POSTW of the committed setup. -/
def State.segw (s : State) : Nat := s.rdWide 0x7045 2
def State.prew (s : State) : Nat := s.rdWide 0x7048 2
def State.postw (s : State) : Nat := s.rdWide 0x704A 2

/-- Bursts of one segment (R319). -/
def State.segBursts (s : State) : Nat := cdiv (24 + s.segw) 25

/-- The first word of a slot in subchannel A, 25 words to a burst. -/
def State.slotWord (s : State) (slot : Nat) : Nat := 25 * (s.regBase s.capReg + slot * s.segBursts)

/-- Write words of subchannel A from a word index on; the written bursts lose their poison. -/
def State.storeWords (s : State) (i : Nat) : List Word → State
  | [] => s
  | w :: ws =>
    let s := (s.modCap fun c => { c with store := SMap.put (fun _ => 0) c.store i w }).writeBurst 0 (i / 25)
    s.storeWords (i + 1) ws

/-- Write the words of a record into the record area of a slot as a ring of SEGW words (R326). -/
def State.ringWords (s : State) (slot ofs : Nat) : List Word → State
  | [] => s
  | w :: ws => (s.storeWords (s.slotWord slot + 24 + ofs % max 1 s.segw) [w]).ringWords slot (ofs + 1) ws

/-- PMASK of the committed setup (R339). -/
def State.pmask (s : State) (port : Nat) : Bool := bitOf (s.word (0x7050 + port / 20)).toNat (port % 20)

/-! ### Conditions and records on their way to the CAP -/

/-- Offer a trigger condition to the CAP (R316): a source takes part while its TRIGEN bit is set, HOST always. -/
def State.condition (s : State) (c : Cond) : State :=
  if s.cap.st == .idle then s
  else if c.src == 15 || bitOf (s.rd F.CAP_A_TRIG_TRIGEN) c.src then s.modCap fun k => { k with conds := k.conds ++ [c] }
  else s

/-- The kind of a record type (R322, R323): 0 RAW, 1 HIST, 2 POINT. -/
def CapRec.kind (r : CapRec) : Nat := if r.typ == 1 then 0 else if r.typ == 4 then 2 else 1

/-- The CAP takes a record (R322): from a masked port, of the KIND set, RAW of a window kind of RAWK and, with SKIP0, with
a stop. -/
def State.capTakes (s : State) (r : CapRec) : Bool :=
  s.pmask r.port && r.kind == s.rd F.CAP_A_MODE_KIND &&
    (r.typ != 1 || (bitOf (s.rd F.CAP_A_MODE_RAWK) (2 - r.rawKind) && !(s.flag F.CAP_A_MODE_SKIP0 && r.nstop == 0)))

/-- The CAP has a use for a record while it is not idle: it takes it, or tests its range condition (R318). -/
def State.capWants (s : State) (typ port : Nat) : Bool :=
  s.ready && s.cap.st != .idle && s.pmask port &&
    (typ == 4 || s.rd F.CAP_A_MODE_KIND == (if typ == 1 then 0 else 1))

/-- Offer a record to the CAP, behind those offered before. -/
def State.offer (s : State) (r : CapRec) : State :=
  if s.capWants r.typ r.port then s.modCap fun c => { c with recs := c.recs ++ [r] } else s

/-- The range condition of a point record (R318). -/
def State.rangeMet (s : State) (r : CapRec) : Bool :=
  r.typ == 4 && s.pmask r.port && !r.noemit &&
    r.ranges.any fun x => Nat.ble (s.rd F.CAP_A_RLO_R) x && Nat.blt x (s.rd F.CAP_A_RHI_R)

/-! ### Segments -/

/-- VALID of the segment header of a slot as it stands in memory (R331). -/
def State.setValid (s : State) (slot : Nat) (v : Bool) : State :=
  let i := s.slotWord slot + 1
  let w := SMap.get (fun _ => (0 : Word)) s.cap.store i
  s.modCap fun c => { c with store := SMap.put (fun _ => 0) c.store i (putBits w 19 19 (b2n v)) }

/-- CAP_OLDEST follows the valid segments (R340). -/
def State.oldest (s : State) : State :=
  s.wr F.CAP_OLDEST_SLOT (match s.cap.slots with | [] => 0xFFFFF | (n, _) :: _ => n)

/-- A slot is locked while a lock register names it or an export of it runs (R329). -/
def State.locked (s : State) (slot : Nat) : Bool :=
  s.rd (F.CAP_SEGLOCK_SLOT 0) == slot || s.rd (F.CAP_SEGLOCK_SLOT 1) == slot || s.cap.expSlot == some slot

/-- Invalidate every segment of the region (R321, R330). -/
def State.invalidateSegs (s : State) : State :=
  let s := (s.cap.slots.map Prod.fst).foldl (fun s n => s.setValid n false) s
  let s := s.modCap fun c => { c with slots := [], lastSlot := none }
  (((s.wr F.CAP_LAST_SLOT 0xFFFFF).wr F.CAP_LASTIDX_IDX 0).oldest)

/-- The first free slot from a slot on, in turn. -/
def freeSlot (used : List Nat) (nseg : Nat) : Nat → Nat → Option Nat
  | 0, _ => none
  | fuel + 1, k => if used.contains (k % nseg) then freeSlot used nseg fuel (k + 1) else some (k % nseg)

/-- The slot that the next arm takes (R329): under stop-when-full the next of NSEG; under ring a free slot, else the
oldest valid slot that is not locked. -/
def State.nextSlot (s : State) : Option Nat :=
  let nseg := s.rd F.CAP_A_NSEG_NSEG
  let used := s.cap.slots.map Prod.fst
  if nseg == 0 then none
  else if s.capRing then
    let from' := match s.cap.lastSlot with | none => 0 | some k => k + 1
    match if Nat.blt used.length nseg then freeSlot used nseg (used.length + 1) from' else none with
    | some k => some k
    | none => used.find? fun k => !s.locked k
  else if Nat.blt used.length nseg then some used.length else none

/-- Arm the next segment, or become FULL (R328, R329). -/
def State.armSeg (s : State) : State :=
  match s.nextSlot with
  | none => s.modCap fun c => { c with st := .full, lockFull := s.capRing }
  | some k =>
    let s := if (s.cap.slots.map Prod.fst).contains k then s.setValid k false else s
    let g : Seg := { (default : Seg) with slot := k, idx := s.cap.idx, bucket := 16384000, mmin := 0xFFFFF }
    let ai := s.rd F.CAP_A_AVGI_AVGI * 1000
    let s := s.modCap fun c => { c with
      st := .pre, drained := false, seg := some g, slots := c.slots.filter (fun e => e.1 != k), lockFull := false,
      armAt := s.now, lastSlot := some k,
      avg := match c.avg with
        | some a => some a
        | none => if s.flag F.CAP_A_MODE_AVG && ai != 0 then some ⟨s.now / ai * ai, 0, 0xFFFFF, 0, 0, 0⟩ else none }
    s.oldest

/-- The header of a segment at its close (R331). `tm`: the cause is TIME. -/
def State.segHeader (s : State) (g : Seg) (missed : Nat) (tm : Bool) : List Word :=
  let items := g.pre ++ g.post
  let used := (items.map fun i => i.words.length).sum
  let pren := (g.pre.map fun i => i.words.length).sum
  let ft := match items with | [] => g.ttrig | i :: _ => i.time
  let first := match items with | [] => 0 | i :: _ => i.ofs
  let prim := ((setBits g.srcMask 16).head?).getD 0
  [BitVec.ofNat 20 g.idx,
   mkWord [(19, 1), (18, b2n g.preshort), (17, b2n g.poison), (16, b2n tm), (15, s.rd F.CAP_A_MODE_AVG), (13, s.rd F.CAP_A_MODE_KIND),
           (9, s.rd F.CAP_A_MODE_MSEL), (8, b2n (g.lost != 0)), (7, b2n g.coarse)],
   mkWord [(16, prim), (0, g.srcMask)],
   mkWord [(12, g.tfine), (0, satN 12 missed)]]
  ++ wordsOf g.ttrig 3 ++ wordsOf ft 3 ++ wordsOf first 2 ++ wordsOf used 2 ++ wordsOf pren 2
  ++ [BitVec.ofNat 20 (satN 20 g.lost), BitVec.ofNat 20 (satN 20 g.addtrig), BitVec.ofNat 20 (satN 20 g.mcnt),
      BitVec.ofNat 20 g.mmin, BitVec.ofNat 20 g.mmax]
  ++ wordsOf (satN 40 g.msum) 2 ++ [0]

/-- Under stop-when-full NSEG segments have closed, `more` segments beside the valid ones counted (R329). -/
def State.allClosed (s : State) (more : Nat) : Bool :=
  !s.capRing && Nat.ble (s.rd F.CAP_A_NSEG_NSEG) (s.cap.slots.length + more)

/-- Close the segment (R326 to R330): write the header and set VALID; re-arm, or drain after ARM = 0, or become FULL. -/
def State.closeSeg (s : State) (tm : Bool) : State :=
  match s.cap.seg with
  | none => s
  | some g =>
    let items := g.pre ++ g.post
    let done : SegDone := ⟨g.idx, match items with | [] => 0 | i :: _ => i.ofs,
      (items.map fun i => i.words.length).sum, items, g.poison⟩
    let s := s.storeWords (s.slotWord g.slot) (s.segHeader g s.cap.missed tm)
    let s := s.modCap fun c => { c with
      seg := none, slots := c.slots ++ [(g.slot, done)], idx := (c.idx + 1) % 2 ^ 20, closeAt := s.now, missed := 0,
      st := if s.allClosed 1 then .full else if s.flag F.CAP_CTL_ARM then .rearm else .idle, lockFull := false,
      drained := !s.flag F.CAP_CTL_ARM }
    (((s.wr F.CAP_LAST_SLOT g.slot).wr F.CAP_LASTIDX_IDX g.idx).inc F.CAP_SEGS_COUNT).oldest

/-- The most recent whole records whose total length does not exceed a bound, oldest first (R326). -/
def lastWithin (bound : Nat) (items : List CapItem) : List CapItem :=
  (items.reverse.foldl (fun (acc : List CapItem × Nat × Bool) i =>
    if acc.2.2 && Nat.ble (acc.2.1 + i.words.length) bound then (i :: acc.1, acc.2.1 + i.words.length, true)
    else (acc.1, acc.2.1, false)) ([], 0, true)).1

/-- The trigger makes an armed segment POST (R317, R326). -/
def State.triggerSeg (s : State) (g : Seg) (c : Cond) : State :=
  let kept := lastWithin s.prew g.pre
  let g := { g with pre := kept, triggered := true, ttrig := c.time, tfine := c.fine, coarse := c.coarse, tsrc := c.src,
                    srcMask := 2 ^ c.src, preshort := kept.length == g.pre.length }
  s.modCap fun k => { k with st := .post, seg := some g }

/-- Another condition of the trigger's sample joins it (R317). -/
def joinTrigger (g : Seg) (c : Cond) : Seg :=
  let g := if bitOf g.srcMask c.src then g else { g with srcMask := g.srcMask + 2 ^ c.src }
  let key := fun (tm fine src : Nat) => (tm * 256 + fine) * 16 + src
  if Nat.blt (key c.time c.fine c.src) (key g.ttrig g.tfine g.tsrc) then
    { g with ttrig := c.time, tfine := c.fine, coarse := c.coarse, tsrc := c.src }
  else g

/-- A missed condition (R328). -/
def State.missTrigger (s : State) : State :=
  (s.modCap fun k => { k with missed := k.missed + 1 }).inc F.CAP_MISSED_COUNT

/-- A condition reaches the CAP (R317, R328). -/
def State.takeCond (s : State) (c : Cond) : State :=
  match s.cap.st, s.cap.seg with
  | .pre, some g =>
    if Nat.blt s.cap.closeAt c.time && Nat.blt c.time s.cap.armAt then s.missTrigger
    else s.triggerSeg g c
  | .post, some g =>
    if c.time / 8 == g.ttrig / 8 then s.modCap fun k => { k with seg := some (joinTrigger g c) }
    else s.modCap fun k => { k with seg := some { g with addtrig := g.addtrig + 1 } }
  | .rearm, _ => if Nat.blt s.cap.closeAt c.time then s.missTrigger else s
  | .full, _ => s.missTrigger
  | _, _ => s

/-- TRIGGER (R317): the next condition on its way reaches the CAP. -/
def execTrigger (t : Nat) (s : State) : Host.Outcome State Fault Refusal :=
  let s := s.begin t
  match s.cap.conds with
  | [] => .next s
  | c :: cs => .next ((s.modCap fun k => { k with conds := cs }).takeCond c)

/-! ### Records -/

/-- The words that a record is stored as (R323): the prefix and the record. -/
def recWords (r : CapRec) (val : Option Nat) (lostB : Bool) : List Word :=
  [mkWord [(17, r.typ), (5, 3 + r.body.length), (4, b2n val.isSome), (3, b2n lostB)], BitVec.ofNat 20 r.time,
   BitVec.ofNat 20 (val.getD 0xFFFFF)] ++ r.body

/-- A TIME record (R323, R324). -/
def timeWords (time : Nat) : List Word := mkWord [(17, 0), (5, 4)] :: wordsOf time 3

/-- The value that MSEL names (R332). -/
def State.measure (s : State) (r : CapRec) : Option Nat :=
  let m := s.rd F.CAP_A_MODE_MSEL
  if m == 0 then none else (assoc r.vals m).map (min · 0xFFFFF)

/-- Append items to the part of the segment being written, in the ring of the record area (R326). -/
def State.putItems (s : State) (g : Seg) (items : List (List Word × Nat × Nat)) : State × Seg :=
  items.foldl (fun (acc : State × Seg) x =>
    let (s, g) := acc
    let (ws, time, port) := x
    let it : CapItem := ⟨g.wptr % max 1 s.segw, ws, time, port⟩
    let s := s.ringWords g.slot g.wptr ws
    let g := { g with wptr := (g.wptr + ws.length) % max 1 s.segw, lastSt := some time }
    (s, if g.triggered then { g with post := g.post ++ [it] }
        else { g with pre := lastWithin s.segw (g.pre ++ [it]) })) (s, g)

/-- Admit a record against the word bucket and write it, or lose it whole (R325, R326); a record that does not fit the
post-trigger part closes the segment before it. -/
def State.storeRec (s : State) (g : Seg) (r : CapRec) (val : Option Nat) : State :=
  let step := match g.lastRef with | none => 0 | some p => r.time - p
  let bucket := min 16384000 (g.bucket + 512 * step)
  let far := match g.lastSt with | none => false | some p => decide (2 ^ 19 ≤ ((r.time : Int) - p).natAbs)
  let len := 3 + r.body.length + (if far then 4 else 0)
  let g := { g with lastRef := some r.time, bucket := bucket }
  if Nat.blt bucket (1000 * len) || !s.memAvail 0 then
    (s.modCap fun c => { c with seg := some { g with lost := g.lost + 1, lostB := true } }).inc F.CAP_LOST_COUNT
  else
    let used := (g.post.map fun i => i.words.length).sum
    if g.triggered && Nat.blt s.postw (used + len) then
      (s.modCap fun c => { c with seg := some g }).closeSeg false
    else
      let items := (if far then [(timeWords r.time, r.time, r.port)] else []) ++ [(recWords r val g.lostB, r.time, r.port)]
      let (s, g) := s.putItems { g with bucket := bucket - 1000 * len, lostB := false } items
      let g := match g.triggered, val with
        | true, some v => { g with mcnt := g.mcnt + 1, mmin := min g.mmin v, mmax := max g.mmax v, msum := g.msum + v }
        | _, _ => g
      s.modCap fun c => { c with seg := some g }

/-- A value enters the averaging interval (R333). -/
def Avg.add (a : Avg) (val : Option Nat) : Avg :=
  match val with
  | none => { a with noval := a.noval + 1 }
  | some v => { a with cnt := a.cnt + 1, min := Nat.min a.min v, max := Nat.max a.max v, sum := a.sum + v }

/-- CAPTURE_RECORD (R318, R322 to R326, R332, R333): the CAP takes the next record offered to it. -/
def execCaptureRecord (t : Nat) (s : State) : Host.Outcome State Fault Refusal :=
  let s := s.begin t
  match s.cap.recs with
  | [] => .next s
  | r :: rs =>
    let s := s.modCap fun c => { c with recs := rs }
    let s := if s.rangeMet r then s.condition ⟨13, r.time, 0, false⟩ else s
    if !s.capTakes r then .next s
    else
      let val := s.measure r
      if s.flag F.CAP_A_MODE_AVG then .next (s.modCap fun c => { c with avg := c.avg.map (Avg.add · val) })
      else match s.cap.seg with
        | none => .next s
        | some g => .next (s.storeRec g r val)

/-- POSTT_EXPIRY (R326): the segment closes at TTRIG + POSTT µs with cause TIME. -/
def execPosttExpiry (t : Nat) (s : State) : Host.Outcome State Fault Refusal :=
  let s := s.begin t
  let p := s.rd F.CAP_A_POSTT_POSTT
  match s.cap.st, s.cap.seg with
  | .post, some g => if p != 0 && Nat.ble (g.ttrig + 1000 * p) s.now then .next (s.closeSeg true) else .next s
  | _, _ => .next s

/-- REARM (R328, R329): the next segment is armed in the next slot, or the CAP becomes FULL. -/
def execRearm (t : Nat) (s : State) : Host.Outcome State Fault Refusal :=
  let s := s.begin t
  if s.cap.st == .rearm then .next s.armSeg else .next s

/-- The words of an AVG record behind P2 (R333). -/
def Avg.body (a : Avg) : List Word :=
  [BitVec.ofNat 20 (satN 20 a.cnt), BitVec.ofNat 20 a.min, BitVec.ofNat 20 a.max, BitVec.ofNat 20 (satN 20 a.noval), 0]

/-- AVG_INTERVAL_END (R333): one AVG record is written, and the next interval begins. -/
def execAvgIntervalEnd (t : Nat) (s : State) : Host.Outcome State Fault Refusal :=
  let s := s.begin t
  let len := 1000 * s.rd F.CAP_A_AVGI_AVGI
  match s.cap.avg with
  | none => .next s
  | some a =>
    if len == 0 || Nat.blt s.now (a.start + len) then .next s
    else
      let r : CapRec := { (default : CapRec) with typ := 5, time := a.start, body := a.body }
      let val := if a.cnt == 0 then none else some (min 0xFFFFF (rdiv a.sum a.cnt))
      let s := s.modCap fun c => { c with avg := some ⟨a.start + len, 0, 0xFFFFF, 0, 0, 0⟩ }
      match s.cap.seg with
      | none => .next s
      | some g => .next (s.storeRec g r val)

/-! ### Poison and windows (R334, R340) -/

/-- A burst of the region that holds a segment turned uncorrectable (R334): POISON in the header of a valid one, and in that of
the open one at its close. -/
def State.capPoison (s : State) (burst : Nat) : State :=
  let base := s.regBase s.capReg
  let k := (burst - base) / max 1 s.segBursts
  if Nat.blt burst base then s
  else match assoc s.cap.slots k with
    | none => match s.cap.seg with
      | none => s
      | some g => if g.slot == k then (s.modCap fun c => { c with seg := some { g with poison := true } }).inc F.CAP_POISON_COUNT else s
    | some d =>
      if d.poison then s.inc F.CAP_POISON_COUNT
      else
        let i := s.slotWord k + 1
        let w := SMap.get (fun _ => (0 : Word)) s.cap.store i
        let s := s.modCap fun c => { c with
          slots := assocPut c.slots k { d with poison := true },
          store := SMap.put (fun _ => 0) c.store i (putBits w 17 17 1) }
        s.inc F.CAP_POISON_COUNT

/-- The bursts of the stored point record of which word `i` of subchannel A is header word 4 (R212, R396). -/
def State.word4Of (s : State) (i : Nat) : Option (List Nat) :=
  let sw := max 1 s.segw
  let segs := (s.cap.slots.map fun e => (e.1, e.2.items)) ++ (s.cap.seg.toList.map fun g => (g.slot, g.pre ++ g.post))
  segs.findSome? fun e => e.2.findSome? fun it =>
    let at' := fun (j : Nat) => s.slotWord e.1 + 24 + (it.ofs + j) % sw
    if bitsOf (it.words.headD 0).toNat 19 17 == 4 && at' 7 == i then
      some ((List.range it.words.length).map fun j => at' j / 25) else none

/-- CAP_STATUS (R338). -/
def State.viewCap (s : State) (a : Nat) : Option Word :=
  if a == 0x7000 then
    let st := match s.cap.st with | .idle => 0 | .pre => 1 | .post => 2 | .rearm => 3 | .full => 4
    some (mkWord [(17, st), (16, b2n s.cap.drained), (14, s.capReg)])
  else none

/-- The longest record of a setup (R321, R323). -/
def lmax (kind : Nat) (avg : Bool) : Nat :=
  if avg then 8 else if kind == 0 then 16 else if kind == 1 then 2067 else 35

/-- The status of a commit of the staged setup (R321). -/
def State.judgeSetup (s : State) : Status :=
  let kind := s.rd F.CAP_S_MODE_KIND
  let msel := s.rd F.CAP_S_MODE_MSEL
  let avg := s.flag F.CAP_S_MODE_AVG
  let nseg := s.rd F.CAP_S_NSEG_NSEG
  let reg := s.rd F.CAP_S_MODE_REG
  let segw := s.rdWide 0x7005 2
  let prew := s.rdWide 0x7008 2
  let postw := s.rdWide 0x700A 2
  let mselOk := msel == 0 || (kind == 0 && Nat.ble msel 3) || (kind == 2 && Nat.ble 4 msel && Nat.ble msel 6) ||
    (kind == 1 && (msel == 7 || msel == 8))
  if s.flag F.CAP_CTL_ARM then .refused
  else if !s.cap.drained then .draining
  else if kind == 3 || !mselOk || (avg && (msel == 0 || s.rd F.CAP_S_AVGI_AVGI == 0)) || nseg == 0 ||
      Nat.ble (s.rd F.CAP_S_RHI_R) (s.rd F.CAP_S_RLO_R) then .refused
  else if s.regSize reg == 0 then .nofit
  else if Nat.blt segw (prew + postw) then .nofit
  else if Nat.blt postw (lmax kind avg + 4) then .nofit
  else if Nat.blt (s.regSize reg) (nseg * cdiv (24 + segw) 25) then .nofit
  else if s.flag (F.CAP_REG_W4_RING reg) && Nat.blt nseg 3 then .nofit
  else .ok

/-- The staged setup: the words 7003h to 701Ch (R339). -/
def State.stagedSetup (s : State) : List Word := (List.range 26).map fun i => s.word (0x7003 + i)

/-- Commit a setup (R321, R329, R339): every segment of the region is invalidated, and IDX counts from 0. -/
def State.commitSetup (s : State) (ws : List Word) : State :=
  let s := s.invalidateSegs
  let s := ws.zipIdx.foldl
    (fun s e => if (RegMap.fieldsAt (0x7043 + e.2)).isSome then s.setWord (0x7043 + e.2) e.1 else s) s
  s.modCap fun c => { c with idx := 0, missed := 0, avg := none, lastSlot := none }

/-- Arm the capture (R325, R328, R337). -/
def State.armCap (s : State) : State :=
  ((s.put F.CAP_CTL_ARM true).modCap fun c => { c with closeAt := s.now }).armSeg

/-- A lock was released: a CAP that was FULL for want of an unlocked slot re-arms (R336). -/
def State.unlockCap (s : State) : State :=
  if s.cap.st == .full && s.cap.lockFull && s.nextSlot.isSome then s.modCap fun c => { c with st := .rearm } else s

end Machine

end Sys2Proof
end

