-- ==== Sys2Proof/Machine/Memory.lean ====
section
/-! DEFINITION. The module memory (chapter 13): the symbol code, poison, patrol scrubbing and availability.
What the clients keep in the module stands in their own state; this file answers which of its bursts read clean. -/

namespace Sys2Proof

namespace Machine

/-- Multiplication by α in GF(16) with x⁴ + x + 1 (log entry 6, PRESUMED). -/
def gfAlpha (x : Nat) : Nat := if x < 8 then 2 * x else (2 * x) ^^^ 0x13

/-- α^i · x. -/
def gfPow : Nat → Nat → Nat
  | 0, x => x
  | i + 1, x => gfAlpha (gfPow i x)

/-- What a beat decodes to (R392). -/
inductive Beat where
  | clean
  | ce (pos : Nat)
  | ue
  deriving DecidableEq, Repr, Inhabited

/-- Decode a syndrome (R392), with the marked position of the rank as an erasure (R394): an error of symbol e at
position i gives (e, α^i · e). -/
def decodeBeat (mark : Option Nat) (s0 s1 : Nat) : Beat :=
  if s0 == 0 && s1 == 0 then .clean
  else match mark with
    | some m => if s0 != 0 && gfPow m s0 == s1 then .ce m else .ue
    | none =>
      match (List.range 10).find? fun i => s0 != 0 && gfPow i s0 == s1 with
      | some i => .ce i
      | none => .ue

/-- The bit at which the five bits of a rank's mark begin in MEM_MARK (R402). -/
def markLo (sub rank : Nat) : Nat := 15 - 5 * (2 * sub + rank % 2)

/-- The marked position of a rank, if any (R394). -/
def State.markOf (s : State) (sub rank : Nat) : Option Nat :=
  let m := bitsOf (s.rd F.MEM_MARK_MARK) (markLo sub rank + 4) (markLo sub rank)
  if 16 ≤ m then some (m % 16) else none

/-- The words of MEM_LASTUE or MEM_LASTCE (R403). -/
def errWords (sub rank client pos burst : Nat) : List Word :=
  [mkWord [(19, sub), (18, rank % 2), (14, client), (10, pos)], BitVec.ofNat 20 burst, BitVec.ofNat 20 (burst / 2 ^ 20)]

end Machine

/-- The syndrome of a beat (R392). -/
def MemHit.s0 (h : MemHit) : Nat := h.errs.foldl (fun a e => a ^^^ e.2.toNat) 0
def MemHit.s1 (h : MemHit) : Nat := h.errs.foldl (fun a e => a ^^^ Machine.gfPow e.1 e.2.toNat) 0

/-- The bits of a burst that symbol errors turn: data symbol i of beat b at bits 32·b + 4·i (PRESUMED, log entry 190); the check
symbols carry no data. -/
def turned (beat : Nat) (errs : List (Nat × Nat)) : Nat :=
  errs.foldl (fun m e => if e.1 < 8 then m ^^^ (e.2 * 2 ^ (32 * beat + 4 * e.1)) else m) 0

/-- What is wrong in a beat after the symbol at `fix`, if any, has been corrected (R393). -/
def MemHit.wrong (h : MemHit) (fix : Option Nat) : Nat :=
  turned h.beat ((h.errs.map fun e => (e.1, e.2.toNat)) ++ fix.toList.map fun p => (p, h.s0))

namespace Machine

/-- Bits that this read alone delivers wrong (R393). -/
def State.seeWrong (s : State) (sub burst m : Nat) : State :=
  let k := burstKey sub burst
  if m == 0 then s else s.modMem fun x => { x with seen := x.seen.setNat k (x.seen.nat k ^^^ m) }

/-- Bits that a write-back puts into a burst wrong (R393, R397). -/
def State.leaveWrong (s : State) (sub burst m : Nat) : State :=
  let k := burstKey sub burst
  if m == 0 then s else s.modMem fun x => { x with flips := x.flips.setNat k (x.flips.nat k ^^^ m) }

/-- A corrected beat (R392, R394, R397): counted by subchannel and position; a demand read queues the write-back, and a
correction that is wrong is written back as it is. -/
def State.noteCe (s : State) (sub client pos : Nat) (demand : Bool) (h : MemHit) : State :=
  let bad := h.wrong (some pos)
  let s := s.inc (if sub == 0 then F.MEM_CE_A_COUNT else F.MEM_CE_B_COUNT)
  let s := s.inc (F.MEM_SYMCE_COUNT (20 * sub + 10 * (h.rank % 2) + pos))
  let s := s.wrWords 0xA024 (errWords sub h.rank client pos h.burst)
  let k := 20 * sub + 10 * (h.rank % 2) + pos
  let s := s.modMem fun m => { m with passCe := m.passCe.setNat k (m.passCe.nat k + 1) }
  if s.poisoned sub h.burst then s
  else if !demand then s.leaveWrong sub h.burst bad
  else
    let q := s.mem.wbq.filter fun e => e.1 == s.clk
    if q.any fun e => e.2 == burstKey sub h.burst then (s.modMem fun m => { m with wbq := q }).leaveWrong sub h.burst bad
    else if q.length < 16 then (s.modMem fun m => { m with wbq := q ++ [(s.clk, burstKey sub h.burst)] }).leaveWrong sub h.burst bad
    else ((s.modMem fun m => { m with wbq := q }).inc F.MEM_WBQOVF_COUNT).seeWrong sub h.burst bad

/-- An uncorrectable beat poisons its burst once (R395, R401). -/
def State.noteUe (s : State) (sub client : Nat) (h : MemHit) : State :=
  if s.poisoned sub h.burst then s
  else
    let s := s.modMem fun m => { m with poison := burstKey sub h.burst :: m.poison }
    let s := s.inc (if sub == 0 then F.MEM_UE_A_COUNT else F.MEM_UE_B_COUNT)
    let s := s.wrWords 0xA020 (errWords sub h.rank client 0 h.burst)
    let s := if sub == 0 then s.capPoison h.burst else s
    s.raise 0x30 .fault sub

/-- One beat that a read found (R393): errors that decode as clean are delivered. -/
def State.noteHit (s : State) (sub client : Nat) (demand : Bool) (h : MemHit) : State :=
  match decodeBeat (s.markOf sub h.rank) h.s0 h.s1 with
  | .clean => s.seeWrong sub h.burst (h.wrong none)
  | .ce pos => s.noteCe sub client pos demand h
  | .ue => s.noteUe sub client h

/-- Positions that reached MARKN CEs in the pass (R394, R401): the lowest is marked where the rank holds no mark, every
other raises MEM_MARK2 once. -/
def State.judgeMark (s : State) (k : Nat) : State :=
  let sub := k / 20
  let rank := k / 10 % 2
  let pos := k % 10
  let n := s.rd F.MEM_MARKN_MARKN
  if n == 0 || Nat.blt (s.mem.passCe.nat k) n || s.mem.mark2.contains k then s
  else match s.markOf sub rank with
    | none =>
      let lo := markLo sub rank
      let w := putBits (s.word 0xA00F) (lo + 4) lo (16 + pos)
      (s.setWord 0xA00F w)
    | some m =>
      if m == pos then s
      else (s.modMem fun m => { m with mark2 := k :: m.mark2 }).raise 0x31 .fault pos

/-- The positions of a subchannel are judged against MARKN. -/
def State.judgeMarks (s : State) (sub : Nat) : State := ((List.range 20).map (20 * sub + ·)).foldl State.judgeMark s

/-- The beats of a read in order. The beats of one burst are read in one turn, at one instant; a mark that it brings holds from
the next burst on (R394, R401). -/
def State.readBeats (s : State) (sub client : Nat) (demand : Bool) : List MemHit → State
  | [] => s
  | h :: hs =>
    let s := s.noteHit sub client demand h
    let s := if hs.head?.any fun x => x.burst == h.burst then s else s.judgeMarks sub
    s.readBeats sub client demand hs

/-- Account the beats that a read of a subchannel found in error (R392 to R395). A burst is poisoned afterwards where one of
its beats is uncorrectable. -/
def State.memRead (s : State) (sub client : Nat) (demand : Bool) (hits : List MemHit) : State :=
  (s.modMem fun m => { m with seen := [] }).readBeats sub client demand hits

/-- A pass that has read every burst completes (R397, R403). -/
def State.settlePass (s : State) : State :=
  let s := if s.mem.passA.any fun e => Nat.ble e s.clk then
      (s.modMem fun m => { m with passA := none }).inc F.MEM_PASS_A_COUNT else s
  if s.mem.passB.any fun e => Nat.ble e s.clk then
    (s.modMem fun m => { m with passB := none }).inc F.MEM_PASS_B_COUNT else s

/-- A pass starts at each multiple of SPASS seconds of device time, and at the end of boot (R397). -/
def State.passDue (s : State) : Bool :=
  s.boot.readyAt == some s.clk || s.now % (s.rd F.MEM_SPASS_SPASS * 1000000000) == 0

/-- SCRUB_PASS_START (R397, R401): a pass starts, unless the previous one runs on. What it finds is accounted at its start. -/
def execScrubPassStart (t : Nat) (subB : Bool) (dur : Nat) (hits : List MemHit) (s : State) :
    Host.Outcome State Fault Refusal :=
  let s := (s.begin t).settlePass
  let sub := b2n subB
  if !s.flag F.MEM_STATUS_ZFILL || !s.passDue then .next s
  else if (if subB then s.mem.passB else s.mem.passA).isSome then .next ((s.raise 0x33 .warn sub).memRead sub 0 false hits)
  else
    let e := some (s.clk + dur)
    let s := s.modMem fun m => { m with passCe := m.passCe.filter fun e => e.1 / 20 != sub,
                                        mark2 := m.mark2.filter fun k => k / 20 != sub,
                                        passA := if subB then m.passA else e, passB := if subB then e else m.passB }
    .next (s.memRead sub 0 false hits)

/-- THERMAL_SENSOR_READ (R387): refresh at twice the rate above 85 °C; MEM_HOT once per crossing of 95 °C. -/
def execThermalSensorRead (t : Nat) (temps : List Int) (s : State) : Host.Outcome State Fault Refusal :=
  let s := s.begin t
  if !s.flag F.MEM_STATUS_TRAINED then .next s
  else
    let hot := temps.any fun x => decide (95 < x)
    let s' := s.modMem fun m => { m with fast := temps.any (fun x => decide (85 < x)), hot := hot }
    .next (if hot && !s.mem.hot then s'.raise 0x32 .warn 0 else s')

/-- PERIODIC_RECALIBRATION (R399): every RECAL ms the subchannel is unavailable for 1.5 µs, subchannel B half a period after A;
the periods are counted on the model's time line (log entry 191). -/
def execPeriodicRecalibration (t : Nat) (subB : Bool) (s : State) : Host.Outcome State Fault Refusal :=
  let s := s.begin t
  let per := 1000000 * s.rd F.MEM_RECAL_RECAL
  if !s.flag F.MEM_STATUS_TRAINED || s.mem.selfRef || s.clk % per != (if subB then per / 2 else 0) then .next s
  else
    let e := some (s.clk + 1500)
    .next (s.modMem fun m => if subB then { m with unavB := e } else { m with unavA := e })

/-- What a scan of bursts finds (R398): the number of corrected beats, and of bursts that read as uncorrectable, those poisoned
before (R395) included. -/
def State.scanFinds (s : State) (sub start count : Nat) (hs : List MemHit) : Nat × Nat :=
  let verdicts := hs.map fun h => decodeBeat (s.markOf sub h.rank) h.s0 h.s1
  let old := (s.mem.poison.filter fun k => k / 2 ^ 40 == sub && Nat.ble start (k % 2 ^ 40) && Nat.blt (k % 2 ^ 40) (start + count)).map
    (· % 2 ^ 40)
  let ces := (verdicts.filter fun v => match v with | .ce _ => true | _ => false).length
  let ues := ((hs.zip verdicts).filter fun v => v.2 == .ue).map (fun v => v.1.burst)
  (ces, (ues ++ old).dedup.length)

/-- SCRUB_NOW_DONE (R398): the commanded scrub completes, and CTL_OPRESULT holds the CEs and UEs found. -/
def execScrubNowDone (t : Nat) (hits : List MemHit) (s : State) : Host.Outcome State Fault Refusal :=
  let s := s.begin t
  match s.mgmt.op with
  | some (.scrub subB start count) =>
    let sub := b2n subB
    if !s.memAvail sub then .next s
    else
      let hs := hits.filter fun h => Nat.ble start h.burst && Nat.blt h.burst (start + count)
      let (ces, ues) := s.scanFinds sub start count hs
      .next ((s.memRead sub 0 false hs).endOp (satN 10 ces * 1024 + satN 10 ues))
  | _ => .next s

/-- The bursts of a subchannel (R385, R388): half of the module, from the ranks and density in MEM_STATUS. -/
def State.subBursts (s : State) : Nat :=
  s.rd F.MEM_STATUS_RANKS * 2 ^ (s.rd F.MEM_STATUS_DENS) * 2 ^ 27

/-! ### Partitions of subchannel B (R388) -/

/-- TBL is 8 MiB and CTX 2 MiB. -/
def tblBursts : Nat := 2 ^ 17
def ctxBursts : Nat := 2 ^ 15

/-- The bursts of a library page in copy 0 or 1 of TBL: each copy takes half of the partition, and each page 1,024 bursts
(DESIGN CHOICE, log entry 192). -/
def State.tblBurst (s : State) (copy lib burst : Nat) : Bool :=
  Nat.ble (s.mem.tblAt + 65536 * copy + 1024 * lib) burst && Nat.blt burst (s.mem.tblAt + 65536 * copy + 1024 * (lib + 1))

/-- TBL read of a library page (R396): copy 0, and the other where it is poisoned; whether one of them could be read. -/
def State.readTbl (s : State) (lib : Nat) (hits : List MemHit) : Bool × State :=
  let s := s.memRead 1 4 true (hits.filter fun h => s.tblBurst 0 lib h.burst || s.tblBurst 1 lib h.burst)
  (!(s.poisonIn 1 (s.tblBurst 0 lib) && s.poisonIn 1 (s.tblBurst 1 lib)), s)

/-- The bursts of a context's save area: a sixteenth of CTX (DESIGN CHOICE, log entry 192). -/
def State.ctxBurst (s : State) (n burst : Nat) : Bool :=
  Nat.ble (s.mem.ctxAt + 2048 * n) burst && Nat.blt burst (s.mem.ctxAt + 2048 * (n + 1))

/-- MEM_STATUS (R402): UNAVA and UNAVB follow the subchannels' availability. -/
def State.viewMem (s : State) (a : Nat) : Option Word :=
  if a == 0xA000 then
    let w := putBits (s.word a) 18 18 (b2n (s.flag F.MEM_STATUS_TRAINED && !s.memAvail 0))
    some (putBits w 17 17 (b2n (s.flag F.MEM_STATUS_TRAINED && !s.memAvail 1)))
  else none

end Machine

end Sys2Proof
end

