-- ==== Sys2Proof/Machine/Hist.lean ====
section
/-! DEFINITION. Histogram accumulation (chapter 5): counted shots, binning, coincidence, zoom placement, closing, the
hand-over to the echo stage and the passing of marks. -/

namespace Sys2Proof.Machine


/-- Row, emitter column and sub-pixel of a port (R27). -/
def rowOf (ch : Nat) : Nat := ch / 32
def colOf (ch : Nat) : Nat := ch % 32 / 4
def subOf (ch : Nat) : Nat := ch % 4

/-- The ports of a group (R28). -/
def groupPorts (r : Nat) : List Nat := (List.range 32).map (32 * r + ·)

/-- The offsets OFS_1 to OFS_P of a burst code in ns (R96, R119). -/
def State.burstOfs (s : State) (code : Nat) : List Nat :=
  let p := s.rd (F.EDU_BURST_W0_PM1 code) + 1
  ([0, s.rd (F.EDU_BURST_W0_OFS2 code), s.rd (F.EDU_BURST_W1_OFS3 code), s.rd (F.EDU_BURST_W1_OFS4 code),
    s.rd (F.EDU_BURST_W2_OFS5 code), s.rd (F.EDU_BURST_W2_OFS6 code), s.rd (F.EDU_BURST_W3_OFS7 code),
    s.rd (F.EDU_BURST_W3_OFS8 code)]).take p

/-! ### The record -/

/-- The 16-word header of a histogram record (R182). -/
def Hist.header (h : Hist) : List Word :=
  [mkWord [(12, h.port), (8, h.bink), (7, b2n h.partialC), (6, b2n h.stretch), (5, b2n h.sat), (4, b2n h.zoom),
           (3, b2n h.zcold), (2, b2n h.mixed), (1, b2n h.noemit), (0, b2n h.holdover)],
   BitVec.ofNat 20 h.origin, BitVec.ofNat 20 h.nshot, BitVec.ofNat 20 h.nemit, BitVec.ofNat 20 h.nsynth,
   BitVec.ofNat 20 h.ambpre, BitVec.ofNat 20 h.ambpost, BitVec.ofNat 20 (satN 20 (h.livepre / 4096)),
   BitVec.ofNat 20 (satN 20 (h.livepost / 4096)), mkWord [(8, h.line), (0, h.pix)], BitVec.ofNat 20 h.ncrej,
   mkWord [(16, h.cause.getD 0), (15, b2n h.zlag), (14, b2n h.subst), (13, b2n h.more), (12, b2n h.ovf),
           (11, b2n h.lsrc)]]
  ++ wordsOf h.tlast 3 ++ [0]

/-- The 2,048 bin words (R182). -/
def Hist.binWords (h : Hist) : List Word := (List.range 2048).map fun b => BitVec.ofNat 20 (h.bins.nat b)

/-- The record offered to the CAP (R182, R322), with its largest bin and the sum of its bins (R332). -/
def Hist.capRec (h : Hist) : CapRec :=
  let vs := h.bins.map Prod.snd
  { (default : CapRec) with typ := 2, port := h.port, time := h.tlast, body := h.header ++ h.binWords,
                            vals := [(7, vs.foldl max 0), (8, satN 20 vs.sum)] }

/-! ### Closing and hand-over -/

/-- A port's RD buffer holds a closed histogram (R165). -/
def State.rdBusy (s : State) (port : Nat) : Bool := s.rpe.queue.any fun h => h.port == port

/-- Ports whose histogram is stretching (R191). -/
def State.nstretch (s : State) : Nat := (s.rpe.acc.filter fun e => e.2.cause.isSome).length

/-- The oldest fire with a shot of a port that is not taken yet. -/
def State.nextShot (s : State) (port : Nat) : Option FireRec :=
  s.rta.recs.find? fun r => r.active.contains port && !r.taken.contains port

/-- PDRAINED (R155): the disable of a port is complete once it is past its shot boundary and no shot of it is to come. -/
def State.noteDrained (s : State) (port : Nat) : State :=
  if s.flag (F.RTA_PCFG_EN port) || s.rta.disabling.contains port || (s.nextShot port).isSome then s
  else s.put (F.RTA_PSTAT_PDRAINED port) true

/-- Swap the buffers and queue a closed histogram to the echo stage (R180); the counters of R192, the CAP and the ambient
tracker take the record. -/
def State.handOver (s : State) (h : Hist) : State :=
  let s := s.modRpe fun r => { r with acc := assocDel r.acc h.port, queue := r.queue ++ [h],
                                      ambQ := r.ambQ ++ [.hist h.port h.ambpost (satN 20 (h.livepost / 4096)) h.more] }
  let s := if h.partialC then s.inc F.RPE_PARTIAL_COUNT else s
  let s := if h.stretch then s.inc F.RPE_STRETCH_COUNT else s
  let s := if h.sat then s.inc F.RPE_SATCNT_COUNT else s
  let s := if h.zlag then s.inc F.RPE_ZLAG_COUNT else s
  let s := s.noteDrained h.port
  if s.capWants 2 h.port then s.offer h.capRec else s

/-- The open histogram of a port closes with a cause (R168): handed over, or stretching where RD is not released
(R181). -/
def State.closeOpen (s : State) (h : Hist) (cause : Nat) : State :=
  let h := { h with cause := some cause, partialC := cause != 0, ord := s.rpe.nextOrd, gen := s.rpe.gen,
                    live := s.ready }
  let s := s.modRpe fun r => { r with nextOrd := r.nextOrd + 1 }
  if s.rdBusy h.port then
    let first := s.nstretch == 0
    let s := s.modRpe fun r => { r with acc := assocPut r.acc h.port { h with stretch := true } }
    if first then s.raise 0x08 .warn 0 else s
  else s.handOver h

/-- A close event at a port (R168, R169): without an open histogram it has no effect, but RPE_NOREC counts the
port-specific causes DISABLE, SUBST and OFF. One that meets a stretching histogram has no effect and is not counted (R189; log
entry 180). -/
def State.closeHist (s : State) (port cause : Nat) : State :=
  match assoc s.rpe.acc port with
  | none => (if 3 ≤ cause && cause ≤ 5 then s.inc F.RPE_NOREC_COUNT else s).noteDrained port
  | some h => if h.cause.isSome then s else s.closeOpen { h with port := port } cause

/-- A close event for the whole device, in port order. -/
def State.closeAll (s : State) (cause : Nat) : State :=
  ((s.rpe.acc.map Prod.fst).mergeSort (· ≤ ·)).foldl (fun s p => s.closeHist p cause) s

/-- RD of a port is released (R180, R181): a stretching histogram swaps in. -/
def State.releaseRd (s : State) (port : Nat) : State :=
  match assoc s.rpe.acc port with
  | some h => if h.cause.isSome && !s.rdBusy port then s.handOver h else s
  | none => s

/-- A histogram that is closed and not released keeps an invalidated anchor invalid (R176). -/
def Hist.lose (h : Hist) : Hist := if h.cause.isSome then { h with zinv := true } else h

/-- The zoom anchor of a port becomes invalid (R176). -/
def State.dropAnchor (s : State) (port : Nat) : State :=
  let s := s.wr (F.RPE_ZANC_ZANC port) 0xFFFFF
  s.modRpe fun r => { r with queue := r.queue.map fun h => if h.port == port then h.lose else h,
                             acc := r.acc.map fun e => if e.1 == port then (e.1, e.2.lose) else e }

/-- Every zoom anchor becomes invalid (R176). -/
def State.dropAnchors (s : State) : State :=
  let s := { s with regs := s.regs.filter fun e => !(Nat.ble 0x6100 e.1 && Nat.blt e.1 0x6200) }
  s.modRpe fun r => { r with queue := r.queue.map Hist.lose, acc := r.acc.map fun e => (e.1, e.2.lose) }

/-- A close for a port's own cause (R155, R152, R153) stands behind the port's earlier shots; its anchor becomes invalid. -/
def State.portClose (s : State) (port cause : Nat) : State :=
  if (s.nextShot port).isNone then (s.closeHist port cause).dropAnchor port
  else (s.dropAnchor port).modRta fun a => { a with closing := a.closing ++ [(port, cause)] }

/-- Closes that waited for a port's earlier shots. -/
def State.settleCloses (s : State) (port : Nat) : State :=
  if (s.nextShot port).isSome then s
  else
    let due := s.rta.closing.filter fun e => e.1 == port
    let s := s.modRta fun a => { a with closing := a.closing.filter fun e => e.1 != port }
    due.foldl (fun s e => (s.closeHist port e.2).dropAnchor port) s

/-- A closed histogram still uses the history of a generation. -/
def State.usesGen (s : State) (g : Nat) : Bool :=
  (s.rpe.queue.any fun h => h.gen == g) || s.rpe.acc.any fun e => e.2.cause.isSome && e.2.gen == g

/-- Clear the echo history (R206): HFR becomes 0; histograms closed before keep the old history. -/
def State.clearHistory (s : State) : State :=
  let old := (s.rpe.gen, s.rd F.RPE_ESTAT_HFR, s.rpe.history)
  let s := s.modRpe fun r => { r with history := [], gen := r.gen + 1,
                                      oldHist := (old :: r.oldHist).filter fun e => s.usesGen e.1 }
  s.wr F.RPE_ESTAT_HFR 0

/-- A switch to the other page or profile reaches the ports (R74, R176, R206). -/
def State.switchPorts (s : State) (cause : Nat) : State := ((s.closeAll cause).dropAnchors).clearHistory

/-! ### Marks on the data path (R64) -/

/-- No result of a fire posted before `id` is still to be binned. -/
def State.clearBefore (s : State) (id : Nat) : Bool :=
  s.seq.fires.all (fun f => Nat.ble id f.id) && s.rta.recs.all fun r => Nat.ble id r.fire.id

/-- The marks and tokens that have not passed the ports. -/
def State.toPass (s : State) : List Mark := s.seq.marks.filter fun m => m.ord.isNone

/-- Results of a fire may be binned: no mark posted before it still has to pass the ports. -/
def State.mayBin (s : State) (id : Nat) : Bool := s.toPass.all fun m => Nat.blt id m.id

/-! ### Binning -/

/-- A stop is coincident (R172). -/
def coincident (r : FireRec) (port : Nat) (x : Stop) : Bool :=
  let base := port - subOf port
  let sibs := (List.range 4).map (base + ·)
  let near := (sibs.filter fun q => q != port && (match assoc r.shots q with
    | none => false
    | some sh => sh.stops.any fun y => !y.early && Nat.ble (Nat.max y.time x.time - Nat.min y.time x.time) (256 * (r.cwm1 + 1)))).length
  let z := (sibs.filter fun q => r.dead.contains q).length
  Nat.ble (max 1 (r.km1 + 1 - z)) (1 + near)

/-- Add one stop copy to a bin, which saturates (R170, R171). -/
def Hist.addBin (h : Hist) (b : Nat) : Hist :=
  if h.bins.nat b == 0xFFFFF then { h with sat := true } else { h with bins := h.bins.setNat b (h.bins.nat b + 1) }

/-- Bin one stop (R170, R174). -/
def Hist.addStop (h : Hist) (r : FireRec) (ofs : List Nat) (wend kend : Nat) (port : Nat) (x : Stop) : Hist × Nat :=
  let send := h.origin + 2048 * 2 ^ h.bink
  let qpost := send + 256 * (ofs.getLast?.getD 0)
  if x.early || Nat.ble wend x.time then (h, 0)
  else if !coincident r port x then ({ h with ncrej := satN 20 (h.ncrej + 1) }, 1)
  else
    let h := if Nat.blt x.time h.origin then { h with ambpre := satN 20 (h.ambpre + 1) }
             else if Nat.ble qpost x.time then { h with ambpost := satN 20 (h.ambpost + 1) } else h
    (ofs.foldl (fun h o =>
      let u : Int := (x.time : Int) - 256 * o
      if (kend : Int) ≤ u && (h.origin : Int) ≤ u && u < send && u < wend then
        h.addBin ((u.toNat - h.origin) / 2 ^ h.bink)
      else h) h, 0)

/-- The histogram that a first counted shot opens (R167, R177 to R179). -/
def FireRec.openHist (r : FireRec) (port : Nat) : Hist :=
  let f := r.fire
  let anchor := (assoc r.zanc port).getD 0xFFFFF
  let h : Hist := { (default : Hist) with
    port := port, bink := f.bink, origin := 256 * f.hofs, n := f.nm1 + 1, wendL := 256 * f.win, hofs := f.hofs,
    zoomE := f.zoom, nm1 := f.nm1, win := f.win, binkE := f.bink, burst := f.burst }
  if !f.zoom then h
  else
    let h := { h with zoom := true, zlag := r.unrel.contains port }
    if anchor == 0xFFFFF then { h with bink := r.zcbink, zcold := true }
    else
      let o := anchor - 1024 * 2 ^ f.bink
      { h with origin := if 2048 * 2 ^ f.bink < 2 ^ 20 then min o (2 ^ 20 - 2048 * 2 ^ f.bink) else o }

/-- Bin one counted shot into a histogram (R167, R170, R182, R183); the stops rejected by coincidence are counted. -/
def State.binInto (s : State) (r : FireRec) (port : Nat) (sh : Shot) (h : Hist) : Hist × Nat :=
  let f := r.fire
  let ofs := s.burstOfs f.burst
  let kend := 256 * f.kerf
  let wend := min h.wendL (256 * f.win)
  let qpost := h.origin + 2048 * 2 ^ h.bink + 256 * (ofs.getLast?.getD 0)
  let (h, rej) := sh.stops.foldl (fun (acc : Hist × Nat) x =>
    let (h, k) := acc.1.addStop r ofs wend kend port x
    (h, acc.2 + k)) (h, 0)
  let h := { h with
    livepre := h.livepre + (min h.origin wend - kend), livepost := h.livepost + (wend - qpost),
    nshot := satN 20 (h.nshot + 1), nemit := if sh.header.noemit then h.nemit else satN 20 (h.nemit + 1),
    nsynth := if sh.header.synth then satN 20 (h.nsynth + 1) else h.nsynth,
    mixed := h.mixed || f.bink != h.binkE || f.hofs != h.hofs || f.zoom != h.zoomE || f.nm1 != h.nm1 || f.win != h.win,
    noemit := h.noemit || sh.header.noemit, holdover := h.holdover || sh.header.holdover,
    subst := h.subst || sh.header.subst, more := h.more || sh.header.more, ovf := h.ovf || sh.header.ovf,
    tlast := r.openDev }
  let h := if h.cause.isSome then h
    else { h with line := r.line, pix := f.col + 4 * colOf port + subOf port, lsrc := f.lsrc }
  (h, rej)

/-- The four windows of a port's emitter have closed, so its coincidence can be judged (R173). -/
def FireRec.settled (r : FireRec) (port : Nat) : Bool :=
  ((List.range 4).map (port - subOf port + ·)).all fun q => !r.opened.contains q || (assoc r.shots q).isSome

/-- Take a port's shot out of a fire; a fire whose active ports have all been taken leaves. -/
def State.takeShot (s : State) (id port : Nat) : State :=
  s.modRta fun a => { a with recs := (a.recs.map fun r =>
    if r.fire.id == id then { r with taken := port :: r.taken } else r).filter fun r =>
      !(r.fire.id == id && r.active.all fun p => r.taken.contains p) }

/-! ### The single-shot path (R186) -/

/-- The shot set of a port: its coincident stops below WEND that are not EARLY. -/
def FireRec.single (r : FireRec) (port ord : Nat) (sh : Shot) : Single × Nat :=
  let cand := sh.stops.filter fun x => !x.early && Nat.blt x.time (256 * r.fire.win)
  let kept := cand.filter (coincident r port)
  ({ ord := ord, port := port, header := { sh.header with nstop := kept.length }, stops := kept, line := r.line,
     pix := r.fire.col + 4 * colOf port + subOf port, lsrc := r.fire.lsrc, burst := r.fire.burst, tfire := r.openDev,
     noemit := sh.header.noemit, synth := sh.header.synth, holdover := sh.header.holdover },
   cand.length - kept.length)

/-- The shot set of a port of a fire goes to the single-shot path. -/
def State.takeSingle (s : State) (r : FireRec) (p : Nat) : State :=
  match assoc r.shots p with
  | none => s
  | some sh =>
    let (x, rej) := r.single p s.rpe.nextOrd sh
    let s := (s.count F.RPE_CREJ_COUNT rej).takeShot r.fire.id p
    (s.modRpe fun e => { e with singles := e.singles ++ [x], nextOrd := e.nextOrd + 1 }).settleCloses p

/-- Shot sets that are complete go to the single-shot path. -/
def State.settleSingles (s : State) : State :=
  (s.rta.recs.filter fun r => r.fire.bink == 15).foldl (fun s r =>
    (r.active.filter fun p => !r.taken.contains p && r.settled p && s.mayBin r.fire.id).foldl (fun s p => s.takeSingle r p) s) s

/-- Shot sets that are complete go to the single-shot path, and page and profile tokens that nothing precedes take effect at the
ports, each leaving the path there, until neither can go on (R168, R186). -/
def State.settlePath : Nat → State → State
  | 0, s => s.settleSingles
  | fuel + 1, s =>
    let s := s.settleSingles
    match s.toPass with
    | [] => s
    | m :: _ =>
      match m.cause with
      | none => s
      | some c =>
        if s.clearBefore m.id then
          State.settlePath fuel ((s.switchPorts c).modSeq fun q => { q with marks := q.marks.eraseIdx (q.marks.findIdx fun x => x == m) })
        else s

def State.settle (s : State) : State := s.settlePath s.seq.marks.length

/-- BINNING (R170, R180): the port's next counted shot is binned; its Nth closes the histogram. -/
def execBinning (t : Nat) (port : Nat) (s : State) : Host.Outcome State Fault Refusal :=
  let s := s.begin t
  match s.nextShot port with
  | none => .next s
  | some r =>
    if r.fire.bink == 15 || !r.settled port || !s.mayBin r.fire.id then .next s
    else match assoc r.shots port with
      | none => .next s
      | some sh =>
        let h := match assoc s.rpe.acc port with
          | some h => h
          | none => r.openHist port
        let (h, rej) := s.binInto r port sh h
        let s := s.count F.RPE_CREJ_COUNT rej
        let s := s.takeShot r.fire.id port
        let s := s.modRpe fun e => { e with acc := assocPut e.acc port h }
        let s := if h.cause.isNone && h.n ≤ h.nshot then s.closeOpen h 0 else s
        .next (s.settleCloses port).settle

/-- A mark that nothing precedes passes the ports (R64): an EOL, an EOF or an SOF that closes an open frame closes every open
histogram. -/
def State.passMark (s : State) (m : Mark) : State :=
  let s := if m.eol || m.eof || (m.sof && s.seq.frmOpen) then s.closeAll 1 else s
  let n := s.rpe.nextOrd
  let i := s.seq.marks.findIdx fun x => x == m
  let ech := if m.eof then [(true, n, s.rpe.gen)] else if m.sof then [(false, n, s.rpe.gen)] else []
  let s := s.modSeq fun q => { q with
    marks := q.marks.set i { m with ord := some n }, echoMarks := q.echoMarks ++ ech,
    frmOpen := (q.frmOpen || m.sof) && !m.eof }
  s.settle

/-- RPE_HSTAT (R191). -/
def State.viewHist (s : State) (a : Nat) : Option Word :=
  if a == 0x6001 then some (BitVec.ofNat 20 s.nstretch) else none

end Sys2Proof.Machine
end

