-- ==== Sys2Proof/Machine/Levels.lean ====
section
/-! DEFINITION. Conditions that several units read: charging, the branch levels, the conditions behind FAULT_N. -/

namespace Sys2Proof.Machine

/-- A temperature condition of R108 forbids charging. -/
def State.tempEmit (s : State) : Bool := s.edu.diodeOut || s.edu.diodeFlt || s.edu.dieHot

/-- GOV_TRIP (R115, R116). -/
def State.govTrip (s : State) : Bool := s.flag F.EDU_STATUS_GOV_TRIP

/-- Charging, and with it every fire, is permitted (R108, R486). -/
def State.chgOk (s : State) : Bool :=
  s.edu.started && !s.edu.recalStop && !s.tempEmit && !s.flag F.EDU_FAULT_BOOST_FAULT && !s.govTrip

/-- Raise TEMP_EMIT where a change made a temperature condition hold that did not hold before (R108). -/
def State.noteTempEmit (s : State) (before : Bool) : State :=
  if s.tempEmit && !before then s.raise 0x12 .warn 0 else s

/-- The sequencer is HALTED (R80). -/
def State.halted (s : State) : Bool := s.seq.st == .halted

/-- A port is ACTIVE (R159). -/
def State.portActive (s : State) (p : Nat) : Bool := s.flag (F.RTA_PSTAT_ACTIVE p)

/-- AMBIENT_HIGH (R228): ON of level AHLVL on at least one ACTIVE port. -/
def State.ambientHigh (s : State) : Bool :=
  (List.range 256).any fun p => bitOf (s.rd (F.RPE_ALVL_ON p)) (s.rd F.RPE_AMBHI_AHLVL) && s.portActive p

/-- FAULT_N is driven low (R530). -/
def State.faultLow (s : State) : Bool :=
  s.boot.failed || s.dev == .thermal || s.govTrip || s.halted || s.saf.st == .clamp

/-- IRQ_N is driven low (R527). -/
def State.irqLow (s : State) : Bool := s.mgmt.evq.any fun e => bitOf (s.rd F.CTL_EVCFG_IEN) e.cls.code

end Sys2Proof.Machine
end

