-- ==== Sys2Proof/Machine/Saf.lean ====
section
/-! DEFINITION. The safety subsystem (chapter 9): cells and zone sets, demands, the states of R298, Clamp, the two
evaluations, the tracked target, inputs, outputs and the Ovmor safety telegram. -/

namespace Sys2Proof

/-- The port and sector of a cell number 32·port + sector. -/
def cellPort (k : Nat) : Nat := k / 32
def cellSect (k : Nat) : Nat := k % 32

/-- The type of a cell in a zone set (R278). -/
def ZoneSet.typeOf (z : ZoneSet) (k : Nat) : CellType := match assoc z.cells k with | none => .none | some c => c.typ

/-- The port serves a cell of a zone set. -/
def ZoneSet.serves (z : ZoneSet) (p : Nat) : Bool := z.cells.any fun e => cellPort e.1 == p && e.2.typ != .none

/-- hwin: the largest HFAR of a zone set (R283). -/
def ZoneSet.hwin (z : ZoneSet) : Nat := (z.cells.map fun e => e.2.hfar).foldl max 0

/-- The position that a channel forms from its contributions (R291): the rounded mean, channel B's in 1/256 bin through
Melaeloth's scale. -/
def Track.position (tr : Track) (c : SafCh) (xs : List Int) : Option Int :=
  if Nat.blt xs.length (max 1 tr.tmin) then none
  else match c with
    | .a => some (rdiv0 xs.sum xs.length)
    | .b => some (rdiv0 (256 * xs.sum) xs.length * tr.mul / 2 ^ 20 + tr.add)

namespace Machine


/-- A safety channel. -/
def State.chan (s : State) : SafCh → SafChan
  | .a => s.saf.chA
  | .b => s.saf.chB

def State.modChan (s : State) (c : SafCh) (f : SafChan → SafChan) : State :=
  match c with
  | .a => s.modSaf fun v => { v with chA := f v.chA }
  | .b => s.modSaf fun v => { v with chB := f v.chB }

/-! ### Cells -/

/-- The zone set that a channel has in force (R280, R282); one outside ZSOK of the profile is undefined (R508). -/
def State.zoneSet (s : State) (c : SafCh) : Option ZoneSet :=
  let zs := (s.chan c).zs
  if bitOf (s.rd (F.CTL_PROF_ZS_ZSOK (s.rd F.CTL_PROFILE_ACTIVE))) zs then assoc s.saf.zones zs else none

/-- A port is OFF (R153). -/
def State.portOff (s : State) (p : Nat) : Bool := s.flag (F.RTA_PSTAT_OFF p)

/-- The cells in use of a channel's zone set: PZM and HEG cells, without those of an OFF port with OFFOK = 1 (R286). -/
def State.inUse (s : State) (c : SafCh) : List Nat :=
  match s.zoneSet c with
  | none => []
  | some z => (z.cells.filter fun e => e.2.typ != .none && !(s.portOff (cellPort e.1) && z.offok.contains (cellPort e.1))).map
      Prod.fst

/-! ### Demands (R274, R284, R290) -/

/-- The cells of a port, or of all ports for key 256. -/
def State.keyCells (s : State) (c : SafCh) (key : Nat) : List Nat :=
  (s.inUse c).filter fun k => key == 256 || cellPort k == key

/-- The cells in use that are BLIND: a timer exceeds TFRESH (R288), or a substitution or takeover outlasts its hold (R285). -/
def State.blindCells (s : State) (c : SafCh) : List Nat :=
  (s.inUse c).filter fun k => (s.chan c).blind.contains k || s.saf.late.any fun key => key == 256 || cellPort k == key

/-- The demands of one channel. -/
structure Dem where
  pzm : Bool
  heg : Bool
  slp : Bool
  sls : Bool
  sdi : Bool
  track : Bool
  blind : Bool
  nochg : Bool
  drive : Bool
  press : Bool
  zsinv : Bool
  portoff : Bool
  /-- A cell in use has not been evaluated since INIT, or the SAF is in INIT (R311). -/
  unseen : Bool
  deriving DecidableEq, Repr, Inhabited

def Dem.any (d : Dem) : Bool :=
  d.pzm || d.heg || d.slp || d.sls || d.sdi || d.track || d.blind || d.nochg || d.drive || d.press || d.zsinv ||
  d.portoff || d.unseen

/-- The demands of a channel as its conditions stand (R284 to R292). -/
def State.dem (s : State) (c : SafCh) : Dem :=
  let ch := s.chan c
  let hit := fun (ty : CellType) => ch.intr.any fun k => (s.zoneSet c).any fun z => z.typeOf k == ty
  let d := fun (i : Nat) => ch.trk.dem.getD i false
  { pzm := hit .pzm, heg := hit .heg, slp := d 0, sls := d 1, sdi := d 2,
    track := !s.saf.track.tmask.isEmpty && Nat.ble 2 ch.trk.lost,
    blind := !(s.blindCells c).isEmpty || (c == .a && s.halted),
    nochg := !s.chgOk, drive := s.flag F.STU_FAULT_DRIVE_STOP || s.flag F.STU_FAULT_MIRROR_IMPLAUSIBLE,
    press := s.flag F.SAF_CFG_PRESSEN && s.saf.pressTmo, zsinv := (s.zoneSet c).isNone,
    portoff := (s.zoneSet c).any fun z => (List.range 256).any fun p =>
      s.portOff p && z.serves p && !z.offok.contains p,
    unseen := s.saf.st == .init || ch.unseen.any (s.inUse c).contains }

/-- The function demands from PZM down to SDI as five bits (R304, R312). -/
def Dem.func (d : Dem) : Nat := 16 * b2n d.pzm + 8 * b2n d.heg + 4 * b2n d.slp + 2 * b2n d.sls + b2n d.sdi

/-- The causes of STCAUSE, bit 15 to bit 8 as eight bits (R315). -/
def Dem.causes (d : Dem) : Nat :=
  128 * b2n (d.func != 0) + 64 * b2n d.track + 32 * b2n d.blind + 16 * b2n d.nochg + 8 * b2n d.drive +
  4 * b2n d.press + 2 * b2n d.zsinv + b2n d.portoff

/-- A demand in either channel. -/
def State.anyDem (s : State) : Bool := (s.dem .a).any || (s.dem .b).any

/-! ### States (R298) -/

def SafSt.code : SafSt → Nat
  | .init => 0
  | .stop => 1
  | .clear => 2
  | .interlock => 3
  | .clamp => 4

/-- Command the outputs (R295); their read-backs follow (log entry 20). -/
def State.drive (s : State) (on : Bool) : State :=
  if s.saf.ossdA == on && s.saf.ossdB == on then s
  else s.modSaf fun v => { v with ossdA := on, ossdB := on, rbA := on, rbB := on, ossdAt := s.clk, switched := true,
                                  edmLow := !v.edmA && !v.edmB, edmHigh := v.edmA && v.edmB }

/-- Enter a state: outputs on in CLEAR only; leaving CLEAR is the SAF trigger condition (R316); SAF_DEMCNT counts
transitions to STOP. -/
def State.safTo (s : State) (st : SafSt) : State :=
  if s.saf.st == st then s
  else
    let left := s.saf.st == .clear
    let s := (s.modSaf fun v => { v with st := st }).drive (st == .clear)
    let s := if st == .stop then s.inc F.SAF_DEMCNT_COUNT else s
    let s := if left && (st == .stop || st == .clamp) then s.condition ⟨14, s.now, 0, false⟩ else s
    s.raise 0x50 .safety st.code

/-- Enter Clamp with a cause (R298, R300): the record goes to the retention store first. -/
def State.clamp (s : State) (cause : Nat) : State :=
  if s.saf.st == .clamp then s
  else (s.modSaf fun v => { v with retained := some cause, clcause := cause }).safTo .clamp

/-- Re-evaluate the demands after a change of a condition: STOP on a demand, the end of a demand and the difference of the
channels noted (R297, R298). -/
def State.safEval (s : State) : State :=
  let a := (s.dem .a).any
  let b := (s.dem .b).any
  let d := a || b
  let s := s.modSaf fun v => { v with
    demOn := d, demAt := if d || v.demOn then s.clk else v.demAt,
    diffAt := if a == b then none else (match v.diffAt with | none => some s.clk | some x => some x) }
  if d && (s.saf.st == .clear || s.saf.st == .interlock) then s.safTo .stop else s

/-- Charging may have become forbidden (R108): the boost stops switching at once, and the demands follow. -/
def State.chgEval (s : State) : State :=
  (if s.chgOk then s else s.modEdu fun e => { e with swSince := none, hvBurst := none }).safEval

/-- The device is in RESET, BOOT or THERMAL: the SAF goes to INIT with the outputs off, but for Clamp (R290, R298). -/
def State.safInit (s : State) : State :=
  if s.saf.st == .clamp then s
  else ((s.safTo .init).modSaf fun v => { v with preA := false, preB := false, switched := false }).safEval

/-- EDM is closed (R302): with EDMEN = 1, both inputs have read high for 10 ms. -/
def State.edmClosed (s : State) : Bool :=
  !s.flag F.SAF_CFG_EDMEN || (s.saf.edmA && s.saf.edmB && Nat.ble (s.saf.edmAt + 10000000) s.clk)

/-- The time within which the EDM inputs follow the outputs has passed (R302). -/
def State.edmLate (s : State) : Bool := Nat.blt (s.saf.ossdAt + 1000000 * s.rd F.SAF_TEDM_TE) s.clk

/-- A cell has been discrepant at every check over more than TDISC (R296). -/
def State.cellOut (s : State) : Bool :=
  s.saf.cellDisc.any fun e => Nat.blt (e.2.1 + 1000 * s.rd F.SAF_TDISC_TD) e.2.2

/-- A pair's filtered levels have differed for more than 10 ms (R281). -/
def SafePair.differs (p : SafePair) (now : Nat) : Bool :=
  p.a.filt != p.b.filt && p.diffAt.any fun x => Nat.blt (x + 10000000) now

/-- A Clamp cause is still present (R299). -/
def State.causePresent (s : State) : Bool :=
  !s.saf.causes.isEmpty || [s.saf.in0, s.saf.in1, s.saf.in2, s.saf.in3].any (fun p => p.differs s.clk) ||
  s.saf.rbA != s.saf.ossdA || s.saf.rbB != s.saf.ossdB ||
  (s.flag F.SAF_CFG_EDMEN && s.saf.switched && s.edmLate && !s.saf.edmHigh && !(s.saf.edmA && s.saf.edmB)) || s.cellOut ||
  s.saf.diffAt.any (fun x => Nat.blt (x + 1000 * s.rd F.SAF_TDISC_TD) s.clk) ||
  s.saf.trkDiffAt.any (fun x => Nat.blt (x + 1000 * s.rd F.SAF_TDISC_TD) s.clk)

/-! ### Zone sets (R280 to R282) -/

def SafePair.bit (p : SafePair) : Nat := b2n p.val

/-- The zone-set number that the inputs and the press telegram name (R280). -/
def State.zsCode (s : State) : Nat :=
  8 * (if s.flag F.SAF_CFG_PRESSEN then s.saf.zbank else 0) + 4 * s.saf.in2.bit + 2 * s.saf.in1.bit + s.saf.in0.bit

/-- A channel notes a change of the code at an instant (R282). -/
def State.noteZs (s : State) (inst : Nat) : State :=
  let z := s.zsCode
  let f := fun (c : SafChan) =>
    if c.zs == z then { c with pendZs := none }
    else match c.pendZs with
      | some (z', _) => if z' == z then c else { c with pendZs := some (z, inst) }
      | none => { c with pendZs := some (z, inst) }
  (s.modChan .a f).modChan .b f

/-! ### The filter of the safe inputs (R281) -/

/-- When a pin's level counts: it has been stable for 1 ms by `till`. -/
def SafePin.due (p : SafePin) (till : Nat) : Option Nat :=
  if p.raw != p.filt && Nat.ble (p.since + 1000000) till then some (p.since + 1000000) else none

/-- The levels that count by an instant are taken over, and the pair is judged there. -/
def SafePair.take (p : SafePair) (inst : Nat) : SafePair :=
  let f := fun (x : SafePin) => if (x.due inst).isSome then { x with filt := x.raw } else x
  let p := { p with a := f p.a, b := f p.b }
  if p.a.filt == p.b.filt then { p with val := p.a.filt, diffAt := none }
  else { p with diffAt := match p.diffAt with | none => some inst | some x => some x }

def Saf.pair (v : Saf) (n : Nat) : SafePair :=
  match n with | 0 => v.in0 | 1 => v.in1 | 2 => v.in2 | _ => v.in3

def Saf.setPair (v : Saf) (n : Nat) (p : SafePair) : Saf :=
  match n with
  | 0 => { v with in0 := p }
  | 1 => { v with in1 := p }
  | 2 => { v with in2 := p }
  | _ => { v with in3 := p }

/-- The next instant at which a pin's level counts, and its pair. -/
def Saf.nextPin (v : Saf) (till : Nat) : Option (Nat × Nat) :=
  let l := (List.range 4).flatMap fun n => ([(v.pair n).a, (v.pair n).b].filterMap fun p => p.due till).map fun x => (x, n)
  l.foldl (fun m e => match m with | none => some e | some x => if Nat.blt e.1 x.1 then some e else some x) none

/-- One pair takes over the levels that count at an instant; a change of the value of SAFE_IN3 is an edge of the reset pulse
(R299), one of the others may name another zone set (R280). -/
def State.takePair (s : State) (n inst : Nat) : State :=
  let old := s.saf.pair n
  let p := old.take inst
  let s := s.modSaf fun v => v.setPair n p
  if p.val == old.val then s
  else if n != 3 then s.noteZs inst
  else if p.val then s.modSaf fun v => { v with resetRise := some inst, resetFall := none }
  else s.modSaf fun v => { v with resetFall := some inst }

/-- The filters of all pins run on to an instant; eight pins change at most once each. -/
def State.settleInputs (s : State) (till : Nat) : State :=
  (List.range 8).foldl (fun s _ => match s.saf.nextPin till with | none => s | some (x, n) => s.takePair n x) s

/-- A pin's level changes: a level that has been stable for less than 1 ms, or a low pulse of 1 ms, does not count. -/
def State.changePin (s : State) (n : Nat) (pinB level : Bool) : State :=
  let f := fun (p : SafePin) => if p.raw == level then p else { p with raw := level, since := s.clk }
  let p := s.saf.pair n
  s.modSaf fun v => v.setPair n (if pinB then { p with b := f p.b } else { p with a := f p.a })

/-- A channel starts on a zone set (R282, R288, R311): all cells clear, every freshness timer started; the cross-checks of
the old set's cells end (R296). -/
def State.startZs (s : State) (c : SafCh) (zs : Nat) (unseen : Bool) : State :=
  let s := s.modSaf fun v => { v with cellDisc := [], checks := [] }
  let s := s.modChan c fun ch => { ch with zs := zs, pendZs := none, cnt := [], clr := [], intr := [], blind := [] }
  let use := s.inUse c
  s.modChan c fun ch => { ch with seen := use.map fun k => (k, s.clk), unseen := if unseen then use else [] }

/-- ZONE_SET_SWITCH (R282): at the first multiple of 250,000 ns of device time after the channel has seen the new value
for 1 ms. -/
def execZoneSetSwitch (t : Nat) (c : SafCh) (s : State) : Host.Outcome State Fault Refusal :=
  let s := s.begin t
  let s := s.settleInputs s.clk
  match (s.chan c).pendZs with
  | none => .next s
  | some (zs, t0) =>
    let at0 := ((t0 + 1000000 : Nat) + s.tofs).toNat
    let edge := cdiv at0 250000 * 250000
    if Nat.blt s.now edge then .next s
    else .next (s.startZs c zs (!(s.chan c).unseen.isEmpty)).safEval

/-! ### Bridging (R285) -/

/-- The cells of a port, or of all ports for key 256, are BLIND in both channels until its substitution or takeover is
complete, in a zone set that comes into force meanwhile too. -/
def State.blindKey (s : State) (key : Nat) : State :=
  (s.modSaf fun v => { v with holds := assocDel v.holds key, late := (key :: v.late).dedup }).safEval

/-- A substitution of a port, or with key 256 a takeover on MON, starts: its cells are held for TBRIDGE µs; with
TBRIDGE = 0 they are BLIND at once (R285). -/
def State.bridge (s : State) (key : Nat) : State :=
  let tb := s.rd F.SAF_TBRIDGE_TB
  if tb == 0 then s.blindKey key
  else s.modSaf fun v => { v with holds := assocPut v.holds key (s.clk + 1000 * tb) }

/-- The substitution or takeover is complete. -/
def State.unbridge (s : State) (key : Nat) : State :=
  s.modSaf fun v => { v with holds := assocDel v.holds key, late := v.late.filter (· != key) }

/-- A port's cells are held, or wait for the end of a substitution that outlasted its hold (R285). -/
def State.heldPort (s : State) (p : Nat) : Bool :=
  (assoc s.saf.holds p).isSome || (assoc s.saf.holds 256).isSome || s.rta.subs.any (fun e => e.2.port == p) ||
  s.stu.mon.takeover

/-- TBRIDGE_EXPIRY (R285): the substitution or takeover is not complete after TBRIDGE, so the cells are BLIND. -/
def execTbridgeExpiry (t : Nat) (key : Nat) (s : State) : Host.Outcome State Fault Refusal :=
  let s := s.begin t
  match assoc s.saf.holds key with
  | none => .next s
  | some till => if Nat.blt s.clk till then .next s else .next (s.blindKey key)

/-! ### Evaluation of a cell (R283, R287, R288) -/

/-- One evaluation of a cell by a channel with confirmation count `c`. -/
def SafChan.judge (ch : SafChan) (k c now : Nat) (hit : Bool) : SafChan :=
  let cnt := if hit then min c (ch.cnt.nat k + 1) else 0
  let clr := if hit then 0 else min c (ch.clr.nat k + 1)
  let intr := if cnt == c then (if ch.intr.contains k then ch.intr else k :: ch.intr)
    else if clr == c then ch.intr.filter (· != k) else ch.intr
  { ch with cnt := ch.cnt.setNat k cnt, clr := ch.clr.setNat k clr, intr := intr, seen := assocPut ch.seen k now,
            blind := ch.blind.filter (· != k), unseen := ch.unseen.filter (· != k) }

/-- TFRESH of a zone set on the active page (R288, R309). -/
def State.freshOf (s : State) (z : ZoneSet) : Nat := (assoc z.tfreshOf s.seq.active.lib).getD z.tfresh

/-- FRESHNESS_EXPIRY (R288): a cell in use whose timer exceeds TFRESH is BLIND. -/
def execFreshnessExpiry (t : Nat) (c : SafCh) (cell : Nat) (s : State) : Host.Outcome State Fault Refusal :=
  let s := s.begin t
  match s.zoneSet c, assoc (s.chan c).seen cell with
  | some z, some last =>
    if (s.inUse c).contains cell && Nat.blt (last + 1000 * s.freshOf z) s.clk && !(s.chan c).blind.contains cell then
      .next (s.modChan c fun ch => { ch with blind := cell :: ch.blind }).safEval
    else .next s
  | _, _ => .next s

/-! ### Channel B (R283) -/

/-- HSKEW of a port for its own comparator or for a spare's (R125, R285, R482). -/
def State.hskewOf (s : State) (port : Nat) (spare : Option Nat) : Int :=
  match spare with
  | none => SMap.get (fun _ => 0) s.saf.hskew port
  | some r => SMap.get (fun _ => 0) s.saf.hskew (256 + 32 * r + port % 32)

/-- A start edge of a row reaches channel B (R283): a window begins. -/
def State.chbStart (s : State) (row : Nat) (bin : Int) : State :=
  s.modSaf fun v => { v with wins := v.wins ++ [(row, ⟨bin, s.sectorAt s.now, v.chB.zs, [], s.clk, false⟩)] }

/-- An edge of a port's low comparator after one of channel B's start edges (R283, R291): the hit branch is taken at the first
edge in the zone, and an edge in the tracked window is a contribution, whatever the zone set. -/
def State.chbEdgeIn (s : State) (i port : Nat) (spare : Option Nat) (bin : Int) : State :=
  match s.saf.wins[i]? with
  | none => s
  | some (row, w) =>
    let rel := bin - w.bin
    let d := rel - s.hskewOf port spare
    let k := 32 * port + w.sect
    let tr := s.saf.track
    if row != rowOf port then s
    else
      let s := if 0 < rel && tr.tmask.contains port && tr.hwn ≤ d && d < tr.hwf then
          s.modChan .b fun ch => { ch with trk := { ch.trk with items := ch.trk.items ++ [(s.now, d)] } }
        else s
      match if w.done then none else s.zoneSet .b with
      | none => s
      | some z => match assoc z.cells k with
      | none => s
      | some c =>
        if c.typ == .none || rel ≤ 0 || (z.hwin : Int) ≤ rel || w.zs != (s.chan .b).zs || w.hits.contains port ||
            s.heldPort port || s.portOff port || !((c.hnear : Int) ≤ d && d < c.hfar) then s
        else
          let s := s.modSaf fun v => { v with wins := v.wins.set i (row, { w with hits := port :: w.hits }) }
          (s.modChan .b fun ch => ch.judge k (s.rd F.SAF_CFG_CM1 + 1) s.clk true).safEval

/-- A low-comparator edge reaches channel B (R125, R283). -/
def State.chbEdge (s : State) (port : Nat) (spare : Option Nat) (bin : Int) : State :=
  (List.range s.saf.wins.length).foldl (fun s i => s.chbEdgeIn i port spare bin) s

/-- A point `bins` after a window's start edge has come: the edge lay (bin mod 32)/32 into its TCLK cycle (R283). -/
def ChbWin.passed (w : ChbWin) (bins now : Nat) : Bool :=
  Nat.blt (32 * w.t0 + (w.bin % 32).toNat + bins) (32 * (now + 1))

/-- The farthest bin after a start edge that the tracked window reaches (R291). -/
def Saf.trackReach (v : Saf) : Nat := v.track.hwf.toNat + (v.hskew.map fun e => e.2.natAbs).foldl max 0

/-- The row's oldest window ends its evaluation; windows that the tracked target no longer needs are dropped (R291). -/
def State.endWin (s : State) (row : Nat) : State :=
  s.modSaf fun v =>
    let i := v.wins.findIdx fun e => e.1 == row && !e.2.done
    { v with wins := (v.wins.modify i fun e => (e.1, { e.2 with done := true })).filter fun e =>
        !e.2.done || (!v.track.tmask.isEmpty && !e.2.passed v.trackReach s.clk) }

/-- CHANNEL_B_WINDOW_END (R283): at s + hwin of the row's oldest window the ports that were not hit take the no-hit
branch. A window of a zone set that is no longer in force ends without a judgement (R282). -/
def execChannelBWindowEnd (t : Nat) (row : Nat) (s : State) : Host.Outcome State Fault Refusal :=
  let s := s.begin t
  match s.saf.wins.find? fun e => e.1 == row && !e.2.done with
  | none => .next s
  | some (_, w) =>
    let c := s.rd F.SAF_CFG_CM1 + 1
    match if w.zs == (s.chan .b).zs then s.zoneSet .b else none with
    | none => .next (s.endWin row)
    | some z =>
      let ports := (groupPorts row).filter fun p =>
        z.typeOf (32 * p + w.sect) != .none && !w.hits.contains p && !s.heldPort p && !s.portOff p
      let s' := s.endWin row
      if !w.passed z.hwin s.clk then .next s
      else .next (ports.foldl (fun s p => s.modChan .b fun ch => ch.judge (32 * p + w.sect) c s.clk false) s').safEval

/-! ### Channel A (R287, R296) -/

/-- A fire's sector for channel A's log (R287). -/
def State.logSector (s : State) (inst : Nat) : State :=
  s.modSaf fun v => { v with sectLog := ((inst, s.sectorAt inst) :: v.sectLog).take 8192 }

/-- The sector in force at an instant, from the log. -/
def State.sectAtLog (s : State) (inst : Nat) : Nat :=
  match s.saf.sectLog.find? fun e => Nat.ble e.1 inst with
  | none => 0
  | some e => e.2

/-- The ranges of a record's echoes that are not SATA. -/
def Point.ranges (p : Point) : List Nat := (p.echoes.filter fun e => !e.sata).map (·.ra)

/-- A cross-check is discrepant (R296): XBAND bins of 4.683 mm widen or narrow the cell, in 0.1 mm. -/
def discrepant (c : Cell) (ra : List Nat) (xband : Nat) (intrB : Bool) : Bool :=
  let m : Int := 4683 * xband
  let wide := ra.any fun x => (100 * c.anear : Int) - m ≤ 100 * x && (100 * x : Int) < 100 * c.afar + m
  let narrow := ra.any fun x => (100 * c.anear : Int) + m ≤ 100 * x && (100 * x : Int) < 100 * c.afar - m
  if intrB then !wide else narrow

/-- The active profile is GUARD (R41, R42): code 3 of CTL_PROFILE. -/
def State.inGuard (s : State) : Bool := s.rd F.CTL_PROFILE_ACTIVE == 3

/-- Cross-check a cell (R296): at every record in GUARD, else at every eighth. -/
def State.crossCheck (s : State) (k : Nat) (c : Cell) (ra : List Nat) : State :=
  let n := s.saf.checks.nat k + 1
  if !s.inGuard && Nat.blt n 8 then s.modSaf fun v => { v with checks := v.checks.setNat k n }
  else
    let bad := discrepant c ra (s.rd F.SAF_XBAND_XB) (s.saf.chB.intr.contains k)
    let s := s.modSaf fun v => { v with
      checks := v.checks.setNat k 0,
      cellDisc := if bad then assocPut v.cellDisc k (((assoc v.cellDisc k).map Prod.fst).getD s.clk, s.clk)
                  else assocDel v.cellDisc k }
    if bad then s.inc F.SAF_XCHK_COUNT else s

/-- CHANNEL_A_EVALUATION (R287, R291, R296): channel A takes the next point record. -/
def execChannelAEvaluation (t : Nat) (s : State) : Host.Outcome State Fault Refusal :=
  let s := s.begin t
  match s.rpe.safPoints with
  | [] => .next s
  | p :: ps =>
    let s := s.modRpe fun r => { r with safPoints := ps }
    let tr := s.saf.track
    let s := if !p.noemit && tr.tmask.contains p.port then
        let xs := (p.ranges.filter fun x => Nat.ble tr.twn x && Nat.blt x tr.twf).map fun x => (p.tlast, (x : Int))
        s.modChan .a fun ch => { ch with trk := { ch.trk with items := ch.trk.items ++ xs } }
      else s
    let k := 32 * p.port + s.sectAtLog p.tlast
    match (s.zoneSet .a).bind fun z => assoc z.cells k with
    | none => .next s
    | some c =>
      if p.noemit || c.typ == .none || s.heldPort p.port || s.portOff p.port then .next s
      else
        let hit := p.ranges.any fun x => Nat.ble c.anear x && Nat.blt x c.afar
        let s := s.modChan .a fun ch => ch.judge k (s.rd F.SAF_CFG_CAM1 + 1) s.clk hit
        .next (s.crossCheck k c p.ranges).safEval

/-! ### The tracked target (R291, R292) -/

/-- Count a check and form its demand after TC consecutive results (R292). -/
def TrkPos.check (k : TrkPos) (i tc : Nat) (ok : Bool) : TrkPos :=
  let f := if ok then 0 else k.fails.getD i 0 + 1
  let p := if ok then k.passes.getD i 0 + 1 else 0
  let d := if Nat.ble tc f then true else if Nat.ble tc p then false else k.dem.getD i false
  let pad := fun (l : List Nat) => (l ++ [0, 0, 0]).take 3
  { k with fails := (pad k.fails).set i f, passes := (pad k.passes).set i p,
           dem := ((k.dem ++ [false, false, false]).take 3).set i d }

/-- One tracking interval of a channel with its position, or LOST (R291, R292). -/
def TrkPos.interval (k : TrkPos) (tr : Track) (vmax tc : Nat) (pos : Option Int) : TrkPos :=
  match pos with
  | none => { k with pos := none, speed := none, lost := k.lost + 1 }
  | some p =>
    let v := k.pos.map fun q => 100 * (p - q)
    let k := { k with pos := some p, speed := v, lost := 0 }
    let k := k.check 0 tc (tr.pmin ≤ p && p ≤ tr.pmax)
    match v with
    | none => k
    | some v => (k.check 1 tc (v.natAbs ≤ vmax)).check 2 tc (-tr.ddb ≤ v * tr.dirsign)

/-- TRACKING_INTERVAL (R291, R292): at a multiple of 1,000,000 ns of device time a channel closes its interval. -/
def execTrackingInterval (t : Nat) (c : SafCh) (s : State) : Host.Outcome State Fault Refusal :=
  let s := s.begin t
  let tr := s.saf.track
  if tr.tmask.isEmpty then .next s
  else
    let stop := s.now / 1000000 * 1000000
    let items := (s.chan c).trk.items
    let xs := (items.filter fun e => Nat.ble (stop - 1000000) e.1 && Nat.blt e.1 stop).map Prod.snd
    let spd := if s.flag F.SAF_CFG_PRESSEN then s.saf.spdsel else 0
    let s := s.modChan c fun ch => { ch with trk := { (ch.trk.interval tr (tr.vmax.getD spd 0)
      (s.rd F.SAF_CFG_TCM1 + 1) (tr.position c xs)) with items := items.filter fun e => Nat.ble stop e.1 } }
    let k := (s.chan c).trk
    let (fp, fv) := match c with
      | .a => (F.SAF_TPOS_A_P, F.SAF_TSPD_A_P)
      | .b => (F.SAF_TPOS_B_P, F.SAF_TSPD_B_P)
    let s := match k.pos with | none => s | some p => s.wrZ fp p
    let s := match k.speed with | none => s | some v => s.wrZ fv v
    let far := match s.saf.chA.trk.pos, s.saf.chB.trk.pos with
      | some a, some b => decide (s.rd F.SAF_XPOS_XPOS < (a - b).natAbs)
      | _, _ => false
    let s := s.modSaf fun v => { v with
      trkDiffAt := if far then (match v.trkDiffAt with | none => some s.clk | some x => some x) else none }
    .next s.safEval

/-- DISC (R292, R296, R297): a difference has lasted longer than TDISC. -/
def execDisc (t : Nat) (s : State) : Host.Outcome State Fault Refusal :=
  let s := s.begin t
  let old := fun (x : Nat) => Nat.blt (x + 1000 * s.rd F.SAF_TDISC_TD) s.clk
  if s.saf.st == .init then .next s
  else if s.cellOut || s.saf.diffAt.any old then .next (s.clamp 1)
  else if s.saf.trkDiffAt.any old then .next (s.clamp 8)
  else .next s

/-! ### Inputs, reset, outputs, EDM -/

/-- SAFE_IN_CHANGE (R280, R281, R299): the level at a pin of safe input n changes; the filters of all pins run on to this
instant. -/
def execSafeInChange (t : Nat) (n : Nat) (pinB level : Bool) (s : State) : Host.Outcome State Fault Refusal :=
  let s := s.begin t
  let s := s.settleInputs (s.clk - 1)
  let s := if Nat.blt n 4 then s.changePin n pinB level else s
  .next (s.settleInputs s.clk)

/-- INPUT_DISC (R281): a pair has differed for more than 10 ms. -/
def execInputDisc (t : Nat) (n : Nat) (s : State) : Host.Outcome State Fault Refusal :=
  let s := s.begin t
  let s := s.settleInputs s.clk
  if Nat.blt n 4 && (s.saf.pair n).differs s.clk then .next (s.clamp 4) else .next s

/-- A safe reset is accepted (R298, R299, R309): in Clamp it erases the record and leads to STOP; in INTERLOCK it leads to
CLEAR, or to STOP where a demand stands, once EDM is closed (R302); elsewhere it has no effect. -/
def State.safeReset (s : State) : State :=
  match s.saf.st with
  | .clamp =>
    if s.causePresent then s.raise 0x52 .safety s.saf.clcause
    else
      let s := (s.modSaf fun v => { v with retained := none, clcause := 0 }).inc F.SAF_RESETS_COUNT
      (s.safTo .stop).safEval
  | .interlock =>
    if s.anyDem then (s.inc F.SAF_RESETS_COUNT).safTo .stop
    else if s.edmClosed then (s.inc F.SAF_RESETS_COUNT).safTo .clear
    else s
  | _ => s

/-- SAFE_RESET (R299): the pulse on SAFE_IN3 fell. -/
def execSafeReset (t : Nat) (s : State) : Host.Outcome State Fault Refusal :=
  let s := s.begin t
  let s := s.settleInputs s.clk
  match s.saf.resetRise, s.saf.resetFall with
  | some r, some f =>
    let s := s.modSaf fun v => { v with resetRise := none, resetFall := none }
    if Nat.ble (r + 100000000) f && Nat.ble f (r + 5000000000) then .next s.safeReset
    else .next (s.raise 0x51 .safety 0)
  | _, _ => .next s

/-- TCLR_EXPIRY (R298): no demand for TCLR and EDM closed lead from STOP to CLEAR or INTERLOCK. -/
def execTclrExpiry (t : Nat) (s : State) : Host.Outcome State Fault Refusal :=
  let s := s.begin t
  if s.saf.st == .stop && !s.anyDem && Nat.ble (s.saf.demAt + 1000000 * s.rd F.SAF_TCLR_TCLR) s.clk && s.edmClosed then
    .next (s.safTo (if s.flag F.SAF_CFG_RSTMODE then .interlock else .clear))
  else .next s

/-- The digests agree in both channels (R298, R311). -/
def State.digestsOk (s : State) : Bool := s.saf.chA.digest && s.saf.chB.digest

/-- The end of INIT (R298, R300, R311): with READY high, digests agreeing and both pre-tests passed, to STOP, or to Clamp
where the retention store holds a record. An unprovisioned device (R477) and one with a failed interpolator (R478) stay. -/
def State.leaveInit (s : State) : State :=
  if s.saf.st == .init && s.ready && s.digestsOk && s.saf.preA && s.saf.preB && s.flag F.CTL_BOOT_PROV &&
      !s.flag F.CTL_BOOT_SAFCAL then
    match s.saf.retained with
    | some c => s.clamp c
    | none => (s.safTo .stop).safEval
  else s

/-- OSSD_TEST (R301): the off-pulse of an output in CLEAR at its instant, or the pre-test pulse in INIT. -/
def execOssdTest (t : Nat) (outB rbLow rbHigh otherFell : Bool) (s : State) : Host.Outcome State Fault Refusal :=
  let s := s.begin t
  let pass := rbLow && rbHigh && !otherFell
  match s.saf.st with
  | .clear =>
    if s.now % 20000000 != (if outB then 10000000 else 0) then .next s
    else if pass then .next s else .next (s.clamp 3)
  | .init =>
    if !s.ready then .next s
    else if pass then
      .next (s.modSaf fun v => if outB then { v with preB := true } else { v with preA := true }).leaveInit
    else .next (s.clamp 3)
  | _ => .next s

/-- OSSD_FAULT (R301): a read-back has differed from its command for more than 1 ms. -/
def execOssdFault (t : Nat) (outB : Bool) (s : State) : Host.Outcome State Fault Refusal :=
  let s := s.begin t
  if s.dev == .reset then .next s
  else
    let s := s.modSaf fun v => if outB then { v with rbB := !v.ossdB } else { v with rbA := !v.ossdA }
    .next (s.clamp 3)

/-- EDM_INPUT_CHANGE (R302): a filtered level of EDM_A or EDM_B. -/
def execEdmInputChange (t : Nat) (pinB level : Bool) (s : State) : Host.Outcome State Fault Refusal :=
  let s := s.begin t
  let was := s.saf.edmA == s.saf.edmB
  let s := s.modSaf fun v => if pinB then { v with edmB := level } else { v with edmA := level }
  let same := s.saf.edmA == s.saf.edmB
  .next (s.modSaf fun v => { v with
    edmAt := if same && !was then s.clk else v.edmAt,
    edmLow := v.edmLow || (v.ossdA && !s.edmLate && !v.edmA && !v.edmB),
    edmHigh := v.edmHigh || (!v.ossdA && !s.edmLate && v.edmA && v.edmB) })

/-- EDM_FAULT (R302): the inputs did not follow the outputs within TEDM, or did not stay low in CLEAR. -/
def execEdmFault (t : Nat) (s : State) : Host.Outcome State Fault Refusal :=
  let s := s.begin t
  let bad := if s.saf.ossdA then (if s.saf.edmLow then s.saf.edmA || s.saf.edmB else s.edmLate)
    else s.edmLate && !s.saf.edmHigh
  if s.flag F.SAF_CFG_EDMEN && s.saf.switched && bad then .next (s.clamp 2) else .next s

/-- HEARTBEAT (R40, R290): channel B's heartbeat is absent. -/
def execHeartbeat (t : Nat) (s : State) : Host.Outcome State Fault Refusal :=
  let s := s.begin t
  if s.dev == .reset then .next s
  else .next ((s.modSaf fun v => { v with causes := (7 :: v.causes).dedup }).clamp 7)

/-- LOCKSTEP (R289): the two cores of channel A mismatch. -/
def execLockstep (t : Nat) (s : State) : Host.Outcome State Fault Refusal :=
  let s := s.begin t
  if s.dev == .reset then .next s
  else .next ((s.modSaf fun v => { v with causes := (9 :: v.causes).dedup }).clamp 9)

/-! ### The Ovmor safety telegram (R303 to R308) -/

/-- The response figures of a library page (R293); a page without cells in use has none. -/
def State.pageFigures (s : State) (lib : Nat) : PageSafe := (assoc s.saf.pageSafe lib).getD ⟨0, s.rd F.SAF_CFG_CM1 + 1, 0, 0⟩

/-- T_R of the active page, from the start of the sequencer on (R293, R309). -/
def State.respTime (s : State) : Nat := if s.edu.started then (s.pageFigures s.seq.active.lib).tr else 0

/-- The figures of a page break none of the conditions of R294. -/
def State.figuresOk (s : State) (p : PageSafe) : Bool :=
  Nat.ble p.tr (s.rd F.SAF_TRESPMAX_MAX) && Nat.ble (s.rd F.SAF_CFG_CM1 + 1) p.fires &&
  Nat.ble ((s.rd F.SAF_CFG_CAM1 + 2) * p.tclose) p.dwell && Nat.ble (p.tr + 1000) (s.rd F.SAF_TDISC_TD)

/-! The line of the safety port (R306). -/

/-- Twenty words as forty bytes in stream order. -/
def lineBytes (ws : List Word) : List Byte := (List.range 40).map fun i => BitVec.ofNat 8 (natOf ws / 256 ^ i)

/-- The frame of a telegram: /K27.7/, its 40 bytes, /K29.7/. -/
def lineFrame (ws : List Word) : List LineChar := .k277 :: (lineBytes ws).map .data ++ [.k297]

/-- The character on SAFE_TX (R306): 800 ns each at 12.5 MBd; between frames /K28.5/D5.6/ pairs. -/
def State.safeTxChar (s : State) : LineChar :=
  let i := (s.clk - s.saf.txAt) / 800
  let idle := if i % 2 == 0 then LineChar.k285 else .data 0xC5
  if s.saf.tx2.isEmpty then idle else (lineFrame s.saf.tx2).getD i idle

/-- The words of the telegram of a received frame; none where its framing fails or a character has an error. -/
def lineTelegram (line : List LineChar) : Option (List Word) :=
  match line.dropWhile fun c => c == .k285 || c == .data 0xC5 with
  | .k277 :: r =>
    let bs := (r.take 40).filterMap fun c => match c with | .data b => some b | _ => none
    if bs.length == 40 && (r.drop 40).head? == some .k297 then some (wordsOf (bs.foldr (fun b n => b.toNat + 256 * n) 0) 16) else none
  | _ => none

/-- The payload words W0 to W13 of a device telegram (R304). -/
def State.ostPayload (s : State) : List Word :=
  let v := s.saf
  let a := s.dem .a
  let b := s.dem .b
  let blind := !(s.blindCells .a).isEmpty || !(s.blindCells .b).isEmpty
  [mkWord [(16, 1), (12, 0), (8, 1), (3, s.lnk.pos % 32)], BitVec.ofNat 20 v.seqTx] ++ wordsOf s.now 3 ++
  [mkWord [(17, v.st.code), (16, b2n v.ossdA), (15, b2n v.ossdB), (14, b2n a.any), (13, b2n b.any), (9, v.chA.zs % 16),
           (4, a.func ||| b.func), (3, b2n blind), (2, b2n (!v.holds.isEmpty)), (1, b2n (s.dev == .degraded)),
           (0, b2n s.chgOk)],
   mkWord [(16, v.clcause), (8, a.causes ||| b.causes), (7, b2n v.edmA), (6, b2n v.edmB), (5, b2n v.rbA), (4, b2n v.rbB),
           (2, v.spdsel % 4), (1, b2n v.pressOk)],
   s.word 0xC003, s.word 0xC004, s.word 0xC005, s.word 0xC006, BitVec.ofNat 20 s.respTime, s.word 0xC021,
   mkWord [(12, v.dcode), (0, v.dcnt)]]

/-- The two CRC words (R304). -/
def crcWords (c : Nat) : List Word := [BitVec.ofNat 20 c, BitVec.ofNat 20 (c / 2 ^ 20)]

/-- The telegram of path 1 and of path 2 (R305). -/
def ost1 (p : List Word) : List Word := p ++ crcWords (crcA (streamBits p))
def ost2 (p : List Word) : List Word := let q := p.map (~~~ ·); q ++ crcWords (crcB (streamBits q))

/-- The safety partner's entry, while it holds a SAFETY subscription (R418). -/
def State.safetyPartner (s : State) : Option Nat :=
  (s.lnk.partners.find? fun e => e.2.st == .active && e.2.safSub).map Prod.fst

/-- DEVICE_TELEGRAM (R303): at a multiple of 250,000 ns of device time. -/
def execDeviceTelegram (t : Nat) (s : State) : Host.Outcome State Fault Refusal :=
  let s := s.begin t
  if s.dev == .reset || s.tbu.gov0.isNone || s.now % 250000 != 0 then .next s
  else
    let p := s.ostPayload
    let s := match s.safetyPartner with
      | some n => if s.canSend n && !(s.ptn n).eth then s.sendDlp n 0x40 (ost1 p) else s
      | none => s
    let s := (s.send (.ost (ost1 p))).send (.safeTx (lineFrame (ost2 p)))
    .next (s.modSaf fun v => { v with seqTx := (v.seqTx + 1) % 2 ^ 20, tx1 := ost1 p, tx2 := ost2 p, txAt := s.clk })

/-- The payload of a received copy when its CRC holds, path 2 inverted back (R305, R307). -/
def pressPayload (path : Nat) (ws : List Word) : Option (List Word) :=
  let p := ws.take 14
  let got := (ws.getD 14 0).toNat + 2 ^ 20 * ((ws.getD 15 0).toNat % 4096)
  if ws.length != 16 then none
  else if path == 1 then (if crcA (streamBits p) == got then some p else none)
  else if crcB (streamBits p) == got then some (p.map (~~~ ·)) else none

/-- The TIME of a press telegram lies within 2 ms of device time, for 10 ms after a snap also without its step (R307,
R454). -/
def State.pressTimeOk (s : State) (p : List Word) : Bool :=
  let tm : Int := natOf ((p.drop 2).take 3)
  let near := fun (x : Int) => decide ((x - s.now).natAbs ≤ 2000000)
  near tm || (Nat.blt s.clk s.saf.snapTo && near (tm + s.saf.snapD))

/-- A matching pair is accepted (R304, R307): its zone bank, speed set and SEQ are in force. -/
def State.acceptPress (s : State) (p : List Word) : State :=
  let w5 := (p.getD 5 0).toNat
  let seq := (p.getD 1 0).toNat
  let s := s.modSaf fun v => { v with zbank := bitsOf w5 19 19, spdsel := bitsOf w5 18 17, seqRx := some seq,
                                      pressAt := s.clk, pressOk := true, pressTmo := false, copy := none }
  ((s.wr F.SAF_SEQRX_SEQ seq).noteZs s.clk).safEval

/-- A copy whose CRC holds meets the waiting copy of the other path (R307, R309). A pair that fails by its SEQ or a TIME counts
in SAF_OSTMIS (DESIGN CHOICE, log entry 185). -/
def State.pairPress (s : State) (path : Nat) (p : List Word) : State :=
  let wait := s.modSaf fun v => { v with copy := some ⟨path, p, s.clk, s.pressTimeOk p⟩ }
  match s.saf.copy with
  | none => wait
  | some c =>
    if c.path == path || Nat.blt (c.time + 150000) s.clk || c.words.getD 1 0 != p.getD 1 0 then
      wait.inc F.SAF_OSTMIS_COUNT
    else
      let s := s.modSaf fun v => { v with copy := none }
      if c.words != p then s.inc F.SAF_OSTMIS_COUNT
      else
        let seq := (p.getD 1 0).toNat
        let fresh := match s.saf.seqRx with | none => true | some x => newer seq x
        if fresh && c.timeOk && s.pressTimeOk p then s.acceptPress p else s.inc F.SAF_OSTMIS_COUNT

/-- PRESS_TELEGRAM (R305 to R308): one copy arrives, on path 1 as words, on path 2 as the characters of SAFE_RX. -/
def execPressTelegram (t : Nat) (path : Nat) (words : List Word) (line : List LineChar) (s : State) :
    Host.Outcome State Fault Refusal :=
  let s := s.begin t
  let cnt := if path == 1 then F.SAF_OSTCRC1_COUNT else F.SAF_OSTCRC2_COUNT
  let got := if path == 1 then some words else lineTelegram line
  if s.dev == .reset || !s.flag F.SAF_CFG_PRESSEN then .next s
  else match got.bind (pressPayload path) with
    | none => .next (s.inc cnt)
    | some p =>
      let w0 := (p.getD 0 0).toNat
      if bitsOf w0 19 16 == 1 && bitsOf w0 11 8 == 2 && bitsOf w0 7 3 == s.lnk.pos then .next (s.pairPress path p)
      else .next s

/-- PRESS_TMO (R307, R308): no press telegram has been accepted for OSTTMO, counted from the load of the safety section
(log entry 186). -/
def execPressTmo (t : Nat) (s : State) : Host.Outcome State Fault Refusal :=
  let s := s.begin t
  if s.flag F.SAF_CFG_PRESSEN && !s.saf.pressTmo &&
      Nat.ble (s.saf.pressAt + 1000 * s.rd F.SAF_OSTTMO_TMO) s.clk then
    let s := (s.modSaf fun v => { v with pressTmo := true, pressOk := false, seqRx := none }).inc F.SAF_OSTTO_COUNT
    .next s.safEval
  else .next s

/-! ### Registers (R312) -/

/-- SAF_STATUS, SAF_CAUSE, SAF_FUNC, SAF_TRESP, SAF_TFRESH and SAF_SEQTX as they read: their reset values until INIT has loaded
the safety section (R314). -/
def State.viewSaf (s : State) (a : Nat) : Option Word :=
  let v := s.saf
  let da := s.dem .a
  let db := s.dem .b
  if !v.loaded then (if a == 0xC000 then some 0x06000 else if a == 0xC001 || a == 0xC002 || a == 0xC007 || a == 0xC014 || a == 0xC020 then some 0 else none)
  else if a == 0xC000 then
    some (mkWord [(17, v.st.code), (16, b2n v.ossdA), (15, b2n v.ossdB), (14, b2n da.any), (13, b2n db.any),
      (9, v.chA.zs % 16), (8, b2n (v.chA.pendZs.isSome || v.chB.pendZs.isSome)), (7, b2n v.edmA), (6, b2n v.edmB),
      (5, b2n v.rbA), (4, b2n v.rbB), (3, b2n (!v.holds.isEmpty)), (2, b2n v.pressOk), (1, b2n v.retained.isSome)])
  else if a == 0xC001 then
    some (mkWord [(16, v.clcause), (8, da.causes ||| db.causes)])
  else if a == 0xC002 then some (mkWord [(15, da.func), (10, db.func)])
  else if a == 0xC007 then some (BitVec.ofNat 20 s.respTime)
  else if a == 0xC014 then some (BitVec.ofNat 20 (match s.zoneSet .a with | none => 0 | some z => s.freshOf z))
  else if a == 0xC020 then some (BitVec.ofNat 20 (if v.tx1.isEmpty then 0 else v.seqTx + 2 ^ 20 - 1))
  else none

end Machine

end Sys2Proof
end

