-- ==== Sys2Proof/Machine/Sequencer.lean ====
section
/-! DEFINITION. The Cutting List sequencer (chapter 2): fetching and issuing entries, the schedule, SYNC, BRANCH, pages
and Battens. LISTEN and CAL, which open receivers, stand in Receiver.lean. -/

namespace Sys2Proof

/-- Bits of a word of an entry. -/
def wf (w : Word) (hi lo : Nat) : Nat := bitsOf w.toNat hi lo

def Entry.op (e : Entry) : Nat := wf e.w0 19 16

/-- FIRE, WAIT and SYNC are timed (R49). -/
def Entry.timed (e : Entry) : Bool := e.op == 1 || e.op == 4 || e.op == 6

def Page.count (p : Page) : Nat := p.entries.length

namespace Machine

/-! ### Entries and pages -/

/-- The entry to be issued next. -/
def Seq.entry (q : Seq) : Option Entry := q.active.entries[q.next]?

/-- Loop counters to 0 (R69, R74). -/
def State.clearLc (s : State) : State := (List.range 4).foldl (fun s n => s.wr (F.CTL_SEQ_LC_LC n) 0) s

/-- Execution goes on at an entry of a page (R558): at entry 0, with BADENT, where the page has no such entry. -/
def State.enter (s : State) (pgB : Bool) (ent : Nat) : State :=
  let bad := Nat.ble (s.seq.pageOf pgB).count ent
  let s := if bad then s.put F.CTL_SEQ_STATUS_BADENT true else s
  s.modSeq fun q => { q with actB := pgB, next := if bad then 0 else ent }

/-- Put a token on the data path (R64, R74). -/
def State.pushToken (s : State) (cause : Nat) : State :=
  let m : Mark := { (default : Mark) with id := s.seq.nextId, cause := some cause }
  let s := s.modSeq fun q => { q with marks := q.marks ++ [m] }
  s.settle

/-- A switch to the other page (R74): every histogram in accumulation closes as PARTIAL, the loop counters become 0. -/
def State.otherPage (s : State) (cause : Nat) : State := (s.pushToken cause).clearLc

/-- A switch or jump (R72, R74). A jump within the active page leaves a deferred switch waiting (R78); a switch to the other
page is itself the switch that was deferred, or replaces it (log entry 167). -/
def State.switchTo (s : State) (pgB : Bool) (ent : Nat) : State :=
  let s := if pgB != s.seq.actB then (s.otherPage 2).modSeq fun q => { q with deferred := none } else s
  s.enter pgB ent

/-- A deferred switch takes place at the first timed entry after the load completes, with T unchanged (R78). -/
def State.settleDeferred (s : State) : State :=
  match s.seq.deferred, s.seq.entry with
  | some (pgB, ent, _), some e =>
    if s.seq.st == .run && e.timed && s.seq.loading != some pgB then s.switchTo pgB ent else s
  | _, _ => s

/-! ### Fetching -/

/-- The sequencer issues entries: it runs, and neither a profile switch nor a RECAL stop is due. -/
def State.issuing (s : State) : Bool :=
  s.seq.st == .run && (match s.mgmt.op with | some (.profileSet _ _ eof) => !eof | _ => true)

/-- A pending page-switch Batten stands before the next timed entry (R73). -/
def State.battenDue (s : State) : Bool :=
  match s.seq.batten with
  | some b => !b.sync && Nat.ble b.te s.seq.cursor
  | none => false

/-- An entry whose check code fails halts the sequencer (R80): no further fire is issued, those already posted included. The
event's ARG is the index of the entry that failed, the PC of the fetch (log entry 168). -/
def State.parity (s : State) : State :=
  ((s.modSeq fun q => { q with st := .halted, fires := [] }).settle.raise 0x05 .fault s.seq.next).safEval

/-- What the sequencer finds at its next entry. -/
inductive Fetched where
  | none
  | bad
  | entry (e : Entry)
  deriving DecidableEq, Repr, Inhabited

/-- Fetch the next entry for an opcode (R49, R73, R80). -/
def State.fetch (s : State) (op : Nat) : Fetched :=
  if !s.issuing then .none
  else match s.seq.entry with
    | none => .none
    | some e =>
      if !e.chk then .bad
      else if e.op != op || (e.timed && s.battenDue) then .none
      else .entry e

/-- The entry after one, with the wrap of R50. -/
def Seq.after (q : Seq) (i : Nat) : Nat := if Nat.ble q.active.count (i + 1) then 0 else i + 1

/-- Note an entry as issued and go on at an index of the active page. -/
def State.goOn (s : State) (next : Nat) : State :=
  (s.modSeq fun q => { q with pc := q.next, next := next }).settleDeferred

/-- Note an entry as issued and go on at the next. -/
def State.advance (s : State) : State := s.goOn (s.seq.after s.seq.next)

/-- A slip (R53). -/
def State.slip (s : State) : State := (s.inc F.CTL_SEQ_SLIP_COUNT).raise 0x03 .warn 0

/-! ### FIRE (R53 to R56, R98) -/

/-- One step of the dither generator's LFSR (R98). -/
def lfsrStep (x : Nat) : Nat := if x % 2 == 1 then (x / 2) ^^^ 0x90000 else x / 2

def lfsrRun : Nat → Nat → Nat
  | 0, x => x
  | k + 1, x => lfsrRun k (lfsrStep x)

/-- Draw d for a dither amplitude (R98): the new generator state and d in −D to +D. -/
def drawDither (state amp : Nat) : Nat × Int :=
  let x := lfsrRun 20 state
  (x, ((x * (2 * amp + 1) / 2 ^ 20 : Nat) : Int) - amp)

/-- The length in ns that a WIN field gives: 4 × WIN, with 0 taken as 4,096. -/
def winNs (win : Nat) : Nat := if win == 0 then 4096 else 4 * win

/-- The fire that a FIRE entry posts (R55, R95). -/
def State.fireOf (s : State) (e : Entry) (inst : Nat) (d : Int) : Fire :=
  let row := wf e.w0 15 13
  { id := s.seq.nextId, instant := inst, row := row, burst := wf e.w0 9 6, zoom := wf e.w0 5 5 == 1,
    lsrc := wf e.w0 4 4 == 1, bink := wf e.w0 3 0, pw := wf e.w1 19 13, kerf := 2 * wf e.w1 4 0,
    win := winNs (wf e.w2 19 10), hofs := 4 * wf e.w2 9 0, nm1 := wf e.w3 19 8, col := wf e.w3 7 0,
    line := wf e.w4 19 8, colmask := BitVec.ofNat 8 (wf e.w4 7 0), d := d,
    g := s.rd (F.EDU_ISET_G (wf e.w0 12 10)), trims := (List.range 8).map fun c => s.rd (F.EDU_TRIM_T (8 * row + c)),
    held := false }

/-- Post a fire: into the EDU's queue, with its closing bound (R63). -/
def State.postFire (s : State) (f : Fire) : State :=
  s.modSeq fun q => { q with fires := q.fires ++ [f], nextId := q.nextId + 1,
                             bounds := q.bounds ++ [min (f.instant + 6 + f.win) (f.instant + 4097)] }

/-- FIRE (R51, R53, R55, R56): draw the dither, post the fire, advance T by PITCH. -/
def execFire (t : Nat) (s : State) : Host.Outcome State Fault Refusal :=
  let s := s.begin t
  match s.fetch 1 with
  | .none => .next s
  | .bad => .next s.parity
  | .entry e =>
    let amp := wf e.w1 12 5
    let (st, d) := if amp == 0 then (s.rd F.EDU_DITH_STATE_STATE, 0) else drawDither (s.rd F.EDU_DITH_STATE_STATE) amp
    let s := s.wr F.EDU_DITH_STATE_STATE st
    let want : Int := s.seq.cursor + d
    let late := decide (want < s.now)
    let inst := if late then s.now else want.toNat
    let s := if late then s.slip else s
    let s := s.postFire (s.fireOf e inst d)
    let pitch := s.seq.active.pitch
    .next ((s.modSeq fun q => { q with cursor := ((inst : Int) - d + pitch).toNat }).advance)

/-- WAIT (R51, R53, R63): advance T by DUR and, with DRAIN, past every closing bound. -/
def execWait (t : Nat) (s : State) : Host.Outcome State Fault Refusal :=
  let s := s.begin t
  match s.fetch 4 with
  | .none => .next s
  | .bad => .next s.parity
  | .entry e =>
    let late := Nat.blt s.seq.cursor s.now
    let a := if late then s.now else s.seq.cursor
    let s := if late then s.slip else s
    let dur := wf e.w2 11 0 * 2 ^ 20 + e.w1.toNat
    let open' := s.seq.bounds.filter fun b => Nat.blt s.now b
    let tt := if wf e.w0 15 15 == 1 then open'.foldl max (a + dur) else a + dur
    .next ((s.modSeq fun q => { q with cursor := tt, bounds := open' }).advance)

/-! ### MARK (R64) -/

/-- An EOF that the sequencer issues lets a profile switch or a RECAL stop follow (R486, R510). -/
def State.eofIssued (s : State) : State :=
  match s.mgmt.op with
  | some (.profileSet c t0 _) => s.modMgmt fun x => { x with op := some (.profileSet c t0 true) }
  | some (.recal m t0 false) =>
    let s := s.modMgmt fun x => { x with op := some (.recal m t0 true) }
    ((s.modSeq fun q => { q with st := .idle }).modEdu fun e => { e with recalStop := true }).chgEval
  | _ => s

/-- Put a MARK on the data path. -/
def State.pushMark (s : State) (sof eol eof : Bool) (tag : Nat) : State :=
  if sof || eol || eof then
    let m : Mark := { sof := sof, eol := eol, eof := eof, tag := tag, id := s.seq.nextId, cause := none, ord := none }
    s.modSeq fun q => { q with marks := q.marks ++ [m] }
  else s

/-- MARK (R64). -/
def execMark (t : Nat) (s : State) : Host.Outcome State Fault Refusal :=
  let s := s.begin t
  match s.fetch 5 with
  | .none => .next s
  | .bad => .next s.parity
  | .entry e =>
    let bit := fun i => wf e.w0 i i == 1
    let tag := wf e.w0 7 0
    let s := s.pushMark (bit 15) (bit 14) (bit 13) tag
    let s := if bit 12 then s.raise 0x04 .info tag else s
    let s := s.advance
    .next (if bit 13 then s.eofIssued else s)

/-! ### SYNC (R65 to R67, R234) -/

/-- SYNC (R65): wait for the first event of the source. -/
def execSync (t : Nat) (s : State) : Host.Outcome State Fault Refusal :=
  let s := s.begin t
  match s.fetch 6 with
  | .none => .next s
  | .bad => .next s.parity
  | .entry e =>
    .next ((s.modSeq fun q => { q with
      st := .syncwait, pc := q.next, next := q.after q.next, syncSrc := wf e.w0 15 12, syncArg := wf e.w0 11 4,
      syncOfs := e.w1.toNat, syncTmo := e.w2.toNat, syncIssue := s.now, syncHit := none }))

/-- A source event occurs at a device instant: the first one after the issue of the SYNC that awaits it counts (R65,
R66). -/
def State.syncSource (s : State) (src arg inst : Nat) : State :=
  let q := s.seq
  let fits := q.syncSrc == src && (if src == 5 then q.syncArg == 0 || q.syncArg == arg else q.syncArg == arg)
  if q.st == .syncwait && fits && q.syncHit.isNone && Nat.blt q.syncIssue inst then
    s.modSeq fun q => { q with syncHit := some inst }
  else s

/-- The start of the next occurrence of a slot after an instant (R233, R234). -/
def State.nextSlotAt (s : State) (slot after : Nat) : Option Nat :=
  let len := s.rd F.CTL_SLOT_LEN_LEN
  let cyc := s.rd F.CTL_SLOT_CFG_SLOTN * len
  if cyc == 0 then none
  else
    let base := slot * len
    let k := if Nat.blt after base then 0 else (after - base) / cyc + 1
    some (base + k * cyc)

/-- The instant e of the awaited event, once it has come (R66). -/
def State.syncInstant (s : State) : Option Nat :=
  if s.seq.syncSrc == 3 then
    match s.nextSlotAt s.seq.syncArg s.seq.syncIssue with
    | some e => if Nat.ble e s.now then some e else none
    | none => none
  else s.seq.syncHit

/-- The wait ends at an instant e (R51, R65). -/
def State.endSync (s : State) (e : Nat) : State :=
  (s.modSeq fun q => { q with st := .run, cursor := e + q.syncOfs, syncHit := none }).settleDeferred

/-- The timeout instant of the SYNC (R65). -/
def State.syncLimit (s : State) : Nat := s.seq.syncIssue + 1000 * s.seq.syncTmo

/-- The SYNC ends by its timeout: the timeout instant stands for the event, and the flag SYNC_TO is set (R65). -/
def State.syncTimeout (s : State) : State := (s.put F.CTL_SEQ_FLAGS_SYNC_TO true).endSync s.syncLimit

/-- SYNC_EVENT (R65, R71): the awaited event occurs. After the timeout instant it comes too late, and the wait has ended by
the timeout. -/
def execSyncEvent (t : Nat) (s : State) : Host.Outcome State Fault Refusal :=
  let s := s.begin t
  if s.seq.st != .syncwait then .next s
  else match s.syncInstant with
    | none => .next s
    | some e =>
      if s.seq.syncTmo != 0 && Nat.blt s.syncLimit e then .next s.syncTimeout
      else .next ((s.put F.CTL_SEQ_FLAGS_SYNC_TO false).endSync e)

/-- SYNC_TO (R65): no event has occurred within TMO. -/
def execSyncTo (t : Nat) (s : State) : Host.Outcome State Fault Refusal :=
  let s := s.begin t
  let e := s.syncLimit
  if s.seq.st != .syncwait || s.seq.syncTmo == 0 || s.syncInstant.any (fun i => Nat.ble i e) || Nat.blt s.now e then
    .next s
  else .next s.syncTimeout

/-! ### BRANCH (R68 to R71) -/

/-- A branch flag (R71). -/
def State.branchFlag (s : State) (n : Nat) : Bool :=
  if n == 0 then true
  else if n == 1 then s.flag F.RPE_FOR_STAT_FOREIGN
  else if n == 2 then s.ambientHigh
  else if n == 3 then s.flag F.CTL_SEQ_FLAGS_SYNC_TO
  else if n == 4 then s.tbu.holdover
  else if n == 5 then !s.chgOk || s.edu.lastInh
  else if n == 6 then s.dev == .degraded
  else if n == 7 then !s.rta.subs.isEmpty
  else if n == 8 then s.seq.batten.any fun b => !b.sync
  else if n ≤ 0x0C then bitOf (s.rd F.CTL_SEQ_HOSTF_HOST) (n - 9)
  else if n ≤ 0x14 then bitOf (s.rd F.LNK_TBUS_LEVEL) (n - 0x0D)
  else if n ≤ 0x18 then bitOf (s.rd F.CTL_SEQ_FLAGS_TRIG) (n - 0x15)
  else if n == 0x19 then s.isHead
  else false

/-- Clear a bit of CTL_SEQ_FLAGS unless the device set it in this instant (R23, R70). -/
def State.clearSticky (s : State) (i : Nat) : State :=
  if bitOf (s.freshAt 0x0101).toNat i then s else s.put ⟨0x0101, i, i⟩ false

/-- Clear a sticky flag; other flags stay (R69, R70). -/
def State.clearFlag (s : State) (n : Nat) : State :=
  if n == 3 then s.clearSticky F.CTL_SEQ_FLAGS_SYNC_TO.lo
  else if 0x15 ≤ n && n ≤ 0x18 then s.clearSticky (F.CTL_SEQ_FLAGS_TRIG.lo + (n - 0x15))
  else s

/-- The condition of a BRANCH and its effect on counters and flags (R69). -/
def State.branchCond (s : State) (e : Entry) : Bool × State :=
  if wf e.w0 9 9 == 1 then
    let f := F.CTL_SEQ_LC_LC (wf e.w0 8 7)
    let v := s.rd f
    if v == 0 then (wf e.w2 11 0 != 0, s.wr f (wf e.w2 11 0)) else (v != 1, s.wr f (v - 1))
  else
    let n := wf e.w0 15 11
    (s.branchFlag n, if wf e.w0 6 6 == 1 then s.clearFlag n else s)

/-- BRANCH (R68, R69). -/
def execBranch (t : Nat) (s : State) : Host.Outcome State Fault Refusal :=
  let s := s.begin t
  match s.fetch 7 with
  | .none => .next s
  | .bad => .next s.parity
  | .entry e =>
    let (c, s) := s.branchCond e
    .next (if c != (wf e.w0 10 10 == 1) then s.goOn (wf e.w1 11 0) else s.advance)

/-! ### PAGE and Battens (R72 to R78) -/

/-- PAGE in IMMEDIATE mode (R72, R74, R78). -/
def execPageImmediate (t : Nat) (s : State) : Host.Outcome State Fault Refusal :=
  let s := s.begin t
  match s.fetch 8 with
  | .none => .next s
  | .bad => .next s.parity
  | .entry e =>
    let pgB := wf e.w0 15 15 == 1
    let ent := wf e.w1 11 0
    if wf e.w0 14 13 != 0 then .next s
    else if pgB != s.seq.actB && s.seq.loading == some pgB then
      .next ((s.modSeq fun q => { q with deferred := some (pgB, ent, false) }).advance)
    else
      let s := (s.modSeq fun q => { q with pc := q.next }).switchTo pgB ent
      .next s.settleDeferred

/-- BATTEN_DROP (R75). -/
def State.battenDrop (s : State) : State := s.raise 0x06 .warn 0

/-- A Batten takes effect late (R75, R78). -/
def State.battenLate (s : State) : State := s.raise 0x07 .warn 0

/-- A Batten reaches a sibling in time (R75): pending, or dropped while another is pending or while IDLE or HALTED. -/
def State.takeBatten (s : State) (b : Batten) : State :=
  if s.seq.batten.isSome || s.seq.st == .idle || s.seq.st == .halted then s.battenDrop
  else s.modSeq fun q => { q with batten := some b }

/-- Payload of a BATTEN message: KIND, PG, ARG and Te (R435). -/
def Batten.payload (b : Batten) : List Nat := [b2n b.sync, b2n b.pgB, b.arg, b.te]

/-- The head issues a Batten at a device instant (R73, R76, R435). -/
def State.issueBatten (s : State) (sync pgB : Bool) (arg at0 : Nat) : State :=
  let b : Batten := ⟨sync, pgB, arg, at0 + s.rd F.CTL_BATTEN_LEAD_LEAD⟩
  (s.takeBatten b).sendChain .down 0x63 b.payload

/-- PAGE in ISSUE mode (R72): the head issues a page-switch Batten; any other sibling goes on. -/
def execPageIssue (t : Nat) (s : State) : Host.Outcome State Fault Refusal :=
  let s := s.begin t
  match s.fetch 8 with
  | .none => .next s
  | .bad => .next s.parity
  | .entry e =>
    if wf e.w0 14 13 != 1 then .next s
    else
      let s := if s.isHead then s.issueBatten false (wf e.w0 15 15 == 1) (wf e.w1 11 0) (max s.now s.seq.cursor) else s
      .next s.advance

/-- A page-switch Batten takes effect with T at an instant (R67, R73, R78): at once, or deferred while its page is LOADING;
a wait in a SYNC ends in either case. -/
def State.battenSwitch (s : State) (b : Batten) (tt : Nat) : State :=
  let wait := s.seq.st == .syncwait
  let s := s.modSeq fun q => { q with st := .run, syncHit := none }
  if b.pgB != s.seq.actB && s.seq.loading == some b.pgB then
    let s := s.modSeq fun q => { q with deferred := some (b.pgB, b.arg, true), cursor := if wait then tt else q.cursor }
    s.battenLate
  else (s.switchTo b.pgB b.arg).modSeq fun q => { q with cursor := tt }

/-- CTL_BATTEN_TIME holds Te of the last executed Batten (R89). -/
def State.battenTime (s : State) (te : Nat) : State := s.wrWide 0x0110 3 te

/-- A Batten received after its Te takes effect at once (R75). -/
def State.lateBatten (s : State) (b : Batten) : State :=
  if s.seq.batten.isSome || s.seq.st == .idle || s.seq.st == .halted then s.battenDrop
  else
    let s := s.battenTime b.te
    if b.sync then (s.syncSource 4 b.arg s.now).battenLate
    else
      let waits := b.pgB != s.seq.actB && s.seq.loading == some b.pgB
      let s := s.battenSwitch b s.now
      if waits then s else s.battenLate

/-- BATTEN_EXECUTE (R66, R67, R73, R75): the pending Batten reaches Te. It counts as executed then (R89), also where R78 defers
its switch (log entry 169). -/
def execBattenExecute (t : Nat) (s : State) : Host.Outcome State Fault Refusal :=
  let s := s.begin t
  match s.seq.batten with
  | none => .next s
  | some b =>
    let due := Nat.ble b.te s.now
    let s' := s.modSeq fun q => { q with batten := none }
    if s.seq.st == .idle || s.seq.st == .halted then .next (if due then s'.battenDrop else s)
    else if b.sync then .next (if due then (s'.battenTime b.te).syncSource 4 b.arg b.te else s)
    else if s.seq.st == .syncwait then .next (if due then (s'.battenTime b.te).battenSwitch b b.te else s)
    else if s.battenDue && (s.seq.entry.any Entry.timed) then .next ((s'.battenTime b.te).battenSwitch b b.te)
    else .next s

/-- The page that PAGE_LOAD copied is in place (R77, R78, R396): PAGE_LOAD ends with REFUSED where both copies of the
library page are poisoned. TBL is read once subchannel B is available (R399). -/
def execPageLoadDone (a : MemAccess) (s : State) : Host.Outcome State Fault Refusal :=
  let s := s.begin a.t
  match if s.memAvail 1 then s.mgmt.op else none with
  | some (.pageLoad pgB lib _) =>
    let (ok, s) := s.readTbl lib a.hits
    let s := s.modSeq fun q => { q with loading := none }
    if !ok then .next (s.endOp Status.refused.toNat).settleDeferred
    else
      let p := (assoc s.seq.library lib).getD default
      let s := s.modSeq fun q => if pgB then { q with pageB := p } else { q with pageA := p }
      .next (s.endOp 0).settleDeferred
  | _ => .next s

/-- The start of the sequencer at an entry of page A (R79, R80): T = now + 1,000 ns, counters 0. -/
def State.startSeq (s : State) (pgB : Bool) (ent : Nat) : State :=
  let s := s.clearLc
  (s.modSeq fun q => { q with st := .run, actB := pgB, next := ent, cursor := s.now + 1000 })

/-- PAGE_RELOAD (R80, R396): the sequencer resumes at entry 0 of the reloaded page, and the open frame is closed at EOF. Where
both copies are poisoned the reload fails, and the sequencer stays HALTED until reset. -/
def execPageReload (a : MemAccess) (s : State) : Host.Outcome State Fault Refusal :=
  let s := s.begin a.t
  let lib := s.seq.active.lib
  if !s.halted || s.seq.reloadBad || !s.memAvail 1 then .next s
  else match assoc s.seq.library lib, s.readTbl lib a.hits with
    | none, _ => .next s
    | some _, (false, s) => .next (s.modSeq fun q => { q with reloadBad := true })
    | some p, (true, s) =>
      let s := s.modSeq fun q => if q.actB then { q with pageB := p } else { q with pageA := p }
      let s := if s.fso.frameOpen then s.pushMark false false true s.seq.tag else s
      .next (s.startSeq s.seq.actB 0).safEval

/-- CTL_SEQ_STATUS, the page headers and the slot cycle as they read (R82, R85, R86). -/
def State.viewSeq (s : State) (a : Nat) : Option Word :=
  let q := s.seq
  if a == 0x0100 then
    let pend : Option Bool := match q.batten.filter (fun b => !b.sync), q.deferred with
      | some b, _ => some b.pgB
      | none, some d => some d.1
      | none, none => none
    let st := match q.st with | .idle => 0 | .run => 1 | .syncwait => 2 | .halted => 3
    some (mkWord [(19, b2n q.actB), (18, b2n pend.isSome), (17, b2n (pend.getD false)), (14, st),
                  (13, b2n q.loading.isSome), (12, s.rd F.CTL_SEQ_STATUS_BADENT), (0, q.pc)])
  else if a == 0x0107 then some (mkWord [(16, q.pageA.lib), (0, q.pageA.count)])
  else if a == 0x0108 then some (mkWord [(16, q.pageB.lib), (0, q.pageB.count)])
  else if a == 0x0109 then some (mkWord [(8, q.pageB.pitch), (0, q.pageA.pitch / 16)])
  else if a == 0x010A then some (putBits (s.word a) 3 0 q.pageA.pitch)
  else none

end Machine

end Sys2Proof
end

