-- ==== Sys2Proof/Machine/Windows.lean ====
section
/-! DEFINITION. Receivers and their windows (chapter 4): which ports take stops, the levels a window opens with, the
opening of FIRE, LISTEN and CAL windows under R52, and the failure and substitution of ports. -/

namespace Sys2Proof.Machine

/-! ### TDC units -/

def State.unitSt (s : State) (u : Nat) : UnitSt := SMap.get (fun _ => default) s.rta.units u

def State.setUnit (s : State) (u : Nat) (x : UnitSt) : State :=
  s.modRta fun a => { a with units := SMap.put (fun _ => default) a.units u x }

/-- Entry p of a fine table (R127, R164): 16·p where no table has been formed. -/
def UnitSt.entry (x : UnitSt) (p : Nat) : Nat := if x.lut.isEmpty then 16 * p else x.lut.getD p 0

/-- The time E of an edge in u from the opening of the window (R127). -/
def State.edgeTime (s : State) (u : Nat) (c : TdcCode) : Int := ((c.n + 1) * 4096 : Nat) - ((s.unitSt u).entry c.p : Int)

/-- The port group of a port or spare. -/
def unitGroup (u : Nat) : Nat := if u < 256 then rowOf u else u - 256

/-! ### Which ports take stops -/

/-- A group whose row is clear in ROWMASK of the profile is gated (R507). -/
def State.gated (s : State) (r : Nat) : Bool := bitOf (s.rd F.CTL_PROFILE_GATED) r

/-- EN of a port as it stands at its last shot boundary (R155). -/
def State.enabled (s : State) (p : Nat) : Bool := s.flag (F.RTA_PCFG_EN p) || s.rta.disabling.contains p

/-- A substitution of the port is in progress (R152). -/
def State.substRunning (s : State) (p : Nat) : Bool := s.rta.subs.any fun e => e.2.port == p

/-- The spare that takes a port's stops (R152). -/
def State.servedBy (s : State) (p : Nat) : Option Nat :=
  let r := rowOf p
  if s.flag (F.RTA_PSTAT_SPARED p) && s.flag (F.RTA_SPARE_INUSE r) && s.rd (F.RTA_SPARE_SRC r) == p % 32 && !s.substRunning p
  then some r else none

/-- The port or its spare takes stops (R159). -/
def State.takesStops (s : State) (p : Nat) : Bool :=
  s.enabled p && !s.portOff p && !s.gated (rowOf p) && (!s.flag (F.RTA_PSTAT_FAILED p) || (s.servedBy p).isSome)

/-- ACTIVE follows the port's condition. -/
def State.refreshActive (s : State) (p : Nat) : State := s.put (F.RTA_PSTAT_ACTIVE p) (s.takesStops p)

/-- A port whose substitution is in progress still forms shot headers, with SUBST (R152, R184). -/
def State.forms (s : State) (p : Nat) : Bool :=
  s.takesStops p || (s.substRunning p && s.enabled p && !s.portOff p && !s.gated (rowOf p))

/-- A disable takes effect at a port (R155). -/
def State.disablePort (s : State) (p : Nat) : State :=
  ((s.modRta fun a => { a with disabling := a.disabling.filter (· != p) }).refreshActive p).portClose p 3

/-- The shot boundary of ports (R155). -/
def State.boundary (s : State) (ports : List Nat) : State :=
  (ports.filter s.rta.disabling.contains).foldl State.disablePort s

/-! ### Failure and substitution (R147, R152, R153) -/

/-- A spare becomes FAILED and serves no port (R153). -/
def State.spareFail (s : State) (r : Nat) : State :=
  (s.put (F.RTA_SPARE_FAILED r) true).put (F.RTA_SPARE_INUSE r) false

/-- A port is disabled without a spare (R153): OFF, DEGRADED, the event, the close and the demand of R286. -/
def State.portGoesOff (s : State) (p : Nat) : State :=
  if s.portOff p then s
  else
    let s := s.raise 0x19 .fault p
    let s := (s.put (F.RTA_PSTAT_FAILED p) true).put (F.RTA_PSTAT_OFF p) true
    let s := s.modRta fun a => { a with subs := a.subs.filter fun e => e.2.port != p }
    let s := (s.refreshActive p).portClose p 5
    let s := if s.dev == .run then s.setDev .degraded else s
    (s.unbridge p).safEval

/-- A substitution starts (R152): FAILED and SPARED are set, the histogram closes, channel B holds the port's cells. -/
def State.substitute (s : State) (p : Nat) : State :=
  let r := rowOf p
  let s := (s.put (F.RTA_PSTAT_FAILED p) true).put (F.RTA_PSTAT_SPARED p) true
  let s := (s.put (F.RTA_SPARE_INUSE r) true).wr (F.RTA_SPARE_SRC r) (p % 32)
  let s := s.modRta fun a => { a with subs := assocPut a.subs r ⟨p, s.clk, .settling⟩ }
  ((s.refreshActive p).portClose p 4).bridge p

/-- A port becomes FAILED (R147, R133): the spare of its group substitutes it where it is free and not failed, else the port
goes OFF (R153). -/
def State.portFails (s : State) (p : Nat) : State :=
  if s.flag (F.RTA_PSTAT_FAILED p) || s.portOff p then s
  else
    let s := s.raise 0x18 .fault p
    let r := rowOf p
    if s.flag (F.RTA_SPARE_INUSE r) || s.flag (F.RTA_SPARE_FAILED r) then s.portGoesOff p else s.substitute p

/-- The spare serving a port is lost (R153). -/
def State.spareLost (s : State) (r : Nat) : State :=
  let inUse := s.flag (F.RTA_SPARE_INUSE r)
  let p := 32 * r + s.rd (F.RTA_SPARE_SRC r)
  let s := s.spareFail r
  if inUse then s.portGoesOff p else s

/-- Count a failed self-check of a port or spare, one per instant (R133, R147, R148, R158); whether it makes the unit
FAILED. -/
def State.failCheck (s : State) (u : Nat) : Bool × State :=
  let x := s.unitSt u
  let f := if u < 256 then F.RTA_PSTAT_CHKFAILS u else F.RTA_SPARE_CHKFAILS (u - 256)
  if x.failAt == some s.clk then (false, s)
  else
    let n := min 3 (s.rd f + 1)
    (decide (max 1 (s.rd F.RTA_CHK_NFAIL) ≤ n), (s.setUnit u { x with failAt := some s.clk }).wr f n)

/-- A failed self-check of a unit, with what follows from it (R147, R153). -/
def State.selfCheckFails (s : State) (u : Nat) : State :=
  let (bad, s) := s.failCheck u
  if !bad then s else if u < 256 then s.portFails u else s.spareLost (u - 256)

/-! ### The levels of a window (R122, R124) -/

/-- The words PCFG, PTHRL, PTHRH and PATHR that configure a port. -/
def State.cfgWords (s : State) (p : Nat) : List Word := (List.range 4).map fun i => s.word (0x4000 + 16 * p + i)

/-- The configuration of a unit in a window: its port's; that of a spare in service is the one it copied, in every window
(R152; log entry 26); that of a free spare is the one of the first port of its group (R146). -/
def State.unitCfg (s : State) (u p : Nat) : List Word :=
  if u < 256 then s.cfgWords p
  else if s.flag (F.RTA_SPARE_INUSE (u - 256)) then (assoc s.rta.copied (u - 256)).getD (s.cfgWords p)
  else s.cfgWords (32 * (u - 256))

/-- A walk table as it stands (R139). -/
def State.walkTable (s : State) (j : Nat) : List Int := (List.range 64).map fun i => s.rdZ (F.RTA_WALK_W (64 * j + i))

/-- The skew Shim of a unit for a source port (R134, R482). -/
def State.skewOf (s : State) (u p : Nat) : Int :=
  if u < 256 then s.rdZ (F.RTA_PSKEW_SKEW u) else SMap.get (fun _ => 0) s.rta.spareSkew (32 * (u - 256) + p % 32)

/-- The receivers of a unit as they open for a port (R122, R124, R138). -/
def State.openPWin (s : State) (u p : Nat) (cal : Bool) : PWin :=
  let c := s.unitCfg u p
  let b := fun (i hi lo : Nat) => bitsOf (c.getD i 0).toNat hi lo
  let athr := if cal then 0 else b 3 9 0
  let wm := b 0 16 15
  { (default : PWin) with
    mode := b 0 18 17, wmode := wm, wtab := b 0 14 11, hien := b 0 10 10,
    thrL := min 1023 (b 1 9 0 + athr), thrH := min 1023 (b 2 9 0 + athr), skew := s.skewOf u p,
    subst := s.substRunning p, walk := if wm == 0 then [] else s.walkTable (b 0 14 11) }

/-- A table that waits for the unit's shot boundary is installed (R133). -/
def State.installLut (s : State) (u : Nat) : State :=
  let x := s.unitSt u
  match x.pendLut with
  | none => s
  | some l => s.setUnit u { x with lut := l, pendLut := none }

/-! ### Opening windows (R52, R137) -/

/-- The closing instant of a window's receivers (R137), once the start reference is known. -/
def GWin.endClk (w : GWin) : Option Nat :=
  w.ref.map fun a => w.openClk + (min (4096 : Int) ((a + 4096 * (w.len : Int) + 4095) / 4096)).toNat

/-- A group's previous window has closed (R52). -/
def State.groupFree (s : State) (g : Nat) : Bool :=
  match assoc s.rta.wins g with
  | none => true
  | some w => w.units.isEmpty && (w.endClk).any fun e => Nat.ble e s.clk

/-- The units that open for the ports of a group, and the spares among them with their ports. -/
def State.unitsFor (s : State) (ports : List Nat) : List (Nat × Nat) :=
  ports.map fun p => match s.servedBy p with
    | some r => (256 + r, p)
    | none => (p, p)

/-- Open the window of one group for some of its ports. A port with EN = 0, and one that is OFF or gated, opens no receiver in
a CAL slot either (log entry 172). A shot of a port that is counted but not yet binned, or whose histogram is open, stretching
or not released, keeps a zoom histogram behind (R179). -/
def State.openGroup (s : State) (g : Nat) (ports : List Nat) (cal spare : Bool) (w : GWin) : State :=
  let s := s.boundary ports
  let fm := ports.filter s.forms
  let act := fm.filter s.takesStops
  let sp := if spare && !s.flag (F.RTA_SPARE_FAILED g) && !(fm.any fun p => (s.servedBy p).isSome) &&
      !s.flag (F.RTA_SPARE_INUSE g) then [(256 + g, 32 * g)] else []
  let us := s.unitsFor fm ++ sp
  let s := us.foldl (fun s e => s.installLut e.1) s
  let base := groupPorts g
  let w := { w with
    holdover := s.tbu.holdover, active := act,
    dead := base.filter fun p => s.portOff p || !s.flag (F.RTA_PCFG_EN p),
    zanc := act.map fun p => (p, s.rd (F.RPE_ZANC_ZANC p)),
    unrel := act.filter fun p => s.rdBusy p || (assoc s.rpe.acc p).isSome || (s.nextShot p).isSome,
    startSkew := SMap.get (fun _ => 0) s.rta.startSkew g,
    km1 := s.rd (F.RPE_COINC_KM1 g), cwm1 := s.rd (F.RPE_COINC_CWM1 g), zcbink := s.rd F.RPE_HCFG_ZCBINK,
    served := (s.unitsFor fm).filterMap fun e => if 256 ≤ e.1 then some (e.1 - 256, e.2) else none,
    units := us.map fun e => (e.1, s.openPWin e.1 e.2 cal), closed := [], opened := us.map Prod.fst }
  s.modRta fun a => { a with wins := assocPut a.wins g w }

/-- The groups of a posted window. -/
def WinPost.groups (w : WinPost) : List Nat := if w.group == 8 then List.range 8 else [w.group]

/-- Open a posted LISTEN or CAL window at a device instant; its start reference is the opening (R134). -/
def State.openPosted (s : State) (w : WinPost) (dev : Nat) : State :=
  w.groups.foldl (fun s g =>
    s.openGroup g (groupPorts g) (w.kind == .cal) w.spare
      { (default : GWin) with kind := w.kind, openClk := s.clkOf dev, openDev := dev, len := w.len, ref := some 0,
                              post := some w }) s

/-- A hold is counted and reported once (R52). -/
def State.noteHold (s : State) : State := (s.inc F.CTL_SEQ_HOLD_COUNT).raise 0x02 .warn 0

/-- A posted window cannot open: a group's previous window is open, or a fire or a window posted before it on the group has
still to come (R52). -/
def State.winBlocked (s : State) (w : WinPost) (earlier : List WinPost) : Bool :=
  w.groups.any fun g => !s.groupFree g || (s.seq.fires.any fun f => f.row == g && Nat.blt f.id w.id) ||
    earlier.any fun x => x.groups.contains g

/-- Open the posted windows that are due, each on its own groups; one that cannot open is held (R52). -/
def State.openDueFrom (s : State) (kept : List WinPost) : List WinPost → State
  | [] => s.modSeq fun q => { q with wins := kept }
  | w :: ws =>
    if Nat.blt s.now w.instant then s.openDueFrom (kept ++ [w]) ws
    else if s.winBlocked w kept then
      (if w.held then s else s.noteHold).openDueFrom (kept ++ [{ w with held := true }]) ws
    else (s.openPosted w (if w.held then s.now else w.instant)).openDueFrom kept ws

def State.openDue (s : State) : State := s.openDueFrom [] s.seq.wins

/-- Post a LISTEN or CAL window (R61 to R63): it opens at T, or at the next TCLK edge where T has passed. -/
def State.postWin (s : State) (w : WinPost) : State :=
  let at0 := max s.seq.cursor s.now
  let w := { w with id := s.seq.nextId, instant := at0 }
  (s.modSeq fun q => { q with wins := q.wins ++ [w], bounds := q.bounds ++ [at0 + w.len + 1] }).openDue

/-- LISTEN (R61). -/
def execListen (t : Nat) (s : State) : Host.Outcome State Fault Refusal :=
  let s := s.begin t
  match s.fetch 2 with
  | .none => .next s
  | .bad => .next s.parity
  | .entry e =>
    let w : WinPost := { (default : WinPost) with
      kind := .listen, group := if wf e.w0 12 12 == 1 then 8 else wf e.w0 15 13, len := winNs (wf e.w2 19 10),
      bink := wf e.w0 3 0, freq := wf e.w0 11 11 == 1, amb := wf e.w0 10 10 == 1, presc := wf e.w1 19 14 + 1 }
    .next (s.postWin w).advance

/-- CAL (R62). -/
def execCal (t : Nat) (s : State) : Host.Outcome State Fault Refusal :=
  let s := s.begin t
  match s.fetch 3 with
  | .none => .next s
  | .bad => .next s.parity
  | .entry e =>
    let w : WinPost := { (default : WinPost) with
      kind := .cal, group := if wf e.w0 12 12 == 1 then 8 else wf e.w0 15 13, len := winNs (wf e.w3 19 10),
      mode := wf e.w0 11 10, spare := wf e.w0 9 9 == 1, amp := wf e.w1 19 10, delay := e.w2.toNat }
    .next (s.postWin w).advance

end Sys2Proof.Machine
end

