-- ==== Sys2Proof/Machine/Receiver.lean ====
section
/-! DEFINITION. Time measurement (chapter 4): edges to stops, shot headers and records, calibration slots, background
tables, skew and the verification of spares. -/

namespace Sys2Proof.Machine

/-! ### From edges to stops (R134 to R140) -/

/-- The table correction (R139). -/
def walkTab (w : List Int) (tot : Option Nat) : Int :=
  match tot with
  | none => w.getD 63 0
  | some t =>
    let i := t / 2048
    if 63 ≤ i then w.getD 63 0
    else
      let f : Int := t / 16 % 128
      w.getD i 0 + (w.getD (i + 1) 0 - w.getD i 0) * f / 128

/-- The walk correction of a window's unit (R138 to R140). -/
def PWin.walkOf (w : PWin) (tot : Option Nat) (hiofs : Nat) (hi : Bool) : Int :=
  if w.wmode == 0 then 0
  else if w.wmode == 2 && hi then min 32767 (((16 * hiofs * w.thrL) / (w.thrH - w.thrL) : Nat) : Int)
  else walkTab w.walk tot

/-- The high crossing of an edge is recorded (R121, R122, R159). -/
def PWin.hiOf (w : PWin) (e : Edge) : Option Nat :=
  if w.mode == 0 && w.hien == 1 && Nat.blt w.thrL w.thrH then e.hi else none

/-- The stop of a captured edge (R134) against the start reference `a`. -/
def PWin.stopOf (w : PWin) (a : Int) (e : Edge) : Stop :=
  let tot16 := e.trail.map fun x => x - e.lead
  let hi := w.hiOf e
  let hiofs := match hi with
    | none => 0
    | some h => min 4095 (((h : Int) - e.lead + 8) / 16).toNat
  let i16 := ((e.lead : Int) - w.skew) - a - w.walkOf tot16 hiofs hi.isSome
  { time := if i16 ≤ -16 then ((8 - i16) / 16).toNat else if i16 < 16 then 0 else ((i16 + 8) / 16).toNat,
    tot := match tot16 with
      | none => 0xFFFFF
      | some x => min 0xFFFFF ((x + 8) / 16),
    hiofs := hiofs, hi := hi.isSome, merged := e.merged, zero := decide (-16 < i16 && i16 < 16),
    early := decide (i16 ≤ -16), totsat := tot16.isNone, wcor := w.wmode != 0, i16 := i16 }

/-- Keep a stop, or not (R135); `kerf` in ns, 0 outside FIRE. -/
def PWin.keep (w : PWin) (kerf len : Nat) (x : Stop) : PWin :=
  let want := x.early || (Nat.ble (256 * kerf) x.time && Nat.blt x.time (256 * len))
  if Nat.ble (2 ^ 20) x.time then { w with ovf := true, discards := w.discards + 1, lastKept := false }
  else if !want then { w with lastKept := false }
  else if Nat.blt w.stops.length 4 then { w with stops := w.stops ++ [x], lastKept := true }
  else { w with more := true, lastKept := false }

/-- Edges that waited for the start reference become stops (R136, R158). -/
def PWin.settle (w : PWin) (a : Int) (kerf len : Nat) : PWin :=
  w.waiting.foldl (fun w e => w.keep kerf len (w.stopOf a e)) { w with waiting := [] }

/-- The Kerf of a window in ns: 0 but for FIRE. -/
def GWin.kerf (w : GWin) : Nat := match w.fire with | some f => f.kerf | none => 0

/-- The start reference of a window is known, or a further edge has come. -/
def GWin.settle (w : GWin) : GWin :=
  match w.ref with
  | none => w
  | some a => { w with units := w.units.map fun e => (e.1, e.2.settle a w.kerf w.len) }

/-- The start reference of a row's fire (R129, R134). -/
def State.setRef (s : State) (row : Nat) (a : Int) (synth : Bool) : State :=
  match assoc s.rta.wins row with
  | none => s
  | some w =>
    if w.kind != .fire || w.ref.isSome then s
    else
      let s := s.modRta fun r => { r with wins := assocPut r.wins row { w with ref := some a, synth := synth }.settle }
      let mark := fun (x : FireRec) => if w.fire.any (fun f => f.id == x.fire.id) then { x with synth := synth } else x
      s.modRta fun r => { r with recs := r.recs.map mark }

/-! ### Edges (R126 to R128) -/

/-- An edge in the dead time of the accepted edge before it is lost, and the earlier stop carries MERGED (R128). -/
def PWin.merge (w : PWin) : PWin :=
  match w.waiting.getLast? with
  | some e => { w with waiting := w.waiting.dropLast ++ [{ e with merged := true }] }
  | none =>
    match w.stops.getLast? with
    | some x => if w.lastKept then { w with stops := w.stops.dropLast ++ [{ x with merged := true }] } else w
    | none => w

/-- An accepted edge in frequency mode (R156): every P-th one enters the regression. -/
def PWin.freqEdge (w : PWin) (p x : Nat) : PWin :=
  let n := w.fqSeen + 1
  if n % max 1 p == 0 then { w with fqSeen := n, fqN := w.fqN + 1, fqS := w.fqS + x, fqK := w.fqK + w.fqN * x }
  else { w with fqSeen := n }

/-- What became of an edge at a unit. -/
inductive Took where
  | lost
  | ovf
  | uncaptured
  | captured
  deriving DecidableEq, Repr, Inhabited

/-- A leading edge arrives at an open unit (R127, R128, R135): its window with the edge waiting or refused. -/
def PWin.take (w : PWin) (n : Nat) (e : Edge) (freq : Option Nat) : PWin × Took :=
  let w := { w with loHit := true, hiHit := w.hiHit || (w.mode == 0 && e.hi.isSome) }
  if 4096 ≤ n then ({ w with ovf := true }, .ovf)
  else if w.lastEnd.any fun x => Nat.blt e.lead (x + 8192) then (w.merge, .lost)
  else
    let w := { w with lastEnd := e.trail }
    let w := match freq with | some p => w.freqEdge p e.lead | none => w
    if 8 ≤ w.ncap then ({ w with more := true, lastKept := false }, .uncaptured)
    else ({ w with ncap := w.ncap + 1, waiting := w.waiting ++ [e] }, .captured)

/-- The edge that a comparator's TDC codes give (R127). -/
def State.edgeOf (s : State) (u : Nat) (lead : TdcCode) (trail hi : Option TdcCode) : Edge :=
  { lead := (s.edgeTime u lead).toNat, trail := trail.map fun c => (s.edgeTime u c).toNat,
    hi := hi.map fun c => (s.edgeTime u c).toNat, code := lead.p, merged := false }

/-- A hit enters a unit's background density histogram (R133). -/
def State.bgHit (s : State) (u code : Nat) : State :=
  let x := s.unitSt u
  s.setUnit u { x with bg := x.bg.setNat code (x.bg.nat code + 1), bgN := x.bgN + 1 }

/-- The port whose input a unit takes: its own, or the one that the spare serves. -/
def State.portOfUnit (s : State) (u : Nat) : Option Nat :=
  if u < 256 then some u
  else if s.flag (F.RTA_SPARE_INUSE (u - 256)) then some (32 * (u - 256) + s.rd (F.RTA_SPARE_SRC (u - 256)))
  else none

/-! ### Shot headers and records (R141, R142, R322) -/

def ShotHdr.word (h : ShotHdr) : Word :=
  mkWord [(12, h.port), (9, h.nstop), (8, b2n h.synth), (7, b2n h.noemit), (6, b2n h.holdover), (5, b2n h.subst),
          (4, b2n h.more), (3, b2n h.ovf), (1, h.kind)]

def Stop.words (x : Stop) : List Word :=
  [BitVec.ofNat 20 x.time, BitVec.ofNat 20 x.tot,
   mkWord [(8, x.hiofs), (7, b2n x.hi), (6, b2n x.merged), (5, b2n x.zero), (4, b2n x.early), (3, b2n x.totsat),
           (2, b2n x.wcor)]]

def WinKind.code : WinKind → Nat
  | .fire => 0
  | .listen => 1
  | .cal => 2

/-- The shot of a port in its window (R141). -/
def GWin.shot (w : GWin) (port : Nat) (p : PWin) : Shot :=
  ⟨⟨port, p.stops.length, w.synth, w.noemit, w.holdover, p.subst || w.subst, p.more, p.ovf, w.kind.code⟩, p.stops⟩

/-- The RAW record of a shot (R322, R323, R332). -/
def Shot.capRec (x : Shot) (time : Nat) : CapRec :=
  let first := x.stops.find? fun y => !y.early
  { (default : CapRec) with
    typ := 1, port := x.header.port, time := time, body := x.header.word :: x.stops.flatMap Stop.words,
    rawKind := x.header.kind, nstop := x.header.nstop,
    vals := [(1, x.header.nstop)] ++ (match first with | some y => [(2, y.time), (3, y.tot)] | none => []) }

/-- RAW records arrive by the instant their window opened, equal instants by port (R322). -/
def insertRaw (x : Nat × CapRec) : List (Nat × CapRec) → List (Nat × CapRec)
  | [] => [x]
  | y :: q => if Nat.blt x.1 y.1 || (x.1 == y.1 && Nat.blt x.2.port y.2.port) then x :: y :: q else y :: insertRaw x q

/-- A RAW record of a window that opened at `opened` (`clk`) waits for the windows that opened before it. -/
def State.offerRaw (s : State) (opened : Nat) (r : CapRec) : State :=
  if s.capWants 1 r.port then s.modCap fun c => { c with rawWait := insertRaw (opened, r) c.rawWait } else s

/-- RAW records for which no window opened earlier, or at the same instant, is still open reach the CAP (R322). -/
def State.releaseRaw (s : State) : State :=
  let go := fun (e : Nat × CapRec) => s.rta.wins.all fun w => Nat.blt e.1 w.2.openClk
  s.modCap fun c => { c with recs := c.recs ++ (c.rawWait.takeWhile go).map Prod.snd, rawWait := c.rawWait.dropWhile go }

/-- A DENSITY hit delivered raw in Jig mode (R150): every DPRE-th hit of DPORT; the count towards it runs on over slots and
over writes of RTA_JIG (log entry 173). A hit whose interval exceeds 0FFFFFh is discarded as OVF (R134). -/
def State.jigHit (s : State) (u port : Nat) (w : GWin) (p : PWin) (e : Edge) : State :=
  if !s.flag F.RTA_JIG_DRAW || s.rd F.RTA_JIG_DPORT != port then s
  else
    let x := s.unitSt u
    let n := x.jig + 1
    if Nat.blt n (s.rd F.RTA_JIG_DPREM1 + 1) then s.setUnit u { x with jig := n }
    else
      let y := { ({ p with wmode := 0 } : PWin).stopOf 0 { e with trail := none, hi := none } with tot := 0xFFFFF, totsat := true }
      let sh : Shot := ⟨⟨port, 1, false, false, w.holdover, p.subst, false, false, 2⟩, [y]⟩
      let s := s.setUnit u { x with jig := 0 }
      if Nat.ble (2 ^ 20) y.time then s.inc (F.RTA_POVF_COUNT port) else s.offer (sh.capRec s.now)

/-- The low comparator of a unit stands for its port at the hard channel (R125): a spare's while it serves a port, a port's own
otherwise. -/
def State.tapOf (s : State) (unit : Nat) : Option Nat :=
  if unit < 256 then
    let r := rowOf unit
    if s.flag (F.RTA_SPARE_INUSE r) && s.rd (F.RTA_SPARE_SRC r) == unit % 32 then none else some unit
  else s.portOfUnit unit

/-- A comparator edge reaches the hard channel ahead of the TDC (R125), whatever window is open. -/
def State.tapEdge (s : State) (unit : Nat) (bin : Int) : State :=
  match s.tapOf unit with
  | some p => s.chbEdge p (if unit < 256 then none else some (unit - 256)) bin
  | none => s

/-- A hit of the ring oscillator at a unit of an open DENSITY window (R149, R150). -/
def State.densityHit (s : State) (unit : Nat) (e : Edge) : State :=
  match assoc s.rta.wins (unitGroup unit) with
  | none => s
  | some w =>
    if !(w.kind == .cal && w.post.any fun p => p.mode == 2) then s
    else match assoc w.units unit with
      | none => s
      | some p => (s.bgHit unit e.code).jigHit unit ((s.portOfUnit unit).getD unit) w p e

/-- A comparator edge reaches the TDC of a unit (R127, R128, R133, R134, R156). In a DENSITY window the ring oscillator drives the
TDCs instead (R149). -/
def State.tdcEdge (s : State) (unit : Nat) (lead : TdcCode) (e : Edge) : State :=
  let g := unitGroup unit
  match (assoc s.rta.wins g).bind fun w => (assoc w.units unit).map fun p => (w, p) with
  | none =>
    match (if 256 ≤ unit then assoc s.rta.verif g else none) with
    | none => s
    | some p =>
      let p := ((p.take lead.n e none).1).settle 0 0 48
      s.modRta fun a => { a with verif := assocPut a.verif g p }
  | some (w, p) =>
    if (w.kind == .cal && w.post.any fun x => x.mode == 2) || (p.subst && unit < 256) then s
    else
      let freq := (w.post.filter fun x => x.freq).map fun x => x.presc
      let (p, took) := p.take lead.n e freq
      let w := ({ w with units := assocPut w.units unit p }).settle
      let s := s.modRta fun a => { a with wins := assocPut a.wins g w }
      let s := if took == .ovf then (match s.portOfUnit unit with | some q => s.inc (F.RTA_POVF_COUNT q) | none => s) else s
      if w.kind == .listen && (took == .captured || (took == .uncaptured && freq.isSome)) then s.bgHit unit e.code else s

/-- COMPARATOR_EDGE (R125 to R128, R134, R149): a low-comparator pulse of a port or spare, which channel B sees ahead of the
receivers, or in a DENSITY slot a hit of the ring oscillator. -/
def execComparatorEdge (t unit : Nat) (lead : TdcCode) (trail hi : Option TdcCode) (bin : Option Int) (s : State) :
    Host.Outcome State Fault Refusal :=
  let s := (s.begin t).openDue
  let e := s.edgeOf unit lead trail hi
  if Nat.ble 264 unit then .next s
  else match bin with
    | none => .next (s.densityHit unit e)
    | some b => .next ((s.tapEdge unit b).tdcEdge unit lead e)

/-! ### Calibration slots (R146 to R151) -/

/-- The criteria of R147. -/
def PWin.passes (w : PWin) (delay amp tol : Nat) : Bool :=
  w.stops.any fun x =>
    !x.early && !x.totsat && Nat.ble ((x.time : Int) - delay).natAbs tol && Nat.ble 768 x.tot && Nat.ble x.tot 1280 &&
      (w.mode != 0 || Nat.blt amp (w.thrH + 8) || x.hi)

/-- TIME − DELAY of the kept stop nearest to the injection, and its i16 (R148, R159). -/
def PWin.nearest (w : PWin) (delay : Nat) : Option (Int × Int) :=
  w.stops.foldl (fun best x =>
    let d : Int := (if x.early then -(x.time : Int) else x.time) - delay
    match best with
    | none => some (d, x.i16)
    | some b => if d.natAbs < b.1.natAbs then some (d, x.i16) else best) none

/-- RTA_PCHK after a CHECK or THRESH slot (R147, R151, R159). -/
def State.writePchk (s : State) (port : Nat) (w : PWin) (post : WinPost) : State :=
  let s := ((s.put (F.RTA_PCHK_VALID port) true).put (F.RTA_PCHK_LOHIT port) w.loHit).put (F.RTA_PCHK_HIHIT port) w.hiHit
  if post.mode != 0 then s
  else
    let dev : Int := match w.nearest post.delay with
      | none => -2048
      | some b => clampZ (-2047) 2047 b.1
    (s.wrZ (F.RTA_PCHK_DEV port) dev).put (F.RTA_PCHK_PASS port) (w.passes post.delay post.amp (s.rd F.RTA_CHK_TOL))

/-- A spare is judged (R147, R153). -/
def State.judgeSpare (s : State) (r : Nat) (ok : Bool) : State :=
  let s := s.put (F.RTA_SPARE_PASS r) ok
  if ok then s.wr (F.RTA_SPARE_CHKFAILS r) 0 else s.selfCheckFails (256 + r)

/-- A CHECK slot of one unit is judged (R147); a port whose substitution runs, at the opening or now, is not evaluated (R158).
The result of a spare that serves a port stands in that port's RTA_PCHK too (log entry 174). -/
def State.judgeCheck (s : State) (w : GWin) (post : WinPost) (e : Nat × PWin) : State :=
  let ok := e.2.passes post.delay post.amp (s.rd F.RTA_CHK_TOL)
  if 256 ≤ e.1 then
    let s := match assoc w.served (e.1 - 256) with
      | some p => s.writePchk p e.2 post
      | none => s
    s.judgeSpare (e.1 - 256) ok
  else if e.2.subst || s.substRunning e.1 then s
  else
    let s := s.writePchk e.1 e.2 post
    if ok then s.wr (F.RTA_PSTAT_CHKFAILS e.1) 0 else s.selfCheckFails e.1

/-- Accumulate a SKEW slot at a unit (R148). -/
def State.addSkew (s : State) (u : Nat) (d : Int) : State :=
  let x := s.unitSt u
  s.setUnit u { x with skSum := x.skSum + d, skN := x.skN + 1 }

/-- A unit's stop nearest the pulse enters its skew mean (R148); a slot in which the unit keeps no stop is not counted (log entry
175). -/
def State.skewHit (s : State) (post : WinPost) (e : Nat × PWin) : State :=
  if e.2.subst then s
  else match e.2.nearest post.delay with
    | none => s
    | some b => s.addSkew e.1 (b.2 - 16 * post.delay)

/-- What a THRESH window finds at a unit: a spare writes for the port that it served. -/
def State.threshOf (s : State) (w : GWin) (post : WinPost) (e : Nat × PWin) : State :=
  if e.1 < 256 then (if e.2.subst then s else s.writePchk e.1 e.2 post)
  else match assoc w.served (e.1 - 256) with
    | some p => s.writePchk p e.2 post
    | none => s

/-- The evaluation of a CAL window when its last receiver has closed: spares first, then ports in rising order (R153). -/
def State.evalCal (s : State) (w : GWin) (post : WinPost) : State :=
  let us := w.closed.mergeSort fun a b => if 256 ≤ a.1 && b.1 < 256 then true else if a.1 < 256 && 256 ≤ b.1 then false
    else decide (a.1 ≤ b.1)
  if post.mode == 0 then us.foldl (fun s e => s.judgeCheck w post e) s
  else if post.mode == 1 then us.foldl (fun s e => s.skewHit post e) s
  else if post.mode == 3 then us.foldl (fun s e => s.threshOf w post e) s
  else s

/-! ### The close of receivers (R135, R137, R141, R156, R184) -/

/-- The per-port counters of R159. -/
def State.countShot (s : State) (port : Nat) (p : PWin) : State :=
  let s := s.count (F.RTA_PSTOPS_COUNT port) p.stops.length
  let s := s.count (F.RTA_PEARLY_COUNT port) (p.stops.filter fun x => x.early).length
  let s := s.count (F.RTA_PMERGED_COUNT port) (p.stops.filter fun x => x.merged).length
  let s := s.count (F.RTA_POVF_COUNT port) p.discards
  if p.more then s.inc (F.RTA_PMORE_COUNT port) else s

/-- The 64 bins of a LISTEN record (R184). -/
def listenBins (bink : Nat) (stops : List Stop) : SMap Nat :=
  (stops.filter fun x => !x.early).foldl (fun m x =>
    let b := min 63 (x.time / 2 ^ bink)
    m.setNat b (m.nat b + 1)) []

/-- The LISTEN record of a port (R184), to the tracker and to the CAP. -/
def State.listenRecord (s : State) (w : GWin) (post : WinPost) (port : Nat) (p : PWin) : State :=
  let bins := listenBins post.bink p.stops
  let n := (bins.map Prod.snd).sum
  let ws := [mkWord [(12, port), (8, post.bink), (7, b2n post.freq), (6, b2n w.holdover), (5, b2n p.subst), (4, b2n p.more)],
    BitVec.ofNat 20 n, BitVec.ofNat 20 w.len, BitVec.ofNat 20 w.openDev] ++
    (List.range 64).map fun b => BitVec.ofNat 20 (bins.nat b)
  let s := s.modRpe fun r => { r with
    ambQ := r.ambQ ++ [.listen port n w.len post.bink ((bins.map Prod.fst).foldl max 0) p.more (!bins.isEmpty)] }
  if s.capWants 3 port then
    s.offer { (default : CapRec) with typ := 3, port := port, time := w.openDev, body := ws,
                                      vals := [(7, (bins.map Prod.snd).foldl max 0), (8, satN 20 n)] }
  else s

/-- A window of a frequency gate ends at a unit (R156). -/
def UnitSt.addGate (x : UnitSt) (n sx sk p : Nat) : UnitSt :=
  if n < 2 then x
  else { x with fqA := x.fqA + 2 * (sk : Int) - ((n : Int) - 1) * sx, fqB := x.fqB + (n : Int) * (n * n - 1) * p, fqT := x.fqT + n }

/-- What the close of one unit of a window yields for its port. -/
def State.closeUnit (s : State) (w : GWin) (unit port : Nat) (p : PWin) : State :=
  let s := s.countShot port p
  match w.kind, w.post with
  | .fire, _ =>
    match w.fire with
    | none => s
    | some f => s.modRta fun a => { a with recs := a.recs.map fun r =>
        if r.fire.id == f.id then { r with shots := r.shots ++ [(port, w.shot port p)] } else r }
  | .listen, some post =>
    let s := if post.freq then
        let x := s.unitSt unit
        s.setUnit unit { x.addGate p.fqN p.fqS p.fqK post.presc with fqW := x.fqW + 1 }
      else s
    if post.amb then s.listenRecord w post port p else s
  | _, _ => s

/-- The port that a unit of a window stands for; none for a free spare in a CAL slot. -/
def GWin.portOf (w : GWin) (unit : Nat) : Option Nat :=
  if unit < 256 then some unit else assoc w.served (unit - 256)

/-- The shot of a closed unit is offered to the CAP as a RAW record. -/
def State.offerUnit (s : State) (w : GWin) (e : Nat × PWin) : State :=
  match w.portOf e.1 with
  | none => s
  | some port => s.offerRaw w.openClk ((w.shot port e.2).capRec w.openDev)

/-- The last receiver of a window has closed: RAW records in port order, the evaluation of a CAL slot, and the group is
free. -/
def State.closeGroup (s : State) (g : Nat) (w : GWin) : State :=
  let s := w.closed.foldl (fun s e => s.offerUnit w e) s
  let s := (s.modRta fun a => { a with wins := assocDel a.wins g }).releaseRaw
  let s := match w.kind, w.post with
    | .cal, some post => s.evalCal w post
    | _, _ => s
  s.settle

/-- RECEIVER_CLOSE (R135, R137): the receivers of a unit close. -/
def execReceiverClose (t unit : Nat) (s : State) : Host.Outcome State Fault Refusal :=
  let s := (s.begin t).openDue
  let g := unitGroup unit
  match assoc s.rta.wins g with
  | none => .next s
  | some w =>
    match assoc w.units unit with
    | none => .next s
    | some p =>
      if !(w.endClk.any fun e => Nat.ble e s.clk) then .next s
      else
        let w := { w with units := assocDel w.units unit, closed := w.closed ++ [(unit, p)] }
        let s := s.modRta fun a => { a with wins := assocPut a.wins g w }
        let s := match w.portOf unit with
          | none => s
          | some port => s.closeUnit w unit port p
        let s := if w.units.isEmpty then s.closeGroup g w else s
        .next s.openDue

/-! ### Spares (R152 to R154) -/

/-- SPARE_SETTLED (R152): 8 µs after the start the port's configuration is copied and the verification pulse injected. -/
def execSpareSettled (t row : Nat) (s : State) : Host.Outcome State Fault Refusal :=
  let s := s.begin t
  match assoc s.rta.subs row with
  | none => .next s
  | some b =>
    if b.stage != .settling || Nat.blt s.clk (b.t0 + 8000) then .next s
    else
      let s := s.modRta fun a => { a with
        copied := assocPut a.copied row (s.cfgWords b.port), subs := assocPut a.subs row { b with stage := .verifying } }
      .next (s.modRta fun a => { a with verif := assocPut a.verif row (s.openPWin (256 + row) b.port true) })

/-- The fixed verification pulse (R152): min(1,023, max(THR_L, THR_H) + 16). -/
def PWin.verifyAmp (w : PWin) : Nat := min 1023 (max w.thrL w.thrH + 16)

/-- VERIFICATION_DONE (R152, R153): the spare takes the port's stops, or fails and the port goes OFF. -/
def execVerificationDone (t row : Nat) (s : State) : Host.Outcome State Fault Refusal :=
  let s := s.begin t
  match assoc s.rta.subs row with
  | none => .next s
  | some b =>
    if b.stage != .verifying then .next s
    else
      let w := (assoc s.rta.verif row).getD default
      let ok := w.passes 4096 w.verifyAmp (s.rd F.RTA_CHK_TOL)
      let s := s.modRta fun a => { a with subs := assocDel a.subs row, verif := assocDel a.verif row }
      let s := s.put (F.RTA_SPARE_PASS row) ok
      if ok then .next (((s.wr (F.RTA_SPARE_CHKFAILS row) 0).refreshActive b.port).unbridge b.port).safEval
      else .next ((s.spareFail row).portGoesOff b.port)

/-! ### Background tables and skew (R131, R133, R148) -/

/-- The fine table of a density histogram (R131). -/
def fineTable (h : SMap Nat) : List Nat :=
  let n := (h.map Prod.snd).sum
  ((List.range 256).foldl (fun (acc : List Nat × Nat) p =>
    (((4096 * (2 * acc.2 + h.nat p) + n) / (2 * n)) :: acc.1, acc.2 + h.nat p)) ([], 0)).1.reverse

/-- BACKGROUND_TABLE (R133): the density histogram of a port or of its spare is full. -/
def execBackgroundTable (t port : Nat) (s : State) : Host.Outcome State Fault Refusal :=
  let s := s.begin t
  let x := s.unitSt port
  if Nat.blt x.bgN (16 * s.rd F.RTA_BGH_H) || x.bgN == 0 then .next s
  else
    let new := fineTable x.bg
    let ok := (List.range 256).all fun p =>
      Nat.ble ((x.entry p : Int) - (new.getD p 0 : Nat)).natAbs (s.rd F.RTA_TRK_LUTTRK)
    let x := { x with bg := [], bgN := 0 }
    if ok then .next (s.setUnit port { x with pendLut := some new })
    else
      let s := s.setUnit port x
      let s := if port < 256 then s.put (F.RTA_PSTAT_LUTJUMP port) true else s
      .next (s.selfCheckFails port)

/-- The start TDC of a row fails a self-check (R129). -/
def State.startFails (s : State) (r : Nat) : State :=
  let x := s.unitSt (264 + r)
  let n := x.fails + 1
  let s := s.setUnit (264 + r) { x with fails := n }
  if Nat.ble (max 1 (s.rd F.RTA_CHK_NFAIL)) n then s.wr F.RTA_STARTFAIL_FAIL (s.rd F.RTA_STARTFAIL_FAIL ||| 2 ^ r) else s

/-- Add a mean to the skew Shim of a port, a spare in service or a start TDC; a Shim that would leave its 16 bits stays at the end
of their range (log entry 176). -/
def State.moveSkew (s : State) (u : Nat) (d : Int) : State :=
  let lim := clampZ (-32768) 32767
  if u < 256 then s.wrZ (F.RTA_PSKEW_SKEW u) (lim (s.rdZ (F.RTA_PSKEW_SKEW u) + d))
  else if u < 264 then
    let k := 32 * (u - 256) + s.rd (F.RTA_SPARE_SRC (u - 256))
    s.modRta fun a => { a with spareSkew := SMap.put (fun _ => 0) a.spareSkew k (lim (SMap.get (fun _ => 0) a.spareSkew k + d)) }
  else
    let v := lim (SMap.get (fun _ => 0) s.rta.startSkew (u - 264) + d)
    s.modRta fun a => { a with startSkew := SMap.put (fun _ => 0) a.startSkew (u - 264) v }

/-- SKEW_UPDATE (R148): the mean of SKEWN slots, a half rounded away from zero (log entry 177), moves the skew Shim. A port's or
spare's addition beyond SKEWTRK is not made and counts as a failed self-check. Unit 264 + r is the start TDC of row r: its
addition is always made, and one beyond SKEWTRK is its failed self-check of R129 (log entry 21). -/
def execSkewUpdate (t unit : Nat) (s : State) : Host.Outcome State Fault Refusal :=
  let s := s.begin t
  let x := s.unitSt unit
  if x.skN == 0 || Nat.blt x.skN (s.rd F.RTA_SKEWN_N) then .next s
  else
    let d := rdiv0 x.skSum x.skN
    let small := Nat.ble d.natAbs (16 * s.rd F.RTA_TRK_SKEWTRK)
    let s := s.setUnit unit { x with skSum := 0, skN := 0, fails := if 264 ≤ unit && small then 0 else x.fails }
    if small then .next (s.moveSkew unit d)
    else if 264 ≤ unit then .next ((s.moveSkew unit d).startFails (unit - 264))
    else
      let s := if unit < 256 then s.put (F.RTA_PSTAT_SKEWJUMP unit) true else s
      .next (s.selfCheckFails unit)

/-! ### Registers -/

/-- RTA_GSTAT, RTA_PBGN, PSKEW and RTA_LUT as they read (R159, R161). -/
def State.viewRta (s : State) (a : Nat) : Option Word :=
  if a == 0x5000 then
    let use := ((List.range 8).filter fun r => s.flag (F.RTA_SPARE_INUSE r)).map fun r => 2 ^ r
    some (mkWord [(12, use.sum), (0, ((List.range 256).filter s.portOff).length)])
  else if 0x4000 ≤ a && a < 0x5000 && a % 16 == 14 then some (BitVec.ofNat 20 (satN 20 ((s.unitSt ((a - 0x4000) / 16)).bgN / 16)))
  else if 0x5100 ≤ a && a < 0x5200 then some (BitVec.ofNat 20 ((s.unitSt (s.rd F.RTA_LUT_SEL_SEL)).entry (a - 0x5100)))
  else none

end Sys2Proof.Machine
end

