-- ==== Sys2Proof/Machine/Control.lean ====
section
/-! DEFINITION. The Control Engine (R257 to R262): set-point generators, hand-overs and the laws of L0 and L1. -/

namespace Sys2Proof

/-- The integer square root, found bit by bit. -/
def isqrtFrom : Nat → Nat → Nat → Nat
  | 0, _, r => r
  | k + 1, n, r => isqrtFrom k n (if (r + 2 ^ k) * (r + 2 ^ k) ≤ n then r + 2 ^ k else r)

def isqrt (n : Nat) : Nat := isqrtFrom 40 n 0

/-- The sign of an integer: −1, 0 or 1. -/
def sgn (z : Int) : Int := if z < 0 then -1 else if z = 0 then 0 else 1

namespace Machine

/-- What a loop's registers give a sample: the target, the largest set-point and the rates in 1/256 unit, the band in units. -/
structure LoopPar where
  tgt  : Int
  slew : Int
  vmax : Int
  amax : Int
  jmax : Int
  band : Int
  lim  : Int
  deriving DecidableEq, Repr, Inhabited

/-- One sample of the set-point generator in PROFILE (R260). -/
def Loop.profileStep (l : Loop) (p : LoopPar) : Loop :=
  let d := p.tgt - l.p
  let s := sgn d
  let vs := s * min p.vmax (isqrt (2 * p.amax.toNat * d.natAbs))
  let a := clampZ (l.a - p.jmax) (l.a + p.jmax) (clampZ (-p.amax) p.amax (vs - l.v))
  let v := clampZ (-p.vmax) p.vmax (l.v + a)
  if d == 0 || sgn (p.tgt - (l.p + v)) != s then { l with p := p.tgt, v := 0, a := 0, reached := true, spt := min p.lim p.tgt }
  else { l with p := l.p + v, v := v, a := a, reached := false, spt := min p.lim (l.p + v) }

/-- One sample of the set-point generator in SLEW (R260). -/
def Loop.slewStep (l : Loop) (p : LoopPar) : Loop :=
  let x := min p.lim (l.spt + clampZ (-p.slew) p.slew (p.tgt - l.spt))
  { l with spt := x, reached := x == p.tgt }

/-- The loop is ARRIVED (R261). -/
def Loop.arrived (l : Loop) : Bool := Nat.ble 3 l.arr

/-- One sample of a loop's generator with its measured quantity (R260 to R262); the law of its output follows. While `run` is
false the set-point is held (R266) and no hand-over takes place. -/
def Loop.sample (l : Loop) (p : LoopPar) (run : Bool) (meas : Int) : Loop :=
  let x := if !run then l else if l.profile then l.profileStep p else l.slewStep p
  let near := x.reached && decide ((256 * meas - p.tgt).natAbs ≤ (256 * p.band).natAbs)
  let x := { x with rate := x.spt - l.spt, arr := if near then min 3 (l.arr + 1) else 0, measPrev := l.meas, meas := meas }
  if !x.pending || !run then x
  else if x.profile then (if x.arrived then { x with profile := false, pending := false } else x)
  else { x with profile := true, pending := false, p := x.spt, v := x.rate, a := 0 }

/-- The error of R257 lies below −BAND or above +BAND. -/
def Loop.below (l : Loop) (p : LoopPar) : Bool := decide (256 * l.meas - l.spt < -(256 * p.band))
def Loop.above (l : Loop) (p : LoopPar) : Bool := decide (256 * p.band < 256 * l.meas - l.spt)

/-- A loop starts or recovers in PROFILE (R260, R262) from a measured quantity with its last difference; a request for SLEW
pends until it is ARRIVED. The set-point is limited from the start. -/
def Loop.start (l : Loop) (lim meas diff : Int) (wantProfile : Bool) : Loop :=
  { l with profile := true, pending := !wantProfile, p := 256 * meas, spt := min lim (256 * meas), v := 256 * diff, a := 0, arr := 0,
           reached := false }

/-- The request for a mode (R262). -/
def Loop.request (l : Loop) (profile : Bool) : Loop := { l with pending := l.profile != profile }

/-- BSEL of a loop as it stood before the present instant (R268). -/
def State.bselOf (s : State) (x : Nat) : Nat :=
  match assoc s.stu.bselAt x with
  | some (t, b) => if t == s.clk then b2n b else s.rd (F.CEN_CTL_BSEL x)
  | none => s.rd (F.CEN_CTL_BSEL x)

/-- The bank in use follows BSEL at a sample boundary (R259); a write at the boundary's own instant waits for the next (R268). -/
def State.takeBank (s : State) (x : Nat) : State := s.wr (F.CEN_CTL_ABANK x) (s.bselOf x)

/-- A write of BSEL. -/
def State.writeBsel (s : State) (x : Nat) (b : Bool) : State :=
  (s.modStu fun u => { u with bselAt := assocPut u.bselAt x (s.clk, s.bselOf x == 1) }).put (F.CEN_CTL_BSEL x) b

/-- The bank in use of a loop. -/
def State.bank (s : State) (x : Nat) : Nat := s.rd (F.CEN_CTL_ABANK x)

/-- The parameters of L0 and L1. -/
def State.loopPar (s : State) (x : Nat) : LoopPar :=
  let b := s.bank x
  let lim := if x == 0 then s.rd (F.CEN_L0_LIM_LIM b) else s.rd F.EDU_HV_LIM_HV_MAX
  let tgt := min lim (s.rd (if x == 0 then F.CEN_L0_TGT_TGT else F.CEN_L1_TGT_TGT))
  { tgt := 256 * (tgt : Int), slew := s.rd (F.CEN_SLEW_SLEW x), vmax := s.rd (F.CEN_VMAX_VMAX x), amax := s.rd (F.CEN_AMAX_AMAX x),
    jmax := s.rd (F.CEN_JMAX_JMAX x), band := s.rd (if x == 0 then F.CEN_L0_BAND_BAND b else F.CEN_L1_BAND_BAND b),
    lim := 256 * (lim : Int) }

/-- CEN_Lx_SPT reports the set-point in whole units (R272). -/
def State.noteSpt (s : State) (x : Nat) (l : Loop) : State := s.wr (F.CEN_SPT_SPT x) (l.spt / 256).toNat

/-- One sample of L1 (R257): u = 1 below the band, 0 above it, unchanged inside. -/
def State.sampleL1 (s : State) (meas : Int) : State :=
  let s := s.takeBank 1
  let p := s.loopPar 1
  let l := s.stu.l1.sample p true meas
  let u := if l.below p then 1 else if l.above p then 0 else l.u
  (s.modStu fun x => { x with l1 := { l with u := u } }).noteSpt 1 { l with u := u }

/-- One sample of L0 (R257), resonant or quasi-static; with the drive stopped it holds its set-point (R266). -/
def State.sampleL0 (s : State) (meas : Int) : State :=
  let s := s.takeBank 0
  let p := s.loopPar 0
  let l := s.stu.l0.sample p s.stu.drive meas
  let u := if l.below p then 1 else if l.above p then -1 else if s.resonant then 0 else l.u
  (s.modStu fun x => { x with l0 := { l with u := u } }).noteSpt 0 { l with u := u }

/-- L1 follows EDU_HV_SET (R105, R272); a change of target clears ARRIVED (R261). -/
def State.followHv (s : State) : State :=
  let v := s.rd F.EDU_HV_SET_HV
  if s.rd F.CEN_L1_TGT_TGT == v then s
  else (s.wr F.CEN_L1_TGT_TGT v).modStu fun x => { x with l1 := { x.l1 with arr := 0 } }

/-- L1 starts, or restarts after a boost fault, in PROFILE from the node's voltage and its difference over the last two samples
(R260, R262). -/
def State.startL1 (s : State) : State :=
  let hv : Int := s.rd F.EDU_HV_HV
  s.modStu fun x => { x with l1 := x.l1.start (s.loopPar 1).lim hv (x.l1.meas - x.l1.measPrev) (s.flag (F.CEN_CTL_MODE 1)) }

end Machine

end Sys2Proof
end

