-- ==== Sys2Proof/Machine/Emitter.lean ====
section
/-! DEFINITION. The emitter drive and the energy governor (chapter 3). -/

namespace Sys2Proof.Machine


/-! ### The governor (R110 to R114) -/

/-- The current target V_ref of a column (R93), G × (63 + 2·T_eff), in units of 250/126 µV across R_SNS. -/
def Fire.vref (f : Fire) (adj : Int) (c : Nat) : Nat :=
  f.g * (63 + 2 * (clampZ 0 63 ((f.trims.getD c 0 : Nat) + adj)).toNat)

/-- The energy of a fire in EU with an L2 step (R93, R112). -/
def State.energy (s : State) (f : Fire) (adj : Int) : Nat :=
  let cols := (List.range 8).filter fun c => f.colmask.getLsbD c
  cdiv ((cols.map (f.vref adj)).sum * f.pw * (s.rd (F.EDU_BURST_W0_PM1 f.burst) + 1) * s.rd F.EDU_GOV_K_KGOV) (2 ^ 24)

/-- The bucket width of a window (R110). -/
def bucketNs (i : Nat) : Nat := match i with | 0 => 16 | 1 => 1024 | _ => 65536

/-- The governor time of an instant. -/
def State.govOf (s : State) (clk : Nat) : Nat := clk - s.tbu.gov0.getD 0

/-- The sum of window i at an instant `c` (R110): the charges that the sums hold then, of the current bucket and the 64
before it. -/
def State.govSum (s : State) (i c : Nat) : Nat :=
  let b := bucketNs i
  ((s.edu.shots.filter fun e => Nat.ble e.since c && Nat.ble (s.govOf c / b) (s.govOf e.t0 / b + 64)).map Charge.eu).sum

/-- MOVING had been asserted without interruption for 4,194,304 ns at an instant `c`, so the moving ceilings applied (R114). -/
def State.movingAt (s : State) (c : Nat) : Bool :=
  s.edu.movSince.any (fun m => Nat.ble (m + 4194304) c) || s.edu.movLast.any fun m => Nat.ble (m.1 + 4194304) c && Nat.blt c m.2

/-- The moving ceilings apply (R114). -/
def State.moving (s : State) : Bool := s.movingAt s.clk

/-- The ceiling of window i at an instant (R111, R114). -/
def State.ceiling (s : State) (i c : Nat) : Nat := s.rdWide ((if s.movingAt c then 0x2108 else 0x210E) + 2 * i) 2

/-- The windows in which a shot of `epred` would take the sum of an instant `c` above its ceiling (R112). -/
def State.overWindows (s : State) (c epred : Nat) : List Nat :=
  (List.range 3).filter fun i => Nat.blt (s.ceiling i c) (s.govSum i c + epred)

/-- A row may fire (R103). -/
def State.rowOk (s : State) (r : Nat) : Bool :=
  bitOf (s.rd F.EDU_ROW_EN_EN) r && !bitOf (s.rd F.EDU_FAULT_LASER_FAULT) r && !bitOf (s.rd F.EDU_FAULT_EMIT_EXCESS) r

/-- Shots that no window counts any longer at the governor's check (R112) leave its account. -/
def State.pruneShots (s : State) : State :=
  let g := s.gov - 4
  s.modEdu fun e => { e with shots := e.shots.filter fun x => Nat.ble (g / 65536) (s.govOf x.t0 / 65536 + 64) }

/-- The instant of the governor's check for a fire issued now (R91, R112): t0 − 4 ns. -/
def State.checkAt (s : State) : Nat := s.clk - 4

/-- The governor's check at t0 − 4 ns (R112, R113, R115): whether it permits the shot, by the sums and the MOVING input of that
instant. A permitted shot is charged from that instant on; an inhibited shot is counted. -/
def State.govern (s : State) (epred : Nat) (checkDone : Bool) : Bool × State :=
  if !checkDone then (false, (s.inc F.EDU_GINH_LATE_COUNT).modEdu fun e => { e with lastInh := true })
  else
    let bad := s.overWindows s.checkAt epred
    let s := bad.foldl (fun s i => s.inc (F.EDU_GINH_COUNT i)) s
    if bad.isEmpty then (true, s.modEdu fun e => { e with lastInh := false, shots := e.shots ++ [⟨s.clk, epred, s.checkAt⟩] })
    else (false, s.modEdu fun e => { e with lastInh := true })

/-! ### FIRE_COMMAND (R52, R91, R103, R104) -/

/-- The four checks of R52 at an instant for the fire at the head of the queue, by the windows as they stand. -/
def State.fireReadyAt (s : State) (f : Fire) (c : Nat) : Bool :=
  (match assoc s.edu.rowLast f.row with | none => true | some x => Nat.ble (x + 2000) c) &&
  (match s.edu.prevEndQ with | none => true | some q => Nat.ble (q + 96) (4 * c)) &&
  s.groupFree f.row && s.seq.wins.all fun w => !(w.groups.contains f.row && Nat.ble w.id f.id)

/-- The four checks of R52 for the fire at the head of the queue. -/
def State.fireReady (s : State) (f : Fire) : Bool := s.fireReadyAt f s.clk

/-- The end of a burst in 1/4 ns (R91). -/
def State.burstEndQ (s : State) (f : Fire) (t0 : Nat) : Nat := 4 * (t0 + (s.burstOfs f.burst).getLast?.getD 0) + f.pw

/-- The slot contract (R235): from the fire instant to the burst end inside one owned slot. -/
def State.slotCheck (s : State) (f : Fire) : State :=
  let n := s.rd F.CTL_SLOT_CFG_SLOTN
  let len := s.rd F.CTL_SLOT_LEN_LEN
  if n == 0 then s
  else
    let t := s.now
    let slot := t % (n * len) / len
    let own := bitOf (s.rd (F.CTL_SLOT_MASK_MASK (slot / 16))) (slot % 16)
    if own && decide (s.burstEndQ f (t % len) ≤ 4 * len) then s
    else (s.inc F.CTL_SLOT_VIOL_COUNT).raise 0x0B .warn f.row

/-- START_OFS of a row in u (R100, R129). -/
def State.startOfs (s : State) (r : Nat) : Nat := s.rta.startOfs.nat r

/-- The window of a fire opens at t0 on the ports of its columns (R57, R58, R127). -/
def State.openFire (s : State) (f : Fire) (emit : Bool) (line : Nat) (subst : Bool) : State :=
  let ports := (groupPorts f.row).filter fun p => f.colmask.getLsbD (colOf p)
  let w : GWin := { (default : GWin) with
    kind := .fire, openClk := s.clk, openDev := s.now, len := f.win, fire := some f, noemit := !emit, line := line,
    subst := subst, ref := if emit then none else some (s.startOfs f.row : Int) }
  let s := s.openGroup f.row ports false false w
  let cols := ports.map fun p => (f.col + 4 * colOf p + subOf p, p)
  let s := s.modFso fun x => { x with colPort := cols.foldl (fun m e => assocPut m e.1 e.2) x.colPort }
  match assoc s.rta.wins f.row with
  | none => s
  | some w =>
    if w.active.isEmpty then s
    else
      let r : FireRec := { (default : FireRec) with
        fire := f, openDev := w.openDev, noemit := !emit, holdover := w.holdover, line := line, dead := w.dead,
        active := w.active, zanc := w.zanc, unrel := w.unrel, km1 := w.km1, cwm1 := w.cwm1, zcbink := w.zcbink,
        opened := w.opened.filterMap w.portOf }
      s.modRta fun a => { a with recs := a.recs ++ [r] }

/-- The fire at the head of the queue leaves (R52, R60, R91, R103, R104, R112). -/
def State.fireRow (s : State) (f : Fire) (checkDone : Bool) : State :=
  let s := (s.modSeq fun q => { q with fires := q.fires.tail }).pruneShots
  let line := if f.lsrc then s.angleBin f.instant else f.line
  let marked := fun (x : Sense) => x.substFrom.any fun y => Nat.ble y f.instant
  let subst := f.lsrc && (marked s.stu.ctrl || marked s.stu.mon)
  let s := (s.logSector s.now).slotCheck f
  let adj := s.rdZ (F.EDU_ADJ_ADJ f.row)
  let epred := s.energy f adj
  let (emit, s) := if s.chgOk && s.rowOk f.row then s.govern epred checkDone else (false, s)
  let endQ := s.burstEndQ f s.clk
  let fl : Flight := ⟨f.id, f.row, s.clk, endQ, epred, s.energy f 0, emit⟩
  let bm : Beam := ⟨f.row, s.clk, emit, f.colmask, (List.range 8).map (f.vref adj), s.burstOfs f.burst, f.pw, endQ⟩
  let s := s.modEdu fun e => { e with
    rowLast := assocPut e.rowLast f.row s.clk, prevEndQ := some endQ, beam := some bm,
    starts := if emit then e.starts ++ [fl] else e.starts, reads := if emit then e.reads ++ [fl] else e.reads }
  (s.openFire f emit line subst).settle

/-- FIRE_COMMAND (R52): at a fire instant the EDU fires the row, or holds the fire and every later one. `checkDone`: the
governor's check has completed at t0 − 4 ns (R112). A HALTED sequencer's fires are not issued (R80). -/
def execFireCommand (t : Nat) (checkDone : Bool) (s : State) : Host.Outcome State Fault Refusal :=
  let s := (s.begin t).openDue
  match s.seq.fires with
  | [] => .next s
  | f :: fs =>
    if Nat.blt s.now f.instant || s.halted then .next s
    else if s.fireReady f then .next (s.fireRow f checkDone)
    else if f.held then .next s
    else .next (s.modSeq fun q => { q with fires := { f with held := true } :: fs }).noteHold

/-! ### Row gates and column sinks (R90 to R93, R112, R120) -/

/-- The fire that will be issued within the next 4 ns as the state stands: its check is made and its gate asserted already
(R91, R112; log entry 171). -/
def State.ahead (s : State) : Option Fire :=
  match s.seq.fires with
  | [] => none
  | f :: _ =>
    let c := s.clkOf f.instant
    let epred := s.energy f (s.rdZ (F.EDU_ADJ_ADJ f.row))
    if Nat.blt s.clk c && Nat.ble c (s.clk + 4) && !s.halted && s.fireReadyAt f c && s.chgOk && s.rowOk f.row &&
      (s.overWindows (c - 4) epred).isEmpty then some f else none

/-- The energy that the check of a fire ahead has charged to every sum (R112, R113). -/
def State.aheadEu (s : State) : Nat := match s.ahead with | none => 0 | some f => s.energy f (s.rdZ (F.EDU_ADJ_ADJ f.row))

/-- ROW_Gr is asserted `q` quarters of a ns into the model's time (R90, R91): from t0 − 4 ns of a shot that emits to tB. -/
def Beam.gate (b : Beam) (r q : Nat) : Bool := b.emit && b.row == r && Nat.ble (4 * (b.t0 - 4)) q && Nat.blt q b.endQ

/-- ROW_Gr now. -/
def State.rowGate (s : State) (r : Nat) : Bool :=
  s.edu.beam.any (fun b => b.gate r (4 * s.clk)) || s.ahead.any fun f => f.row == r

/-- What a column sink does: nothing, regulate to V_ref (in units of 250/126 µV), or pre-charge at 1/16 of full scale. -/
inductive Sink where
  | off
  | regulate (vref : Nat)
  | precharge
  deriving DecidableEq, Repr

/-- Column sink `c` at `q` quarters of a ns (R90 to R92): the columns of COLMASK regulate for each sub-pulse of a shot that
emits; for 20 ns from tB on every sink conducts at the pre-charge current, after a shot that emitted nothing too (R115). -/
def Beam.sink (b : Beam) (c q : Nat) : Sink :=
  if Nat.ble b.endQ q && Nat.blt q (b.endQ + 80) then .precharge
  else if b.emit && b.cols.getLsbD c && b.ofs.any fun o => Nat.ble (4 * (b.t0 + o)) q && Nat.blt q (4 * (b.t0 + o) + b.pw) then
    .regulate (b.vref.getD c 0)
  else .off

/-- Column sink `c` at `q` quarters of a ns; off until the first fire (R120). -/
def State.sinkAt (s : State) (c q : Nat) : Sink := match s.edu.beam with | none => .off | some b => b.sink c q

/-! ### Starts (R100, R101, R129) -/

/-- The start TDC of a row counts as failed (R129). -/
def State.startFailed (s : State) (r : Nat) : Bool := bitOf (s.rd F.RTA_STARTFAIL_FAIL) r

/-- Frequency mode of a start or trigger TDC (R156): an edge at `e` in u from the gate's start, with prescaler P and its trailing
edge where that is known. An edge in the dead time of R128 is lost. -/
def UnitSt.freqEdge (x : UnitSt) (p : Nat) (e : Int) (trail : Option Int) : UnitSt :=
  if x.lastEnd.any fun y => decide (e < y + 8192) then x
  else
    let n := x.fqSeen + 1
    let x := { x with fqSeen := n, lastEnd := trail, fqOpen := trail.isNone }
    if n % max 1 p == 0 then { x with fqN := x.fqN + 1, fqS := x.fqS + e.toNat, fqK := x.fqK + x.fqN * e.toNat } else x

/-- The trailing edge of the last accepted edge of a trigger TDC. -/
def UnitSt.trailEdge (x : UnitSt) (e : Int) : UnitSt := if x.fqOpen then { x with lastEnd := some e, fqOpen := false } else x

/-- Keep a received start for START_OFS (R481): the first 256 of each row during seeding, E − t0 in u. -/
def State.noteSeedStart (s : State) (row : Nat) (e : Int) : State :=
  let l := (assoc s.rta.seedStarts row).getD []
  if s.rpe.seeding && Nat.blt l.length 256 then
    s.modRta fun a => { a with seedStarts := assocPut a.seedStarts row (e :: l) }
  else s

/-- START_EDGE (R100, R101, R129): an edge of MPDr, which channel B sees too (R283). Within 5 ns of t0 it is the row's optical
start; in a SKEW slot it is the injected pulse; with the row disabled and FEN = 1 it feeds frequency mode. OFS_S is that with
which the row's window opened (R158). -/
def execStartEdge (t row : Nat) (code : PulseCode) (bin : Int) (s : State) : Host.Outcome State Fault Refusal :=
  let s := (s.begin t).openDue
  let u := 264 + row
  let e := s.edgeTime u code.lead
  let ofs := ((assoc s.rta.wins row).map fun w => w.startSkew).getD (SMap.get (fun _ => 0) s.rta.startSkew row)
  let skew : Option Nat := ((assoc s.rta.wins row).bind fun w => w.post).bind fun (p : WinPost) =>
    if p.kind == WinKind.cal && p.mode == 1 then some p.delay else none
  if Nat.ble 8 row then .next s
  else
  let s := s.chbStart row bin
  match skew with
  | some d => .next (s.addSkew u (e - ofs - 16 * d))
  | none =>
    match s.edu.starts.find? fun f => f.row == row && Nat.ble s.clk (f.t0 + 5) with
      | none =>
        if !s.rowOk row && s.flag (F.RTA_FCFG_S_FEN row) then
          .next (s.setUnit u ((s.unitSt u).freqEdge (s.rd (F.RTA_FCFG_S_PRESCM1 row) + 1) e (code.trail.map (s.edgeTime u))))
        else .next s
      | some f =>
        if s.startFailed row then .next s
        else
          let s := s.modEdu fun x => { x with starts := x.starts.filter (fun y => y.id != f.id), miss := x.miss.setNat row 0 }
          .next ((s.noteSeedStart row e).setRef row (e - ofs) false)

/-- START_DEADLINE (R100, R101): no start has come by t0 + 5 ns; the eighth consecutive miss sets LASER_FAULT. -/
def execStartDeadline (t row : Nat) (s : State) : Host.Outcome State Fault Refusal :=
  let s := s.begin t
  match s.edu.starts.find? fun f => f.row == row && Nat.ble (f.t0 + 5) s.clk with
  | none => .next s
  | some f =>
    let n := s.edu.miss.nat row + 1
    let s := s.modEdu fun x => { x with starts := x.starts.filter (fun y => y.id != f.id), miss := x.miss.setNat row n }
    let s := (s.inc (F.EDU_SYNTH_COUNT row)).setRef row (s.startOfs row) true
    .next (if n == 8 then (s.setBit F.EDU_FAULT_LASER_FAULT row).raise 0x10 .fault row else s)

/-! ### The energy reading and loop L2 (R102, R107, R113) -/

/-- The ratio of a fire (R107); a fire whose nominal energy is 0 has no stated ratio, so it is a free value. -/
def State.ratio (s : State) (emeas enom : Nat) : Rat × State :=
  if enom == 0 then (let (v, s) := s.draw; ((v : Rat), s)) else ((emeas : Rat) / (enom : Rat), s)

/-- A step of L2 after a fire outside the band, or its limit (R107). -/
def State.l2Step (s : State) (row : Nat) (x : L2Row) (up : Bool) : State :=
  let b := s.bank 2
  let lim := if up then signed 5 (s.rd (F.CEN_L2_LIM_ADJHI b)) else signed 5 (s.rd (F.CEN_L2_DUTY_ADJLO b))
  let adj := s.rdZ (F.EDU_ADJ_ADJ row)
  let put := fun (s : State) (y : L2Row) => s.modEdu fun e => { e with l2 := assocPut e.l2 row y }
  if (if up then decide (lim ≤ adj) else decide (adj ≤ lim)) then
    if x.told then s else (put s { x with told := true }).raise 0x13 .warn row
  else put (s.wrZ (F.EDU_ADJ_ADJ row) (if up then adj + 1 else adj - 1)) { x with told := false }

/-- ADJ of a row is brought within the limits of the active bank (R107); the limit so reached is a new arrival. -/
def State.limitAdj (s : State) (row : Nat) : State :=
  let b := s.bank 2
  let adj := s.rdZ (F.EDU_ADJ_ADJ row)
  let z := clampZ (signed 5 (s.rd (F.CEN_L2_DUTY_ADJLO b))) (signed 5 (s.rd (F.CEN_L2_LIM_ADJHI b))) adj
  if z == adj then s
  else (s.wrZ (F.EDU_ADJ_ADJ row) z).modEdu fun e =>
    { e with l2 := assocPut e.l2 row { (assoc e.l2 row).getD default with told := false } }

/-- L2 takes an emitting fire's ratio (R107): the first 256 form ETA; later ones outside the band step ADJ towards it. A bank
that becomes active with tighter limits holds ADJ of every row within them from then on. -/
def State.l2Sample (s : State) (row : Nat) (ratio : Rat) : State :=
  let s := (List.range 8).foldl State.limitAdj (s.takeBank 2)
  let x := (assoc s.edu.l2 row).getD default
  match x.eta with
  | none =>
    let y := { x with n := x.n + 1, sum := x.sum + ratio }
    let y := if y.n == 256 then { y with eta := some (y.sum / 256) } else y
    s.modEdu fun e => { e with l2 := assocPut e.l2 row y }
  | some eta =>
    let band : Rat := (s.rd (F.CEN_L2_BAND_BAND (s.bank 2)) : Rat) / 1000
    if ratio < eta * (1 - band) then s.l2Step row x true
    else if eta * (1 + band) < ratio then s.l2Step row x false
    else s

/-- Add the excess of a reading to the charges of its shot, from its arrival on (R113, R115). -/
def State.addExcess (s : State) (t0 extra : Nat) : State :=
  if extra == 0 then s else s.modEdu fun e => { e with shots := e.shots ++ [⟨t0, extra, s.clk⟩] }

/-- MPD_READING (R102, R107, R113): the energy reading of the row's oldest fire without one, which is still before its
integration ends at tB + 8 ns. -/
def execMpdReading (t row : Nat) (m : BitVec 16) (s : State) : Host.Outcome State Fault Refusal :=
  let s := s.begin t
  match s.edu.reads.find? fun f => f.row == row && Nat.ble (f.endQ + 32) (4 * s.clk) with
  | none => .next s
  | some f =>
    let sat := m.toNat == 0xFFFF
    let emeas := cdiv (m.toNat * s.rd F.EDU_MPD_K_KMPD) (2 ^ 16)
    let s := s.modEdu fun e => { e with reads := e.reads.filter fun y => y.id != f.id }
    let s := ((s.wr (F.EDU_MPD_E_M row) m.toNat).put (F.EDU_MPD_E_SAT row) sat).addExcess f.t0 (emeas - f.epred)
    let bad := sat || Nat.blt (f.epred * (256 + s.rd F.EDU_EXCESS_EXC)) (256 * emeas)
    let s := if bad then (s.setBit F.EDU_FAULT_EMIT_EXCESS row).raise 0x11 .fault row else s
    let (r, s) := s.ratio emeas f.enom
    .next (s.l2Sample row r)

/-! ### The boost (R105, R106) -/

/-- The switching burst of L1 that starts now (R258): NP pulses of WIDTH × 2 ns, by the bank in use. -/
def State.hvPulses (s : State) : HvBurst :=
  let b := s.bank 1
  ⟨s.clk, s.rd (F.CEN_L1_DUTY_NP b), 2 * s.rd (F.CEN_L1_WIDTH_WIDTH b)⟩

/-- CHARGE_PWM_EVENT (R105, R257, R258): L1 samples EDU_HV and issues the next burst on HV_SW or none; an urgent conversion is
triggered (R500). -/
def execChargePwmEvent (t : Nat) (s : State) : Host.Outcome State Fault Refusal :=
  let s := s.begin t
  if !s.edu.started then .next s
  else
    let s := s.sampleL1 (s.rd F.EDU_HV_HV)
    let ov := s.edu.ovStop && Nat.ble (s.rd F.EDU_HV_SET_HV) (s.rd F.EDU_HV_HV)
    let on := s.stu.l1.u == 1 && s.chgOk && !ov
    let s := s.modEdu fun e => { e with
      ovStop := ov, hvBurst := if on then some s.hvPulses else none,
      swSince := if on then (match e.swSince with | none => some s.clk | some x => some x) else none }
    .next (s.modHk fun h => { h with pwmAt := some s.clk })

/-- HV_OV (R106): the node exceeds HV_MAX + 2.0 V, so switching stops. -/
def execHvOv (t : Nat) (s : State) : Host.Outcome State Fault Refusal :=
  let s := s.begin t
  if s.dev == .reset then .next s
  else .next ((s.put F.EDU_FAULT_HV_OV true).modEdu fun e => { e with ovStop := true, swSince := none, hvBurst := none })

/-- BOOST_FAULT (R106): the node, as EDU_HV reports it, stays below half of EDU_HV_SET after 10 ms of continuous switching; the
EDU stops switching. -/
def execBoostFault (t : Nat) (s : State) : Host.Outcome State Fault Refusal :=
  let s := s.begin t
  if s.edu.swSince.any (fun x => Nat.ble (x + 10000000) s.clk) && Nat.blt (2 * s.rd F.EDU_HV_HV) (s.rd F.EDU_HV_SET_HV) then
    let s := s.modEdu fun e => { e with swSince := none, hvBurst := none }
    .next ((s.put F.EDU_FAULT_BOOST_FAULT true).raise 0x15 .fault 0).chgEval
  else .next s

/-- STALL_MONITOR_TRIP (R39, R115, R290): a trip of the governor inhibits every later shot until reset; a trip of the hard
channel enters Clamp. -/
def execStallMonitorTrip (t : Nat) (unit : StallUnit) (s : State) : Host.Outcome State Fault Refusal :=
  let s := s.begin t
  if s.dev == .reset then .next s
  else match unit with
    | .governor =>
      if s.govTrip then .next s else .next ((s.put F.EDU_STATUS_GOV_TRIP true).raise 0x14 .safety 0).chgEval
    | .hardChannel => .next ((s.modSaf fun v => { v with causes := (6 :: v.causes).dedup }).clamp 6)

/-! ### MOVING (R114, R256) -/

/-- A MOVING token arrives at the governor. -/
def State.movingToken (s : State) : State :=
  s.modEdu fun e => { e with
    movTok := some s.clk, movSince := match e.movSince with | none => some s.clk | some x => some x }

/-- MOVING drops: the stationary-beam ceilings apply from the next check. -/
def State.movingStop (s : State) : State :=
  s.modEdu fun e => { e with
    movLast := match e.movSince with | none => e.movLast | some m => some (m, s.clk), movSince := none, movTok := none }

/-- MOVING_DROP (R114): a STOP token arrives, or no MOVING token for two excitation periods. -/
def execMovingDrop (t : Nat) (stop : Bool) (s : State) : Host.Outcome State Fault Refusal :=
  let s := s.begin t
  if stop || s.edu.movTok.any (fun x => Nat.ble (x + 2000 * s.rd F.STU_EXC_NEX) s.clk) then .next s.movingStop else .next s

/-! ### Registers (R101, R106, R116, R117) -/

/-- EDU_STATUS and the governor sums as they read (R116, R118). -/
def State.viewEdu (s : State) (a : Nat) : Option Word :=
  if a == 0x2000 then
    let boost := if !s.edu.started then 0 else if !s.chgOk then 3 else if s.edu.swSince.isSome then 1 else 2
    let act := ((List.range 8).filter s.rowOk).map fun r => 2 ^ r
    some (mkWord [(19, b2n s.chgOk), (18, b2n s.moving), (17, b2n s.tempEmit), (16, b2n s.govTrip), (14, boost), (0, act.sum)])
  else if 0x2118 ≤ a && a < 0x211E then
    some (BitVec.ofNat 20 ((s.govSum ((a - 0x2118) / 2) s.clk + s.aheadEu) / 2 ^ (20 * (a % 2))))
  else none

/-- A row whose LASER_FAULT has been cleared starts to count misses again (R101). -/
def State.rowCleared (s : State) (r : Nat) : State :=
  if bitOf (s.rd F.EDU_FAULT_LASER_FAULT) r then s else s.modEdu fun e => { e with miss := e.miss.setNat r 0 }

/-- What a write of EDU_FAULT clears besides the bits (R101, R106, R108): the miss counts of the rows, the boost restarts and
charging is judged again. `old`: the word before the write. -/
def State.faultCleared (s : State) (old : Word) : State :=
  let s := (setBits (bitsOf old.toNat 7 0) 8).foldl State.rowCleared s
  if bitOf old.toNat 18 && !s.flag F.EDU_FAULT_BOOST_FAULT then s.startL1.chgEval else s

end Sys2Proof.Machine
end

