-- ==== Sys2Proof/Machine/Echo.lean ====
section
/-! DEFINITION. Echo extraction (chapter 6): from a closed histogram or a shot set to a point record, and the echo history. -/

namespace Sys2Proof

/-- The numbers of a list, summed up to each place: entry i is the sum of the first i. -/
def prefixSums (l : List Nat) : Array Nat :=
  (l.foldl (fun (a : Array Nat × Nat) x => (a.1.push (a.2 + x), a.2 + x)) (#[0], 0)).1

/-- The sum of entries lo to hi, by their prefix sums. -/
def spanSum (p : Array Nat) (lo hi : Nat) : Nat := p.getD (hi + 1) 0 - p.getD lo 0

namespace Machine

/-! ### The arithmetic of one histogram (R197 to R205) -/

/-- A filter table (R199, R221). -/
structure Filter where
  ct : Nat
  s : Nat
  dw : Nat
  sep : Nat
  tofs : Int
  coefs : List Int
  deriving DecidableEq, Repr, Inhabited

/-- Coefficient i of filter table j, a word of 6408h + 64·j + i (R221). -/
def ftabC (j i : Nat) : Fld := ⟨0x6408 + 64 * j + i, 11, 0⟩

/-- The filter table for a bin width (R199). -/
def State.filter (s : State) (bink : Nat) : Filter :=
  let j := s.rd (F.RPE_MFSEL_TAB bink)
  { ct := s.rd (F.RPE_FTAB_W0_CT j), s := s.rd (F.RPE_FTAB_W0_S j), dw := s.rd (F.RPE_FTAB_W1_DW j),
    sep := s.rd (F.RPE_FTAB_W1_SEP j), tofs := s.rdZ (F.RPE_FTAB_W2_TOFS j),
    coefs := (List.range (s.rd (F.RPE_FTAB_W0_NTM1 j) + 1)).map fun i => s.rdZ (ftabC j i) }

/-- λ_T of a port (R222). -/
def State.lambda (s : State) (port : Nat) : Nat := s.rd (F.RPE_LAMB_LAMB port)

/-- Background per bin and its source (R197, R222): BGQ and BGSRC. -/
def State.background (s : State) (h : Hist) (pulses : Nat) : Nat × Nat :=
  let least := max 1 (s.rd F.RPE_ELIVE_LIVEMIN)
  let k := 2 ^ h.bink * pulses * h.nshot
  let post := satN 20 (h.livepost / 4096)
  let pre := satN 20 (h.livepre / 4096)
  if Nat.ble least post then (min 0xFFFF (rdiv (h.ambpost * k * 256) (post * 4096)), 0)
  else if Nat.ble least pre then (min 0xFFFF (rdiv (h.ambpre * k * 256) (pre * 4096)), 1)
  else (min 0xFFFF (rdiv (s.lambda h.port * k) (2 ^ 20)), 2)

/-- A histogram made ready for the peak search: counts, corrected counts, filter output. -/
structure Spec where
  h : Array Nat
  hs : Array Nat
  qs : Array Nat
  y : Array Int
  bgq : Nat
  dw : Nat

/-- Pile-up correction (R198). -/
def pileUp (pu : Bool) (hs : Array Nat) (bink nshot b v : Nat) : Nat :=
  if pu then
    let d := if b == 0 then 0 else spanSum hs (b - max 1 (512 / 2 ^ bink)) (b - 1)
    rdiv (v * nshot * 256) (max 1 (nshot - d))
  else 256 * v

/-- The filter output at a bin (R200). -/
def filterAt (f : Filter) (x : Array Int) (b : Nat) : Int :=
  (f.coefs.zipIdx.map fun c =>
    let i : Int := (b : Int) + ((c.2 : Int) - f.ct) * 2 ^ f.s
    if i < 0 then 0 else c.1 * x.getD i.toNat 0).sum

/-- Steps 1 to 4 (R197 to R200). -/
def Hist.spec (h : Hist) (f : Filter) (pu : Bool) (bgq : Nat) : Spec :=
  let bins := h.binWords.map BitVec.toNat
  let hs := prefixSums bins
  let hq := bins.zipIdx.map fun e => pileUp pu hs h.bink h.nshot e.2 e.1
  let x : Array Int := (hq.map fun (v : Nat) => ((v : Int) - (bgq : Int))).toArray
  { h := bins.toArray, hs := hs, qs := prefixSums hq, y := ((List.range 2048).map (filterAt f x)).toArray, bgq := bgq,
    dw := f.dw }

def Spec.at (p : Spec) (b : Nat) : Int := p.y.getD b 0

/-- ws, wq and LWQ of R201 at a bin, over the bins of the span. -/
def Spec.win (p : Spec) (b : Int) : Nat × Nat × Nat :=
  let lo := max 0 (b - p.dw)
  let hi := min 2047 (b + p.dw)
  if hi < lo then (0, 0, 0)
  else (spanSum p.hs lo.toNat hi.toNat, spanSum p.qs lo.toNat hi.toNat, p.bgq * (hi - lo + 1).toNat)

/-- A candidate (R201). -/
def Spec.candidate (p : Spec) (ksig minc b : Nat) : Bool :=
  let (ws, _, lwq) := p.win b
  decide (0 < p.at b) && (b == 0 || decide (p.at (b - 1) < p.at b)) && (b == 2047 || decide (p.at (b + 1) ≤ p.at b)) &&
    decide (((ksig * isqrt (lwq * 256) / 16 + 256 * minc : Nat) : Int) ≤ 256 * (ws : Int) - lwq)

/-- Accept candidates in falling y (R202): the accepted bins in order of acceptance, and MOREECHO. -/
def acceptPeaks (sep : Nat) : List Nat → List Nat → List Nat × Bool
  | acc, [] => (acc, false)
  | acc, b :: r =>
    if acc.any fun a => Nat.blt (max a b - min a b) sep then acceptPeaks sep acc r
    else if acc.length == 4 then (acc, true)
    else acceptPeaks sep (acc ++ [b]) r

/-- The peaks of a histogram (R202): the accepted bins in order of acceptance, the first of them the strongest, and MOREECHO. -/
def Spec.peaks (p : Spec) (ksig minc sep : Nat) : List Nat × Bool :=
  acceptPeaks sep [] (((List.range 2048).filter (p.candidate ksig minc)).mergeSort fun a b =>
    decide (p.at b < p.at a) || (p.at a == p.at b && Nat.ble a b))

/-- The interval of a peak in 1/256 tick and EDGE (R203). -/
def Spec.interval (p : Spec) (f : Filter) (origin bink b : Nat) : Nat × Bool :=
  let d := 2 ^ f.s
  let edge := Nat.blt b d || Nat.blt 2047 (b + d)
  let den := p.at (b - d) - 2 * p.at b + p.at (b + d)
  let dq : Int := if edge || decide (0 ≤ den) then 0
    else clampZ (-128 * d) (128 * d) (rdiv0 (256 * d * (p.at (b - d) - p.at (b + d))) (2 * den))
  let w : Int := 2 ^ bink
  let tq : Int := 256 * origin + (256 * b + dq + f.tofs) * w + 128 * (w - 1)
  ((clampZ 0 0xFFFFFFF tq).toNat, edge)

/-- Bins contiguous with a peak on one side at half its height or more (R204). -/
def Spec.run (p : Spec) (y : Int) : List Nat → Nat
  | [] => 0
  | b :: r => if y ≤ 2 * p.at b then 1 + p.run y r else 0

/-- aq of R204 and R205 at a bin: the excess over background. -/
def Spec.excess (p : Spec) (b : Int) : Nat := (p.win b).2.1 - (p.win b).2.2

/-- The bin offsets of a burst (R205). -/
def burstDset (ofs : List Nat) (bink : Nat) : List Nat :=
  (ofs.flatMap fun a => ofs.map fun b => (256 * (a - b)) / 2 ^ bink).filter (· != 0)

/-- An accepted echo before classification. -/
structure Peak where
  tq : Nat
  edge : Bool
  aq : Nat
  amp : Nat
  conf : Nat
  width : Nat
  foreign : Bool
  deriving DecidableEq, Repr, Inhabited

/-- Accepted peaks by increasing interval (R202), the strongest marked; equal intervals by bin. -/
def byInterval (ps : List (Nat × Peak)) : List (Nat × Peak) :=
  ps.mergeSort fun a b => Nat.blt a.2.tq b.2.tq || (a.2.tq == b.2.tq && Nat.ble a.1 b.1)

/-- Interval, amplitude, width, confidence (R203, R204) and the FOREIGN test (R205) of an accepted bin. -/
def Spec.peak (p : Spec) (f : Filter) (h : Hist) (frat : Nat) (ofs : List Nat) (b : Nat) : Peak :=
  let (tq, edge) := p.interval f h.origin h.bink b
  let aq := p.excess b
  let lwq := (p.win b).2.2
  let n := 1 + p.run (p.at b) (List.range b).reverse + p.run (p.at b) ((List.range 2048).drop (b + 1))
  let side := ((burstDset ofs h.bink).flatMap fun o => [p.excess ((b : Int) - o), p.excess ((b : Int) + o)]).foldl max 0
  { tq := tq, edge := edge, aq := aq, amp := min 0xFFFFF ((aq + 128) / 256),
    conf := min 255 (16 * aq / max 1 (isqrt ((aq + lwq) * 256))), width := min 4095 (n * 2 ^ h.bink),
    foreign := Nat.blt (16 * aq) (frat * side) }

/-! ### Classification (R207, R208) -/

/-- A later echo of the record that is a surface behind mist (R207). -/
def mistBefore (mamp mwid : Nat) (e : Peak) (later : List Peak) : Bool :=
  later.any fun f => !f.foreign && Nat.ble (mamp * e.aq) (16 * f.aq) && Nat.ble (mwid * f.width) (16 * e.width)

/-- The classes of a record's echoes in order (R205, R207, R208). -/
def State.classes (s : State) (nohist : Bool) (past : List Nat) : List Peak → List EchoClass
  | [] => []
  | e :: r =>
    let near := past.any fun t => Nat.ble (max t (e.tq / 256) - min t (e.tq / 256)) (s.rd F.RPE_EMCFG_HTOL)
    let c := if e.foreign then .foreign
      else if nohist then .nohist
      else if mistBefore (s.rd F.RPE_ECLS_MAMP) (s.rd F.RPE_EMCFG_MWID) e r && !near then .mist
      else .surface
    c :: s.classes nohist past r

/-! ### Range (R210, R211) -/

/-- KR (R210). -/
def State.kr (s : State) : Nat :=
  let n := 2 ^ 24 + s.rd F.RTA_AIRIDX_AIRIDX
  (9823599 * 2 ^ 24 + n / 2) / n

/-- RPE_KR follows RTA_AIRIDX (R210). -/
def State.setKr (s : State) : State := s.wrWide 0x6300 2 s.kr

/-- An echo block (R211, R213). -/
def State.echoOf (s : State) (port tq conf : Nat) (c : EchoClass) (edge : Bool) (amp width : Nat) : Echo :=
  let tr : Int := (tq : Int) - s.rdZ (F.RPE_ROFS_ROFS port)
  let kr := s.rdWide 0x6300 2
  let ra := (tr.toNat * kr * 10 + 2 ^ 31) / 2 ^ 32
  { tint := tq / 256, tfrac := tq % 256, conf := conf, cls := c, edge := edge, rneg := decide (tr < 0),
    ra := min 0xFFFFF ra, rb := (tr.toNat * kr + 2 ^ 31) / 2 ^ 32, amp := amp, width := width,
    sata := Nat.blt 0xFFFFF ra }

/-! ### The echo history (R206, R389) -/

/-- The number of the frame in progress (R389). -/
def State.curFrame (s : State) : Nat := (s.rpe.frameNo + 1) % 2 ^ 20

/-- H (R206). -/
def State.hdepth (s : State) : Nat := s.rd F.RPE_EHIST_HDEPTH

/-- HFR and the history of a generation (R206). -/
def State.histGen (s : State) (g : Nat) : Nat × List (Nat × List HistSlot) :=
  if g == s.rpe.gen then (s.rd F.RPE_ESTAT_HFR, s.rpe.history) else (assoc s.rpe.oldHist g).getD (0, [])

/-- The burst of a key's frame slot (R389). -/
def slotBurst (key frame : Nat) : Nat := 2 * key + (if frame % 8 < 5 then 0 else 1)

/-- The numbers of the H most recently ended frames (R206). -/
def State.pastFrames (s : State) : List Nat :=
  (List.range s.hdepth).map fun d => (s.curFrame + 2 ^ 20 - (d + 1)) % 2 ^ 20

/-- A frame slot of a key as it reads (R389, R393): word 5f holds the frame number and the next four the TINT values, of which
0FFFFFh is absent. -/
def State.slotAsRead (s : State) (key : Nat) (x : HistSlot) : HistSlot :=
  let i := 50 * key + 5 * (x.frame % 8)
  let ts := (List.range 4).map fun j => (s.asRead 0 (i + 1 + j) (BitVec.ofNat 20 (x.tints.getD j 0xFFFFF))).toNat
  ⟨(s.asRead 0 i (BitVec.ofNat 20 x.frame)).toNat, ts.filter (· != 0xFFFFF)⟩

/-- Read the history of a key (R206, R208, R399): the TINT values, and HISTUE. -/
def State.readHistory (s : State) (hist : List (Nat × List HistSlot)) (key : Nat) : List Nat × Bool :=
  let fr := s.pastFrames
  let slots := ((assoc hist key).getD []).map (s.slotAsRead key)
  if !s.memAvail 0 then ([], true)
  else
    let ok := fr.filter fun f => !s.poisoned 0 (slotBurst key f)
    ((slots.filter fun x => ok.contains x.frame).flatMap HistSlot.tints, ok.length != fr.length)

/-- A key's slots with the slot of the frame in progress replaced; `lost` is a burst whose other slots were unreadable. -/
def putSlot (key cur : Nat) (lost : Bool) (tints : List Nat) (slots : List HistSlot) : List HistSlot :=
  ⟨cur, tints⟩ :: slots.filter fun x =>
    x.frame % 8 != cur % 8 && !(lost && slotBurst key x.frame == slotBurst key cur)

/-- Write the slot of the frame in progress (R206, R389, R395, R399). -/
def State.writeHistory (s : State) (g key : Nat) (tints : List Nat) : State :=
  if !s.memAvail 0 then s
  else
    let b := slotBurst key s.curFrame
    let upd := fun (h : List (Nat × List HistSlot)) =>
      assocPut h key (putSlot key s.curFrame (s.poisoned 0 b) tints ((assoc h key).getD []))
    let s' := if g == s.rpe.gen then s.modRpe fun r => { r with history := upd r.history }
      else s.modRpe fun r => { r with oldHist := r.oldHist.map fun e => if e.1 == g then (e.1, e.2.1, upd e.2.2) else e }
    s'.writeBurst 0 b

/-! ### The point record (R212) -/

def EchoClass.code : EchoClass → Nat
  | .surface => 0
  | .mist => 1
  | .foreign => 2
  | .nohist => 3

/-- The six words of an echo block (R213). -/
def Echo.words (e : Echo) : List Word :=
  [BitVec.ofNat 20 e.tint,
   mkWord [(12, e.tfrac), (4, e.conf), (2, e.cls.code), (1, b2n e.edge), (0, b2n e.rneg)],
   BitVec.ofNat 20 e.ra, BitVec.ofNat 20 e.rb, BitVec.ofNat 20 e.amp, mkWord [(8, e.width), (7, b2n e.sata)]]

/-- The 32 words of a point record (R212). -/
def Point.words (p : Point) : List Word :=
  ([mkWord [(12, p.port), (9, p.echoes.length), (7, p.strong), (6, b2n p.partialC), (5, b2n p.stretch), (4, b2n p.sat),
           (3, b2n p.noemit), (2, b2n p.holdover), (1, b2n p.subst), (0, b2n p.zcold)],
   mkWord [(8, p.line), (0, p.pix)],
   mkWord [(19, b2n p.nohist), (18, b2n p.moreecho), (17, b2n p.synth), (16, b2n p.mixed), (15, b2n p.zlag),
           (14, b2n p.more), (13, b2n p.ovf), (12, b2n p.lsrc), (11, b2n p.single), (9, p.bgsrc), (8, b2n p.histue),
           (4, p.bink), (0, p.burst)],
   BitVec.ofNat 20 p.nshot, mkWord [(19, b2n p.memUe), (0, p.bg)]]
  ++ wordsOf p.tlast 3 ++ p.echoes.flatMap Echo.words ++ List.replicate (24 - 6 * p.echoes.length) 0).take 32

/-- The record offered to the CAP (R318, R322, R332). -/
def Point.capRec (p : Point) : CapRec :=
  let strong := match p.echoes[p.strong]? with
    | some e => [(4, e.ra), (5, e.amp)]
    | none => []
  { (default : CapRec) with
    typ := 4, port := p.port, time := p.tlast, body := p.words, vals := strong ++ [(6, p.echoes.length)],
    noemit := p.noemit, ranges := (p.echoes.filter fun e => !e.sata).map Echo.ra }

/-- Deliver a point record to the FSO, the CAP and channel A (R195, R196): after READY only. -/
def State.deliver (s : State) (p : Point) : State :=
  if !s.ready then s
  else (s.modRpe fun r => { r with points := r.points ++ [p], safPoints := r.safPoints ++ [p] }).offer p.capRec

/-- The counters of R220 for one record. -/
def State.countRecord (s : State) (p : Point) : State :=
  let n := fun c => (p.echoes.filter fun e => e.cls == c).length
  let s := if p.echoes.isEmpty then s.inc F.RPE_NOECHO_COUNT else s.count F.RPE_ECHOES_COUNT p.echoes.length
  let s := if p.moreecho then s.inc F.RPE_MOREECHO_COUNT else s
  let s := (s.count F.RPE_MISTCNT_COUNT (n .mist)).count F.RPE_FORCNT_COUNT (n .foreign)
  let s := if p.bgsrc == 2 then s.inc F.RPE_BGFALL_COUNT else s
  if p.histue then s.inc F.RPE_HISTUE_COUNT else s

/-- The point record of a histogram without its echoes (R212). -/
def Hist.point (h : Hist) (bgsrc bg : Nat) (nohist histue : Bool) : Point :=
  { (default : Point) with
    ord := h.ord, port := h.port, partialC := h.partialC, stretch := h.stretch, sat := h.sat, noemit := h.noemit,
    holdover := h.holdover, subst := h.subst, zcold := h.zcold, line := h.line, pix := h.pix, nohist := nohist,
    synth := h.nsynth != 0, mixed := h.mixed, zlag := h.zlag, more := h.more, ovf := h.ovf, lsrc := h.lsrc,
    bgsrc := bgsrc, histue := histue, bink := h.bink, burst := h.burst, nshot := h.nshot, bg := bg, tlast := h.tlast }

/-- Extract the echoes of a histogram (R194 to R211): the record and the interval of its strongest echo. -/
def State.extract (s : State) (h : Hist) (nohist histue : Bool) (past : List Nat) : Point × Option Nat :=
  let ofs := s.burstOfs h.burst
  let (bgq, src) := s.background h ofs.length
  let p := h.point src bgq nohist histue
  if h.nemit == 0 then (p, none)
  else
    let f := s.filter h.bink
    let sp := h.spec f (s.flag (F.RPE_EGRP_PU (rowOf h.port))) bgq
    let (acc, more) := sp.peaks (s.rd F.RPE_ECFG_KSIG) (s.rd F.RPE_ECFG_MINC) f.sep
    let sorted := byInterval (acc.map fun b => (b, sp.peak f h (s.rd F.RPE_ECLS_FRAT) ofs b))
    let strong := match acc with | [] => 0 | b :: _ => sorted.findIdx fun e => e.1 == b
    let ps := sorted.map Prod.snd
    let es := (ps.zip (s.classes nohist past ps)).map fun e =>
      s.echoOf h.port e.1.tq (if nohist then 0 else e.1.conf) e.2 e.1.edge e.1.amp e.1.width
    ({ p with strong := strong, moreecho := more, echoes := es }, (ps[strong]?).map Peak.tq)

/-- A histogram that closed before READY, or is taken before it, only seeds the background estimates (R190, R196). -/
def State.takesLive (s : State) (h : Hist) : Bool := s.ready && h.live

/-- The zoom anchor follows a released histogram (R176, R190, R196). -/
def State.moveAnchor (s : State) (h : Hist) (tq : Option Nat) : State :=
  if !s.takesLive h || h.zinv then s
  else s.wr (F.RPE_ZANC_ZANC h.port) (match tq with
    | some q => min 0xFFFFE ((q + 128) / 256)
    | none => 0xFFFFF)

/-- The histogram that the echo stage takes next (R181, R194): the first to have closed, and none while a mark that closed
a frame before it has not passed the stage (R64, R206). -/
def State.nextHist (s : State) : Option Hist :=
  let first := s.rpe.queue.foldl (fun (a : Option Hist) h => match a with
    | none => some h
    | some x => if h.ord < x.ord then some h else a) none
  match first, s.seq.echoMarks with
  | some h, m :: _ => if m.2.1 ≤ h.ord then none else some h
  | f, _ => f

/-- ECHO_EXTRACTION (R194 to R215): one histogram becomes a point record, its buffer is released and its anchor moves. -/
def execEchoExtraction (t : Nat) (hits : List MemHit) (s : State) : Host.Outcome State Fault Refusal :=
  let s := s.begin t
  match s.nextHist with
  | none => .next s
  | some h =>
    let key := 256 * h.line + h.pix
    let live := s.takesLive h
    let s := if live && s.memAvail 0 then s.memRead 0 2 true (hits.filter fun x => x.burst / 2 == key) else s
    let (hfr, hist) := s.histGen h.gen
    let (past, histue) := if live then s.readHistory hist key else ([], false)
    let nohist := Nat.blt hfr s.hdepth
    let (p, tq) := s.extract h nohist histue past
    let s := s.modRpe fun r => { r with queue := r.queue.filter fun x => x.ord != h.ord }
    let s := (s.moveAnchor h tq).releaseRd h.port
    let keep := (p.echoes.filter fun e => e.cls == .surface || e.cls == .nohist).map Echo.tint
    let s := if live then s.writeHistory h.gen key keep else s
    let s := s.countRecord p
    .next (if live then s.deliver p else s)

/-- The point record of a shot set (R214). -/
def State.singlePoint (s : State) (x : Single) : Point :=
  let stops := if x.noemit then [] else x.stops
  let best := stops.zipIdx.foldl (fun (a : Option (Nat × Nat)) e => match a with
    | none => some (e.1.tot, e.2)
    | some m => if m.1 < e.1.tot then some (e.1.tot, e.2) else a) none
  { (default : Point) with
    ord := x.ord, port := x.port, strong := (best.map Prod.snd).getD 0, noemit := x.noemit, holdover := x.holdover,
    subst := x.header.subst, line := x.line, pix := x.pix, synth := x.synth, more := x.header.more, ovf := x.header.ovf,
    lsrc := x.lsrc, single := true, bgsrc := 3, bink := 15, burst := x.burst, nshot := 1, tlast := x.tfire,
    echoes := stops.map fun e => s.echoOf x.port (256 * e.time) 0 .surface false 1 (min 4095 e.tot) }

/-- SHOT_SET (R186, R214): one shot set becomes a point record. -/
def execShotSet (t : Nat) (s : State) : Host.Outcome State Fault Refusal :=
  let s := s.begin t
  match s.rpe.singles with
  | [] => .next s
  | x :: r =>
    let p := s.singlePoint x
    .next (((s.modRpe fun e => { e with singles := r }).countRecord p).deliver p)

/-- A frame ends at the echo stage (R206): in the history in force when its mark passed the ports. -/
def State.endHistFrame (s : State) (g : Nat) : State :=
  let s := s.modRpe fun r => { r with
    frameNo := (r.frameNo + 1) % 2 ^ 20,
    oldHist := r.oldHist.map fun e => if e.1 == g then (e.1, min 8 (e.2.1 + 1), e.2.2) else e }
  if g == s.rpe.gen then s.wr F.RPE_ESTAT_HFR (min 8 (s.rd F.RPE_ESTAT_HFR + 1)) else s

/-- A histogram that stands before an order number is still to be released. -/
def State.histBefore (s : State) (n : Nat) : Bool :=
  (s.rpe.queue.any fun h => Nat.blt h.ord n) || s.rpe.acc.any fun e => e.2.cause.isSome && Nat.blt e.2.ord n

/-- HISTORY_FRAME_END (R206, R218): the EOF of a MARK, or an SOF while a frame is open, passes the echo stage behind the
histograms that it closed. -/
def execHistoryFrameEnd (t : Nat) (s : State) : Host.Outcome State Fault Refusal :=
  let s := s.begin t
  match s.seq.echoMarks with
  | [] => .next s
  | (eof, n, g) :: r =>
    if s.histBefore n then .next s
    else
      let ends := eof || s.rpe.frameOpen
      let s := (s.modSeq fun q => { q with echoMarks := r }).modRpe fun e => { e with frameOpen := !eof }
      .next (if ends then s.endHistFrame g else s)

/-- RPE_ESTAT (R220). -/
def State.viewEcho (s : State) (a : Nat) : Option Word :=
  if a == 0x6030 then
    let hfr := s.rd F.RPE_ESTAT_HFR
    some (mkWord [(16, hfr), (15, b2n (Nat.blt hfr s.hdepth || s.hdepth == 0)), (0, satN 9 s.rpe.queue.length)])
  else none

end Machine

end Sys2Proof
end

