-- ==== Sys2Proof/Machine/Ambient.lean ====
section
/-! DEFINITION. The ambient tracker and the foreign-emitter evaluation (chapter 7). -/

namespace Sys2Proof.Machine

/-! ### Samples (R223, R229, R230) -/

/-- The rate sample of a record (R223): its port and x. -/
def State.sampleOf (s : State) : AmbRec → Nat × Option Nat
  | .listen port n live bink b4 more anyBin =>
    let x := if !more || b4 == 63 then some (rdiv (n * 2 ^ 28) (256 * live)) else some (rdiv (n * 2 ^ 28) ((b4 + 1) * 2 ^ bink))
    (port, if more && !anyBin then none else x.map (min 0xFFFFF))
  | .hist port post live more =>
    let use := s.flag F.RPE_AMBCFG_HUSE && s.rd (F.RPE_COINC_KM1 (rowOf port)) == 0 && !more &&
      Nat.ble (max 1 (s.rd F.RPE_ELIVE_LIVEMIN)) live
    (port, if use then some (min 0xFFFFF (rdiv (post * 2 ^ 16) live)) else none)

def State.trkOf (s : State) (p : Nat) : Trk := SMap.get (fun _ => default) s.rpe.trk p

def State.setTrk (s : State) (p : Nat) (x : Trk) : State :=
  s.modRpe fun r => { r with trk := SMap.put (fun _ => default) r.trk p x }

/-- A sample enters a port's tracker; in the seeding step it counts towards the seed (R224, R229). -/
def State.addSample (s : State) (p x : Nat) : State :=
  if !s.flag (F.RTA_PCFG_EN p) || s.portOff p then s
  else
    let k := s.trkOf p
    let k := if s.rpe.seeding then { k with seedSum := k.seedSum + x, seedN := k.seedN + 1 }
      else { k with sum := k.sum + x, cnt := k.cnt + 1 }
    ((s.setTrk p k).put (F.RPE_ALVL_AMB_STALE p) false).put (F.RPE_ALVL_AMB_NOSEED p) false

/-! ### The CIC (R225) -/

/-- Integrators run, each on the new value of the one before it, modulo 2^40. -/
def integrate : Nat → List Nat → List Nat
  | _, [] => []
  | v, i :: r => let x := (i + v) % 2 ^ 40; x :: integrate x r

/-- Combs of delay 1 run: the new delays and the output. -/
def comb : Nat → List Nat → List Nat × Nat
  | v, [] => ([], v)
  | v, d :: r => let (ds, y) := comb ((v + 2 ^ 40 - d) % 2 ^ 40) r; (v :: ds, y)

/-- A stage list of the order in force. -/
def stages (n : Nat) (l : List Nat) : List Nat := if l.length == n then l else List.replicate n 0

/-- One tick of a CIC with an input; on an RA-th tick also its output. -/
def Trk.tick (k : Trk) (na v : Nat) (out : Bool) : Trk × Option Nat :=
  let is := integrate v (stages na k.ints)
  if out then
    let (cs, y) := comb (is.getLast?.getD 0) (stages na k.combs)
    ({ k with ints := is, combs := cs }, some y)
  else ({ k with ints := is, combs := stages na k.combs }, none)

/-- The state that a steady input leaves (R229): enough ticks of it from zero for the combs to fill, ending on an output. -/
def Trk.steady (na ra v : Nat) : Nat → Trk → Trk
  | 0, k => k
  | n + 1, k => Trk.steady na ra v n (k.tick na v (n % ra == 0)).1

/-! ### The threshold ladder (R226) -/

/-- ON after an update of λ_T. -/
def State.ladder (s : State) (lam on : Nat) : List Bool :=
  (List.range 8).map fun i =>
    if Nat.ble (s.rd (F.RPE_AMBLVL_LVL i)) lam then true
    else if Nat.blt lam (s.rd (F.RPE_AMBREL_REL i)) then false
    else bitOf on i

/-- Load ON and ATHR of a port (R226). -/
def State.loadLadder (s : State) (p : Nat) (on : List Bool) : State :=
  let n := (on.zipIdx.map fun e => b2n e.1 * 2 ^ e.2).sum
  let raise' := (on.zipIdx.map fun e => b2n e.1 * s.rd (F.RPE_AMBSTEP_STEP e.2)).sum
  (s.wr (F.RPE_ALVL_ON p) n).wr (F.RTA_PATHR_ATHR p) (min (s.rd F.RTA_ATHR_MAX_MAX) raise')

/-- λ_T is updated (R225, R226): one threshold event for each level that changes. -/
def State.updateLambda (s : State) (p lam : Nat) : State :=
  let s := s.wr (F.RPE_LAMB_LAMB p) lam
  let old := s.rd (F.RPE_ALVL_ON p)
  let on := s.ladder lam old
  let s := s.loadLadder p on
  (on.zipIdx.filter fun e => e.1 != bitOf old e.2).foldl (fun s _ => (s.inc F.RPE_AMBEVT_COUNT).raise 0x09 .info p) s

/-- λ_T of a CIC output (R222, R225). -/
def State.lambdaOf (s : State) (y : Nat) : Nat := min 0xFFFFF ((y * s.rdWide 0x6041 2 + 2 ^ 29) / 2 ^ 30)

/-- The tracker tick of one port (R224 to R226). -/
def State.tickPort (s : State) (out : Bool) (p : Nat) : State :=
  let k := s.trkOf p
  let v := if k.cnt == 0 then k.vprev else rdiv k.sum k.cnt
  let stale := if k.cnt == 0 then min 1023 (k.stale + 1) else 0
  let k := { k with sum := 0, cnt := 0, vprev := v, stale := stale }
  let (k, y) := k.tick (s.rd F.RPE_AMBCFG_NAM1 + 1) v out
  let s := s.setTrk p k
  let s := if stale != 0 && Nat.ble (s.rd F.RPE_AMBSTALE_STALEMAX) stale then s.put (F.RPE_ALVL_AMB_STALE p) true else s
  match y with
  | some y => s.updateLambda p (s.lambdaOf y)
  | none => s

/-- The present tracker tick of TPER µs has ended (R224); the trackers run from the end of the seeding step on (R241). The ticks
count from there (log entry 181). -/
def State.tickDue (s : State) : Bool := s.ready && Nat.ble (s.rpe.tickAt + 1000 * s.rd F.RPE_AMBCFG_TPER) s.clk

/-- The end of the tick that is due, if one is (R224 to R226). -/
def State.trackTick (s : State) : State :=
  if !s.tickDue then s
  else
    let n := s.rpe.trkPhase + 1
    let out := Nat.ble (s.rd F.RPE_AMBCFG_RAM1 + 1) n
    let s := s.modRpe fun r => { r with trkPhase := if out then 0 else n, tickAt := r.tickAt + 1000 * s.rd F.RPE_AMBCFG_TPER }
    (List.range 256).foldl (fun s p => s.tickPort out p) s

/-- TRACKER_TICK (R224, R225, R241). -/
def execTrackerTick (t : Nat) (s : State) : Host.Outcome State Fault Refusal := .next (s.begin t).trackTick

/-- AMBIENT_SAMPLE (R223): the next record reaches the tracker. At a tick boundary it belongs to the tick that begins there
(R224). -/
def execAmbientSample (t : Nat) (s : State) : Host.Outcome State Fault Refusal :=
  let s := (s.begin t).trackTick
  match s.rpe.ambQ with
  | [] => .next s
  | r :: q =>
    let (p, x) := s.sampleOf r
    let s := s.modRpe fun e => { e with ambQ := q }
    .next (match x with
      | some v => s.addSample p v
      | none => s)

/-- The seed of one port (R229). -/
def State.seedPort (s : State) (p : Nat) : State :=
  let k := s.trkOf p
  let lam := if k.seedN == 0 then 0 else min 0xFFFFF (rdiv k.seedSum k.seedN)
  let na := s.rd F.RPE_AMBCFG_NAM1 + 1
  let ra := s.rd F.RPE_AMBCFG_RAM1 + 1
  let k' := Trk.steady na ra lam ((na + 1) * ra) { (default : Trk) with vprev := lam }
  let s := (s.setTrk p k').wr (F.RPE_LAMB_LAMB p) lam
  (s.loadLadder p (s.ladder lam 0)).put (F.RPE_ALVL_AMB_NOSEED p) (k.seedN == 0)

/-- The trackers are seeded (R229). -/
def State.seedTrackers (s : State) : State :=
  (List.range 256).foldl State.seedPort (s.modRpe fun r => { r with seeding := false, trkPhase := 0, tickAt := s.clk })

/-- Every ACTIVE port has taken SEEDN samples (R229). -/
def State.seeded (s : State) : Bool :=
  (List.range 256).all fun p => !s.portActive p || Nat.ble (s.rd F.RPE_AMBSEED_SEEDN) (s.trkOf p).seedN

/-! ### Frequency gates and foreign emitters (R156, R157, R231, R232) -/

def State.foreignOf (s : State) (p : Nat) : Foreign := SMap.get (fun _ => default) s.rpe.hits p

def State.setForeign (s : State) (p : Nat) (x : Foreign) : State :=
  (s.modRpe fun r => { r with hits := SMap.put (fun _ => default) r.hits p x }).put
    ⟨0x6068 + p / 16, p % 16, p % 16⟩ x.hit

/-- NHIT and the flag FOREIGN follow the hit states (R232). -/
def State.evalForeign (s : State) : State :=
  let n := (s.rpe.hits.filter fun e => e.2.hit).length
  let s := s.wr F.RPE_FOR_STAT_NHIT n
  let f := Nat.ble (max 1 (s.rd F.RPE_FOR_PORTS_FPORTS)) n
  if f == s.flag F.RPE_FOR_STAT_FOREIGN then s
  else (s.put F.RPE_FOR_STAT_FOREIGN f).raise 0x0A .info (b2n f)

/-- A foreign hit (R231). -/
def State.foreignHit (s : State) (n period pprev : Nat) : Bool :=
  let pns := period / 4096
  Nat.ble (s.rd F.RPE_FOR_CFG_FNMIN) n && Nat.ble (s.rd F.RPE_FOR_PMIN_FPMIN) pns &&
    Nat.ble pns (s.rd F.RPE_FOR_PMAX_FPMAX) && pprev != 0 &&
    Nat.ble (256 * (max period pprev - min period pprev)) (s.rd F.RPE_FOR_CFG_FPTOL * period)

/-- N and PERIOD of a gate (R156). -/
def UnitSt.gate (x : UnitSt) : Nat × Nat :=
  if x.fqB == 0 then (0, 0)
  else (min x.fqT 0xFFFFF, ((6 * x.fqA + x.fqB / 2) / x.fqB).toNat)

/-- A gate of a port ends (R157, R231). -/
def State.portGate (s : State) (unit p : Nat) : State :=
  let x := s.unitSt unit
  let (n, per) := x.gate
  let s := s.setUnit unit { x with fqA := 0, fqB := 0, fqT := 0, fqW := 0 }
  let s := (s.wr (F.RTA_PFQN_N p) n).wrWide (0x400C + 16 * p) 2 per
  let f := s.foreignOf p
  (s.setForeign p ⟨s.foreignHit n per f.pprev, s.clk, per⟩).evalForeign

/-- FEN and the prescaler of a start (264 to 271) or trigger TDC (272 to 275) (R160). -/
def State.fcfg (s : State) (u : Nat) : Bool × Nat :=
  if u < 272 then (s.flag (F.RTA_FCFG_S_FEN (u - 264)), s.rd (F.RTA_FCFG_S_PRESCM1 (u - 264)) + 1)
  else (s.flag (F.RTA_FCFG_T_FEN (u - 272)), s.rd (F.RTA_FCFG_T_PRESCM1 (u - 272)) + 1)

/-- A start or trigger TDC runs in frequency mode (R156, R163): FEN is set, and the row of a start TDC is disabled. -/
def State.fqOn (s : State) (u : Nat) : Bool := (s.fcfg u).1 && (272 ≤ u || !s.rowOk (u - 264))

/-- A gate of a start or trigger TDC ends (R157): it has run RTA_FGATE µs. -/
def State.tdcGate (s : State) (u : Nat) : State :=
  let x := s.unitSt u
  let y := { x with fqA := 0, fqB := 0, fqT := 0 }.addGate x.fqN x.fqS x.fqK (s.fcfg u).2
  let (n, per) := y.gate
  let s := s.setUnit u { y with fqA := 0, fqB := 0, fqT := 0, fqSeen := 0, fqN := 0, fqS := 0, fqK := 0, gate0 := s.clk, lastEnd := x.lastEnd.map fun e => e - 4096 * ((s.clk - x.gate0 : Nat) : Int) }
  (s.wr (F.RTA_FRES_N_N (u - 264)) n).wrWide (0x5031 + 4 * (u - 264)) 2 per

/-- GATE_END (R157, R231). -/
def execGateEnd (t unit : Nat) (s : State) : Host.Outcome State Fault Refusal :=
  let s := s.begin t
  if unit < 264 then
    match s.portOfUnit unit with
    | none => .next s
    | some p =>
      let w := s.rd F.RTA_FQW_W
      if w == 0 || Nat.blt (s.unitSt unit).fqW w then .next s else .next (s.portGate unit p)
  else
    let g := s.rd F.RTA_FGATE_GATE
    if 276 ≤ unit || !s.fqOn unit || g == 0 || Nat.blt s.clk ((s.unitSt unit).gate0 + 1000 * g) then .next s
    else .next (s.tdcGate unit)

/-- HIT_EXPIRY (R231, R232): a hit expires FAGE ms after its gate end. -/
def execHitExpiry (t port : Nat) (s : State) : Host.Outcome State Fault Refusal :=
  let s := s.begin t
  let f := s.foreignOf port
  if !f.hit || Nat.blt s.clk (f.gateAt + 1000000 * s.rd F.RPE_FOR_PORTS_FAGE) then .next s
  else .next (s.setForeign port { f with hit := false }).evalForeign

end Sys2Proof.Machine
end

