-- ==== Sys2Proof/Machine/Mirror.lean ====
section
/-! DEFINITION. Mirror sensing (chapter 8): the reference tables, demodulation, the judgement of excitation periods, the CIC
decimators and the takeover of a sensor. -/

namespace Sys2Proof

/-- The Taylor series of the sine at y / 2^64, from term k on: `term` is y^(2k+1) / (2k+1)! in 1/2^64. -/
def sineSeries (y : Nat) : Nat → Nat → Nat → Int
  | 0, _, _ => 0
  | fuel + 1, k, term =>
    (if k % 2 == 0 then (term : Int) else -(term : Int)) +
      sineSeries y fuel (k + 1) (term * y / 2 ^ 64 * y / 2 ^ 64 / ((2 * k + 2) * (2 * k + 3)))

/-- sin(π/2 × num/den) for num ≤ den, in 1/2^64. -/
def quarterSine (num den : Nat) : Int :=
  let y := 28976077832308491369 * num / den
  sineSeries y 14 0 y

/-- round(amp × sin) of num/den of a turn; a tie rounds away from zero. -/
def roundSineBy (amp num den : Nat) : Int :=
  let n := 4 * (num % den)
  let q := n / den
  let r := n % den
  let m := quarterSine (if q % 2 == 0 then r else den - r) den
  let v : Int := (amp * m + 2 ^ 63 + 2 ^ 30) / 2 ^ 64
  if q < 2 then v else -v

/-- round(2,047 × sin) of num/den of a turn (R246). -/
def roundSine (num den : Nat) : Int := roundSineBy 2047 num den

namespace Machine

/-! ### The reference tables (R246) -/

/-- Entry n of SINT or COST as rounded. -/
def rawTable (cos' : Bool) (nex phofs n : Nat) : Int :=
  roundSine (1024 * n + phofs * nex + if cos' then 256 * nex else 0) (1024 * nex)

/-- A channel's conversions in a period (R244): the indices of its samples. -/
def State.convs (s : State) (ch : SenseCh) : List Nat :=
  let n := s.rd F.STU_EXC_NEX
  if !s.flag F.STU_SNS_M_EN then (if ch == .ctrl then List.range n else [])
  else (List.range n).filter fun i => i % 2 == (if ch == .ctrl then 0 else 1)

/-- The entries of a channel's conversions; they sum to 0 (R246, log entry 22). -/
def State.table (s : State) (ch : SenseCh) (cos' : Bool) : List Int :=
  let nex := s.rd F.STU_EXC_NEX
  let ph := s.rd F.STU_EXC_PHOFS
  let is := s.convs ch
  let raw := is.map (rawTable cos' nex ph)
  if raw.sum == 0 then raw
  else
    let head := ((is.zip raw).dropLast).map fun e => e.2 + (Config.tableFix cos' nex ph e.1 % 3 - 1)
    head ++ [-head.sum]

/-! ### Channels -/

def State.sense (s : State) : SenseCh → Sense
  | .ctrl => s.stu.ctrl
  | .mon => s.stu.mon

def State.setSense (s : State) (ch : SenseCh) (x : Sense) : State :=
  match ch with
  | .ctrl => s.modStu fun u => { u with ctrl := x }
  | .mon => s.modStu fun u => { u with mon := x }

/-- A channel is enabled (R242); CTRL always is. -/
def State.senseOn (s : State) (ch : SenseCh) : Bool := ch == .ctrl || s.flag F.STU_SNS_M_EN

/-- 0 for CTRL, 1 for MON. -/
def chNo (ch : SenseCh) : Nat := match ch with | .ctrl => 0 | .mon => 1

/-- A field of STU_SNS_C, taken for a channel. -/
def snsFld (ch : SenseCh) (f : Fld) : Fld := { f with addr := f.addr + chNo ch }

/-- The active input of a channel, 0 to 3 (R242). -/
def State.activeInput (s : State) (ch : SenseCh) : Nat := 2 * chNo ch + s.rd (snsFld ch F.STU_SNS_C_SEL)

/-- A bit of SENSOR_OPEN or STBY_OPEN. -/
def inputBit (f : Fld) (i : Nat) : Fld := ⟨f.addr, f.lo + i, f.lo + i⟩

/-- The excitation runs (R269): the timing PLL has locked. -/
def State.excited (s : State) : Bool := s.alive && s.tbu.gov0.isSome && s.rd F.STU_EXC_NEX != 0

/-- The DAC code on MIR_EXC at a device instant (R243): entry k of the table of 4·NEX entries, k updates of 250 ns into the
excitation period, a sine of peak EXAMP about mid-scale that rises through it at the period's start (log entry 182); mid-scale
before the excitation starts (R269). -/
def State.excCode (s : State) (dev : Nat) : Int :=
  let nex := s.rd F.STU_EXC_NEX
  if s.excited then 2048 + roundSineBy (s.rd F.STU_EXAMP_EXAMP) (dev % (1000 * nex) / 250) (4 * nex) else 2048

/-- SETTLE in ns. -/
def State.settleNs (s : State) (ch : SenseCh) : Nat := 1000 * s.rd (snsFld ch F.STU_SNS_C_SETTLE)

/-! ### Drive stops (R264, R266, R269) -/

/-- The STOP token (R256): MOVING drops at the governor's next check, and the excitation period gives no MOVING token (R268). -/
def State.stopToken (s : State) : State := (s.modStu fun u => { u with stopAt := some s.clk }).movingStop

/-- A drive stop: the pins go low, the STOP token is sent, and both safety channels are informed. -/
def State.driveStop (s : State) (cause : Nat) : State :=
  let told := s.flag F.STU_FAULT_DRIVE_STOP
  let s := (s.modStu fun u => { u with drive := false, bridge := 0, kickAt := none, startAt := none }).stopToken
  let s := (s.put F.STU_STATUS_DRIVE false).put F.STU_STATUS_MOVTOK false
  let s := if told then (if cause == 0 then s.wr F.STU_FAULT_STOPCAUSE 0 else s)
    else ((s.put F.STU_FAULT_DRIVE_STOP true).wr F.STU_FAULT_STOPCAUSE cause).raise 0x23 .fault cause
  s.safEval

/-- SENSOR_OPEN is set on the active input: takeover by a usable partner (R265), or a drive stop (R266). -/
def State.sensorOpen (s : State) (ch : SenseCh) : State :=
  let i := s.activeInput ch
  let p := 2 * chNo ch + 1
  let s := (s.put (inputBit ⟨0x3001, 16, 16⟩ i) true).raise 0x20 .fault i
  let usable := s.flag (snsFld ch F.STU_SNS_C_PARTEN) && i != p && !s.flag (inputBit ⟨0x3001, 12, 12⟩ p) &&
    !s.flag (inputBit ⟨0x3001, 16, 16⟩ p)
  if usable then
    let x := s.sense ch
    let s := s.setSense ch { x with takeover := true, pendSel := none, bad := 0, settleTo := s.now + s.settleNs ch }
    let s := ((s.put (snsFld ch F.STU_SNS_C_SEL) true).put F.STU_STATUS_TAKEOVER true).raise 0x21 .warn (chNo ch)
    if ch == .mon then s.bridge 256 else s
  else s.driveStop 0

/-! ### Demodulation (R246, R248) -/

/-- The two CIC inputs of one conversion (R246), and its part of ipr. -/
def demod (iz trim gain sint cost code : Int) : Int × Int × Int :=
  let x := code - 2048
  let z := x - iz * sint / 2 ^ 11
  let up : Int := 2 ^ (3 - gain.toNat)
  (z * sint * up * trim / 2 ^ 14, z * cost * up * trim / 2 ^ 14, x * sint * up)

/-- The order, decimation and delay of the CICs (R250). -/
def State.cicN (s : State) : Nat := s.rd F.STU_CIC_NM3 + 3
def State.cicR (s : State) : Nat := s.rd F.STU_CIC_RM1 + 1
def State.cicM (s : State) : Nat := s.rd F.STU_CIC_MM1 + 1

/-- ceil(log2 n). -/
def clog2 (n : Nat) : Nat := if n ≤ 1 then 0 else Nat.log2 (n - 1) + 1

/-- B of R250. -/
def State.cicB (s : State) : Nat := 27 + clog2 ((s.cicR * s.cicM) ^ s.cicN)

/-- S_2N of R250: the low bits dropped by all stages. -/
def State.cicS (s : State) : Nat :=
  ((List.range (2 * s.cicN)).map fun j =>
    let w := s.rd (F.STU_CICSH_SH (j / 5))
    bitsOf w (19 - 4 * (j % 5)) (16 - 4 * (j % 5))).sum

/-- A channel's sample period in ns (R244). -/
def State.sampleNs (s : State) : Nat := if s.flag F.STU_SNS_M_EN then 2000 else 1000

/-- The group delay in ns (R251). -/
def State.groupDelay (s : State) : Nat := s.cicN * (s.cicR * s.cicM - 1) * s.sampleNs / 2

/-- Input samples that one output spans (R265). -/
def State.cicSpan (s : State) : Nat := s.cicN * (s.cicR * s.cicM - 1) + 1

/-- A value in two's complement modulo 2^b. -/
def wrapZ (b : Nat) (z : Int) : Int := signed b (unsigned b z)

/-- One sample runs the integrators, modulo 2^b. -/
def cicInt (b : Nat) : Int → List Int → List Int
  | _, [] => []
  | v, i :: r => let x := wrapZ b (i + v); x :: cicInt b x r

/-- The combs of delay m run: each keeps its last m inputs, newest first. -/
def cicComb (b m : Nat) : Int → List (List Int) → List (List Int) × Int
  | v, [] => ([], v)
  | v, d :: r =>
    let (ds, y) := cicComb b m (wrapZ b (v - d.getD (m - 1) 0)) r
    ((v :: d).take m :: ds, y)

/-- One sample into a CIC; an output at every R-th (R250), computed exactly modulo 2^b and shifted by S_2N. -/
def Cic.push (c : Cic) (n r m b sh : Nat) (v : Int) : Cic × Option Int :=
  let is := cicInt b v (if c.ints.length == n then c.ints else List.replicate n 0)
  let cs := if c.combs.length == n then c.combs else List.replicate n []
  if Nat.ble r (c.phase + 1) then
    let (cs, y) := cicComb b m (is.getLast?.getD 0) cs
    (⟨is, cs, 0⟩, some (wrapZ (b - sh) (y / 2 ^ sh)))
  else (⟨is, cs, c.phase + 1⟩, none)

/-- One sample of a channel enters both CICs (R248, R250). -/
def State.pushSample (s : State) (x : Sense) (p : Int × Int) (time : Nat) (repl : Bool) : Sense :=
  let (ci, yi) := x.cicI.push s.cicN s.cicR s.cicM s.cicB s.cicS p.1
  let (cq, yq) := x.cicQ.push s.cicN s.cicR s.cicM s.cicB s.cicS p.2
  let since := if repl then some 0 else x.sinceRepl.map (· + 1)
  let dirty := since.any fun k => Nat.blt k s.cicSpan
  { x with cicI := ci, cicQ := cq, sinceRepl := since, outs := match yi, yq with
    | some a, some b => x.outs ++ [⟨a, b, time, dirty⟩]
    | _, _ => x.outs }

/-! ### The excitation period (R247 to R249, R256) -/

/-- A code within 16 LSB of a rail (R247). -/
def nearRail (c : BitVec 12) : Bool := Nat.ble c.toNat 15 || Nat.ble 4080 c.toNat

/-- Conditions of the MOVING token of the excitation period that ends now (R256); a STOP token in the period prevails (R268). -/
def State.movingOk (s : State) : Bool :=
  let a := s.stu.ctrl.tp.ampLast
  s.stu.stopAt.all (fun x => Nat.blt (x + 1000 * s.rd F.STU_EXC_NEX) s.clk) &&
  s.resonant && s.stu.drive && Nat.ble (s.rd F.STU_MWLO_MW) a && Nat.ble a (s.rd F.STU_MWHI_MW) && !s.stu.ctrl.tp.lost &&
    (s.stu.ctrl.tp.lastMeas.any fun e => Nat.ble ((s.now - e.time) * s.rd F.STU_F0_F0) (3 * 50000000000))

/-- The MOVING token of an excitation period (R114, R256). -/
def State.movingPeriod (s : State) : State :=
  let ok := s.movingOk
  let s := s.put F.STU_STATUS_MOVTOK ok
  if ok then s.movingToken else s

/-- Gain and selector changes take effect at a period boundary (R248, R249). -/
def State.takePending (s : State) (ch : SenseCh) : State :=
  let x := s.sense ch
  let y := { x with gain := x.pendGain.getD x.gain, replPeriod := x.pendGain.isSome, pendGain := none, pendSel := none }
  match x.pendSel with
  | none => s.setSense ch y
  | some b =>
    let s := s.setSense ch { y with bad := 0, settleTo := s.now + s.settleNs ch }
    s.put (snsFld ch F.STU_SNS_C_SEL) b

/-- Judge a period that no other cause replaced (R247, R265): whether it is bad. -/
def State.judgePeriod (s : State) (ch : SenseCh) (bad : Bool) : State :=
  let x := s.sense ch
  if !bad then s.setSense ch { x with bad := 0, substFrom := if x.takeover then x.substFrom else none }
  else
    let n := x.bad + 1
    let s := (s.inc F.STU_BADPER_COUNT).setSense ch { x with
      bad := min 2 n, substFrom := if n == 1 then some s.now else x.substFrom }
    if Nat.ble 2 n && !s.flag (inputBit ⟨0x3001, 16, 16⟩ (s.activeInput ch)) then s.sensorOpen ch else s

/-- EXCITATION_PERIOD_END (R243 to R249, R256, R265, R266): a period of a channel ends, with the codes of its conversions. -/
def execExcitationPeriodEnd (t : Nat) (ch : SenseCh) (codes : List (BitVec 12)) (s : State) :
    Host.Outcome State Fault Refusal :=
  let s := s.begin t
  let per := 1000 * s.rd F.STU_EXC_NEX
  let ns := s.convs ch
  if !s.excited || !s.senseOn ch || s.now % per != 0 || codes.length != ns.length then .next s
  else
    let x := s.sense ch
    let i := s.activeInput ch
    let t0 := s.now - per
    let ds := (codes.zip ((s.table ch false).zip (s.table ch true))).map fun e =>
      demod (s.rdZ (F.STU_IZ_IZ i)) (s.rd (F.STU_TRIM_TRIM i)) x.gain e.2.1 e.2.2 e.1.toNat
    let iprw := clampZ (-524288) 524287 ((ds.map fun d => d.2.2).sum / 2 ^ 10)
    let s := s.wrZ (snsFld ch F.STU_IPR_C_IPRW) iprw
    let lo := s.rdZ ⟨0x3010 + 2 * chNo ch, 19, 0⟩
    let hi := s.rdZ ⟨0x3011 + 2 * chNo ch, 19, 0⟩
    let other := x.replPeriod || Nat.blt t0 x.settleTo
    let bad := !other && (decide (iprw < lo) || decide (hi < iprw) || codes.all nearRail)
    let whole := x.replPeriod || bad
    let ps := ds.map fun d => (d.1, d.2.1)
    let y := (ns.zip (ps.zipIdx)).foldl (fun y e =>
      let at0 := t0 + 1000 * e.1
      let repl := whole || Nat.blt at0 x.settleTo
      s.pushSample y (if repl then x.stored.getD e.2.2 (0, 0) else e.2.1) at0 repl) x
    let s := s.setSense ch (if other || bad then y else { y with stored := ps })
    let s := if other || bad then s.inc F.STU_REPL_COUNT else s
    let s := if other then s else s.judgePeriod ch bad
    let s := s.takePending ch
    .next (if ch == .ctrl then s.movingPeriod else s)

/-- TAKEOVER_SETTLED (R265): the first partner sample is used. -/
def execTakeoverSettled (t : Nat) (ch : SenseCh) (s : State) : Host.Outcome State Fault Refusal :=
  let s := s.begin t
  let x := s.sense ch
  if !x.takeover || Nat.blt s.now x.settleTo then .next s
  else
    let s := s.setSense ch { x with takeover := false, substFrom := none }
    let s := s.put F.STU_STATUS_TAKEOVER (s.stu.ctrl.takeover || s.stu.mon.takeover)
    .next (if ch == .mon then (s.unbridge 256).safEval else s)

/-- STBY_OPEN (R245): a standby input of an enabled channel has lain at a rail for more than 100 µs. -/
def execStbyOpen (t : Nat) (input : Nat) (s : State) : Host.Outcome State Fault Refusal :=
  let s := s.begin t
  let ch := if input < 2 then SenseCh.ctrl else .mon
  if 4 ≤ input || !s.alive || !s.senseOn ch || s.activeInput ch == input then .next s
  else .next (s.put (inputBit ⟨0x3001, 12, 12⟩ input) true)

end Machine

end Sys2Proof
end

