-- ==== Sys2Proof/Machine/Steering.lean ====
section
/-! DEFINITION. The mirror loop (chapter 8): filtered angles, turning points and their prediction, L0 samples, plausibility,
kicks and the start of the mirror. -/

namespace Sys2Proof.Machine

/-! ### Turning points (R253, R254) -/

/-- Prediction stops: TP_LOST (R254); the turning points of CTRL drop MOVING (R256). -/
def State.tpLost (s : State) (ch : SenseCh) : State :=
  let x := s.sense ch
  let s := s.setSense ch { x with tp := { x.tp with lost := true, nmeas := 0, npred := 0, last := none, before := [], lastMeas := none } }
  match ch with
  | .ctrl =>
    let s := ((s.put F.STU_FAULT_TP_LOST true).put F.STU_STATUS_TPVALID false).put F.STU_STATUS_MOVTOK false
    (s.modStu fun u => { u with kickAt := if u.drive then some s.now else none }).stopToken
  | .mon => s.put F.STU_FAULT_MTP_LOST true

/-- A turning-point event is issued (R254): the sequencer's SYNC source 5h, and the kick that follows it (R258). -/
def State.issueTp (s : State) (ch : SenseCh) (e : TpEv) : State :=
  let x := s.sense ch
  let s := s.setSense ch { x with tp := { x.tp with events := (e :: x.tp.events).take 2 } }
  if ch == .mon then s
  else (s.modStu fun u => { u with kickAt := if u.drive then some (e.time + x.tp.thLast / 2) else none }).syncSource 5
    (if e.pos then 1 else 2) e.time

/-- The turning points of a channel, measured or predicted, newest first. -/
def Tp.points (p : Tp) : List TpEv := p.last.toList ++ p.before

/-- A turning point that stands already is the one now measured (R253): of its polarity and less than a half period away. -/
def Tp.same (p : Tp) (e x : TpEv) : Bool := x.pos == e.pos && Nat.blt (max x.time e.time - min x.time e.time) p.thLast

/-- Where a measured turning point stands among those of the channel (R253, R254): the predictions after it, its own prediction
if that has been issued, and the turning points before it. The group delay may let later predictions fall due first. -/
def Tp.split (p : Tp) (e : TpEv) : List TpEv × Option TpEv × List TpEv :=
  let newer := p.points.takeWhile fun x => Nat.blt e.time x.time && !p.same e x
  match p.points.drop newer.length with
  | [] => (newer, none, [])
  | x :: r => if p.same e x then (newer, some x, r) else (newer, none, x :: r)

/-- A turning point is a new one (R253): its own prediction has not been measured, and it is of the opposite polarity to the one
before it. -/
def Tp.fresh (p : Tp) (e : TpEv) : Bool :=
  match p.split e with
  | (_, some x, _) => p.lastMeas != some x
  | (_, none, r) => r.head?.all fun x => x.pos != e.pos

/-- A measured turning point enters a channel (R253, R254): its instant, polarity and amplitude. -/
def Tp.measured (p : Tp) (e : TpEv) (amp : Nat) : Tp :=
  let (newer, _, older) := p.split e
  let n := p.nmeas + 1
  let th := match older.head? with
    | some x => if p.nmeas == 0 then p.thLast else e.time - x.time
    | none => p.thLast
  let all := newer ++ e :: older
  { p with last := all.head?, before := (all.drop 1).take 7, lastMeas := some e, thLast := th, ampLast := amp, nmeas := n, npred := 0,
           lost := p.lost && Nat.blt n 2 }

/-- STU_AMP, STU_HPER, STU_TPERR and the state of the prediction (R270, R271). -/
def State.noteTp (s : State) (ch : SenseCh) (err : Option Int) : State :=
  let p := (s.sense ch).tp
  match ch with
  | .mon => if p.lost then s else s.put F.STU_FAULT_MTP_LOST false
  | .ctrl =>
    let s := (s.wr F.STU_AMP_A (satN 20 p.ampLast)).wr F.STU_HPER_TH (satN 20 (p.thLast / 4))
    let s := match err with
      | some z => s.wrZ F.STU_TPERR_ERR (clampZ (-524288) 524287 z)
      | none => s
    let s := s.put F.STU_STATUS_TPVALID p.running
    if p.lost then s else s.put F.STU_FAULT_TP_LOST false

/-! ### L0 samples and plausibility (R257, R264) -/

/-- MON's filtered angle at the output that goes with CTRL's of an instant (R264): its sample is 1 µs later. None where a replaced
sample lies in its span. -/
def State.monAt (s : State) (time : Nat) : Option Int :=
  match s.stu.mon.tp.th.find? fun e => e.2.1 == time + 1000 with
  | some e => if e.2.2 then none else some e.1
  | none => (s.stu.mon.outs.find? fun o => o.time == time + 1000 && !o.repl).map fun o =>
      clampZ (-524288) 524287 (o.yi * s.rdZ F.STU_KANG_M_KANG / 2 ^ 16)

/-- CTRL and MON differ by more than XTOL at an output. -/
def State.monDiffers (s : State) (th : Int) (time : Nat) : Bool :=
  s.flag F.STU_SNS_M_EN && (s.monAt time).any fun m => Nat.blt (s.rd F.STU_XTOL_XTOL) (th - m).natAbs

/-- The residual of a sample and the cause for which it is implausible, if any (R264); `half` is Th in resonant mode. -/
def State.residual (s : State) (meas th : Int) (half time : Nat) : Int × Option Nat :=
  let u := s.stu
  let b := s.bank 0
  let pred : Int := if s.resonant then
      u.prevTh.getD 0 0 * s.rd F.STU_DEC_DEC / 2 ^ 16 + u.prevU * s.rd (F.CEN_L0_WIDTH_WIDTH b) * s.rd F.STU_KG_KG / 2 ^ 8
    else (s.rdZ F.STU_MA1_MA * u.prevTh.getD 0 0 - s.rdZ F.STU_MA2_MA * u.prevTh.getD 1 0) / 2 ^ 14 +
      s.rdZ F.STU_MB_MB * u.prevU
  let r := meas - pred
  let known := Nat.ble (if s.resonant then 1 else 2) u.prevTh.length
  let f0 := s.rd F.STU_F0_F0
  let cause := if known && Nat.blt (s.rd F.STU_RLIMA_RLIMA) r.natAbs then some (if s.resonant then 0 else 2)
    else if s.resonant && Nat.blt (s.rd F.STU_RLIMT_RLIMT * f0) ((half * f0 : Nat) - (50000000000 : Int)).natAbs then some 1
    else if s.monDiffers th time then some 3 else none
  (r, cause)

/-- MIRROR_IMPLAUSIBLE (R264). -/
def State.implausible (s : State) (cause : Nat) : State :=
  if s.flag F.STU_FAULT_MIRROR_IMPLAUSIBLE then s
  else
    let s := ((s.put F.STU_FAULT_MIRROR_IMPLAUSIBLE true).wr F.STU_FAULT_IMPLCAUSE cause).raise 0x22 .fault cause
    s.driveStop 1

/-- Judge an L0 sample against the model (R264), once the mirror has been fitted. -/
def State.judgeMirror (s : State) (meas th : Int) (half time : Nat) : State :=
  if s.rd F.STU_F0_F0 == 0 then s
  else
    let (r, cause) := s.residual meas th half time
    let s := s.wrZ F.STU_RES_RES (clampZ (-524288) 524287 r)
    match cause with
    | none => s.modStu fun u => { u with impl := 0 }
    | some c =>
      let s := s.modStu fun u => { u with impl := min 8 (u.impl + 1) }
      if s.stu.impl == 8 then s.implausible c else s

/-- One L0 sample with its judgement (R257, R264), at every boundary; `judged`: no replaced sample lies in its span. With the drive
stopped the pins stay low, so the model's u is 0. -/
def State.l0Sample (s : State) (meas th : Int) (half time : Nat) (judged : Bool) : State :=
  let s := (if judged then s.judgeMirror meas th half time else s).sampleL0 meas
  s.modStu fun u => { u with
    prevU := if u.drive then u.l0.u else 0, prevTh := (meas :: u.prevTh).take 2,
    startAt := if u.drive && u.l0.arrived then none else u.startAt,
    bridge := if s.resonant || !u.drive then u.bridge else u.l0.u }

/-- A measured turning point of a channel (R253): for CTRL also its L0 sample and the MOVING window (R256). One that comes before
its prediction has fallen due gives the event itself. The start-up kicks end where the prediction starts (R258). -/
def State.measureTp (s : State) (ch : SenseCh) (e : TpEv) (amp : Nat) (th : Int) (time : Nat) : State :=
  let p := (s.sense ch).tp
  let (newer, own, _) := p.split e
  let q := p.measured e amp
  let s := (s.setSense ch { s.sense ch with tp := q }).noteTp ch (own.map fun l => (e.time : Int) - l.time)
  let s := if p.running && own.isNone && newer.isEmpty then s.issueTp ch e else s
  if ch == .mon then s
  else
    let s := if !p.running && q.running then s.modStu fun u => { u with kickAt := none } else s
    let inWin := Nat.ble (s.rd F.STU_MWLO_MW) amp && Nat.ble amp (s.rd F.STU_MWHI_MW)
    let s := if inWin then s else (s.put F.STU_STATUS_MOVTOK false).stopToken
    s.l0Sample amp th q.thLast time true

/-- Look for a turning point at the middle of the last three outputs, newest first (R253). -/
def State.detectTp (s : State) (ch : SenseCh) : State :=
  match (s.sense ch).tp.th with
  | (c, _, rc) :: (b, tb, rb) :: (a, _, ra) :: _ =>
    let lim : Int := s.rd F.STU_TPMIN_TPMIN
    let pos := decide (a ≤ b) && decide (c < b) && decide (lim < b)
    let neg := decide (b ≤ a) && decide (b < c) && decide (b < -lim)
    if !(pos || neg) || ra || rb || rc then s
    else
      let den := a - 2 * b + c
      let dq := clampZ (-512) 512 (rdiv0 (1024 * (a - c)) (2 * den))
      let tout : Int := s.cicR * s.sampleNs
      let tp : Int := (tb : Int) - s.groupDelay + dq * tout / 1024
      let amp := (b - rdiv0 ((a - c) * (a - c)) (8 * den)).natAbs
      let e : TpEv := ⟨tp.toNat, pos⟩
      if (s.sense ch).tp.fresh e then s.measureTp ch e amp b tb else s
  | _ => s

/-- CIC_OUTPUT (R250 to R253, R257, R264, R287): one output of a channel. -/
def execCicOutput (t : Nat) (ch : SenseCh) (s : State) : Host.Outcome State Fault Refusal :=
  let s := s.begin t
  let x := s.sense ch
  match x.outs with
  | [] => .next s
  | o :: r =>
    let th := clampZ (-524288) 524287 (o.yi * s.rdZ ⟨0x3017 + chNo ch, 19, 0⟩ / 2 ^ 16)
    let s := s.wrZ ⟨0x3019 + chNo ch, 19, 0⟩ th
    let s := s.setSense ch { x with outs := r, tp := { x.tp with th := ((th, o.time, o.repl) :: x.tp.th).take 3 } }
    if s.resonant then .next (s.detectTp ch)
    else if ch == .ctrl then .next (s.l0Sample th th 0 o.time (!o.repl))
    else .next s

/-- TURNING_POINT_EVENT (R254): a predicted turning point falls due; the fifth without a measurement stops the prediction. -/
def execTurningPointEvent (t : Nat) (ch : SenseCh) (s : State) : Host.Outcome State Fault Refusal :=
  let s := s.begin t
  let x := s.sense ch
  match x.tp.last with
  | none => .next s
  | some l =>
    let due := l.time + x.tp.thLast
    if !s.resonant || !x.tp.running || !s.senseOn ch || Nat.blt s.now due then .next s
    else if Nat.ble 4 x.tp.npred then .next (s.tpLost ch)
    else
      let e : TpEv := ⟨due, !l.pos⟩
      let s := s.setSense ch { x with tp := { x.tp with last := some e, before := (l :: x.tp.before).take 7, npred := x.tp.npred + 1 } }
      .next (s.issueTp ch e)

/-! ### Kicks and the start of the mirror (R258, R269) -/

/-- KICK (R258): a kick starts WIDTH / 2 before its centre, with the u in force; before two turning points have been measured
the kicks alternate every 1 / (2 × F0NOM). -/
def execKick (t : Nat) (s : State) : Host.Outcome State Fault Refusal :=
  let s := s.begin t
  let w := 1000 * s.rd (F.CEN_L0_WIDTH_WIDTH (s.bank 0))
  match s.stu.kickAt with
  | none => .next s
  | some c =>
    if !s.resonant || !s.stu.drive || Nat.blt s.now (c - w / 2) then .next s
    else if !s.stu.ctrl.tp.running then
      let half := 1000000000 / max 1 (2 * s.rd F.STU_MIRCFG_F0NOM)
      let pol : Int := if s.stu.startPol then -1 else 1
      .next (s.modStu fun u => { u with bridge := pol, bridgeTo := s.now + w, startPol := !u.startPol, kickAt := some (c + half) })
    else
      let sg : Int := if s.stu.ctrl.tp.events.head?.any TpEv.pos then 1 else -1
      .next (s.modStu fun u => { u with bridge := -sg * u.l0.u, bridgeTo := s.now + w, kickAt := none })

/-- L0 starts, or recovers, in PROFILE from the measured quantity of its last sample and the difference over the last two (R262,
R267, R269). -/
def State.startL0 (s : State) : State :=
  let s := s.modStu fun u => { u with
    drive := true, l0 := u.l0.start (s.loopPar 0).lim u.l0.meas (u.l0.meas - u.l0.measPrev) (s.flag (F.CEN_CTL_MODE 0)),
    kickAt := some s.now }
  s.put F.STU_STATUS_DRIVE true

/-- Boot starts the mirror in the calibration step (R269). -/
def State.startMirror (s : State) : State :=
  (s.modStu fun u => { u with startAt := some s.clk, ctrl := { u.ctrl with gain := s.rd F.STU_SNS_C_GAIN },
                              mon := { u.mon with gain := s.rd F.STU_SNS_M_GAIN } }).startL0

/-! ### Registers (R267, R270 to R273) -/

/-- The cause of a drive stop is clear (R267). -/
def State.stopClear (s : State) : Bool :=
  let c := s.rd F.STU_FAULT_STOPCAUSE
  if c == 0 then !s.flag (inputBit ⟨0x3001, 16, 16⟩ (s.activeInput .ctrl)) &&
    !(s.flag F.STU_SNS_M_EN && s.flag (inputBit ⟨0x3001, 16, 16⟩ (s.activeInput .mon)))
  else if c == 1 then !s.flag F.STU_FAULT_MIRROR_IMPLAUSIBLE
  else true

/-- What a write of STU_FAULT does besides clearing (R267): DRIVE_STOP stays, or recovery starts. -/
def State.stuFaultCleared (s : State) (old : Word) : State :=
  if !bitOf old.toNat 10 || s.flag F.STU_FAULT_DRIVE_STOP then s.safEval
  else if s.stopClear then s.startL0.safEval
  else s.put F.STU_FAULT_DRIVE_STOP true

/-- A write of STU_SNS_C or STU_SNS_M (R249): SEL and GAIN take effect at the next period boundary. SEL is refused, be it the
present one, where its input is open, the partner is absent or a takeover of the channel runs. -/
def State.writeSns (s : State) (ch : SenseCh) (w : Word) : Status × State :=
  let x := s.sense ch
  let n := bitsOf w.toNat 17 17
  let cur := s.rd (snsFld ch F.STU_SNS_C_SEL)
  let gain := bitsOf w.toNat 16 15
  let moves := n != cur
  let i := 2 * chNo ch + n
  if s.flag (inputBit ⟨0x3001, 16, 16⟩ i) || (n == 1 && !s.flag (snsFld ch F.STU_SNS_C_PARTEN)) || x.takeover then (.refused, s)
  else
    let changed := gain != x.pendGain.getD x.gain
    let y := { x with pendSel := if moves then some (n == 1) else none, pendGain := if changed then some gain else x.pendGain }
    (.ok, (s.setSense ch y).wr (snsFld ch F.STU_SNS_C_GAIN) gain)

/-- L0 or L1 (R272). -/
def State.loop (s : State) (x : Nat) : Loop := if x == 0 then s.stu.l0 else s.stu.l1

def State.setLoop (s : State) (x : Nat) (l : Loop) : State :=
  s.modStu fun u => if x == 0 then { u with l0 := l } else { u with l1 := l }

/-- A write of CEN_Lx_CTL (R259, R262): the request for a mode, and BSEL for the next sample boundary. -/
def State.writeCenCtl (s : State) (x : Nat) (w : Word) : State :=
  let s := s.writeBsel x (bitOf w.toNat 18)
  if x == 2 then s
  else (s.put (F.CEN_CTL_MODE x) (bitOf w.toNat 19)).setLoop x ((s.loop x).request (bitOf w.toNat 19))

/-- A write of CEN_L0_TGT (R260, R261). -/
def State.writeTgt (s : State) (w : Word) : State :=
  let s' := s.setWord F.CEN_L0_TGT_TGT.addr w
  if s.rd F.CEN_L0_TGT_TGT == w.toNat then s' else s'.setLoop 0 { s.stu.l0 with arr := 0 }

/-- A bank word belongs to the active bank of its loop (R259, R273). -/
def State.bankBusy (s : State) (a : Nat) : Bool :=
  let k := a - 0x3080
  s.bank (k / 8) == k % 8 / 4

/-- STU_STATUS, STU_GD and ABANK as they read (R251, R270). -/
def State.viewStu (s : State) (a : Nat) : Option Word :=
  if a == 0x3000 then
    let mode := fun (l : Loop) => if !l.profile then 0 else if l.pending then 2 else 1
    let w := s.word a
    some (mkWord [(19, b2n s.stu.drive), (18, bitsOf w.toNat 18 18), (17, bitsOf w.toNat 17 17),
                  (16, b2n s.stu.ctrl.tp.running), (15, s.rd F.STU_SNS_C_SEL), (14, s.rd F.STU_SNS_M_SEL),
                  (12, mode s.stu.l0), (10, mode s.stu.l1), (9, b2n s.stu.l0.arrived), (8, b2n s.stu.l1.arrived)])
  else if a == 0x3005 then some (putBits (s.word a) 19 19 1)
  else if a == 0x3020 then some (if s.boot.flashDone then BitVec.ofNat 20 (s.groupDelay / 500) else s.word a)
  else none

end Sys2Proof.Machine
end

