-- ==== Sys2Proof/Machine/Compress.lean ====
section
/-! DEFINITION. The compression engine (chapter 12): the coded format, the contexts and the export job. -/

namespace Sys2Proof

/-! ### Tokens -/

/-- The bits of a number, most significant first. -/
def bitsBE (n : Nat) (k : Nat) : List Bool := (bitsLE n k).reverse

/-- The number that bits spell, most significant first. -/
def natBE (bs : List Bool) : Nat := bs.foldl (fun n b => 2 * n + b2n b) 0

/-- log2floor of R370. -/
def log2floor (n : Nat) : Nat := Nat.log2 (max 1 n)

/-- Pack bits into words from bit 19 downward; the bits behind the last are 0 (R369). -/
def packWords : Nat → List Bool → List Word
  | 0, _ => []
  | _, [] => []
  | n + 1, bs =>
    let h := bs.take 20
    BitVec.ofNat 20 (natBE (h ++ List.replicate (20 - h.length) false)) :: packWords n (bs.drop 20)

/-- z of a prediction error (R370). -/
def zigzag (e : Int) : Nat := if 0 ≤ e then (2 * e).toNat else (-2 * e - 1).toNat

/-- The prediction error of z (R370). -/
def unzigzag (z : Nat) : Int := if z % 2 = 0 then ((z / 2 : Nat) : Int) else -(((z + 1) / 2 : Nat) : Int)

/-- The token of a literal (R370, R371). -/
def literalBits (k z : Nat) : List Bool :=
  let q := z / 2 ^ k
  if q < 24 then false :: (List.replicate q true ++ false :: bitsBE z k)
  else false :: (List.replicate 24 true ++ bitsBE z 20)

/-- The token of a match of `l` words at distance `d` (R370). -/
def matchBits (l d : Nat) : List Bool :=
  true :: (List.replicate ((l - 3) / 8) true ++ false :: (bitsBE (l - 3) 3 ++ bitsBE (d - 1) 15))

/-- The hash of three words (R371). -/
def hash3 (a b c : Word) : Nat := (1021 * a.toNat + 31 * b.toNat + c.toNat) % 4096

/-- Length of the common prefix of two lists, at most `n`. -/
def common : Nat → List Word → List Word → Nat
  | n + 1, a :: x, b :: y => if a = b then 1 + common n x y else 0
  | _, _, _ => 0

namespace Machine

/-! ### A context's coder -/

/-- A literal's adaptation of A and k (R370). -/
def Ctx.adapt (c : Ctx) (z : Nat) : Ctx :=
  let a := min 0xFFFFFF (c.a + z - c.a / 16)
  { c with a := a, k := min 19 (log2floor (a / 16)) }

/-- The state with which a block of CONT = 0 starts (R370). -/
def Ctx.start (c : Ctx) (kinit : Nat) : Ctx :=
  { c with hist := [], pos := 0, tab := [], prev := 0, a := 16 * 2 ^ kinit, k := kinit, fresh := false }

/-- One word enters the history. -/
def Ctx.emit (c : Ctx) (w : Word) : Ctx := { c with hist := w :: c.hist, pos := c.pos + 1, prev := w }

/-- The history keeps the last 26,214 words (R370). -/
def Ctx.trim (c : Ctx) : Ctx := { c with hist := c.hist.take 26214 }

/-- Pass `n` words of a block: each position with three words left is stored under its hash, each word enters the history
(R371). -/
def Ctx.pass : Nat → List Word → Ctx → Ctx
  | 0, _, c => c
  | _, [], c => c
  | n + 1, w :: r, c =>
    let c := match r with
      | x :: y :: _ => { c with tab := c.tab.setNat (hash3 w x y) (c.pos + 1) }
      | _ => c
    (c.emit w).pass n r

/-- The match that the encoder finds for the rest of a block (R371): its length and distance; length 0 for none. -/
def Ctx.find (c : Ctx) : List Word → Nat × Nat
  | w :: x :: y :: r =>
    let j := c.tab.nat (hash3 w x y)
    let d := c.pos + 1 - j
    if j == 0 || Nat.blt 26214 d then (0, 0)
    else
      let l := common 258 ((c.hist.take d).reverse ++ w :: x :: y :: r) (w :: x :: y :: r)
      if Nat.blt l 3 then (0, 0) else (l, d)
  | _ => (0, 0)

/-- The tokens of a block (R371), newest first. -/
def Ctx.tokens : Nat → List Word → Ctx → List (List Bool) → Ctx × List (List Bool)
  | 0, _, c, acc => (c, acc)
  | _, [], c, acc => (c, acc)
  | fuel + 1, w :: r, c, acc =>
    match c.find (w :: r) with
    | (0, _) =>
      let z := zigzag (signed 20 ((w - c.prev).toNat))
      ((c.pass 1 (w :: r)).adapt z).tokens fuel r (literalBits c.k z :: acc)
    | (l, d) => (c.pass l (w :: r)).tokens fuel ((w :: r).drop l) (matchBits l d :: acc)

/-- The header of a block (R369). -/
def blockHeader (raw cont : Bool) (kinit nin nout sum : Nat) : List Word :=
  [mkWord [(16, 1), (15, b2n raw), (14, b2n cont), (10, kinit)], BitVec.ofNat 20 nin, BitVec.ofNat 20 nout,
   BitVec.ofNat 20 sum]

/-- The sum of words modulo 2^20. -/
def sumWords (ws : List Word) : Nat := (ws.map BitVec.toNat).sum % 2 ^ 20

/-- Code one block (R369, R371, R372): its words, the context behind it and whether it is NOSHRINK. -/
def Ctx.block (c : Ctx) (kinit : Nat) (cont : Bool) (ws : List Word) : List Word × Ctx × Bool :=
  let c := if cont then c else c.start kinit
  let (e, toks) := c.tokens ws.length ws []
  let bits := toks.reverse.flatten
  let nout := cdiv bits.length 20
  if nout < ws.length then
    (blockHeader false cont kinit ws.length nout (sumWords ws) ++ packWords nout bits, e.trim, false)
  else
    (blockHeader true cont kinit ws.length ws.length (sumWords ws) ++ ws, { e with a := c.a, k := c.k }.trim, true)

/-- A RAW block outside any context (R373). -/
def rawBlock (kinit : Nat) (ws : List Word) : List Word :=
  blockHeader true false kinit ws.length ws.length (sumWords ws) ++ ws

/-! ### Decompression (R376) -/

/-- How a decompression ends. -/
inductive DecEnd where
  | ok (words : List Word)
  | expand
  | decErr
  deriving DecidableEq, Repr, Inhabited

/-- Leading ones of a bit stream, at most `n`, and what follows them: the bits behind the terminating 0, or behind `n` ones;
none where the stream ends. -/
def takeOnes : Nat → List Bool → Option (Nat × List Bool)
  | 0, bs => some (0, bs)
  | _, [] => none
  | _, false :: bs => some (0, bs)
  | n + 1, true :: bs => (takeOnes n bs).map fun e => (e.1 + 1, e.2)

/-- Read `n` bits, most significant first. -/
def takeBits (n : Nat) (bs : List Bool) : Option (Nat × List Bool) :=
  if bs.length < n then none else some (natBE (bs.take n), bs.drop n)

/-- Copy `l` words from distance `d` (R370). -/
def Ctx.copy : Nat → Nat → Ctx → Ctx
  | 0, _, c => c
  | l + 1, d, c => (c.emit (c.hist.getD (d - 1) 0)).copy l d

/-- Decode the tokens of a block until `nin` words stand; none for DECERR. -/
def Ctx.untokens : Nat → Nat → List Bool → Ctx → Option Ctx
  | 0, _, _, c => some c
  | fuel + 1, left, bs, c =>
    if left == 0 then some c
    else match bs with
      | [] => none
      | false :: r =>
        match takeOnes 24 r with
        | none => none
        | some (q, r) =>
          match takeBits (if q == 24 then 20 else c.k) r with
          | none => none
          | some (v, r) =>
            let z := if q == 24 then v else q * 2 ^ c.k + v
            let w := c.prev + BitVec.ofInt 20 (unzigzag z)
            ((c.emit w).adapt z).untokens fuel (left - 1) r
      | true :: r =>
        match takeOnes 32 r with
        | none => none
        | some (q, r) =>
          match takeBits 18 r with
          | none => none
          | some (v, r) =>
            let l := q * 8 + v / 2 ^ 15 + 3
            let d := v % 2 ^ 15 + 1
            if Nat.blt 31 q || Nat.blt (min 26214 c.hist.length) d || Nat.blt left l then none
            else (c.copy l d).untokens fuel (left - l) r

/-- Decode the blocks of a section under an output limit (R376); `out` holds the words produced, newest first. -/
def decodeBlocks : Nat → Nat → List Word → Ctx → List Word → DecEnd
  | 0, _, _, _, out => .ok out.reverse
  | fuel + 1, olim, ws, c, out =>
    match ws with
    | [] => .ok out.reverse
    | h0 :: h1 :: h2 :: h3 :: r =>
      let h := h0.toNat
      let nin := h1.toNat
      let nout := h2.toNat
      let raw := bitOf h 15
      if Nat.blt olim (out.length + nin) then .expand
      else if bitsOf h 19 16 != 1 || nin == 0 || Nat.blt 65536 nin || (raw && nout != nin) || Nat.blt r.length nout then
        .decErr
      else
        let c := if bitOf h 14 then c else c.start (bitsOf h 13 10)
        let body := r.take nout
        let res := if raw then some (body.foldl Ctx.emit c) else c.untokens nin nin (body.flatMap fun w => bitsBE w.toNat 20)
        match res with
        | none => .decErr
        | some c' =>
          let got := c'.hist.take nin
          if sumWords got != h3.toNat then .decErr
          else decodeBlocks fuel olim (r.drop nout) c'.trim (got ++ out)
    | _ => .decErr

/-- Decompress a section (R376). -/
def decompress (olim : Nat) (ws : List Word) : DecEnd := decodeBlocks ws.length olim ws default []

/-! ### Contexts (R367, R368, R377) -/


/-- A free context: DRAINED = 1 and nothing resident (R380). -/
def Ctx.free : Ctx := { (default : Ctx) with drained := true }

def State.ctx (s : State) (n : Nat) : Ctx := (assoc s.cmp.ctxs n).getD Ctx.free

def State.setCtx (s : State) (n : Nat) (c : Ctx) : State :=
  s.modCmp fun m => { m with ctxs := assocPut m.ctxs n c }

def State.freeCtx (s : State) (n : Nat) : State := s.modCmp fun m => { m with ctxs := assocDel m.ctxs n }

/-- The contexts that an engine holds resident (R368). -/
def State.resident (s : State) (eng : Bool) : List (Nat × Ctx) :=
  s.cmp.ctxs.filter fun e => e.2.used && e.2.resident && e.2.eng == eng

/-- Take the lowest free context (R367); none where all 16 are taken. It is resident while its engine holds fewer than
four (R368). -/
def State.openCtx (s : State) (client : CtxClient) (eng : Bool) (src : Nat) : Option (Nat × State) :=
  match (List.range 16).find? fun n => !(s.ctx n).used with
  | none => none
  | some n =>
    let c : Ctx := { Ctx.free with used := true, client := client, eng := eng, src := src, fresh := true,
                                   lastUse := s.clk, resident := Nat.blt (s.resident eng).length 4 }
    some (n, s.setCtx n c)

/-- The scan-out context of a stream, if it holds one (R367). -/
def State.streamCtx (s : State) (n : Nat) : Option Nat :=
  (s.cmp.ctxs.find? fun e => e.2.used && e.2.client == .scanout && e.2.src == n).map Prod.fst

/-- Code one block in a scan-out context (R373); the first block of a stream, or after a reinitialisation, has CONT = 0. -/
def State.cmpBlock (s : State) (n : Nat) (cont : Bool) (ws : List Word) : List Word × State :=
  let c := s.ctx n
  let (out, c', raw) := c.block (s.rd F.CMP_CFG_KINIT) (cont && !c.fresh) ws
  let s := s.setCtx n { c' with lastUse := s.clk }
  (out, if raw then s.inc F.CMP_NOSHRINK0_COUNT else s)

/-- CONTEXT_SWAP (R368, R379, R395, R396): the least recently used context of CMP1 whose job is not running is saved and the
needed one restored; a poisoned context area reinitialises it empty. -/
def execContextSwap (t ctx : Nat) (hits : List MemHit) (s : State) : Host.Outcome State Fault Refusal :=
  let s := s.begin t
  let c := s.ctx ctx
  if !c.used || c.resident || !c.eng || !s.memAvail 1 then .next s
  else
    let busy := fun n => s.cmp.job.any fun j => j.ctx == n && (s.ctx n).resident
    let cand := (s.resident true).filter fun e => !busy e.1
    let victim := cand.foldl (fun (a : Option (Nat × Ctx)) e => match a with
      | none => some e
      | some b => if e.2.lastUse < b.2.lastUse then some e else a) none
    let full := Nat.ble 4 (s.resident true).length
    if full && victim.isNone then .next s
    else
      let s := match victim with
        | some (v, d) => if full then (s.setCtx v { d with resident := false }).writeBursts 1 (s.ctxBurst v) else s
        | none => s
      let s := s.memRead 1 2 true (hits.filter fun h => s.ctxBurst ctx h.burst)
      let c := if s.poisonIn 1 (s.ctxBurst ctx) then { c.start c.k with fresh := true } else c
      .next ((s.setCtx ctx { c with resident := true, lastUse := s.clk }).inc F.CMP_SWAPS_COUNT)

/-! ### The export job (R374, R375, R377, R383, R421) -/

/-- A port is set in EXPMASK. -/
def State.expMask (s : State) : List Nat :=
  (List.range 256).filter fun p => bitOf (s.word (0x9106 + p / 20)).toNat (p % 20)

/-- The links of the descriptor chain up to the first LEN 0 (R384): BASE and LEN. -/
def State.links (s : State) : List (Nat × Nat) :=
  ((List.range 16).map fun j => (s.rdWide (0x9200 + 4 * j) 2, s.rdWide (0x9202 + 4 * j) 2)).takeWhile fun l => l.2 != 0

/-- The words of the descriptor chain. -/
def State.chainWords (s : State) : Nat := (s.links.map Prod.snd).sum

/-- Words laid into links in order, with the word offset of each in the export partition (R374). -/
def place : List (Nat × Nat) → List Word → List (Nat × Word)
  | [], _ => []
  | (b, l) :: ls, ws => (ws.take l).zipIdx.map (fun e => (b + e.2, e.1)) ++ place ls (ws.drop l)

/-- The output of an export goes into its chain in subchannel B, whole bursts at a time (R374, R390, R395); a word beyond the
partition has no place (log entry 194). -/
def State.storeExport (s : State) (ws : List Word) : State :=
  let l := (place s.links ws).filter fun e => Nat.blt e.1 (25 * s.mem.expAt.2)
  let s := s.modCmp fun c => { c with expStore := l.foldl (fun m e => SMap.put (fun _ => 0) m e.1 e.2) c.expStore }
  let bs := (l.map fun e => s.mem.expAt.1 + e.1 / 25).dedup
  s.writeBursts 1 bs.contains

/-- The status of a GO (R380, R383). -/
def State.judgeGo (s : State) : Status :=
  match assoc s.cap.slots (s.rd F.CMP_EXP_SLOT_SLOT) with
  | none => .refused
  | some d =>
    if !s.ready || s.cmp.job.isSome || Nat.blt d.used (s.rdWide 0x9102 2 + s.rdWide 0x9104 2) ||
        Nat.blt 64 s.expMask.length || s.rdWide 0x9202 2 == 0 then .refused
    else if (s.openCtx .exporting true 0).isNone then .noroom
    else .ok

/-- An accepted GO (R329, R367, R383): the job holds its arguments, a context and the lock of its slot. -/
def State.startExport (s : State) (w : Word) : State :=
  match s.openCtx .exporting true 0 with
  | none => s
  | some (n, s) =>
    let slot := s.rd F.CMP_EXP_SLOT_SLOT
    let j : ExpJob := ⟨n, slot, s.rdWide 0x9102 2, s.rdWide 0x9104 2, false, bitOf w.toNat 17, w.toNat % 64, s.expMask⟩
    let s := ((((s.put F.CMP_EXP_RES_DONE false).wr F.CMP_EXP_RES_RESULT 0).wrWide 0x9114 2 0).wr F.CMP_EXP_NBLK_NBLK 0)
    (s.modCmp fun c => { c with job := some j, output := [] }).modCap fun c => { c with expSlot := some slot }

/-- A write of CMP_EXP_CTL (R377, R383). -/
def State.writeExpCtl (s : State) (w : Word) : Status × State :=
  let keep := fun (s : State) => s.setWord 0x9100 (w &&& 0x2003F)
  if bitOf w.toNat 19 then
    match s.judgeGo with
    | .ok => (.ok, (keep s).startExport w)
    | st => (st, s)
  else if bitOf w.toNat 18 then
    (.ok, (keep s).modCmp fun c => { c with job := c.job.map fun j => { j with abort := true } })
  else (.ok, keep s)

/-- The words of an export's range with the burst of each, in order, of the records that enter it (R375): TIME and AVG
records always, others by EXPMASK. -/
def State.expSource (s : State) (j : ExpJob) : List (Word × Nat) :=
  match assoc s.cap.slots j.slot with
  | none => []
  | some d =>
    let base := s.slotWord j.slot + 24
    let all := d.items.flatMap fun it =>
      let typ := bitsOf ((it.words.headD 0).toNat) 19 17
      let takes := typ == 0 || typ == 5 || j.mask.contains it.port
      it.words.zipIdx.map fun e =>
        let i := base + (it.ofs + e.2) % max 1 s.segw
        (takes, s.asRead 0 i e.1, i / 25)
    (((all.drop j.start).take j.count).filter Prod.fst).map Prod.snd

/-- How an export ends: its result code, output, blocks and NOSHRINK blocks. -/
structure ExpRun where
  result : Nat
  out : List Word
  nblk : Nat
  raws : Nat
  deriving DecidableEq, Repr, Inhabited

/-- Run the blocks of an export (R374, R375, R377, R379): `out` is held in blocks, newest first. -/
def runExport (kinit room : Nat) (abort : Bool) (bad : Nat → Bool) :
    Nat → Ctx → List (Word × Nat) → List (List Word) → Nat → Nat → ExpRun
  | 0, _, _, out, used, raws => let _ := used; ⟨0, out.reverse.flatten, out.length, raws⟩
  | fuel + 1, c, src, out, used, raws =>
    match src with
    | [] => ⟨0, out.reverse.flatten, out.length, raws⟩
    | _ =>
      let blk := src.take 65536
      if blk.any fun e => bad e.2 then ⟨2, [], 0, raws⟩
      else
        let (ws, c', raw) := c.block kinit (!out.isEmpty) (blk.map Prod.fst)
        let raws := raws + b2n raw
        if Nat.blt room (used + ws.length) then ⟨1, [], 0, raws⟩
        else if abort then ⟨3, [], 0, raws⟩
        else runExport kinit room abort bad fuel c' (src.drop 65536) (ws :: out) (used + ws.length) raws

/-- The EXPDATA messages of an output (R421): OFFSET, LAST and at most `n` words each. -/
def expData (n : Nat) : Nat → Nat → List Word → List (List Word)
  | 0, _, _ => []
  | fuel + 1, ofs, ws =>
    if ws.isEmpty then []
    else
      let rest := ws.drop n
      (wordsOf ofs 2 ++ [mkWord [(19, b2n rest.isEmpty)]] ++ ws.take n) :: expData n fuel (ofs + n) rest

/-- A partner negotiated at least a DLP version. -/
def Partner.atLeast (p : Partner) (maj min : Nat) : Bool :=
  p.st == .active && (Nat.blt maj p.maj || (p.maj == maj && Nat.ble min p.min))

/-- The output of an export that ended with DONE goes to the named partner (R421). -/
def State.sendExport (s : State) (j : ExpJob) : State :=
  if j.tohost then s
  else
    let p := s.ptn j.partner
    if !p.atLeast 2 1 then s.raise 0x39 .warn j.partner
    else (expData (if p.eth then 576 else 4096) s.cmp.output.length 0 s.cmp.output).foldl
      (fun s m => s.sendDlp j.partner 0x30 m) s

/-- EXPORT_END (R374, R375, R377 to R379): the job ends with DONE, CHAINEND, POISON or ABORTED. -/
def execExportEnd (t : Nat) (hits : List MemHit) (s : State) : Host.Outcome State Fault Refusal :=
  let s := s.begin t
  match s.cmp.job with
  | none => .next s
  | some j =>
    if !(s.ctx j.ctx).resident || !s.memAvail 0 || !s.memAvail 1 then .next s
    else
      let bursts := ((s.expSource j).map Prod.snd).dedup
      let s := s.memRead 0 3 true (hits.filter fun h => bursts.contains h.burst)
      let src := s.expSource j
      let r := runExport (s.rd F.CMP_CFG_KINIT) s.chainWords j.abort (s.poisoned 0) (src.length + 1) (s.ctx j.ctx) src [] 0 0
      let s := s.count F.CMP_NOSHRINK1_COUNT r.raws
      let s := if r.result == 1 then s.inc F.CMP_CHAINEND_COUNT else if r.result == 2 then s.inc F.CMP_POISON_COUNT else s
      let s := (((s.put F.CMP_EXP_RES_DONE true).wr F.CMP_EXP_RES_RESULT r.result).wrWide 0x9114 2 r.out.length).wr
        F.CMP_EXP_NBLK_NBLK r.nblk
      let s := ((s.freeCtx j.ctx).modCmp fun c => { c with job := none, output := r.out }).storeExport r.out
      let s := (s.modCap fun c => { c with expSlot := none }).unlockCap
      let s := s.raise 0x38 .info r.result
      .next (if r.result == 0 then s.sendExport j else s)

/-! ### Registers (R381, R382) -/

/-- CMP_STATUS, CMP_CTXUSE and CMP_CTX0 to CMP_CTX15. -/
def State.viewCmp (s : State) (a : Nat) : Option Word :=
  if a == 0x9000 then some (mkWord [(18, b2n s.cmp.job.isSome)])
  else if a == 0x9001 then some (BitVec.ofNat 20 (((List.range 16).map fun n => b2n (s.ctx n).used * 2 ^ n).sum))
  else if Nat.ble 0x9040 a && Nat.blt a 0x9050 then
    let c := s.ctx (a - 0x9040)
    let cl := match c.client with | .none => 0 | .scanout => 1 | .exporting => 2 | .boot => 3
    some (mkWord [(19, b2n c.used), (18, b2n c.drained), (16, cl), (15, b2n c.resident), (14, b2n c.eng), (10, c.src)])
  else none

end Machine

end Sys2Proof
end

