-- ==== Sys2Proof/Machine/Partners.lean ====
section
/-! DEFINITION. Partners (chapter 14): home lanes, DLP messages, versions, subscriptions, keepalive and closing. -/

namespace Sys2Proof.Machine


/-- A stream of the FSO. -/
def State.stream (s : State) (n : Nat) : Stream :=
  match n with | 0 => s.fso.str0 | 1 => s.fso.str1 | 2 => s.fso.str2 | _ => s.fso.str3

def State.setStream (s : State) (n : Nat) (x : Stream) : State :=
  s.modFso fun f => match n with
    | 0 => { f with str0 := x }
    | 1 => { f with str1 := x }
    | 2 => { f with str2 := x }
    | _ => { f with str3 := x }

/-! ### ARP (R425) -/

/-- The IPv4 address, netmask or gateway (item 0, 1, 2) of a lane (R443). -/
def State.laneAddr (s : State) (lane item : Nat) : BitVec 32 :=
  BitVec.ofNat 32 ((s.word (0xB610 + 8 * lane + 2 * item)).toNat % 65536
    + 65536 * ((s.word (0xB611 + 8 * lane + 2 * item)).toNat % 65536))

def State.laneIp (s : State) (lane : Nat) : BitVec 32 := s.laneAddr lane 0

/-- The next hop to an address: the address itself within the lane's network, else the gateway. -/
def State.nextHop (s : State) (lane : Nat) (ip : BitVec 32) : BitVec 32 :=
  let m := s.laneAddr lane 1
  if ip &&& m == s.laneIp lane &&& m then ip else s.laneAddr lane 2

/-- Ask for the next hop to an address that the lane's cache does not hold. -/
def State.resolve (s : State) (lane : Nat) (ip : BitVec 32) : State :=
  let hop := s.nextHop lane ip
  if s.lnk.arp.any (fun e => e.1 == lane && e.2.1 == hop) || s.lnk.arpReqs.any (fun r => r.lane == lane && r.ip == hop) then s
  else (s.modLnk fun l => { l with arpReqs := l.arpReqs ++ [⟨lane, hop, 1, s.clk⟩] }).send (.arpRequest lane hop)

/-! ### Lanes and aggregates (R422) -/

/-- A data lane runs in ETH mode (R404). -/
def State.laneEth (s : State) (lane : Nat) : Bool := s.rd (F.LNK_LCFG_MODE lane) == 2

/-- The aggregate of a data lane (R422): an ETH lane is one of its own. -/
def State.aggOf (s : State) (lane : Nat) : Nat := if s.laneEth lane then 8 + lane else s.rd (F.LNK_LCFG_AGG lane)

/-- A lane carries messages (R406). -/
def State.carries (s : State) (lane : Nat) : Bool :=
  let st := (s.lane lane).stage
  st == .caps || st == .active

/-- Partners whose home lane is a lane. -/
def State.homed (s : State) (lane : Nat) : List Nat :=
  (s.lnk.partners.filter fun e => (e.2.st == .caps || e.2.st == .active) && e.2.lane == lane).map Prod.fst

/-- The home lane of an aggregate (R422): of its lanes that carry messages the one with the fewest partners, ties to the
lower number. -/
def State.homeLane (s : State) (agg : Nat) : Option Nat :=
  ((List.range 8).filter fun l => s.aggOf l == agg && s.carries l).foldl (fun (a : Option Nat) l => match a with
    | none => some l
    | some b => if (s.homed l).length < (s.homed b).length then some l else some b) none

/-! ### Messages (R412, R413) -/

/-- A DLP message as received (R413). -/
structure Dlp where
  typ : Nat
  ptn : Nat
  seq : Nat
  payload : List Word
  deriving DecidableEq, Repr, Inhabited

/-- A message whose length and CRC hold (R413): the header of three words, LEN payload words and two CRC words. -/
def Dlp.parse (eth : Bool) (ws : List Word) : Option Dlp :=
  match ws with
  | h :: l :: q :: r =>
    let n := l.toNat
    let body := ws.take (3 + n)
    let crc := crcA (streamBits body)
    if r.length == n + 2 && Nat.ble n (if eth then 583 else 8192) && ws.drop (3 + n) == wordsOf crc 2 then
      some ⟨bitsOf h.toNat 19 12, bitsOf h.toNat 11 6, q.toNat, r.take n⟩
    else none
  | _ => none

/-- The lowest version, MAJ·16 + MIN, at which a partner may send a type (R415); none for a type that it never sends. -/
def rxVersion (typ : Nat) : Option Nat :=
  if typ == 1 || typ == 3 || typ == 4 || typ == 5 || typ == 6 then some 0
  else if typ == 0x14 then some 0x20
  else if typ == 0x15 then some 0x23
  else if typ == 0x40 then some 0x22
  else none

/-- The type is allowed at the sender's version (R413, R415); before SELECT only SELECT, KEEPALIVE and BYE. -/
def Partner.allows (p : Partner) (typ : Nat) : Bool :=
  match rxVersion typ with
  | none => false
  | some v => if p.maj == 0 then typ == 3 || typ == 4 || typ == 5 else Nat.ble v (16 * p.maj + p.min)

/-- The entry that a message names is the sender's: of the lane's aggregate, and in ETH mode of its address and port. -/
def State.senderOk (s : State) (lane : Nat) (src : EthSrc) (p : Partner) : Bool :=
  p.st != .free && !p.closing && p.agg == s.aggOf lane && (!p.eth || (p.tag == src.ip && p.port == src.port))

/-- Receive a message of the type of a row (R413, R414): CRC, SEQ and TYPE are checked in order; an accepted one refreshes
the keepalive timer. -/
def State.rxDlp (s : State) (lane : Nat) (src : EthSrc) (typ : Nat) (ws : List Word) : Option (Nat × Dlp) × State :=
  if !s.carries lane || Nat.ble 8 lane then (none, s)
  else match Dlp.parse (s.laneEth lane) ws with
    | none => (none, s.inc F.LNK_MSGCRC_COUNT)
    | some m =>
      let p := s.ptn m.ptn
      if !s.senderOk lane src p then (none, s)
      else if p.rxSeq.any fun r => !newer m.seq r then (none, s.inc F.LNK_DUPSEQ_COUNT)
      else if !p.allows m.typ then (none, s.inc F.LNK_BADMSG_COUNT)
      else if m.typ != typ then (none, s)
      else (some (m.ptn, m), s.setPtn m.ptn { p with rxSeq := some m.seq, rxAt := s.clk })

/-! ### Contexts of streams (R367, R377) -/

/-- A stream is enabled by the definition in force. -/
def State.streamOn (s : State) (n : Nat) : Bool := bitOf (s.word (0x8050 + 32 * n)).toNat 19

/-- A partner holds a stream compressed. -/
def Partner.compOn (p : Partner) (n : Nat) : Bool := p.comp && bitOf p.subs n

/-- A scan sends compressed blocks. -/
def Scan.compressed (x : Scan) : Bool := x.dests.any fun d => Nat.ble 64 d

/-- Close the context of a stream that no compressed partner holds (R377): at once, or at the end of the scan that uses it. -/
def State.closeStreamCtx (s : State) (n : Nat) : State :=
  match s.streamCtx n with
  | none => s
  | some c =>
    if s.lnk.partners.any fun e => e.2.compOn n then s.setCtx c { s.ctx c with drained := true }
    else if (s.stream n).scan.any Scan.compressed then s.setCtx c { s.ctx c with drained := false }
    else s.freeCtx c

/-- Close the contexts of streams that no compressed partner holds (R377). -/
def State.closeCtxs (s : State) : State := (List.range 4).foldl State.closeStreamCtx s

/-- Open the contexts of streams that have none (R418); none where a free context is wanting. -/
def State.openCtxs (s : State) : List Nat → Option State
  | [] => some s
  | n :: r =>
    match s.streamCtx n with
    | some _ => s.openCtxs r
    | none => match s.openCtx .scanout false n with
      | none => none
      | some (_, s) => s.openCtxs r

/-! ### Closing (R419) -/

/-- A frame in progress still goes to a partner. -/
def State.inScan (s : State) (n : Nat) : Bool :=
  (List.range 4).any fun k =>
    ((s.stream k).scan.any fun x => x.dests.any fun d => d % 64 == n) || (s.stream k).resend.any fun x => x.partner == some n

/-- An entry becomes FREE (R419). -/
def State.freePtn (s : State) (n : Nat) : State :=
  (s.modLnk fun l => { l with partners := assocDel l.partners n }).raise 0x41 .info n

/-- Forget a partner's acceptances (R350). -/
def State.dropAccs (s : State) (n : Nat) : State :=
  (List.range 4).foldl (fun s k => s.setStream k { s.stream k with accs := (s.stream k).accs.filter (· != n) }) s

/-- An entry closes (R351, R419): it is unsubscribed, and FREE once the frame in progress has been sent. -/
def State.closePtn (s : State) (n : Nat) : State :=
  let p := s.ptn n
  let s := (s.setPtn n { p with subs := 0, comp := false, evt := false, safSub := false, closing := true, evq := [] }).dropAccs n
  let s := s.closeCtxs
  if s.inScan n then s else s.freePtn n

/-- Closing entries whose last frame has been sent become FREE. -/
def State.settleClosing (s : State) : State :=
  ((s.lnk.partners.filter fun e => e.2.closing).map Prod.fst).foldl (fun s n => if s.inScan n then s else s.freePtn n) s

/-! ### HELLO and SELECT (R414, R416, R417) -/

/-- The version that the device offers (R417). -/
def offerOf (offers : List Word) : Nat × Nat :=
  let of := (offers.map fun w => (bitsOf w.toNat 19 16, bitsOf w.toNat 15 12)).filter fun o => o != (0, 0)
  let best := fun m => (of.filter fun o => o.1 == m).foldl (fun (a : Option Nat) o => some (max (a.getD 0) o.2)) none
  match best 2, best 1 with
  | some v, _ => (2, min v 3)
  | none, some v => (1, min v 4)
  | none, none => (2, 3)

/-- The payload of a CAPS (R415). -/
def State.capsWords (s : State) (status : Status) (n : Nat) (offer : Nat × Nat) : List Word :=
  [mkWord [(16, status.toNat), (6, n)], mkWord [(16, offer.1), (12, offer.2)], s.word 0,
   mkWord [(15, s.lnk.pos), (14, b2n s.lnk.joined)]]

/-- The address words of an entry (R442). -/
def State.safePartner (s : State) (lane : Nat) (eth : Bool) (tag : BitVec 32) (port : BitVec 16) : Bool :=
  let a := (s.word 0xB031).toNat
  let addr := if eth then a % 65536 + 65536 * ((s.word 0xB032).toNat % 65536) else a
  s.flag F.LNK_SAFEP_ETH == eth && s.rd F.LNK_SAFEP_LANE == lane && addr == tag.toNat &&
    (!eth || s.rd F.LNK_SAFEP_PORT_PORT == port.toNat)

/-- A stream without the scan and the resends to a partner. -/
def Stream.cut (x : Stream) (n : Nat) : Stream :=
  { x with scan := x.scan.map fun y => { y with dests := y.dests.filter fun d => d % 64 != n },
           resend := x.resend.filter fun y => y.partner != some n }

/-- A restarted partner's frames in progress end (R416). -/
def State.cutFrames (s : State) (n : Nat) : State :=
  (List.range 4).foldl (fun s k => s.setStream k ((s.stream k).cut n)) s

/-- HELLO (R414, R416, R417): make or reuse an entry and answer with CAPS. -/
def execHello (t lane : Nat) (src : EthSrc) (msg : List Word) (s : State) : Host.Outcome State Fault Refusal :=
  let s := s.begin t
  if !s.carries lane || Nat.ble 8 lane then .next s
  else
    let eth := s.laneEth lane
    match Dlp.parse eth msg with
    | none => .next (s.inc F.LNK_MSGCRC_COUNT)
    | some m =>
      if m.typ != 1 then .next s
      else if !s.ready then .next (s.send (.capsNone lane Status.busy.toNat))
      else
        let agg := s.aggOf lane
        let tag : BitVec 32 := if eth then src.ip else BitVec.ofNat 32 (m.payload.headD 0).toNat
        let port : BitVec 16 := if eth then src.port else 0
        let old := (s.lnk.partners.find? fun e => e.2.agg == agg && e.2.tag == tag && e.2.port == port).map Prod.fst
        let s := match old with
          | none => s
          | some n => (s.cutFrames n).closePtn n
        match old <|> (List.range 64).find? (fun n => (s.ptn n).st == .free) with
        | none => .next ((s.inc F.LNK_NOROOM_COUNT).send (.capsNone lane Status.noroom.toNat))
        | some n =>
          let offer := offerOf ((m.payload.drop 1).take 4)
          let p : Partner := { (default : Partner) with
            st := .caps, offMaj := offer.1, offMin := offer.2, lane := (s.homeLane agg).getD lane, agg := agg, eth := eth,
            safe := s.safePartner lane eth tag port, tag := tag, port := port, rxAt := s.clk, txAt := s.clk }
          let s := s.setPtn n p
          let s := if eth then s.resolve lane src.ip else s
          .next (s.sendDlp n 0x02 (s.capsWords .ok n offer))

/-- SELECT (R406, R417): the entry becomes ACTIVE at the named version, or CAPS carries VERSION. -/
def execSelect (t lane : Nat) (src : EthSrc) (msg : List Word) (s : State) : Host.Outcome State Fault Refusal :=
  let s := s.begin t
  match s.rxDlp lane src 3 msg with
  | (none, s) => .next s
  | (some (n, m), s) =>
    let p := s.ptn n
    if p.st != .caps then .next s
    else
      let w := (m.payload.headD 0).toNat
      if bitsOf w 19 16 == p.offMaj && Nat.ble (bitsOf w 15 12) p.offMin then
        let s := s.setPtn n { p with st := .active, maj := p.offMaj, min := bitsOf w 15 12 }
        let l := s.lane lane
        let s := if l.stage == .caps then s.setLane lane { l with stage := .active, since := s.clk } else s
        .next (s.raise 0x40 .info n)
      else
        let s := (s.inc F.LNK_VERSION_COUNT).setPtn n { p with cstat := Status.version.toNat }
        .next (s.sendDlp n 0x02 (s.capsWords .version n (p.offMaj, p.offMin)))

/-! ### SUB, KEEPALIVE and BYE (R418, R419) -/

/-- SUB (R418): the partner's subscriptions are replaced; SUBRSP reports what was granted. -/
def execSub (t lane : Nat) (src : EthSrc) (msg : List Word) (s : State) : Host.Outcome State Fault Refusal :=
  let s := s.begin t
  match s.rxDlp lane src 6 msg with
  | (none, s) => .next s
  | (some (n, m), s) =>
    let p := s.ptn n
    let w := (m.payload.headD 0).toNat
    let granted := (List.range 4).filter fun k => bitOf w (16 + k) && s.streamOn k
    let subs := (granted.map fun k => 2 ^ k).sum
    let wants := bitOf w 15 && p.atLeast 2 0
    let opened := if wants then s.openCtxs granted else none
    let comp := opened.isSome
    let s := opened.getD s
    let st : Status := if wants && !comp then .noroom else .ok
    let s := s.setPtn n { p with
      subs := subs, comp := comp, evt := bitOf w 14 && p.atLeast 1 2,
      safSub := bitOf w 13 && p.atLeast 2 2 && p.safe, cstat := st.toNat }
    let s := s.closeCtxs
    .next (s.sendDlp n 0x07 [mkWord [(16, st.toNat), (12, subs), (11, b2n comp)]])

/-- KEEPALIVE (R419): the message refreshes the partner's timer. -/
def execKeepalive (t lane : Nat) (src : EthSrc) (msg : List Word) (s : State) : Host.Outcome State Fault Refusal :=
  let s := s.begin t
  .next (s.rxDlp lane src 4 msg).2

/-- BYE (R419): the entry closes. -/
def execBye (t lane : Nat) (src : EthSrc) (msg : List Word) (s : State) : Host.Outcome State Fault Refusal :=
  let s := s.begin t
  match s.rxDlp lane src 5 msg with
  | (none, s) => .next s
  | (some (n, _), s) => .next (s.closePtn n)

/-- KEEPALIVE_SEND (R419): to a partner to which nothing has been sent for KATMO/4. -/
def execKeepaliveSend (t partner : Nat) (s : State) : Host.Outcome State Fault Refusal :=
  let s := s.begin t
  let p := s.ptn partner
  if s.canSend partner && Nat.ble (1000000 * s.rd F.LNK_KATMO_KATMO) (4 * (s.clk - p.txAt)) then
    .next (s.sendDlp partner 0x04 [])
  else .next s

/-- KEEPALIVE_TIMEOUT (R419, R424): an entry from which nothing has been received for KATMO ms closes. -/
def execKeepaliveTimeout (t partner : Nat) (s : State) : Host.Outcome State Fault Refusal :=
  let s := s.begin t
  let p := s.ptn partner
  if p.st != .free && !p.closing && Nat.ble (p.rxAt + 1000000 * s.rd F.LNK_KATMO_KATMO) s.clk then
    .next (s.closePtn partner)
  else .next s

/-! ### Rehoming (R420, R423, R424) -/

/-- Send the partner's event queue, up to 16 entries to a message (R415, R420). -/
def State.flushEvents : Nat → Nat → State → State
  | 0, _, s => s
  | fuel + 1, n, s =>
    let p := s.ptn n
    if p.evq.isEmpty then s
    else ((s.setPtn n { p with evq := p.evq.drop 16 }).sendDlp n 0x20 ((p.evq.take 16).flatMap EvEntry.words)).flushEvents
      fuel n

/-- The messages of the last 4 µs go out again on another lane (R423). -/
def State.sendAgain (s : State) (n l : Nat) (sent : List Sent) : State :=
  (sent.filter fun x => Nat.ble s.clk (x.time + 4000)).reverse.foldl (fun s x => s.send (.dlp n l x.typ x.seq x.payload)) s

/-- Move a partner to a lane of its aggregate, or suspend it (R423, R424). `lost`: after a lane loss, when the messages of the
last 4 µs go again with their SEQ and LNK_FAILOVER counts. -/
def State.rehome (s : State) (lost : Bool) (n : Nat) : State :=
  let p := s.ptn n
  match s.homeLane p.agg with
  | none => s.setPtn n { p with st := .suspended }
  | some l =>
    let st : PtnSt := if p.maj == 0 then .caps else .active
    let s := s.setPtn n { p with st := st, lane := l }
    let s := if lost then (s.sendAgain n l p.sent).inc F.LNK_FAILOVER_COUNT else s
    if st == .active then s.flushEvents 5 n else s

/-- A lane has reached CAPS: partners suspended for want of a lane of its aggregate return (R424). -/
def State.resume (s : State) (lane : Nat) : State :=
  ((s.lnk.partners.filter fun e => e.2.st == .suspended && e.2.agg == s.aggOf lane).map Prod.fst).foldl (State.rehome · false) s

/-! ### Registers (R442) -/

/-- A word of a partner entry. -/
def State.viewPtn (s : State) (a : Nat) : Option Word :=
  if Nat.ble 0xB400 a && Nat.blt a 0xB600 then
    let p := s.ptn ((a - 0xB400) / 8)
    let st := match p.st with | .free => 0 | .caps => 1 | .active => 2 | .suspended => 3
    let addr := p.tag.toNat
    some (if p.st == .free then 0 else match (a - 0xB400) % 8 with
      | 0 => mkWord [(17, st), (15, p.maj), (12, p.min), (9, p.lane), (6, s.rd (F.LNK_LCFG_AGG p.lane)), (5, b2n p.comp),
                     (4, b2n p.eth), (3, b2n p.safe)]
      | 1 => mkWord [(16, p.subs), (15, b2n p.evt), (14, b2n p.safSub), (0, p.cstat)]
      | 2 => BitVec.ofNat 20 (if p.eth then addr % 65536 else addr)
      | 3 => BitVec.ofNat 20 (if p.eth then addr / 65536 else 0)
      | 4 => BitVec.ofNat 20 p.port.toNat
      | 5 => BitVec.ofNat 20 ((p.txSeq + 2 ^ 20 - 1) % 2 ^ 20)
      | 6 => BitVec.ofNat 20 (p.rxSeq.getD 0)
      | _ => BitVec.ofNat 20 (satN 20 ((s.clk - p.rxAt) / 1000000)))
  else none

end Sys2Proof.Machine
end

