-- ==== Sys2Proof/Machine/Frames.lean ====
section
/-! DEFINITION. Veneers, frames and scan-out (chapter 11): marks at the FSO, placing, frame slots, commits, acceptances,
flips, line records and pinned frames. -/

namespace Sys2Proof.Machine

/-! ### Stream definitions (R342, R363) -/

/-- A word of a definition: 0 CTL, 1 WIN0, 2 WIN1, 3 to 10 VEN0 to VEN7. -/
def dw (d : List Word) (i : Nat) : Nat := (d.getD i 0).toNat

def defEn (d : List Word) : Bool := bitOf (dw d 0) 19
def defScale (d : List Word) : Bool := bitOf (dw d 0) 18
def defWl0 (d : List Word) : Nat := bitsOf (dw d 1) 19 8
def defWc0 (d : List Word) : Nat := bitsOf (dw d 1) 7 0
def defWnl (d : List Word) : Nat := bitsOf (dw d 2) 19 8 + 1
def defWnc (d : List Word) : Nat := bitsOf (dw d 2) 7 0 + 1
def venKind (d : List Word) (v : Nat) : Nat := bitsOf (dw d (3 + v)) 19 16
def venEsel (d : List Word) (v : Nat) : Nat := bitsOf (dw d (3 + v)) 15 13
def venEn (d : List Word) (v : Nat) : Bool := bitOf (dw d (3 + v)) 12

/-- The enabled Veneers of an enabled stream, in index order. -/
def vens (d : List Word) : List Nat := if defEn d then (List.range 8).filter (venEn d) else []

/-- The bits of a definition word that carry fields (R363). -/
def defMask (i : Nat) (w : Word) : Word :=
  if i == 0 then w &&& 0xC0000 else if i ≤ 2 then w else w &&& 0xFF000

/-- The staged definition of a stream. -/
def State.staged (s : State) (n : Nat) : List Word := (List.range 11).map fun i => s.word (0x8040 + 32 * n + i)

/-- The definition in force. -/
def State.actDef (s : State) (n : Nat) : List Word := (List.range 11).map fun i => s.word (0x8050 + 32 * n + i)

/-- The latest committed definition. -/
def State.latestDef (s : State) (n : Nat) : List Word :=
  match (s.stream n).pend with
  | some p => p.defn
  | none => s.actDef n

/-! ### Slots (R348) -/

def Stream.slot (x : Stream) (k : Nat) : FrmSlot := match k with | 0 => x.s0 | 1 => x.s1 | _ => x.s2

def Stream.setSlot (x : Stream) (k : Nat) (v : FrmSlot) : Stream :=
  match k with | 0 => { x with s0 := v } | 1 => { x with s1 := v } | _ => { x with s2 := v }

/-- The lowest slot in a state. -/
def Stream.find (x : Stream) (st : SlotSt) : Option Nat := (List.range 3).find? fun k => (x.slot k).st == st

/-- A slot holds a frame: it is not FREE, or pinned. -/
def Stream.holds (x : Stream) (k : Nat) : Bool := (x.slot k).st != .free || x.pin == some k

/-- First burst and bursts of slot k of a stream: a third of its partition (log entry 43). -/
def State.slotBursts (s : State) (n k : Nat) : Nat × Nat :=
  let (b, z) := (assoc (s.fso.frm.zipIdx.map fun e => (e.2, e.1)) n).getD (0, 0)
  (b + k * (z / 3), z / 3)

/-- The word of subchannel B at which one line of one Veneer begins: lines of a Veneer follow one another (log entry 43). -/
def State.lineWord (s : State) (n k : Nat) (d : List Word) (v line : Nat) : Nat :=
  25 * (s.slotBursts n k).1 + ((vens d).findIdx (· == v) * defWnl d + line) * (6 + defWnc d)

/-- The bursts of one line of one Veneer. -/
def State.lineBursts (s : State) (n k : Nat) (d : List Word) (v line : Nat) : Nat → Bool :=
  let w := s.lineWord n k d v line
  fun x => Nat.ble (w / 25) x && Nat.ble x ((w + 5 + defWnc d) / 25)

/-! ### Commits (R354 to R356) -/

/-- NLINES. -/
def State.nlines (s : State) : Nat := s.rd F.FSO_CFG_NLM1 + 1

/-- A Veneer is disabled by the latest commit while a frame built with it is still held or to be built (R356). -/
def State.venDraining (s : State) (n v : Nat) : Bool :=
  let x := s.stream n
  !(vens (s.latestDef n)).contains v &&
    ((vens (s.actDef n)).contains v || (List.range 3).any fun k => x.holds k && (vens (x.slot k).defn).contains v)

/-- The status of a commit (R355). -/
def State.judgeDef (s : State) (n : Nat) (d : List Word) : Status :=
  let rate := (assoc s.fso.ptRate s.seq.active.lib).getD 0
  let count := ((List.range 4).map fun m => (vens (if m == n then d else s.latestDef m)).length).sum
  let size := ((s.fso.frm.getD n (0, 0)).2) * 25
  if (List.range 8).any (fun v => venEsel d v == 7) || (defEn d && (vens d).isEmpty) then .refused
  else if Nat.blt s.nlines (defWl0 d + defWnl d) || Nat.blt 256 (defWc0 d + defWnc d) then .refused
  else if (vens d).any (s.venDraining n) then .draining
  else if Nat.blt size (3 * (defWnl d * (6 + defWnc d)) * (vens d).length) then .nofit
  else if Nat.blt 1024000000 (count * rate) then .nofit
  else .ok

/-- The frame that takes a commit completed now (R354). -/
def State.commitFrame (s : State) : Nat := s.fso.fcnt + (if s.fso.latched then 2 else 1)

/-- An accepted commit is pending (R354); of two at one instant the host's is kept. -/
def State.commitDef (s : State) (n : Nat) (d : List Word) (partner : Bool) : State :=
  let x := s.stream n
  if partner && x.pend.any fun p => !p.partner && p.at0 == s.clk then s
  else
    let older := match x.pend with
      | some p => if p.at0 == s.clk then p.older else some (p.defn, p.frame)
      | none => none
    s.setStream n { x with pend := some ⟨d, partner, s.commitFrame, s.clk, older⟩ }

/-- A decided snap takes its instant from the latch point, and TIMESET goes downstream (R453). -/
def State.latchSnap (s : State) : State :=
  match s.tbu.snapWait with
  | none => s
  | some d =>
    let ts := s.now + s.rd F.CTL_BATTEN_LEAD_LEAD
    let s := s.modTbu fun b => { b with snapWait := none, snaps := b.snaps ++ [({ time := ts, delta := d, origin := s.lnk.pos } : Snap)] }
    let s := (s.wrWide 0x100D 3 ts).wrWide 0x1010 2 (unsigned 40 d)
    s.sendChain .down 0x66 ((wordsOf ts 3 ++ wordsOf (unsigned 40 d) 2).map BitVec.toNat ++ [s.lnk.pos * 2 ^ 15])

/-- A pending definition of a stream takes effect for the next frame, or waits one more where it came at this very instant (R354,
R360); the one that it replaced then takes effect where it was due. -/
def State.latchDef (s : State) (next n : Nat) : State :=
  let x := s.stream n
  match x.pend with
  | none => s
  | some p =>
    if Nat.blt next p.frame then s
    else if p.at0 == s.clk then
      let s := s.setStream n { x with pend := some { p with frame := next + 1, older := none } }
      match p.older with
      | some (d, fr) => if Nat.ble fr next then s.wrWords (0x8050 + 32 * n) d else s
      | none => s
    else (s.setStream n { x with pend := none }).wrWords (0x8050 + 32 * n) p.defn

/-- The latch point of the last frame (R348, R354, R360): pending definitions for the next frame are in force. -/
def State.latchDefs (s : State) : State :=
  let next := s.fso.fcnt + 1
  let s := (List.range 4).foldl (fun s n => s.latchDef next n) s
  (s.modFso fun f => { f with latched := true }).latchSnap

/-! ### Frames open and close (R346, R348) -/

/-- A frame of a stream is dropped (R348). -/
def State.dropFrame (s : State) (n k : Nat) : State :=
  let x := s.stream n
  (s.setStream n (({ x with drops := x.drops + 1 }).setSlot k { x.slot k with st := .free })).inc F.FSO_DROP_COUNT

/-- A slot of a stream is taken for the new frame (R348): its GEN advances. -/
def State.takeSlot (s : State) (n k : Nat) (tj : Bool) : State :=
  let x := s.stream n
  let v : FrmSlot := { (default : FrmSlot) with
    st := .asm, gen := ((x.slot k).gen + 1) % 256, fcnt := s.fso.fcnt, defn := s.actDef n, timejump := tj }
  s.setStream n (x.setSlot k v)

/-- The FSO writes a line of a slot in every Veneer (R348, R390, R395). -/
def State.writeLine (s : State) (n k : Nat) (d : List Word) (line : Nat) : State :=
  (vens d).foldl (fun s v => s.writeBursts 1 (s.lineBursts n k d v line)) s

/-- A frame opens in a slot of a stream that is on: in a FREE one, else in the READY one, which is dropped, else in none
(R348). -/
def State.openIn (s : State) (tj : Bool) (n : Nat) : State :=
  let x := s.stream n
  if !s.streamOn n then s
  else match (List.range 3).find? fun k => (x.slot k).st == .free && x.pin != some k with
    | some k => s.takeSlot n k tj
    | none => match (List.range 3).find? fun k => (x.slot k).st == .ready && x.pin != some k with
      | some k => (s.dropFrame n k).takeSlot n k tj
      | none => s.inc F.FSO_NOBUF_COUNT

/-- Frame F opens (R346, R348, R454). -/
def State.openFrame (s : State) : State :=
  let tj := s.fso.timejump
  let s := s.modFso fun f => { f with fcnt := (f.fcnt + 1) % 2 ^ 60, frameOpen := true, latched := false, timejump := false }
  (List.range 4).foldl (fun s n => s.openIn tj n) s

/-- The frame being built in a stream becomes READY, and an older READY frame is dropped (R348); its lines without a record
have been written too (log entry 43). -/
def State.closeIn (s : State) (n : Nat) : State :=
  let x := s.stream n
  match x.find .asm with
  | none => s
  | some k =>
    let f := x.slot k
    let bare := (List.range (defWnl f.defn)).filter fun l => (assoc f.lines (defWl0 f.defn + l)).isNone
    let s := bare.foldl (fun s l => s.writeLine n k f.defn l) s
    let s := match x.find .ready with
      | some o => s.dropFrame n o
      | none => s
    let x := s.stream n
    s.setStream n (x.setSlot k { x.slot k with st := .ready })

/-! ### Marks at the ports and at the FSO (R64) -/

/-- The first mark that has not passed the ports passes them, if it carries a bit and nothing precedes it. -/
def State.passFirst (s : State) (has : Mark → Bool) : State :=
  match s.toPass with
  | [] => s
  | m :: _ => if m.cause.isNone && has m && s.clearBefore m.id then s.passMark m else s

/-- A result before an order number is still on its way to the FSO. -/
def State.resultsBefore (s : State) (n : Nat) : Bool :=
  s.histBefore n || (s.rpe.singles.any fun x => Nat.blt x.ord n) || s.rpe.points.any fun p => Nat.blt p.ord n

/-- The mark at the head of the data path, when it has passed the ports and every earlier result has reached the FSO. -/
def State.markAtFso (s : State) : Option Mark :=
  match s.seq.marks with
  | m :: _ => match m.ord with
    | some n => if s.resultsBefore n then none else some m
    | none => none
  | [] => none

/-- A part of the head mark has been taken; a mark without parts leaves. -/
def State.setHead (s : State) (m : Mark) : State :=
  s.modSeq fun q => { q with marks := if m.sof || m.eol || m.eof then m :: q.marks.tail else q.marks.tail }

/-- The EOL of the head mark is taken: the FSO notes its TAG (R353). -/
def State.settleEol (s : State) : State :=
  match s.markAtFso with
  | some m => if m.eol && !m.sof then (s.modSeq fun q => { q with tag := m.tag }).setHead { m with eol := false } else s
  | none => s

/-! ### Pixels (R343 to R345, R347) -/

/-- The word for "no value" (R344). -/
def noValue : Word := 0xFFFFF

/-- Effective Dovetail widths (R237): no upstream zone on the head, no downstream zone on the last sibling. -/
def State.dlEff (s : State) : Nat := if s.isHead then 0 else s.rd F.CTL_DOVE_DL
def State.drEff (s : State) : Nat :=
  if s.lnk.down.params.any ChainParams.joined then s.rd F.CTL_DOVE_DR else 0

/-- A column lies in a Dovetail zone. -/
def State.inDove (s : State) (col : Nat) : Bool := Nat.blt col s.dlEff || Nat.ble (256 - s.drEff) col

/-- The echo that ESEL selects (R343). -/
def Point.sel (p : Point) (esel : Nat) : Option Echo :=
  if esel ≤ 3 then p.echoes[esel]?
  else if esel == 4 then p.echoes[p.strong]?
  else if esel == 5 then p.echoes.find? fun e => e.cls == .surface || e.cls == .nohist
  else p.echoes.getLast?

/-- The range of an echo in a scale; a saturated one is no value (R344). -/
def Echo.range (e : Echo) (scaleB : Bool) : Option Nat :=
  let r := if scaleB then e.rb else e.ra
  if (e.sata && !scaleB) || Nat.ble 0xFFFFF r then none else some r

/-- The FLAGS word of a record (R345). -/
def State.flagsWord (s : State) (p : Point) (esel : Nat) (off repl : Bool) : Word :=
  let e := p.sel esel
  mkWord [(18, b2n off), (17, b2n p.noemit), (16, b2n p.echoes.isEmpty), (15, b2n p.partialC), (14, b2n p.stretch),
          (13, b2n p.subst), (12, b2n p.holdover), (11, b2n p.memUe), (10, b2n p.nohist), (9, b2n p.synth),
          (8, b2n (s.inDove p.pix)), (7, b2n (e.any Echo.sata)), (6, b2n (e.any Echo.rneg)), (5, b2n (e.any Echo.edge)),
          (4, b2n p.moreecho), (3, b2n p.zcold), (2, b2n p.mixed), (1, b2n repl)]

/-- sat20s (R14). -/
def sat20s (z : Int) : Word := BitVec.ofInt 20 (clampZ (-(2 ^ 19)) (2 ^ 19 - 1) z)

/-- The pixel word of a record in a Veneer of a stream (R343, R344); none where the record does not write one. -/
def State.pixelOf (s : State) (n : Nat) (d : List Word) (v : Nat) (p : Point) (off repl : Bool) : Option Word :=
  let kind := venKind d v
  let b := defScale d
  let e := p.sel (venEsel d v)
  let val := fun (o : Option Nat) => (o.map fun x => BitVec.ofNat 20 x).getD noValue
  if kind == 7 then some (s.flagsWord p (venEsel d v) off repl)
  else if kind == 12 || kind == 15 then none
  else if off then some noValue
  else some (match kind with
    | 0 => val (e.bind fun x => x.range b)
    | 1 => match e.bind fun x => x.range b with
      | some r => sat20s ((assoc s.fso.datum (256 * n + p.pix)).getD 0 - r)
      | none => noValue
    | 2 => val (e.map Echo.tint)
    | 3 => val (e.map Echo.amp)
    | 4 => val (e.map Echo.width)
    | 5 => val (e.map Echo.conf)
    | 6 => mkWord ((8, p.echoes.length) :: (p.echoes.take 4).zipIdx.map fun x => (2 * x.2, x.1.cls.code))
    | 8 => BitVec.ofNat 20 p.bg
    | 9 => BitVec.ofNat 20 p.nshot
    | 10 => BitVec.ofNat 20 (s.lambda p.port)
    | 11 => BitVec.ofNat 20 p.tlast
    | 13 => val ((p.echoes.find? fun x => x.cls == .mist).bind fun x => x.range b)
    | _ => mkWord [(12, p.port), (11, b2n p.subst)])

/-- The word that a pixel without a stored one reads as (R343, R344). -/
def State.pixelDefault (s : State) (d : List Word) (v line col : Nat) : Word :=
  let kind := venKind d v
  if kind == 15 then BitVec.ofNat 20 (256 * line + col)
  else if kind == 7 then
    mkWord [(19, 1), (18, b2n (s.portOff ((assoc s.fso.colPort col).getD col))), (8, b2n (s.inDove col))]
  else noValue

/-- The key of a pixel word in a slot. -/
def pixKey (v line col : Nat) : Nat := 2 ^ 20 * v + 256 * line + col

/-- A pixel word of a slot. -/
def State.pixelAt (s : State) (f : FrmSlot) (d : List Word) (v line col : Nat) : Word :=
  (assoc f.pix (pixKey v line col)).getD (s.pixelDefault d v line col)

/-- The encoder count at a device instant (R353); 0 outside LINE mode. -/
def State.encAt (s : State) (time : Nat) : Nat :=
  if s.rd F.FSO_CFG_FSMODE != 1 then 0
  else ((s.fso.encLog.find? fun e => Nat.ble e.2 time).map Prod.fst).getD 0

/-- A record joins its line's header (R353). -/
def State.lineAdd (s : State) (h : Option LineHd) (p : Point) : LineHd :=
  let h := h.getD { (default : LineHd) with tag := s.seq.tag }
  let lt := if h.nrec == 0 then p.tlast else min h.ltime p.tlast
  { h with nrec := h.nrec + 1, ltime := lt, enc := s.encAt lt, holdover := h.holdover || p.holdover,
           subst := h.subst || p.subst, noemit := h.noemit || p.noemit }

/-- The window of a definition holds a pixel. -/
def inWindow (d : List Word) (line col : Nat) : Bool :=
  Nat.ble (defWl0 d) line && Nat.blt line (defWl0 d + defWnl d) && Nat.ble (defWc0 d) col && Nat.blt col (defWc0 d + defWnc d)

/-- Place a record in the open frame's slot of a stream (R346). -/
def State.placeIn (s : State) (n : Nat) (p : Point) : State :=
  let x := s.stream n
  match x.find .asm with
  | none => s
  | some k =>
    let f := x.slot k
    if !inWindow f.defn p.line p.pix then s
    else
      let key := 256 * p.line + p.pix
      let repl := f.recd.contains key
      let off := s.portOff p.port
      let s := s.writeLine n k f.defn (p.line - defWl0 f.defn)
      let pix := (vens f.defn).foldl (fun m v => match s.pixelOf n f.defn v p off repl with
        | some w => assocPut m (pixKey v p.line p.pix) w
        | none => m) f.pix
      s.setStream n (x.setSlot k { f with
        pix := pix, recd := if repl then f.recd else key :: f.recd,
        lines := assocPut f.lines p.line (s.lineAdd (assoc f.lines p.line) p) })

/-- Dovetail exchange runs with a neighbour (R430). -/
def State.doveWith (s : State) (side : ChainSide) : Bool :=
  let p := match side with | .up => s.lnk.up.params | .down => s.lnk.down.params
  let c := match side with | .up => s.lnk.dvUp | .down => s.lnk.dvDn
  s.flag F.CTL_DOVE_DVX && (p.any ChainParams.dvx) && !c && s.lnk.joined

/-- The record of a Dovetail column goes to the neighbour that shares it (R237, R435). -/
def State.sendDove (s : State) (p : Point) : State :=
  let msg := p.words.map BitVec.toNat
  let s := if Nat.blt p.pix s.dlEff && s.doveWith .up then s.sendChain .up 0x65 msg else s
  if Nat.ble (256 - s.drEff) p.pix && s.doveWith .down then s.sendChain .down 0x65 msg else s

/-- POINT_RECORD_PLACE (R346): the FSO takes the next point record. -/
def execPointRecordPlace (t : Nat) (s : State) : Host.Outcome State Fault Refusal :=
  let s := (s.begin t).settleEol
  match s.rpe.points with
  | [] => .next s
  | p :: ps =>
    let waits := match s.seq.marks with
      | m :: _ => m.ord.any fun n => Nat.ble n p.ord
      | [] => false
    if waits then .next s
    else
      let s := s.modRpe fun r => { r with points := ps }
      if !s.ready then .next s
      else
        let s := s.sendDove p
        if !s.fso.frameOpen then .next (s.inc F.FSO_ORPHAN_COUNT)
        else if Nat.ble s.nlines p.line then .next (s.inc F.FSO_OUTLINE_COUNT)
        else .next ((List.range 4).foldl (fun s n => s.placeIn n p) s)

/-- A neighbour's point record goes into the NEIGHBOUR Veneers of a stream (R347): `ra` and `rb` are its values in the two
scales. -/
def State.neighbourIn (s : State) (line col : Nat) (ra rb : Option Word) (n : Nat) : State :=
  let x := s.stream n
  match x.find .asm with
  | none => s
  | some k =>
    let f := x.slot k
    if !inWindow f.defn line col then s
    else
      let w := (if defScale f.defn then rb else ra).getD noValue
      let pix := ((vens f.defn).filter fun v => venKind f.defn v == 12).foldl
        (fun m v => assocPut m (pixKey v line col) w) f.pix
      s.setStream n (x.setSlot k { f with pix := pix })

/-- A neighbour's record is placed in the NEIGHBOUR Veneers (R347): at a local column, with the range of echo STRONG. -/
def State.placeNeighbour (s : State) (line col : Nat) (ra rb : Nat → Option Word) (strong : Nat) : State :=
  if !s.fso.frameOpen || Nat.ble s.nlines line then s.inc F.FSO_DVLATE_COUNT
  else (List.range 4).foldl (fun s n => s.neighbourIn line col (ra strong) (rb strong) n) s

/-! ### Flips (R349 to R351) -/

/-- The partners that gate a stream (R350): subscribed, ACTIVE, of DLP 2.0 or later. -/
def State.gating (s : State) (n : Nat) : List Nat :=
  (s.lnk.partners.filter fun e => e.2.atLeast 2 0 && bitOf e.2.subs n).map Prod.fst

/-- FACCEPTn gates the stream. -/
def State.pinGates (s : State) (n : Nat) : Bool := bitOf (s.rd F.FSO_ACCPIN_EN) n

/-- Gating partners without an acceptance, and whether the pin's is missing. -/
def State.missing (s : State) (n : Nat) : List Nat × Bool :=
  let x := s.stream n
  ((s.gating n).filter fun p => !x.accs.contains p, s.pinGates n && !x.pinAcc)

/-- The Veneers of a frame that a partner receives (R351). -/
def Partner.vens (p : Partner) (d : List Word) : List Nat := if p.maj == 1 then (Machine.vens d).take 2 else Machine.vens d

/-- A line of a frame is VOID as the header goes out (R352, R358): the slot has been taken again, or one of the frame's bursts is
poisoned. The header precedes the fetches, so a line that turns VOID later does not show (log entry 96). -/
def State.voidAny (s : State) (n : Nat) (x : Scan) (vs : List Nat) : Bool :=
  ((s.stream n).slot x.slot).gen != x.gen ||
    vs.any fun v => (List.range (defWnl x.defn)).any fun l => s.poisonIn 1 (s.lineBursts n x.slot x.defn v l)

/-- The frame header (R352). -/
def State.frameHeader (s : State) (n : Nat) (x : Scan) (vs : List Nat) (tflip drops : Nat) : List Word :=
  let kind := fun v => if vs.contains v then venKind x.defn v else 0
  [mkWord [(16, n), (13, vs.length - 1), (12, b2n (defScale x.defn)), (11, b2n x.timejump), (10, b2n (s.voidAny n x vs)),
           (9, b2n x.partner.isSome)]]
  ++ wordsOf x.fcnt 3 ++ wordsOf tflip 3
  ++ [mkWord [(8, defWl0 x.defn), (0, defWc0 x.defn)], mkWord [(8, defWnl x.defn - 1), (0, defWnc x.defn - 1)],
      mkWord [(16, kind 0), (12, kind 1), (8, kind 2), (4, kind 3)],
      mkWord [(16, kind 4), (12, kind 5), (8, kind 6), (4, kind 7)],
      mkWord [(13, s.dlEff), (6, s.drEff), (0, min 63 drops)]]

/-- One record of a stream goes to one destination: the compressed block, or the words that the partner's version has. -/
def State.sendTo (s : State) (n typ : Nat) (words : Partner → Option (List Word)) (blk : List Word) (d : Nat) : State :=
  let m := d % 64
  if !s.canSend m then s
  else if Nat.ble 64 d then s.sendDlp m 0x12 (mkWord [(16, n)] :: blk)
  else match words (s.ptn m) with
    | some ws => s.sendDlp m typ ws
    | none => s

/-- Send a record of a scan or resend to its partners (R351, R373): compressed partners of a scan share one block of the
stream's context, of a resend they get a RAW block. -/
def State.sendRecord (s : State) (n : Nat) (x : Scan) (typ : Nat) (cont : Bool) (words : Partner → Option (List Word)) : State :=
  let full := (words default).getD []
  let (blk, s) := if !x.compressed then ([], s)
    else if x.partner.isSome then (rawBlock (s.rd F.CMP_CFG_KINIT) full, s)
    else match s.streamCtx n with
      | some c => s.cmpBlock c cont full
      | none => (rawBlock (s.rd F.CMP_CFG_KINIT) full, s)
  x.dests.foldl (fun s d => s.sendTo n typ words blk d) s

/-- The frame header goes out (R352, R373). -/
def State.sendHeader (s : State) (n : Nat) (x : Scan) (tflip drops : Nat) : State :=
  s.sendRecord n x 0x10 false fun p => some (s.frameHeader n x (p.vens x.defn) tflip drops)

/-- The partners to which a stream's frame goes, compressed ones with 64 added. -/
def State.destsOf (s : State) (n : Nat) (skip : List Nat) : List Nat :=
  (s.lnk.partners.filter fun e => e.2.st == .active && bitOf e.2.subs n && !skip.contains e.1).map fun e =>
    e.1 + (if e.2.compOn n then 64 else 0)

/-- FLIP to a partner of DLP 1.x (R351). -/
def State.sendFlip (s : State) (n : Nat) (f : FrmSlot) (d : Nat) : State :=
  if (s.ptn d).maj == 1 && s.canSend d then
    s.sendDlp d 0x13 (mkWord [(16, n)] :: (wordsOf f.fcnt 3 ++ wordsOf f.tflip 3))
  else s

/-- FLIP (R350, R351): the READY frame becomes SCAN; `skip` are the partners without an acceptance. -/
def State.flip (s : State) (n : Nat) (skip : List Nat) : State :=
  let x := s.stream n
  match x.find .ready with
  | none => s
  | some k =>
    let f := { x.slot k with st := SlotSt.scan, tflip := s.now }
    let sc : Scan := { (default : Scan) with
      slot := k, gen := f.gen, fcnt := f.fcnt, defn := f.defn, timejump := f.timejump, dests := s.destsOf n skip }
    let x' := { x.setSlot k f with scan := some sc, flipAt := s.clk, accs := [], pinAcc := false, waitAt := none, drops := 0 }
    let s := s.setStream n x'
    let s := sc.dests.foldl (fun s d => s.sendFlip n f d) s
    s.sendHeader n sc f.tflip x.drops

/-- A frame start event at a stream (R350): `inst` is its device instant. -/
def State.eventAt (s : State) (inst n : Nat) : State :=
  let x := s.stream n
  if !(s.streamOn n || (List.range 3).any fun k => (x.slot k).st != .free) then s
  else
    let ready := (x.find .ready).isSome
    let busy := x.scan.isSome
    let s := if ready then s
      else (s.setStream n { x with evAt := some (s.clk, inst, s.rd F.FSO_NOFRAME_COUNT) }).inc F.FSO_NOFRAME_COUNT
    let s := if busy then s.inc F.FSO_BUSYEV_COUNT else s
    if !ready || busy then s
    else
      let (ps, pin) := s.missing n
      if ps.isEmpty && !pin then s.flip n []
      else s.setStream n { x with waitAt := some inst }

/-- A frame became READY at the instant of an event that had found none: the frame is eligible for its flip (R360), and the event
is not one without a frame. -/
def State.eventAgain (s : State) (n : Nat) : State :=
  match (s.stream n).evAt with
  | none => s
  | some (c, inst, cnt) =>
    if c != s.clk || ((s.stream n).find .ready).isNone then s
    else
      let s := s.setStream n { s.stream n with evAt := none }
      let s := if s.rd F.FSO_NOFRAME_COUNT == satN 20 (cnt + 1) then s.wr F.FSO_NOFRAME_COUNT cnt else s
      s.eventAt inst n

/-- The open frame closes: its latch point (R348, R354). -/
def State.closeFrame (s : State) : State :=
  let s := (List.range 4).foldl State.closeIn s
  let s := (s.modFso fun f => { f with frameOpen := false }).latchDefs
  (List.range 4).foldl State.eventAgain s

/-- An SOF at the FSO (R346); nothing is assembled before READY (R361). -/
def State.sofAtFso (s : State) : State :=
  if !s.ready then s
  else (if s.fso.frameOpen then s.closeFrame else s).openFrame

/-- A frame start event of every stream (R349, R361). -/
def State.frameEvent (s : State) (inst : Nat) : State :=
  if !s.ready then s else (List.range 4).foldl (State.eventAt · inst) s

/-- SOF (R64, R346): an SOF mark passes the ports, and opens a frame when it reaches the FSO. -/
def execSof (t : Nat) (s : State) : Host.Outcome State Fault Refusal :=
  let s := ((s.begin t).passFirst Mark.sof).settleEol
  match s.markAtFso with
  | some m =>
    if m.sof then .next ((s.modSeq fun q => { q with tag := m.tag }).setHead { m with sof := false }).sofAtFso
    else .next s
  | none => .next s

/-- EOL (R64, R168): an EOL mark passes the ports and closes the open histograms of the line. -/
def execEol (t : Nat) (s : State) : Host.Outcome State Fault Refusal :=
  .next (((s.begin t).passFirst Mark.eol).settleEol)

/-- EOF (R64, R346, R348): an EOF mark passes the ports, and closes the frame when it reaches the FSO. -/
def execEof (t : Nat) (s : State) : Host.Outcome State Fault Refusal :=
  let s := ((s.begin t).passFirst Mark.eof).settleEol
  match s.markAtFso with
  | some m =>
    if m.eof && !m.sof && !m.eol then
      let s := s.setHead { m with eof := false }
      .next (if s.fso.frameOpen then s.closeFrame else s)
    else .next s
  | none => .next s

/-- FRAME_START_EVENT (R349): in TIMER mode, device time reaches a multiple of FPER µs; the tick is SYNC source 6h (R66). -/
def execFrameStartEvent (t : Nat) (s : State) : Host.Outcome State Fault Refusal :=
  let s := s.begin t
  let per := 1000 * s.rd F.FSO_FPER_FPER
  if s.rd F.FSO_CFG_FSMODE != 2 || per == 0 || s.now % per != 0 || !s.alive then .next s
  else .next ((s.syncSource 6 0 s.now).frameEvent s.now)

/-- FSO_ENC after the next encoder tick (R349). -/
def State.encNext (s : State) : Nat := (s.rd F.FSO_ENC_ENC + 1) % 2 ^ 20

/-- An encoder tick at a stamp (R349). -/
def State.encTick (s : State) (inst : Nat) : State :=
  (s.modFso fun f => { f with encLog := (s.encNext, inst) :: f.encLog }).wr F.FSO_ENC_ENC s.encNext

/-- An edge of FSYNC_IN at a stamp (R349): a frame start event, or an encoder tick and at each FTICKS-th an event. -/
def State.fsyncFrame (s : State) (inst : Nat) : State :=
  if s.rd F.FSO_CFG_FSMODE == 0 then s.frameEvent inst
  else if s.rd F.FSO_CFG_FSMODE == 1 then
    if s.encNext % max 1 (s.rd F.FSO_FTICKS_FTICKS) == 0 then (s.encTick inst).frameEvent inst else s.encTick inst
  else s

/-- An acceptance may complete a waiting flip (R350). -/
def State.tryFlip (s : State) (n : Nat) : State :=
  let x := s.stream n
  let (ps, pin) := s.missing n
  if x.waitAt.isSome && ps.isEmpty && !pin && x.scan.isNone && (x.find .ready).isSome then s.flip n [] else s

/-- FACCEPT_EDGE (R350): a rising edge of FACCEPTn is an acceptance. -/
def execFacceptEdge (t n : Nat) (s : State) : Host.Outcome State Fault Refusal :=
  let s := s.begin t
  if !s.alive || Nat.ble 4 n then .next s
  else .next ((s.setStream n { s.stream n with pinAcc := true }).tryFlip n)

/-- ACCEPT (R350, R415): an acceptance of a partner. -/
def execAccept (t lane : Nat) (src : EthSrc) (msg : List Word) (s : State) : Host.Outcome State Fault Refusal :=
  let s := s.begin t
  match s.rxDlp lane src 0x14 msg with
  | (none, s) => .next s
  | (some (m, d), s) =>
    let n := bitsOf (d.payload.headD 0).toNat 19 16
    if Nat.ble 4 n then .next s
    else
      let x := s.stream n
      let x := if x.accs.contains m then x else { x with accs := m :: x.accs }
      .next ((s.setStream n x).tryFlip n)

/-- ACCWAIT_EXPIRY (R350): ACCWAIT µs after the event the stream flips without the missing partners, unless none of its
gating partners has accepted. -/
def execAccwaitExpiry (t n : Nat) (s : State) : Host.Outcome State Fault Refusal :=
  let s := s.begin t
  let x := s.stream n
  let w := 1000 * s.rd F.FSO_ACCWAIT_WAIT
  match x.waitAt with
  | none => .next s
  | some e =>
    if w == 0 || Nat.blt s.now (e + w) || Nat.ble 4 n then .next s
    else
      let (ps, pin) := s.missing n
      let total := (s.gating n).length + b2n (s.pinGates n)
      let s := s.setStream n { x with waitAt := none }
      if (total != 0 && ps.length + b2n pin == total) || x.scan.isSome || (x.find .ready).isNone then .next s
      else .next ((s.count F.FSO_ACCSKIP_COUNT (ps.length + b2n pin)).flip n ps)

/-- COMMIT (R354, R355, R415): a partner's commit message, answered with COMMITRSP. -/
def execCommit (t lane : Nat) (src : EthSrc) (msg : List Word) (s : State) : Host.Outcome State Fault Refusal :=
  let s := s.begin t
  match s.rxDlp lane src 0x15 msg with
  | (none, s) => .next s
  | (some (m, d), s) =>
    let n := bitsOf (d.payload.headD 0).toNat 19 16
    let w := (List.range 11).map fun i => defMask i (d.payload.getD (i + 1) 0)
    let st : Status := if Nat.ble 4 n then .refused else s.judgeDef n w
    let ok := st == .ok
    let fr := s.commitFrame
    let s' := if ok then s.commitDef n w true else s
    .next (s'.sendDlp m 0x16 (mkWord [(16, st.toNat), (15, b2n (ok && s.fso.latched))] :: wordsOf (if ok then fr else 0) 3))

/-! ### Line records (R352, R353, R358, R373) -/

/-- The words of a line record (R353), as the fetch reads its pixels (R393); NREC saturates at its field (log entry 193). -/
def State.lineWords (s : State) (n : Nat) (x : Scan) (f : FrmSlot) (same : Bool) (v line : Nat) (void : Bool) : List Word :=
  let h := if same then (assoc f.lines line).getD default else default
  let cols := (List.range (defWnc x.defn)).map (defWc0 x.defn + ·)
  [mkWord [(8, line), (7, b2n void), (6, b2n x.timejump), (5, b2n h.holdover), (4, b2n h.subst), (3, b2n h.noemit), (0, v)],
   mkWord [(12, h.tag), (0, satN 12 h.nrec)], BitVec.ofNat 20 h.enc]
  ++ wordsOf h.ltime 3 ++ cols.zipIdx.map fun c => if void then noValue
    else s.asRead 1 (s.lineWord n x.slot x.defn v (line - defWl0 x.defn) + 6 + c.2) (s.pixelAt f x.defn v line c.1)

/-- A scan has sent its last line (R348, R377, R419). -/
def State.endScan (s : State) (n : Nat) (x : Scan) : State :=
  let y := s.stream n
  let f := y.slot x.slot
  let s := s.setStream n { y.setSlot x.slot { f with st := .free } with scan := none, lastScan := some (x.slot, x.gen) }
  s.closeCtxs.settleClosing

/-- A resend has sent its last line. -/
def State.endResend (s : State) (n : Nat) : State :=
  let y := s.stream n
  (s.setStream n { y with resend := y.resend.tail }).settleClosing

/-- Fetch and send the next line record of a scan or resend (R352, R358). -/
def State.fetchLine (s : State) (n : Nat) (x : Scan) (hits : List MemHit) (late : Bool) : State :=
  let vs := vens x.defn
  let v := vs.getD x.ven 0
  let line := defWl0 x.defn + x.line
  let f := (s.stream n).slot x.slot
  let same := f.gen == x.gen
  let mine := s.lineBursts n x.slot x.defn v x.line
  let was := x.void.contains v
  let s := if was then s else s.memRead 1 1 true (hits.filter fun h => mine h.burst)
  let ue := !was && s.poisonIn 1 mine
  let s := if ue then s.inc F.FSO_POISON_COUNT else s
  let void := was || !same || ue || late
  let s := if void && !was then s.inc F.FSO_UNDERRUN_COUNT else s
  let x := if void && !was then { x with void := v :: x.void } else x
  let rec' := s.lineWords n x f same v line void
  let s := s.sendRecord n x 0x11 true fun p => if (p.vens x.defn).contains v then some rec' else none
  let x := if x.ven + 1 < vs.length then { x with ven := x.ven + 1 } else { x with ven := 0, line := x.line + 1 }
  let ends := Nat.ble (defWnl x.defn) x.line
  let y := s.stream n
  if x.partner.isSome then
    if ends then s.endResend n else s.setStream n { y with resend := x :: y.resend.tail }
  else if ends then s.endScan n x else s.setStream n { y with scan := some x }

/-- LINE_FETCH (R352, R353, R358): the next line record of a scan or of the first resend of a stream. -/
def execLineFetch (t n : Nat) (resend : Bool) (hits : List MemHit) (late : Bool) (s : State) :
    Host.Outcome State Fault Refusal :=
  let s := s.begin t
  let x := if resend then (s.stream n).resend.head? else (s.stream n).scan
  if Nat.ble 4 n || (!s.memAvail 1 && !late) then .next s
  else match x with
    | none => .next s
    | some x => .next (s.fetchLine n x hits late)

/-! ### Pinned frames (R357) -/

/-- A write of FSO_PIN. WHICH = 0 at the instant of the READY frame's flip pins that frame (R360). -/
def State.writePin (s : State) (w : Word) : Status × State :=
  let n := bitsOf w.toNat 19 18
  let x := s.stream n
  let k : Option Nat := if bitOf w.toNat 17 then
      match x.lastScan with
      | some (k, g) => if (x.slot k).st == .free && (x.slot k).gen == g then some k else none
      | none => none
    else (x.find .ready).orElse fun _ => if x.flipAt == s.clk then x.scan.map (·.slot) else none
  match k with
  | none => (.refused, s)
  | some k =>
    if x.pin.isSome then (.refused, s)
    else
      let f := x.slot k
      let s := s.setStream n { x with pin := some k }
      (.ok, (s.setWord 0x8101 (mkWord [(19, 1), (17, k), (0, f.gen)])).wrWide 0x8102 3 f.fcnt)

/-- A write of FSO_REL. -/
def State.writeRel (s : State) (w : Word) : Status × State :=
  let n := bitsOf w.toNat 19 18
  let x := s.stream n
  match x.pin with
  | none => (.refused, s)
  | some k =>
    if (x.slot k).gen == bitsOf w.toNat 7 0 then (.ok, s.setStream n { x with pin := none }) else (.refused, s)

/-- A write of FSO_RESEND. -/
def State.writeResend (s : State) (w : Word) : Status × State :=
  let n := bitsOf w.toNat 19 18
  let m := bitsOf w.toNat 5 0
  let x := s.stream n
  match x.pin with
  | none => (.refused, s)
  | some k =>
    if !(s.ptn m).atLeast 2 0 then (.refused, s)
    else
      let f := x.slot k
      let sc : Scan := { (default : Scan) with
        slot := k, gen := f.gen, fcnt := f.fcnt, defn := f.defn, timejump := f.timejump, partner := some m,
        dests := [m + (if (s.ptn m).compOn n then 64 else 0)] }
      (.ok, (s.setStream n { x with resend := x.resend ++ [sc] }).sendHeader n sc f.tflip 0)

/-- A READ of FSO_RDATA (R357, R364, R395): the pixel word of the pinned slot; COL, then LINE, advances inside the window. A
poisoned word has no stated value. The access waits in MEM while the subchannel is unavailable (R399). -/
def State.readRdata (s : State) (hits : List MemHit) : Word × State :=
  let n := s.rd F.FSO_RADDR1_STREAM
  let v := s.rd F.FSO_RADDR1_VEN
  let line := s.rd F.FSO_RADDR_LINE
  let col := s.rd F.FSO_RADDR_COL
  let x := s.stream n
  match x.pin with
  | none => (noValue, s.put F.FSO_RSTAT_NOPIN true)
  | some k =>
    let f := x.slot k
    let d := f.defn
    let held := inWindow d line col && (vens d).contains v
    let i := s.lineWord n k d v (line - defWl0 d) + 6 + (col - defWc0 d)
    let s := if held then s.memRead 1 5 true (hits.filter fun h => h.burst == i / 25) else s
    let (w, s) := if !held then (noValue, s)
      else if s.poisoned 1 (i / 25) then
        let (x, s) := s.draw
        (BitVec.ofNat 20 x, s)
      else (s.asRead 1 i (s.pixelAt f d v line col), s)
    let last := defWc0 d + defWnc d - 1
    let s := if Nat.ble last col then (s.wr F.FSO_RADDR_COL (defWc0 d)).wr F.FSO_RADDR_LINE (line + 1)
      else s.wr F.FSO_RADDR_COL (col + 1)
    (w, s)

/-! ### Registers (R362, R363) -/

/-- A write of FSO_Sn_CMT. -/
def State.writeCommit (s : State) (n : Nat) (w : Word) : Status × State :=
  if !bitOf w.toNat 19 then (.ok, s)
  else match s.judgeDef n (s.staged n) with
    | .ok => (.ok, s.commitDef n (s.staged n) false)
    | st => (st, s)

/-- The FSO's registers with effects; `s'` is the state with the word written. -/
def State.writeFso (s s' : State) (a : Nat) (w : Word) : Status × State :=
  if a == 0x8100 then s.writePin w
  else if a == 0x8105 then s.writeRel w
  else if a == 0x8106 then s.writeResend w
  else if Nat.ble 0x8040 a && Nat.blt a 0x80C0 then
    let n := (a - 0x8040) / 32
    let o := (a - 0x8040) % 32
    if o == 11 then s.writeCommit n w
    else if 3 ≤ o && bitsOf w.toNat 15 13 == 7 then (.refused, s)
    else (.ok, s')
  else (.ok, s')

/-- DRAINED of a stream (R356). -/
def State.drainedStr (s : State) (n : Nat) : Bool :=
  let x := s.stream n
  x.pend.isNone && (List.range 3).all fun k => !x.holds k || (x.slot k).defn == s.actDef n

/-- The code of a slot state (R363). -/
def SlotSt.code : SlotSt → Nat
  | .free => 0 | .asm => 1 | .ready => 2 | .scan => 3

/-- The words of the FSO that follow its state (R362, R363). -/
def State.viewFso (s : State) (a : Nat) : Option Word :=
  if a == 0x8000 then
    some (mkWord [(19, b2n s.fso.frameOpen),
      (15, ((List.range 4).map fun n => b2n (s.stream n).scan.isSome * 2 ^ n).sum),
      (11, ((List.range 4).map fun n => b2n (s.drainedStr n) * 2 ^ n).sum)])
  else if Nat.ble 0x8008 a && Nat.blt a 0x800B then some (BitVec.ofNat 20 (s.fso.fcnt / 2 ^ (20 * (a - 0x8008))))
  else if Nat.ble 0x8040 a && Nat.blt a 0x80C0 then
    let x := s.stream ((a - 0x8040) / 32)
    match (a - 0x8040) % 32 with
    | 0x1B => some (match x.pend with
        | some p => mkWord [(19, 1), (18, b2n p.partner), (17, b2n (Nat.ble (s.fso.fcnt + 2) p.frame))]
        | none => 0)
    | 0x1C => some (BitVec.ofNat 20 ((x.pend.map Pend.frame).getD 0))
    | 0x1D => some (BitVec.ofNat 20 ((x.pend.map Pend.frame).getD 0 / 2 ^ 20))
    | 0x1E => some (BitVec.ofNat 20 ((x.pend.map Pend.frame).getD 0 / 2 ^ 40))
    | 0x1F => some (mkWord [(17, x.s0.st.code), (14, x.s1.st.code), (11, x.s2.st.code), (9, x.pin.getD 3)])
    | _ => none
  else none

end Sys2Proof.Machine
end

