-- ==== Sys2Proof/Machine/Lanes.lean ====
section
/-! DEFINITION. Lanes (R404 to R411, R422 to R424, R428, R429, R438): bring-up, training, lane loss and Jig mode. Data lanes are
0 to 7, chain lanes 8 to 11 (SCU0, SCU1, SCD0, SCD1). -/

namespace Sys2Proof.Machine

/-- A chain lane. -/
def isChainLane (l : Nat) : Bool := Nat.ble 8 l

/-- The port of a chain lane. -/
def sideOf (l : Nat) : ChainSide := if l < 10 then .up else .down

/-- The other lane of a chain port. -/
def twinLane (l : Nat) : Nat := if l % 2 == 0 then l + 1 else l - 1

/-- MODE is not OFF (R404); a chain lane runs DLP framing. -/
def State.laneOn (s : State) (l : Nat) : Bool := isChainLane l || s.rd (F.LNK_LCFG_MODE l) != 0

/-- The lane runs in DLP mode. -/
def State.laneDlp (s : State) (l : Nat) : Bool := isChainLane l || s.rd (F.LNK_LCFG_MODE l) == 1

/-- The line rate of a lane in kbit/s (R404): RATE for a data lane, 10.3125 Gbit/s for a chain lane. -/
def State.lineRate (s : State) (l : Nat) : Nat :=
  if !isChainLane l && s.flag (F.LNK_LCFG_RATE l) then 25781250 else 10312500

/-- The words that a lane can carry in a second (R404): 64 payload bits in each block of 66, 20 bits a word. -/
def State.wordRate (s : State) (l : Nat) : Nat := s.lineRate l * 1000 * 64 / (66 * 20)

/-! ### Block coding (R404, R412) -/

/-- A block of 64b/66b coding: control or data by its sync header, and its 64 bits, the first sent first. -/
structure Block where
  ctl : Bool
  bits : List Bool
  deriving DecidableEq, Repr

/-- A control block of a block type, whose other 56 bits are 0: 1Eh idle, 2Dh the start of a message (R412). -/
def ctlBlock (typ : Nat) : Block := ⟨true, bitsLE typ 64⟩

/-- Data blocks of a bit stream, the last padded with 0; `n` blocks at most. -/
def dataBlocks : Nat → List Bool → List Block
  | 0, _ => []
  | _, [] => []
  | n + 1, b => ⟨false, b.take 64 ++ List.replicate (64 - b.length) false⟩ :: dataBlocks n (b.drop 64)

/-- The blocks of a message on a DLP lane (R412). -/
def dlpBlocks (ws : List Word) : List Block := ctlBlock 0x2D :: dataBlocks (ws.length + 1) (streamBits ws)

/-- One bit through the self-synchronising scrambler x^58 + x^39 + 1: its state holds the last 58 bits sent, the latest first. -/
def scramble : List Bool → List Bool → List Bool
  | _, [] => []
  | st, b :: r =>
    let o := b != (st.getD 38 false != st.getD 57 false)
    o :: scramble (o :: st.take 57) r

/-- The descrambler: its state holds the last 58 bits received. -/
def descramble : List Bool → List Bool → List Bool
  | _, [] => []
  | st, o :: r => (o != (st.getD 38 false != st.getD 57 false)) :: descramble (o :: st.take 57) r

/-- The 66 bits of a block on the lane, from a scrambler state: the sync header, 01 for data and 10 for control, unscrambled, then
the scrambled bits. -/
def Block.line (st : List Bool) (b : Block) : List Bool := b.ctl :: (!b.ctl) :: scramble st b.bits

/-- Both PLLs are locked (R438). -/
def State.tbuLocked (s : State) : Bool := s.tbu.timing.lock && s.tbu.system.lock

/-! ### The receiver (R405, R441) -/

/-- JIG of a lane is not 000b (R409). -/
def State.inJig (s : State) (l : Nat) : Bool := s.rd (F.LNK_LCFG_JIG l) != 0

/-- The stages in which the receiver adapts: PRBS, TRAIN and those after them (R405). -/
def Stage.adapts : Stage → Bool
  | .prbs | .train | .lock | .caps | .active => true
  | _ => false

/-- The receiver adapts up to now, unless ADAPTFRZ holds it (R405): the peaking code and the taps that it finds depend on the
line, which the manual leaves open: free values (log entry 3). -/
def State.adapt (s : State) (l : Nat) : State :=
  if !(s.lane l).stage.adapts || s.flag (F.LNK_LCFG_ADAPTFRZ l) then s
  else
    let (v, s) := s.draw
    ((s.setWord (0xB103 + 32 * l) (BitVec.ofNat 20 (v % 16))).setWord (0xB104 + 32 * l)
      (BitVec.ofNat 20 (v / 2 ^ 4 % 2 ^ 18))).setWord (0xB105 + 32 * l) (BitVec.ofNat 20 (v / 2 ^ 22 % 2 ^ 12))

/-- The PRBS checker runs: in stage PRBS (R406) and in Jig mode pattern (R409). -/
def State.checks (s : State) (l : Nat) : Bool := (s.lane l).stage == .prbs || s.rd (F.LNK_LCFG_JIG l) == 4

/-- The receiver searches sync headers: it has or seeks block lock (R406). -/
def Stage.heads : Stage → Bool
  | .lock | .caps | .active => true
  | _ => false

/-- A counter of line errors goes up by what the line brought since it was last looked at: a free value (log entry 3). -/
def State.lineErrors (s : State) (on : Bool) (f : Fld) : State :=
  if on then
    let (v, s) := s.draw
    s.count f v
  else s

/-- What the receiver of a lane does unasked up to now: it adapts, and counts errors of the PRBS checker and invalid sync headers
(R405, R441). It is brought up to date before whatever shows it or ends it. -/
def State.runLane (s : State) (l : Nat) : State :=
  ((s.adapt l).lineErrors (s.checks l) (F.LNK_PRBSERR_COUNT l)).lineErrors (s.lane l).stage.heads (F.LNK_LERR_COUNT l)

/-- What the receiver sees on the line now, where the stage does not settle it: a free value (log entry 3). -/
def State.senseLane (s : State) (l : Nat) : State :=
  let (v, s) := s.draw
  s.setLane l { s.lane l with sense := v % 8 }

/-- A READ in a lane's block finds its receiver up to date. -/
def State.lookAt (s : State) (a : Nat) : State :=
  let l := (a - 0xB100) / 32
  let k := (a - 0xB100) % 32
  if k == 1 then s.senseLane l
  else if Nat.ble 3 k && Nat.ble k 7 then s.runLane l
  else s

/-! ### Stages (R406) -/

/-- A lane enters a stage (R406). -/
def State.setStage (s : State) (l : Nat) (st : Stage) : State :=
  let s := s.runLane l
  s.setLane l { s.lane l with stage := st, since := s.clk, ready := 0 }

/-- A lane whose MODE is not OFF leaves OFF for DETECT (R438); one in Jig mode is in JIG (R409). -/
def State.startLane (s : State) (l : Nat) : State :=
  if (s.lane l).stage != .off then s
  else if s.inJig l then s.setStage l .jig
  else if s.laneOn l then s.setStage l .detect
  else s

/-- What a lane transmits (R406, R409). -/
inductive LaneTx where
  | electricalIdle | prbs31 | prbs7 | trainingFrames | idleBlocks | idleAndMessages | messages
  /-- Near-end loopbacks, serial inside the PHY and parallel ahead of the serializer: the receiver hears the lane's own
  transmitter; far-end: the recovered data go out again. -/
  | loopSerial | loopParallel | loopFar
  deriving DecidableEq, Repr

/-- The table of R406, and in Jig mode that of R409. -/
def State.laneTx (s : State) (l : Nat) : LaneTx :=
  match (s.lane l).stage with
  | .detect | .off => .electricalIdle
  | .prbs => .prbs31
  | .train => .trainingFrames
  | .lock => .idleBlocks
  | .caps => .idleAndMessages
  | .active => .messages
  | .jig => match s.rd (F.LNK_LCFG_JIG l) with
    | 1 => .loopSerial
    | 2 => .loopParallel
    | 3 => .loopFar
    | _ => if s.flag (F.LNK_LCFG_PRBSSEL l) then .prbs7 else .prbs31

/-- Lanes leave electrical idle: after TBU lock (R438), and not in THERMAL or after a boot failure (R466, R504). -/
def State.lanesRun (s : State) : Bool := s.tbuLocked && !s.boot.failed && s.dev != .thermal

/-- After TBU lock each lane whose MODE is not OFF starts at DETECT (R438); in THERMAL and after a boot failure every lane
stays in electrical idle (R466, R504). -/
def State.startLanes (s : State) : State :=
  if !s.lanesRun then s
  else (List.range 12).foldl State.startLane s

/-! ### The chain (R428 to R430) -/

/-- The device's PARAMS (R430). -/
def State.myParams (s : State) : List Nat :=
  [8 * 2 ^ 12 + s.lnk.pos * 2 ^ 7, s.rd F.CTL_SLOT_CFG_SLOTN * 2 ^ 14, s.rd F.CTL_SLOT_LEN_LEN,
   s.rd (F.CTL_SLOT_MASK_MASK 0), s.rd (F.CTL_SLOT_MASK_MASK 1),
   s.rd F.CTL_DOVE_DVX * 2 ^ 19 + s.rd F.CTL_DOVE_DL * 2 ^ 12 + s.rd F.CTL_DOVE_DR * 2 ^ 5, 256]

/-- PARAMS to both neighbours. -/
def State.sendParams (s : State) : State := (s.sendChain .up 0x62 s.myParams).sendChain .down 0x62 s.myParams

/-- A member leaves the chain (R428, R450): CHAIN_LOST, and its time source is lost. -/
def State.leaveChain (s : State) : State :=
  if !s.lnk.joined || s.isHead then s
  else
    let s := s.modLnk fun l => { l with joined := false, pos := 0 }
    let s := (s.modTbu fun b => { b with tsLost := true, rejoin := false }).raise 0x44 .fault 0
    s.sendParams

/-- A chain port leaves ACTIVE (R414): what is known of the neighbour goes, and a member loses the chain with its upstream
port. -/
def State.portDown (s : State) (side : ChainSide) : State :=
  let s := s.setNeigh side default
  if side == .up then
    ((s.modTbu fun b => { b with chainE := none }).modLnk fun x => { x with dvUp := false }).leaveChain
  else s.modLnk fun l => { l with dvDn := false }

/-! ### Lane loss (R406, R423, R429) -/

/-- A lane suffers a loss. -/
def State.loseLane (s : State) (l : Nat) : State :=
  let x := s.lane l
  let held := x.stage != .active
  let s := ((s.runLane l).inc (F.LNK_LLOSS_COUNT l)).raise 0x42 .fault l
  let who := s.homed l
  let s := s.setLane l { x with stage := .detect, since := s.clk, ready := 0,
                                polinv := x.polinv && held, lswap := x.lswap && held }
  if isChainLane l then
    if x.stage != .active then s
    else if (s.lane (twinLane l)).stage == .active then s.setNeigh (sideOf l) { s.neigh (sideOf l) with deg := true }
    else s.portDown (sideOf l)
  else who.foldl (State.rehome · true) s

/-- LANE_LOSS (R406, R423, R429): in LOCK, CAPS or ACTIVE. -/
def execLaneLoss (t lane : Nat) (s : State) : Host.Outcome State Fault Refusal :=
  let s := s.begin t
  let st := (s.lane lane).stage
  if Nat.blt lane 12 && (st == .lock || st == .caps || st == .active) then .next (s.loseLane lane) else .next s

/-- A lane goes into electrical idle. -/
def State.idleLane (s : State) (l : Nat) : State := (s.runLane l).setLane l Lane.reset

/-- Every lane goes into electrical idle (R438): partners are SUSPENDED and the chain is left. -/
def State.idleLanes (s : State) : State :=
  let ups := [ChainSide.up, ChainSide.down].filter s.portUp
  let s := (List.range 12).foldl State.idleLane s
  let s := ups.foldl State.portDown s
  ((s.lnk.partners.filter fun e => e.2.st == .caps || e.2.st == .active).map Prod.fst).foldl (State.rehome · false) s

/-! ### Bring-up (R406 to R408) -/

/-- A lane reaches CAPS: suspended partners return (R424); an ETH lane announces its address (R425). -/
def State.reachCaps (s : State) (l : Nat) : State :=
  let s := s.setStage l .caps
  if isChainLane l then s
  else
    let s := if s.laneEth l then
        s.send (.arpRequest l (s.laneIp l))
      else s
    s.resume l

/-- A chain lane reaches ACTIVE: the port is degraded no longer once both lanes are (R429). -/
def State.reachActive (s : State) (l : Nat) : State :=
  let s := s.setStage l .active
  if (s.lane (twinLane l)).stage == .active then s.setNeigh (sideOf l) { s.neigh (sideOf l) with deg := false } else s

/-- LANE_STAGE_ADVANCE (R406): the condition of the lane's stage is met. An ETH lane has no PRBS or TRAIN (R408); a data lane
leaves CAPS by its first capability exchange (SELECT), a chain lane when the chain exchange completes. -/
def execLaneStageAdvance (t lane : Nat) (s : State) : Host.Outcome State Fault Refusal :=
  let s := s.begin t
  let x := s.lane lane
  if Nat.ble 12 lane || !s.tbuLocked then .next s
  else match x.stage with
    | .detect =>
      if Nat.blt s.clk (x.since + 100000) then .next s
      else .next (s.setStage lane (if s.laneDlp lane then .prbs else .lock))
    | .prbs => .next (s.setStage lane .train)
    | .train => if Nat.ble 8 x.ready then .next (s.setStage lane .lock) else .next s
    | .lock => .next (s.reachCaps lane)
    | .caps => if isChainLane lane then .next (s.reachActive lane) else .next s
    | _ => .next s

/-- The timeout of a stage in ns (R406). -/
def Stage.timeout : Stage → Option Nat
  | .prbs => some 50000000
  | .train => some 100000000
  | .lock => some 10000000
  | _ => none

/-- LANE_STAGE_TIMEOUT (R406). -/
def execLaneStageTimeout (t lane : Nat) (s : State) : Host.Outcome State Fault Refusal :=
  let s := s.begin t
  let x := s.lane lane
  match x.stage.timeout with
  | none => .next s
  | some n =>
    if Nat.ble 12 lane || Nat.blt s.clk (x.since + n) then .next s
    else .next ((s.setStage lane .detect).inc (F.LNK_RETRAIN_COUNT lane))

/-- A cursor's answer to a request (R407): the new value and the acknowledge code 00b no change, 01b stepped, 10b at
limit; `up` and `down` tell whether a step stays in the limits of R405. -/
def stepCursor (req v : Nat) (up down : Bool) : Nat × Nat :=
  if req == 1 then (if up then (v + 1, 1) else (v, 2))
  else if req == 2 then (if down then (v - 1, 1) else (v, 2))
  else (v, 0)

/-- The cursors honour at most one step each (R405, R407); the acknowledge bits of the answer. -/
def State.stepFir (s : State) (l w : Nat) : Nat × State :=
  let pre := s.rd (F.LNK_TXFIR_PRE l)
  let main := s.rd (F.LNK_TXFIR_MAIN l)
  let post := s.rd (F.LNK_TXFIR_POST l)
  let (p, pa) := stepCursor (bitsOf w 14 13) pre (Nat.blt pre 15 && Nat.blt (pre + main + post) 63) (Nat.blt 0 pre)
  let (m, ma) := stepCursor (bitsOf w 12 11) main (Nat.blt (p + main + post) 63) (Nat.blt 24 main)
  let (o, oa) := stepCursor (bitsOf w 10 9) post (Nat.blt post 31 && Nat.blt (p + m + post) 63) (Nat.blt 0 post)
  (pa * 2 ^ 7 + ma * 2 ^ 5 + oa * 2 ^ 3,
   ((s.wr (F.LNK_TXFIR_PRE l) p).wr (F.LNK_TXFIR_MAIN l) m).wr (F.LNK_TXFIR_POST l) o)

/-- The received control word, as the corrected polarity gives it (R408); none where the second copy does not invert the
first (R407). -/
def trainControl (f : TrainFrame) : Option Nat :=
  if f.copy != ~~~f.word then none else some (if f.markerInv then f.copy else f.word).toNat

/-- `n` bits of PRBS11, x^11 + x^9 + 1 (log entry 195), from a state of eleven bits. -/
def prbs11 : Nat → Nat → List Bool
  | 0, _ => []
  | n + 1, x =>
    let b := bitOf x 10 != bitOf x 8
    b :: prbs11 n (x * 2 % 2048 + b2n b)

/-- The 1,024 bits of a training frame (R407): marker, control word, the control word inverted, PRBS11. -/
def trainBits (w : Word) (seed : Nat) : List Bool :=
  List.replicate 24 true ++ List.replicate 24 false ++ streamBits [w, ~~~w] ++ prbs11 936 seed

/-- The control word that a lane sends (R407): its number, its kind, READY and three requests from its receiver, which are none
of the code 11b, and the acknowledges. -/
def ownControl (l : Nat) (v acks : Nat) : Word :=
  mkWord [(17, if isChainLane l then l % 2 else l), (16, b2n (isChainLane l)), (15, v % 2), (13, v / 2 % 3), (11, v / 6 % 3),
          (9, v / 18 % 3), (0, acks)]

/-- TRAINING_FRAME (R406 to R408): honour the requests, count the frames in which both ends report READY, correct polarity and
lane order, answer. The device's own READY and requests come from its receiver's adaptation, which the manual leaves open: free
values (log entry 3). -/
def execTrainingFrame (t lane : Nat) (frame : TrainFrame) (s : State) : Host.Outcome State Fault Refusal :=
  let s := s.begin t
  let x := s.lane lane
  if Nat.ble 12 lane || x.stage != .train || !s.laneDlp lane then .next s
  else match trainControl frame with
  | none => .next s
  | some w =>
    let (v, s) := s.draw
    let s := s.setLane lane { x with polinv := x.polinv != frame.markerInv,
                                     ready := if bitOf w 15 && v % 2 == 1 then x.ready + 1 else 0 }
    let swap := isChainLane lane && lane % 2 == 0 && bitsOf w 19 17 == 1
    let s := if swap then
        (s.setLane lane { s.lane lane with lswap := true }).setLane (twinLane lane) { s.lane (twinLane lane) with lswap := true }
      else s
    let (acks, s) := s.stepFir lane w
    .next (s.send (.train lane (trainBits (ownControl lane v acks) (v / 54 % 2047 + 1))))

/-! ### Jig mode (R409 to R411) -/

/-- The lane is the only one of an aggregate that serves the safety partner (R411). -/
def State.onlySafeLane (s : State) (l : Nat) : Bool :=
  let agg := s.aggOf l
  (((List.range 8).filter fun k => s.laneOn k && s.aggOf k == agg) == [l]) &&
    s.lnk.partners.any fun e => e.2.safe && e.2.agg == agg

/-- A write of LNK_LCFG (R405, R409 to R411); `s'` is the state with the word written. -/
def State.writeLcfg (s s' : State) (l : Nat) (w : Word) : Status × State :=
  let jig := bitsOf w.toNat 10 8
  let inJig := (s.lane l).stage == .jig
  let slip := bitOf w.toNat 6
  if Nat.blt 4 jig then (.refused, s)
  else if slip && !(inJig && jig != 0 && bitOf w.toNat 7) then (.refused, s)
  else if jig != 0 && ((isChainLane l && s.lnk.joined) || (!isChainLane l && s.onlySafeLane l)) then (.refused, s)
  else
    let s' := ((s.runLane l).setWord (0xB100 + 32 * l) (s'.word (0xB100 + 32 * l)))
    if jig != 0 then
      let s' := if inJig then s' else (s'.loseLane l).setStage l .jig
      let x := s'.lane l
      (.ok, s'.setLane l { x with slip := if !inJig then 0 else if slip then (x.slip + 1) % 66 else x.slip })
    else if inJig then (.ok, if s'.laneOn l && s.lanesRun then s'.setStage l .detect else s'.setStage l .off)
    else (.ok, s')

/-- A write of LNK_TXFIR (R405). -/
def State.writeTxfir (s s' : State) (w : Word) : Status × State :=
  let main := bitsOf w.toNat 13 8
  if Nat.blt main 24 || Nat.blt 63 (bitsOf w.toNat 19 16 + main + bitsOf w.toNat 4 0) then (.refused, s) else (.ok, s')

/-! ### Registers (R439, R441) -/

/-- The code of a stage (R406). -/
def Stage.code : Stage → Nat
  | .detect => 0 | .prbs => 1 | .train => 2 | .lock => 3 | .caps => 4 | .active => 5 | .jig => 6 | .off => 7

/-- The lane is in LOCK, CAPS or ACTIVE. -/
def Stage.isUp : Stage → Bool
  | .lock | .caps | .active => true
  | _ => false

/-- LNK_LSTAT of a lane: SIG, BITLOCK and BLOCK as its stage settles them, else as its receiver last saw the line. In Jig mode
STAGE reads JIG (R409). -/
def State.lstat (s : State) (l : Nat) : Word :=
  let x := s.lane l
  let st := x.stage
  let eth := !isChainLane l && s.laneEth l
  let open3 := st == .detect || st == .jig
  mkWord [(17, if s.inJig l then 6 else st.code),
          (16, b2n (st == .prbs || st == .train || st.isUp || (open3 && bitOf x.sense 2))),
          (15, b2n (st == .train || st.isUp || ((st == .prbs || st == .jig) && bitOf x.sense 1))),
          (14, b2n (st == .caps || st == .active || ((st == .lock || st == .jig) && bitOf x.sense 0))), (13, if eth then s.rd (F.LNK_LCFG_POLSET l) else b2n x.polinv),
          (12, b2n x.lswap), (0, (s.homed l).length)]

/-- The words of the LNK that follow its state. -/
def State.viewLnk (s : State) (a : Nat) : Option Word :=
  if a == 0xB000 then
    let ups := ((List.range 12).map fun l => b2n (s.lane l).stage.isUp * 2 ^ l).sum
    some (mkWord [(12, ups % 256), (8, ups / 256), (0, s.lnk.partners.length)])
  else if a == 0xB001 then
    some (mkWord [(19, b2n s.lnk.joined), (18, b2n s.isHead), (17, b2n s.lnk.full), (16, b2n s.lnk.dvUp),
                  (15, b2n s.lnk.dvDn), (14, b2n s.lnk.up.deg), (13, b2n s.lnk.down.deg), (8, s.lnk.pos)])
  else if Nat.ble 0xB100 a && Nat.blt a 0xB280 then
    let l := (a - 0xB100) / 32
    match (a - 0xB100) % 32 with
    | 0 => if isChainLane l then some (BitVec.ofNat 20 ((s.word a).toNat % 2 ^ 12 + 2 ^ 18)) else none
    | 1 => some (s.lstat l)
    | _ => none
  else s.viewPtn a

end Sys2Proof.Machine
end

