-- ==== Sys2Proof/Machine/Timebase.lean ====
section
/-! DEFINITION. The timebase (chapter 15): lock, qualification and loss of the reference, holdover, the time loop, slews and
snaps, the retune and the clock outputs. The model's time line counts TCLK cycles, so a frequency correction shows in TBU_FOFS
alone and device time moves against it only by a setting or a snap (log entry 1). -/

namespace Sys2Proof.Machine


/-- F_REF in Hz (R444). -/
def State.fref (s : State) : Nat := s.rdWide 0x1001 2

/-- The staged F_REF (R461). -/
def State.fstaged (s : State) : Nat := s.rdWide 0x1003 2

/-- NWIN (R447). -/
def State.nwin (s : State) : Nat := s.rd F.TBU_LOCK_NWINM1 + 1

/-- SNAPPEND: a snap is decided and its Tsnap has not come (R453). -/
def State.snapPend (s : State) : Bool := s.tbu.snapWait.isSome || !s.tbu.snaps.isEmpty

/-- The time source TSRC (R450): 0 REF, 1 CHAIN, 2 PTP. A MEMBER that is not joined has no source. -/
def State.tsrc (s : State) : Nat := if s.isHead then 2 * s.rd F.LNK_CFG_PTPEN else b2n s.lnk.joined

/-! ### Time errors (R451, R452) -/

/-- The limit of the correction in ppb. -/
def State.slewPpb (s : State) : Nat := 1000 * s.rd F.TBU_SLEW_SLEW

/-- The correction at the full rate that removes a time error. -/
def State.fullRate (s : State) (e : Int) : Int := if e < 0 then -(s.slewPpb : Int) else s.slewPpb

/-- Nanoseconds in which the full rate of SLEW ppm removes `n` ticks (R452). -/
def State.slewNs (s : State) (n : Nat) : Nat := cdiv (1000000 * n) (256 * s.rd F.TBU_SLEW_SLEW)

/-- Slew a time error away at the full rate. -/
def State.slewOff (s : State) (e : Int) : State :=
  if e == 0 then s
  else (s.modTbu fun b => { b with slewing := true, err := e, slewTo := s.clk + s.slewNs e.natAbs }).wrZ F.TBU_FOFS_FOFS (s.fullRate e)

/-- A running slew goes on at a SLEW that has been written (R452, R461): what is left of it, at the old rate `ppm`, takes longer or
shorter. -/
def State.slewOn (s : State) (ppm : Nat) : State :=
  if !s.tbu.slewing then s
  else (s.modTbu fun b => { b with slewTo := s.clk + cdiv ((b.slewTo - s.clk) * ppm) (s.rd F.TBU_SLEW_SLEW) }).wrZ F.TBU_FOFS_FOFS
    (s.fullRate s.tbu.err)

/-- TBU_TERR (R451). -/
def State.noteErr (s : State) (e : Int) : State := s.wrZ F.TBU_TERR_E (clampZ (-(2 ^ 19)) (2 ^ 19 - 1) e)

/-- The decision of R452 on a returning reference, e in ticks: slew, or snap at the next latch point. A pending snap stands
and a running slew ends first; the new e is judged after it (R459). -/
def State.judgeErr (s : State) (e : Int) : State :=
  let s := s.noteErr e
  if s.snapPend || s.tbu.slewing then s.modTbu fun b => { b with judge := some e }
  else if e.natAbs ≤ 256 * s.rd F.TBU_PJMAX_PJMAX then s.slewOff e
  else s.modTbu fun b => { b with snapWait := some (e.tdiv 256), err := e - 256 * e.tdiv 256 }

/-- Judge a time error that had to wait (R459). -/
def State.judgeNext (s : State) : State :=
  match s.tbu.judge with
  | some e => if s.snapPend || s.tbu.slewing then s else (s.modTbu fun b => { b with judge := none }).judgeErr e
  | none => s

/-- One step of the time loop on a new time error (R451). The gains of the loop are not stated: the correction is a free
value within SLEW (log entry 3); during a slew it stands at the full rate, and with TSLOST it is frozen. -/
def State.timeLoop (s : State) (e : Int) : State :=
  let s := s.noteErr e
  if s.tbu.slewing || s.tbu.tsLost then s
  else
    let (v, s) := s.draw
    s.wrZ F.TBU_FOFS_FOFS ((v % (2 * s.slewPpb + 1) : Nat) - (s.slewPpb : Int))

/-- SLEW_COMPLETE (R452): the whole of e has been removed. -/
def execSlewComplete (t : Nat) (s : State) : Host.Outcome State Fault Refusal :=
  let s := s.begin t
  if !s.tbu.slewing || Nat.blt s.clk s.tbu.slewTo then .next s
  else .next ((s.modTbu fun b => { b with slewing := false, err := 0 }).wr F.TBU_FOFS_FOFS 0).judgeNext

/-- PTP_SOURCE_LOSS (R450): three Sync intervals without a Sync. -/
def execPtpSourceLoss (t : Nat) (s : State) : Host.Outcome State Fault Refusal :=
  let s := s.begin t
  let p := s.lnk.ptp
  let due := match p.syncAt with | some x => Nat.ble (x + 3 * p.interval) s.clk | none => false
  if s.tsrc != 2 || s.tbu.tsLost || p.interval == 0 || !due then .next s
  else .next ((s.modTbu fun b => { b with tsLost := true }).modLnk fun l => { l with ptp := { l.ptp with first := [] } })

/-! ### Snaps (R453, R454) -/

def TpEv.shift (sh : Nat → Nat) (e : TpEv) : TpEv := { e with time := sh e.time }

/-- The instants of a sense channel under a step of device time. -/
def Sense.shift (sh : Nat → Nat) (x : Sense) : Sense :=
  { x with settleTo := sh x.settleTo, substFrom := x.substFrom.map sh, outs := x.outs.map fun o => { o with time := sh o.time },
           tp := { x.tp with th := x.tp.th.map fun v => (v.1, sh v.2.1, v.2.2), last := x.tp.last.map (TpEv.shift sh),
                             before := x.tp.before.map (TpEv.shift sh), lastMeas := x.tp.lastMeas.map (TpEv.shift sh),
                             events := x.tp.events.map (TpEv.shift sh) } }

/-- The tracked target of a channel under a step of device time. -/
def SafChan.shift (sh : Nat → Nat) (c : SafChan) : SafChan :=
  { c with trk := { c.trk with items := c.trk.items.map fun v => (sh v.1, v.2) } }

/-- Device time steps by `d` ns and every posted instant with it (R454). -/
def State.stepTime (s : State) (d : Int) : State :=
  let sh : Nat → Nat := fun n => (n + d).toNat
  let q := s.seq
  { s with
    tofs := s.tofs + d,
    seq := { q with
      cursor := sh q.cursor, batten := q.batten.map fun b => { b with te := sh b.te }, syncIssue := sh q.syncIssue,
      syncHit := q.syncHit.map sh, fires := q.fires.map fun f => { f with instant := sh f.instant },
      wins := q.wins.map fun w => { w with instant := sh w.instant }, bounds := q.bounds.map sh },
    stu := { s.stu with
      ctrl := s.stu.ctrl.shift sh, mon := s.stu.mon.shift sh, kickAt := s.stu.kickAt.map sh, bridgeTo := sh s.stu.bridgeTo },
    saf := { s.saf with
      chA := s.saf.chA.shift sh, chB := s.saf.chB.shift sh, sectLog := s.saf.sectLog.map fun e => (sh e.1, e.2) },
    cap := { s.cap with
      closeAt := sh s.cap.closeAt, armAt := sh s.cap.armAt, conds := s.cap.conds.map fun c => { c with time := sh c.time } },
    fso := { s.fso with
      str0 := { s.fso.str0 with waitAt := s.fso.str0.waitAt.map sh },
      str1 := { s.fso.str1 with waitAt := s.fso.str1.waitAt.map sh },
      str2 := { s.fso.str2 with waitAt := s.fso.str2.waitAt.map sh },
      str3 := { s.fso.str3 with waitAt := s.fso.str3.waitAt.map sh },
      encLog := s.fso.encLog.map fun e => (e.1, sh e.2) },
    lnk := { s.lnk with bus := s.lnk.bus.map fun e => { e with time := sh e.time } },
    tbu := { s.tbu with snaps := s.tbu.snaps.map fun x => { x with time := sh x.time }, chainE := s.tbu.chainE.map (· - 256 * d) } }

/-- Set device time by a time error in ticks, before READY (R453, R460); what is posted moves with it. -/
def State.setTime (s : State) (e : Int) : State := (s.noteErr e).stepTime (e.tdiv 256)

/-- Apply one snap (R453, R454): the step, TIMEJUMP on the next frame, the tolerance for press telegrams, the event. The
device that decided it slews the remainder; with any other device's snap, chain time steps as device time does. -/
def State.applySnap (s : State) (x : Snap) : State :=
  let mine := x.origin == s.lnk.pos && s.tbu.err != 0 && !s.tbu.slewing
  let own := x.origin == s.lnk.pos
  let s := s.stepTime x.delta
  let s := s.modTbu fun b => { b with chainE := if own then b.chainE else b.chainE.map (· + 256 * x.delta) }
  let s := (s.modFso fun f => { f with timejump := true }).modSaf fun v => { v with snapD := x.delta, snapTo := s.clk + 10000000 }
  let s := ((s.wrWide 0x100D 3 x.time).wrWide 0x1010 2 (unsigned 40 x.delta)).inc F.TBU_SNAPCNT_COUNT
  let s := s.raise 0x2B .warn 0
  (if mine then s.slewOff s.tbu.err else s).judgeNext

/-- The pending snap with the earliest Tsnap (R459). -/
def State.firstSnap (s : State) : Option Snap :=
  s.tbu.snaps.foldl (fun (o : Option Snap) x =>
    match o with | none => some x | some y => if Nat.blt x.time y.time then some x else some y) none

/-- TSNAP (R453): the earliest pending snap takes place. -/
def execTsnap (t : Nat) (s : State) : Host.Outcome State Fault Refusal :=
  let s := s.begin t
  match s.firstSnap with
  | some x =>
    if Nat.blt s.now x.time then .next s
    else .next ((s.modTbu fun b => { b with snaps := b.snaps.erase x }).applySnap x)
  | none => .next s

/-! ### Clock outputs (R455 to R458, R462) -/

/-- The source frequency of SRC in Hz, REFCLK at `f`. -/
def ckSource (src f : Nat) : Nat := match src with | 0 => 1000000000 | 1 => 156250000 | 2 => f | _ => 0

/-- A configuration word breaks R455, REFCLK at `f`. -/
def ckBad (w : Word) (f : Nat) : Bool :=
  let n := w.toNat
  let fmt := bitsOf n 19 18
  let src := bitsOf n 17 16
  let top := if fmt == 3 then 250000000 else 500000000
  src == 3 || (fmt != 0 && Nat.blt (top * (bitsOf n 9 0 + 1)) (ckSource src f))

/-- B for one target of a configuration: the smallest divider that places REFCLK ÷ B at or below it (R458). -/
def ckBackup (w : Word) (f r : Nat) : Nat :=
  let n := w.toNat
  if bitsOf n 19 18 == 0 then 1 else max 1 (cdiv (r * (bitsOf n 9 0 + 1)) (ckSource (bitsOf n 17 16) f))

/-- An output is parked (R455 to R458, R460): before lock, in THERMAL and RESET, in FMT OFF, with KEEP = 0 during a retune,
and with SRC 10b in holdover. -/
def State.ckParked (s : State) (n : Nat) : Bool :=
  !s.alive || s.dev == .thermal || s.tbu.gov0.isNone || s.rd (F.TBU_CKA_FMT n) == 0
    || (s.tbu.retune && (assoc s.tbu.backup n).isNone)
    || (s.tbu.holdover && !s.tbu.retune && s.rd (F.TBU_CKA_SRC n) == 2)

/-- The staged configurations come into force (R460, R462). -/
def State.applyClocks (s : State) : State :=
  (List.range 4).foldl (fun (s : State) n => s.setWord (0x1024 + n) (s.word (0x1020 + n))) (s.modTbu fun b => { b with backup := [] })

/-! ### Holdover (R448) -/

/-- Milliseconds in the present holdover. -/
def State.holdMs (s : State) : Nat := satN 20 ((s.clk - s.tbu.holdAt) / 1000000)

/-- The timing PLL freezes. -/
def State.freeze (s : State) : State := s.modTbu fun b => { b with holdover := true, holdAt := s.clk, regood := 0 }

/-- Holdover ends. -/
def State.thaw (s : State) : State :=
  (s.wr F.TBU_HOLDMS_MS s.holdMs).modTbu fun b => { b with holdover := false, regood := 0 }

/-- The reference is lost (R448). A timing PLL that has locked enters holdover; during a retune it is frozen already
(R459). -/
def State.refLost (s : State) : State :=
  let s := s.modTbu fun b => { b with refOk := false, goodSince := none, regood := 0 }
  if !s.tbu.timing.lock then s.modTbu fun b => { b with timing := { b.timing with good := 0 } }
  else
    let s := (s.put F.TBU_STATUS_REFLOSS true).inc F.TBU_LOSSCNT_COUNT
    if s.tbu.holdover then s else s.freeze.raise 0x29 .warn 0

/-- REFERENCE_LOSS (R448): no edge for 4 nominal periods. -/
def execReferenceLoss (t : Nat) (s : State) : Host.Outcome State Fault Refusal :=
  let s := s.begin t
  if !s.alive || !s.tbu.refOk then .next s else .next s.refLost

/-! ### Lock windows (R444, R447) -/

/-- A window's measured frequency lies within ±100 ppm of F_REF (R444). Until an image gives F_REF, it need only lie in the
range of REFCLK, 10 to 250 MHz (log entry 24). -/
def State.inPpm (s : State) (count : Nat) : Bool :=
  let f := s.fref
  let n := s.nwin * 1000000000
  if f == 0 then Nat.ble (10000000 * count) n && Nat.ble n (250000000 * count)
  else decide (10000 * ((n : Int) - f * count).natAbs ≤ f * count)

/-- The window's difference is no more than LTOL (R447). -/
def State.inTol (s : State) (count : Nat) : Bool :=
  let f := s.fref
  f == 0 || decide (((count * f : Nat) - (s.nwin * 1000000000 : Nat) : Int).natAbs ≤ s.rd F.TBU_LOCK_LTOL * f)

/-- One window's effect on a PLL (R447): four good ones lock it, two bad ones lose the lock. -/
def PllSt.window (p : PllSt) (good : Bool) : PllSt :=
  if good then { lock := p.lock || Nat.ble 3 p.good, good := min 4 (p.good + 1), bad := 0 }
  else { lock := p.lock && Nat.blt p.bad 1, good := 0, bad := min 2 (p.bad + 1) }

/-- A step of boot starts: CTL_BOOT.STEP names the latest (R492). -/
def State.bootStep (s : State) (n : Nat) : State := s.wr F.CTL_BOOT_STEP (max n (s.rd F.CTL_BOOT_STEP))

/-- Both PLLs have locked (R438, R460, R463): the REF step is done and the lanes start. -/
def State.afterLock (s : State) : State :=
  if !s.tbuLocked then s
  else
    let s := s.startLanes
    if s.dev == .boot && !s.boot.refDone then (s.modBoot fun b => { b with refDone := true }).bootStep 1 else s

/-- The timing PLL locks: device time and governor time start at 0 at the first lock, and the outputs leave park (R460). -/
def State.timingLocked (s : State) : State :=
  let s := if s.tbu.gov0.isNone then
      (s.setTofs (-(s.clk : Int))).modTbu fun b => { b with gov0 := some s.clk }
    else s
  s.applyClocks

/-- A PLL loses lock (R447, R399). -/
def State.unlocked (s : State) (pll : Nat) : State :=
  let s := (s.put F.TBU_STATUS_UNLOCK true).raise 0x28 .fault pll
  if pll == 0 then s
  else ((List.range 12).filter fun l =>
      let st := (s.lane l).stage
      st == .lock || st == .caps || st == .active).foldl State.loseLane s

/-- Qualification over one window of the timing PLL (R444). -/
def State.qualify (s : State) (count : Nat) (missing : Bool) : State :=
  if missing || !s.inPpm count then
    if s.tbu.refOk then (if s.inPpm count || missing then s else s.refLost)
    else s.modTbu fun b => { b with goodSince := none }
  else
    let z := s.tbu.goodSince.getD (s.clk - count)
    let ok := s.tbu.refOk || Nat.ble (z + 1000000 * s.rd F.TBU_REFQUAL_REFQUAL) s.clk
    s.modTbu fun b => { b with goodSince := some z, refOk := ok }

/-- A window of the timing PLL (R444, R447, R448). -/
def State.timingWindow (s : State) (count : Nat) (missing : Bool) (phase : Int) : State :=
  let had := s.tbu.refOk
  let s := s.qualify count missing
  let good := !missing && s.inTol count
  if s.tbu.holdover then
    if !(had && s.tbu.refOk) then s
    else
      let n := if good then s.tbu.regood + 1 else 0
      if n < 4 then s.modTbu fun b => { b with regood := n }
      else
        let s := s.thaw
        let s := s.modTbu fun b => { b with timing := { b.timing with good := 4, bad := 0 } }
        (s.raise 0x2A .info 0).judgeErr phase
  else if !s.tbu.timing.lock && !(had && s.tbu.refOk) then s
  else
    let p := s.tbu.timing.window good
    let was := s.tbu.timing.lock
    let s := s.modTbu fun b => { b with timing := p }
    if p.lock && !was then s.timingLocked.afterLock else if was && !p.lock then s.unlocked 0 else s

/-- A window of the system PLL (R447): it locks after the timing PLL, and is frozen in holdover. -/
def State.systemWindow (s : State) (count : Nat) (missing : Bool) : State :=
  if s.tbu.holdover || !s.tbu.timing.lock then s
  else
    let p := s.tbu.system.window (!missing && s.inTol count)
    let was := s.tbu.system.lock
    let s := s.modTbu fun b => { b with system := p }
    if p.lock && !was then s.afterLock else if was && !p.lock then s.unlocked 1 else s

/-- LOCK_WINDOW (R444, R447, R448, R460). During a retune the PLLs acquire the new reference, which RETUNE_RELOCK reports. -/
def execLockWindow (t : Nat) (pll : Pll) (count : Nat) (missing : Bool) (phase : Int) (s : State) :
    Host.Outcome State Fault Refusal :=
  let s := s.begin t
  if !s.alive || s.tbu.retune then .next s
  else match pll with
    | .timing => .next (s.timingWindow count missing phase)
    | .system => .next (s.systemWindow count missing)

/-! ### TBU_RETUNE (R457, R458) -/

/-- Module memory leaves self-refresh and retrains (R399, R457). -/
def State.memRetrain (s : State) : State :=
  s.modMem fun m => { m with selfRef := false, unavA := some (s.clk + 5000000), unavB := some (s.clk + 5000000) }

/-- The outputs with KEEP = 1 that run, and B of each (R458). -/
def State.backups (s : State) : List (Nat × Nat) :=
  let f := s.fref
  let g := s.fstaged
  ((List.range 4).filter fun n => s.rd (F.TBU_CKA_KEEP n) == 1 && !s.ckParked n).map fun n =>
    (n, max (ckBackup (s.word (0x1024 + n)) f (max f g)) (ckBackup (s.word (0x1020 + n)) g (max f g)))

/-- TBU_RETUNE (R457, R459): the checks, and the start. -/
def State.retuneStart (s : State) : Status × State :=
  let g := s.fstaged
  if s.tbu.holdover || s.saf.st == .clear || Nat.blt g 10000000 || Nat.blt 250000000 g || s.snapPend || s.tbu.slewing then
    (.refused, s)
  else
    let b := s.backups
    let s := s.startOp 6 (.retune s.clk)
    let s := s.freeze.modTbu fun x => { x with retune := true, backup := b }
    let s := (s.modMem fun m => { m with selfRef := true }).idleLanes
    (.ok, s.wrWide 0x1001 2 g)

/-- What ends every retune: outputs at the new targets, memory and lanes restart. -/
def State.retuneEnd (s : State) : State :=
  (s.modTbu fun b => { b with retune := false }).applyClocks.memRetrain.startLanes

/-- RETUNE_RELOCK (R457): the phase of REFCLK is not measured by the command: a free value within half a period. -/
def execRetuneRelock (t : Nat) (s : State) : Host.Outcome State Fault Refusal :=
  let s := s.begin t
  match s.mgmt.op with
  | some (.retune t0) =>
    if Nat.blt (t0 + 20000000) s.clk || !s.tbu.refOk then .next s
    else
      let s := s.retuneEnd.thaw
      let (v, s) := s.draw
      let half := 128000000000 / s.fref
      .next ((s.judgeErr ((v % (2 * half + 1) : Nat) - (half : Int))).endOp 0)
  | _ => .next s

/-- RETUNE_TIMEOUT (R457): no lock within 20 ms; the TBU stays in holdover. -/
def execRetuneTimeout (t : Nat) (s : State) : Host.Outcome State Fault Refusal :=
  let s := s.begin t
  match s.mgmt.op with
  | some (.retune t0) =>
    if Nat.blt s.clk (t0 + 20000000) then .next s
    else .next ((s.retuneEnd.modTbu fun b => { b with refOk := false, goodSince := none, regood := 0 }).endOp 1)
  | _ => .next s

/-! ### Registers (R461, R462) -/

/-- A write in the TBU block: the configuration of an output (R455), and SLEW (R461). -/
def State.writeTbu (s s' : State) (a : Nat) (w : Word) : Status × State :=
  if Nat.ble 0x1020 a && Nat.blt a 0x1024 && ckBad w s.fstaged then (.refused, s)
  else (.ok, if a == 0x1008 then s'.slewOn (s.rd F.TBU_SLEW_SLEW) else s')

/-- The words of the TBU that follow its state. -/
def State.viewTbu (s : State) (a : Nat) : Option Word :=
  let b := s.tbu
  if a == 0x1000 then
    some (mkWord [(19, b2n b.timing.lock), (18, b2n b.system.lock), (17, b2n b.refOk), (16, b2n b.holdover),
      (15, b2n b.slewing), (14, b2n s.snapPend), (13, b2n b.retune), (11, s.tsrc), (10, b2n b.tsLost),
      (9, s.rd F.TBU_STATUS_REFLOSS), (8, s.rd F.TBU_STATUS_UNLOCK)])
  else if a == 0x1012 && b.holdover then some (BitVec.ofNat 20 s.holdMs)
  else none

end Sys2Proof.Machine
end

