-- ==== Sys2Proof/Machine/Chain.lean ====
section
/-! DEFINITION. The Flethes chain (R428 to R437): joining, chain time, PARAMS, Battens, the trigger bus, Dovetail records and
TIMESET, and the trigger inputs (R130, R349). -/

namespace Sys2Proof.Machine

/-! ### Chain messages (R413, R414) -/

/-- A chain message arrives (R413, R414): the port is ACTIVE, the CRC holds and SEQ is newer than the last accepted. -/
def State.rxChain (s : State) (h : ChainHdr) : Bool × State :=
  let n := s.neigh h.side
  if !s.portUp h.side then (false, s)
  else if !h.crcOk then (false, s.inc F.LNK_MSGCRC_COUNT)
  else if n.rxSeq.any fun r => !newer h.seq r then (false, s.inc F.LNK_DUPSEQ_COUNT)
  else (true, s.setNeigh h.side { n with rxSeq := some (h.seq % 2 ^ 20) })

/-! ### Joining and PARAMS (R236, R428, R430) -/

/-- The neighbour on a port, while it is joined. -/
def State.joinedNeigh (s : State) (side : ChainSide) : Option ChainParams := (s.neigh side).params.filter ChainParams.joined

/-- The device's slot mask. -/
def State.slotMask (s : State) : BitVec 32 :=
  BitVec.ofNat 32 (s.rd (F.CTL_SLOT_MASK_MASK 0) + 2 ^ 16 * s.rd (F.CTL_SLOT_MASK_MASK 1))

/-- The slot comparison (R236, R430): the cycle against the chain head's, which the upstream neighbour is or holds (log entry
108), and the mask against both neighbours'. -/
def State.compareSlots (s : State) : State :=
  let clash := fun (p : ChainParams) => p.mask &&& s.slotMask != 0
  let up := match s.joinedNeigh .up with
    | none => false
    | some p =>
      let (n, len) := if p.pos == 0 then (p.slotn, p.slotlen) else (p.headn, p.headlen)
      n != s.rd F.CTL_SLOT_CFG_SLOTN || len != s.rd F.CTL_SLOT_LEN_LEN || clash p
  let dn := (s.joinedNeigh .down).any clash
  let s := ((s.put F.CTL_SLOT_STAT_UPCONF up).put F.CTL_SLOT_STAT_DNCONF dn).put F.CTL_SLOT_STAT_CONFLICT (up || dn)
  if up || dn then s.raise 0x0C .warn (b2n up + 2 * b2n dn) else s

/-- The Dovetail comparison (R430): both devices have DVX = 1 and the widths that they share agree. -/
def State.compareDove (s : State) : State :=
  let dvx := s.flag F.CTL_DOVE_DVX
  let up := (s.joinedNeigh .up).any fun p => !(dvx && p.dvx && p.dr == s.rd F.CTL_DOVE_DL)
  let dn := (s.joinedNeigh .down).any fun p => !(dvx && p.dvx && p.dl == s.rd F.CTL_DOVE_DR)
  s.modLnk fun l => { l with dvUp := up, dvDn := dn }

/-- Both comparisons, while the device is joined. -/
def State.compare (s : State) : State := if s.lnk.joined then s.compareSlots.compareDove else s

/-- A member takes chain time (R432, R452, R453, R460), e in ticks: directly before READY, else as a returning reference. -/
def State.takeChainTime (s : State) (e : Int) : State :=
  let s := s.modTbu fun b => { b with rejoin := false, tsLost := false }
  if s.ready then s.judgeErr e else s.setTime e

/-- A member joins at a position (R428). -/
def State.join (s : State) (pos : Nat) : State :=
  let s := s.modLnk fun l => { l with joined := true, pos := pos, full := false }
  let s := s.sendParams.compare
  match s.tbu.chainE with
  | some e => s.takeChainTime e
  | none => s.modTbu fun b => { b with rejoin := true, tsLost := false }

/-- CHAIN_JOIN (R428): a member whose upstream port is ACTIVE and whose upstream neighbour is joined. Position 32 is
refused with CHAIN_FULL. -/
def execChainJoin (t : Nat) (s : State) : Host.Outcome State Fault Refusal :=
  let s := s.begin t
  if s.isHead || s.lnk.joined || !s.portUp .up then .next s
  else match s.joinedNeigh .up with
    | none => .next s
    | some p =>
      if Nat.ble 31 p.pos then
        .next (if s.lnk.full then s else (s.modLnk fun l => { l with full := true }).raise 0x43 .fault 0)
      else .next (s.join (p.pos + 1))

/-- PARAMS (R428, R430). -/
def execParams (t : Nat) (hdr : ChainHdr) (p : ChainParams) (s : State) : Host.Outcome State Fault Refusal :=
  match (s.begin t).rxChain hdr with
  | (false, s) => .next s
  | (true, s) =>
    let fresh := p.joined && (s.joinedNeigh hdr.side).isNone
    let s := s.setNeigh hdr.side { s.neigh hdr.side with params := some p }
    let s := if hdr.side == .up && !p.joined then s.leaveChain else s
    let s := if fresh && s.lnk.joined then s.sendParams else s
    .next s.compare

/-! ### Chain time (R431, R432) -/

/-- PROBE_SEND (R431): about every 125 µs, upstream. -/
def execProbeSend (t : Nat) (s : State) : Host.Outcome State Fault Refusal :=
  let s := s.begin t
  if s.isHead || !s.portUp .up || Nat.blt s.clk (s.lnk.probeAt + 125000) then .next s
  else .next ((s.modLnk fun l => { l with probeAt := s.clk }).sendChain .up 0x60 [])

/-- The head's device time in ticks as this device holds it (R432): its own time, and for a member what the latest ECHO adds to
it. -/
def State.chainNow (s : State) : Nat :=
  if s.isHead then 256 * s.now else (256 * (s.now : Int) + s.tbu.chainE.getD 0).toNat

/-- PROBE (R431, R432): answered with ECHO: the hold time, which is this device's and not stated (a free value), the head's time,
and the sum of the hop means. -/
def execProbe (t : Nat) (hdr : ChainHdr) (s : State) : Host.Outcome State Fault Refusal :=
  match (s.begin t).rxChain hdr with
  | (false, s) => .next s
  | (true, s) =>
    if hdr.side != .down then .next s
    else
      let (hold, s) := s.draw
      .next (s.sendChain .down 0x61 [hold, s.chainNow, s.rdWide 0xB007 2])

/-- ECHO (R431, R432, R451): the hop delay d, its mean over 64, and the time error against the head. -/
def execEcho (t : Nat) (hdr : ChainHdr) (hold rtt head : Nat) (ofs : Int) (s : State) : Host.Outcome State Fault Refusal :=
  match (s.begin t).rxChain hdr with
  | (false, s) => .next s
  | (true, s) =>
    if hdr.side != .up || s.isHead then .next s
    else
      let d : Int := ((rtt : Int) - hold + s.rdZ F.LNK_HOPASYM_ASYM) / 2
      let hops := (d :: s.lnk.hops).take 64
      let mean : Int := (2 * hops.sum + hops.length) / (2 * hops.length)
      let s := s.modLnk fun l => { l with hops := hops, upOfs := ofs }
      let s := (s.wrZ F.LNK_HOPD_D mean).wrWide 0xB007 2 (unsigned 40 (ofs + mean))
      let e : Int := (head : Int) + d - 256 * s.now
      let s := s.modTbu fun b => { b with chainE := some e }
      if !s.lnk.joined then .next s
      else if s.tbu.rejoin then .next (s.takeChainTime e)
      else .next (s.timeLoop e)

/-- TIMESET (R453): forwarded, and pending until its Tsnap; after it, applied at once with TBUS_LATE. -/
def execTimeset (t : Nat) (hdr : ChainHdr) (tsnap : Nat) (delta : Int) (origin : Nat) (s : State) :
    Host.Outcome State Fault Refusal :=
  match (s.begin t).rxChain hdr with
  | (false, s) => .next s
  | (true, s) =>
    if hdr.side != .up || !s.lnk.joined || s.isHead then .next s
    else
      let x : Snap := { time := tsnap, delta := delta, origin := origin }
      let s := s.sendChain .down 0x66
        ((wordsOf tsnap 3 ++ wordsOf (unsigned 40 delta) 2).map BitVec.toNat ++ [origin * 2 ^ 15])
      if Nat.blt tsnap s.now then .next ((s.applySnap x).raise 0x45 .warn 8)
      else
        let s := (s.wrWide 0x100D 3 tsnap).wrWide 0x1010 2 (unsigned 40 delta)
        .next (s.modTbu fun b => { b with snaps := b.snaps ++ [x] })

/-! ### Battens (R73, R75, R435) -/

/-- BATTEN: forwarded without waiting, then pending, dropped, or in effect at once when its Te has passed. -/
def execBatten (t : Nat) (hdr : ChainHdr) (sync pg : Bool) (arg te : Nat) (s : State) : Host.Outcome State Fault Refusal :=
  match (s.begin t).rxChain hdr with
  | (false, s) => .next s
  | (true, s) =>
    if hdr.side != .up || !s.lnk.joined || s.isHead then .next s
    else
      let b : Batten := ⟨sync, pg, arg, te⟩
      let s := s.sendChain .down 0x63 b.payload
      .next (if Nat.blt te s.now then s.lateBatten b else s.takeBatten b)

/-! ### The trigger bus (R433, R434) -/

/-- TRIG_OUT0 and TRIG_OUT1 follow their lines (R434). -/
def State.setOuts (s : State) : State :=
  let level := fun k => bitOf (s.rd F.LNK_TBUS_LEVEL) k
  let o0 := s.flag F.LNK_TOUT_EN0 && level (s.rd F.LNK_TOUT_LINE0)
  let o1 := s.flag F.LNK_TOUT_EN1 && level (s.rd F.LNK_TOUT_LINE1)
  s.modLnk fun l => { l with tout0 := o0, tout1 := o1 }

/-- The level of an edge applies (R433): a rising edge serves SYNC source 2h and capture source TBUSn. -/
def State.applyEdge (s : State) (e : BusEdge) : State :=
  let was := s.rd F.LNK_TBUS_LEVEL
  let had := bitOf was e.line
  let level := if e.level == had then was else if e.level then was + 2 ^ e.line else was - 2 ^ e.line
  let s := (s.wr F.LNK_TBUS_LEVEL level).setOuts
  if e.level && !had then (s.syncSource 2 e.line e.time).condition ⟨5 + e.line, e.time, e.fine, false⟩ else s

/-- An edge of a line with its stamp: it applies at stamp + TBLAT, or at once, with TBUS_LATE, when that has passed. -/
def State.takeEdge (s : State) (line : Nat) (level : Bool) (stamp fine : Nat) : State :=
  let e : BusEdge := ⟨line, level, stamp + s.rd F.LNK_TBLAT_TBLAT, fine⟩
  if Nat.blt e.time s.now then ((s.applyEdge e).inc F.LNK_TBLATE_COUNT).raise 0x45 .warn line
  else s.modLnk fun l => { l with bus := l.bus ++ [e] }

/-- The device drives a line from a source (R433). -/
def State.drives (s : State) (line src : Nat) : Bool :=
  s.lnk.joined && s.flag (F.LNK_TB_EN line) && s.rd (F.LNK_TB_SRC line) == src && s.rd (F.LNK_TB_DRVPOS line) == s.lnk.pos

/-- The driver stamps an edge: TBEDGE both ways, and the driver's own copy. -/
def State.driveLine (s : State) (line : Nat) (level : Bool) (stamp fine : Nat) : State :=
  let msg := [line, b2n level, stamp, fine]
  ((s.sendChain .up 0x64 msg).sendChain .down 0x64 msg).takeEdge line level stamp fine

/-- An edge of a bus source drives a line that names it, with POL (R433). -/
def State.driveIf (s : State) (src : Nat) (rising : Bool) (stamp fine l : Nat) : State :=
  if s.drives l src then s.driveLine l (rising != s.flag (F.LNK_TB_POL l)) stamp fine else s

/-- An edge of a bus source drives the lines that name it (R433). -/
def State.driveFrom (s : State) (src : Nat) (rising : Bool) (stamp fine : Nat) : State :=
  (List.range 8).foldl (fun s l => s.driveIf src rising stamp fine l) s

/-- TBEDGE (R433, R435, R437): forwarded onward and scheduled; discarded from a side whose neighbour has left the chain, and the
line's driver with it. -/
def execTbedge (t : Nat) (hdr : ChainHdr) (line : Nat) (level : Bool) (stamp : Nat) (fine : BitVec 8) (s : State) :
    Host.Outcome State Fault Refusal :=
  match (s.begin t).rxChain hdr with
  | (false, s) => .next s
  | (true, s) =>
    if !s.lnk.joined || (s.joinedNeigh hdr.side).isNone || Nat.ble 8 line || !s.flag (F.LNK_TB_EN line) then .next s
    else
      let s := s.sendChain (otherSide hdr.side) 0x64 [line, b2n level, stamp, fine.toNat]
      .next (s.takeEdge line level stamp fine.toNat)

/-- TRIGGER_BUS_EVENT (R433, R434): the first TCLK edge at or after a line's event instant, which is one later where the stamp
has a fine part. -/
def execTriggerBusEvent (t line : Nat) (s : State) : Host.Outcome State Fault Refusal :=
  let s := s.begin t
  match s.lnk.bus.find? fun e => e.line == line && Nat.ble (e.time + b2n (e.fine != 0)) s.now with
  | none => .next s
  | some e => .next ((s.modLnk fun l => { l with bus := l.bus.erase e }).applyEdge e)

/-- A write of LNK_TBUS_SET or LNK_TBUS_CLR (R433, R439): host lines that this device drives, else REFUSED. -/
def State.hostLines (s : State) (w : Word) (level : Bool) : Status × State :=
  let lines := setBits w.toNat 8
  if lines.any fun l => !s.drives l 5 then (.refused, s)
  else (.ok, lines.foldl (fun s l => s.driveLine l level s.now 0) s)

/-! ### Dovetail records (R347) -/

/-- DOVE: a neighbour's record at the local column that shares its column. -/
def execDove (t : Nat) (hdr : ChainHdr) (record : List Word) (s : State) : Host.Outcome State Fault Refusal :=
  match (s.begin t).rxChain hdr with
  | (false, s) => .next s
  | (true, s) =>
    if !s.doveWith hdr.side then .next s
    else
      let w := fun i => (record.getD i 0).toNat
      let col := bitsOf (w 1) 7 0
      let dl := s.rd F.CTL_DOVE_DL
      let dr := s.rd F.CTL_DOVE_DR
      let at0 : Option Nat := match hdr.side with
        | .up =>
          let base := ((s.neigh .up).params.elim 256 ChainParams.ncol) - dl
          if Nat.ble base col && Nat.blt col (base + dl) then some (col - base) else none
        | .down => if Nat.blt col dr then some (256 - dr + col) else none
      let n := bitsOf (w 0) 11 9
      let echo := fun k i => if Nat.blt i n then record[8 + 6 * i + k]? else none
      match at0 with
      | none => .next s
      | some c => .next (s.placeNeighbour (bitsOf (w 1) 19 8) c (echo 2) (echo 3) (bitsOf (w 0) 8 7))

/-! ### Trigger inputs (R66, R71, R130, R316, R349) -/

/-- The trigger TDC that times FSYNC_IN, if one does (R163). -/
def State.fsyncTdc (s : State) : Option Nat := (List.range 4).find? fun k => s.flag (F.RTA_FCFG_T_SRC k)

/-- Where in its TCLK cycle a trigger TDC places an edge, in u, by its calibrated fine table (R127, R130). -/
def State.trigPos (s : State) (k p : Nat) : Int := 4096 - ((s.unitSt (272 + k)).entry p : Int)

/-- The stamp of an edge: device time in ns, the fine part in ticks to the nearest one, a half up (R130; log entry 178), and COARSE,
with which the stamp is the next TCLK edge. -/
def State.trigStamp (s : State) (k p : Nat) (coarse : Bool) : Nat × Nat :=
  if coarse then (s.now + 1, 0)
  else
    let x := (256 * s.now + (s.trigPos k p + 8) / 16).toNat
    (x / 256, x % 256)

/-- An edge on a trigger TDC in frequency mode (R156): leading edges enter the regression, trailing edges start the dead time. -/
def State.trigFreq (s : State) (k p : Nat) (leading : Bool) : State :=
  if !s.flag (F.RTA_FCFG_T_FEN k) then s
  else
    let x := s.unitSt (272 + k)
    let e := 4096 * ((s.clk - x.gate0 : Nat) : Int) + s.trigPos k p
    s.setUnit (272 + k) (if leading then x.freqEdge (s.rd (F.RTA_FCFG_T_PRESCM1 k) + 1) e none else x.trailEdge e)

/-- TRIG_IN_EDGE (R71, R130, R316, R433): an edge on TRIG_INk in the cycle of the instant, at fine code `p`. While FSYNC_IN occupies
the TDC, or the TDC has no calibration (R478), the edge is stamped at the next TCLK edge with COARSE. -/
def execTrigInEdge (t k : Nat) (rising : Bool) (p : BitVec 8) (s : State) : Host.Outcome State Fault Refusal :=
  let s := s.begin t
  if !s.alive || Nat.ble 4 k then .next s
  else
    let taken := s.flag (F.RTA_FCFG_T_SRC k)
    let coarse := taken || (s.unitSt (272 + k)).coarse
    let (stamp, f) := s.trigStamp k p.toNat coarse
    let leading := rising != s.flag (F.RTA_FCFG_T_POL k)
    let s := if rising then s.setBit F.CTL_SEQ_FLAGS_TRIG k else s
    let s := s.driveFrom k rising stamp f
    let s := if taken then s else s.trigFreq k p.toNat leading
    .next (if leading then (s.syncSource 1 k stamp).condition ⟨k, stamp, f, coarse⟩ else s)

/-- FSYNC_IN_EDGE (R66, R130, R163, R349): an edge on FSYNC_IN; without a trigger TDC on it, it is not stamped. In LINE mode
every edge is an encoder tick; otherwise the active edge counts. -/
def execFsyncInEdge (t : Nat) (rising : Bool) (p : BitVec 8) (s : State) : Host.Outcome State Fault Refusal :=
  let s := s.begin t
  match s.fsyncTdc with
  | none => .next s
  | some k =>
    if !s.alive then .next s
    else
      let coarse := (s.unitSt (272 + k)).coarse
      let (stamp, f) := s.trigStamp k p.toNat coarse
      let active := rising != s.flag (F.RTA_FCFG_T_POL k)
      let s := (s.driveFrom 4 rising stamp f).trigFreq k p.toNat active
      let s := if active then s.condition ⟨4, stamp, f, coarse⟩ else s
      if active || s.rd F.FSO_CFG_FSMODE == 1 then .next ((s.syncSource 0 0 stamp).fsyncFrame stamp) else .next s

end Sys2Proof.Machine
end

