-- ==== Sys2Proof/Machine/Net.lean ====
section
/-! DEFINITION. Ethernet mode beside DLP (R425 to R427): ARP, ICMP and PTP (R450, R452, R460). -/

namespace Sys2Proof.Machine

/-! ### ARP and ICMP (R425) -/

/-- An ETH lane that carries frames. -/
def State.ethUp (s : State) (lane : Nat) : Bool := Nat.blt lane 8 && s.laneEth lane && s.carries lane

/-- ARP_REQUEST: answered when it asks for the lane's address. -/
def execArpRequest (t lane : Nat) (senderIp targetIp : BitVec 32) (senderMac : BitVec 48) (s : State) :
    Host.Outcome State Fault Refusal :=
  let s := s.begin t
  if s.ethUp lane && targetIp == s.laneIp lane then .next (s.send (.arpReply lane senderIp senderMac)) else .next s

/-- ARP_REPLY: the address enters the lane's cache of 64 entries, and its request is answered. -/
def execArpReply (t lane : Nat) (ip : BitVec 32) (mac : BitVec 48) (s : State) : Host.Outcome State Fault Refusal :=
  let s := s.begin t
  if !s.ethUp lane then .next s
  else
    let mine := (s.lnk.arp.filter fun e => e.1 == lane && e.2.1 != ip).take 63
    let others := s.lnk.arp.filter fun e => e.1 != lane
    .next (s.modLnk fun l => { l with
      arp := (lane, ip, mac) :: mine ++ others, arpReqs := l.arpReqs.filter fun r => !(r.lane == lane && r.ip == ip) })

/-- ARP_REQUEST_TIMEOUT: 100 ms after a request the lane repeats it; after three it gives the address up. -/
def execArpRequestTimeout (t lane : Nat) (ip : BitVec 32) (s : State) : Host.Outcome State Fault Refusal :=
  let s := s.begin t
  match s.lnk.arpReqs.find? fun r => r.lane == lane && r.ip == ip && Nat.ble (r.at0 + 100000000) s.clk with
  | none => .next s
  | some r =>
    let rest := s.lnk.arpReqs.erase r
    if Nat.ble 3 r.tries || !s.ethUp lane then .next (s.modLnk fun l => { l with arpReqs := rest })
    else .next ((s.modLnk fun l => { l with arpReqs := rest ++ [{ r with tries := r.tries + 1, at0 := s.clk }] }).send
      (.arpRequest lane ip))

/-- ICMP_ECHO_REQUEST: answered with a payload of up to 1,472 octets. -/
def execIcmpEchoRequest (t lane : Nat) (ip : BitVec 32) (payload : List Byte) (s : State) : Host.Outcome State Fault Refusal :=
  let s := s.begin t
  if s.ethUp lane && Nat.ble payload.length 1472 then .next (s.send (.icmpReply lane ip payload)) else .next s

/-! ### PTP (R427, R450, R452, R460) -/

/-- PTP runs on the lane, for the domain (R425, R427). -/
def State.ptpOn (s : State) (lane domain : Nat) : Bool :=
  s.ethUp lane && s.isHead && s.flag F.LNK_CFG_PTPEN && lane == s.rd F.LNK_CFG_PTPLANE && domain == s.rd F.LNK_CFG_PTPDOM

def State.modPtp (s : State) (f : Ptp → Ptp) : State := s.modLnk fun l => { l with ptp := f l.ptp }

/-- One data set is better than another: the lesser in the order of comparison (R425). -/
def betterSet : List Nat → List Nat → Bool
  | [], _ => false
  | _ :: _, [] => false
  | a :: as, b :: bs => if a == b then betterSet as bs else Nat.blt a b

/-- PTP_ANNOUNCE: best-master selection. -/
def execPtpAnnounce (t lane domain : Nat) (dataset : List Nat) (s : State) : Host.Outcome State Fault Refusal :=
  let s := s.begin t
  if !s.ptpOn lane domain then .next s
  else match s.lnk.ptp.best with
    | some b => if betterSet dataset b then .next (s.modPtp fun p => { p with best := some dataset }) else .next s
    | none => .next (s.modPtp fun p => { p with best := some dataset })

/-- Insert into a rising list. -/
def insertZ (x : Int) : List Int → List Int
  | [] => [x]
  | y :: r => if x ≤ y then x :: y :: r else y :: insertZ x r

/-- The median of four offsets: the mean of the middle two, toward zero. -/
def median4 (l : List Int) : Int :=
  let o := l.foldr insertZ []
  (o.getD 1 0 + o.getD 2 0).tdiv 2

/-- A time error from PTP (R451, R452, R460): the first four, after start or after TSLOST, give their median; before READY
device time is set by it. -/
def State.ptpError (s : State) (e : Int) : State :=
  let f := s.lnk.ptp.first
  if Nat.blt f.length 4 then
    let f := f ++ [e]
    let s := (s.noteErr e).modPtp fun p => { p with first := f }
    if Nat.blt f.length 4 then s
    else
      let s := s.modTbu fun b => { b with tsLost := false }
      if s.ready then s.judgeErr (median4 f) else s.setTime (median4 f)
  else s.timeLoop e

/-- PTP_SYNC (R425, R450): the master's time and the arrival of a Sync of the selected master give the offset once the path
delay is known; the device asks for it with a Delay_Req. A Sync of two-step kind counts with its Follow_Up. -/
def execPtpSync (t lane domain : Nat) (_twoStep : Bool) (master arrival : Nat) (s : State) : Host.Outcome State Fault Refusal :=
  let s := s.begin t
  if !s.ptpOn lane domain || s.lnk.ptp.best.isNone then .next s
  else
    let p := s.lnk.ptp
    let ms : Int := (arrival : Int) - master
    let gap := match p.syncAt with | some x => s.clk - x | none => 0
    let s := s.modPtp fun p => { p with syncAt := some s.clk, interval := if gap == 0 then p.interval else gap, ms := some ms }
    let s := s.send (.delayReq lane)
    match p.delay with
    | none => .next s
    | some d => .next (s.ptpError (d - ms))

/-- PTP_DELAY_RESP (R425): the mean path delay, half the sum of both directions. -/
def execPtpDelayResp (t lane domain departure arrival : Nat) (s : State) : Host.Outcome State Fault Refusal :=
  let s := s.begin t
  match s.ptpOn lane domain, s.lnk.ptp.ms with
  | true, some ms => .next (s.modPtp fun p => { p with delay := some ((ms + ((arrival : Int) - departure)) / 2) })
  | _, _ => .next s

end Sys2Proof.Machine
end

