-- ==== Sys2Proof/Machine/Paths.lean ====
section
/-! DEFINITION. The paths of a Cutting List page (R559) and what Melaeloth and the boot loader refuse along them (R81, R188). A path
may begin at every entry, with the loop counters at 0: a Batten enters a page at any ENTRY (log entry 196). -/

namespace Sys2Proof

namespace Machine

/-- What can be reached from the states of a list: a state is passed over where one already seen stands for it. The fuel exceeds the
number of states that any page has. -/
def explore {α : Type} (dom : α → α → Bool) (next : α → List α) : Nat → List α → List α → List α
  | 0, _, seen => seen
  | _ + 1, [], seen => seen
  | n + 1, x :: r, seen =>
    if seen.any fun y => dom y x then explore dom next n r seen else explore dom next n (next x ++ r) (x :: seen)

/-- More than the states of any page: entries, loop counters, counted shots and times. -/
def pathFuel : Nat := (2 ^ 250) ^ 8

/-- Where execution stands on a path: the entry to be issued and the four loop counters (R69). -/
structure Spot where
  idx : Nat
  lcs : List Nat
  deriving DecidableEq, Repr

/-- The groups on which an entry opens a window (R55, R61, R62). -/
def entryGroups (e : Entry) : List Nat :=
  if e.op != 1 && wf e.w0 12 12 == 1 then List.range 8 else [wf e.w0 15 13]

/-- The window of a FIRE, LISTEN or CAL entry in ns. -/
def entryWin (e : Entry) : Nat := winNs (if e.op == 3 then wf e.w3 19 10 else wf e.w2 19 10)

/-- From an entry's T to the closing bound of its window (R63), a FIRE dithered by `d`. -/
def entryBound (e : Entry) (d : Int) : Int :=
  if e.op == 1 then d + min (6 + entryWin e) 4097 else (entryWin e : Int) + 1

/-- FIRE, LISTEN and CAL open windows. -/
def opens (e : Entry) : Bool := e.op == 1 || e.op == 2 || e.op == 3

/-- What an entry does to T and to the bound past which DRAIN advances, both from its own T on (R51, R63); `drain` is what is left
of that bound. SYNC moves T by an event, which no path foresees. -/
def roadStep (pitch : Nat) (dith : Bool) (e : Entry) (drain : Nat) : Nat × Nat :=
  if opens e then
    let b := max (drain : Int) (entryBound e (if dith then -(wf e.w1 12 5 : Int) else 0))
    let dt := if e.op == 1 then pitch else 0
    (dt, (b - dt).toNat)
  else if e.op == 4 then
    let dt := max (wf e.w2 11 0 * 2 ^ 20 + e.w1.toNat) (if wf e.w0 15 15 == 1 then drain else 0)
    (dt, drain - dt)
  else (0, drain)

end Machine

open Machine

/-- The entry after one, with the wrap of R50. -/
def Page.after (p : Page) (i : Nat) : Nat := if p.count ≤ i + 1 then 0 else i + 1

/-- The entry of a spot. -/
def Page.at (p : Page) (x : Spot) : Entry := p.entries.getD x.idx default

/-- The spots that can follow (R559): both outcomes of a BRANCH on a flag, what a loop counter gives, a PAGE IMMEDIATE as a jump
within the page. As the end of the path it has nothing after it. -/
def Page.follow (p : Page) (x : Spot) : List Spot :=
  let e := p.at x
  let on : Spot := { x with idx := p.after x.idx }
  if e.op == 7 then
    let jump : Spot := { x with idx := wf e.w1 11 0 }
    if wf e.w0 9 9 == 1 then
      let n := wf e.w0 8 7
      let v := x.lcs.getD n 0
      let v' := if v == 0 then wf e.w2 11 0 else v - 1
      let y := if (v' != 0) != (wf e.w0 10 10 == 1) then jump else on
      [{ y with lcs := x.lcs.set n v' }]
    else [jump, on]
  else if e.op == 8 && wf e.w0 14 13 == 0 then
    [{ x with idx := if p.count ≤ wf e.w1 11 0 then 0 else wf e.w1 11 0 }]
  else [on]

/-- The spots at which paths begin. -/
def Page.starts (p : Page) : List Spot := (List.range p.count).map fun i => ⟨i, [0, 0, 0, 0]⟩

/-- Every spot of every path. -/
def Page.spots (p : Page) : List Spot := explore (· == ·) p.follow pathFuel p.starts []

/-! ### Untimed entries (R53, R81) -/

/-- The longest run of untimed entries from a spot on, `n` at most. -/
def Page.untimed (p : Page) : Nat → Spot → Nat
  | 0, _ => 0
  | n + 1, x => if (p.at x).timed then 0 else 1 + ((p.follow x).map (p.untimed n)).foldl max 0

/-- No run of more than 8 untimed entries, and so none without end; the OFS of a SYNC leaves 64 ns and 25 ns for each untimed entry
before the next timed one (R81). -/
def Page.runsOk (p : Page) : Bool :=
  p.spots.all fun x =>
    Nat.ble (p.untimed 9 x) 8 &&
    ((p.at x).op != 6 || (p.follow x).all fun y => Nat.ble (64 + 25 * p.untimed 9 y) (p.at x).w1.toNat)

/-! ### Straight runs (R52, R81) -/

/-- How far execution has come since the T of an entry: the spot, the time, what is left of the drain bound, and whether a fire has
followed. -/
structure Leg where
  spot  : Spot
  time  : Nat
  drain : Nat
  fired : Bool
  deriving DecidableEq, Repr

/-- No interval of R52 reaches further than this, in ns, the dither of both fires included. -/
def legEnd : Nat := 4700

/-- The legs that follow. A straight run ends at a SYNC, which moves T by an event (R52). -/
def Page.legs (p : Page) (g : Leg) : List Leg :=
  let e := p.at g.spot
  if e.op == 6 || legEnd ≤ g.time then []
  else
    let (dt, drain) := roadStep p.pitch true e g.drain
    (p.follow g.spot).map fun y => ⟨y, g.time + dt, drain, g.fired || e.op == 1⟩

/-- Worst-case dither of an entry: only a FIRE has one. -/
def ditherOf (e : Entry) : Int := if e.op == 1 then wf e.w1 12 5 else 0

/-- The entry of a leg keeps its distance from entry `o` at the leg's beginning, with the worst-case dither of both (R52, R81): the
row period, the fire interval to the next fire, whose burst lasts `last` quarters of a ns, and the group's window. -/
def legOk (o : Entry) (last : Nat) (e : Entry) (g : Leg) : Bool :=
  let gap : Int := g.time - ditherOf e - ditherOf o
  let fires := o.op == 1 && e.op == 1
  (!fires || wf e.w0 15 13 != wf o.w0 15 13 || decide (2000 ≤ gap)) &&
  (!fires || g.fired || decide ((last : Int) + 96 ≤ 4 * gap)) &&
  (!opens e || !((entryGroups e).any fun k => (entryGroups o).contains k) ||
    decide ((if o.op == 1 then entryBound o 0 else (entryWin o : Int)) ≤ gap))

/-- Every straight run from an entry that opens a window. -/
def Page.straightOk (p : Page) (s : State) : Bool :=
  p.spots.all fun x =>
    let o := p.at x
    !opens o ||
      let last := 4 * ((s.burstOfs (wf o.w0 9 6)).getLast?.getD 0) + wf o.w1 19 13
      let (dt, drain) := roadStep p.pitch true o 0
      let from0 := (p.follow x).map fun y => (⟨y, dt, drain, false⟩ : Leg)
      (explore (· == ·) p.legs pathFuel from0 []).all fun g => legOk o last (p.at g.spot) g

/-! ### The close rate (R188) -/

/-- A path with its open histograms: the counted shots of each emitter, by 8 · row + column, whose four ports close together, and
whether a frame is open. -/
structure Tally where
  spot   : Spot
  shots  : List Nat
  frame  : Bool
  drain  : Nat
  deriving DecidableEq, Repr

/-- The emitters whose histograms the entry of a tally closes: at the Nth counted shot (R58, R59), or what a mark finds open (R64). -/
def Page.closes (p : Page) (x : Tally) : List Nat :=
  let e := p.at x.spot
  if e.op == 1 && wf e.w0 3 0 != 15 then
    (List.range 8).filterMap fun c =>
      let k := 8 * wf e.w0 15 13 + c
      if bitOf (wf e.w4 7 0) c && Nat.ble (wf e.w3 19 8) (x.shots.getD k 0) then some k else none
  else if e.op == 5 && (wf e.w0 14 13 != 0 || (wf e.w0 15 15 == 1 && x.frame)) then
    (List.range 64).filter fun k => x.shots.getD k 0 != 0
  else []

/-- The shots counted after the entry. -/
def Page.shotsAfter (p : Page) (x : Tally) : List Nat :=
  let e := p.at x.spot
  let closed := p.closes x
  let hit := fun k => e.op == 1 && wf e.w0 3 0 != 15 && k / 8 == wf e.w0 15 13 && bitOf (wf e.w4 7 0) (k % 8)
  (List.range 64).map fun k =>
    if closed.contains k then 0 else if hit k then x.shots.getD k 0 + 1 else x.shots.getD k 0

/-- The tallies that follow, with the time that passes: none where a SYNC waits, since T then follows an event. -/
def Page.tallies (p : Page) (x : Tally) : Option Nat × List Tally :=
  let e := p.at x.spot
  let (dt, drain) := roadStep p.pitch false e x.drain
  let frame := if e.op == 5 then (if wf e.w0 15 15 == 1 then true else x.frame && wf e.w0 13 13 == 0) else x.frame
  (if e.op == 6 then none else some dt,
   (p.follow x.spot).map fun y => ⟨y, p.shotsAfter x, frame, if e.op == 6 then 0 else drain⟩)

/-- Every tally of every path. -/
def Page.allTallies (p : Page) : List Tally :=
  explore (· == ·) (fun x => (p.tallies x).2) pathFuel
    (p.starts.flatMap fun y => [⟨y, List.replicate 64 0, true, 0⟩, ⟨y, List.replicate 64 0, false, 0⟩]) []

/-- The tallies that follow within the schedule, each with the time since a beginning. -/
def Page.onward (p : Page) (e : Tally × Nat) : List (Tally × Nat) :=
  match p.tallies e.1 with
  | (none, _) => []
  | (some dt, l) => l.map fun y => (y, e.2 + dt)

/-- The shortest spacing in ns between two consecutive closes of an emitter's histograms on any path, if it has one. -/
def Page.spacing (p : Page) (k : Nat) : Option Nat :=
  let begins := p.allTallies.filter fun x => (p.closes x).contains k
  let next := fun (e : Tally × Nat) => if (p.closes e.1).contains k then [] else p.onward e
  let from0 := begins.flatMap fun x => p.onward (x, 0)
  ((explore (fun a b => a.1 == b.1 && Nat.ble a.2 b.2) next pathFuel from0 []).filter fun e => (p.closes e.1).contains k).foldl
    (fun (m : Option Nat) e => some (match m with | none => e.2 | some v => min v e.2)) none

/-- The most histograms that the ports of the device close on a path in less than `span` ns from a close on. -/
def Page.mostCloses (p : Page) (span : Nat) : Nat :=
  let next := fun (e : (Tally × Nat) × Nat) => ((p.onward e.1).filter fun y => Nat.blt y.2 span).map fun y =>
    (y, e.2 + 4 * (p.closes y.1).length)
  let from0 := (p.allTallies.filter fun x => !(p.closes x).isEmpty).map fun x => ((x, 0), 4 * (p.closes x).length)
  ((explore (fun a b => a.1 == b.1 && Nat.ble b.2 a.2) next pathFuel from0 []).map Prod.snd).foldl max 0

/-- No port p and interval of its shortest spacing Δp, in µs, in which the device closes more than 16 · Δp histograms (R188). -/
def Page.closesOk (p : Page) : Bool :=
  ((List.range 64).filterMap p.spacing).eraseDups.all fun d => Nat.ble (1000 * p.mostCloses d) (16 * d)

/-- The page meets no condition of R81 and R188 that is judged along its paths. Its fire rate cannot exceed 4.0 M fires/s, since
every FIRE moves T by a PITCH of at least 250 ns (R50, R51). -/
def Page.pathsOk (p : Page) (s : State) : Bool := p.runsOk && p.straightOk s && p.closesOk

end Sys2Proof
end

