-- ==== Sys2Proof/Machine/Limits.lean ====
section
/-! DEFINITION. The ranges and encodings that the register tables and rules state (R555, R556), and the refusals of
Melaeloth that the boot loader repeats from the image alone (R81, R97, R188, R199, R227, R320, R388, R391, R501, R506). -/

namespace Sys2Proof

namespace Machine

/-- Bits hi to lo of the word held at an address. -/
def State.bitsAt (s : State) (a hi lo : Nat) : Nat := bitsOf (s.word a).toNat hi lo

/-- A value within its stated range. -/
def within (lo hi v : Nat) : Bool := Nat.ble lo v && Nat.ble v hi

/-! ### Ranges by block -/

/-- CTL: R89, R240. -/
def State.limit0 (s : State) (a : Nat) : Bool :=
  if a == 0x010F then Nat.ble 2000 (s.bitsAt a 19 0)
  else if a == 0x0120 then Nat.ble (s.bitsAt a 5 0) 32
  else if a == 0x0121 then Nat.ble 1024 (s.bitsAt a 19 0)
  else if a == 0x0126 then
    Nat.ble (s.bitsAt a 14 8) 64 && Nat.ble (s.bitsAt a 6 0) 64 && Nat.ble (s.bitsAt a 14 8 + s.bitsAt a 6 0) 128
  else true

/-- TBU: R444, R446, R455, R461. -/
def State.limit1 (s : State) (a : Nat) : Bool :=
  if a == 0x1001 then within 10000000 250000000 (s.rdWide a 2)
  else if a == 0x1006 then s.bitsAt a 19 0 != 0 && s.bitsAt a 19 0 != 0xFFFFF
  else if a == 0x1007 then within 1 1000 (s.bitsAt a 9 0)
  else if a == 0x1008 then within 1 200 (s.bitsAt a 7 0)
  else if a == 0x1009 then within 1 1000 (s.bitsAt a 9 0)
  else if a == 0x100A then within 10 10000 (s.bitsAt a 13 0)
  else if within 0x1020 0x1023 a then !ckBad (s.word a) s.fstaged
  else true

/-- The offsets of a burst code (R96). -/
def State.burstOk (s : State) (a : Nat) : Bool :=
  let p := s.bitsAt a 19 17 + 1
  let ofs := s.bitsAt a 7 0 :: (List.range 3).flatMap fun i => [s.bitsAt (a + 1 + i) 15 8, s.bitsAt (a + 1 + i) 7 0]
  let used := ofs.take (p - 1)
  (used.zip (used.drop 1)).all (fun e => Nat.blt e.1 e.2) && (ofs.drop (p - 1)).all (· == 0)

/-- EDU: R95, R96, R98, R105, R109, R111, R118. -/
def State.limit2 (s : State) (a : Nat) : Bool :=
  if a == 0x2004 then within 200 (s.rd F.EDU_HV_LIM_HV_MAX) (s.bitsAt a 9 0)
  else if a == 0x2005 then Nat.ble (s.bitsAt a 9 0) 600
  else if a == 0x2007 then
    let lo := signed 8 (s.bitsAt a 15 8)
    let hi := signed 8 (s.bitsAt a 7 0)
    decide (-40 ≤ lo) && decide (hi ≤ 105) && decide (lo + 10 ≤ hi)
  else if within 0x2008 0x200F a then Nat.ble (s.bitsAt a 9 0) (s.rd F.EDU_GMAX_GMAX)
  else if a == 0x2010 then s.bitsAt a 19 0 != 0
  else if within 0x210E 0x2113 a && a % 2 == 0 then Nat.ble (s.rdWide a 2) (s.rdWide (a - 6) 2)
  else if within 0x2200 0x223F a && a % 4 == 0 then s.burstOk a
  else true

/-- The register widths of the CIC (R250). -/
def State.cicOk (s : State) : Bool :=
  let sh := [0x3015, 0x3016].flatMap fun a => (List.range 5).map fun i => s.bitsAt a (19 - 4 * i) (16 - 4 * i)
  let b := s.cicB
  ((List.range (2 * s.cicN)).all fun j => Nat.ble b (64 + (sh.take (j + 1)).sum)) && Nat.ble b (24 + (sh.take (2 * s.cicN)).sum)

/-- STU and CEN: R242, R250, R265, R270 to R273. -/
def State.limit3 (s : State) (a : Nat) : Bool :=
  if a == 0x3002 then within 200 8000 (s.bitsAt a 12 0)
  else if a == 0x3003 then within 16 100 (s.bitsAt a 19 13) && s.bitsAt a 19 13 % 2 == 0
  else if a == 0x3005 || a == 0x3006 then
    s.bitsAt a 14 13 != 3 && Nat.ble (s.bitsAt a 12 9) 8 &&
      (s.bitsAt a 18 18 == 0 || Nat.ble (2 * s.rd F.STU_EXC_NEX + s.bitsAt a 12 9) 40)
  else if within 0x300C 0x300F a then Nat.ble 8192 (s.bitsAt a 13 0)
  else if a == 0x3014 then s.bitsAt a 19 18 != 3 && Nat.ble 7 (s.bitsAt a 17 9) && s.cicOk
  else if a == 0x3022 then s.bitsAt a 19 0 != 0
  else if a == 0x3023 then within 1 4096 (s.bitsAt a 12 0)
  else if a == 0x302B then within 4 255 (s.bitsAt a 7 0)
  else if a == 0x3081 || a == 0x3085 then within 1 1023 (s.bitsAt a 19 0)
  else if a == 0x3082 || a == 0x3086 then Nat.ble 40 (s.bitsAt a 17 8)
  else if a == 0x3089 || a == 0x308D then Nat.ble (s.bitsAt a 19 0) (s.rd F.EDU_HV_LIM_TON_MAX)
  else if a == 0x308A || a == 0x308E then s.bitsAt a 7 0 != 0
  else true

/-- RTA_PCFG: R160. -/
def State.limit4 (s : State) (a : Nat) : Bool :=
  if a % 16 == 0 then
    let mode := s.bitsAt a 18 17
    let wmode := s.bitsAt a 16 15
    let hien := s.bitsAt a 10 10
    mode != 3 && wmode != 3 && (hien == 0 || mode == 0) && (wmode != 2 || hien == 1) && (wmode == 0 || mode != 2)
  else true

/-- RTA: R161, R163. -/
def State.limit5 (s : State) (a : Nat) : Bool :=
  if a == 0x5001 then s.bitsAt a 1 0 != 0
  else if a == 0x5002 then Nat.ble 0x1E848 (s.bitsAt a 19 0)
  else if a == 0x5006 then s.bitsAt a 7 0 != 0
  else if a == 0x5007 then s.bitsAt a 7 0 != 0
  else if a == 0x5010 then Nat.ble (s.bitsAt a 8 0) 275
  else if a == 0x5012 then s.bitsAt a 19 0 != 0
  else true

/-- A filter table (R199, R200): the centre tap below NT, SEP at least 1, not all coefficients 0. -/
def State.filterOk (s : State) (a : Nat) : Bool :=
  let nt := s.bitsAt a 19 15 + 1
  Nat.blt (s.bitsAt a 14 10) nt && s.bitsAt (a + 1) 11 4 != 0 && (List.range nt).any fun i => s.bitsAt (a + 8 + i) 11 0 != 0

/-- The ambient ladder (R227) at level i. -/
def State.levelOk (s : State) (i : Nat) : Bool :=
  let lvl := s.rd (F.RPE_AMBLVL_LVL i)
  let used := !(lvl == 0xFFFFF && s.rd (F.RPE_AMBSTEP_STEP i) == 0)
  Nat.blt (s.rd (F.RPE_AMBREL_REL i)) lvl && (!used || i == 0 || Nat.blt (s.rd (F.RPE_AMBLVL_LVL (i - 1))) lvl)

/-- RPE: R188, R191, R199, R220, R225, R227, R239. -/
def State.limit6 (s : State) (a : Nat) : Bool :=
  if a == 0x6000 then Nat.ble (s.bitsAt a 3 0) 10
  else if a == 0x6014 then within 1 8 (s.bitsAt a 3 0)
  else if a == 0x6040 then s.bitsAt a 19 18 != 3 && within 10 1023 (s.bitsAt a 9 0)
  else if a == 0x6041 then
    let d := (s.rd F.RPE_AMBCFG_RAM1 + 1) ^ (s.rd F.RPE_AMBCFG_NAM1 + 1)
    s.rdWide a 2 == rdiv (2 ^ 30) d
  else if a == 0x6043 then s.bitsAt a 7 0 != 0
  else if a == 0x6044 then s.bitsAt a 9 0 != 0
  else if within 0x6048 0x604F a then s.levelOk (a - 0x6048)
  else if a == 0x6060 then Nat.ble 2 (s.bitsAt a 19 12)
  else if a == 0x6062 then Nat.ble (s.rd F.RPE_FOR_PMIN_FPMIN) (s.bitsAt a 19 0)
  else if a == 0x6063 then within 1 256 (s.bitsAt a 8 0) && s.bitsAt a 19 12 != 0
  else if within 0x6400 0x67FF a && a % 64 == 0 then s.filterOk a
  else true

/-- CAP, FSO, LNK, SAF, housekeeping and security: R322, R332, R338, R363, R439, R312, R501, R514, R492 to R494. -/
def State.limitHigh (s : State) (a : Nat) : Bool :=
  if a == 0x7003 then s.bitsAt a 17 16 != 3 && Nat.ble (s.bitsAt a 14 11) 8
  else if a == 0x7007 then s.bitsAt a 19 0 != 0
  else if a == 0x8001 then s.bitsAt a 19 18 != 3
  else if a == 0x8002 then s.bitsAt a 19 0 != 0
  else if a == 0x8003 then Nat.ble 100 (s.bitsAt a 19 0)
  else if a == 0xB003 then within 10 10000 (s.bitsAt a 13 0)
  else if a == 0xB004 then Nat.ble 1000 (s.bitsAt a 19 0)
  else if within 0xB010 0xB017 a then Nat.ble (s.bitsAt a 13 11) 5
  else if a == 0xC009 then s.bitsAt a 8 4 == 0 || s.flag F.STU_SNS_M_EN
  else if a == 0xC00A then Nat.ble (s.bitsAt a 5 0) 40
  else if a == 0xC00C then within 20 1000 (s.bitsAt a 9 0)
  else if a == 0xC00D then within 20 100 (s.bitsAt a 6 0)
  else if a == 0xC00E then within 500 10000 (s.bitsAt a 13 0)
  else if a == 0xC011 then s.bitsAt a 19 0 != 0
  else if a == 0xD007 then Nat.ble (s.bitsAt a 19 17) 3
  else if a == 0xD009 then Nat.ble (s.bitsAt a 3 0) 11
  else if a == 0xF02D then s.bitsAt a 19 18 != 3
  else if a == 0xF05B then s.bitsAt a 10 0 % 2 == 0
  else if a == 0xF080 then s.bitsAt a 19 18 != 3
  else true

/-- The least PERIOD in µs (R501) with a round conversion time of `c` µs: n is 23 plus the external inputs. -/
def State.leastPeriod (s : State) (c : Nat) : Nat := (23 + (setBits (s.rd F.CTL_HK_AIN_AINMASK) 13).length) * (2 * c + 1)

/-- PERIOD, LP and AINMASK hold together (R501). -/
def State.roundOk (s : State) (lp : Bool) : Bool :=
  within 250 100000 (s.rd F.CTL_HK_CFG_PERIOD) && Nat.ble (s.leastPeriod (if lp then 4 else 1)) (s.rd F.CTL_HK_CFG_PERIOD)

/-- The word at an address lies within the range and encoding stated for it (R555), judged with the other registers as
they stand. -/
def State.limitOk (s : State) (a : Nat) : Bool :=
  match a / 4096 with
  | 0 => s.limit0 a
  | 1 => s.limit1 a
  | 2 => s.limit2 a
  | 3 => s.limit3 a
  | 4 => s.limit4 a
  | 5 => s.limit5 a
  | 6 => s.limit6 a
  | _ => if a == 0xD002 || a == 0xD003 then s.roundOk (s.flag F.CTL_HK_CFG_LP) else s.limitHigh a

/-! ### Entries of the Cutting List (R55, R61 to R65, R68, R72, R81, R146, R188, R234) -/

/-- What the checks of an entry refer to besides it: the registers as loaded, its page, the largest COUNT in the library. -/
structure EntryCtx where
  s     : State
  count : Nat
  most  : Nat

/-- The window of an entry in ns (R55): 0 stands for 4,096. -/
def winLen (win : Nat) : Nat := if win == 0 then 4096 else 4 * win

/-- The gap rule of R97: at least 2 ns between the end of a sub-pulse and the start of the next, in quarters of a ns. -/
def gapOk (ofs : List Nat) (pw : Nat) : Bool := (ofs.zip (ofs.drop 1)).all fun e => Nat.ble (4 * e.1 + pw + 8) (4 * e.2)

/-- A FIRE entry. -/
def EntryCtx.fireOk (c : EntryCtx) (e : Entry) : Bool :=
  let bink := wf e.w0 3 0
  let pw := wf e.w1 19 13
  let win := wf e.w2 19 10
  let ofs := c.s.burstOfs (wf e.w0 9 6)
  (Nat.ble bink 10 || bink == 15) && within 4 127 pw && Nat.ble (wf e.w3 7 0) 224 &&
  (wf e.w0 4 4 == 0 || wf e.w4 19 8 == 0) &&
  (bink != 15 || (wf e.w3 19 8 == 0 && wf e.w0 5 5 == 0 && Nat.ble ofs.length 1)) &&
  (win == 0 || (Nat.blt (wf e.w1 4 0) (2 * win) && Nat.blt (wf e.w2 9 0) win)) && gapOk ofs pw

/-- A LISTEN entry. -/
def EntryCtx.listenOk (_ : EntryCtx) (e : Entry) : Bool :=
  (wf e.w0 12 12 == 0 || wf e.w0 15 13 == 0) && wf e.w0 9 4 == 0 && Nat.ble (wf e.w0 3 0) 10 &&
  wf e.w1 13 0 == 0 && wf e.w2 9 0 == 0 && e.w3 == 0 && e.w4 == 0

/-- A CAL entry; DELAY lies at least 8 ns inside the window (R146). -/
def EntryCtx.calOk (_ : EntryCtx) (e : Entry) : Bool :=
  (wf e.w0 12 12 == 0 || wf e.w0 15 13 == 0) && wf e.w0 8 0 == 0 && wf e.w1 9 0 == 0 && wf e.w3 9 0 == 0 && e.w4 == 0 &&
  within 2048 (256 * (winLen (wf e.w3 19 10) - 8)) e.w2.toNat

/-- A WAIT entry. -/
def EntryCtx.waitOk (_ : EntryCtx) (e : Entry) : Bool :=
  wf e.w0 14 0 == 0 && wf e.w2 19 12 == 0 && e.w3 == 0 && e.w4 == 0

/-- A MARK entry. -/
def EntryCtx.markOk (_ : EntryCtx) (e : Entry) : Bool :=
  wf e.w0 11 8 == 0 && e.w1 == 0 && e.w2 == 0 && e.w3 == 0 && e.w4 == 0

/-- A SYNC entry; a slot is one that the device owns (R234). -/
def EntryCtx.syncOk (c : EntryCtx) (e : Entry) : Bool :=
  let arg := wf e.w0 11 4
  let slotn := c.s.rd F.CTL_SLOT_CFG_SLOTN
  wf e.w0 3 0 == 0 && e.w3 == 0 && e.w4 == 0 &&
  match wf e.w0 15 12 with
  | 0 => arg == 0
  | 1 => Nat.ble arg 3
  | 2 => Nat.ble arg 7
  | 3 => Nat.ble arg 31 && Nat.blt arg slotn && bitOf c.s.slotMask.toNat arg
  | 4 => true
  | 5 => Nat.ble arg 2
  | 6 => arg == 0
  | _ => false

/-- A BRANCH entry. -/
def EntryCtx.branchOk (c : EntryCtx) (e : Entry) : Bool :=
  wf e.w0 5 0 == 0 && wf e.w1 19 12 == 0 && wf e.w2 19 12 == 0 && e.w3 == 0 && e.w4 == 0 &&
  Nat.ble (wf e.w0 15 11) 0x19 && (wf e.w0 9 9 == 0 || wf e.w0 15 11 == 0) && Nat.blt (wf e.w1 11 0) c.count

/-- A PAGE entry. -/
def EntryCtx.pageOk (c : EntryCtx) (e : Entry) : Bool :=
  wf e.w0 12 0 == 0 && wf e.w1 19 12 == 0 && e.w2 == 0 && e.w3 == 0 && e.w4 == 0 &&
  Nat.ble (wf e.w0 14 13) 1 && Nat.blt (wf e.w1 11 0) c.most

/-- An entry meets no condition of R81, R97, R146, R188 or R234 that it shows by itself. -/
def EntryCtx.ok (c : EntryCtx) (e : Entry) : Bool :=
  match e.op with
  | 1 => c.fireOk e
  | 2 => c.listenOk e
  | 3 => c.calOk e
  | 4 => c.waitOk e
  | 5 => c.markOk e
  | 6 => c.syncOk e
  | 7 => c.branchOk e
  | 8 => c.pageOk e
  | _ => false

end Machine

/-- A library page (R50, R81). -/
def Page.ok (p : Page) (s : Machine.State) (most : Nat) : Bool :=
  p.fmtMaj == 2 && Machine.within 1 4096 p.count && Machine.within 250 4095 p.pitch && p.entries.all (Machine.EntryCtx.ok ⟨s, p.count, most⟩) && p.pathsOk s

/-- The rows that a page fires. -/
def Page.rows (p : Page) : List Nat := (p.entries.filter fun e => e.op == 1).map fun e => wf e.w0 15 13

/-- The bin widths of the histograms of a page (R178, R199): those of its FIRE entries, and ZCBINK where one has ZOOM. -/
def Page.binks (p : Page) (zc : Nat) : List Nat :=
  p.entries.flatMap fun e =>
    if e.op == 1 && Nat.ble (wf e.w0 3 0) 10 then (if wf e.w0 5 5 == 1 then [wf e.w0 3 0, zc] else [wf e.w0 3 0]) else []

namespace Machine

/-! ### The image as a whole -/

/-- Two spans of bursts share one. -/
def overlaps (a b : Nat × Nat) : Bool := a.2 != 0 && b.2 != 0 && Nat.blt a.1 (b.1 + b.2) && Nat.blt b.1 (a.1 + a.2)

/-- No two of a list of spans overlap (R320, R388). -/
def disjoint : List (Nat × Nat) → Bool
  | [] => true
  | a :: l => l.all (fun b => !overlaps a b) && disjoint l

/-- The partitions of subchannel A: HIST and the capture regions (R320, R388). -/
def State.partsA (s : State) : List (Nat × Nat) := (0, 2 ^ 21) :: (List.range 4).map fun n => (s.regBase n, s.regSize n)

/-- The partitions of subchannel B: TBL, CTX, the frame slots and EXP (R388). -/
def State.partsB (s : State) : List (Nat × Nat) :=
  (s.mem.tblAt, tblBursts) :: (s.mem.ctxAt, ctxBursts) :: s.mem.expAt :: s.fso.frm

/-- The 16 turns of a rotation (R390, R402): 5 to a word from bit 19 down. -/
def State.turns (s : State) (a : Nat) : List Nat := (List.range 16).map fun k => s.bitsAt (a + k / 5) (19 - 4 * (k % 5)) (16 - 4 * (k % 5))

/-- Every client of a subchannel has a turn, and no turn has another code (R390, R391). -/
def State.rotationOk (s : State) (a clients : Nat) : Bool :=
  (s.turns a).all (fun x => Nat.blt x clients) && (List.range clients).all fun c => (s.turns a).contains c

/-- No client's largest load exceeds its share of the turn floor (R390, R391): at 3,200 MT/s, the lowest rate that every image
permits, a subchannel has 140 M turns/s, and one turn of its rotation gives 8,750,000 of them. -/
def State.loadsOk (s : State) (loads : List (Nat × Nat × Nat)) : Bool :=
  loads.all fun l =>
    Nat.ble l.2.2 (8750000 * ((s.turns (if l.1 == 0 then 0xA004 else 0xA008)).filter (· == l.2.1)).length)

/-- The L1 burst period of each bank against URGDLY (R501), with a conversion time of `c` µs. -/
def State.burstPeriodOk (s : State) (c : Nat) : Bool :=
  (List.range 2).all fun b => Nat.ble (s.rd F.CTL_HK_URG_URGDLY + 1000 * c + 2000) (2 * s.rd (F.CEN_L1_LIM_LIM b))

/-- The bias table's temperatures ascend (R514). -/
def State.biasOk (s : State) : Bool :=
  (List.range 15).all fun i => decide (s.rdZ (F.CTL_HK_BTAB_TCODE (2 * i)) < s.rdZ (F.CTL_HK_BTAB_TCODE (2 * i + 2)))

/-- FSYNC_IN is used (R163), and the trigger TDCs that time it. -/
def State.fsyncOk (s : State) (pages : List Page) : Bool :=
  let n := ((List.range 4).filter fun k => s.flag (F.RTA_FCFG_T_SRC k)).length
  let uses := Nat.ble (s.rd F.FSO_CFG_FSMODE) 1 || ((List.range 8).any fun l => s.rd (F.LNK_TB_SRC l) == 4) ||
    pages.any fun p => p.entries.any fun e => e.op == 6 && wf e.w0 15 12 == 0
  Nat.ble n 1 && (!uses || n == 1)

/-- An ETH lane shares its aggregate with no other lane (R422). -/
def State.aggOk (s : State) : Bool :=
  (List.range 8).all fun l => s.rd (F.LNK_LCFG_MODE l) != 2 ||
    (List.range 8).all fun m => m == l || s.rd (F.LNK_LCFG_MODE m) == 0 || s.rd (F.LNK_LCFG_AGG m) != s.rd (F.LNK_LCFG_AGG l)

/-- The transmit equaliser of a lane within its limits (R405). -/
def firOk (w : Word) : Bool := Nat.ble 24 (wf w 13 8) && Nat.ble (wf w 19 16 + wf w 13 8 + wf w 4 0) 63

/-- MODE 11b of a data lane is no encoding (R441), and every lane's equaliser keeps its limits. -/
def State.lanesOk (s : State) : Bool :=
  ((List.range 8).all fun l => s.rd (F.LNK_LCFG_MODE l) != 3) && (List.range 12).all fun l => firOk (s.word (0xB102 + 32 * l))

/-- The profile records (R506, R507): the start profile is defined and names the start page and entry, every defined
record's entry lies in its page, and no page fires a row that its profile gates. -/
def State.profilesOk (s : State) (i : Image) : Bool :=
  let sp := i.startProfile
  let recOk := fun k =>
    match assoc i.library (s.rd (F.CTL_PROF_REC_LIB k)) with
    | none => false
    | some p => Nat.blt (s.rd (F.CTL_PROF_ENT_ENTRY k)) p.count && p.rows.all fun r => bitOf (s.rd (F.CTL_PROF_REC_ROWMASK k)) r
  Nat.ble sp 4 && s.flag (F.CTL_PROF_REC_DEF sp) && s.rd (F.CTL_PROF_REC_LIB sp) == i.startLib &&
  s.rd (F.CTL_PROF_ENT_ENTRY sp) == i.startEntry && (List.range 5).all fun k => !s.flag (F.CTL_PROF_REC_DEF k) || recOk k

/-- The round fits its period with the LP of CONFIG and of every defined profile (R501). -/
def State.roundsOk (s : State) : Bool :=
  (s.flag F.CTL_HK_CFG_LP :: ((List.range 5).filter fun k => s.flag (F.CTL_PROF_REC_DEF k)).map fun k => s.flag (F.CTL_PROF_REC_HKLP k)).all
    fun lp => s.roundOk lp && s.burstPeriodOk (if lp then 4 else 1)

/-- The image's stream definitions pass the checks of a commit (R355) with every page of the library. -/
def State.defsOk (s : State) (i : Image) : Bool :=
  let s := s.modFso fun f => { f with frm := i.frm, ptRate := i.ptRate }
  let s := (List.range 4).foldl (fun (s : State) n => s.wrWords (0x8050 + 32 * n) ((s.staged n).zipIdx.map fun e => defMask e.2 e.1)) s
  i.library.all fun e =>
    let s := s.modSeq fun q => { q with actB := false, pageA := { e.2 with lib := e.1 } }
    (List.range 4).all fun n => s.judgeDef n (s.actDef n) == .ok

/-- The library and its pages (R77, R81, R188, R199, R473). -/
def State.libraryOk (s : State) (i : Image) : Bool :=
  let pages := i.library.map Prod.snd
  let most := (pages.map Page.count).foldl max 0
  let clist := ((i.sections.filter fun x => x.typ == 3).map SecEntry.olen).sum
  let table := fun k => 0x6400 + 64 * s.rd (F.RPE_MFSEL_TAB k)
  Nat.ble i.library.length 16 && i.library.all (fun e => Nat.ble e.1 15 && e.2.ok s most) &&
  ((assoc i.library i.startLib).any fun p => Nat.blt i.startEntry p.count) && (assoc i.library i.pageB).isSome &&
  Nat.ble (clist + i.datum.length) 1048576 && s.fsyncOk pages &&
  pages.all fun p => (p.binks (s.rd F.RPE_HCFG_ZCBINK)).all fun k => i.values.any fun v => within (table k) (table k + 63) v.1

/-- The zone sets (R278, R279): no TYPE 11b, limits that fit their tables, ports and sectors that exist. -/
def zonesOk (i : Image) : Bool :=
  i.zones.all fun z => Nat.ble z.1 15 && z.2.cells.all fun e =>
    Nat.blt (cellPort e.1) 256 && e.2.typ != .notAllowed && Nat.blt e.2.anear (2 ^ 20) && Nat.blt e.2.afar (2 ^ 20) &&
      Nat.blt e.2.hnear (2 ^ 17) && Nat.blt e.2.hfar (2 ^ 17)

/-- The addresses whose range is stated and whose value the image gives. -/
def limited : List Nat :=
  [0x010F, 0x0120, 0x0121, 0x0126, 0x1001, 0x1006, 0x1007, 0x1008, 0x1009, 0x100A, 0x2004, 0x2005, 0x2007, 0x2010, 0x210E, 0x2110, 0x2112,
   0x3002, 0x3003, 0x3005, 0x3006, 0x3014, 0x3022, 0x3023, 0x302B] ++
  [0x3081, 0x3082, 0x3085, 0x3086, 0x3089, 0x308A, 0x308D, 0x308E, 0x5001, 0x5002, 0x5006, 0x5007, 0x5012, 0x6000, 0x6014, 0x6040,
   0x6041, 0x6043, 0x6044, 0x6060, 0x6062, 0x6063, 0x7007, 0x8001, 0x8002, 0x8003] ++
  [0xB003, 0xB004, 0xC009, 0xC00A, 0xC00C, 0xC00D, 0xC00E, 0xC011, 0xD007, 0xD009] ++
  (List.range 4).map (0x1020 + ·) ++ (List.range 8).map (0x2008 + ·) ++ (List.range 16).map (0x2200 + 4 * ·) ++
  (List.range 4).map (0x300C + ·) ++ (List.range 256).map (0x4000 + 16 * ·) ++ (List.range 8).map (0x6048 + ·) ++
  (List.range 16).map (0x6400 + 64 * ·) ++ (List.range 8).map (0xB010 + ·)

/-- The words with a field whose reset is "image" and for which no default is stated (R557), in ascending order of address, as first
addresses and counts. MINOR of CTL_SEQ_FMT is not among them: the Cutting List gives it. -/
def requiredSpans : List (Nat × Nat) :=
  [(0x0005, 1), (0x0120, 4), (0x0126, 1), (0x0138, 5), (0x0140, 5), (0x0148, 5), (0x1001, 4), (0x1006, 1), (0x1020, 4), (0x2002, 4),
   (0x2008, 9), (0x2012, 1), (0x2040, 64), (0x2100, 2), (0x2108, 12), (0x3002, 5), (0x3008, 17), (0x3021, 6), (0x302A, 2), (0x3038, 3),
   (0x3041, 1), (0x3043, 4), (0x3053, 4), (0x3063, 4), (0x3080, 16), (0x3092, 2), (0x3096, 2)] ++
  ((List.range' 0 256).map (fun p => (0x4000 + 16 * p, 3)) ++
  ([(0x5005, 1), (0x5013, 1), (0x5028, 4), (0x5400, 1024), (0x6018, 8), (0x6020, 11), (0x6040, 3), (0x6044, 2), (0x6048, 24), (0x6061, 3),
    (0x6200, 256), (0x7003, 26), (0x8001, 5), (0x8040, 11), (0x8060, 11), (0x8080, 11), (0x80A0, 11), (0xA001, 1), (0xA004, 8), (0xB002, 1),
    (0xB006, 1), (0xB010, 8), (0xB01B, 1), (0xB030, 4)] ++
  ((List.range' 0 8).flatMap (fun l => [(0xB100 + 32 * l, 1), (0xB102 + 32 * l, 1)]) ++
  ((List.range' 0 4).map (fun k => (0xB202 + 32 * k, 1)) ++ [(0xC008, 3), (0xC010, 2), (0xD002, 3), (0xD007, 3), (0xD010, 48)]))))

/-- The words of `requiredSpans`. -/
def required : List Nat := requiredSpans.flatMap fun e => List.range' e.1 e.2

/-- A list in ascending order of address gives a word for each of these addresses, in the same order. -/
def covers : List Nat → List (Nat × Word) → Bool
  | [], _ => true
  | _ :: _, [] => false
  | a :: r, v :: vs => if v.1 == a then covers r vs else covers (a :: r) vs

/-- The image passes every refusal that can be judged from it alone (R556); `s` holds the register values as loaded. -/
def State.contentOk (s : State) (i : Image) : Bool :=
  covers required i.values && i.startOfs.length == 8 && (i.pageSafe.all fun e => s.figuresOk e.2) && limited.all s.limitOk && s.libraryOk i && s.profilesOk i && s.roundsOk && s.biasOk &&
  s.aggOk && s.lanesOk && zonesOk i && disjoint s.partsA && disjoint ((i.tbl, tblBursts) :: (i.ctx, ctxBursts) :: i.exp :: i.frm) && s.loadsOk i.loads && s.rotationOk 0xA004 5 && s.rotationOk 0xA008 6 &&
  s.judgeSetup == .ok && s.defsOk i

end Machine

end Sys2Proof
end

