-- ==== Sys2Proof/Machine/Reset.lean ====
section
/-! DEFINITION. Resets, thermal shutdown and boot failure (R46, R466, R504, R505, R531, R541, R550, R554). -/

namespace Sys2Proof.Machine



/-- CTL_RESET_CAUSE with LAST and the sticky bits (R533). -/
def causeWord (last bits : Nat) : Word := mkWord [(17, last), (0, bits % 16)]

/-- The sticky bits of CTL_RESET_CAUSE. -/
def State.stickyCauses (s : State) : Nat := bitsOf (s.word 0x0002).toNat 3 0

/-- RESET (R46, R531): everything returns to its reset value but the Clamp record of the retention store (R300), the levels
of the safety inputs, the OTP (R476) and CTL_RESET_CAUSE. -/
def State.resetTo (s : State) (cause : Word) : State :=
  let z := State.reset
  let v := s.saf
  let saf := { z.saf with retained := v.retained, in0 := v.in0, in1 := v.in1, in2 := v.in2, in3 := v.in3,
                          edmA := v.edmA, edmB := v.edmB, edmAt := v.edmAt }
  let boot := { z.boot with otp := s.boot.otp, fused := s.boot.fused }
  ({ z with clk := s.clk, tofs := -(s.clk : Int), free := s.free, pending := s.pending, goodAt := s.goodAt,
            saf := saf, boot := boot }).setWord 0x0002 cause

/-- RESET_N (R531, R550, R554): low for `low` ns from t on. Below 100 ns it is ignored, from 1 µs on accepted, between them
either. It does not shorten THERMAL (R505), and a reset that a rail caused keeps LAST. -/
def execResetN (t : Nat) (low : Nat) (s : State) : Host.Outcome State Fault Refusal :=
  let s := s.begin t
  let (v, s') := s.draw
  let s := if within 100 999 low then s' else s
  if Nat.blt low 100 || (Nat.blt low 1000 && v % 2 == 0) then .next s
  else
    let s := s.setGoodAt (max s.goodAt (s.clk + low))
    if s.dev == .thermal then .next s
    else
      let last := if s.dev == .reset && bitsOf (s.word 0x0002).toNat 19 17 == 0 then 0 else 1
      .next (s.resetTo (causeWord last (s.stickyCauses ||| 4)))

/-- RAIL_LOSS (R531, R541, R554): a rail has stayed below its fail level for 1 µs. After the loss of VDD_CORE only POWER is
set, besides the bit of a cause that coincides. -/
def execRailLoss (t : Nat) (rail : Rail) (s : State) : Host.Outcome State Fault Refusal :=
  let s := s.begin t
  let both := (if s.dev == .reset && Nat.blt s.clk s.goodAt then s.stickyCauses &&& 4 else 0) |||
    (if s.dev == .thermal && s.hk.coolAt == some s.clk then 2 else 0)
  let bits := if rail == .vddCore then 8 ||| both else s.stickyCauses ||| 8 ||| both
  .next ((s.setGoodAt (max s.goodAt s.clk)).resetTo (causeWord 0 bits))

/-- WATCHDOG (R531): the management core has not served it for 100 ms. After a boot failure the core runs no firmware, and
only RESET_N or a rail leaves that state (R466); RESET_N alone does not shorten THERMAL (R505), nor does the watchdog. -/
def execWatchdog (t : Nat) (s : State) : Host.Outcome State Fault Refusal :=
  let s := s.begin t
  if s.dev == .reset || s.dev == .thermal || s.boot.failed then .next s
  else .next (s.resetTo (causeWord 3 (s.stickyCauses ||| 1)))

/-- RESET_RELEASE (R46, R463): every rail has been good for 2 ms with RESET_N high, and boot begins with its step REF. -/
def execResetRelease (t : Nat) (s : State) : Host.Outcome State Fault Refusal :=
  let s := s.begin t
  if s.dev != .reset || Nat.blt s.clk (s.goodAt + 2000000) then .next s
  else .next (s.setDev .boot).safEval

/-- A long operation that a thermal trip cuts short (R505, R524): DONE = 1, VALID = 0, ABORT = 1, and no event. -/
def State.abortOp (s : State) : State :=
  match s.mgmt.op with
  | none => s
  | some _ =>
    let s := ((s.put F.CTL_OPSTAT_DONE true).put F.CTL_OPSTAT_VALID false).put F.CTL_OPSTAT_ABORT true
    ((s.modMgmt fun x => { x with op := none }).modTbu fun b => { b with retune := false }).modSeq
      fun q => { q with loading := none }

/-- THERMAL_TRIP (R504): a die sensor's comparator reads 125 °C. No fire follows and the boost stops, lanes go into
electrical idle, memory into self-refresh, the SAF to INIT. -/
def execThermalTrip (t sensor : Nat) (s : State) : Host.Outcome State Fault Refusal :=
  let s := s.begin t
  if s.dev == .reset || s.dev == .thermal || Nat.ble 12 sensor then .next s
  else
    let s := s.abortOp.put F.CTL_PROFILE_SWPEND false
    let s := s.setDev .thermal
    let s := s.modSeq fun q => { q with st := .idle, fires := [], wins := [] }
    let s := s.modEdu fun e => { e with started := false, swSince := none, hvBurst := none }
    let s := (s.modHk fun h => { h with coolAt := some s.clk }).idleLanes
    .next (s.modMem fun m => { m with selfRef := true }).safInit.safEval

/-- THERMAL_RELEASE (R504, R531): every 105 °C comparator has read below for 1 s, so RESET follows with cause THERMAL. -/
def execThermalRelease (t : Nat) (s : State) : Host.Outcome State Fault Refusal :=
  let s := s.begin t
  if s.dev == .thermal && s.hk.coolAt.any fun x => Nat.ble (x + 1000000000) s.clk then
    .next (s.resetTo (causeWord 2 (s.stickyCauses ||| 2)))
  else .next s

/-- Boot fails with a cause (R465, R466). -/
def State.bootFail (s : State) (cause : Nat) : State :=
  let s := ((s.put F.CTL_BOOT_FAILED true).wr F.CTL_BOOT_CAUSE cause).put F.CTL_BOOT_MEMRUN false
  (s.modBoot fun b => { b with failed := true }).idleLanes.safEval

/-- Boot goes on (R463): the device is in BOOT and has not failed. -/
def State.booting (s : State) : Bool := s.dev == .boot && !s.boot.failed

/-- MSTART_EXPIRY (R269, R465): L0 is not ARRIVED MSTART ms after the start; during boot this is a calibration failure. -/
def execMstartExpiry (t : Nat) (s : State) : Host.Outcome State Fault Refusal :=
  let s := s.begin t
  match s.stu.startAt with
  | none => .next s
  | some t0 =>
    if Nat.blt s.clk (t0 + 1000000 * s.rd F.STU_MSTART_MSTART) then .next s
    else
      let s := s.driveStop 3
      .next (if s.booting then s.bootFail 0x0D else s)

/-- The fastest of the read modes that the table advertises, at the highest clock that it permits up to 133 MHz (R467): the wider
mode, whatever its clock (log entry 199). -/
def Sfdp.readMode (f : Sfdp) : Option (Nat × Nat) :=
  (f.modes.filter fun m => Nat.blt m.1 4).foldl (fun (o : Option (Nat × Nat)) m =>
    match o with
    | some b => if Nat.blt b.1 m.1 then some (m.1, min 133 m.2) else o
    | none => some (m.1, min 133 m.2)) none

/-- BOOT_FLASH (R465, R467): the SFDP table is read, and the read mode and the width of addresses are set; flash above 128 MB is not
used. -/
def execBootFlash (t : Nat) (flash : Sfdp) (s : State) : Host.Outcome State Fault Refusal :=
  let s := s.begin t
  if !s.booting || !s.boot.refDone || s.boot.flashDone then .next s
  else if !flash.valid || !flash.readOk then .next (s.bootFail 0x01)
  else .next ((s.modBoot fun b => { b with
      flashDone := true, readMode := Sfdp.readMode flash, addr4 := Nat.blt (2 ^ 24) flash.density,
      density := min (2 ^ 27) flash.density, pageSize := flash.pageSize }).bootStep 2)

end Sys2Proof.Machine
end

