-- ==== Sys2Proof/Machine/Verify.lean ====
section
/-! DEFINITION. The step VERIFY of boot (R468 to R477, R484): the image's checks in the order in which the boot loader meets
them, and what a verified image puts into force. -/

namespace Sys2Proof

/-! ### What the image loads -/

namespace Machine

/-- RW fields whose reset value the image gives, by address. -/
def imageRw (a : Nat) : Bool :=
  [0x0005, 0x1003, 0x1004, 0x1007, 0x1008, 0x1009, 0x100A, 0x2002, 0x2004, 0x2012, 0x3004, 0x3041, 0x5001, 0x5002, 0x5003,
   0x5004, 0x5006, 0x5007, 0x6000, 0x6012, 0x6013, 0x6014, 0x6044, 0x8004, 0xD002, 0xD003, 0xD005].contains a ||
  within 0x1020 0x1023 a || within 0x2008 0x200F a || within 0x2040 0x207F a || within 0x3043 0x3046 a ||
  within 0x3053 0x3056 a || within 0x3080 0x3097 a || (within 0x4000 0x4FFF a && Nat.blt (a % 16) 3) ||
  within 0x5400 0x57FF a || within 0x6008 0x600F a || within 0x6060 0x6063 a || within 0x7003 0x701C a ||
  (within 0x8040 0x80BF a && Nat.ble ((a - 0x8040) % 32) 10) || (within 0xB100 0xB27F a && (a - 0xB100) % 32 == 2)

/-- The bits of the word at an address that the image loads: LK and SF fields, and RW fields whose reset value it gives. -/
def imageBits (a : Nat) : Word :=
  match RegMap.fieldsAt a with
  | none => 0
  | some fs =>
    RegMap.mask fs (fun x => x == .lk || x == .sf || (x == .rw && imageRw a)) |||
      (if within 0x5028 0x502B a then 0x00800 else if a == 0x3005 || a == 0x3006 then 0x18000 else 0)

/-- Bits that a word reads as 1 whatever is written (R526, R339). -/
def stuckBits (a : Nat) : Word := if a == 0x0005 then 0xC0000 else if a == 0x7004 then 0x08000 else 0

/-- Load one word of the image. -/
def State.loadWord (s : State) (a : Nat) (w : Word) : State :=
  let m := imageBits a
  s.setWord a ((s.word a &&& ~~~m) ||| ((w ||| stuckBits a) &&& m))

/-- Stated defaults that CONFIG may omit (R557) and that the words do not hold from reset on: those of the SAF and of L2's BAND. Every
other stated default stands in the register map as the reset value. -/
def imageDefaults : List (Nat × Word) :=
  [(0x3090, 20), (0x3094, 20), (0xC00B, 5000), (0xC00C, 300), (0xC00D, 60), (0xC00E, 1000), (0xC00F, 100), (0xC012, 200), (0xC013, 2)]

/-- The registers as the image gives them, beside the stated defaults (R557). -/
def State.loadImage (s : State) (i : Image) : State := (imageDefaults ++ i.values).foldl (fun s v => s.loadWord v.1 v.2) s

end Machine

/-! ### The checks (R465, R470, R471, R475, R476) -/

/-- Format, member and section types (R471): MAGIC is "TMDM". -/
def Image.versionOk (i : Image) : Bool :=
  i.magic == 0x4D444D54#32 && i.fmtMaj == 3 && Nat.ble i.fmtMin 4 && i.member == 8 &&
    i.sections.all fun e => Machine.within 1 8 e.typ || e.optional

/-- IMGLEN (R468): bytes 12 to 15 of the header, the least significant first. -/
def Image.length (i : Image) : Nat :=
  (List.range 4).foldl (fun n k => n + (i.header.getD (12 + k) 0).toNat * 256 ^ k) 0

/-- The structure of the section table (R468 to R470). -/
def Image.structOk (i : Image) : Bool :=
  let known := (i.sections.filter fun e => Machine.within 1 8 e.typ).map SecEntry.typ
  Nat.ble i.length (2 ^ 27) && Machine.within 1 16 i.sections.length && known.Nodup && (List.range 6).all (fun k => known.contains (k + 1)) &&
  Machine.disjoint (i.sections.map fun e => (e.offset, e.slen)) &&
  i.sections.all fun e => e.slen % 3 == 0 && (e.comp || e.olen == e.slen / 3) && !(e.comp && (e.typ == 5 || e.typ == 6))

/-- The cause of R465 that a section meets while it is read: its decompression, then its digest (R472, R376). -/
def SecEntry.verdict (e : SecEntry) : Option Nat :=
  let bad : Option Nat := if e.comp then
      (match Machine.decompress e.olen e.words with | .ok _ => none | .expand => some 7 | .decErr => some 8)
    else none
  match bad with
  | some c => some c
  | none => if e.digest == e.sm3 then none else some 6

/-- The words that a section delivers to its destination (R366): decompressed, or as stored. -/
def SecEntry.content (e : SecEntry) : List Word :=
  if e.comp then (match Machine.decompress e.olen e.words with | .ok ws => ws | _ => []) else e.words

/-- The first section that meets a cause, in ascending address order (R467). -/
def Image.secVerdict (i : Image) : Option Nat :=
  ((i.sections.filter fun e => Machine.within 1 8 e.typ).mergeSort fun a b => Nat.ble a.offset b.offset).findSome? SecEntry.verdict

namespace Machine

/-- A hash slot is valid (R476). -/
def State.provisioned (s : State) : Bool := s.boot.otp.any Prod.snd

/-- The integrator key is accepted (R475, R476). -/
def State.keyOk (s : State) (i : Image) : Bool :=
  if s.provisioned then s.boot.fused == some i.ikeyHash else s.boot.otp.any fun e => !e.1

/-- The first cause of R465 that the image meets; `s'` holds its register values. -/
def State.judgeImage (s s' : State) (i : Image) : Option Nat :=
  if !i.versionOk then some 2
  else if !i.vsigOk then some 3
  else if !i.isigOk then some 4
  else if !s.keyOk i then some 5
  else match i.secVerdict with
    | some c => some c
    | none => if i.structOk && s'.contentOk i then none else some 9

/-! ### What a verified image puts into force -/

/-- The latest interim values lie in the range that R513 allows for 0 to 85 °C: 3 to 82 °C on every sensor. -/
def State.interimOk (s : State) : Bool := s.hk.interim.length == 12 && s.hk.interim.all fun x => decide (48 ≤ x) && decide (x ≤ 1312)

/-- The hash of the integrator key is fused to the first unprogrammed slot, or the fuse waits for the next boot (R476,
R477). -/
def State.fuse (s : State) (i : Image) : State :=
  if s.provisioned || !i.fuse then s
  else if !s.interimOk then s.put F.CTL_BOOT_FUSEDEF true
  else s.modBoot fun b => { b with
    otp := b.otp.set (b.otp.findIdx fun e => !e.1) (true, true), fused := some i.ikeyHash }

/-- PROV and CTL_KEYHASH (R477, R490, R492). -/
def State.noteKey (s : State) : State :=
  (s.put F.CTL_BOOT_PROV s.provisioned).wrWide 0xF020 13 (if s.provisioned then (s.boot.fused.getD 0).toNat else 0)

/-- The SHIM section (R484): accepted for this device or discarded whole. -/
def State.takeShims (s : State) (i : Image) : State :=
  if i.sections.all fun e => e.typ != 8 then s
  else if i.shimBind == wordsOf Config.identityHash.toNat 13 then
    (s.modBoot fun b => { b with shimSec := i.shims, shimOk := true }).put F.CTL_BOOT_SHIMIMG true
  else (s.put F.CTL_BOOT_SHIMDISC true).raise 0x4A .warn 0

/-- The digest of the safety or emission section as the channels computed it (R311): the image's where both agree with it. -/
def State.noteDigest (s : State) (a : Nat) (ok : Bool) (d : BitVec 256) : State :=
  if ok then s.wrWide a 13 d.toNat
  else
    let (v, s) := s.draw
    s.wrWide a 13 (v % 2 ^ 256)

/-- The digest of a section type. -/
def Image.digestOf (i : Image) (typ : Nat) : BitVec 256 :=
  ((i.sections.find? fun e => e.typ == typ).map SecEntry.digest).getD 0

/-- The safety section (R278, R291, R293, R311, R312). -/
def State.takeSafety (s : State) (i : Image) : State :=
  let s := s.modSaf fun v => { v with zones := i.zones, track := i.track, pageSafe := i.pageSafe, loaded := true, pressAt := s.clk,
                                      chA := { v.chA with digest := i.safDigA }, chB := { v.chB with digest := i.safDigB } }
  let s := (s.noteDigest 0xC030 (i.safDigA && i.safDigB) (Image.digestOf i 5)).noteDigest 0xC040 (i.safDigA && i.safDigB)
    (Image.digestOf i 6)
  if i.safDigA && i.safDigB then s else (s.modSaf fun v => { v with causes := (5 :: v.causes).dedup }).clamp 5

/-- CTL_IMGVER, CTL_SEQ_FMT and IMGDIG (R86, R488, R492). -/
def State.noteImage (s : State) (i : Image) : State :=
  let s := s.setWord 0xF001 (mkWord [(16, i.fmtMaj), (12, i.fmtMin), (4, i.member), (3, b2n i.fuse), (2, b2n i.nvmlock)])
  let p := (assoc i.library i.startLib).getD default
  let s := (s.wr F.CTL_SEQ_FMT_MAJOR p.fmtMaj).wr F.CTL_SEQ_FMT_MINOR p.fmtMin
  let bytes := i.header ++ i.table
  (s.modBoot fun b => { b with imgBytes := bytes }).wrWide 0xF010 13 (Config.sm3 bytes).toNat

/-- What waits in the boot loader until a later step (R77, R388, R473, R506). -/
def State.stageImage (s : State) (i : Image) : State :=
  let s := s.modSeq fun q => { q with bootLib := i.library, startLib := i.startLib, startEntry := i.startEntry, startB := i.pageB }
  let s := s.modFso fun f => { f with bootDatum := i.datum, frm := i.frm, ptRate := i.ptRate }
  let s := s.modMem fun m => { m with tblAt := i.tbl, ctxAt := i.ctx, expAt := i.exp }
  let s := s.modRta fun a => { a with startOfs := i.startOfs.zipIdx.foldl (fun m e => m.setNat e.2 e.1) a.startOfs }
  s.modBoot fun b => { b with content := i.sections.map fun e => (e.typ, e.content), nvmlock := i.nvmlock, startProfile := i.startProfile, airidx := s.rd F.RTA_AIRIDX_AIRIDX }

/-- The committed stream definitions are those of the image (R361). -/
def State.takeDefs (s : State) : State :=
  (List.range 4).foldl (fun (s : State) n => s.wrWords (0x8050 + 32 * n) ((s.staged n).zipIdx.map fun e => defMask e.2 e.1)) s

/-- The units follow the registers that the image loaded. -/
def State.takeConfig (s : State) : State :=
  let seed := s.rd F.TBU_DSEED_SEED
  let s := s.modTbu fun b => { b with lfsrT := BitVec.ofNat 20 seed, lfsrS := ~~~(BitVec.ofNat 20 seed) }
  let s := s.modLnk fun l => { l with joined := l.joined || s.isHead }
  let s := s.takeDefs.setKr.followHv.applyClocks.startLanes
  (List.range 256).foldl State.refreshActive s

/-- A verified image (R463, R473): the steps CAL and MEM begin, and with CAL the mirror starts (R269). -/
def State.takeImage (s : State) (i : Image) : State :=
  let s := ((s.noteImage i).stageImage i).takeConfig
  let s := (((s.fuse i).noteKey).takeShims i).takeSafety i
  let s := s.modCap fun c => { c with imgSetup := s.stagedSetup }
  let s := ((s.modBoot fun b => { b with verifyDone := true }).bootStep 3).put F.CTL_BOOT_MEMRUN true
  s.startMirror.safEval

/-- The counters of R376 that a failed decompression increments. -/
def State.countDec (s : State) (cause : Nat) : State :=
  if cause == 7 then s.inc F.CMP_EXPAND_COUNT else if cause == 8 then s.inc F.CMP_DECERR_COUNT else s

/-- BOOT_VERIFY (R465, R471 to R477). -/
def execBootVerify (t : Nat) (image : Image) (s : State) : Host.Outcome State Fault Refusal :=
  let s := s.begin t
  if !s.booting || !s.boot.flashDone || s.boot.verifyDone then .next s
  else
    let s' := s.loadImage image
    match s.judgeImage s' image with
    | some c => .next ((s.countDec c).bootFail c)
    | none => .next (s'.takeImage image)

end Machine

end Sys2Proof
end

