-- ==== Sys2Proof/Machine/Shims.lean ====
section
/-! DEFINITION. The Shims (R482 to R485, R488, R495): the sets, where each is in force, the staged copy, SHMDIG and the Shim
window. -/

namespace Sys2Proof.Machine

/-- Words in a Shim set (R482); none where the index is not defined for the kind. -/
def shimLen (k i : Nat) : Option Nat :=
  match k with
  | 0 => if i < 276 then some 15 else none
  | 1 => if i < 276 then some 256 else none
  | 2 => if i == 0 then some 256 else if i == 1 then some 16 else if i < 10 then some 32 else none
  | 3 => if i < 264 then some 4 else none
  | 4 => if i == 0 then some 256 else if i < 9 then some 32 else none
  | 5 => if i < 8 then some 2 else none
  | 6 => if i < 2 then some 2 else none
  | 7 => if i == 0 then some 3 else none
  | 8 => if i == 0 then some 7 else none
  | 9 => if i == 0 then some 3 else none
  | _ => none

/-- Every set, in ascending KIND and INDEX. -/
def shimKeys : List (Nat × Nat) :=
  (List.range 10).flatMap fun k => ((List.range 276).filter fun i => (shimLen k i).isSome).map fun i => (k, i)

/-- The key of a set in the stores of the boot loader. -/
def shimKey (k i : Nat) : Nat := 512 * k + i

/-- A word read as signed. -/
def signedWord (w : Word) : Int := signed 20 w.toNat

/-- A signed number as a word. -/
def wordZ (z : Int) : Word := BitVec.ofNat 20 (unsigned 20 z)

/-- The words of a set in force (R482). -/
def State.shim (s : State) (k i : Nat) : List Word :=
  let n := (shimLen k i).getD 0
  match k with
  | 1 => (List.range n).map fun p => BitVec.ofNat 20 ((s.unitSt i).entry p)
  | 2 => (List.range n).map fun j =>
      if i == 0 then wordZ (s.rdZ (F.RTA_PSKEW_SKEW j))
      else if i == 1 then
        (if j < 8 then wordZ (SMap.get (fun _ => 0) s.rta.startSkew j) else BitVec.ofNat 20 (s.startOfs (j - 8)))
      else wordZ (SMap.get (fun _ => 0) s.rta.spareSkew (32 * (i - 2) + j))
  | 4 => (List.range n).map fun j => wordZ (SMap.get (fun _ => 0) s.saf.hskew (if i == 0 then j else 256 + 32 * (i - 1) + j))
  | 8 => (List.range n).map fun j => s.word (0x3030 + j)
  | _ => (List.range n).map fun j => ((assoc s.boot.shims (shimKey k i)).getD []).getD j 0

/-- A skew Shim within its 16 bits. -/
def skewZ (z : Int) : Int := clampZ (-32768) 32767 z

/-- Hold one word of a set whose words have homes of their own. -/
def State.setShimWord (s : State) (k i j : Nat) (z : Int) : State :=
  if k == 2 then
    if i == 0 then s.wrZ (F.RTA_PSKEW_SKEW j) (skewZ z)
    else if i == 1 && j < 8 then s.modRta fun a => { a with startSkew := SMap.put (fun _ => 0) a.startSkew j (skewZ z) }
    else if i == 1 then s.modRta fun a => { a with startOfs := a.startOfs.setNat (j - 8) (unsigned 20 z) }
    else s.modRta fun a => { a with spareSkew := SMap.put (fun _ => 0) a.spareSkew (32 * (i - 2) + j) (skewZ z) }
  else s.modSaf fun v => { v with hskew := SMap.put (fun _ => 0) v.hskew (if i == 0 then j else 256 + 32 * (i - 1) + j) z }

/-- Put a set into force. -/
def State.setShim (s : State) (k i : Nat) (ws : List Word) : State :=
  match k with
  | 1 => s.setUnit i { s.unitSt i with lut := ws.map BitVec.toNat, pendLut := none }
  | 2 | 4 => ws.zipIdx.foldl (fun (s : State) e => s.setShimWord k i e.2 (signedWord e.1)) s
  | 8 => s.wrWords 0x3030 ws
  | _ => s.modBoot fun b => { b with shims := assocPut b.shims (shimKey k i) ws }

/-- The words of a set in the staged copy (R483). -/
def State.stagedShim (s : State) (k i : Nat) : List Word := (assoc s.boot.staged (shimKey k i)).getD []

/-- The staged copy takes the Shims in force, at the end of CAL (R495). -/
def State.snapShims (s : State) : State :=
  s.modBoot fun b => { b with staged := shimKeys.map fun e => (shimKey e.1 e.2, s.shim e.1 e.2) }

/-- A word as three bytes, least significant first (R468, R488). -/
def wordBytes (w : Word) : List Byte := (List.range 3).map fun i => BitVec.ofNat 8 (w.toNat / 2 ^ (8 * i))

/-- SHMDIG (R488): SM3 of every set in force, in ascending KIND and INDEX; zeros until CAL has loaded them. -/
def State.shmDig (s : State) : Nat :=
  if s.boot.calDone then (Config.sm3 ((shimKeys.flatMap fun e => s.shim e.1 e.2).flatMap wordBytes)).toNat else 0

/-! ### The Shim window (R483, R495) -/

/-- KIND and INDEX of the selected set. -/
def State.shmKind (s : State) : Nat := s.rd F.CTL_SHM_SEL_KIND
def State.shmIndex (s : State) : Nat := s.rd F.CTL_SHM_SEL_INDEX

/-- The words of the Shim window that follow the Shims. -/
def State.viewShm (s : State) (a : Nat) : Option Word :=
  let k := s.shmKind
  let i := s.shmIndex
  let n := (shimLen k i).getD 0
  if a == 0xE001 then
    let src := (assoc s.boot.shimSrc (shimKey k i)).getD 0
    let diff := s.boot.calDone && shimKeys.any fun e => s.shim e.1 e.2 != s.stagedShim e.1 e.2
    some (mkWord [(18, src), (17, b2n diff), (0, n)])
  else if within 0xE010 0xE01C a then some (BitVec.ofNat 20 (s.shmDig / 2 ^ (20 * (a - 0xE010))))
  else if within 0xE100 0xE1FF a then
    let j := a - 0xE100
    if Nat.ble n j then some 0
    else some ((if s.flag F.CTL_SHM_SEL_VIEW then s.stagedShim k i else s.shim k i).getD j 0)
  else none

/-- A write of word `j` of the selected set (R483): kinds 4h, 5h and 9h belong to channel B's own calibration, and words at
or beyond LEN refuse writes. -/
def State.writeShm (s : State) (j : Nat) (w : Word) : Status × State :=
  let k := s.shmKind
  let i := s.shmIndex
  if k == 4 || k == 5 || k == 9 || Nat.ble ((shimLen k i).getD 0) j then (.refused, s)
  else
    let ws := s.stagedShim k i
    let ws := if ws.isEmpty then List.replicate ((shimLen k i).getD 0) 0 else ws
    (.ok, s.modBoot fun b => { b with staged := assocPut b.staged (shimKey k i) (ws.set j w) })

end Sys2Proof.Machine
end

