-- ==== Sys2Proof/Machine/Calibrate.lean ====
section
/-! DEFINITION. Calibration (R263, R264, R478 to R486): agreement of runs, results, failures, CAL of boot and RECAL. -/

namespace Sys2Proof

/-! ### The exponential and the cosine of R264, in 1/2^64 -/

/-- The series of exp(−y) for y in 1/2^64, from term k on. -/
def expSeries (y : Nat) : Nat → Nat → Nat → Int
  | 0, _, _ => 0
  | fuel + 1, k, term =>
    (if k % 2 == 0 then (term : Int) else -(term : Int)) + expSeries y fuel (k + 1) (term * y / 2 ^ 64 / (k + 1))

/-- Square a fixed-point number n times. -/
def squares : Nat → Nat → Nat
  | 0, x => x
  | n + 1, x => squares n (x * x / 2 ^ 64)

/-- exp(−π × num/den) in 1/2^64. -/
def expPi (num den : Nat) : Nat :=
  if den == 0 || Nat.ble (20 * den) num then 0
  else squares 6 (expSeries (57952155664616982739 * num / den / 64) 30 0 (2 ^ 64)).toNat

/-- sin of num/den of a turn in 1/2^64. -/
def sinTurn (num den : Nat) : Int :=
  let n := 4 * (num % den)
  let q := n / den
  let r := n % den
  let m := quarterSine (if q % 2 == 0 then r else den - r) den
  if q < 2 then m else -m

namespace Machine

/-- DEC for Q in 1/16 (R264). -/
def decOf (q : Nat) : Nat := (expPi 8 q * 65536 + 2 ^ 63) / 2 ^ 64

/-- MA1 and MA2 for f0 in 0.01 Hz, Q in 1/16 and T_out in ns (R264). -/
def maOf (f0 q tout : Nat) : Int × Int :=
  let turn := 100000000000
  let r : Int := expPi (f0 * tout * 16) (turn * q)
  let c := sinTurn (4 * f0 * tout + turn) (4 * turn)
  (rdiv0 (r * c / 2 ^ 64 * 2 ^ 15) (2 ^ 64), rdiv0 (r * r / 2 ^ 64 * 2 ^ 14) (2 ^ 64))

/-! ### The fit of the mirror (R263) -/

/-- The series of atanh(z) for z in 1/2^64, from term k on; `p` is z^(2k+1). -/
def atanhSeries (z : Nat) : Nat → Nat → Nat → Nat
  | 0, _, _ => 0
  | fuel + 1, k, p => p / (2 * k + 1) + atanhSeries z fuel (k + 1) (p * z / 2 ^ 64 * z / 2 ^ 64)

/-- ln(a / b) in 1/2^64 for a > b > 0, by powers of two and the series of 2·atanh((m − 1) / (m + 1)). -/
def lnRatio (a b : Nat) : Nat :=
  let k := Nat.log2 (a / b)
  let z := (a - b * 2 ^ k) * 2 ^ 64 / (a + b * 2 ^ k)
  k * 12786308645202655660 + 2 * atanhSeries z 30 0 z

/-- The fit in resonant mode (R263): from NRD half periods of the ring-down in ns, A_0 and A_NRD, and the amplitudes gained in 8
pumped half periods with kicks of `width` µs: F0 in 0.01 Hz, Q in 1/16, KG in 1/256 µrad per µs; all 0 where they give no
decay. -/
def fitResonant (nrd width : Nat) (r : List Int) : List Int :=
  let th := ((r.take nrd).sum).toNat
  let a0 := (r.getD nrd 0).toNat
  let an := (r.getD (nrd + 1) 0).toNat
  let gain := ((r.drop (nrd + 2)).take 8).sum
  if th == 0 || an == 0 || Nat.ble a0 an || width == 0 then [0, 0, 0, 0]
  else [((rdiv (100000000000 * nrd) (2 * th) : Nat) : Int),
        ((rdiv (8 * 57952155664616982739 * nrd) (lnRatio a0 an) : Nat) : Int), rdiv0 (256 * gain) (8 * width), 0]

/-- The fit in quasi-static mode (R263) from the ringing period in ns, the peak and the final deflection of a step with u = 1: F0
in 0.01 Hz, Q in 1/16 by the overshoot of a second-order resonator, and MB, the drive gain with which R264 rests at the final
deflection (log entry 183). -/
def fitStep (tout : Nat) (r : List Int) : List Int :=
  let per := (r.getD 0 0).toNat
  let peak := (r.getD 1 0).toNat
  let fin := (r.getD 2 0).toNat
  if per == 0 || fin == 0 || Nat.ble peak fin || Nat.ble (2 * fin) peak then [0, 0, 0, 0]
  else
    let f0 := rdiv 100000000000 per
    let l := lnRatio fin (peak - fin)
    let pi := 57952155664616982739
    let q := 16 * isqrtFrom 80 (pi * pi + l * l) 0 / (2 * l)
    let (ma1, ma2) := maOf f0 q tout
    [(f0 : Int), (q : Int), 0, rdiv0 (fin * (2 ^ 14 - ma1 + ma2)) (2 ^ 14)]

/-- The quantities that a run of the mirror's ring-down or step gives (R263). -/
def State.fitMirror (s : State) (r : List Int) : List Int :=
  if s.resonant then fitResonant (s.rd F.STU_NRD_NRD) (s.rd (F.CEN_L0_WIDTH_WIDTH (s.bank 0))) r
  else fitStep (s.cicR * s.sampleNs) r

/-! ### Agreement (R478, R479) -/

/-- Two values within a tolerance. -/
def near (tol : Nat) (a b : Int) : Bool := Nat.ble (a - b).natAbs tol

/-- Two lists agree entry by entry. -/
def allNear (tol : Nat) (a b : List Int) : Bool := a.length == b.length && (a.zip b).all fun e => near tol e.1 e.2

/-- Two values within 1/`n` of the earlier one. -/
def nearPart (n : Nat) (a b : Int) : Bool := Nat.ble (n * (a - b).natAbs) a.natAbs

/-- The hits of a density run: of the 256 codes of the selected taps, −1 for a tap that never changes state (R132). -/
def hitsOf (r : List Int) : Int := ((r.take 256).map fun (h : Int) => max h 0).sum

/-- The tap of a code has failed (R132): it never changes state, or its code is wider than 3 ticks. -/
def tapBad (r : List Int) (p : Nat) : Bool := decide (r.getD p 0 < 0) || decide (3 * hitsOf r < 256 * r.getD p 0)

/-- The width of a code differs by more than 0.25 tick between two density runs (R478). -/
def tapDiffers (a b : List Int) (p : Nat) : Bool :=
  decide ((hitsOf a * hitsOf b).toNat < 1024 * (a.getD p 0 * hitsOf b - b.getD p 0 * hitsOf a).natAbs)

/-- Two density runs agree (R132, R478): at least 2,000,000 hits each, no failed tap, and every code width within 0.25 tick. -/
def tdcAgree (a b : List Int) : Bool :=
  decide (2000000 ≤ hitsOf a) && decide (2000000 ≤ hitsOf b) &&
    (List.range 256).all fun p => !tapBad a p && !tapBad b p && !tapDiffers a b p

/-- The selected taps of a TDC by code, and its next spare tap (R132). -/
structure Taps where
  sel  : List Nat
  next : Nat
  deriving DecidableEq, Repr, Inhabited

/-- The taps of a TAPMAP; taps 0 to 255 where it selects no 256. The spare taps are those above (log entry 184). -/
def Taps.ofMap (ws : List Word) : Taps :=
  let on := (List.range 288).filter fun t => bitOf (ws.getD (t / 20) 0).toNat (t % 20)
  let sel := if on.length == 256 then on else List.range 256
  ⟨sel, sel.foldl max 255 + 1⟩

/-- The TAPMAP of the selected taps (R482). -/
def Taps.words (t : Taps) : List Word :=
  (List.range 15).map fun i => BitVec.ofNat 20 (((t.sel.filter fun x => x / 20 == i).map fun x => 2 ^ (x % 20)).sum)

/-- The next spare taps take the places of codes (R132, R479); none where a spare tap is missing. -/
def Taps.replace (t : Taps) (ps : List Nat) : Option Taps :=
  if Nat.blt 288 (t.next + ps.length) then none
  else some ⟨(ps.zipIdx).foldl (fun l e => l.set e.1 (t.next + e.2)) t.sel, t.next + ps.length⟩

/-- The runs of a TDC (R132, R479): after each run that does not end the measurement, the taps that failed in it and those whose
widths disagree with the run before are replaced. The agreeing pair, the taps then selected. -/
def tdcRuns : Taps → Option (List Int) → List (List Int) → Option (List Int × List Int × Taps)
  | _, _, [] => none
  | t, prev, r :: rest =>
    match prev.filter fun a => tdcAgree a r with
    | some a => some (a, r, t)
    | none =>
      match t.replace ((List.range 256).filter fun p => tapBad r p || prev.any fun a => !tapBad a p && tapDiffers a r p) with
      | none => none
      | some t' => tdcRuns t' (some r) rest

end Machine

open Machine in
/-- Two runs of an element agree (R478). A comparator gives two offsets and two gains, an interpolator its cell map and then
its phase widths in u, an ADC offset and gain, the mirror f0, Q, KG and MB of its fit (R263). -/
def CalKind.agree (k : CalKind) (res : Bool) (a b : List Int) : Bool :=
  let x := fun i => a.getD i 0
  let y := fun i => b.getD i 0
  match k with
  | .pllBand => x 0 == y 0
  | .tdc => tdcAgree a b
  | .comparator => near 1 (x 0) (y 0) && near 1 (x 1) (y 1) && near 4 (x 2) (y 2) && near 4 (x 3) (y 3)
  | .skew => near 16 (x 0) (y 0)
  | .interpolator => allNear 16 (a.drop 1) (b.drop 1)
  | .hskew => near 1 (x 0) (y 0)
  | .adc => near 2 (x 0) (y 0) && near 256 (x 1) (y 1)
  | .mirror => decide (0 < x 0) && decide (0 < x 1) && nearPart 1000 (x 0) (y 0) && nearPart 10 (x 1) (y 1) && if res then nearPart 10 (x 2) (y 2) else nearPart 10 (x 3) (y 3)

namespace Machine

/-- The fine table of a density run with another (R131, R479): the mean of their code widths. -/
def meanTable (a b : List Int) : List Nat :=
  let ha := hitsOf a
  let hb := hitsOf b
  fineTable (((((a.take 256).zip (b.take 256)).map fun e => (e.1 * hb + e.2 * ha).toNat).zipIdx.filter fun e => e.1 != 0).map
    fun e => (e.2, e.1))

end Machine

open Machine in
/-- A run agrees with a stored value (R485). A stored fine table gives the widths between its neighbouring codes, and a stored
cell map agrees with the same map. -/
def CalKind.agreesStored (k : CalKind) (res : Bool) (v r : List Int) : Bool :=
  match k with
  | .tdc =>
    let t := (meanTable r r).map fun n => (n : Int)
    let step := fun (l : List Int) => (l.zip (l.drop 1)).map fun e => e.2 - e.1
    decide (2000000 ≤ hitsOf r) && (List.range 256).all (fun p => !tapBad r p) && allNear 4 (step v) (step t)
  | .interpolator => v.getD 0 0 == r.getD 0 0
  | _ => k.agree res v r

namespace Machine

/-- The first agreeing pair among up to five runs (R479). -/
def firstPair (agree : List Int → List Int → Bool) : Nat → List (List Int) → Option (List Int × List Int)
  | n + 1, a :: b :: r => if agree a b then some (a, b) else firstPair agree n (b :: r)
  | _, _ => none

/-- How the calibration of an element ends: its stored value stands, two runs agree, or it has failed. `sub`: a pair of runs
disagreed or a tap failed, so taps or cells were replaced (R132, R479). -/
inductive CalEnd where
  | keep
  | value (a b : List Int) (sub : Bool)
  | failed (sub : Bool)
  deriving DecidableEq, Repr, Inhabited

end Machine

open Machine in
/-- A full calibration (R479), for a TDC from the taps that its TAPMAP selects; its second run then carries the new TAPMAP. -/
def CalElem.full (e : CalElem) (res : Bool) (map : List Word) (runs : List (List Int)) : CalEnd :=
  if e.kind == .tdc then
    match tdcRuns (Taps.ofMap map) none (runs.take 5) with
    | some (a, b, t) => .value a (b.take 256 ++ t.words.map fun w => (w.toNat : Int)) (t != Taps.ofMap map)
    | none => .failed (!runs.isEmpty)
  else
    let ag := e.kind.agree res
    let first := runs.getD 0 []
    match firstPair ag 4 runs with
    | some (a, b) => .value a b (!ag first (runs.getD 1 []) || first.getD 0 0 != b.getD 0 0)
    | none => .failed (Nat.ble 2 runs.length)

open Machine in
/-- The calibration of an element against its stored value, if it has one (R479, R485). -/
def CalElem.run (e : CalElem) (res : Bool) (map : List Word) (stored : Option (List Int)) : CalEnd :=
  match stored, e.runs with
  | some _, [] => .keep
  | some v, r :: rest => if e.kind.agreesStored res v r then .keep else e.full res map rest
  | none, runs => e.full res map runs

open Machine in
/-- The word of a skew or HSKEW element: its set and place (R482). -/
def CalElem.place (e : CalElem) : Nat × Nat × Nat :=
  let i := e.index
  let k := if e.kind == .skew then 2 else 4
  if i < 256 then (k, 0, i)
  else if i < 512 then (k, (if k == 2 then 2 else 1) + (i - 256) / 32, (i - 256) % 32)
  else (k, 1, i - 512)

open Machine in
/-- The sets that hold an element (R482). -/
def CalElem.sets (e : CalElem) : List (Nat × Nat) :=
  match e.kind with
  | .pllBand => [(7, 0)]
  | .tdc => [(0, e.index), (1, e.index)]
  | .comparator => [(3, e.index)]
  | .skew | .hskew => [(e.place.1, e.place.2.1)]
  | .interpolator => [(5, e.index)]
  | .adc => [(6, e.index)]
  | .mirror => [(8, 0)]

open Machine in
/-- An element's value in stored sets (R485); the PLL step has none. -/
def CalElem.storedIn (e : CalElem) (sets : Nat → Nat → Option (List Word)) : Option (List Int) :=
  match e.kind with
  | .pllBand => none
  | .tdc => (sets 1 e.index).map fun ws => ws.map fun w => (w.toNat : Int)
  | .skew | .hskew => (sets e.place.1 e.place.2.1).map fun ws => [signedWord (ws.getD e.place.2.2 0)]
  | .comparator => (sets 3 e.index).map fun ws => ws.map signedWord
  | .interpolator => (sets 5 e.index).map fun ws => [((natOf ws % 2 ^ 36 : Nat) : Int)]
  | .adc => (sets 6 e.index).map fun ws => ws.map signedWord
  | .mirror => (sets 8 0).map fun ws => [((ws.getD 0 0).toNat : Int), ((ws.getD 1 0).toNat : Int), ((ws.getD 3 0).toNat : Int), signedWord (ws.getD 6 0)]

namespace Machine

/-- Put the result of an agreeing pair into force (R479, R482). -/
def State.setElem (s : State) (e : CalElem) (a b : List Int) : State :=
  let m := fun (i : Nat) => rdiv0 (a.getD i 0 + b.getD i 0) 2
  match e.kind with
  | .pllBand => s.setShim 7 0 ((s.shim 7 0).set e.index (wordZ (m 0)))
  | .tdc => (s.setShim 0 e.index (((b.drop 256).take 15).map wordZ)).setShim 1 e.index ((meanTable a b).map (BitVec.ofNat 20))
  | .comparator => s.setShim 3 e.index ((List.range 4).map fun i => wordZ (m i))
  | .skew | .hskew => s.setShimWord e.place.1 e.place.2.1 e.place.2.2 (m 0)
  | .interpolator => s.setShim 5 e.index (wordsOf (b.getD 0 0).toNat 2)
  | .adc => s.setShim 6 e.index [wordZ (m 0), wordZ (m 1)]
  | .mirror =>
    let f0 := (m 0).toNat
    let q := (m 1).toNat
    let (ma1, ma2) := maOf f0 q (s.cicR * s.sampleNs)
    s.setShim 8 0 [BitVec.ofNat 20 f0, BitVec.ofNat 20 q, BitVec.ofNat 20 (min 65535 (decOf q)), BitVec.ofNat 20 (m 2).toNat,
                   wordZ ma1, wordZ ma2, wordZ (m 3)]

/-- CALSUB of a port whose taps were replaced (R479), and of the ports of a group whose interpolator had a delay cell replaced
(R159, R478). -/
def State.noteSub (s : State) (e : CalElem) (sub : Bool) : State :=
  if !sub then s
  else if e.kind == .tdc && e.index < 256 then s.put (F.RTA_PSTAT_CALSUB e.index) true
  else if e.kind == .interpolator && e.index < 8 then (groupPorts e.index).foldl (fun s p => s.put (F.RTA_PSTAT_CALSUB p) true) s
  else s

/-- The element with the quantities of its runs: those of the mirror come from its fit (R263). -/
def State.measured (s : State) (e : CalElem) : CalElem :=
  if e.kind == .mirror then { e with runs := e.runs.map s.fitMirror } else e

/-- One calibration element runs against its stored set: it is kept, takes a value, or fails (R478, R485). -/
def State.runElem (sets : Nat → Nat → Option (List Word)) (acc : State × List CalElem × Nat) (e : CalElem) :
    State × List CalElem × Nat :=
  let (s, bad, full) := acc
  let e := s.measured e
  match e.run s.resonant (if e.kind == .tdc then s.shim 0 e.index else []) (e.storedIn sets) with
  | .keep => (s, bad, full)
  | .value a b sub =>
    let s := (s.setElem e a b).noteSub e sub
    let keys := e.sets.map fun k => shimKey k.1 k.2
    (s.modBoot fun x => { x with shimSrc := x.shimSrc.filter fun y => !keys.contains y.1 }, bad, full + 1)
  | .failed sub => (s.noteSub e sub, bad ++ [e], full)

/-- Calibrate elements against stored sets, in order: the state, the elements that failed and the number calibrated in full. An
element that the command does not list agrees at its present value (log entry 95). -/
def State.calibrate (s : State) (elems : List CalElem) (sets : Nat → Nat → Option (List Word)) : State × List CalElem × Nat :=
  elems.foldl (State.runElem sets) (s, [], 0)

/-! ### Failures (R478, R480, R491) -/

end Machine

open Machine in
/-- The spare whose own element this is. -/
def CalElem.spare? (e : CalElem) : Option Nat :=
  match e.kind with
  | .tdc | .comparator => if within 256 263 e.index then some (e.index - 256) else none
  | .skew | .hskew => if within 256 511 e.index then some ((e.index - 256) / 32) else none
  | _ => none

open Machine in
/-- The port whose element this is. -/
def CalElem.port? (e : CalElem) : Option Nat :=
  match e.kind with
  | .tdc | .comparator | .skew | .hskew => if e.index < 256 then some e.index else none
  | _ => none

open Machine in
/-- The start TDC whose element this is. -/
def CalElem.start? (e : CalElem) : Option Nat :=
  match e.kind with
  | .tdc => if within 264 271 e.index then some (e.index - 264) else none
  | .skew => if within 512 519 e.index then some (e.index - 512) else none
  | _ => none

namespace Machine

/-- A port is left without a spare (R480). -/
def State.calOff (s : State) (p : Nat) : State :=
  let s := ((s.put (F.RTA_PSTAT_FAILED p) true).put (F.RTA_PSTAT_OFF p) true).dropAnchor p
  (if s.dev == .run then s.setDev .degraded else s).refreshActive p

/-- A port's element has failed (R480, R491): its group's free spare serves it, else it is OFF. -/
def State.calPortFails (s : State) (p : Nat) : State :=
  let r := rowOf p
  if s.portOff p then s
  else if s.flag (F.RTA_PSTAT_SPARED p) || s.flag (F.RTA_SPARE_INUSE r) || s.flag (F.RTA_SPARE_FAILED r) then s.calOff p
  else
    let s := (s.put (F.RTA_PSTAT_FAILED p) true).put (F.RTA_PSTAT_SPARED p) true
    let s := (s.put (F.RTA_SPARE_INUSE r) true).wr (F.RTA_SPARE_SRC r) (p % 32)
    (s.modRta fun a => { a with copied := assocPut a.copied r (s.cfgWords p) }).refreshActive p

/-- A spare's own element has failed (R480): the port it serves is left without one. -/
def State.calSpareFails (s : State) (r : Nat) : State :=
  let used := s.flag (F.RTA_SPARE_INUSE r)
  let p := 32 * r + s.rd (F.RTA_SPARE_SRC r)
  let s := s.spareFail r
  if used then s.calOff p else s

/-- A failed element of another kind (R478): STARTFAIL, a trigger TDC that stamps with COARSE, or SAFCAL. -/
def State.calOther (s : State) (e : CalElem) : State :=
  match e.start? with
  | some r => s.wr F.RTA_STARTFAIL_FAIL (s.rd F.RTA_STARTFAIL_FAIL ||| 2 ^ r)
  | none =>
    if e.kind == .tdc && within 272 275 e.index then s.setUnit e.index { s.unitSt e.index with coarse := true }
    else if e.kind == .interpolator then (s.put F.CTL_BOOT_SAFCAL true).safInit
    else s

/-- The events of a port that has failed or been turned OFF since `s0` (R480). -/
def State.portEvents (s0 s : State) (p : Nat) : State :=
  let s := if s.flag (F.RTA_PSTAT_FAILED p) && !s0.flag (F.RTA_PSTAT_FAILED p) then s.raise 0x18 .fault p else s
  if s.portOff p && !s0.portOff p then s.raise 0x19 .fault p else s

/-- What the failed elements bring about (R480), with the events at the end in ascending port order. -/
def State.calFailures (s : State) (bad : List CalElem) : State :=
  let s0 := s
  let s := bad.foldl State.calOther s
  let s := ((List.range 8).filter fun r => bad.any fun e => e.spare? == some r).foldl State.calSpareFails s
  let s := ((List.range 256).filter fun p => bad.any fun e => e.port? == some p).foldl State.calPortFails s
  (List.range 256).foldl (fun s p => s0.portEvents s p) s

/-- The largest die temperature in °C (R482): of the latest round, before it of the interim conversions, else a free value. -/
def State.dieTemp (s : State) : Int × State :=
  if s.hk.firstRound then (s.rdZ F.CTL_HK_TMAX_T / 16, s)
  else match s.hk.interim with
    | [] => let (v, s) := s.draw; ((v : Int) % 256 - 64, s)
    | x :: r => (r.foldl max x / 16, s)

/-- META (R482, R485). -/
def State.noteMeta (s : State) (failed : Nat) : State :=
  let (t, s) := s.dieTemp
  s.setShim 9 0 [1, wordZ t, BitVec.ofNat 20 (satN 20 failed)]

/-- A set of Shims is taken whole (R485). -/
def State.takeSet (s : State) (src : Nat) (e : Nat × Nat × List Word) : State :=
  (s.setShim e.1 e.2.1 e.2.2).modBoot fun b => { b with shimSrc := assocPut b.shimSrc (shimKey e.1 e.2.1) src }

/-- Sets whose elements a set of Shims may start from: all but PLL and META (R485). -/
def State.takeSets (s : State) (src : Nat) (sets : List (Nat × Nat × List Word)) : State :=
  (sets.filter fun e => e.1 != 7 && e.1 != 9 && some e.2.2.length == shimLen e.1 e.2.1).foldl (fun s e => s.takeSet src e) s

/-- CAL of boot fails (R465, R478). -/
def calCause (bad : List CalElem) : Option Nat :=
  if bad.any fun e => e.kind == .pllBand then some 0x0B
  else if bad.any fun e => e.kind == .adc then some 0x0C
  else if bad.any fun e => e.kind == .mirror then some 0x0D
  else none

/-- BOOT_CAL (R263, R269, R478 to R485, R512): the calibration steps complete, once L0 has been ARRIVED for the mirror's fit; the
Shims are in force, and rounds may start. -/
def execBootCal (t : Nat) (elems : List CalElem) (s : State) : Host.Outcome State Fault Refusal :=
  let s := s.begin t
  if !s.booting || !s.boot.verifyDone || s.boot.calDone || s.stu.startAt.isSome then .next s
  else
    let sec := s.boot.shimSec.map fun x => (x.kind, x.index, x.words)
    let stored := fun k i => if s.boot.shimOk then (sec.find? fun e => e.1 == k && e.2.1 == i && k != 7).map fun e => e.2.2 else none
    let s := if s.boot.shimOk then s.takeSets 1 sec else s
    let (s, bad, _) := s.calibrate elems stored
    match calCause bad with
    | some c => .next (s.bootFail c)
    | none =>
      let s := (s.calFailures bad).noteMeta bad.length
      let s := (s.modBoot fun b => { b with calDone := true }).put F.CTL_BOOT_CALDONE true
      .next ((s.modHk fun h => { h with rounds := true }).snapShims).safEval

/-! ### RECAL (R486) -/

/-- EXEC RECAL: the mode 11b is refused at the write of CTL_RECAL_ARG. -/
def State.recalStart (s : State) : Status × State :=
  if !s.ready || s.saf.st == .clear then (.refused, s)
  else (.ok, s.startOp 2 (.recal (s.rd F.CTL_RECAL_ARG_MODE) s.clk false))

/-- The sequencer stops for RECAL, and charging is forbidden (R108, R486). -/
def State.recalHalt (s : State) (m t0 : Nat) : State :=
  let s := s.modMgmt fun x => { x with op := some (.recal m t0 true) }
  ((s.modSeq fun q => { q with st := .idle }).modEdu fun e => { e with recalStop := true }).chgEval

/-- RECAL_EOF_TIMEOUT: no EOF within 100 ms, so the sequencer stops at once and open histograms close with CAUSE PAGE. -/
def execRecalEofTimeout (t : Nat) (s : State) : Host.Outcome State Fault Refusal :=
  let s := s.begin t
  match s.mgmt.op with
  | some (.recal m t0 false) =>
    if Nat.blt s.clk (t0 + 100000000) then .next s else .next ((s.recalHalt m t0).closeAll 2)
  | _ => .next s

/-- The image's start page is in page A when the sequencer restarts (R486). -/
def State.startPage (s : State) : State :=
  if s.seq.pageA.lib == s.seq.startLib then s
  else match assoc s.seq.library s.seq.startLib with
    | some p => s.modSeq fun q => { q with pageA := { p with lib := q.startLib } }
    | none => s

/-- RECAL_RESTART: the steps complete, failures follow R480, and the sequencer restarts as by a switch to the other page. -/
def execRecalRestart (t : Nat) (elems : List CalElem) (s : State) : Host.Outcome State Fault Refusal :=
  let s := s.begin t
  match s.mgmt.op with
  | some (.recal m _ true) =>
    let es := elems.filter fun e => e.kind != .pllBand && e.kind != .mirror
    let inForce := s
    let stored := fun k i => if m == 1 then some (inForce.shim k i) else if m == 2 then some (inForce.stagedShim k i) else none
    let s := if m == 2 then
        s.takeSets 2 ((shimKeys.filter fun e => e.1 != 8).map fun e => (e.1, e.2, inForce.stagedShim e.1 e.2))
      else s
    let (s, bad, full) := s.calibrate es stored
    let s := (s.calFailures bad).noteMeta bad.length
    let s := (s.otherPage 2).startPage
    let s := (s.startSeq false s.seq.startEntry).modEdu fun e => { e with recalStop := false }
    .next (s.chgEval.endOp (satN 10 bad.length * 1024 + satN 10 full))
  | _ => .next s

end Machine

end Sys2Proof
end

