-- ==== Sys2Proof/Machine/Boot.lean ====
section
/-! DEFINITION. The steps of boot after VERIFY (R79, R229, R386, R388, R400, R463, R481, R512): the module, the tables, the
seeding and READY. -/

namespace Sys2Proof.Machine

/-! ### MEM (R385, R386, R388, R400) -/

/-- An organisation of R385: RDIMM of ×4 devices, 10 per rank and subchannel, not stacked, alone on its channel (R386). -/
def Spd.supported (m : Spd) : Bool :=
  m.rdimm && m.x4 && m.devices == 10 && !m.stacked && m.dimms == 1 && [(1, 0), (1, 1), (2, 0), (1, 2), (2, 1)].contains (m.ranks, m.dens)

/-- The rate code of a transfer rate in MT/s (R402). -/
def rateCode (mts : Nat) : Option Nat :=
  if within 3200 5600 mts && mts % 400 == 0 then some ((mts - 3200) / 400) else none

/-- The highest rate that the SPD and RATEMAX permit (R386). -/
def Spd.rate (m : Spd) (most : Nat) : Option Nat :=
  ((m.rates.filterMap rateCode).filter fun c => Nat.ble c most).max?

/-- The partitions fit the module (R388). -/
def State.partsFit (s : State) : Bool :=
  (s.partsA ++ s.partsB).all fun p => Nat.ble (p.1 + p.2) s.subBursts

/-- The guaranteed SCRUB turns of each subchannel read all its bursts within SPASS (R390, R397), at rate code `c`: a sixteenth of
the turn floor is 8,750,000 turns/s at 3,200 MT/s and 1,093,750 more with each 400 MT/s. -/
def State.scrubFits (s : State) (c : Nat) : Bool :=
  [0xA004, 0xA008].all fun a =>
    Nat.ble s.subBursts (s.rd F.MEM_SPASS_SPASS * ((8750000 + 1093750 * c) * ((s.turns a).filter (· == 0)).length))

/-- BOOT_MEM (R400): the SPD is read, both subchannels are trained and zero-filled. The step waits for the PLL step of CAL,
whose failure ends boot (R463). Partitions that the module does not hold, and an SPASS too short for it, fail boot with MEM (R388, R397,
R556; log entry 197). -/
def execBootMem (t : Nat) (spd : Spd) (s : State) : Host.Outcome State Fault Refusal :=
  let s := s.begin t
  if !s.booting || !s.boot.verifyDone || s.boot.memDone then .next s
  else match (if Spd.supported spd then Spd.rate spd (s.rd F.MEM_CFG_RATEMAX) else none) with
    | none => .next ((s.put F.MEM_STATUS_MEM_UNSUP true).bootFail 0x0A)
    | some c =>
      let s := ((s.wr F.MEM_STATUS_RANKS spd.ranks).wr F.MEM_STATUS_DENS spd.dens).wr F.MEM_STATUS_RATE c
      if !s.partsFit then .next ((s.put F.MEM_STATUS_MEM_CAP true).bootFail 0x0A)
      else if !s.scrubFits c then .next (s.bootFail 0x0A)
      else if !spd.trainOk then .next ((s.put F.MEM_STATUS_MEM_TRAIN true).bootFail 0x0A)
      else
        let s := ((s.put F.MEM_STATUS_TRAINED true).put F.CTL_BOOT_MEMRUN false).put F.CTL_BOOT_MEMDONE true
        .next ((s.modBoot fun b => { b with memDone := true }).bootStep 4)

/-! ### TBL (R77, R343, R463) -/

/-- BOOT_TBL: the library and the datum tables are written to subchannel B, and the start pages are loaded. -/
def execBootTbl (t : Nat) (s : State) : Host.Outcome State Fault Refusal :=
  let s := s.begin t
  if !s.booting || !s.boot.memDone || s.boot.tblDone then .next s
  else
    let lib := s.seq.bootLib.map fun e => (e.1, { e.2 with lib := e.1 })
    let page := fun k => (assoc lib k).getD default
    let s := s.modSeq fun q => { q with library := lib, bootLib := [], pageA := page q.startLib, pageB := page q.startB }
    let s := s.modFso fun f => { f with datum := f.bootDatum, bootDatum := [] }
    .next (s.modBoot fun b => { b with tblDone := true })

/-! ### SEED (R79, R98, R229, R463, R512) -/

/-- A profile comes into force (R507, R510, R514): its gated groups and its LP. -/
def State.takeProfile (s : State) (code : Nat) : State :=
  let s := (s.wr F.CTL_PROFILE_ACTIVE code).wr F.CTL_PROFILE_GATED (255 - s.rd (F.CTL_PROF_REC_ROWMASK code))
  let s := s.put F.CTL_HK_CFG_LP (s.flag (F.CTL_PROF_REC_HKLP code))
  (List.range 256).foldl State.refreshActive s

/-- BOOT_SEED: the sequencer starts at the start entry, EDU_DITH_STATE shows SEED from then to the first draw (R118; log entry 198),
charging is permitted, loop L1 starts, and both safety channels start
on the zone set that their inputs name (R282, R311). -/
def execBootSeed (t : Nat) (s : State) : Host.Outcome State Fault Refusal :=
  let s := s.begin t
  if !s.booting || !s.boot.calDone || !s.boot.tblDone || s.rpe.seeding then .next s
  else
    let s := (s.takeProfile s.boot.startProfile).bootStep 5
    let s := s.startSeq false s.seq.startEntry
    let s := s.wr F.EDU_DITH_STATE_STATE (s.rd F.EDU_DITH_SEED_SEED)
    let s := (s.modRpe fun r => { r with seeding := true }).modEdu fun e => { e with started := true }
    let s := (s.modBoot fun b => { b with seedAt := s.clk }).startL1
    let zs := s.zsCode
    .next (((s.startZs .a zs true).startZs .b zs true).chgEval).safEval

/-! ### The end of the seeding step (R46, R229, R337, R397, R481) -/

/-- START_OFS_r after the seeding step (R481): `l` holds the starts of the row, newest first. -/
def seedMean (l : List Int) : Option Nat :=
  if l.length != 256 then none
  else
    let a := (l.drop 128).sum
    let b := (l.take 128).sum
    if decide ((a - b).natAbs ≤ 64 * 128) then some (unsigned 20 (rdiv0 (a + b) 256)) else none

/-- START_OFS of a row follows its starts (R481). -/
def State.seedRow (s : State) (r : Nat) : State :=
  match seedMean ((assoc s.rta.seedStarts r).getD []) with
  | some m => s.modRta fun a => { a with startOfs := a.startOfs.setNat r m }
  | none => s

/-- Every row's START_OFS follows its starts (R481). -/
def State.seedOfs (s : State) : State :=
  ((List.range 8).foldl State.seedRow s).modRta fun a => { a with seedStarts := [] }

/-- READY (R46): the state is DEGRADED where a port is left without a spare. -/
def State.riseReady (s : State) : State :=
  let off := (List.range 256).any s.portOff
  let s := (s.setDev (if off then .degraded else .run)).bootStep 6
  let s := (s.put F.MEM_STATUS_ZFILL true).modBoot fun b => { b with readyAt := some s.clk }
  let s := s.latchDefs
  let s := if s.flag F.CAP_S_MODE_AUTOARM then (s.commitSetup s.cap.imgSetup).armCap else s
  s.safEval.leaveInit

/-- SEEDING_END (R229): every ACTIVE port has taken SEEDN samples, or 50 ms have passed since the sequencer started. -/
def execSeedingEnd (t : Nat) (s : State) : Host.Outcome State Fault Refusal :=
  let s := s.begin t
  if !s.booting || !s.rpe.seeding || !(s.seeded || Nat.ble (s.boot.seedAt + 50000000) s.clk) then .next s
  else .next ((s.seedTrackers.seedOfs).riseReady)

end Sys2Proof.Machine
end

