-- ==== Sys2Proof/Machine/Security.lean ====
section
/-! DEFINITION. NVM pass-through, attestation and the certificate (R487 to R490, R493, R494). -/

namespace Sys2Proof

/-- The bytes of a number, most significant first (R490). -/
def bytesBE (n : Nat) : Nat → List Byte
  | 0 => []
  | k + 1 => bytesBE (n / 256) k ++ [BitVec.ofNat 8 n]

namespace Machine

/-! ### NVM pass-through (R487) -/

/-- Every on-die sensor lies in 0 to 85 °C in the latest round, before the first round in the latest interim conversion with
its uncertainty (R487, R513). -/
def State.nvmTempOk (s : State) : Bool :=
  if s.hk.firstRound then
    (List.range 12).all fun k =>
      let v := s.rdZ (F.CTL_HK_VAL_VAL (16 + k))
      decide (0 ≤ v) && decide (v ≤ 1360)
  else s.interimOk

/-- The 27-bit byte address and the number of bytes of the staged operation (R494). -/
def State.nvmAddr (s : State) : Nat := s.rd F.CTL_NVM_ADDR_ADDR + 2 ^ 20 * s.rd F.CTL_NVM_ADDR_HI_ADDR
def State.nvmLen (s : State) : Nat := s.rd F.CTL_NVM_OP_LENM1 + 1

/-- The staged operation lies in the flash, and a PROGRAM in one of its pages. -/
def State.nvmRangeOk (s : State) : Bool :=
  let op := s.rd F.CTL_NVM_OP_OP
  let a := s.nvmAddr
  let last := a + s.nvmLen - 1
  let page := max 1 s.boot.pageSize
  match op with
  | 0 => Nat.blt last s.boot.density
  | 1 => Nat.blt last s.boot.density && a / page == last / page
  | 2 => Nat.blt a s.boot.density
  | _ => false

/-- EXEC NVM_PROGRAM (R466, R487). -/
def State.nvmStart (s : State) : Status × State :=
  if !s.nvmTempOk then (.temp, s)
  else if s.boot.nvmlock && s.boot.verifyDone && !s.boot.failed then (.locked, s)
  else if !s.boot.flashDone || (!s.boot.verifyDone && !s.boot.failed) then (.refused, s)
  else if !s.nvmRangeOk then (.refused, s)
  else (.ok, s.startOp 5 (.nvm (s.rd F.CTL_NVM_OP_OP) s.nvmAddr s.nvmLen))

/-- Byte `k` of CTL_NVM_BUF (R494). -/
def State.nvmByte (s : State) (k : Nat) : Byte := BitVec.ofNat 8 (s.rd (F.CTL_NVM_BUF_DATA (k / 2)) / 2 ^ (8 * (k % 2)))

/-- Put byte `k` into CTL_NVM_BUF. -/
def State.setNvmByte (s : State) (k : Nat) (b : Byte) : State :=
  s.setWord (0xF100 + k / 2) (putBits (s.word (0xF100 + k / 2)) (8 * (k % 2) + 7) (8 * (k % 2)) b.toNat)

/-- NVM_DONE (R487): CTL_OPRESULT reads 0, 1 for a flash that did not finish, 2 for a read-back that differs. -/
def execNvmDone (t : Nat) (ending : NvmEnd) (s : State) : Host.Outcome State Fault Refusal :=
  let s := s.begin t
  match s.mgmt.op, ending with
  | some (.nvm _ _ _), .timeout => .next (s.endOp 1)
  | some (.nvm op _ len), .finished bytes =>
    if op == 0 then
      .next (((bytes.take len).zipIdx.foldl (fun (s : State) e => s.setNvmByte e.2 e.1) s).endOp 0)
    else if op == 1 then
      .next (s.endOp (if bytes == (List.range len).map s.nvmByte then 0 else 2))
    else .next (s.endOp 0)
  | _, _ => .next s

/-! ### Attestation (R488 to R490) -/

/-- The state word of R489. -/
def State.stateWord (s : State) : Word :=
  let dev := match s.dev with | .boot => 1 | .run => 2 | .degraded => 3 | _ => 0
  mkWord [(17, dev), (14, s.saf.st.code), (13, b2n s.provisioned), (12, b2n (s.flag F.CTL_BOOT_SHIMIMG)),
          (11, b2n s.tbu.holdover), (10, b2n s.lnk.joined), (5, s.lnk.pos % 32), (0, s.saf.chA.zs % 16)]

/-- EXEC ATTEST: refused before both image signatures have been verified. -/
def State.attestStart (s : State) : Status × State :=
  if !s.boot.verifyDone then (.refused, s)
  else (.ok, s.startOp 4 (.attest ((List.range 13).map fun i => s.word (0xF030 + i)) s.stateWord))

/-- The message of R488: challenge, IMGDIG, SHMDIG and the state word. -/
def State.attestMsg (s : State) (chal : List Word) (state : Word) : List Byte :=
  bytesBE (natOf chal) 32 ++ bytesBE (s.rdWide 0xF010 13) 32 ++ bytesBE s.shmDig 32 ++ wordBytes state

/-- ATTEST_DONE (R488): the signature over the message, and the state word used. -/
def execAttestDone (t : Nat) (s : State) : Host.Outcome State Fault Refusal :=
  let s := s.begin t
  match s.mgmt.op with
  | some (.attest chal state) =>
    let sig := Config.sm2Sign s.free (Config.sm3 (s.attestMsg chal state))
    let s := { s with free := s.free + 1 }
    let s := ((s.wrWide 0xF040 13 sig.1.toNat).wrWide 0xF04D 13 sig.2.toNat).setWord 0xF03D state
    .next (s.endOp 0)
  | _ => .next s

/-! ### The certificate (R490, R493) -/

/-- Byte `k` of the certificate, 0 beyond its end. -/
def certByte (k : Nat) : Nat := ((Config.certificate.take 2048).getD k 0).toNat

/-- CTL_CERT_DATA at the present ADDR, and CTL_CERT_LEN, which reads from BOOT on. -/
def State.viewCert (s : State) (a : Nat) : Option Word :=
  if a == 0xF05A then some (if s.alive then BitVec.ofNat 20 (min 2048 Config.certificate.length) else 0)
  else if a == 0xF05C then
    let k := s.rd F.CTL_CERT_ADDR_ADDR
    some (BitVec.ofNat 20 (certByte k + 256 * certByte (k + 1)))
  else none

/-- A read of CTL_CERT_DATA adds 2 to ADDR (R493). -/
def State.certNext (s : State) : State := s.wr F.CTL_CERT_ADDR_ADDR (s.rd F.CTL_CERT_ADDR_ADDR + 2)

end Machine

end Sys2Proof
end

