-- ==== Sys2Proof/Machine/Housekeeping.lean ====
section
/-! DEFINITION. Housekeeping and the operating profiles (R43, R108, R496 to R513). -/

namespace Sys2Proof.Machine

/-! ### Values (R497, R498) -/

/-- The corrected code, by the ADC Shim of index 1 (R497). -/
def State.corrOf (s : State) (raw : Nat) : Nat :=
  let sh := s.shim 6 1
  let ofs := signedWord (sh.getD 0 0)
  let gt := signedWord (sh.getD 1 0)
  (clampZ 0 4095 (rdiv0 (((raw % 4096 : Nat) - ofs) * (262144 + gt)) 262144)).toNat

/-- The full scale of a voltage channel in mV (R496). -/
def fullScale (ch : Nat) : Nat :=
  if ch == 30 || ch == 32 || ch == 34 then 2560 else if ch == 35 then 3840 else 1280

/-- VAL of a channel from its corrected code (R498). An ideality of 0 gives a diode no stated value. -/
def State.valOf (s : State) (ch corr : Nat) : Int × State :=
  let ni := s.rd F.CTL_HK_DIODE_NIDEAL
  if ch == 0 then (((rdiv (5 * corr) 32 : Nat) : Int), s)
  else if ch == 1 || ch == 2 then
    if ni == 0 then
      let (v, s) := s.draw
      (signed 20 (v % 2 ^ 20), s)
    else ((rdiv (corr * 6451) ni : Nat) - 4370, s)
  else if within 16 27 ch then (clampZ (-640) 2400 (Config.sensorTrim (ch - 16) corr), s)
  else (((rdiv (corr * fullScale ch) 4096 : Nat) : Int), s)

/-- VAL of a channel as latched. -/
def State.hkVal (s : State) (ch : Nat) : Int := s.rdZ (F.CTL_HK_VAL_VAL ch)

/-- Latch a result (R499). -/
def State.latchHk (s : State) (ch corr : Nat) (lp : Bool) : State :=
  let (v, s) := s.valOf ch corr
  (s.setWord (0xD100 + ch) (mkWord [(19, 1), (18, b2n lp), (0, corr)])).wrZ (F.CTL_HK_VAL_VAL ch) v

/-! ### Charging and warnings (R108, R502) -/

/-- A diode fault permits charging again: cleared, and both diodes valid on two consecutive rounds (R108). -/
def State.diodeRecover (s : State) : State :=
  if s.edu.diodeFlt && !s.flag F.EDU_FAULT_TDIODE_FAULT && Nat.ble 2 s.edu.diodeOk then
    (s.modEdu fun e => { e with diodeFlt := false }).chgEval
  else s

/-- A diode reads open or shorted (R498). -/
def diodeBad (corr : Nat) : Bool := !within 2000 4079 corr

/-- A diode's conversion sets TDIODE_FAULT (R117, R498). -/
def State.noteDiode (s : State) (ch corr : Nat) : State :=
  if (ch == 1 || ch == 2) && diodeBad corr then
    let before := s.tempEmit
    let s := (s.put F.EDU_FAULT_TDIODE_FAULT true).modEdu fun e => { e with diodeFlt := true, diodeOk := 0 }
    (s.noteTempEmit before).chgEval
  else s

/-- Two consecutive rounds are needed to end a condition: whether it holds, and the count of good rounds. -/
def hold2 (on : Bool) (n : Nat) (bad good : Bool) : Bool × Nat :=
  if bad then (true, 0) else if !on then (false, 0) else if !good then (true, 0) else if Nat.ble 1 n then (false, 0) else (true, n + 1)

/-- The largest VAL of the on-die sensors. -/
def State.dieMax (s : State) : Int := ((List.range 12).map fun k => s.hkVal (16 + k)).foldl max (s.hkVal 16)

/-- The charging conditions after a round (R108). -/
def State.roundCharge (s : State) : State :=
  let before := s.tempEmit
  let lo := 16 * s.rdZ F.EDU_TWIN_TLO
  let hi := 16 * s.rdZ F.EDU_TWIN_THI
  let d := [s.hkVal 1, s.hkVal 2]
  let out := d.any fun v => decide (v < lo) || decide (hi < v)
  let back := d.all fun v => decide (lo + 32 ≤ v) && decide (v ≤ hi - 32)
  let valid := [1, 2].all fun ch => !diodeBad (s.rd (F.CTL_HK_RAW_CORR ch))
  let m := s.dieMax
  let s := s.modEdu fun e =>
    let (dout, din) := hold2 e.diodeOut e.diodeIn out back
    let (hot, ok) := hold2 e.dieHot e.dieOk (decide (1840 < m)) (decide (m ≤ 1808))
    { e with diodeOut := dout, diodeIn := din, dieHot := hot, dieOk := ok, diodeOk := if valid then e.diodeOk + 1 else 0 }
  let s := s.put F.CTL_HK_STATUS_DIE115 (decide (1840 < m))
  (s.diodeRecover.noteTempEmit before).chgEval

/-- TEMP_WARN after a round (R502), and CTL_HK_TMAX; a largest value beyond its 12 bits has no stated form. -/
def State.roundTemp (s : State) : State :=
  let m := s.dieMax
  let (v, s') := s.draw
  let s := if decide (-2048 ≤ m) && decide (m ≤ 2047) then s.wrZ F.CTL_HK_TMAX_T m else s'.wr F.CTL_HK_TMAX_T v
  let w := s.rdZ F.CTL_HK_TWARN_TWARN
  let was := s.flag F.CTL_HK_STATUS_TEMP_WARN
  let on := if was then decide (w - 80 < m) else decide (w ≤ m)
  if on == was then s else (s.put F.CTL_HK_STATUS_TEMP_WARN on).raise 0x48 .warn (b2n on)

/-- SUPPLY_WARN of monitor k after a round (R502). -/
def State.roundSupply (s : State) (k : Nat) : State :=
  let v := s.hkVal (28 + k)
  let bad := decide (v < s.rd (F.CTL_HK_SUPLIM_SLOSHI (2 * k))) || decide ((s.rd (F.CTL_HK_SUPLIM_SLOSHI (2 * k + 1)) : Int) < v)
  let was := bitOf (s.rd F.CTL_HK_STATUS_SUPPLY_WARN) k
  let nout := if bad then s.hk.supOut.nat k + 1 else 0
  let nin := if bad then 0 else s.hk.supIn.nat k + 1
  let s := s.modHk fun h => { h with supOut := h.supOut.setNat k (min 2 nout), supIn := h.supIn.setNat k (min 2 nin) }
  let on := if was then !Nat.ble 2 nin else Nat.ble 2 nout
  if on == was then s
  else (s.put ⟨0xD000, k, k⟩ on).raise 0x49 .warn (k + 8 * b2n on)

/-! ### Detector bias (R503) -/

/-- The value of the source that BSRC names. -/
def State.biasSource (s : State) : Int :=
  match s.rd F.CTL_HK_BIAS_BSRC with
  | 0 => s.hkVal 1
  | 1 => s.hkVal 2
  | 2 => s.hkVal (16 + s.rd F.CTL_HK_BTS_TS)
  | _ => s.hkVal 3

/-- The points of CTL_HK_BTAB. -/
def State.biasTab (s : State) : List (Int × Int) :=
  (List.range 16).map fun i => (s.rdZ (F.CTL_HK_BTAB_TCODE (2 * i)), (s.rd (F.CTL_HK_BTAB_TCODE (2 * i + 1)) : Int))

/-- Linear interpolation as a fraction (numerator, denominator); the end codes beyond the ends. -/
def interpolate (x : Int) : List (Int × Int) → Int × Int
  | [] => (0, 1)
  | [p] => (p.2, 1)
  | p :: q :: r =>
    if x ≤ p.1 then (p.2, 1)
    else if x ≤ q.1 then (p.2 * (q.1 - p.1) + (q.2 - p.2) * (x - p.1), q.1 - p.1)
    else interpolate x (q :: r)

/-- BCODE moves toward the table's code by at most BSLEW. How a fraction is rounded is not stated: it becomes one of its two
neighbours by a free value. -/
def State.roundBias (s : State) : State :=
  let (n, d) := interpolate s.biasSource s.biasTab
  let (v, s') := s.draw
  let exact := d == 0 || n % d == 0
  let goal := if exact then n / max 1 d else n / d + ((v % 2 : Nat) : Int)
  let s := if exact then s else s'
  let c : Int := s.rd F.CTL_HK_BIAS_BCODE
  let k : Int := s.rd F.CTL_HK_BSLEW_BSLEW
  s.wr F.CTL_HK_BIAS_BCODE (clampZ (c - k) (c + k) goal).toNat

/-! ### Rounds (R496, R499, R500, R512, R513) -/

/-- The channels of a round that starts now (R496, R499). -/
def State.roundChannels (s : State) : List Nat :=
  let hv := s.hk.urgAt.all fun x => Nat.ble (x + 1000000) s.clk
  (if hv then [0] else []) ++ [1, 2] ++ ((List.range 13).filter fun j => bitOf (s.rd F.CTL_HK_AIN_AINMASK) j).map (3 + ·) ++
    (List.range 20).map (16 + ·)

/-- The instant at which a round conversion may start: an urgent conversion runs to its end first. -/
def State.convStart (s : State) : Nat := s.hk.urgAt.elim s.clk fun x => max s.clk (x + 1000)

/-- ROUND_START (R499, R512): at a device-time multiple of PERIOD, with the settings as they stand. -/
def execRoundStart (t : Nat) (s : State) : Host.Outcome State Fault Refusal :=
  let s := s.begin t
  if !s.hk.rounds || s.now % (1000 * max 1 (s.rd F.CTL_HK_CFG_PERIOD)) != 0 then .next s
  else
    let todo := s.roundChannels
    let st := s.convStart
    .next (s.modHk fun h => { h with todo := todo, convAt := st, lp := s.flag F.CTL_HK_CFG_LP })

/-- Nanoseconds of a round conversion (R497). -/
def State.convNs (s : State) : Nat := if s.hk.lp then 4000 else 1000

/-- What the end of a round brings (R502, R503). -/
def State.roundEnd (s : State) : State :=
  let s := s.modHk fun h => { h with firstRound := true }
  let s := s.roundCharge.roundTemp
  ((List.range 8).foldl State.roundSupply s).roundBias

/-- CONVERSION_END (R499): the next channel of the round is latched, and after the last one the round's values act. -/
def execConversionEnd (t ch raw : Nat) (s : State) : Host.Outcome State Fault Refusal :=
  let s := s.begin t
  match s.hk.todo with
  | [] => .next s
  | c :: rest =>
    if c != ch || Nat.blt s.clk (s.hk.convAt + s.convNs) then .next s
    else
      let corr := s.corrOf raw
      let s := (s.latchHk ch corr s.hk.lp).noteDiode ch corr
      let st := s.convStart
      let s := s.modHk fun h => { h with todo := rest, convAt := st }
      .next (if rest.isEmpty then s.roundEnd else s)

/-- URGENT_CONVERSION (R500): it starts URGDLY after the charge PWM event, aborts a round conversion in progress, which
restarts at its end, and gives EDU_HV. -/
def execUrgentConversion (t raw : Nat) (s : State) : Host.Outcome State Fault Refusal :=
  let s := s.begin t
  match s.hk.pwmAt with
  | none => .next s
  | some p =>
    if !s.hk.rounds || Nat.blt s.clk (p + s.rd F.CTL_HK_URG_URGDLY) then .next s
    else
      let abort := !s.hk.todo.isEmpty && Nat.ble s.hk.convAt s.clk && Nat.blt s.clk (s.hk.convAt + s.convNs)
      let s := if abort then s.inc F.CTL_HK_ABORT_COUNT else s
      let wait := !s.hk.todo.isEmpty && Nat.blt s.clk (s.hk.convAt + s.convNs)
      let s := s.modHk fun h => { h with pwmAt := none, urgAt := some s.clk, convAt := if wait then s.clk + 1000 else h.convAt }
      let corr := s.corrOf raw
      let s := (s.inc F.CTL_HK_URGCNT_COUNT).latchHk 0 corr false
      .next (s.wr F.EDU_HV_HV (rdiv (5 * corr) 32))

/-- INTERIM_CONVERSION (R513): TS0 to TS11 before the first round, with the calibration in OTP. -/
def execInterimConversion (t : Nat) (raws : List Nat) (s : State) : Host.Outcome State Fault Refusal :=
  let s := s.begin t
  if s.hk.firstRound || raws.length != 12 then .next s
  else .next (s.modHk fun h => { h with interim := raws.zipIdx.map fun e => Config.interimTrim e.2 e.1 })

/-! ### Profiles (R43, R506 to R510) -/

/-- The library page of a profile goes into the inactive page (R510). -/
def State.copyProfile (s : State) (code : Nat) : State :=
  match assoc s.seq.library (s.rd (F.CTL_PROF_REC_LIB code)) with
  | none => s
  | some p => s.modSeq fun q => if q.actB then { q with pageA := p } else { q with pageB := p }

/-- Groups that a profile ungates start (R510). -/
def State.ungate (s : State) (code : Nat) : State :=
  let g := s.rd F.CTL_PROFILE_GATED
  let s := s.wr F.CTL_PROFILE_GATED (g &&& (255 - s.rd (F.CTL_PROF_REC_ROWMASK code)))
  (List.range 256).foldl State.refreshActive s

/-- EXEC PROFILE_SET (R43, R509): a code equal to the active profile is answered with OK and starts nothing. -/
def State.profileStart (s : State) : Status × State :=
  let code := s.rd F.CTL_PROF_ARG_CODE
  if Nat.blt 4 code || !s.flag (F.CTL_PROF_REC_DEF code) then (.refused, s)
  else if !bitOf (s.rd (F.CTL_PROF_ZS_ZSOK code)) s.saf.chA.zs then (.refused, s)
  else if !s.ready || s.halted || s.seq.batten.isSome || s.seq.loading.isSome then (.refused, s)
  else if !(assoc s.saf.pageSafe (s.rd (F.CTL_PROF_REC_LIB code))).all s.figuresOk then (.refused, s)
  else if code == s.rd F.CTL_PROFILE_ACTIVE then (.ok, s)
  else
    let s := (s.startOp 1 (.profileSet code s.clk false)).put F.CTL_PROFILE_SWPEND true
    (.ok, (s.copyProfile code).ungate code)

/-- The switch (R74, R510): the page switches, histograms close with CAUSE PROFILE, and a wait in a SYNC ends. -/
def State.profileSwitch (s : State) (code : Nat) : State :=
  let wait := s.seq.st == .syncwait
  let s := (s.copyProfile code).otherPage 6
  let s := s.modSeq fun q => { q with
    st := if q.st == .halted then .halted else .run, syncHit := none, deferred := none, cursor := if wait then s.now else q.cursor }
  let s := s.enter (!s.seq.actB) (s.rd (F.CTL_PROF_ENT_ENTRY code))
  ((s.takeProfile code).put F.CTL_PROFILE_SWPEND false).chgEval.safEval

/-- PROFILE_SWITCH (R510): the EOF has passed the sequencer. -/
def execProfileSwitch (t : Nat) (s : State) : Host.Outcome State Fault Refusal :=
  let s := s.begin t
  match s.mgmt.op with
  | some (.profileSet code _ true) => .next ((s.profileSwitch code).endOp 0)
  | _ => .next s

/-- A frame is open as the sequencer issues its marks. -/
def State.frameIssued (s : State) : Bool :=
  match (s.seq.marks.filter fun m => m.sof || m.eof).getLast? with
  | some m => m.sof
  | none => s.fso.frameOpen

/-- PROFILE_EOF_TIMEOUT (R510): at 42 ms without an EOF the open frame closes as by EOF, and the switch follows. -/
def execProfileEofTimeout (t : Nat) (s : State) : Host.Outcome State Fault Refusal :=
  let s := s.begin t
  match s.mgmt.op with
  | some (.profileSet code t0 false) =>
    if Nat.blt s.clk (t0 + 42000000) then .next s
    else
      let s := if s.frameIssued then s.pushMark false false true s.seq.tag else s
      .next (s.modMgmt fun x => { x with op := some (.profileSet code t0 true) })
  | _ => .next s

end Sys2Proof.Machine
end

