-- ==== Sys2Proof/Machine/HostPort.lean ====
section
/-! DEFINITION. The management port (R11 to R13, R22 to R26, R516 to R528, R555): registers as they read, reads and writes with
their effects, the judgement of a frame. -/

namespace Sys2Proof.Machine

/-! ### Registers as they read -/

/-- CTL_STATUS (R533). -/
def State.viewCtl (s : State) : Word :=
  let st := match s.dev with | .reset => 0 | .boot => 1 | .run => 2 | .degraded => 3 | .thermal => 4
  mkWord [(17, st), (16, b2n s.ready), (15, b2n s.faultLow), (14, b2n s.halted), (13, b2n (s.saf.st == .clamp)),
          (0, s.mgmt.evq.length)]

/-- The word at an address that follows the state of a unit; none where the word is held as written. -/
def State.viewOf (s : State) (a : Nat) : Option Word :=
  match a / 4096 with
  | 0 => if a == 1 then some s.viewCtl else s.viewSeq a
  | 1 => s.viewTbu a
  | 2 => s.viewEdu a
  | 3 => s.viewStu a
  | 4 | 5 => s.viewRta a
  | 6 => (s.viewHist a).orElse fun _ => s.viewEcho a
  | 7 => s.viewCap a
  | 8 => s.viewFso a
  | 9 => s.viewCmp a
  | 10 => s.viewMem a
  | 11 => s.viewLnk a
  | 12 => s.viewSaf a
  | 14 => s.viewShm a
  | 15 => s.viewCert a
  | _ => none

/-- The word at an address as it reads. -/
def State.view (s : State) (a : Nat) : Word := (s.viewOf a).getD (s.word a)

/-! ### Registers of several words (R11 to R13) -/

/-- The multi-word registers of the blocks, by first address and number of words, near an address. -/
def multiWords (a : Nat) : List (Nat × Nat) :=
  match a / 4096 with
  | 0 => [(0x0008, 4), (0x0110, 3), (0x0122, 2)]
  | 1 => [(0x1001, 2), (0x1003, 2), (0x100D, 3), (0x1010, 2)]
  | 2 => [(0x2108, 2), (0x210A, 2), (0x210C, 2), (0x210E, 2), (0x2110, 2), (0x2112, 2), (0x2118, 2), (0x211A, 2), (0x211C, 2)]
  | 4 => [(a - a % 16 + 12, 2)]
  | 5 => if within 0x5030 0x505F a then [(a - a % 4 + 1, 2)] else []
  | 6 => [(0x6041, 2), (0x6300, 2)]
  | 7 => if within 0x7080 0x709F a then [(a - a % 8, 2), (a - a % 8 + 2, 2)]
         else [(0x7005, 2), (0x7008, 2), (0x700A, 2), (0x7010, 13), (0x7030, 2), (0x7045, 2), (0x7048, 2), (0x704A, 2), (0x7050, 13)]
  | 8 => if within 0x8040 0x80BF a then [(a - a % 32 + 28, 3)] else [(0x8008, 3), (0x8102, 3)]
  | 9 => if within 0x9200 0x923F a then [(a - a % 2, 2)] else [(0x9102, 2), (0x9104, 2), (0x9106, 13), (0x9114, 2)]
  | 10 => [(0xA021, 2), (0xA025, 2), (0xA031, 2)]
  | 11 => if within 0xB400 0xB5FF a then [(a - a % 8 + 2, 2)]
          else if within 0xB610 0xB64F a then [(a - a % 8, 2), (a - a % 8 + 2, 2), (a - a % 8 + 4, 2)]
          else [(0xB007, 2), (0xB031, 2), (0xB600, 3)]
  | 12 => [(0xC030, 13), (0xC040, 13)]
  | 14 => [(0xE010, 13)]
  | 15 => [(0xF010, 13), (0xF020, 13), (0xF030, 13), (0xF040, 13), (0xF04D, 13), (0xF081, 2)]
  | _ => []

/-- The multi-word register that an address belongs to. -/
def multiOf (a : Nat) : Option (Nat × Nat) := (multiWords a).find? fun g => within g.1 (g.1 + g.2 - 1) a

/-- Latch words into the shadow of R12. -/
def State.latchShadow (s : State) (l : List (Nat × Word)) : State :=
  s.modMgmt fun x => { x with shadow := l.foldl (fun m e => SMap.put RegMap.resetWord m e.1 e.2) x.shadow }

/-- A word of the shadow; before the first read of the lowest word, the reset value (R12). Where the Reset column says
"image", that is the 0 of log entry 4: the image loads the register and not its shadow (log entry 166). -/
def State.shadowWord (s : State) (a : Nat) : Word := SMap.get RegMap.resetWord s.mgmt.shadow a

/-- Drop the staged words of a register (R13). -/
def State.dropStaged (s : State) (g : Nat × Nat) : State :=
  s.modMgmt fun x => { x with staged := x.staged.filter fun e => !within g.1 (g.1 + g.2 - 1) e.1 }

/-! ### Reads (R22, R340, R525) -/

/-- A READ of CTL_EVQ (R525, R526): the oldest entry leaves the queue, and EVQ_OVF reports the entries lost. -/
def State.readEvq (s : State) : Word × State :=
  match s.mgmt.evq with
  | [] => (0, s.latchShadow [(0x0009, 0), (0x000A, 0), (0x000B, 0)])
  | e :: q =>
    let ws := e.words
    let s := s.latchShadow [(0x0009, ws.getD 1 0), (0x000A, ws.getD 2 0), (0x000B, ws.getD 3 0)]
    let q := if s.mgmt.lost == 0 then q else insertEv ⟨0x7F, .warn, min 1023 s.mgmt.lost, s.now⟩ q
    (ws.getD 0 0, s.modMgmt fun x => { x with evq := q, lost := 0 })

/-- A READ of CAP_RDATA (R334, R340, R396): the word of the region at CAP_RADDR, which advances. Before training and without a
region it reads its reset value; a poisoned word, and an offset beyond the region, has no stated value, but MEM_UE of a stored
point record reads 1 where one of its bursts is poisoned. The access waits in MEM while the subchannel is unavailable (R399);
that wait is the answer's delay. -/
def State.readCap (s : State) (hits : List MemHit) : Word × State :=
  let ofs := s.rdWide 0x7030 2
  let i := 25 * s.regBase s.capReg + ofs
  let there := s.flag F.MEM_STATUS_TRAINED && s.regSize s.capReg != 0
  let inside := there && Nat.blt ofs (25 * s.regSize s.capReg)
  let s := if inside then s.memRead 0 4 true (hits.filter fun h => h.burst == i / 25) else s
  let ue := inside && s.poisoned 0 (i / 25)
  let s := (s.put F.CAP_RSTAT_UE ue).wrWide 0x7030 2 ((ofs + 1) % 2 ^ 40)
  let mark : Word := if inside && (s.word4Of i).any (fun l => l.any (s.poisoned 0)) then 0x80000 else 0
  if !there then (0, s)
  else if inside && !ue then (s.asRead 0 i (SMap.get (fun _ => 0) s.cap.store i) ||| mark, s)
  else
    let (v, s) := s.draw
    (BitVec.ofNat 20 v ||| mark, s)

/-- RC fields clear at a read (R22), but for what the device set in the same cycle (R23). -/
def State.clearRc (s : State) (a : Nat) (fs : List FieldDesc) : State :=
  let m := RegMap.mask fs fun x => x == .rc
  if m == 0 then s else s.setWord a ((s.word a &&& ~~~m) ||| (s.freshAt a &&& m))

/-- Read a register that stands at an address; `hits` is what memory found under a window read. -/
def State.readReg (s : State) (a : Nat) (fs : List FieldDesc) (hits : List MemHit) : Word × State :=
  if a == 0x0008 then s.readEvq
  else if a == 0x7032 then s.readCap hits
  else if a == 0xA014 || a == 0xA015 then
    let s := s.settlePass
    (s.view a, s.clearRc a fs)
  else if a == 0x810A then s.readRdata hits
  else if within 0xB100 0xB27F a then
    let s := s.lookAt a
    (s.view a, s.clearRc a fs)
  else if a == 0xF05C then (s.view a, s.certNext)
  else match multiOf a with
    | some (b, n) =>
      if a == b then
        let s' := s.latchShadow ((List.range (n - 1)).map fun i => (b + 1 + i, s.view (b + 1 + i)))
        (s.view a, s'.clearRc a fs)
      else (s.shadowWord a, s)
    | none => (s.view a, s.clearRc a fs)

/-! ### Writes (R13, R22, R24, R25, R555) -/

/-- The word at an address after a write of `w`, by the access codes of its fields (R22); a W1C bit that the device set in
the same cycle stays set (R23). -/
def State.mixed (s : State) (a : Nat) (w : Word) : Word :=
  match RegMap.fieldsAt a with
  | none => 0
  | some fs =>
    let rw := RegMap.mask fs fun x => x == .rw
    let w1c := RegMap.mask fs fun x => x == .w1c
    let old := s.word a
    (((old &&& ~~~rw) ||| (w &&& rw)) &&& ~~~(w &&& w1c &&& ~~~(s.freshAt a))) ||| (stuckBits a &&& rw)

/-- The state with a word, and the staged words of its register, written. -/
def State.poke (s : State) (a : Nat) (w : Word) : State :=
  match multiOf a with
  | none => s.setWord a (s.mixed a w)
  | some (b, n) =>
    let ws := s.mgmt.staged.filter fun e => within (b + 1) (b + n - 1) e.1
    let s' := ws.foldl (fun (s : State) e => s.setWord e.1 (s.mixed e.1 e.2)) s
    (s'.setWord a (s'.mixed a w)).dropStaged (b, n)

/-- A write of RTA_PCFG (R155, R160): EN = 0 takes effect at the next shot boundary; EN = 1 waits for PDRAINED. -/
def State.writePcfg (s s' : State) (a p : Nat) : Status × State :=
  let was := s.flag (F.RTA_PCFG_EN p)
  let now := s'.flag (F.RTA_PCFG_EN p)
  if now && !was && !s.flag (F.RTA_PSTAT_PDRAINED p) then (.draining, s)
  else if !s'.limitOk a then (.refused, s)
  else if was && !now then
    (.ok, (s'.put (F.RTA_PSTAT_PDRAINED p) false).modRta fun x => { x with disabling := p :: x.disabling })
  else if now && !was then (.ok, s'.refreshActive p)
  else (.ok, s')

/-- A write of RTA_SPAREr (R154). -/
def State.writeSpare (s : State) (r : Nat) (w : Word) : Status × State :=
  if !bitOf w.toNat 17 then (.ok, s)
  else if s.flag (F.RTA_SPARE_INUSE r) || s.flag (F.RTA_SPARE_FAILED r) then (.refused, s)
  else (.ok, s.substitute (32 * r + bitsOf w.toNat 4 0))

/-- A write of RTA_AIRIDX (R144). -/
def State.writeAir (s s' : State) : Status × State :=
  let new : Int := s'.rd F.RTA_AIRIDX_AIRIDX
  if Nat.blt (s.rd F.RTA_AIRDEV_AIRDEV) (new - s.boot.airidx).natAbs then (.refused, s) else (.ok, s'.setKr)

/-- A write of RTA_FCFG: frequency mode that is switched on starts a gate (R157). -/
def State.writeFcfg (s s' : State) (u : Nat) : Status × State :=
  if (s'.fcfg u).1 && !(s.fcfg u).1 then
    (.ok, s'.setUnit u { s'.unitSt u with fqA := 0, fqB := 0, fqT := 0, fqSeen := 0, fqN := 0, fqS := 0, fqK := 0, gate0 := s.clk })
  else (.ok, s')

/-- Writes in the RTA's global block. -/
def State.writeRta (s s' : State) (a : Nat) (w : Word) : Status × State :=
  if a == 0x5004 then s.writeAir s'
  else if within 0x5008 0x500F a then s.writeSpare (a - 0x5008) w
  else if a == 0x5014 && bitOf w.toNat 19 && s.saf.st == .clear then (.refused, s)
  else if within 0x5020 0x502B a then s.writeFcfg s' (264 + (a - 0x5020))
  else if s'.limitOk a then (.ok, s') else (.refused, s)

/-- ARM = 0 (R330): a PRE segment is abandoned, a POST segment completes. -/
def State.disarmCap (s : State) : State :=
  let s := s.put F.CAP_CTL_ARM false
  match s.cap.st with
  | .post | .idle => s
  | .pre | .rearm => s.modCap fun c => { c with st := if s.allClosed 0 then .full else .idle, lockFull := false, seg := none, drained := true }
  | .full => s.modCap fun c => { c with st := if c.lockFull then .idle else .full, drained := true }

/-- FULL is left through CLEAR or a new commit (R329). -/
def State.leaveFull (s : State) : State := if s.cap.st == .full then s.modCap fun c => { c with st := .idle, lockFull := false } else s

/-- A write of CAP_CTL (R316, R330, R337). -/
def State.writeCapCtl (s : State) (w : Word) : Status × State :=
  let arm := bitOf w.toNat 19
  let force := bitOf w.toNat 18
  let clear := bitOf w.toNat 17
  let armed := s.flag F.CAP_CTL_ARM
  if arm && !s.ready then (.refused, s)
  else if force && (s.cap.st == .idle || s.cap.st == .full) then (.refused, s)
  else if clear && (armed || !s.cap.drained) then (.refused, s)
  else
    let s := if clear then s.invalidateSegs.leaveFull else s
    let s := if force then s.condition { src := 15, time := s.now, fine := 0, coarse := false } else s
    if arm == armed || !s.ready then (.ok, s)
    else if arm then (.ok, if s.cap.st == .post then s.put F.CAP_CTL_ARM true else s.armCap)
    else (.ok, s.disarmCap)

/-- A write of CAP_SETUP (R321). -/
def State.writeSetup (s : State) (w : Word) : Status × State :=
  if !bitOf w.toNat 19 then (.ok, s)
  else match s.judgeSetup with
    | .ok => (.ok, (s.commitSetup s.stagedSetup).leaveFull)
    | st => (st, s)

/-- A write of CAP_SEGLOCK (R329, R336): a valid slot, or 0FFFFFh for none. -/
def State.writeSeglock (s s' : State) (w : Word) : Status × State :=
  if w != 0xFFFFF && (assoc s.cap.slots w.toNat).isNone then (.refused, s) else (.ok, s'.unlockCap)

/-- Writes in the CAP's block. -/
def State.writeCap (s s' : State) (a : Nat) (w : Word) : Status × State :=
  if a == 0x7001 then s.writeCapCtl w
  else if a == 0x7002 then s.writeSetup w
  else if a == 0x7024 || a == 0x7025 then s.writeSeglock s' w
  else if s'.limitOk a then (.ok, s') else (.refused, s)

/-- A write of CTL_BATTEN (R76, R89). -/
def State.writeBatten (s : State) (w : Word) : Status × State :=
  let kind := bitsOf w.toNat 19 18
  if Nat.ble 2 kind || !s.isHead || s.seq.batten.isSome then (.refused, s)
  else
    let arg := bitsOf w.toNat 11 0
    (.ok, s.issueBatten (kind == 1) (bitOf w.toNat 17) (if kind == 1 then arg % 256 else arg) s.now)

/-- Writes in the blocks of the STU and CEN (R249, R259, R260, R267). -/
def State.writeStu (s s' : State) (a : Nat) (w : Word) : Status × State :=
  if a == 0x3001 then (.ok, s'.stuFaultCleared (s.word a))
  else if a == 0x3005 then s.writeSns .ctrl w
  else if a == 0x3006 then s.writeSns .mon w
  else if a == 0x3040 || a == 0x3050 || a == 0x3060 then (.ok, s.writeCenCtl ((a - 0x3040) / 16) w)
  else if a == 0x3041 then (.ok, s.writeTgt w)
  else if within 0x3080 0x3097 a && s.bankBusy a then (.refused, s)
  else if s'.limitOk a then (.ok, s') else (.refused, s)

/-- Writes in the EDU's block (R101, R105, R106, R108). -/
def State.writeEdu (s s' : State) (a : Nat) : Status × State :=
  if a == 0x2001 then (.ok, (s'.faultCleared (s.word a)).diodeRecover)
  else if !s'.limitOk a then (.refused, s)
  else (.ok, if a == 0x2004 then s'.followHv else s')

/-- Writes in the LNK's block (R405, R409, R410, R433). -/
def State.writeLnk (s s' : State) (a : Nat) (w : Word) : Status × State :=
  if a == 0xB019 then s.hostLines w true
  else if a == 0xB01A then s.hostLines w false
  else if within 0xB100 0xB27F a && (a - 0xB100) % 32 == 0 then s.writeLcfg s' ((a - 0xB100) / 32) w
  else if within 0xB100 0xB27F a && (a - 0xB100) % 32 == 2 then s.writeTxfir s' w
  else if s'.limitOk a then (.ok, s') else (.refused, s)

/-- Writes in the Shim window (R483, R495). -/
def State.writeShim (s s' : State) (a : Nat) (w : Word) : Status × State :=
  if within 0xE100 0xE1FF a then s.writeShm (a - 0xE100) w
  else if (shimLen s'.shmKind s'.shmIndex).isNone then (.refused, s) else (.ok, s')

/-- The rule of the register at an address (R521 order 8, R555): `s'` is the state with the word written. -/
def State.ruleOf (s s' : State) (a : Nat) (w : Word) : Status × State :=
  match a / 4096 with
  | 0 => if a == 0x010E then s.writeBatten w else (.ok, s')
  | 1 => s.writeTbu s' a w |> fun (r : Status × State) => if r.1 == .ok && !s'.limitOk a then (.refused, s) else r
  | 2 => s.writeEdu s' a
  | 3 => s.writeStu s' a w
  | 4 => if a % 16 == 0 then s.writePcfg s' a ((a - 0x4000) / 16) else if s'.limitOk a then (.ok, s') else (.refused, s)
  | 5 => s.writeRta s' a w
  | 6 => if !s'.limitOk a then (.refused, s) else (.ok, if a == 0x6014 then s'.clearHistory else if a == 0x6063 then s'.evalForeign else s')
  | 7 => s.writeCap s' a w
  | 8 => s.writeFso s' a w
  | 9 => if a == 0x9100 then s.writeExpCtl w else (.ok, s')
  | 11 => s.writeLnk s' a w
  | 14 => s.writeShim s' a w
  | _ => if s'.limitOk a then (.ok, s') else (.refused, s)

/-- A write that the map lets through (R13): a higher word is staged; the lowest word, or a register of one word, is judged by
its rule, and a commit that is not OK discards the staged words. -/
def State.writeReg (s : State) (a : Nat) (w : Word) : Status × State :=
  match multiOf a with
  | some (b, n) =>
    if a != b then
      (.ok, s.modMgmt fun x => { x with staged := SMap.insert a w (SMap.erase x.staged a) })
    else match s.ruleOf (s.poke a w) a w with
      | (.ok, s') => (.ok, s')
      | (st, _) => (st, s.dropStaged (b, n))
  | none => match s.ruleOf (s.poke a w) a w with
      | (.ok, s') => (.ok, s')
      | (st, _) => (st, s)

/-- The status that R25 gives a write, from the access codes of the register's fields. -/
def r25 (fs : List FieldDesc) : Option Status :=
  if fs.any fun f => f.acc == .rw || f.acc == .w1c || f.acc == .wo then none
  else if fs.any fun f => f.acc == .lk || f.acc == .sf then some .locked else some .refused

/-! ### Frames (R517 to R523) -/

/-- What a frame is judged to be: its status, its data where the status is OK, and the state after it. -/
structure Verdict where
  status : Status
  data : Word
  next : State
  deriving DecidableEq, Repr

/-- One well-formed frame: the response that was due is shifted out, and its own is due with the next frame (R517). The port
takes no frame in RESET. -/
def State.frame (s : State) (t : Nat) (addr : Addr) (judge : State → Verdict) : Host.Outcome State Fault Refusal :=
  let s := s.begin t
  if !s.alive then .next s
  else
    let due := s.mgmt.resp
    let v := judge s
    let r : Resp := ⟨v.status, addr, if v.status == .ok then v.data else 0⟩
    .next (v.next.modMgmt fun x => { x with resp := r, shifted := some due })

/-- Orders 1 and 2 of R521: BUSY, and THERMAL for a frame that it does not exempt (R505). -/
def State.gate (s : State) (exempt : Bool) (judge : State → Verdict) : Verdict :=
  if s.mgmt.op.isSome then ⟨.busy, 0, s⟩
  else if s.dev == .thermal && !exempt then ⟨.temp, 0, s⟩
  else judge s

/-- A READ (R521). -/
def State.judgeRead (s : State) (a : Nat) (hits : List MemHit) : Verdict :=
  s.gate (within 0xD000 0xDFFF a) fun s =>
    match RegMap.fieldsAt a with
    | none => ⟨.badaddr, 0, s⟩
    | some fs =>
      let (w, s) := s.readReg a fs hits
      ⟨.ok, w, s⟩

/-- A WRITE (R521). A refusal of R25 at the lowest word discards what is staged for the register (R13). -/
def State.judgeWrite (s : State) (a : Nat) (w : Word) : Verdict :=
  s.gate false fun s =>
    match RegMap.fieldsAt a with
    | none => ⟨.badaddr, 0, s⟩
    | some fs =>
      match r25 fs with
      | some st => ⟨st, 0, s⟩
      | none =>
        let (st, s) := s.writeReg a w
        ⟨st, s.view a, s⟩

/-- An EXEC of a long operation (R521, R522). -/
def State.judgeExec (s : State) (code : Nat) (start : State → Status × State) : Verdict :=
  s.gate false fun s =>
    if s.boot.failed && code != 5 then
      ⟨if within 3 5 (s.rd F.CTL_BOOT_CAUSE) then .signature else .refused, 0, s⟩
    else
      let (st, s) := start s
      ⟨st, 0, s⟩

/-- EXEC PAGE_LOAD (R77). -/
def State.pageLoadStart (s : State) : Status × State :=
  let tgt := s.flag F.CTL_SEQ_LOADARG_TGT
  let lib := s.rd F.CTL_SEQ_LOADARG_LIB
  if tgt == s.seq.actB || s.seq.batten.any (fun b => !b.sync && b.pgB == tgt) || (assoc s.seq.library lib).isNone then (.refused, s)
  else (.ok, (s.startOp 3 (.pageLoad tgt lib s.clk)).modSeq fun q => { q with loading := some tgt })

/-- EXEC SCRUB_NOW (R398). -/
def State.scrubStart (s : State) : Status × State :=
  let start := s.rdWide 0xA031 2
  let count := s.rd F.MEM_SNARG_COUNT_COUNT
  if count == 0 || Nat.blt s.subBursts (start + count) then (.refused, s)
  else (.ok, s.startOp 7 (.scrub (s.flag F.MEM_SNARG_SUB) start count))

end Sys2Proof.Machine
end

