-- ==== Sys2Proof/Machine/HostRows.lean ====
section
/-! DEFINITION. The commands of the management port: the frames of R517 and R518, the seven long operations of R522, and the
register accesses that the opcode table gives a row of their own. -/

namespace Sys2Proof.Machine

/-- A READ frame at an address. -/
def State.hostRead (s : State) (t a : Nat) (hits : List MemHit) : Host.Outcome State Fault Refusal :=
  s.frame t (BitVec.ofNat 16 a) fun s => s.judgeRead a hits

/-- A WRITE frame at an address. -/
def State.hostWrite (s : State) (t a : Nat) (w : Word) : Host.Outcome State Fault Refusal :=
  s.frame t (BitVec.ofNat 16 a) fun s => s.judgeWrite a w

/-- An EXEC frame of a long operation. -/
def State.hostExec (s : State) (t code : Nat) (start : State → Status × State) : Host.Outcome State Fault Refusal :=
  s.frame t (BitVec.ofNat 16 code) fun s => s.judgeExec code start

/-- A WRITE frame at a register of an array; an index that the array does not have names no command. -/
def State.hostWriteAt (s : State) (t : Nat) (ok : Bool) (a : Nat) (w : Word) : Host.Outcome State Fault Refusal :=
  if ok then s.hostWrite t a w else .next (s.begin t)

/-! ### Frames -/

/-- NOP (R517, R521): also a frame with CMD 4h to Fh and an EXEC of no code of R522, which are REFUSED. -/
def execNop (t : Nat) (kind : FrameKind) (addr : Addr) (s : State) : Host.Outcome State Fault Refusal :=
  s.frame t addr fun s => s.gate (kind == .nop) fun s => ⟨if kind == .nop then .ok else .refused, 0, s⟩

/-- READ (R517). -/
def execRead (t : Nat) (addr : Addr) (s : State) : Host.Outcome State Fault Refusal := s.hostRead t addr.toNat []

/-- WRITE (R25, R517, R555). -/
def execWrite (t : Nat) (addr : Addr) (data : Word) (s : State) : Host.Outcome State Fault Refusal := s.hostWrite t addr.toNat data

/-- MALFORMED_FRAME (R518): counted in CTL_SPIERR; the response that was due stays due. -/
def execMalformedFrame (t : Nat) (s : State) : Host.Outcome State Fault Refusal :=
  let s := s.begin t
  .next (if s.alive then s.inc F.CTL_SPIERR_COUNT else s)

/-- EVQ_READ (R525): a READ of CTL_EVQ. -/
def execEvqRead (t : Nat) (s : State) : Host.Outcome State Fault Refusal := s.hostRead t 0x0008 []

/-! ### Long operations -/

/-- PROFILE_SET (R43, R509). -/
def execProfileSet (t : Nat) (s : State) : Host.Outcome State Fault Refusal := s.hostExec t 1 State.profileStart

/-- RECAL (R486). -/
def execRecal (t : Nat) (s : State) : Host.Outcome State Fault Refusal := s.hostExec t 2 State.recalStart

/-- PAGE_LOAD (R77). -/
def execPageLoad (t : Nat) (s : State) : Host.Outcome State Fault Refusal := s.hostExec t 3 State.pageLoadStart

/-- ATTEST (R488). -/
def execAttest (t : Nat) (s : State) : Host.Outcome State Fault Refusal := s.hostExec t 4 State.attestStart

/-- NVM_PROGRAM (R487). -/
def execNvmProgram (t : Nat) (s : State) : Host.Outcome State Fault Refusal := s.hostExec t 5 State.nvmStart

/-- TBU_RETUNE (R457). -/
def execTbuRetune (t : Nat) (s : State) : Host.Outcome State Fault Refusal := s.hostExec t 6 State.retuneStart

/-- SCRUB_NOW (R398). -/
def execScrubNow (t : Nat) (s : State) : Host.Outcome State Fault Refusal := s.hostExec t 7 State.scrubStart

/-! ### Register accesses -/

/-- PAGE_SWITCH_BATTEN (R73, R76): a write of CTL_BATTEN. -/
def execPageSwitchBatten (t : Nat) (data : Word) (s : State) : Host.Outcome State Fault Refusal := s.hostWrite t 0x010E data

/-- SYNC_RELEASE_BATTEN (R66, R76): a write of CTL_BATTEN. -/
def execSyncReleaseBatten (t : Nat) (data : Word) (s : State) : Host.Outcome State Fault Refusal := s.hostWrite t 0x010E data

/-- ARM (R337): a write of CAP_CTL. -/
def execArm (t : Nat) (data : Word) (s : State) : Host.Outcome State Fault Refusal := s.hostWrite t 0x7001 data

/-- DISARM (R330): a write of CAP_CTL. -/
def execDisarm (t : Nat) (data : Word) (s : State) : Host.Outcome State Fault Refusal := s.hostWrite t 0x7001 data

/-- FORCE (R316): a write of CAP_CTL. -/
def execForce (t : Nat) (data : Word) (s : State) : Host.Outcome State Fault Refusal := s.hostWrite t 0x7001 data

/-- CAP_CLEAR (R330): a write of CAP_CTL. -/
def execCapClear (t : Nat) (data : Word) (s : State) : Host.Outcome State Fault Refusal := s.hostWrite t 0x7001 data

/-- CAP_SETUP_GO (R321): a write of CAP_SETUP. -/
def execCapSetupGo (t : Nat) (data : Word) (s : State) : Host.Outcome State Fault Refusal := s.hostWrite t 0x7002 data

/-- CAP_SEGLOCK (R329): a write of CAP_SEGLOCK0 or CAP_SEGLOCK1. -/
def execCapSeglock (t n : Nat) (data : Word) (s : State) : Host.Outcome State Fault Refusal :=
  s.hostWriteAt t (Nat.blt n 2) (0x7024 + n) data

/-- CAP_RDATA (R340): a READ of the window. -/
def execCapRdata (t : Nat) (hits : List MemHit) (s : State) : Host.Outcome State Fault Refusal := s.hostRead t 0x7032 hits

/-- FSO_COMMIT (R354, R355): a write of FSO_Sn_CMT. -/
def execFsoCommit (t stream : Nat) (data : Word) (s : State) : Host.Outcome State Fault Refusal :=
  s.hostWriteAt t (Nat.blt stream 4) (0x804B + 32 * stream) data

/-- FSO_PIN (R357). -/
def execFsoPin (t : Nat) (data : Word) (s : State) : Host.Outcome State Fault Refusal := s.hostWrite t 0x8100 data

/-- FSO_REL (R357). -/
def execFsoRel (t : Nat) (data : Word) (s : State) : Host.Outcome State Fault Refusal := s.hostWrite t 0x8105 data

/-- FSO_RESEND (R357). -/
def execFsoResend (t : Nat) (data : Word) (s : State) : Host.Outcome State Fault Refusal := s.hostWrite t 0x8106 data

/-- FSO_RDATA (R357, R364): a READ of the pinned frame. -/
def execFsoRdata (a : MemAccess) (s : State) : Host.Outcome State Fault Refusal := s.hostRead a.t 0x810A a.hits

/-- EXPORT_GO (R374): a write of CMP_EXP_CTL. -/
def execExportGo (t : Nat) (data : Word) (s : State) : Host.Outcome State Fault Refusal := s.hostWrite t 0x9100 data

/-- EXPORT_ABORT (R377): a write of CMP_EXP_CTL. -/
def execExportAbort (t : Nat) (data : Word) (s : State) : Host.Outcome State Fault Refusal := s.hostWrite t 0x9100 data

/-- MANUAL_SUBSTITUTION (R154): a write of RTA_SPAREr. -/
def execManualSubstitution (t row : Nat) (data : Word) (s : State) : Host.Outcome State Fault Refusal :=
  s.hostWriteAt t (Nat.blt row 8) (0x5008 + row) data

/-- PORT_DISABLE (R155): a write of RTA_PCFG. -/
def execPortDisable (t port : Nat) (data : Word) (s : State) : Host.Outcome State Fault Refusal :=
  s.hostWriteAt t (Nat.blt port 256) (0x4000 + 16 * port) data

/-- PORT_ENABLE (R155): a write of RTA_PCFG. -/
def execPortEnable (t port : Nat) (data : Word) (s : State) : Host.Outcome State Fault Refusal :=
  s.hostWriteAt t (Nat.blt port 256) (0x4000 + 16 * port) data

/-- AIRIDX_WRITE (R144). -/
def execAiridxWrite (t : Nat) (data : Word) (s : State) : Host.Outcome State Fault Refusal := s.hostWrite t 0x5004 data

/-- RPE_EHIST_WRITE (R206). -/
def execRpeEhistWrite (t : Nat) (data : Word) (s : State) : Host.Outcome State Fault Refusal := s.hostWrite t 0x6014 data

/-- SEL_WRITE (R249): a write of STU_SNS_C or STU_SNS_M. -/
def execSelWrite (t : Nat) (ch : SenseCh) (data : Word) (s : State) : Host.Outcome State Fault Refusal :=
  s.hostWrite t (0x3005 + chNo ch) data

/-- GAIN_WRITE (R249): a write of STU_SNS_C or STU_SNS_M. -/
def execGainWrite (t : Nat) (ch : SenseCh) (data : Word) (s : State) : Host.Outcome State Fault Refusal :=
  s.hostWrite t (0x3005 + chNo ch) data

/-- DRIVE_STOP_CLEAR (R267): a write of STU_FAULT. -/
def execDriveStopClear (t : Nat) (data : Word) (s : State) : Host.Outcome State Fault Refusal := s.hostWrite t 0x3001 data

/-- LASER_FAULT_CLEAR (R101): a write of EDU_FAULT. -/
def execLaserFaultClear (t : Nat) (data : Word) (s : State) : Host.Outcome State Fault Refusal := s.hostWrite t 0x2001 data

/-- BOOST_FAULT_CLEAR (R106): a write of EDU_FAULT. -/
def execBoostFaultClear (t : Nat) (data : Word) (s : State) : Host.Outcome State Fault Refusal := s.hostWrite t 0x2001 data

/-- MODE_REQUEST (R262): a write of CEN_Lx_CTL. -/
def execModeRequest (t loop : Nat) (data : Word) (s : State) : Host.Outcome State Fault Refusal :=
  s.hostWriteAt t (Nat.blt loop 3) (0x3040 + 16 * loop) data

/-- TARGET_WRITE (R260): a write of CEN_L0_TGT. -/
def execTargetWrite (t : Nat) (data : Word) (s : State) : Host.Outcome State Fault Refusal := s.hostWrite t 0x3041 data

/-- JIG_WRITE (R409): a write of LNK_LCFG. -/
def execJigWrite (t lane : Nat) (data : Word) (s : State) : Host.Outcome State Fault Refusal :=
  s.hostWriteAt t (Nat.blt lane 12) (0xB100 + 32 * lane) data

/-- BITSLIP (R410): a write of LNK_LCFG. -/
def execBitslip (t lane : Nat) (data : Word) (s : State) : Host.Outcome State Fault Refusal :=
  s.hostWriteAt t (Nat.blt lane 12) (0xB100 + 32 * lane) data

/-- LNK_TBUS_SET (R433). -/
def execLnkTbusSet (t : Nat) (data : Word) (s : State) : Host.Outcome State Fault Refusal := s.hostWrite t 0xB019 data

/-- LNK_TBUS_CLR (R433). -/
def execLnkTbusClr (t : Nat) (data : Word) (s : State) : Host.Outcome State Fault Refusal := s.hostWrite t 0xB01A data

/-- SHIM_WINDOW_WRITE (R483): a write of CTL_SHM_DATA. -/
def execShimWindowWrite (t i : Nat) (data : Word) (s : State) : Host.Outcome State Fault Refusal :=
  s.hostWriteAt t (Nat.blt i 256) (0xE100 + i) data

/-- CERT_DATA_READ (R493): a READ of CTL_CERT_DATA. -/
def execCertDataRead (t : Nat) (s : State) : Host.Outcome State Fault Refusal := s.hostRead t 0xF05C []

end Sys2Proof.Machine
end

