-- ==== Sys2Proof/Machine/Dispatch.lean ====
section
/-! DEFINITION. One arm per command: each calls the meaning of its row. -/

namespace Sys2Proof.Machine

def exec (i : Instr) (s : State) : Host.Outcome State Fault Refusal :=
  match i with
  | .nop t kind addr => Sys2Proof.Machine.execNop t kind addr s
  | .read t addr => Sys2Proof.Machine.execRead t addr s
  | .write t addr data => Sys2Proof.Machine.execWrite t addr data s
  | .malformedFrame t => Sys2Proof.Machine.execMalformedFrame t s
  | .evqRead t => Sys2Proof.Machine.execEvqRead t s
  | .profileSet t => Sys2Proof.Machine.execProfileSet t s
  | .profileSwitch t => Sys2Proof.Machine.execProfileSwitch t s
  | .profileEofTimeout t => Sys2Proof.Machine.execProfileEofTimeout t s
  | .recal t => Sys2Proof.Machine.execRecal t s
  | .recalEofTimeout t => Sys2Proof.Machine.execRecalEofTimeout t s
  | .recalRestart t elems => Sys2Proof.Machine.execRecalRestart t elems s
  | .pageLoad t => Sys2Proof.Machine.execPageLoad t s
  | .pageLoadDone a => Sys2Proof.Machine.execPageLoadDone a s
  | .attest t => Sys2Proof.Machine.execAttest t s
  | .attestDone t => Sys2Proof.Machine.execAttestDone t s
  | .nvmProgram t => Sys2Proof.Machine.execNvmProgram t s
  | .nvmDone t ending => Sys2Proof.Machine.execNvmDone t ending s
  | .tbuRetune t => Sys2Proof.Machine.execTbuRetune t s
  | .retuneRelock t => Sys2Proof.Machine.execRetuneRelock t s
  | .retuneTimeout t => Sys2Proof.Machine.execRetuneTimeout t s
  | .scrubNow t => Sys2Proof.Machine.execScrubNow t s
  | .scrubNowDone t hits => Sys2Proof.Machine.execScrubNowDone t hits s
  | .pageSwitchBatten t data => Sys2Proof.Machine.execPageSwitchBatten t data s
  | .syncReleaseBatten t data => Sys2Proof.Machine.execSyncReleaseBatten t data s
  | .arm t data => Sys2Proof.Machine.execArm t data s
  | .disarm t data => Sys2Proof.Machine.execDisarm t data s
  | .force t data => Sys2Proof.Machine.execForce t data s
  | .capClear t data => Sys2Proof.Machine.execCapClear t data s
  | .capSetupGo t data => Sys2Proof.Machine.execCapSetupGo t data s
  | .capSeglock t n data => Sys2Proof.Machine.execCapSeglock t n data s
  | .capRdata t hits => Sys2Proof.Machine.execCapRdata t hits s
  | .fsoCommit t stream data => Sys2Proof.Machine.execFsoCommit t stream data s
  | .fsoPin t data => Sys2Proof.Machine.execFsoPin t data s
  | .fsoRel t data => Sys2Proof.Machine.execFsoRel t data s
  | .fsoResend t data => Sys2Proof.Machine.execFsoResend t data s
  | .fsoRdata a => Sys2Proof.Machine.execFsoRdata a s
  | .exportGo t data => Sys2Proof.Machine.execExportGo t data s
  | .exportAbort t data => Sys2Proof.Machine.execExportAbort t data s
  | .exportEnd t hits => Sys2Proof.Machine.execExportEnd t hits s
  | .contextSwap t ctx hits => Sys2Proof.Machine.execContextSwap t ctx hits s
  | .manualSubstitution t row data => Sys2Proof.Machine.execManualSubstitution t row data s
  | .portDisable t port data => Sys2Proof.Machine.execPortDisable t port data s
  | .portEnable t port data => Sys2Proof.Machine.execPortEnable t port data s
  | .airidxWrite t data => Sys2Proof.Machine.execAiridxWrite t data s
  | .rpeEhistWrite t data => Sys2Proof.Machine.execRpeEhistWrite t data s
  | .selWrite t ch data => Sys2Proof.Machine.execSelWrite t ch data s
  | .gainWrite t ch data => Sys2Proof.Machine.execGainWrite t ch data s
  | .driveStopClear t data => Sys2Proof.Machine.execDriveStopClear t data s
  | .laserFaultClear t data => Sys2Proof.Machine.execLaserFaultClear t data s
  | .boostFaultClear t data => Sys2Proof.Machine.execBoostFaultClear t data s
  | .modeRequest t loop data => Sys2Proof.Machine.execModeRequest t loop data s
  | .targetWrite t data => Sys2Proof.Machine.execTargetWrite t data s
  | .jigWrite t lane data => Sys2Proof.Machine.execJigWrite t lane data s
  | .bitslip t lane data => Sys2Proof.Machine.execBitslip t lane data s
  | .lnkTbusSet t data => Sys2Proof.Machine.execLnkTbusSet t data s
  | .lnkTbusClr t data => Sys2Proof.Machine.execLnkTbusClr t data s
  | .shimWindowWrite t ix data => Sys2Proof.Machine.execShimWindowWrite t ix data s
  | .certDataRead t => Sys2Proof.Machine.execCertDataRead t s
  | .fire t => Sys2Proof.Machine.execFire t s
  | .listen t => Sys2Proof.Machine.execListen t s
  | .cal t => Sys2Proof.Machine.execCal t s
  | .wait t => Sys2Proof.Machine.execWait t s
  | .mark t => Sys2Proof.Machine.execMark t s
  | .sync t => Sys2Proof.Machine.execSync t s
  | .syncEvent t => Sys2Proof.Machine.execSyncEvent t s
  | .syncTo t => Sys2Proof.Machine.execSyncTo t s
  | .branch t => Sys2Proof.Machine.execBranch t s
  | .pageImmediate t => Sys2Proof.Machine.execPageImmediate t s
  | .pageIssue t => Sys2Proof.Machine.execPageIssue t s
  | .battenExecute t => Sys2Proof.Machine.execBattenExecute t s
  | .pageReload a => Sys2Proof.Machine.execPageReload a s
  | .fireCommand t checkDone => Sys2Proof.Machine.execFireCommand t checkDone s
  | .startEdge t row code bin => Sys2Proof.Machine.execStartEdge t row code bin s
  | .startDeadline t row => Sys2Proof.Machine.execStartDeadline t row s
  | .mpdReading t row m => Sys2Proof.Machine.execMpdReading t row m s
  | .chargePwmEvent t => Sys2Proof.Machine.execChargePwmEvent t s
  | .urgentConversion t raw => Sys2Proof.Machine.execUrgentConversion t raw s
  | .hvOv t => Sys2Proof.Machine.execHvOv t s
  | .boostFault t => Sys2Proof.Machine.execBoostFault t s
  | .stallMonitorTrip t unit => Sys2Proof.Machine.execStallMonitorTrip t unit s
  | .movingDrop t stop => Sys2Proof.Machine.execMovingDrop t stop s
  | .comparatorEdge t unit lead trail hi bin => Sys2Proof.Machine.execComparatorEdge t unit lead trail hi bin s
  | .receiverClose t unit => Sys2Proof.Machine.execReceiverClose t unit s
  | .spareSettled t row => Sys2Proof.Machine.execSpareSettled t row s
  | .verificationDone t row => Sys2Proof.Machine.execVerificationDone t row s
  | .backgroundTable t port => Sys2Proof.Machine.execBackgroundTable t port s
  | .skewUpdate t unit => Sys2Proof.Machine.execSkewUpdate t unit s
  | .gateEnd t unit => Sys2Proof.Machine.execGateEnd t unit s
  | .hitExpiry t port => Sys2Proof.Machine.execHitExpiry t port s
  | .trigInEdge t k rising p => Sys2Proof.Machine.execTrigInEdge t k rising p s
  | .fsyncInEdge t rising p => Sys2Proof.Machine.execFsyncInEdge t rising p s
  | .binning t port => Sys2Proof.Machine.execBinning t port s
  | .echoExtraction t hits => Sys2Proof.Machine.execEchoExtraction t hits s
  | .shotSet t => Sys2Proof.Machine.execShotSet t s
  | .historyFrameEnd t => Sys2Proof.Machine.execHistoryFrameEnd t s
  | .ambientSample t => Sys2Proof.Machine.execAmbientSample t s
  | .trackerTick t => Sys2Proof.Machine.execTrackerTick t s
  | .seedingEnd t => Sys2Proof.Machine.execSeedingEnd t s
  | .sof t => Sys2Proof.Machine.execSof t s
  | .eol t => Sys2Proof.Machine.execEol t s
  | .eof t => Sys2Proof.Machine.execEof t s
  | .pointRecordPlace t => Sys2Proof.Machine.execPointRecordPlace t s
  | .frameStartEvent t => Sys2Proof.Machine.execFrameStartEvent t s
  | .facceptEdge t n => Sys2Proof.Machine.execFacceptEdge t n s
  | .accwaitExpiry t stream => Sys2Proof.Machine.execAccwaitExpiry t stream s
  | .lineFetch t stream resend hits late => Sys2Proof.Machine.execLineFetch t stream resend hits late s
  | .captureRecord t => Sys2Proof.Machine.execCaptureRecord t s
  | .trigger t => Sys2Proof.Machine.execTrigger t s
  | .posttExpiry t => Sys2Proof.Machine.execPosttExpiry t s
  | .rearm t => Sys2Proof.Machine.execRearm t s
  | .avgIntervalEnd t => Sys2Proof.Machine.execAvgIntervalEnd t s
  | .excitationPeriodEnd t ch codes => Sys2Proof.Machine.execExcitationPeriodEnd t ch codes s
  | .takeoverSettled t ch => Sys2Proof.Machine.execTakeoverSettled t ch s
  | .stbyOpen t input => Sys2Proof.Machine.execStbyOpen t input s
  | .cicOutput t ch => Sys2Proof.Machine.execCicOutput t ch s
  | .turningPointEvent t ch => Sys2Proof.Machine.execTurningPointEvent t ch s
  | .kick t => Sys2Proof.Machine.execKick t s
  | .mstartExpiry t => Sys2Proof.Machine.execMstartExpiry t s
  | .lockWindow t pll count missing phase => Sys2Proof.Machine.execLockWindow t pll count missing phase s
  | .referenceLoss t => Sys2Proof.Machine.execReferenceLoss t s
  | .ptpSourceLoss t => Sys2Proof.Machine.execPtpSourceLoss t s
  | .tsnap t => Sys2Proof.Machine.execTsnap t s
  | .slewComplete t => Sys2Proof.Machine.execSlewComplete t s
  | .deviceTelegram t => Sys2Proof.Machine.execDeviceTelegram t s
  | .pressTelegram t path words line => Sys2Proof.Machine.execPressTelegram t path words line s
  | .pressTmo t => Sys2Proof.Machine.execPressTmo t s
  | .channelBWindowEnd t row => Sys2Proof.Machine.execChannelBWindowEnd t row s
  | .channelAEvaluation t => Sys2Proof.Machine.execChannelAEvaluation t s
  | .freshnessExpiry t ch cell => Sys2Proof.Machine.execFreshnessExpiry t ch cell s
  | .tbridgeExpiry t port => Sys2Proof.Machine.execTbridgeExpiry t port s
  | .trackingInterval t ch => Sys2Proof.Machine.execTrackingInterval t ch s
  | .safeInChange t n pinB level => Sys2Proof.Machine.execSafeInChange t n pinB level s
  | .inputDisc t n => Sys2Proof.Machine.execInputDisc t n s
  | .zoneSetSwitch t ch => Sys2Proof.Machine.execZoneSetSwitch t ch s
  | .safeReset t => Sys2Proof.Machine.execSafeReset t s
  | .disc t => Sys2Proof.Machine.execDisc t s
  | .tclrExpiry t => Sys2Proof.Machine.execTclrExpiry t s
  | .ossdTest t outB rbLow rbHigh otherFell => Sys2Proof.Machine.execOssdTest t outB rbLow rbHigh otherFell s
  | .ossdFault t outB => Sys2Proof.Machine.execOssdFault t outB s
  | .edmFault t => Sys2Proof.Machine.execEdmFault t s
  | .heartbeat t => Sys2Proof.Machine.execHeartbeat t s
  | .lockstep t => Sys2Proof.Machine.execLockstep t s
  | .laneStageAdvance t lane => Sys2Proof.Machine.execLaneStageAdvance t lane s
  | .trainingFrame t lane frame => Sys2Proof.Machine.execTrainingFrame t lane frame s
  | .laneStageTimeout t lane => Sys2Proof.Machine.execLaneStageTimeout t lane s
  | .laneLoss t lane => Sys2Proof.Machine.execLaneLoss t lane s
  | .hello t lane src msg => Sys2Proof.Machine.execHello t lane src msg s
  | .select t lane src msg => Sys2Proof.Machine.execSelect t lane src msg s
  | .sub t lane src msg => Sys2Proof.Machine.execSub t lane src msg s
  | .keepalive t lane src msg => Sys2Proof.Machine.execKeepalive t lane src msg s
  | .bye t lane src msg => Sys2Proof.Machine.execBye t lane src msg s
  | .keepaliveSend t partner => Sys2Proof.Machine.execKeepaliveSend t partner s
  | .keepaliveTimeout t partner => Sys2Proof.Machine.execKeepaliveTimeout t partner s
  | .accept t lane src msg => Sys2Proof.Machine.execAccept t lane src msg s
  | .commit t lane src msg => Sys2Proof.Machine.execCommit t lane src msg s
  | .chainJoin t => Sys2Proof.Machine.execChainJoin t s
  | .probeSend t => Sys2Proof.Machine.execProbeSend t s
  | .probe t hdr => Sys2Proof.Machine.execProbe t hdr s
  | .echo t hdr hold rtt head ofs => Sys2Proof.Machine.execEcho t hdr hold rtt head ofs s
  | .params t hdr p => Sys2Proof.Machine.execParams t hdr p s
  | .batten t hdr sync pg arg te => Sys2Proof.Machine.execBatten t hdr sync pg arg te s
  | .tbedge t hdr line level stamp fine => Sys2Proof.Machine.execTbedge t hdr line level stamp fine s
  | .triggerBusEvent t line => Sys2Proof.Machine.execTriggerBusEvent t line s
  | .dove t hdr record => Sys2Proof.Machine.execDove t hdr record s
  | .timeset t hdr tsnap delta origin => Sys2Proof.Machine.execTimeset t hdr tsnap delta origin s
  | .arpRequest t lane senderIp targetIp senderMac => Sys2Proof.Machine.execArpRequest t lane senderIp targetIp senderMac s
  | .icmpEchoRequest t lane ip payload => Sys2Proof.Machine.execIcmpEchoRequest t lane ip payload s
  | .ptpAnnounce t lane domain dataset => Sys2Proof.Machine.execPtpAnnounce t lane domain dataset s
  | .ptpSync t lane domain twoStep master arrival => Sys2Proof.Machine.execPtpSync t lane domain twoStep master arrival s
  | .ptpDelayResp t lane domain departure arrival => Sys2Proof.Machine.execPtpDelayResp t lane domain departure arrival s
  | .scrubPassStart t subB dur hits => Sys2Proof.Machine.execScrubPassStart t subB dur hits s
  | .thermalSensorRead t temps => Sys2Proof.Machine.execThermalSensorRead t temps s
  | .periodicRecalibration t subB => Sys2Proof.Machine.execPeriodicRecalibration t subB s
  | .roundStart t => Sys2Proof.Machine.execRoundStart t s
  | .conversionEnd t ch raw => Sys2Proof.Machine.execConversionEnd t ch raw s
  | .interimConversion t raws => Sys2Proof.Machine.execInterimConversion t raws s
  | .thermalTrip t sensor => Sys2Proof.Machine.execThermalTrip t sensor s
  | .thermalRelease t => Sys2Proof.Machine.execThermalRelease t s
  | .resetN t low => Sys2Proof.Machine.execResetN t low s
  | .railLoss t rail => Sys2Proof.Machine.execRailLoss t rail s
  | .watchdog t => Sys2Proof.Machine.execWatchdog t s
  | .resetRelease t => Sys2Proof.Machine.execResetRelease t s
  | .bootFlash t flash => Sys2Proof.Machine.execBootFlash t flash s
  | .bootVerify t image => Sys2Proof.Machine.execBootVerify t image s
  | .bootCal t elems => Sys2Proof.Machine.execBootCal t elems s
  | .bootMem t spd => Sys2Proof.Machine.execBootMem t spd s
  | .bootTbl t => Sys2Proof.Machine.execBootTbl t s
  | .bootSeed t => Sys2Proof.Machine.execBootSeed t s
  | .edmInputChange t pinB level => Sys2Proof.Machine.execEdmInputChange t pinB level s
  | .arpReply t lane ip mac => Sys2Proof.Machine.execArpReply t lane ip mac s
  | .arpRequestTimeout t lane ip => Sys2Proof.Machine.execArpRequestTimeout t lane ip s

end Sys2Proof.Machine
end

