-- ==== Sys2Proof/Safety.lean ====
section
/-! DEFINITION. The terms in which claims about the T256 are stated: the parts of its state and what a command leaves
unchanged, what it means that a command completes, and the form that every state keeps. -/

namespace Sys2Proof.Machine

/-- The parts of the state that a claim may say are unchanged; the instant `clk` and the queue are spoken of on their own. -/
inductive Part where
  | tofs | dev | regs | mgmt | seq | edu | rta | rpe | stu | saf | cap | fso | cmp | mem | lnk | tbu | hk | boot | out | goodAt | free
  deriving DecidableEq, Repr

/-- A part has the same value in two states. -/
def Part.same : Part → State → State → Prop
  | .tofs, s, t => t.tofs = s.tofs
  | .dev, s, t => t.dev = s.dev
  | .regs, s, t => t.regs = s.regs
  | .mgmt, s, t => t.mgmt = s.mgmt
  | .seq, s, t => t.seq = s.seq
  | .edu, s, t => t.edu = s.edu
  | .rta, s, t => t.rta = s.rta
  | .rpe, s, t => t.rpe = s.rpe
  | .stu, s, t => t.stu = s.stu
  | .saf, s, t => t.saf = s.saf
  | .cap, s, t => t.cap = s.cap
  | .fso, s, t => t.fso = s.fso
  | .cmp, s, t => t.cmp = s.cmp
  | .mem, s, t => t.mem = s.mem
  | .lnk, s, t => t.lnk = s.lnk
  | .tbu, s, t => t.tbu = s.tbu
  | .hk, s, t => t.hk = s.hk
  | .boot, s, t => t.boot = s.boot
  | .out, s, t => t.out = s.out
  | .goodAt, s, t => t.goodAt = s.goodAt
  | .free, s, t => t.free = s.free

/-- Nothing but the named parts differs between two states, the instant and the queue included. -/
def Only (ps : List Part) (s t : State) : Prop :=
  t.clk = s.clk ∧ t.pending = s.pending ∧ ∀ p, p ∉ ps → p.same s t

/-- A command given at instant `at0` completes: it answers a next state, which differs from the state at that instant only in
the named parts, and of which `P` holds. -/
def Completes (c : Instr) (at0 : Nat) (s : State) (ps : List Part) (P : State → Prop) : Prop :=
  ∃ t, exec c s = .next t ∧ Only ps (s.begin at0) t ∧ P t

/-- The same, and of the register words only those at the named addresses differ. -/
def CompletesAt (c : Instr) (at0 : Nat) (s : State) (ps : List Part) (words : List Nat) (P : State → Prop) : Prop :=
  ∃ t, exec c s = .next t ∧ Only (.regs :: ps) (s.begin at0) t ∧ (∀ a, a ∉ words → t.word a = s.word a) ∧ P t

/-- The management port can take a frame: the device is out of RESET and not in THERMAL, and no long operation runs. -/
def State.portOpen (s : State) : Prop := s.dev ≠ .reset ∧ s.dev ≠ .thermal ∧ s.mgmt.op = none

/-- The frame at an address has been answered with a status, and the response due before it has been shifted out. -/
def State.answered (s t : State) (a : Nat) (st : Status) : Prop :=
  t.mgmt.resp.status = st ∧ t.mgmt.resp.addr = BitVec.ofNat 16 a ∧ t.mgmt.shifted = some s.mgmt.resp

/-- The event is put into CTL_EVQ where its class is queued and an entry is free (R525, R526); `s` is the state in which it is
raised. -/
def State.told (s t : State) (code : Nat) (cls : EvClass) (arg : Nat) : Prop :=
  s.mgmt.evq.length < 256 →
    t.mgmt.evq = if s.queues cls then insertEv ⟨code, cls, arg % 1024, s.now⟩ s.mgmt.evq else s.mgmt.evq

/-- No event has been raised. -/
def State.silent (s t : State) : Prop := t.mgmt.evq = s.mgmt.evq

/-- The register words that the raising of an event may count in (R420, R526). -/
def evWords : List Nat := [F.CTL_EVLOST_COUNT.addr, F.LNK_EVLOST_COUNT.addr]

/-- The parts that the raising of an event may change besides the registers: CTL_EVQ, the copies to partners, DCODE. -/
def evParts : List Part := [.mgmt, .lnk, .saf, .out]

/-- The register words that a change of the SAF's state may count in (R298). -/
def safWords : List Nat := F.SAF_DEMCNT_COUNT.addr :: evWords

/-- The parts that a change of the SAF's state may change besides the registers. -/
def safParts : List Part := [.mgmt, .lnk, .saf, .cap, .out]

/-- A long operation has been accepted (R522, R524): BUSY, the response, and CTL_OPSTAT that names it as not done. -/
def State.opStarted (s t : State) (op : LongOp) : Prop :=
  t.mgmt.op = some op ∧ s.answered t op.code .ok ∧ t.rd F.CTL_OPSTAT_CMD = op.code ∧
  t.flag F.CTL_OPSTAT_DONE = false ∧ t.flag F.CTL_OPSTAT_VALID = false ∧ t.flag F.CTL_OPSTAT_ABORT = false

/-- A long operation has ended with a result (R524). -/
def State.opEnded (t : State) (result : Nat) : Prop :=
  t.mgmt.op = none ∧ t.rd F.CTL_OPRESULT_RESULT = result ∧ t.flag F.CTL_OPSTAT_DONE = true ∧ t.flag F.CTL_OPSTAT_VALID = true

/-- The form that every state keeps: the register words and the shadow of R12 are in their canonical form, and the event
queue holds at most 256 entries (R525). -/
def State.Inv (s : State) : Prop :=
  SMap.wf RegMap.resetWord s.regs = true ∧ SMap.wf RegMap.resetWord s.mgmt.shadow = true ∧ s.mgmt.evq.length ≤ 256

end Sys2Proof.Machine
end

