-- ==== Sys2Proof/Certificates/Slice0/Obligations.lean ====
section
/-! DEFINITION. The obligations: what the model claims of the T256, for the provers. A docstring names the rules that a
statement formalises; where it rests on a choice of the model, it names the log entry. -/

open Sys2Proof Sys2Proof.Machine

/-- A step takes the command at the front of the queue, and the rest goes on waiting; an empty queue is an idle block, which is
the model's choice (log entry 2). -/
def Obligations.StepRunsTheFrontCommand : Prop :=
  (∀ (s : State) (c : Instr) (rest : List Instr), s.pending = c :: rest → step s = exec c { s with pending := rest }) ∧
  (∀ s : State, s.pending = [] → step s = .next s)

/-- No command stops the device: every one answers a next state, with the queue as it was and no earlier instant (log entries 1
and 2 for the instant and the queue, which are the model's). -/
def Obligations.EveryCommandAnswersANextState : Prop :=
  ∀ (c : Instr) (s : State), ∃ t, exec c s = .next t ∧ t.pending = s.pending ∧ s.clk ≤ t.clk

/-- The form of every state is kept by every step: registers and shadow words in their one canonical form, and at most 256
entries in CTL_EVQ (R525). -/
def Obligations.EveryStepKeepsTheStatesForm : Prop :=
  ∀ s t : State, s.Inv → step s = .next t → t.Inv

/-- The state after reset has that form. Right after a power-on reset: RESET, not READY, the response of R519 due, nothing
waiting, nothing posted, the sequencer idle, the SAF in INIT with both outputs off, and every lane OFF. -/
def Obligations.ResetLeavesTheDeviceInReset : Prop :=
  (State.reset.Inv) ∧
  (State.reset.dev = .reset ∧ State.reset.ready = false ∧ State.reset.mgmt.resp = ⟨.ok, 0xFFFF, 0⟩ ∧
    State.reset.mgmt.op = none ∧ State.reset.mgmt.evq = [] ∧ State.reset.seq.st = .idle ∧ State.reset.seq.fires = [] ∧
    State.reset.saf.st = .init ∧ State.reset.saf.ossdA = false ∧ State.reset.saf.ossdB = false ∧ State.reset.chgOk = false ∧
    (∀ n, n < 12 → (State.reset.lane n).stage = .off) ∧ (∀ a, State.reset.word a = RegMap.resetWord a))

/-- THERMAL is left through RESET alone (R504, R505). -/
def Obligations.ThermalIsLeftOnlyThroughReset : Prop :=
  ∀ (c : Instr) (s t : State), s.dev = .thermal → exec c s = .next t → t.dev = .thermal ∨ t.dev = .reset

/-- RESET is left only by RESET_RELEASE, 2 ms after the last low RESET_N or bad rail (R46). -/
def Obligations.ResetIsLeftOnlyByItsRelease : Prop :=
  ∀ (c : Instr) (s t : State), s.dev = .reset → exec c s = .next t → t.dev ≠ .reset →
    (∃ at0, c = .resetRelease at0) ∧ t.dev = .boot ∧ s.goodAt + 2000000 ≤ t.clk

/-- NOP (R517, R521): the response that was due goes out and OK with data 0 is due; a frame with CMD 4h to Fh and an EXEC of no
code is REFUSED; while a long operation runs every frame is BUSY and has no other effect; in RESET the port takes no frame.
MALFORMED_FRAME (R518): counted in CTL_SPIERR, and the response due stays due. -/
def Obligations.NopAndOtherFramesAreAnswered : Prop :=
  ((∀ (s : State) (t : Nat) (kind : FrameKind) (addr : Addr), s.portOpen →
      Completes (.nop t kind addr) t s [.mgmt] fun u =>
        u.mgmt = { s.mgmt with resp := ⟨if kind = .nop then .ok else .refused, addr, 0⟩, shifted := some s.mgmt.resp }) ∧
    (∀ (s : State) (t : Nat) (kind : FrameKind) (addr : Addr) (w : Word), s.alive = true → s.mgmt.op.isSome = true →
      ∀ c, c = .nop t kind addr ∨ c = .read t addr ∨ c = .write t addr w →
        Completes c t s [.mgmt] fun u => u.mgmt = { s.mgmt with resp := ⟨.busy, addr, 0⟩, shifted := some s.mgmt.resp }) ∧
    (∀ (s : State) (t : Nat) (kind : FrameKind) (addr : Addr), s.dev = .reset →
      Completes (.nop t kind addr) t s [] fun _ => True)) ∧
  (∀ (s : State) (t : Nat), s.alive = true →
      CompletesAt (.malformedFrame t) t s [] [F.CTL_SPIERR_COUNT.addr] fun u =>
        u.rd F.CTL_SPIERR_COUNT =
          satN (F.CTL_SPIERR_COUNT.hi + 1 - F.CTL_SPIERR_COUNT.lo) (s.rd F.CTL_SPIERR_COUNT + 1))

/-- READ (R517, R22, R23, R26): the register's word is the data of the response and its RC fields clear, but for what the device
set in the same cycle; where no register stands the answer is BADADDR. This is the case of a register of one word that is no
window; the pass counters and the registers of a lane are brought up to date first (R403, R405, R441). -/
def Obligations.ReadReturnsTheRegister : Prop :=
  (∀ (s : State) (t : Nat) (addr : Addr) (fs : List FieldDesc), s.portOpen → RegMap.fieldsAt addr.toNat = some fs →
    multiOf addr.toNat = none → addr.toNat ∉ [0x0008, 0x7032, 0x810A, 0xA014, 0xA015, 0xF05C] →
    within 0xB100 0xB27F addr.toNat = false →
    CompletesAt (.read t addr) t s [.mgmt] [addr.toNat] fun u =>
      u.mgmt = { s.mgmt with resp := ⟨.ok, addr, (s.begin t).view addr.toNat⟩, shifted := some s.mgmt.resp } ∧
      u.word addr.toNat = (s.word addr.toNat &&& ~~~RegMap.mask fs (fun x => x == .rc)) |||
        ((s.begin t).freshAt addr.toNat &&& RegMap.mask fs (fun x => x == .rc))) ∧
  (∀ (s v : State) (t : Nat) (addr : Addr) (fs : List FieldDesc), s.portOpen → RegMap.fieldsAt addr.toNat = some fs →
    (addr.toNat ∈ [0xA014, 0xA015] ∧ v = (s.begin t).settlePass ∨
      within 0xB100 0xB27F addr.toNat = true ∧ v = (s.begin t).lookAt addr.toNat) →
    Completes (.read t addr) t s [.mgmt, .regs, .mem, .lnk, .free] fun u =>
      u.mgmt = { s.mgmt with resp := ⟨.ok, addr, v.view addr.toNat⟩, shifted := some s.mgmt.resp } ∧
      u.word addr.toNat = (v.word addr.toNat &&& ~~~RegMap.mask fs (fun x => x == .rc)) |||
        (v.freshAt addr.toNat &&& RegMap.mask fs (fun x => x == .rc))) ∧
  (∀ (s : State) (t : Nat) (addr : Addr), s.portOpen → RegMap.fieldsAt addr.toNat = none →
    Completes (.read t addr) t s [.mgmt] fun u =>
      u.mgmt = { s.mgmt with resp := ⟨.badaddr, addr, 0⟩, shifted := some s.mgmt.resp })

/-- A register of several words (R12): a READ of its lowest word latches the higher ones, and a READ of a higher word returns
what was latched; after reset the shadow holds the reset values. EVQ_READ (R525, R526): the oldest entry leaves the queue, its
first word is the data and its other three are latched; an empty queue reads 0 and latches zeros. Entries that were lost are
then reported by one EVQ_OVF. Nothing else changes. -/
def Obligations.WideRegistersAreReadWhole : Prop :=
  ((∀ (s : State) (t : Nat) (addr : Addr) (fs : List FieldDesc) (n : Nat), s.portOpen →
      RegMap.fieldsAt addr.toNat = some fs → multiOf addr.toNat = some (addr.toNat, n) →
      addr.toNat ∉ [0x0008, 0x7032, 0x810A, 0xF05C] →
      CompletesAt (.read t addr) t s [.mgmt] [addr.toNat] fun u =>
        u.mgmt.resp = ⟨.ok, addr, (s.begin t).view addr.toNat⟩ ∧
        (∀ i, i < n - 1 → u.shadowWord (addr.toNat + 1 + i) = (s.begin t).view (addr.toNat + 1 + i))) ∧
    (∀ (s : State) (t : Nat) (addr : Addr) (fs : List FieldDesc) (b n : Nat), s.portOpen →
      RegMap.fieldsAt addr.toNat = some fs → multiOf addr.toNat = some (b, n) → addr.toNat ≠ b →
      addr.toNat ∉ [0x0008, 0x7032, 0x810A, 0xF05C] →
      Completes (.read t addr) t s [.mgmt] fun u =>
        u.mgmt = { s.mgmt with resp := ⟨.ok, addr, s.shadowWord addr.toNat⟩, shifted := some s.mgmt.resp }) ∧
    (∀ a, State.reset.shadowWord a = RegMap.resetWord a)) ∧
  ((∀ (s : State) (t : Nat) (e : EvEntry) (q : List EvEntry), s.portOpen → s.mgmt.evq = e :: q →
      Completes (.evqRead t) t s [.mgmt] fun u =>
        u.mgmt.evq = (if s.mgmt.lost = 0 then q else insertEv ⟨0x7F, .warn, min 1023 s.mgmt.lost, (s.begin t).now⟩ q) ∧
        u.mgmt.lost = 0 ∧ u.mgmt.resp = ⟨.ok, 0x0008, e.words.getD 0 0⟩ ∧ u.mgmt.shifted = some s.mgmt.resp ∧
        u.shadowWord 0x0009 = e.words.getD 1 0 ∧ u.shadowWord 0x000A = e.words.getD 2 0 ∧
        u.shadowWord 0x000B = e.words.getD 3 0) ∧
    (∀ (s : State) (t : Nat), s.portOpen → s.mgmt.evq = [] →
      Completes (.evqRead t) t s [.mgmt] fun u => u.mgmt.evq = [] ∧ u.mgmt.resp = ⟨.ok, 0x0008, 0⟩ ∧
        u.shadowWord 0x0009 = 0 ∧ u.shadowWord 0x000A = 0 ∧ u.shadowWord 0x000B = 0))

/-- WRITE (R22, R23, R25, R555) in the blocks whose registers have no rule of their own: an allowed write stores by the access
codes of the fields, a write that R25 turns away and a write outside the limits of R555 leave every register as it was. -/
def Obligations.WriteFollowsTheAccessCodes : Prop :=
  ∀ (s : State) (t : Nat) (addr : Addr) (w : Word) (fs : List FieldDesc), s.portOpen → RegMap.fieldsAt addr.toNat = some fs →
    multiOf addr.toNat = none →
    (r25 fs = none → addr.toNat / 4096 ∈ [0xA, 0xC, 0xD, 0xF] →
      ((s.begin t).poke addr.toNat w).limitOk addr.toNat = true →
      CompletesAt (.write t addr w) t s [.mgmt] [addr.toNat] fun u =>
        s.answered u addr.toNat .ok ∧ u.word addr.toNat = (s.begin t).mixed addr.toNat w) ∧
    (r25 fs = none → addr.toNat / 4096 ∈ [0xA, 0xC, 0xD, 0xF] →
      ((s.begin t).poke addr.toNat w).limitOk addr.toNat = false →
      Completes (.write t addr w) t s [.mgmt] fun u => s.answered u addr.toNat .refused) ∧
    (∀ st, r25 fs = some st → Completes (.write t addr w) t s [.mgmt] fun u => s.answered u addr.toNat st)

/-- The rows that are one register access are the WRITE or READ frame at that register (R337, R354, R374 and the other rules of
the rows). -/
def Obligations.RegisterRowsAreTheirFrames : Prop :=
  ∀ (s : State) (t : Nat) (d : Word),
    exec (.pageSwitchBatten t d) s = exec (.write t 0x010E d) s ∧ exec (.syncReleaseBatten t d) s = exec (.write t 0x010E d) s ∧
    exec (.arm t d) s = exec (.write t 0x7001 d) s ∧ exec (.disarm t d) s = exec (.write t 0x7001 d) s ∧
    exec (.force t d) s = exec (.write t 0x7001 d) s ∧ exec (.capClear t d) s = exec (.write t 0x7001 d) s ∧
    exec (.capSetupGo t d) s = exec (.write t 0x7002 d) s ∧ exec (.fsoPin t d) s = exec (.write t 0x8100 d) s ∧
    exec (.fsoRel t d) s = exec (.write t 0x8105 d) s ∧ exec (.fsoResend t d) s = exec (.write t 0x8106 d) s ∧
    exec (.exportGo t d) s = exec (.write t 0x9100 d) s ∧ exec (.exportAbort t d) s = exec (.write t 0x9100 d) s ∧
    exec (.airidxWrite t d) s = exec (.write t 0x5004 d) s ∧ exec (.rpeEhistWrite t d) s = exec (.write t 0x6014 d) s ∧
    exec (.driveStopClear t d) s = exec (.write t 0x3001 d) s ∧ exec (.laserFaultClear t d) s = exec (.write t 0x2001 d) s ∧
    exec (.boostFaultClear t d) s = exec (.write t 0x2001 d) s ∧ exec (.targetWrite t d) s = exec (.write t 0x3041 d) s ∧
    exec (.lnkTbusSet t d) s = exec (.write t 0xB019 d) s ∧ exec (.lnkTbusClr t d) s = exec (.write t 0xB01A d) s ∧
    exec (.evqRead t) s = exec (.read t 0x0008) s ∧ exec (.fsoRdata ⟨t, []⟩) s = exec (.read t 0x810A) s ∧
    exec (.certDataRead t) s = exec (.read t 0xF05C) s ∧ exec (.capRdata t []) s = exec (.read t 0x7032) s

/-- EXEC of a long operation on its own conditions (R43, R77, R309, R398, R457, R486, R487, R488, R522, R524): the response is
OK, BUSY rises, CTL_OPSTAT names the operation, and each operation begins as its rule says. EXEC that is not accepted (R43, R77,
R398, R457, R466, R486, R487, R488): the status says so, and nothing else happens. -/
def Obligations.LongOperationsStartOrAreTurnedAway : Prop :=
  (∀ (s : State) (t : Nat), s.portOpen → s.boot.failed = false → let b := s.begin t
      (∀ code, code = s.rd F.CTL_PROF_ARG_CODE → code ≤ 4 → s.flag (F.CTL_PROF_REC_DEF code) = true →
        bitOf (s.rd (F.CTL_PROF_ZS_ZSOK code)) s.saf.chA.zs = true → s.ready = true → s.halted = false → s.seq.batten = none →
        s.seq.loading = none → (assoc s.saf.pageSafe (s.rd (F.CTL_PROF_REC_LIB code))).all s.figuresOk = true →
        code ≠ s.rd F.CTL_PROFILE_ACTIVE →
        Completes (.profileSet t) t s [.regs, .mgmt, .seq] fun u =>
          s.opStarted u (.profileSet code b.clk false) ∧ u.flag F.CTL_PROFILE_SWPEND = true ∧
          u.rd F.CTL_PROFILE_GATED = s.rd F.CTL_PROFILE_GATED &&& (255 - s.rd (F.CTL_PROF_REC_ROWMASK code)) ∧
          (∀ p, assoc s.seq.library (s.rd (F.CTL_PROF_REC_LIB code)) = some p → u.seq.pageOf (!s.seq.actB) = p)) ∧
      (s.ready = true → s.saf.st ≠ .clear →
        CompletesAt (.recal t) t s [.mgmt] [0x0004] fun u => s.opStarted u (.recal (s.rd F.CTL_RECAL_ARG_MODE) b.clk false)) ∧
      (∀ tgt lib p, tgt = s.flag F.CTL_SEQ_LOADARG_TGT → lib = s.rd F.CTL_SEQ_LOADARG_LIB → tgt ≠ s.seq.actB →
        s.seq.batten = none → assoc s.seq.library lib = some p →
        CompletesAt (.pageLoad t) t s [.mgmt, .seq] [0x0004] fun u =>
          s.opStarted u (.pageLoad tgt lib b.clk) ∧ u.seq = { s.seq with loading := some tgt }) ∧
      (s.boot.verifyDone = true →
        CompletesAt (.attest t) t s [.mgmt] [0x0004] fun u =>
          s.opStarted u (.attest ((List.range 13).map fun i => s.word (0xF030 + i)) s.stateWord)) ∧
      (s.nvmTempOk = true → s.boot.nvmlock = false → s.boot.flashDone = true → s.boot.verifyDone = true → s.nvmRangeOk = true →
        CompletesAt (.nvmProgram t) t s [.mgmt] [0x0004] fun u =>
          s.opStarted u (.nvm (s.rd F.CTL_NVM_OP_OP) s.nvmAddr s.nvmLen)) ∧
      (s.tbu.holdover = false → s.tbu.slewing = false → s.snapPend = false → s.saf.st ≠ .clear → 10000000 ≤ s.fstaged →
        s.fstaged ≤ 250000000 →
        Completes (.tbuRetune t) t s [.regs, .mgmt, .saf, .mem, .lnk, .tbu, .out, .free] fun u =>
          u.mgmt.op = some (.retune b.clk) ∧ s.answered u 6 .ok ∧ u.tbu.retune = true ∧ u.tbu.holdover = true ∧
          u.mem = { s.mem with selfRef := true } ∧ u.fref = s.fstaged) ∧
      (s.rd F.MEM_SNARG_COUNT_COUNT ≠ 0 → s.rdWide 0xA031 2 + s.rd F.MEM_SNARG_COUNT_COUNT ≤ s.subBursts →
        CompletesAt (.scrubNow t) t s [.mgmt] [0x0004] fun u =>
          s.opStarted u (.scrub (s.flag F.MEM_SNARG_SUB) (s.rdWide 0xA031 2) (s.rd F.MEM_SNARG_COUNT_COUNT)))) ∧
  (∀ (s : State) (t : Nat), s.portOpen →
      let away := fun (c : Instr) (code : Nat) (st : Status) =>
        Completes c t s [.mgmt] fun u => u.mgmt = { s.mgmt with resp := ⟨st, BitVec.ofNat 16 code, 0⟩, shifted := some s.mgmt.resp }
      (s.boot.failed = false → 4 < s.rd F.CTL_PROF_ARG_CODE ∨ s.flag (F.CTL_PROF_REC_DEF (s.rd F.CTL_PROF_ARG_CODE)) = false ∨
          s.ready = false → away (.profileSet t) 1 .refused) ∧
      (s.boot.failed = false → s.ready = false ∨ s.saf.st = .clear → away (.recal t) 2 .refused) ∧
      (s.boot.failed = false → s.flag F.CTL_SEQ_LOADARG_TGT = s.seq.actB ∨
          assoc s.seq.library (s.rd F.CTL_SEQ_LOADARG_LIB) = none → away (.pageLoad t) 3 .refused) ∧
      (s.boot.failed = false → s.boot.verifyDone = false → away (.attest t) 4 .refused) ∧
      (s.nvmTempOk = false → away (.nvmProgram t) 5 .temp) ∧
      (s.nvmTempOk = true → s.boot.nvmlock = true → s.boot.verifyDone = true → s.boot.failed = false → away (.nvmProgram t) 5 .locked) ∧
      (s.nvmTempOk = true → s.boot.flashDone = false → s.boot.nvmlock = false → away (.nvmProgram t) 5 .refused) ∧
      (s.boot.failed = false → s.tbu.holdover = true ∨ s.saf.st = .clear ∨ s.fstaged < 10000000 ∨ 250000000 < s.fstaged ∨
          s.snapPend = true ∨ s.tbu.slewing = true → away (.tbuRetune t) 6 .refused) ∧
      (s.boot.failed = false → s.rd F.MEM_SNARG_COUNT_COUNT = 0 ∨
          s.subBursts < s.rdWide 0xA031 2 + s.rd F.MEM_SNARG_COUNT_COUNT → away (.scrubNow t) 7 .refused) ∧
      (s.boot.failed = true → ∀ c code, c = Instr.profileSet t ∧ code = 1 ∨ c = .recal t ∧ code = 2 ∨ c = .pageLoad t ∧ code = 3 ∨
          c = .attest t ∧ code = 4 ∨ c = .tbuRetune t ∧ code = 6 ∨ c = .scrubNow t ∧ code = 7 →
        away c code (if within 3 5 (s.rd F.CTL_BOOT_CAUSE) then .signature else .refused)))

/-- The ends of the operations that write no unit's state but their own (R77, R396, R398, R399, R487, R488, R524): CTL_OPRESULT,
DONE and VALID, the event OP_DONE, BUSY falls, and the results stand where the rules put them. The two-phase ends (R74, R457,
R486, R510): a profile switch or a RECAL stop that no EOF has let through takes place at its timeout, the switch goes to the
other page under the new profile, RECAL restarts the sequencer on page A, and a retune ends with or without the new lock. -/
def Obligations.LongOperationsEnd : Prop :=
  (∀ (s : State) (t : Nat), let b := s.begin t
      (∀ tgt lib p t0 hits, s.mgmt.op = some (.pageLoad tgt lib t0) → s.seq.deferred = none → assoc s.seq.library lib = some p →
        b.memAvail 1 = true → let v := b.readTbl lib hits
        Completes (.pageLoadDone ⟨t, hits⟩) t s (.regs :: .seq :: .mem :: .cap :: evParts) fun u =>
          u.opEnded (if v.1 then 0 else 2) ∧ v.2.told u 0x01 .info 3 ∧
          (∀ a, a ∉ 0x0003 :: 0x0004 :: evWords → u.word a = v.2.word a) ∧ u.mem = v.2.mem ∧ u.cap = v.2.cap ∧
          (v.1 = true → u.seq.loading = none ∧ u.seq.pageOf tgt = p ∧ u.seq.pageOf (!tgt) = s.seq.pageOf (!tgt)) ∧
          (v.1 = false → u.seq = { s.seq with loading := none })) ∧
      (∀ hits, b.memAvail 1 = false → Completes (.pageLoadDone ⟨t, hits⟩) t s [] fun _ => True) ∧
      (∀ chal st, s.mgmt.op = some (.attest chal st) →
        Completes (.attestDone t) t s (.regs :: .free :: evParts) fun u =>
          u.opEnded 0 ∧ b.told u 0x01 .info 4 ∧ u.word 0xF03D = st ∧ u.free = s.free + 1 ∧
          let sig := Config.sm2Sign s.free (Config.sm3 (s.attestMsg chal st))
          u.rdWide 0xF040 13 = sig.1.toNat ∧ u.rdWide 0xF04D 13 = sig.2.toNat) ∧
      (∀ op a len, s.mgmt.op = some (.nvm op a len) →
        CompletesAt (.nvmDone t .timeout) t s evParts (0x0003 :: 0x0004 :: evWords) fun u =>
          u.opEnded 1 ∧ b.told u 0x01 .info 5) ∧
      (∀ a len bytes, s.mgmt.op = some (.nvm 1 a len) →
        CompletesAt (.nvmDone t (.finished bytes)) t s evParts (0x0003 :: 0x0004 :: evWords) fun u =>
          u.opEnded (if bytes = (List.range len).map s.nvmByte then 0 else 2) ∧ b.told u 0x01 .info 5) ∧
      (∀ a len bytes, s.mgmt.op = some (.nvm 0 a len) → bytes.length = len →
        Completes (.nvmDone t (.finished bytes)) t s (.regs :: evParts) fun u =>
          u.opEnded 0 ∧ b.told u 0x01 .info 5 ∧ ∀ k, k < len → u.nvmByte k = bytes.getD k 0) ∧
      (∀ subB start count hits, s.mgmt.op = some (.scrub subB start count) → b.memAvail (b2n subB) = true →
        Completes (.scrubNowDone t hits) t s (.regs :: .mem :: .cap :: evParts) fun u =>
          let found := s.scanFinds (b2n subB) start count (hits.filter fun h => Nat.ble start h.burst && Nat.blt h.burst (start + count))
          u.opEnded (satN 10 found.1 * 1024 + satN 10 found.2))) ∧
  (∀ (s : State) (t : Nat), let b := s.begin t
      (∀ code t0, s.mgmt.op = some (.profileSet code t0 false) → t0 + 42000000 ≤ b.clk →
        Completes (.profileEofTimeout t) t s [.mgmt, .seq] fun u =>
          u.mgmt = { s.mgmt with op := some (.profileSet code t0 true) } ∧
          (s.frameIssued = false → u.seq = s.seq) ∧
          (s.frameIssued = true → u.seq.marks.length = s.seq.marks.length + 1 ∧ u.seq.marks.getLast?.map Mark.eof = some true)) ∧
      (∀ code t0, s.mgmt.op = some (.profileSet code t0 true) →
        Completes (.profileSwitch t) t s [.regs, .mgmt, .seq, .edu, .rta, .rpe, .saf, .cap, .lnk, .out] fun u =>
          u.opEnded 0 ∧ u.seq.actB = (!s.seq.actB) ∧ u.seq.deferred = none ∧
          u.seq.st = (if s.seq.st = .halted then .halted else .run)) ∧
      (∀ m t0, s.mgmt.op = some (.recal m t0 false) → t0 + 100000000 ≤ b.clk →
        Completes (.recalEofTimeout t) t s [.regs, .mgmt, .seq, .edu, .rpe, .saf, .cap, .lnk, .out] fun u =>
          u.mgmt.op = some (.recal m t0 true) ∧ u.seq = { s.seq with st := .idle } ∧ u.edu.recalStop = true ∧ u.chgOk = false) ∧
      (∀ m t0 elems, s.mgmt.op = some (.recal m t0 true) →
        Completes (.recalRestart t elems) t s [.dev, .regs, .mgmt, .seq, .edu, .rta, .rpe, .saf, .cap, .lnk, .boot, .out, .free] fun u =>
          u.mgmt.op = none ∧ u.flag F.CTL_OPSTAT_DONE = true ∧ u.flag F.CTL_OPSTAT_VALID = true ∧ u.seq.st = .run ∧
          u.seq.actB = false ∧ u.seq.next = s.seq.startEntry ∧ u.seq.cursor = b.now + 1000 ∧ u.edu.recalStop = false) ∧
      (∀ t0, s.mgmt.op = some (.retune t0) → b.clk ≤ t0 + 20000000 → s.tbu.refOk = true →
        Completes (.retuneRelock t) t s (.regs :: .mem :: .tbu :: .free :: evParts) fun u =>
          u.opEnded 0 ∧ u.tbu.retune = false ∧ u.tbu.holdover = false ∧ u.mem.selfRef = false) ∧
      (∀ t0, s.mgmt.op = some (.retune t0) → t0 + 20000000 ≤ b.clk →
        Completes (.retuneTimeout t) t s (.regs :: .mem :: .tbu :: .free :: evParts) fun u =>
          u.opEnded 1 ∧ u.tbu.retune = false ∧ u.tbu.holdover = s.tbu.holdover ∧ u.tbu.refOk = false ∧ u.mem.selfRef = false))

/-- CAP_CTL (R316, R328 to R330, R337): ARM takes the next slot or finds the region full, ARM = 0 gives up a segment that waits
for its trigger and lets a triggered one complete, FORCE offers the condition HOST, CLEAR invalidates every segment. CAP_SETUP
and CAP_SEGLOCKn (R321, R329, R339): a commit that the rule permits puts every staged word into force, invalidates the segments
and starts IDX at 0, and another is answered with its status; a lock register takes a valid slot or 0FFFFFh. -/
def Obligations.CaptureIsSetUpArmedAndLocked : Prop :=
  (∀ (s : State) (t : Nat) (d : Word), s.portOpen → let b := s.begin t
      (d = 0x80000 → s.ready = true → s.flag F.CAP_CTL_ARM = false → s.cap.st = .idle →
        Completes (.arm t d) t s [.regs, .mgmt, .cap] fun u =>
          s.answered u 0x7001 .ok ∧ u.flag F.CAP_CTL_ARM = true ∧
          (s.nextSlot = none → u.cap.st = .full) ∧
          (∀ k, s.nextSlot = some k → u.cap.st = .pre ∧ u.cap.drained = false ∧ u.cap.seg.map Seg.slot = some k ∧
            u.cap.seg.map Seg.idx = some s.cap.idx)) ∧
      (d = 0x80000 → s.ready = false → Completes (.arm t d) t s [.mgmt] fun u => s.answered u 0x7001 .refused) ∧
      (d = 0 → s.ready = true → s.flag F.CAP_CTL_ARM = true →
        CompletesAt (.disarm t d) t s [.mgmt, .cap] [0x7001] fun u =>
          s.answered u 0x7001 .ok ∧ u.flag F.CAP_CTL_ARM = false ∧
          (s.cap.st = .pre ∨ s.cap.st = .rearm → u.cap =
            { s.cap with st := if s.allClosed 0 then .full else .idle, lockFull := false, seg := none, drained := true }) ∧
          (s.cap.st = .post ∨ s.cap.st = .idle → u.cap = s.cap) ∧
          (s.cap.st = .full → u.cap = { s.cap with st := if s.cap.lockFull then .idle else .full, drained := true })) ∧
      (d = 0xC0000 → s.ready = true → s.flag F.CAP_CTL_ARM = true → s.cap.st ≠ .idle → s.cap.st ≠ .full →
        Completes (.force t d) t s [.mgmt, .cap] fun u =>
          s.answered u 0x7001 .ok ∧ u.cap = { s.cap with conds := s.cap.conds ++ [⟨15, b.now, 0, false⟩] }) ∧
      (s.ready = true → bitOf d.toNat 18 = true → s.cap.st = .idle ∨ s.cap.st = .full →
        Completes (.force t d) t s [.mgmt] fun u => s.answered u 0x7001 .refused) ∧
      (d = 0x20000 → s.flag F.CAP_CTL_ARM = false → s.cap.drained = true →
        Completes (.capClear t d) t s [.regs, .mgmt, .cap] fun u =>
          s.answered u 0x7001 .ok ∧ u.cap.slots = [] ∧ u.rd F.CAP_LAST_SLOT = 0xFFFFF ∧ u.rd F.CAP_OLDEST_SLOT = 0xFFFFF ∧
          u.cap.st = (if s.cap.st = .full then .idle else s.cap.st)) ∧
      (d = 0x20000 → s.flag F.CAP_CTL_ARM = true ∨ s.cap.drained = false →
        Completes (.capClear t d) t s [.mgmt] fun u => s.answered u 0x7001 .refused)) ∧
  (∀ (s : State) (t : Nat) (d : Word), s.portOpen →
      (d = 0x80000 → s.judgeSetup = .ok →
        Completes (.capSetupGo t d) t s [.regs, .mgmt, .cap] fun u =>
          s.answered u 0x7002 .ok ∧ u.cap.slots = [] ∧ u.cap.idx = 0 ∧
          ∀ i, i < 26 → (RegMap.fieldsAt (0x7043 + i)).isSome = true → u.word (0x7043 + i) = s.word (0x7003 + i)) ∧
      (d = 0x80000 → s.judgeSetup ≠ .ok →
        Completes (.capSetupGo t d) t s [.mgmt] fun u => s.answered u 0x7002 s.judgeSetup) ∧
      (∀ n, n < 2 → d = 0xFFFFF ∨ (assoc s.cap.slots d.toNat).isSome = true →
        CompletesAt (.capSeglock t n d) t s [.mgmt, .cap] [0x7024 + n] fun u =>
          s.answered u (0x7024 + n) .ok ∧ u.word (0x7024 + n) = d ∧ (s.cap.st ≠ .full → u.cap = s.cap)) ∧
      (∀ n, n < 2 → d ≠ 0xFFFFF → assoc s.cap.slots d.toNat = none →
        Completes (.capSeglock t n d) t s [.mgmt] fun u => s.answered u (0x7024 + n) .refused))

/-- CAP_RDATA (R212, R334, R340, R393, R396, R399): the window returns the word of the region at CAP_RADDR, which advances by
one; on a poisoned word UE is set and the data is a free value. Header word 4 of a stored point record has MEM_UE where one of
the record's bursts is poisoned. Before training and without a region the data is the reset value 0, and beyond the region it is
a free value. -/
def Obligations.CaptureWindowReads : Prop :=
  ∀ (s : State) (t : Nat) (hits : List MemHit), s.portOpen → let b := s.begin t
    let ofs := s.rdWide 0x7030 2
    let i := 25 * s.regBase s.capReg + ofs
    let there := s.flag F.MEM_STATUS_TRAINED && s.regSize s.capReg != 0
    let v := b.memRead 0 4 true (hits.filter fun h => h.burst == i / 25)
    let mark : Word := if (v.word4Of i).any (fun l => l.any (v.poisoned 0)) then 0x80000 else 0
    (there = true → ofs < 25 * s.regSize s.capReg → v.poisoned 0 (i / 25) = false →
      Completes (.capRdata t hits) t s (.regs :: .mem :: .cap :: evParts) fun u =>
        u.mgmt.resp = ⟨.ok, 0x7032, v.asRead 0 i (SMap.get (fun _ => 0) v.cap.store i) ||| mark⟩ ∧
        u.flag F.CAP_RSTAT_UE = false ∧ u.rdWide 0x7030 2 = (ofs + 1) % 2 ^ 40 ∧ u.mem = v.mem ∧ u.cap = v.cap) ∧
    (there = true → ofs < 25 * s.regSize s.capReg → v.poisoned 0 (i / 25) = false → (∀ h ∈ hits, h.burst ≠ i / 25) →
      CompletesAt (.capRdata t hits) t s [.mgmt, .mem] [0x7030, 0x7031, 0x7033] fun u =>
        u.mem = { s.mem with seen := [] } ∧
        u.mgmt = { s.mgmt with shifted := some s.mgmt.resp, resp := ⟨.ok, 0x7032,
          ({ b with mem := { s.mem with seen := [] } } : State).asRead 0 i (SMap.get (fun _ => 0) s.cap.store i) ||| mark⟩ }) ∧
    (there = true → ofs < 25 * s.regSize s.capReg → v.poisoned 0 (i / 25) = true →
      Completes (.capRdata t hits) t s (.regs :: .mem :: .cap :: .free :: evParts) fun u =>
        u.mgmt.resp.status = .ok ∧ u.mgmt.resp.data &&& mark = mark ∧ u.flag F.CAP_RSTAT_UE = true ∧
        u.rdWide 0x7030 2 = (ofs + 1) % 2 ^ 40 ∧ u.free = s.free + 1) ∧
    (there = true → 25 * s.regSize s.capReg ≤ ofs →
      CompletesAt (.capRdata t hits) t s [.mgmt, .free] [0x7030, 0x7031, 0x7033] fun u =>
        u.mgmt.resp = ⟨.ok, 0x7032, BitVec.ofNat 20 (Config.freeValue s.free)⟩ ∧ u.flag F.CAP_RSTAT_UE = false ∧
        u.rdWide 0x7030 2 = (ofs + 1) % 2 ^ 40 ∧ u.free = s.free + 1) ∧
    (there = false →
      CompletesAt (.capRdata t hits) t s [.mgmt] [0x7030, 0x7031, 0x7033] fun u =>
        u.mgmt.resp = ⟨.ok, 0x7032, 0⟩ ∧ u.flag F.CAP_RSTAT_UE = false ∧ u.rdWide 0x7030 2 = (ofs + 1) % 2 ^ 40)

/-- The path of a segment (R317, R326 to R330): a condition makes an armed segment POST and fixes TTRIG and the records before
it, POSTT µs later the segment closes as valid, and the next one is armed; a condition between segments is counted as missed. A
record that the CAP takes (R322, R323, R325, R326, R333): while the bucket admits it and the module is available, it is stored
behind the earlier ones; else it is lost whole and counted. A record of an averaging setup enters the interval, also between two
segments. At the end of an averaging interval the next one begins. -/
def Obligations.CaptureSegmentsTakeTheirRecords : Prop :=
  (∀ (s : State) (t : Nat), let b := s.begin t
      (∀ c cs g, s.cap.conds = c :: cs → s.cap.st = .pre → s.cap.seg = some g →
        ¬ (s.cap.closeAt < c.time ∧ c.time < s.cap.armAt) →
        Completes (.trigger t) t s [.cap] fun u =>
          u.cap = { s.cap with
            conds := cs, st := .post, seg := some { g with
              pre := lastWithin s.prew g.pre, triggered := true, ttrig := c.time, tfine := c.fine, coarse := c.coarse,
              tsrc := c.src, srcMask := 2 ^ c.src, preshort := (lastWithin s.prew g.pre).length == g.pre.length } }) ∧
      (∀ c cs, s.cap.conds = c :: cs → s.cap.st = .full →
        CompletesAt (.trigger t) t s [.cap] [F.CAP_MISSED_COUNT.addr] fun u =>
          u.cap = { s.cap with conds := cs, missed := s.cap.missed + 1 } ∧
          u.rd F.CAP_MISSED_COUNT = satN 20 (s.rd F.CAP_MISSED_COUNT + 1)) ∧
      (∀ g, s.cap.st = .post → s.cap.seg = some g → s.rd F.CAP_A_POSTT_POSTT ≠ 0 →
        g.ttrig + 1000 * s.rd F.CAP_A_POSTT_POSTT ≤ b.now →
        Completes (.posttExpiry t) t s [.regs, .cap, .mem] fun u =>
          u.cap.seg = none ∧
          u.cap.st = (if s.allClosed 1 then .full else if s.flag F.CAP_CTL_ARM then .rearm else .idle) ∧
          (u.cap.slots.map Prod.fst) = s.cap.slots.map Prod.fst ++ [g.slot] ∧ u.cap.idx = (s.cap.idx + 1) % 2 ^ 20 ∧
          u.cap.closeAt = b.now ∧ u.rd F.CAP_LAST_SLOT = g.slot % 2 ^ 20 ∧
          u.rd F.CAP_SEGS_COUNT = satN 20 (s.rd F.CAP_SEGS_COUNT + 1)) ∧
      (s.cap.st = .rearm →
        CompletesAt (.rearm t) t s [.cap] [F.CAP_OLDEST_SLOT.addr] fun u =>
          (s.nextSlot = none → u.cap = { s.cap with st := .full, lockFull := s.capRing }) ∧
          (∀ k, s.nextSlot = some k → u.cap.st = .pre ∧ u.cap.seg.map Seg.slot = some k ∧ u.cap.armAt = b.now))) ∧
  (∀ (s : State) (t : Nat), let b := s.begin t
      (∀ r rs g, s.cap.recs = r :: rs → s.rangeMet r = false → s.capTakes r = true → s.cap.seg = some g →
        s.flag F.CAP_A_MODE_AVG = false → g.triggered = false → (∀ p, g.lastSt = some p → ((r.time : Int) - p).natAbs < 2 ^ 19) →
        let bucket := min 16384000 (g.bucket + 512 * (match g.lastRef with | none => 0 | some p => r.time - p))
        (1000 * (3 + r.body.length) ≤ bucket → b.memAvail 0 = true →
          Completes (.captureRecord t) t s [.cap, .mem] fun u =>
            u.cap.recs = rs ∧ u.cap.conds = s.cap.conds ∧ u.cap.seg = some { g with
              lastRef := some r.time, bucket := bucket - 1000 * (3 + r.body.length), lostB := false,
              wptr := (g.wptr + (3 + r.body.length)) % max 1 s.segw, lastSt := some r.time,
              pre := lastWithin s.segw (g.pre ++
                [⟨g.wptr % max 1 s.segw, recWords r (s.measure r) g.lostB, r.time, r.port⟩]) }) ∧
        (b.memAvail 0 = false ∨ bucket < 1000 * (3 + r.body.length) →
          CompletesAt (.captureRecord t) t s [.cap] [F.CAP_LOST_COUNT.addr] fun u =>
            u.cap = { s.cap with
              recs := rs, seg := some { g with lastRef := some r.time, bucket := bucket, lost := g.lost + 1, lostB := true } } ∧
            u.rd F.CAP_LOST_COUNT = satN 20 (s.rd F.CAP_LOST_COUNT + 1))) ∧
      (∀ r rs, s.cap.recs = r :: rs → s.rangeMet r = false → s.capTakes r = true → s.flag F.CAP_A_MODE_AVG = true →
        Completes (.captureRecord t) t s [.cap] fun u =>
          u.cap = { s.cap with recs := rs, avg := s.cap.avg.map (Avg.add · (s.measure r)) }) ∧
      (∀ a, s.cap.avg = some a → 0 < s.rd F.CAP_A_AVGI_AVGI → a.start + 1000 * s.rd F.CAP_A_AVGI_AVGI ≤ b.now →
        Completes (.avgIntervalEnd t) t s [.regs, .cap, .mem] fun u =>
          u.cap.avg = some ⟨a.start + 1000 * s.rd F.CAP_A_AVGI_AVGI, 0, 0xFFFFF, 0, 0, 0⟩ ∧ u.cap.recs = s.cap.recs))

/-- FSO_Sn_CMT (R354, R355, R360): an accepted commit is pending for the next frame whose latch point has not passed, and keeps
the definition that it replaces for a latch point of this very instant; a refused one leaves the stream as it was; without bit
19 nothing happens. FSO_PIN and FSO_REL (R357, R360): a pin holds the READY frame, also one that flips at that instant, or the
frame scanned last while its slot still has it, and FSO_PINR and FSO_PINF name it; a release with the pinned GEN ends the pin.
FSO_RESEND and FSO_RDATA (R357, R364, R393, R395): a resend of the pinned frame to a partner of DLP 2.0 or later is queued; the
window returns the pixel word, a free value from a poisoned burst, and advances by column and then by line; without a pin it
sets NOPIN. -/
def Obligations.StreamCommitsPinsAndResends : Prop :=
  (∀ (s : State) (t n : Nat) (d : Word), s.portOpen → n < 4 → let b := s.begin t
      (bitOf d.toNat 19 = true → s.judgeDef n (s.staged n) = .ok →
        Completes (.fsoCommit t n d) t s [.mgmt, .fso] fun u =>
          s.answered u (0x804B + 32 * n) .ok ∧
          u.fso = (s.setStream n { s.stream n with
            pend := some ⟨s.staged n, false, s.fso.fcnt + (if s.fso.latched then 2 else 1), b.clk,
              match (s.stream n).pend with
              | some p => if p.at0 = b.clk then p.older else some (p.defn, p.frame)
              | none => none⟩ }).fso) ∧
      (bitOf d.toNat 19 = true → s.judgeDef n (s.staged n) ≠ .ok →
        Completes (.fsoCommit t n d) t s [.mgmt] fun u => s.answered u (0x804B + 32 * n) (s.judgeDef n (s.staged n))) ∧
      (bitOf d.toNat 19 = false → Completes (.fsoCommit t n d) t s [.mgmt] fun u => s.answered u (0x804B + 32 * n) .ok)) ∧
  (∀ (s : State) (t : Nat) (d : Word) (n : Nat), s.portOpen → n = bitsOf d.toNat 19 18 → let x := s.stream n
      (∀ k, bitOf d.toNat 17 = false → x.find .ready = some k → x.pin = none →
        CompletesAt (.fsoPin t d) t s [.mgmt, .fso] [0x8101, 0x8102, 0x8103, 0x8104] fun u =>
          s.answered u 0x8100 .ok ∧ u.fso = (s.setStream n { x with pin := some k }).fso ∧
          u.word 0x8101 = mkWord [(19, 1), (17, k), (0, (x.slot k).gen)] ∧
          u.rdWide 0x8102 3 = (x.slot k).fcnt % 2 ^ 60) ∧
      (∀ k g, bitOf d.toNat 17 = true → x.lastScan = some (k, g) → (x.slot k).st = .free → (x.slot k).gen = g → x.pin = none →
        CompletesAt (.fsoPin t d) t s [.mgmt, .fso] [0x8101, 0x8102, 0x8103, 0x8104] fun u =>
          s.answered u 0x8100 .ok ∧ u.fso = (s.setStream n { x with pin := some k }).fso) ∧
      (∀ sc, bitOf d.toNat 17 = false → x.find .ready = none → x.flipAt = (s.begin t).clk → x.scan = some sc → x.pin = none →
        CompletesAt (.fsoPin t d) t s [.mgmt, .fso] [0x8101, 0x8102, 0x8103, 0x8104] fun u =>
          s.answered u 0x8100 .ok ∧ u.fso = (s.setStream n { x with pin := some sc.slot }).fso) ∧
      (x.pin.isSome = true → Completes (.fsoPin t d) t s [.mgmt] fun u => s.answered u 0x8100 .refused) ∧
      (∀ k, x.pin = some k → (x.slot k).gen = bitsOf d.toNat 7 0 →
        Completes (.fsoRel t d) t s [.mgmt, .fso] fun u =>
          s.answered u 0x8105 .ok ∧ u.fso = (s.setStream n { x with pin := none }).fso) ∧
      (x.pin = none → Completes (.fsoRel t d) t s [.mgmt] fun u => s.answered u 0x8105 .refused)) ∧
  (∀ (s : State) (t : Nat) (d : Word) (n : Nat), s.portOpen →
      (∀ k, n = bitsOf d.toNat 19 18 → (s.stream n).pin = some k → (s.ptn (bitsOf d.toNat 5 0)).atLeast 2 0 = true →
        Completes (.fsoResend t d) t s [.mgmt, .fso, .lnk, .out, .regs, .cmp] fun u =>
          s.answered u 0x8106 .ok ∧ (u.stream n).resend.length = (s.stream n).resend.length + 1 ∧
          ((u.stream n).resend.getLast?.bind Scan.partner) = some (bitsOf d.toNat 5 0) ∧ (u.stream n).pin = some k) ∧
      (n = bitsOf d.toNat 19 18 → (s.stream n).pin = none ∨ (s.ptn (bitsOf d.toNat 5 0)).atLeast 2 0 = false →
        Completes (.fsoResend t d) t s [.mgmt] fun u => s.answered u 0x8106 .refused) ∧
      (∀ k v line col hits, n = s.rd F.FSO_RADDR1_STREAM → (s.stream n).pin = some k → v = s.rd F.FSO_RADDR1_VEN →
        line = s.rd F.FSO_RADDR_LINE → col = s.rd F.FSO_RADDR_COL →
        let f := (s.stream n).slot k
        let i := s.lineWord n k f.defn v (line - defWl0 f.defn) + 6 + (col - defWc0 f.defn)
        let m := (s.begin t).memRead 1 5 true (hits.filter fun h => h.burst == i / 25)
        let next := fun (u : State) => if defWc0 f.defn + defWnc f.defn - 1 ≤ col
          then u.rd F.FSO_RADDR_COL = defWc0 f.defn ∧ u.rd F.FSO_RADDR_LINE = (line + 1) % 2 ^ 12
          else u.rd F.FSO_RADDR_COL = (col + 1) % 256 ∧ u.rd F.FSO_RADDR_LINE = line
        inWindow f.defn line col = true → (vens f.defn).contains v = true →
        (m.poisoned 1 (i / 25) = false →
          Completes (.fsoRdata ⟨t, hits⟩) t s (.regs :: .mem :: .cap :: evParts) fun u =>
            u.mgmt.resp = ⟨.ok, 0x810A, m.asRead 1 i (m.pixelAt f f.defn v line col)⟩ ∧ u.mem = m.mem ∧ next u) ∧
        (m.poisoned 1 (i / 25) = false → (∀ h ∈ hits, h.burst ≠ i / 25) →
          CompletesAt (.fsoRdata ⟨t, hits⟩) t s [.mgmt, .mem] [F.FSO_RADDR_COL.addr, F.FSO_RADDR_LINE.addr] fun u =>
            u.mem = { s.mem with seen := [] } ∧ u.mgmt = { s.mgmt with shifted := some s.mgmt.resp, resp := ⟨.ok, 0x810A,
              ({ s with mem := { s.mem with seen := [] } } : State).asRead 1 i (s.pixelAt f f.defn v line col)⟩ }) ∧
        (m.poisoned 1 (i / 25) = true →
          Completes (.fsoRdata ⟨t, hits⟩) t s (.regs :: .mem :: .cap :: .free :: evParts) fun u =>
            u.mgmt.resp = ⟨.ok, 0x810A, BitVec.ofNat 20 (Config.freeValue s.free)⟩ ∧ u.free = s.free + 1 ∧ next u)) ∧
      (∀ hits, n = s.rd F.FSO_RADDR1_STREAM → (s.stream n).pin = none →
        CompletesAt (.fsoRdata ⟨t, hits⟩) t s [.mgmt] [F.FSO_RSTAT_NOPIN.addr] fun u =>
          u.mgmt.resp = ⟨.ok, 0x810A, 0xFFFFF⟩ ∧ u.flag F.FSO_RSTAT_NOPIN = true))

/-- A mark takes effect at the FSO once it has passed the ports and every earlier result has come (R64, R346, R348, R354, R360):
SOF opens the next frame, EOF closes it and makes the frame being built READY, or flips it where a frame start event of this
very instant had found none READY, and an EOL gives its TAG to the lines that follow. POINT_RECORD_PLACE (R343, R346, R354):
while no mark stands before it, the record leaves the path; with a frame open it writes the pixel of every enabled Veneer whose
window holds it, and with none, or beyond the last line, it is counted and dropped. -/
def Obligations.MarksAndPointRecordsMakeFrames : Prop :=
  (∀ (s : State) (t : Nat) (m : Mark) (ms : List Mark) (n : Nat), s.seq.marks = m :: ms → s.ready = true →
      (m.ord = some n → s.toPass = [] → s.resultsBefore n = false → m.sof = true →
        Completes (.sof t) t s [.regs, .seq, .fso, .cmp, .mem, .lnk, .tbu, .out] fun u =>
          u.fso.frameOpen = true ∧ u.fso.latched = false ∧ u.fso.fcnt = (s.fso.fcnt + 1) % 2 ^ 60 ∧ u.seq.tag = m.tag ∧
          (s.fso.frameOpen = false → ∀ k, k < 4 → s.streamOn k = true → (s.stream k).pin = none →
            (s.stream k).find .free = some 0 → ((u.stream k).slot 0).st = .asm ∧ ((u.stream k).slot 0).fcnt = u.fso.fcnt)) ∧
      (m.ord = some n → s.toPass = [] → s.resultsBefore n = false → m.eof = true → m.sof = false → m.eol = false →
        s.fso.frameOpen = true →
        Completes (.eof t) t s [.regs, .seq, .fso, .cmp, .mem, .lnk, .tbu, .out] fun u =>
          u.fso.frameOpen = false ∧ u.fso.latched = true ∧ u.fso.fcnt = s.fso.fcnt ∧ u.seq.marks = ms ∧
          ∀ k j, k < 4 → (s.stream k).find .asm = some j →
            ((∀ e, (s.stream k).evAt = some e → e.1 ≠ (s.begin t).clk) → ((u.stream k).slot j).st = .ready) ∧
            (∀ inst cnt, (s.stream k).evAt = some ((s.begin t).clk, inst, cnt) → (s.stream k).scan = none →
              s.missing k = ([], false) → (∀ i, i < 3 → i ≠ j → ((s.stream k).slot i).st ≠ .ready) →
              ((u.stream k).slot j).st = .scan ∧ ((u.stream k).slot j).tflip = (s.begin t).now)) ∧
      (m.ord = some n → s.toPass = [] → s.resultsBefore n = false → m.eol = true → m.sof = false →
        Completes (.eol t) t s [.seq] fun u =>
          u.seq = { s.seq with tag := m.tag, marks := if m.eof then { m with eol := false } :: ms else ms }) ∧
      (m.ord = none → m.cause = none → m.eol = true → s.clearBefore m.id = true → (∀ x ∈ ms, x.ord = none) →
        s.rta.recs = [] →
        Completes (.eol t) t s [.regs, .mgmt, .seq, .rta, .rpe, .saf, .cap, .lnk, .out] fun u =>
          ∀ p h, assoc u.rpe.acc p = some h → h.cause.isSome = true)) ∧
  (∀ (s : State) (t : Nat) (p : Point) (ps : List Point), s.rpe.points = p :: ps → (∀ m ms, s.seq.marks = m :: ms → m.ord = none) →
      s.ready = true →
      (s.fso.frameOpen = true → p.line < s.nlines → p.pix < 256 →
        Completes (.pointRecordPlace t) t s [.rpe, .fso, .mem, .lnk, .out] fun u =>
          u.rpe = { s.rpe with points := ps } ∧
          ∀ k j v w, k < 4 → (s.stream k).find .asm = some j → let f := (s.stream k).slot j
            inWindow f.defn p.line p.pix = true → v ∈ vens f.defn →
            s.pixelOf k f.defn v p (s.portOff p.port) (f.recd.contains (256 * p.line + p.pix)) = some w →
            u.pixelAt ((u.stream k).slot j) f.defn v p.line p.pix = w) ∧
      (s.fso.frameOpen = false →
        CompletesAt (.pointRecordPlace t) t s [.rpe, .lnk, .out] [F.FSO_ORPHAN_COUNT.addr] fun u =>
          u.rpe = { s.rpe with points := ps } ∧ u.rd F.FSO_ORPHAN_COUNT = satN 20 (s.rd F.FSO_ORPHAN_COUNT + 1)) ∧
      (s.fso.frameOpen = true → s.nlines ≤ p.line →
        CompletesAt (.pointRecordPlace t) t s [.rpe, .lnk, .out] [F.FSO_OUTLINE_COUNT.addr] fun u =>
          u.rpe = { s.rpe with points := ps } ∧ u.rd F.FSO_OUTLINE_COUNT = satN 20 (s.rd F.FSO_OUTLINE_COUNT + 1)))

/-- Flips (R349, R350): a frame start event in TIMER mode, an acceptance that was the last one missing, and the end of ACCWAIT
put the READY frame of a stream into SCAN; an event with an acceptance still missing waits. -/
def Obligations.FlipsFollowEventsAndAcceptances : Prop :=
  ∀ (s : State) (t n k : Nat), n < 4 → s.ready = true → (s.stream n).find .ready = some k → (s.stream n).scan = none →
    let b := s.begin t
    let flipped := fun (u : State) =>
      (u.stream n).waitAt = none ∧ (u.stream n).pinAcc = false ∧ (u.stream n).accs = [] ∧ ((u.stream n).slot k).st = .scan ∧
      ((u.stream n).slot k).tflip = b.now ∧ ((u.stream n).scan.map Scan.slot) = some k
    (s.rd F.FSO_CFG_FSMODE = 2 → 0 < s.rd F.FSO_FPER_FPER → b.now % (1000 * s.rd F.FSO_FPER_FPER) = 0 →
      (∀ m, m < 4 → m ≠ n → s.streamOn m = false ∧ ∀ j, j < 3 → ((s.stream m).slot j).st = .free) → s.seq.st ≠ .syncwait →
      (s.missing n = ([], false) →
        Completes (.frameStartEvent t) t s [.regs, .fso, .cmp, .lnk, .out] fun u => flipped u) ∧
      (s.missing n ≠ ([], false) →
        Completes (.frameStartEvent t) t s [.fso] fun u =>
          u.fso = (s.setStream n { s.stream n with waitAt := some b.now }).fso)) ∧
    ((s.stream n).waitAt.isSome = true → (s.missing n).1 = [] →
      Completes (.facceptEdge t n) t s [.regs, .fso, .cmp, .lnk, .out] fun u => flipped u) ∧
    ((s.stream n).waitAt = none →
      Completes (.facceptEdge t n) t s [.fso] fun u => u.fso = (s.setStream n { s.stream n with pinAcc := true }).fso) ∧
    (∀ e, (s.stream n).waitAt = some e → 0 < s.rd F.FSO_ACCWAIT_WAIT → e + 1000 * s.rd F.FSO_ACCWAIT_WAIT ≤ b.now →
      ((s.missing n).1.length + b2n (s.missing n).2 < (s.gating n).length + b2n (s.pinGates n) →
        Completes (.accwaitExpiry t n) t s [.regs, .fso, .cmp, .lnk, .out] fun u => flipped u) ∧
      (0 < (s.gating n).length + b2n (s.pinGates n) →
        (s.missing n).1.length + b2n (s.missing n).2 = (s.gating n).length + b2n (s.pinGates n) →
        Completes (.accwaitExpiry t n) t s [.fso] fun u =>
          u.fso = (s.setStream n { s.stream n with waitAt := none }).fso))

/-- LINE_FETCH (R348, R352, R353, R357, R358): with the memory available, or late, the next line record of a scan or of the
first resend goes out; the records go Veneer by Veneer and line by line. The last one of a scan frees the slot, and the frame
stays the one scanned last; the last one of a resend ends it. -/
def Obligations.LineRecordsGoOutInOrder : Prop :=
  ∀ (s : State) (t n : Nat) (x : Scan) (resend : Bool) (hits : List MemHit) (late : Bool), n < 4 →
    (if resend then (s.stream n).resend.head? else (s.stream n).scan) = some x → x.partner.isSome = resend →
    (s.begin t).memAvail 1 = true ∨ late = true →
    let parts := .regs :: .fso :: .cmp :: .cap :: .mem :: evParts
    let now := fun (u : State) => if resend then (u.stream n).resend.head? else (u.stream n).scan
    (x.ven + 1 < (vens x.defn).length → x.line < defWnl x.defn →
      Completes (.lineFetch t n resend hits late) t s parts fun u =>
        ∃ v, now u = some { x with ven := x.ven + 1, void := v } ∧ (u.stream n).resend.tail = (s.stream n).resend.tail) ∧
    ((vens x.defn).length ≤ x.ven + 1 → x.line + 1 < defWnl x.defn →
      Completes (.lineFetch t n resend hits late) t s parts fun u =>
        ∃ v, now u = some { x with ven := 0, line := x.line + 1, void := v } ∧
          (u.stream n).resend.tail = (s.stream n).resend.tail) ∧
    ((vens x.defn).length ≤ x.ven + 1 → defWnl x.defn ≤ x.line + 1 →
      Completes (.lineFetch t n resend hits late) t s parts fun u =>
        (resend = true → (u.stream n).resend = (s.stream n).resend.tail) ∧
        (resend = false → x.slot < 3 →
          (u.stream n).scan = none ∧ (u.stream n).lastScan = some (x.slot, x.gen) ∧ ((u.stream n).slot x.slot).st = .free)) ∧
    (∀ d, x.line + 1 < defWnl x.defn → x.dests = [d] → d < 64 → (s.begin t).canSend d = true → hits = [] →
      let v := (vens x.defn).getD x.ven 0
      let f := (s.stream n).slot x.slot
      let void := late || f.gen != x.gen
      ((s.ptn d).vens x.defn).contains v = true → x.void.contains v = false →
      s.poisonIn 1 (s.lineBursts n x.slot x.defn v x.line) = false →
      Completes (.lineFetch t n resend hits late) t s parts fun u =>
        u.out = [.dlp d (s.ptn d).lane 0x11 (s.ptn d).txSeq
          (({ s with mem := { s.mem with seen := [] } } : State).lineWords n x f (f.gen == x.gen) v (defWl0 x.defn + x.line) void)] ∧
        u.rd F.FSO_UNDERRUN_COUNT = if void then satN 20 (s.rd F.FSO_UNDERRUN_COUNT + 1) else s.rd F.FSO_UNDERRUN_COUNT)

/-- CMP_EXP_CTL (R329, R367, R374, R377, R383): a GO that the rule permits gives the job its arguments, a free context and the
lock of its slot; another is answered with its status; ABORT marks the job. EXPORT_END and CONTEXT_SWAP (R368, R374, R375, R377,
R379, R384, R396): the job ends with its result, output and counts, the output laid into the chain, and gives back its context
and the lock; a swap makes the needed context resident and, of four, gives up the one used longest ago. -/
def Obligations.ExportsStartAbortEndAndSwap : Prop :=
  (∀ (s : State) (t : Nat) (d : Word), s.portOpen →
      (bitOf d.toNat 19 = true → s.judgeGo = .ok →
        Completes (.exportGo t d) t s [.regs, .mgmt, .cmp, .cap] fun u =>
          s.answered u 0x9100 .ok ∧ u.flag F.CMP_EXP_RES_DONE = false ∧ u.cmp.output = [] ∧
          u.cap = { s.cap with expSlot := some (s.rd F.CMP_EXP_SLOT_SLOT) } ∧
          ∃ n, n < 16 ∧ (s.ctx n).used = false ∧ (u.ctx n).used = true ∧ (u.ctx n).client = .exporting ∧
            (∀ m, m ≠ n → u.ctx m = s.ctx m) ∧
            u.cmp.job = some ⟨n, s.rd F.CMP_EXP_SLOT_SLOT, s.rdWide 0x9102 2, s.rdWide 0x9104 2, false, bitOf d.toNat 17,
              d.toNat % 64, s.expMask⟩) ∧
      (bitOf d.toNat 19 = true → s.judgeGo ≠ .ok →
        Completes (.exportGo t d) t s [.mgmt] fun u => s.answered u 0x9100 s.judgeGo) ∧
      (bitOf d.toNat 19 = false → bitOf d.toNat 18 = true →
        CompletesAt (.exportAbort t d) t s [.mgmt, .cmp] [0x9100] fun u =>
          s.answered u 0x9100 .ok ∧ u.cmp = { s.cmp with job := s.cmp.job.map fun j => { j with abort := true } })) ∧
  (∀ (s : State) (t : Nat), let b := s.begin t
      (∀ j hits, s.cmp.job = some j → (s.ctx j.ctx).resident = true → b.memAvail 0 = true → b.memAvail 1 = true →
        Completes (.exportEnd t hits) t s (.regs :: .cmp :: .cap :: .mem :: evParts) fun u =>
          u.cmp.job = none ∧ u.cap.expSlot = none ∧ u.flag F.CMP_EXP_RES_DONE = true ∧ (u.ctx j.ctx).used = false ∧
          let v := b.memRead 0 3 true (hits.filter fun h => (((b.expSource j).map Prod.snd).dedup).contains h.burst)
          let r := runExport (s.rd F.CMP_CFG_KINIT) s.chainWords j.abort (v.poisoned 0) ((v.expSource j).length + 1) (s.ctx j.ctx)
            (v.expSource j) [] 0 0
          u.cmp.output = r.out ∧ u.rd F.CMP_EXP_RES_RESULT = r.result ∧ u.rdWide 0x9114 2 = r.out.length % 2 ^ 40 ∧
          u.rd F.CMP_EXP_NBLK_NBLK = r.nblk % 2 ^ 20 ∧
          u.cmp.expStore = ((place s.links r.out).filter fun e => Nat.blt e.1 (25 * s.mem.expAt.2)).foldl
            (fun m e => SMap.put (fun _ => 0) m e.1 e.2) s.cmp.expStore) ∧
      (∀ c hits, (s.ctx c).used = true → (s.ctx c).resident = false → (s.ctx c).eng = true → b.memAvail 1 = true →
        (s.cmp.ctxs.map Prod.fst).Nodup →
        ((s.resident true).length < 4 → let v := b.memRead 1 2 true (hits.filter fun h => s.ctxBurst c h.burst)
          Completes (.contextSwap t c hits) t s (.regs :: .cmp :: .cap :: .mem :: evParts) fun u =>
            (u.ctx c).resident = true ∧ (u.ctx c).lastUse = b.clk ∧ (∀ m, m ≠ c → u.ctx m = s.ctx m) ∧
            (v.poisonIn 1 (s.ctxBurst c) = true → (u.ctx c).hist = [] ∧ (u.ctx c).fresh = true) ∧
            (v.poisonIn 1 (s.ctxBurst c) = false → (u.ctx c).hist = (s.ctx c).hist) ∧
            (∀ a, a ≠ F.CMP_SWAPS_COUNT.addr → u.word a = v.word a) ∧
            u.rd F.CMP_SWAPS_COUNT = satN 20 (s.rd F.CMP_SWAPS_COUNT + 1)) ∧
        (4 ≤ (s.resident true).length → s.cmp.job = none →
          Completes (.contextSwap t c hits) t s (.regs :: .cmp :: .cap :: .mem :: evParts) fun u =>
            u.rd F.CMP_SWAPS_COUNT = satN 20 (s.rd F.CMP_SWAPS_COUNT + 1) ∧
            (u.ctx c).resident = true ∧ ∃ v, v ≠ c ∧ (s.ctx v).resident = true ∧ (u.ctx v).resident = false ∧
              (∀ e ∈ s.resident true, (s.ctx v).lastUse ≤ e.2.lastUse) ∧ (∀ m, m ≠ c → m ≠ v → u.ctx m = s.ctx m))))

/-- RTA_PCFG (R155, R160): EN = 0 waits for the port's shot boundary with PDRAINED = 0; EN = 1 of a drained port takes effect at
once, ACTIVE with it, and of one that is not drained is answered DRAINING. -/
def Obligations.PortsAreDisabledAndEnabled : Prop :=
  ∀ (s : State) (t p : Nat) (d : Word), s.portOpen → p < 256 → let b := s.begin t
    let a := 0x4000 + 16 * p
    let now := (b.poke a d).flag (F.RTA_PCFG_EN p)
    (s.flag (F.RTA_PCFG_EN p) = true → now = false → (b.poke a d).limitOk a = true →
      CompletesAt (.portDisable t p d) t s [.mgmt, .rta] [a, a + 4] fun u =>
        s.answered u a .ok ∧ u.word a = b.mixed a d ∧ u.flag (F.RTA_PSTAT_PDRAINED p) = false ∧
        u.rta = { s.rta with disabling := p :: s.rta.disabling }) ∧
    (s.flag (F.RTA_PCFG_EN p) = false → now = true → s.flag (F.RTA_PSTAT_PDRAINED p) = true → (b.poke a d).limitOk a = true →
      CompletesAt (.portEnable t p d) t s [.mgmt] [a, a + 4] fun u =>
        s.answered u a .ok ∧ u.word a = b.mixed a d ∧ u.flag (F.RTA_PSTAT_ACTIVE p) = u.takesStops p) ∧
    (s.flag (F.RTA_PCFG_EN p) = false → now = true → s.flag (F.RTA_PSTAT_PDRAINED p) = false →
      Completes (.portEnable t p d) t s [.mgmt] fun u => s.answered u a .draining)

/-- RTA_SPAREr, RTA_AIRIDX and RPE_EHIST (R144, R152, R154, R206, R210): a manual substitution of a free, sound spare starts; an
air index within AIRDEV is taken, with RPE_KR; a write of HDEPTH empties the echo history. What the rules do not permit is
REFUSED. Substitution (R152, R153): 8 µs after its start the spare takes the port's configuration and is verified; a spare that
passes ends the substitution, and one that fails leaves the port OFF and the device DEGRADED. -/
def Obligations.SparesSubstituteAndHostWrites : Prop :=
  (∀ (s : State) (t : Nat) (d : Word), s.portOpen → let b := s.begin t
      (∀ r, r < 8 → bitOf d.toNat 17 = true → s.flag (F.RTA_SPARE_INUSE r) = false → s.flag (F.RTA_SPARE_FAILED r) = false →
        let p := 32 * r + bitsOf d.toNat 4 0
        Completes (.manualSubstitution t r d) t s [.regs, .mgmt, .rta, .rpe, .saf, .cap, .lnk, .out] fun u =>
          s.answered u (0x5008 + r) .ok ∧ assoc u.rta.subs r = some ⟨p, b.clk, .settling⟩ ∧
          (s.rd F.SAF_TBRIDGE_TB ≠ 0 → u.flag (F.RTA_SPARE_INUSE r) = true ∧ u.rd (F.RTA_SPARE_SRC r) = p % 32 ∧
            u.flag (F.RTA_PSTAT_FAILED p) = true ∧ u.flag (F.RTA_PSTAT_SPARED p) = true)) ∧
      (∀ r, r < 8 → bitOf d.toNat 17 = true → s.flag (F.RTA_SPARE_INUSE r) = true ∨ s.flag (F.RTA_SPARE_FAILED r) = true →
        Completes (.manualSubstitution t r d) t s [.mgmt] fun u => s.answered u (0x5008 + r) .refused) ∧
      (((d.toNat : Int) - s.boot.airidx).natAbs ≤ s.rd F.RTA_AIRDEV_AIRDEV →
        CompletesAt (.airidxWrite t d) t s [.mgmt] [0x5004, 0x6300, 0x6301] fun u =>
          s.answered u 0x5004 .ok ∧ u.rd F.RTA_AIRIDX_AIRIDX = d.toNat ∧
          u.rdWide 0x6300 2 = (9823599 * 2 ^ 24 + (2 ^ 24 + d.toNat) / 2) / (2 ^ 24 + d.toNat)) ∧
      (s.rd F.RTA_AIRDEV_AIRDEV < ((d.toNat : Int) - s.boot.airidx).natAbs →
        Completes (.airidxWrite t d) t s [.mgmt] fun u => s.answered u 0x5004 .refused) ∧
      ((b.poke 0x6014 d).limitOk 0x6014 = true →
        CompletesAt (.rpeEhistWrite t d) t s [.mgmt, .rpe] [0x6014, 0x6030] fun u =>
          s.answered u 0x6014 .ok ∧ u.word 0x6014 = b.mixed 0x6014 d ∧ u.rpe.history = [] ∧ u.rd F.RPE_ESTAT_HFR = 0) ∧
      ((b.poke 0x6014 d).limitOk 0x6014 = false →
        Completes (.rpeEhistWrite t d) t s [.mgmt] fun u => s.answered u 0x6014 .refused)) ∧
  (∀ (s : State) (t row : Nat) (x : Machine.Sub), assoc s.rta.subs row = some x → let b := s.begin t
      (x.stage = .settling → x.t0 + 8000 ≤ b.clk →
        Completes (.spareSettled t row) t s [.rta] fun u =>
          assoc u.rta.subs row = some { x with stage := .verifying } ∧ assoc u.rta.copied row = some (s.cfgWords x.port) ∧
          (assoc u.rta.verif row).isSome = true) ∧
      (x.stage = .verifying →
        let v := (assoc s.rta.verif row).getD default
        (v.passes 4096 v.verifyAmp (s.rd F.RTA_CHK_TOL) = true →
          Completes (.verificationDone t row) t s (.regs :: .rta :: .cap :: evParts) fun u =>
            assoc u.rta.subs row = none ∧ assoc u.rta.verif row = none ∧ assoc u.saf.holds x.port = none) ∧
        (v.passes 4096 v.verifyAmp (s.rd F.RTA_CHK_TOL) = false → s.dev = .run → s.portOff x.port = false →
          Completes (.verificationDone t row) t s (.regs :: .dev :: .rta :: .rpe :: .cap :: evParts) fun u =>
            assoc u.rta.subs row = none ∧ u.dev = .degraded)))

/-- COMPARATOR_EDGE (R126 to R128, R134 to R136, R149): in an open FIRE window whose start reference is not known yet the edge
waits and counts as captured, one in the dead time of the edge before it is lost and marks that edge MERGED, and beyond eight
edges MORE is set; where the reference is known an accepted edge becomes a stop at once; a hit of the ring oscillator enters the
unit's density histogram. Where no window takes it, the edge completes with no effect on the receivers. -/
def Obligations.EdgesBecomeStopsOrAreLost : Prop :=
  (∀ (s : State) (t unit : Nat) (lead : TdcCode) (trail hi : Option TdcCode) (bin : Int) (w : GWin) (p : PWin),
    s.seq.wins = [] → unit < 264 → assoc s.rta.wins (unitGroup unit) = some w → assoc w.units unit = some p → lead.n < 4096 →
    (p.subst = false ∨ 256 ≤ unit) →
    let e := s.edgeOf unit lead trail hi
    let after := fun (u : State) => (assoc u.rta.wins (unitGroup unit)).bind fun w => assoc w.units unit
    let seen := { p with loHit := true, hiHit := p.hiHit || (p.mode == 0 && e.hi.isSome) }
    (w.kind = .fire → w.post = none → w.ref = none → (∀ x, p.lastEnd = some x → x + 8192 ≤ e.lead) → p.ncap < 8 →
      Completes (.comparatorEdge t unit lead trail hi (some bin)) t s (.regs :: .rta :: .cap :: evParts) fun u =>
        after u = some { seen with lastEnd := e.trail, ncap := p.ncap + 1, waiting := p.waiting ++ [e] }) ∧
    (w.kind = .fire → w.post = none → w.ref = none → (∀ x, p.lastEnd = some x → x + 8192 ≤ e.lead) → 8 ≤ p.ncap →
      Completes (.comparatorEdge t unit lead trail hi (some bin)) t s (.regs :: .rta :: .cap :: evParts) fun u =>
        after u = some { seen with lastEnd := e.trail, more := true, lastKept := false }) ∧
    (∀ x ws e0, w.kind = .fire → w.post = none → w.ref = none → p.lastEnd = some x → e.lead < x + 8192 → p.waiting = ws ++ [e0] →
      Completes (.comparatorEdge t unit lead trail hi (some bin)) t s (.regs :: .rta :: .cap :: evParts) fun u =>
        after u = some { seen with waiting := ws ++ [{ e0 with merged := true }] }) ∧
    (∀ a, w.post = none ∨ (∃ post, w.post = some post ∧ post.freq = false ∧ ¬ (w.kind = .cal ∧ post.mode = 2)) →
      w.ref = some a → p.waiting = [] → (∀ x, p.lastEnd = some x → x + 8192 ≤ e.lead) → p.ncap < 8 →
      let q := { seen with lastEnd := e.trail, ncap := p.ncap + 1 }
      Completes (.comparatorEdge t unit lead trail hi (some bin)) t s (.regs :: .rta :: .cap :: evParts) fun u =>
        after u = some (q.keep w.kerf w.len (q.stopOf a e)))) ∧
  (∀ (s : State) (t unit : Nat) (lead : TdcCode) (trail hi : Option TdcCode) (bin : Int),
    s.seq.wins = [] → unit < 264 → assoc s.rta.wins (unitGroup unit) = none → assoc s.rta.verif (unitGroup unit) = none →
    Completes (.comparatorEdge t unit lead trail hi (some bin)) t s (.regs :: .rta :: .cap :: evParts) fun u =>
      u.rta.wins = s.rta.wins ∧ u.rta.recs = s.rta.recs) ∧
  (∀ (s : State) (t unit : Nat) (lead : TdcCode) (trail hi : Option TdcCode) (w : GWin) (p : PWin) (post : WinPost),
    s.seq.wins = [] → unit < 264 → assoc s.rta.wins (unitGroup unit) = some w → assoc w.units unit = some p → w.kind = .cal →
    w.post = some post → post.mode = 2 → s.flag F.RTA_JIG_DRAW = false →
    Completes (.comparatorEdge t unit lead trail hi none) t s [.rta] fun u =>
      (u.unitSt unit).bgN = (s.unitSt unit).bgN + 1 ∧
      (u.unitSt unit).bg.nat lead.p = (s.unitSt unit).bg.nat lead.p + 1 ∧ u.rta.wins = s.rta.wins)

/-- RECEIVER_CLOSE (R135, R137, R141, R156, R159, R184): at the end of its window a unit closes; its shot joins the fire's
record, or its LISTEN record goes to the tracker, and its counters advance; the last unit to close frees the group. -/
def Obligations.ReceiversCloseWithTheirShots : Prop :=
  ∀ (s : State) (t unit port : Nat) (w : GWin) (p : PWin) (e : Nat), let b := s.begin t
    s.seq.wins = [] → assoc s.rta.wins (unitGroup unit) = some w → assoc w.units unit = some p → w.portOf unit = some port →
    port < 256 → w.endClk = some e → e ≤ b.clk →
    let g := unitGroup unit
    let a := 0x4000 + 16 * port
    (∀ f, w.kind = .fire → w.fire = some f → assocDel w.units unit ≠ [] →
      CompletesAt (.receiverClose t unit) t s [.rta] [a + 5, a + 6, a + 7, a + 8, a + 9] fun u =>
        assoc u.rta.wins g = some { w with units := assocDel w.units unit, closed := w.closed ++ [(unit, p)] } ∧
        u.rta.recs = s.rta.recs.map (fun r =>
          if r.fire.id = f.id then { r with shots := r.shots ++ [(port, w.shot port p)] } else r) ∧
        u.rd (F.RTA_PSTOPS_COUNT port) = satN 20 (s.rd (F.RTA_PSTOPS_COUNT port) + p.stops.length) ∧
        u.rd (F.RTA_POVF_COUNT port) = satN 20 (s.rd (F.RTA_POVF_COUNT port) + p.discards)) ∧
    (∀ post, w.kind = .listen → w.post = some post → post.amb = true → post.freq = false → assocDel w.units unit ≠ [] →
      CompletesAt (.receiverClose t unit) t s [.rta, .rpe, .cap] [a + 5, a + 6, a + 7, a + 8, a + 9] fun u =>
        assoc u.rta.wins g = some { w with units := assocDel w.units unit, closed := w.closed ++ [(unit, p)] } ∧
        u.rpe.ambQ.length = s.rpe.ambQ.length + 1) ∧
    (w.kind = .fire → assocDel w.units unit = [] →
      Completes (.receiverClose t unit) t s (.regs :: .seq :: .rta :: .rpe :: .cap :: evParts) fun u =>
        assoc u.rta.wins g = none ∧ u.seq.wins = [] ∧ u.seq.fires = s.seq.fires)

/-- Background tables, skews and gates (R129, R131, R133, R148, R156, R157, R163, R231, R232): a full density histogram becomes
the unit's next table, or a jump is noted; a mean skew within the limit moves the Shim, a start TDC's always, and one beyond the
limit is its failed self-check (log entry 21); a gate gives N and PERIOD, of a start TDC only while its row is disabled, and a
hit expires. -/
def Obligations.TablesSkewsAndGates : Prop :=
  ∀ (s : State) (t : Nat), let b := s.begin t
    (∀ p, p < 256 → (s.unitSt p).bgN ≠ 0 → 16 * s.rd F.RTA_BGH_H ≤ (s.unitSt p).bgN →
      let x := s.unitSt p
      let new := fineTable x.bg
      let ok := ∀ i, i < 256 → ((x.entry i : Int) - (new.getD i 0 : Nat)).natAbs ≤ s.rd F.RTA_TRK_LUTTRK
      (ok → Completes (.backgroundTable t p) t s [.rta] fun u =>
        u.unitSt p = { x with bg := [], bgN := 0, pendLut := some new } ∧ ∀ q, q ≠ p → u.unitSt q = s.unitSt q) ∧
      (¬ ok → x.failAt ≠ some b.clk → s.rd (F.RTA_PSTAT_CHKFAILS p) + 1 < s.rd F.RTA_CHK_NFAIL →
        CompletesAt (.backgroundTable t p) t s [.rta] [0x4004 + 16 * p] fun u =>
          u.unitSt p = { x with bg := [], bgN := 0, failAt := some b.clk } ∧ u.flag (F.RTA_PSTAT_LUTJUMP p) = true ∧
          u.rd (F.RTA_PSTAT_CHKFAILS p) = min 3 (s.rd (F.RTA_PSTAT_CHKFAILS p) + 1))) ∧
    (∀ p, p < 256 → (s.unitSt p).skN ≠ 0 → s.rd F.RTA_SKEWN_N ≤ (s.unitSt p).skN →
      let d := rdiv0 (s.unitSt p).skSum (s.unitSt p).skN
      d.natAbs ≤ 16 * s.rd F.RTA_TRK_SKEWTRK →
      CompletesAt (.skewUpdate t p) t s [.rta] [0x400F + 16 * p] fun u =>
        u.unitSt p = { s.unitSt p with skSum := 0, skN := 0 } ∧
        u.rdZ (F.RTA_PSKEW_SKEW p) = clampZ (-32768) 32767 (s.rdZ (F.RTA_PSKEW_SKEW p) + d)) ∧
    (∀ r, r < 8 → let x := s.unitSt (264 + r)
      x.skN ≠ 0 → s.rd F.RTA_SKEWN_N ≤ x.skN →
      let d := rdiv0 x.skSum x.skN
      let small := Nat.ble d.natAbs (16 * s.rd F.RTA_TRK_SKEWTRK)
      CompletesAt (.skewUpdate t (264 + r)) t s [.rta] [F.RTA_STARTFAIL_FAIL.addr] fun u =>
        u.unitSt (264 + r) = { x with skSum := 0, skN := 0, fails := if small then 0 else x.fails + 1 } ∧
        SMap.get (fun _ => 0) u.rta.startSkew r = clampZ (-32768) 32767 (SMap.get (fun _ => 0) s.rta.startSkew r + d) ∧
        (small = true ∨ x.fails + 1 < max 1 (s.rd F.RTA_CHK_NFAIL) → u.rd F.RTA_STARTFAIL_FAIL = s.rd F.RTA_STARTFAIL_FAIL) ∧
        (small = false → max 1 (s.rd F.RTA_CHK_NFAIL) ≤ x.fails + 1 → bitOf (u.rd F.RTA_STARTFAIL_FAIL) r = true)) ∧
    (∀ p, p < 256 → s.rd F.RTA_FQW_W ≠ 0 → s.rd F.RTA_FQW_W ≤ (s.unitSt p).fqW →
      let g := (s.unitSt p).gate
      Completes (.gateEnd t p) t s (.regs :: .rta :: .rpe :: evParts) fun u =>
        u.rd (F.RTA_PFQN_N p) = g.1 % 2 ^ 20 ∧ u.rdWide (0x400C + 16 * p) 2 = g.2 % 2 ^ 40 ∧ (u.unitSt p).fqW = 0 ∧
        u.foreignOf p = ⟨s.foreignHit g.1 g.2 (s.foreignOf p).pprev, b.clk, g.2⟩ ∧
        u.flag F.RPE_FOR_STAT_FOREIGN =
          decide (max 1 (s.rd F.RPE_FOR_PORTS_FPORTS) ≤ (u.rpe.hits.filter fun e => e.2.hit).length)) ∧
    (∀ n, 264 ≤ n → n < 276 → s.fqOn n = false → Completes (.gateEnd t n) t s [] fun _ => True) ∧
    (∀ n, 264 ≤ n → n < 276 → s.fqOn n = true → 0 < s.rd F.RTA_FGATE_GATE →
      (s.unitSt n).gate0 + 1000 * s.rd F.RTA_FGATE_GATE ≤ b.clk →
      Completes (.gateEnd t n) t s [.regs, .rta] fun u =>
        (u.unitSt n).gate0 = b.clk ∧ (u.unitSt n).fqN = 0 ∧ (u.unitSt n).fqSeen = 0) ∧
    (∀ p, p < 256 → (s.foreignOf p).hit = true → (s.foreignOf p).gateAt + 1000000 * s.rd F.RPE_FOR_PORTS_FAGE ≤ b.clk →
      Completes (.hitExpiry t p) t s (.regs :: .rpe :: evParts) fun u =>
        u.foreignOf p = { s.foreignOf p with hit := false })

/-- BINNING (R167, R168, R170, R180): the port's next counted shot enters its histogram, which the first one opens; the Nth
closes it with cause 0 and hands it to the echo stage. -/
def Obligations.ShotsEnterHistograms : Prop :=
  ∀ (s : State) (t port : Nat) (r : FireRec) (sh : Shot), s.nextShot port = some r → r.fire.bink ≠ 15 →
    r.settled port = true → assoc r.shots port = some sh → s.rta.closing = [] → s.toPass = [] →
    (∀ q ∈ s.rta.recs, q.fire.bink ≠ 15) →
    let h := (s.binInto r port sh ((assoc s.rpe.acc port).getD (r.openHist port))).1
    (h.cause.isSome = true ∨ h.nshot < h.n →
      Completes (.binning t port) t s [.regs, .rta, .rpe] fun u =>
        assoc u.rpe.acc port = some h ∧ u.rpe.queue = s.rpe.queue ∧ u.rta.recs = (s.takeShot r.fire.id port).rta.recs) ∧
    (h.cause.isNone = true → h.n ≤ h.nshot → h.port = port → s.rdBusy port = false →
      Completes (.binning t port) t s [.regs, .rta, .rpe, .cap] fun u =>
        assoc u.rpe.acc port = none ∧
        u.rpe.queue = s.rpe.queue ++
          [{ h with cause := some 0, partialC := false, ord := s.rpe.nextOrd, gen := s.rpe.gen, live := s.ready }])

/-- ECHO_EXTRACTION and SHOT_SET (R186, R190, R194 to R196, R212, R214): a histogram and a shot set each become one point
record, which goes to the FSO and the SAF where it closed and is taken under READY; the histogram's buffer is released and its
anchor follows the strongest echo. -/
def Obligations.HistogramsAndShotsBecomePoints : Prop :=
  ∀ (s : State) (t : Nat), let b := s.begin t
    (∀ h hits, s.nextHist = some h → assoc s.rpe.acc h.port = none → s.takesLive h = true →
      let key := 256 * h.line + h.pix
      let v := if b.memAvail 0 then b.memRead 0 2 true (hits.filter fun x => x.burst / 2 == key) else b
      let past := v.readHistory (s.histGen h.gen).2 key
      let x := v.extract h (Nat.blt (s.histGen h.gen).1 s.hdepth) past.2 past.1
      Completes (.echoExtraction t hits) t s (.regs :: .rpe :: .cap :: .mem :: evParts) fun u =>
        u.rpe.queue = s.rpe.queue.filter (fun y => y.ord != h.ord) ∧ u.rpe.points = s.rpe.points ++ [x.1] ∧
        u.rpe.safPoints = s.rpe.safPoints ++ [x.1] ∧
        x.1.port = h.port ∧ x.1.ord = h.ord ∧ x.1.line = h.line ∧ x.1.pix = h.pix ∧
        (h.zinv = false → u.rd (F.RPE_ZANC_ZANC h.port) =
          (match x.2 with | some q => min 0xFFFFE ((q + 128) / 256) | none => 0xFFFFF))) ∧
    (∀ h hits, s.nextHist = some h → assoc s.rpe.acc h.port = none → s.takesLive h = false →
      Completes (.echoExtraction t hits) t s [.regs, .rpe] fun u =>
        u.rpe = { s.rpe with queue := s.rpe.queue.filter fun x => x.ord != h.ord }) ∧
    (∀ x r, s.rpe.singles = x :: r →
      CompletesAt (.shotSet t) t s [.rpe, .cap]
        [F.RPE_NOECHO_COUNT.addr, F.RPE_ECHOES_COUNT.addr, F.RPE_MOREECHO_COUNT.addr, F.RPE_MISTCNT_COUNT.addr,
         F.RPE_FORCNT_COUNT.addr, F.RPE_BGFALL_COUNT.addr, F.RPE_HISTUE_COUNT.addr] fun u =>
        u.rpe.singles = r ∧
        u.rpe.points = (if s.ready then s.rpe.points ++ [s.singlePoint x] else s.rpe.points) ∧
        u.rpe.safPoints = (if s.ready then s.rpe.safPoints ++ [s.singlePoint x] else s.rpe.safPoints))

/-- HISTORY_FRAME_END (R206): behind the histograms that a mark closed, an EOF, or an SOF in an open frame, ends the frame: its
number advances, and HFR with it up to 8. AMBIENT_SAMPLE and TRACKER_TICK (R223, R224, R225): a sample of an enabled port enters
its mean, at a tick boundary that of the tick that begins there; at the end of a tick of TPER µs every port's mean, or the mean
before it where no sample came, enters its filter, the sums start again, and a port without samples for STALEMAX ticks is
marked. -/
def Obligations.FramesOfEchoesAndAmbientLight : Prop :=
  (∀ (s : State) (t n g : Nat) (eof : Bool) (r : List (Bool × Nat × Nat)), s.seq.echoMarks = (eof, n, g) :: r →
      s.histBefore n = false → g = s.rpe.gen →
      (eof = true ∨ s.rpe.frameOpen = true →
        CompletesAt (.historyFrameEnd t) t s [.seq, .rpe] [F.RPE_ESTAT_HFR.addr] fun u =>
          u.seq = { s.seq with echoMarks := r } ∧ u.rpe.frameOpen = !eof ∧ u.rpe.frameNo = (s.rpe.frameNo + 1) % 2 ^ 20 ∧
          u.rpe.history = s.rpe.history ∧ u.rd F.RPE_ESTAT_HFR = min 8 (s.rd F.RPE_ESTAT_HFR + 1)) ∧
      (eof = false → s.rpe.frameOpen = false →
        Completes (.historyFrameEnd t) t s [.seq, .rpe] fun u =>
          u.seq = { s.seq with echoMarks := r } ∧ u.rpe = { s.rpe with frameOpen := true })) ∧
  (∀ (s : State) (t : Nat), let b := s.begin t
      (∀ r q p v, s.rpe.ambQ = r :: q → s.sampleOf r = (p, some v) → s.rpe.seeding = false → p < 256 → b.tickDue = false →
        s.flag (F.RTA_PCFG_EN p) = true → s.portOff p = false →
        CompletesAt (.ambientSample t) t s [.rpe] [(F.RPE_ALVL_AMB_STALE p).addr] fun u =>
          u.rpe.ambQ = q ∧ u.trkOf p = { s.trkOf p with sum := (s.trkOf p).sum + v, cnt := (s.trkOf p).cnt + 1 } ∧
          (∀ k, k ≠ p → u.trkOf k = s.trkOf k) ∧ u.flag (F.RPE_ALVL_AMB_STALE p) = false ∧
          u.flag (F.RPE_ALVL_AMB_NOSEED p) = false) ∧
      (∀ r q p v, s.rpe.ambQ = r :: q → s.sampleOf r = (p, some v) → s.rpe.seeding = false → p < 256 → b.tickDue = true →
        s.flag (F.RTA_PCFG_EN p) = true → s.portOff p = false →
        Completes (.ambientSample t) t s (.regs :: .rpe :: evParts) fun u =>
          u.rpe.ambQ = q ∧ (u.trkOf p).sum = v ∧ (u.trkOf p).cnt = 1 ∧ u.flag (F.RPE_ALVL_AMB_STALE p) = false) ∧
      (∀ r q, s.rpe.ambQ = r :: q → (s.sampleOf r).2 = none → b.tickDue = false →
        Completes (.ambientSample t) t s [.rpe] fun u => u.rpe = { s.rpe with ambQ := q }) ∧
      (b.tickDue = true →
        Completes (.trackerTick t) t s (.regs :: .rpe :: evParts) fun u =>
          u.rpe.trkPhase = (if s.rd F.RPE_AMBCFG_RAM1 + 1 ≤ s.rpe.trkPhase + 1 then 0 else s.rpe.trkPhase + 1) ∧
          u.rpe.tickAt = s.rpe.tickAt + 1000 * s.rd F.RPE_AMBCFG_TPER ∧
          ∀ p, p < 256 → let n := if (s.trkOf p).cnt = 0 then min 1023 ((s.trkOf p).stale + 1) else 0
            (u.trkOf p).sum = 0 ∧ (u.trkOf p).cnt = 0 ∧
            (u.trkOf p).vprev = (if (s.trkOf p).cnt = 0 then (s.trkOf p).vprev else rdiv (s.trkOf p).sum (s.trkOf p).cnt) ∧
            (u.trkOf p).stale = n ∧
            (n ≠ 0 → s.rd F.RPE_AMBSTALE_STALEMAX ≤ n → u.flag (F.RPE_ALVL_AMB_STALE p) = true)) ∧
      (b.tickDue = false → Completes (.trackerTick t) t s [] fun _ => True))

/-- FIRE (R51, R53, R55, R56, R98): the dither is drawn, the fire is posted at T + d with what the entry and the registers give,
T advances by PITCH, and the next entry follows; a fire instant that has passed is a slip, and the fire is posted at once. -/
def Obligations.FireEntriesPostFires : Prop :=
  ∀ (s : State) (t : Nat) (e : Entry), s.fetch 1 = .entry e → s.seq.deferred = none → let b := s.begin t
    let x := if wf e.w1 12 5 = 0 then (s.rd F.EDU_DITH_STATE_STATE, (0 : Int))
      else drawDither (s.rd F.EDU_DITH_STATE_STATE) (wf e.w1 12 5)
    let posted := fun (u : State) (inst : Nat) =>
      let f := s.fireOf e inst x.2
      u.seq = { s.seq with
        fires := s.seq.fires ++ [f], nextId := s.seq.nextId + 1,
        bounds := s.seq.bounds ++ [min (inst + 6 + f.win) (inst + 4097)],
        cursor := ((inst : Int) - x.2 + s.seq.active.pitch).toNat, pc := s.seq.next, next := s.seq.after s.seq.next } ∧
      u.rd F.EDU_DITH_STATE_STATE = x.1 % 2 ^ 20
    ((b.now : Int) ≤ s.seq.cursor + x.2 →
      CompletesAt (.fire t) t s [.seq] [F.EDU_DITH_STATE_STATE.addr] fun u => posted u ((s.seq.cursor : Int) + x.2).toNat) ∧
    ((s.seq.cursor : Int) + x.2 < b.now →
      CompletesAt (.fire t) t s (.seq :: evParts) (F.EDU_DITH_STATE_STATE.addr :: F.CTL_SEQ_SLIP_COUNT.addr :: evWords) fun u =>
        posted u b.now ∧ b.told u 0x03 .warn 0 ∧ u.rd F.CTL_SEQ_SLIP_COUNT = satN 20 (s.rd F.CTL_SEQ_SLIP_COUNT + 1))

/-- WAIT, MARK, LISTEN and CAL (R51, R53, R61 to R64): T advances by DUR and with DRAIN past every closing bound; a mark goes
onto the data path and MK raises its event; a window is posted at T with its bound, or opens at once on a free group where T has
come. -/
def Obligations.WaitsMarksAndWindowsAreIssued : Prop :=
  ∀ (s : State) (t : Nat) (e : Entry), s.seq.deferred = none → let b := s.begin t
    let bounds := s.seq.bounds.filter fun x => Nat.blt b.now x
    let after := fun (a : Nat) =>
      let tt := a + (wf e.w2 11 0 * 2 ^ 20 + e.w1.toNat)
      { s.seq with cursor := if wf e.w0 15 15 = 1 then bounds.foldl max tt else tt, bounds := bounds, pc := s.seq.next,
                   next := s.seq.after s.seq.next }
    (s.fetch 4 = .entry e → b.now ≤ s.seq.cursor →
      Completes (.wait t) t s [.seq] fun u => u.seq = after s.seq.cursor) ∧
    (s.fetch 4 = .entry e → s.seq.cursor < b.now →
      CompletesAt (.wait t) t s (.seq :: evParts) (F.CTL_SEQ_SLIP_COUNT.addr :: evWords) fun u =>
        u.seq = after b.now ∧ b.told u 0x03 .warn 0 ∧ u.rd F.CTL_SEQ_SLIP_COUNT = satN 20 (s.rd F.CTL_SEQ_SLIP_COUNT + 1)) ∧
    (s.fetch 5 = .entry e → wf e.w0 13 13 = 0 ∨ s.mgmt.op = none →
      let m : Mark := { sof := wf e.w0 15 15 == 1, eol := wf e.w0 14 14 == 1, eof := wf e.w0 13 13 == 1, tag := wf e.w0 7 0,
                        id := s.seq.nextId, cause := none, ord := none }
      let seq := { s.seq with
        marks := s.seq.marks ++ (if m.sof || m.eol || m.eof then [m] else []), pc := s.seq.next,
        next := s.seq.after s.seq.next }
      (wf e.w0 12 12 = 0 → Completes (.mark t) t s [.seq] fun u => u.seq = seq) ∧
      (wf e.w0 12 12 = 1 →
        CompletesAt (.mark t) t s (.seq :: evParts) evWords fun u => u.seq = seq ∧ b.told u 0x04 .info (wf e.w0 7 0))) ∧
    (∀ op len, op = 2 ∧ len = winNs (wf e.w2 19 10) ∨ op = 3 ∧ len = winNs (wf e.w3 19 10) → s.fetch op = .entry e →
      s.seq.wins = [] →
      let c := if op = 2 then Instr.listen t else .cal t
      let g := if wf e.w0 12 12 = 1 then 8 else wf e.w0 15 13
      (b.now < s.seq.cursor →
        Completes c t s [.seq] fun u =>
          ∃ w, w.kind = (if op = 2 then .listen else .cal) ∧ w.id = s.seq.nextId ∧ w.instant = s.seq.cursor ∧ w.group = g ∧
            w.len = len ∧ w.held = false ∧ (op = 2 → w.bink = wf e.w0 3 0 ∧ w.presc = wf e.w1 19 14 + 1 ∧
              w.freq = (wf e.w0 11 11 == 1) ∧ w.amb = (wf e.w0 10 10 == 1)) ∧
            (op = 3 → w.mode = wf e.w0 11 10 ∧ w.spare = (wf e.w0 9 9 == 1) ∧ w.amp = wf e.w1 19 10 ∧ w.delay = e.w2.toNat) ∧
            u.seq = { s.seq with wins := [w], bounds := s.seq.bounds ++ [s.seq.cursor + len + 1], pc := s.seq.next,
                                 next := s.seq.after s.seq.next }) ∧
      (s.seq.cursor ≤ b.now → g < 8 → b.groupFree g = true → (s.seq.fires.any fun f => f.row == g) = false →
        Completes c t s [.regs, .mgmt, .seq, .rta, .rpe, .saf, .cap, .lnk, .out] fun u =>
          u.seq.wins = [] ∧ u.seq.next = s.seq.after s.seq.next ∧
          ∃ w, assoc u.rta.wins g = some w ∧ w.kind = (if op = 2 then .listen else .cal) ∧ w.openDev = b.now ∧
            w.openClk = b.clkOf b.now ∧ w.len = len ∧ w.ref = some 0 ∧ w.closed = []))

/-- SYNC (R65 to R67): the sequencer waits; the first event of the source after the issue, or the timeout instant where no event
has come by then, becomes T less OFS and ends the wait, with the flag SYNC_TO telling which. -/
def Obligations.SyncWaitsForItsEventOrTimeout : Prop :=
  ∀ (s : State) (t : Nat), s.seq.deferred = none → let b := s.begin t
    (∀ e, s.fetch 6 = .entry e →
      Completes (.sync t) t s [.seq] fun u =>
        u.seq = { s.seq with
          st := .syncwait, pc := s.seq.next, next := s.seq.after s.seq.next, syncSrc := wf e.w0 15 12, syncArg := wf e.w0 11 4,
          syncOfs := e.w1.toNat, syncTmo := e.w2.toNat, syncIssue := b.now, syncHit := none }) ∧
    (∀ e, s.seq.st = .syncwait → b.syncInstant = some e → (s.seq.syncTmo = 0 ∨ e ≤ s.seq.syncIssue + 1000 * s.seq.syncTmo) →
      CompletesAt (.syncEvent t) t s [.seq] [F.CTL_SEQ_FLAGS_SYNC_TO.addr] fun u =>
        u.flag F.CTL_SEQ_FLAGS_SYNC_TO = false ∧ u.rd F.CTL_SEQ_FLAGS_TRIG = s.rd F.CTL_SEQ_FLAGS_TRIG ∧
        u.seq = { s.seq with st := .run, cursor := e + s.seq.syncOfs, syncHit := none }) ∧
    (∀ c, s.seq.st = .syncwait → s.seq.syncTmo ≠ 0 →
      let e := s.seq.syncIssue + 1000 * s.seq.syncTmo
      (c = Instr.syncTo t ∧ e ≤ b.now ∧ (∀ i, b.syncInstant = some i → e < i) ∨
        c = .syncEvent t ∧ ∃ i, b.syncInstant = some i ∧ e < i) →
      CompletesAt c t s [.seq] [F.CTL_SEQ_FLAGS_SYNC_TO.addr] fun u =>
        u.flag F.CTL_SEQ_FLAGS_SYNC_TO = true ∧ u.rd F.CTL_SEQ_FLAGS_TRIG = s.rd F.CTL_SEQ_FLAGS_TRIG ∧
        u.seq = { s.seq with st := .run, cursor := e + s.seq.syncOfs, syncHit := none }) ∧
    (∀ c, c = Instr.syncEvent t ∨ c = .syncTo t → s.seq.st ≠ .syncwait → Completes c t s [] fun _ => True)

/-- BRANCH (R23, R68 to R70): by loop counter or by flag, to the target or to the next entry; a sticky flag clears where CLR
says so, unless the device set it in the same cycle. -/
def Obligations.BranchesFollowFlagsAndCounters : Prop :=
  ∀ (s : State) (t : Nat) (e : Entry), s.fetch 7 = .entry e → s.seq.deferred = none → let b := s.begin t
    let goes := fun (u : State) (c : Bool) =>
      u.seq = { s.seq with
        pc := s.seq.next,
        next := if c != (wf e.w0 10 10 == 1) then wf e.w1 11 0 else s.seq.after s.seq.next }
    (wf e.w0 9 9 = 1 →
      let f := F.CTL_SEQ_LC_LC (wf e.w0 8 7)
      let v := s.rd f
      CompletesAt (.branch t) t s [.seq] [f.addr] fun u =>
        (v = 0 → goes u (decide (wf e.w2 11 0 ≠ 0)) ∧ u.rd f = wf e.w2 11 0) ∧
        (v ≠ 0 → goes u (decide (v ≠ 1)) ∧ u.rd f = v - 1)) ∧
    (wf e.w0 9 9 = 0 →
      let n := wf e.w0 15 11
      let fresh := fun (i : Nat) => bitOf (b.freshAt F.CTL_SEQ_FLAGS_TRIG.addr).toNat i
      (wf e.w0 6 6 = 0 → Completes (.branch t) t s [.seq] fun u => goes u (b.branchFlag n)) ∧
      (wf e.w0 6 6 = 1 →
        CompletesAt (.branch t) t s [.seq] [F.CTL_SEQ_FLAGS_TRIG.addr] fun u =>
          goes u (b.branchFlag n) ∧
          u.flag F.CTL_SEQ_FLAGS_SYNC_TO = (s.flag F.CTL_SEQ_FLAGS_SYNC_TO && (n != 3 || fresh F.CTL_SEQ_FLAGS_SYNC_TO.lo)) ∧
          (∀ k, k < 4 → bitOf (u.rd F.CTL_SEQ_FLAGS_TRIG) k = (bitOf (s.rd F.CTL_SEQ_FLAGS_TRIG) k &&
            (n != 0x15 + k || fresh (F.CTL_SEQ_FLAGS_TRIG.lo + k))))))

/-- An entry whose check code fails halts the sequencer (R80): no fire stays posted, those already posted included. PAGE_RELOAD
resumes it at entry 0 of the reloaded page, or leaves it HALTED for good where both copies are poisoned (R396). PAGE and Battens
(R72 to R76, R78, R89, R558): a jump or switch takes place at once, or is deferred while its page loads; the head issues a
Batten for LEAD after the issue; at Te the pending Batten switches the page or releases a SYNC, also where its switch is
deferred (log entry 169). -/
def Obligations.BadEntriesPagesAndBattens : Prop :=
  (∀ (s : State) (t : Nat), let b := s.begin t
      (∀ c op, c = Instr.fire t ∧ op = 1 ∨ c = .listen t ∧ op = 2 ∨ c = .cal t ∧ op = 3 ∨ c = .wait t ∧ op = 4 ∨ c = .mark t ∧ op = 5 ∨
          c = .sync t ∧ op = 6 ∨ c = .branch t ∧ op = 7 ∨ c = .pageImmediate t ∧ op = 8 ∨ c = .pageIssue t ∧ op = 8 →
        s.fetch op = .bad →
        Completes c t s [.regs, .mgmt, .seq, .rta, .rpe, .saf, .cap, .lnk, .out] fun u =>
          u.seq.st = .halted ∧ u.seq.fires = [] ∧ u.seq.next = s.seq.next ∧
          (s.toPass = [] → u.seq = { s.seq with st := .halted, fires := [] })) ∧
      (∀ p hits, s.seq.st = .halted → s.seq.reloadBad = false → b.memAvail 1 = true →
        assoc s.seq.library s.seq.active.lib = some p → let v := b.readTbl s.seq.active.lib hits
        (v.1 = true →
          Completes (.pageReload ⟨t, hits⟩) t s (.regs :: .seq :: .cap :: .mem :: evParts) fun u =>
            u.seq.st = .run ∧ u.seq.actB = s.seq.actB ∧ u.seq.active = p ∧ u.seq.next = 0 ∧ u.seq.cursor = b.now + 1000 ∧
            (s.fso.frameOpen = false → u.seq.marks = s.seq.marks) ∧
            (s.fso.frameOpen = true →
              u.seq.marks.length = s.seq.marks.length + 1 ∧ u.seq.marks.getLast?.map Mark.eof = some true)) ∧
        (v.1 = false →
          Completes (.pageReload ⟨t, hits⟩) t s (.regs :: .seq :: .cap :: .mem :: evParts) fun u =>
            u.seq = { s.seq with reloadBad := true })) ∧
      (∀ hits, s.seq.st ≠ .halted ∨ s.seq.reloadBad = true ∨ b.memAvail 1 = false →
        Completes (.pageReload ⟨t, hits⟩) t s [] fun _ => True)) ∧
  (∀ (s : State) (t : Nat), let b := s.begin t
      let wide : List Part := [.regs, .mgmt, .seq, .rta, .rpe, .saf, .cap, .lnk, .out]
      (∀ e, s.fetch 8 = .entry e → wf e.w0 14 13 = 0 →
        let pgB := wf e.w0 15 15 == 1
        let ent := wf e.w1 11 0
        let waits := s.seq.deferred = none ∨ ∃ g n l, s.seq.deferred = some (g, n, l) ∧ s.seq.loading = some g
        (pgB = s.seq.actB → waits → ent < s.seq.active.count →
          Completes (.pageImmediate t) t s [.seq] fun u => u.seq = { s.seq with pc := s.seq.next, next := ent }) ∧
        (pgB = s.seq.actB → waits → s.seq.active.count ≤ ent →
          CompletesAt (.pageImmediate t) t s [.seq] [F.CTL_SEQ_STATUS_BADENT.addr] fun u =>
            u.seq = { s.seq with pc := s.seq.next, next := 0 } ∧ u.flag F.CTL_SEQ_STATUS_BADENT = true) ∧
        (pgB ≠ s.seq.actB → s.seq.loading ≠ some pgB → ent < (s.seq.pageOf pgB).count →
          Completes (.pageImmediate t) t s wide fun u =>
            u.seq.actB = pgB ∧ u.seq.next = ent ∧ u.seq.pc = s.seq.next ∧ u.seq.deferred = none ∧ u.seq.cursor = s.seq.cursor ∧
            ∀ n, n < 4 → u.rd (F.CTL_SEQ_LC_LC n) = 0) ∧
        (pgB ≠ s.seq.actB → s.seq.loading = some pgB →
          Completes (.pageImmediate t) t s [.seq] fun u =>
            u.seq = { s.seq with deferred := some (pgB, ent, false), pc := s.seq.next, next := s.seq.after s.seq.next })) ∧
      (∀ e, s.fetch 8 = .entry e → wf e.w0 14 13 = 1 → s.seq.deferred = none →
        let seq := { s.seq with pc := s.seq.next, next := s.seq.after s.seq.next }
        (s.isHead = false → Completes (.pageIssue t) t s [.seq] fun u => u.seq = seq) ∧
        (s.isHead = true → s.seq.batten = none →
          Completes (.pageIssue t) t s [.seq, .lnk, .out] fun u =>
            u.seq = { seq with batten := some ⟨false, wf e.w0 15 15 == 1, wf e.w1 11 0,
              max b.now s.seq.cursor + s.rd F.CTL_BATTEN_LEAD_LEAD⟩ })) ∧
      (∀ c d, c = Instr.pageSwitchBatten t d ∧ bitsOf d.toNat 19 18 = 0 ∨ c = .syncReleaseBatten t d ∧ bitsOf d.toNat 19 18 = 1 →
        s.portOpen → s.isHead = true → s.seq.batten = none →
        let kind := bitsOf d.toNat 19 18
        (s.seq.st = .run ∨ s.seq.st = .syncwait →
          Completes c t s [.mgmt, .seq, .lnk, .out] fun u =>
            s.answered u 0x010E .ok ∧
            u.seq = { s.seq with batten := some ⟨kind == 1, bitOf d.toNat 17,
              if kind = 1 then bitsOf d.toNat 7 0 else bitsOf d.toNat 11 0, b.now + s.rd F.CTL_BATTEN_LEAD_LEAD⟩ })) ∧
      (∀ c d, c = Instr.pageSwitchBatten t d ∨ c = .syncReleaseBatten t d → s.portOpen →
        2 ≤ bitsOf d.toNat 19 18 ∨ s.isHead = false ∨ s.seq.batten.isSome = true →
        Completes c t s [.mgmt] fun u => s.answered u 0x010E .refused) ∧
      (∀ x, s.seq.batten = some x →
        (s.seq.st = .run → s.battenDue = true → (s.seq.entry.any Entry.timed) = true → x.pgB = s.seq.actB →
          x.arg < s.seq.active.count →
          CompletesAt (.battenExecute t) t s [.seq] [0x0110, 0x0111, 0x0112] fun u =>
            u.seq = { s.seq with batten := none, syncHit := none, next := x.arg, cursor := x.te } ∧
            u.rdWide 0x0110 3 = x.te % 2 ^ 60) ∧
        (s.seq.st = .run → s.battenDue = true → (s.seq.entry.any Entry.timed) = true → x.pgB ≠ s.seq.actB →
          s.seq.loading ≠ some x.pgB → x.arg < (s.seq.pageOf x.pgB).count →
          Completes (.battenExecute t) t s wide fun u =>
            u.seq.st = .run ∧ u.seq.batten = none ∧ u.seq.actB = x.pgB ∧ u.seq.next = x.arg ∧ u.seq.cursor = x.te ∧
            ∀ n, n < 4 → u.rd (F.CTL_SEQ_LC_LC n) = 0) ∧
        (s.seq.st = .run → s.battenDue = true → (s.seq.entry.any Entry.timed) = true → x.pgB ≠ s.seq.actB →
          s.seq.loading = some x.pgB →
          CompletesAt (.battenExecute t) t s (.seq :: evParts) (0x0110 :: 0x0111 :: 0x0112 :: evWords) fun u =>
            u.seq = { s.seq with batten := none, syncHit := none, deferred := some (x.pgB, x.arg, true) } ∧
            u.rdWide 0x0110 3 = x.te % 2 ^ 60 ∧ b.told u 0x07 .warn 0) ∧
        (s.seq.st = .syncwait → x.sync = true → x.te ≤ b.now → s.seq.syncSrc = 4 → s.seq.syncArg = x.arg → s.seq.syncHit = none →
          s.seq.syncIssue < x.te →
          CompletesAt (.battenExecute t) t s [.seq] [0x0110, 0x0111, 0x0112] fun u =>
            u.seq = { s.seq with batten := none, syncHit := some x.te } ∧ u.rdWide 0x0110 3 = x.te % 2 ^ 60) ∧
        (s.seq.st = .idle ∨ s.seq.st = .halted → x.te ≤ b.now →
          CompletesAt (.battenExecute t) t s (.seq :: evParts) evWords fun u =>
            u.seq = { s.seq with batten := none } ∧ b.told u 0x06 .warn 0) ∧
        (b.now < x.te → s.seq.st ≠ .run → Completes (.battenExecute t) t s [] fun _ => True)) ∧
      (s.seq.batten = none → Completes (.battenExecute t) t s [] fun _ => True))

/-- FIRE_COMMAND (R52, R91, R104, R112 to R114, R127): before its instant nothing happens; the head of the queue fires when R52
lets it, its window opens, and it emits where the governor, by its sums and MOVING at t0 − 4 ns, permits it; what the governor
inhibits is counted; a fire that R52 holds is held and counted once; a HALTED sequencer's fire is not issued (R80). What R90 to
R93 drive stands in `beam`: row, columns, V_ref, sub-pulses and burst end. -/
def Obligations.FireCommandsFireInhibitOrHold : Prop :=
  ∀ (s : State) (t : Nat) (checkDone : Bool) (f : Fire) (fs : List Fire), s.seq.fires = f :: fs → s.seq.wins = [] → f.row < 8 →
    let b := s.begin t
    let run := fun P => Completes (.fireCommand t checkDone) t s [.regs, .mgmt, .seq, .edu, .rta, .rpe, .saf, .cap, .fso, .lnk, .out] P
    let opened := fun (u : State) (emit : Bool) =>
      (s.toPass = [] → u.seq = { s.seq with fires := fs }) ∧ u.seq.fires = fs ∧ assoc u.edu.rowLast f.row = some b.clk ∧
      u.edu.beam = some ⟨f.row, b.clk, emit, f.colmask, (List.range 8).map (f.vref (s.rdZ (F.EDU_ADJ_ADJ f.row))),
        s.burstOfs f.burst, f.pw, b.burstEndQ f b.clk⟩ ∧
      u.edu.prevEndQ = some (b.burstEndQ f b.clk) ∧
      ∃ w, assoc u.rta.wins f.row = some w ∧ w.kind = .fire ∧ w.fire = some f ∧ w.noemit = !emit ∧ w.openClk = b.clk ∧
        w.len = f.win ∧ w.ref = (if emit then none else some (s.startOfs f.row : Int))
    let epred := s.energy f (s.rdZ (F.EDU_ADJ_ADJ f.row))
    let q := b.pruneShots
    let exceeds := fun i => q.ceiling i (b.clk - 4) < q.govSum i (b.clk - 4) + epred
    (b.now < f.instant ∨ s.halted = true → Completes (.fireCommand t checkDone) t s [] fun _ => True) ∧
    (f.instant ≤ b.now → s.halted = false → b.fireReady f = true →
      (s.chgOk = true → s.rowOk f.row = true → checkDone = true → (∀ i, i < 3 → ¬ exceeds i) →
        run fun u => opened u true ∧ u.edu.lastInh = false ∧ u.edu.shots = q.edu.shots ++ [⟨b.clk, epred, b.clk - 4⟩] ∧
          u.edu.starts = s.edu.starts ++ [⟨f.id, f.row, b.clk, b.burstEndQ f b.clk, epred, s.energy f 0, true⟩]) ∧
      (s.chgOk = true → s.rowOk f.row = true → checkDone = true → (∃ i, i < 3 ∧ exceeds i) →
        run fun u => opened u false ∧ u.edu.lastInh = true ∧ u.edu.shots = q.edu.shots ∧ u.edu.starts = s.edu.starts ∧
          (s.rta.disabling = [] → ∀ i, i < 3 → (exceeds i → u.rd (F.EDU_GINH_COUNT i) = satN 20 (s.rd (F.EDU_GINH_COUNT i) + 1)) ∧
            (¬ exceeds i → u.rd (F.EDU_GINH_COUNT i) = s.rd (F.EDU_GINH_COUNT i)))) ∧
      (s.chgOk = true → s.rowOk f.row = true → checkDone = false →
        run fun u => opened u false ∧ u.edu.lastInh = true ∧ u.edu.shots = q.edu.shots ∧ u.edu.starts = s.edu.starts ∧
          (s.rta.disabling = [] → u.rd F.EDU_GINH_LATE_COUNT = satN 20 (s.rd F.EDU_GINH_LATE_COUNT + 1))) ∧
      (s.chgOk = false ∨ s.rowOk f.row = false →
        run fun u => opened u false ∧ u.edu.lastInh = s.edu.lastInh ∧ u.edu.shots = q.edu.shots ∧ u.edu.starts = s.edu.starts)) ∧
    (f.instant ≤ b.now → s.halted = false → b.fireReady f = false →
      (f.held = true → Completes (.fireCommand t checkDone) t s [] fun _ => True) ∧
      (f.held = false →
        CompletesAt (.fireCommand t checkDone) t s (.seq :: evParts) (F.CTL_SEQ_HOLD_COUNT.addr :: evWords) fun u =>
          u.seq = { s.seq with fires := { f with held := true } :: fs } ∧ b.told u 0x02 .warn 0 ∧
          u.rd F.CTL_SEQ_HOLD_COUNT = satN 20 (s.rd F.CTL_SEQ_HOLD_COUNT + 1)))

/-- START_EDGE and START_DEADLINE (R100, R101, R129, R156): an edge within 5 ns of t0 is the row's start and gives the window
its start reference, less the start's skew as of the window's opening; without one the reference is START_OFS and the miss is
counted, the eighth in a row setting LASER_FAULT. In a SKEW slot the edge is the injected pulse, and with no start due, the row
off and FEN = 1 it feeds frequency mode. Channel B's windows open at it every time (R283). MPD_READING (R102, R107, R113): the
reading of the row's oldest fire goes to EDU_MPD_E, its excess joins the charges of its shot from now on, and one beyond the
permitted excess, or a saturated one, sets EMIT_EXCESS. ADJ of no row is left outside the limits of L2's active bank. -/
def Obligations.StartsAndReadingsAreTakenOrMissed : Prop :=
  (∀ (s : State) (t row : Nat), row < 8 → let b := s.begin t
      let refIs := fun (u : State) (a : Int) (synth : Bool) =>
        ∀ w, assoc s.rta.wins row = some w → w.kind = .fire → w.ref = none →
          ∃ w', assoc u.rta.wins row = some w' ∧ w'.ref = some a ∧ w'.synth = synth ∧ w'.fire = w.fire ∧ w'.openClk = w.openClk
      (∀ (code : PulseCode) (bin : Int), s.seq.wins = [] →
        let e := s.edgeTime (264 + row) code.lead
        let ofs := ((assoc s.rta.wins row).map fun w => w.startSkew).getD (SMap.get (fun _ => 0) s.rta.startSkew row)
        let due := s.edu.starts.find? fun f => f.row == row && Nat.ble b.clk (f.t0 + 5)
        let run := fun ps P => Completes (.startEdge t row code bin) t s (.saf :: ps) fun u =>
          u.saf = { s.saf with wins := s.saf.wins ++ [(row, ⟨bin, s.sectorAt b.now, s.saf.chB.zs, [], b.clk, false⟩)] } ∧ P u
        let skewed := fun (d : Nat) => ∃ w post, assoc s.rta.wins row = some w ∧ w.post = some post ∧ post.kind = .cal ∧
          post.mode = 1 ∧ post.delay = d
        ((∀ d, ¬ skewed d) → ∀ f, due = some f →
          (s.startFailed row = false → run [.edu, .rta] fun u =>
              u.edu.starts = s.edu.starts.filter (fun y => y.id != f.id) ∧ u.edu.miss.nat row = 0 ∧ refIs u (e - ofs) false) ∧
          (s.startFailed row = true → run [] fun _ => True)) ∧
        ((∀ d, ¬ skewed d) → due = none →
          (s.rowOk row = false → s.flag (F.RTA_FCFG_S_FEN row) = true → run [.rta] fun u =>
            u.unitSt (264 + row) = (s.unitSt (264 + row)).freqEdge (s.rd (F.RTA_FCFG_S_PRESCM1 row) + 1) e
              (code.trail.map (s.edgeTime (264 + row))) ∧
            ∀ k, k ≠ 264 + row → u.unitSt k = s.unitSt k) ∧
          (s.rowOk row = true ∨ s.flag (F.RTA_FCFG_S_FEN row) = false → run [] fun _ => True)) ∧
        (∀ d, skewed d → run [.rta] fun u =>
            (u.unitSt (264 + row)).skN = (s.unitSt (264 + row)).skN + 1 ∧
            (u.unitSt (264 + row)).skSum = (s.unitSt (264 + row)).skSum + (e - ofs - 16 * d))) ∧
      (∀ f, (s.edu.starts.find? fun f => f.row == row && Nat.ble (f.t0 + 5) b.clk) = some f →
        let n := s.edu.miss.nat row + 1
        let missed := fun (u : State) =>
          u.edu.starts = s.edu.starts.filter (fun y => y.id != f.id) ∧ u.edu.miss.nat row = n ∧
          u.rd (F.EDU_SYNTH_COUNT row) = satN 20 (s.rd (F.EDU_SYNTH_COUNT row) + 1) ∧ refIs u (s.startOfs row) true
        (n ≠ 8 →
          CompletesAt (.startDeadline t row) t s [.edu, .rta] [(F.EDU_SYNTH_COUNT row).addr] fun u => missed u) ∧
        (n = 8 →
          CompletesAt (.startDeadline t row) t s (.edu :: .rta :: evParts)
            ((F.EDU_SYNTH_COUNT row).addr :: F.EDU_FAULT_LASER_FAULT.addr :: evWords) fun u =>
              missed u ∧ b.told u 0x10 .fault row ∧
              ∀ k, k < 8 → bitOf (u.rd F.EDU_FAULT_LASER_FAULT) k = (bitOf (s.rd F.EDU_FAULT_LASER_FAULT) k || k == row)))) ∧
  (∀ (s : State) (t row : Nat) (m : BitVec 16) (f : Flight), row < 8 → let b := s.begin t
      (s.edu.reads.find? fun f => f.row == row && Nat.ble (f.endQ + 32) (4 * b.clk)) = some f →
      let sat := m.toNat == 0xFFFF
      let emeas := cdiv (m.toNat * s.rd F.EDU_MPD_K_KMPD) (2 ^ 16)
      let bad := sat || Nat.blt (f.epred * (256 + s.rd F.EDU_EXCESS_EXC)) (256 * emeas)
      CompletesAt (.mpdReading t row m) t s (.edu :: .free :: evParts)
        ((F.EDU_MPD_E_M row).addr :: F.EDU_FAULT_EMIT_EXCESS.addr :: (F.CEN_CTL_ABANK 2).addr ::
          ((List.range 8).map fun r => (F.EDU_ADJ_ADJ r).addr) ++ evWords)
        fun u =>
          u.rd (F.EDU_MPD_E_M row) = m.toNat ∧ u.flag (F.EDU_MPD_E_SAT row) = sat ∧
          u.edu.reads = s.edu.reads.filter (fun y => y.id != f.id) ∧
          u.edu.shots = s.edu.shots ++ (if emeas ≤ f.epred then [] else [⟨f.t0, emeas - f.epred, b.clk⟩]) ∧
          (∀ k, k < 8 → bitOf (u.rd F.EDU_FAULT_EMIT_EXCESS) k = (bitOf (s.rd F.EDU_FAULT_EMIT_EXCESS) k || (bad && k == row))) ∧
          (f.enom ≠ 0 → u.free = s.free))

/-- The boost and its monitors (R105, R106, R114, R115, R257, R500): L1 decides on each charge PWM event whether the boost
issues a switching burst on HV_SW; an over-voltage stops it, 10 ms of switching with EDU_HV below half the target is a
BOOST_FAULT, a governor stall is GOV_TRIP and one of the hard channel Clamp; without MOVING tokens the stationary ceilings
apply; an urgent conversion gives EDU_HV. Writes of EDU_FAULT (R23, R101, R106): the bits written as 1 clear, but for those that
the device set in the same cycle; a row whose LASER_FAULT has cleared starts to count misses again; a cleared boost fault
restarts L1 in PROFILE from the node's voltage and judges the charging conditions again. -/
def Obligations.BoostItsMonitorsAndFaultWrites : Prop :=
  (∀ (s : State) (t : Nat), let b := s.begin t
      (s.edu.started = true →
        let p := (b.takeBank 1).loopPar 1
        let l := s.stu.l1.sample p true (s.rd F.EDU_HV_HV : Nat)
        let un : Int := if l.below p then 1 else if l.above p then 0 else l.u
        let ov := s.edu.ovStop && Nat.ble (s.rd F.EDU_HV_SET_HV) (s.rd F.EDU_HV_HV)
        CompletesAt (.chargePwmEvent t) t s [.edu, .stu, .hk] [(F.CEN_CTL_ABANK 1).addr, (F.CEN_SPT_SPT 1).addr] fun u =>
          u.stu = { s.stu with l1 := { l with u := un } } ∧ u.hk = { s.hk with pwmAt := some b.clk } ∧ u.edu.ovStop = ov ∧
          u.edu.swSince = (if un = 1 ∧ s.chgOk = true ∧ ov = false then some (s.edu.swSince.getD b.clk) else none) ∧
          u.edu.hvBurst = (if un = 1 ∧ s.chgOk = true ∧ ov = false then some ⟨b.clk, s.rd (F.CEN_L1_DUTY_NP (b.bselOf 1)),
            2 * s.rd (F.CEN_L1_WIDTH_WIDTH (b.bselOf 1))⟩ else none)) ∧
      (s.edu.started = false → Completes (.chargePwmEvent t) t s [] fun _ => True) ∧
      (∀ raw p, s.hk.pwmAt = some p → s.hk.rounds = true → p + s.rd F.CTL_HK_URG_URGDLY ≤ b.clk →
        CompletesAt (.urgentConversion t raw) t s [.hk, .free]
          [F.CTL_HK_ABORT_COUNT.addr, F.CTL_HK_URGCNT_COUNT.addr, 0xD100, 0xD140, F.EDU_HV_HV.addr] fun u =>
            let late := s.hk.todo ≠ [] ∧ b.clk < s.hk.convAt + s.convNs
            u.hk = { s.hk with pwmAt := none, urgAt := some b.clk, convAt := if late then b.clk + 1000 else s.hk.convAt } ∧
            u.free = s.free ∧ u.rd F.CTL_HK_ABORT_COUNT =
              (if late ∧ s.hk.convAt ≤ b.clk then satN 20 (s.rd F.CTL_HK_ABORT_COUNT + 1) else s.rd F.CTL_HK_ABORT_COUNT) ∧
            u.rd F.CTL_HK_URGCNT_COUNT = satN 20 (s.rd F.CTL_HK_URGCNT_COUNT + 1) ∧
            u.rd (F.CTL_HK_RAW_CORR 0) = s.corrOf raw ∧ u.rd F.EDU_HV_HV = rdiv (5 * s.corrOf raw) 32 % 1024) ∧
      (s.dev ≠ .reset →
        CompletesAt (.hvOv t) t s [.edu] [F.EDU_FAULT_HV_OV.addr] fun u =>
          u.flag F.EDU_FAULT_HV_OV = true ∧ u.edu = { s.edu with ovStop := true, swSince := none, hvBurst := none }) ∧
      (∀ x, s.edu.swSince = some x → x + 10000000 ≤ b.clk → 2 * s.rd F.EDU_HV_HV < s.rd F.EDU_HV_SET_HV →
        CompletesAt (.boostFault t) t s (.edu :: safParts) (F.EDU_FAULT_BOOST_FAULT.addr :: safWords) fun u =>
          u.flag F.EDU_FAULT_BOOST_FAULT = true ∧ u.edu = { s.edu with swSince := none, hvBurst := none } ∧ u.chgOk = false) ∧
      (s.edu.swSince = none ∨ s.rd F.EDU_HV_SET_HV ≤ 2 * s.rd F.EDU_HV_HV → Completes (.boostFault t) t s [] fun _ => True) ∧
      (s.dev ≠ .reset →
        (s.govTrip = false →
          CompletesAt (.stallMonitorTrip t .governor) t s (.edu :: safParts) (F.EDU_STATUS_GOV_TRIP.addr :: safWords) fun u =>
            u.govTrip = true ∧ u.edu = { s.edu with swSince := none, hvBurst := none } ∧ u.chgOk = false) ∧
        (s.govTrip = true → Completes (.stallMonitorTrip t .governor) t s [] fun _ => True) ∧
        CompletesAt (.stallMonitorTrip t .hardChannel) t s safParts safWords fun u =>
          u.saf.st = .clamp ∧ 6 ∈ u.saf.causes ∧ (s.saf.st ≠ .clamp → u.saf.retained = some 6 ∧ u.saf.clcause = 6)) ∧
      (∀ stop, stop = true ∨ (∃ x, s.edu.movTok = some x ∧ x + 2000 * s.rd F.STU_EXC_NEX ≤ b.clk) →
        Completes (.movingDrop t stop) t s [.edu] fun u =>
          u.edu = { s.edu with movSince := none, movTok := none,
                               movLast := (match s.edu.movSince with | none => s.edu.movLast | some m => some (m, b.clk)) } ∧
          (s.edu.movSince.isSome = true → u.moving = false)) ∧
      (s.edu.movTok = none → Completes (.movingDrop t false) t s [] fun _ => True)) ∧
  (∀ (s : State) (t : Nat) (d : Word), s.portOpen → s.edu.diodeFlt = false →
      let w := (s.begin t).mixed 0x2001 d
      let misses := fun (u : State) => ∀ r, r < 8 →
        u.edu.miss.nat r = if bitOf (s.rd F.EDU_FAULT_LASER_FAULT) r && !bitOf w.toNat r then 0 else s.edu.miss.nat r
      let l1 := s.stu.l1.start (256 * (s.rd F.EDU_HV_LIM_HV_MAX : Int)) (s.rd F.EDU_HV_HV : Nat)
        (s.stu.l1.meas - s.stu.l1.measPrev) (s.flag (F.CEN_CTL_MODE 1))
      (s.flag F.EDU_FAULT_BOOST_FAULT = false ∨ bitOf w.toNat 18 = true →
        CompletesAt (.laserFaultClear t d) t s [.mgmt, .edu] [0x2001] fun u =>
          s.answered u 0x2001 .ok ∧ u.word 0x2001 = w ∧ misses u) ∧
      (s.flag F.EDU_FAULT_BOOST_FAULT = true → bitOf w.toNat 18 = false →
        CompletesAt (.boostFaultClear t d) t s (.edu :: .stu :: safParts) (0x2001 :: safWords) fun u =>
          s.answered u 0x2001 .ok ∧ u.word 0x2001 = w ∧ misses u ∧ u.flag F.EDU_FAULT_BOOST_FAULT = false ∧
          u.stu = { s.stu with l1 := l1 }))

/-- STU_SNS_C and STU_SNS_M, and the sensors of a channel (R245, R248, R249, R265): SEL and GAIN wait for the period boundary; a
SEL that R249 forbids is REFUSED, whether it moves or not; a takeover ends with its first settled sample; a standby input at a
rail is noted. -/
def Obligations.SensorsAreSelectedAndTakenOver : Prop :=
  ∀ (s : State) (t : Nat) (ch : SenseCh), let b := s.begin t
    (∀ c d, c = Instr.selWrite t ch d ∨ c = .gainWrite t ch d → s.portOpen →
      let a := 0x3005 + chNo ch
      let x := s.sense ch
      let n := bitsOf d.toNat 17 17
      let moves := n != s.rd (snsFld ch F.STU_SNS_C_SEL)
      let gain := bitsOf d.toNat 16 15
      let may := s.flag (inputBit ⟨0x3001, 16, 16⟩ (2 * chNo ch + n)) = false ∧
        (n = 1 → s.flag (snsFld ch F.STU_SNS_C_PARTEN) = true) ∧ x.takeover = false
      (may →
        CompletesAt c t s [.mgmt, .stu] [a] fun u =>
          s.answered u a .ok ∧ u.rd (snsFld ch F.STU_SNS_C_GAIN) = gain ∧
          u.rd (snsFld ch F.STU_SNS_C_SEL) = s.rd (snsFld ch F.STU_SNS_C_SEL) ∧
          u.sense ch = { x with pendSel := if moves then some (n == 1) else none,
                                pendGain := if gain = x.pendGain.getD x.gain then x.pendGain else some gain } ∧
          ∀ k, k ≠ ch → u.sense k = s.sense k) ∧
      (¬ may → Completes c t s [.mgmt] fun u => s.answered u a .refused)) ∧
    ((s.sense ch).takeover = true → (s.sense ch).settleTo ≤ b.now →
      (ch = .ctrl →
        CompletesAt (.takeoverSettled t ch) t s [.stu] [F.STU_STATUS_TAKEOVER.addr] fun u =>
          u.stu = { s.stu with ctrl := { s.stu.ctrl with takeover := false, substFrom := none } } ∧
          u.flag F.STU_STATUS_TAKEOVER = s.stu.mon.takeover) ∧
      (ch = .mon →
        CompletesAt (.takeoverSettled t ch) t s (.stu :: safParts) (F.STU_STATUS_TAKEOVER.addr :: safWords) fun u =>
          u.stu = { s.stu with mon := { s.stu.mon with takeover := false, substFrom := none } } ∧
          u.flag F.STU_STATUS_TAKEOVER = s.stu.ctrl.takeover ∧ assoc u.saf.holds 256 = none)) ∧
    ((s.sense ch).takeover = false → Completes (.takeoverSettled t ch) t s [] fun _ => True) ∧
    (∀ input, input < 4 → input / 2 = chNo ch → s.alive = true → s.senseOn ch = true → s.activeInput ch ≠ input →
      CompletesAt (.stbyOpen t input) t s [] [F.STU_FAULT_STBY_OPEN.addr] fun u =>
        ∀ k, k < 4 → bitOf (u.rd F.STU_FAULT_STBY_OPEN) k = (bitOf (s.rd F.STU_FAULT_STBY_OPEN) k || k == input)) ∧
    (s.activeInput ch < 4 → Completes (.stbyOpen t (s.activeInput ch)) t s [] fun _ => True)

/-- EXCITATION_PERIOD_END (R246 to R249, R256, R264 to R266): at a period boundary the conversions are demodulated; a good
period's samples are kept, a bad one is replaced and counted, and the second bad one in a row opens the sensor: without a usable
partner the drive stops. Pending gain and selection take effect. -/
def Obligations.ExcitationPeriodsAreJudged : Prop :=
  ∀ (s : State) (t : Nat) (ch : SenseCh) (codes : List (BitVec 12)), let b := s.begin t
    let per := 1000 * s.rd F.STU_EXC_NEX
    let x := s.sense ch
    let i := s.activeInput ch
    let ds := (codes.zip ((s.table ch false).zip (s.table ch true))).map fun e =>
      demod (s.rdZ (F.STU_IZ_IZ i)) (s.rd (F.STU_TRIM_TRIM i)) x.gain e.2.1 e.2.2 e.1.toNat
    let iprw := clampZ (-524288) 524287 ((ds.map fun d => d.2.2).sum / 2 ^ 10)
    let bad := decide (iprw < s.rdZ ⟨0x3010 + 2 * chNo ch, 19, 0⟩) || decide (s.rdZ ⟨0x3011 + 2 * chNo ch, 19, 0⟩ < iprw) ||
      codes.all nearRail
    let due := s.excited = true ∧ s.senseOn ch = true ∧ b.now % per = 0 ∧ codes.length = (s.convs ch).length
    let run := fun P => Completes (.excitationPeriodEnd t ch codes) t s
      [.regs, .mgmt, .edu, .stu, .saf, .cap, .lnk, .out] P
    let took := fun (u : State) => (u.sense ch).gain = x.pendGain.getD x.gain ∧ (u.sense ch).pendGain = none ∧
      (u.sense ch).pendSel = none ∧ (u.sense ch).replPeriod = x.pendGain.isSome
    (due → x.replPeriod = false → x.settleTo ≤ b.now - per → bad = false →
      run fun u => took u ∧ (u.sense ch).bad = 0 ∧ (u.sense ch).stored = ds.map (fun d => (d.1, d.2.1)) ∧
        u.rdZ (snsFld ch F.STU_IPR_C_IPRW) = iprw ∧ u.rd F.STU_REPL_COUNT = s.rd F.STU_REPL_COUNT ∧
        u.rd F.STU_BADPER_COUNT = s.rd F.STU_BADPER_COUNT) ∧
    (due → x.replPeriod = false → x.settleTo ≤ b.now - per → bad = true → x.bad = 0 → x.pendSel = none →
      run fun u => took u ∧ (u.sense ch).bad = 1 ∧ (u.sense ch).stored = x.stored ∧
        u.rdZ (snsFld ch F.STU_IPR_C_IPRW) = iprw ∧ u.rd F.STU_REPL_COUNT = satN 20 (s.rd F.STU_REPL_COUNT + 1) ∧
        u.rd F.STU_BADPER_COUNT = satN 20 (s.rd F.STU_BADPER_COUNT + 1)) ∧
    (due → x.replPeriod = false → x.settleTo ≤ b.now - per → bad = true → 1 ≤ x.bad →
      s.flag (inputBit ⟨0x3001, 16, 16⟩ i) = false → s.flag (snsFld ch F.STU_SNS_C_PARTEN) = false → x.pendSel = none →
      run fun u => took u ∧ u.stu.drive = false ∧ u.stu.bridge = 0 ∧ u.flag (inputBit ⟨0x3001, 16, 16⟩ i) = true ∧
        u.flag F.STU_FAULT_DRIVE_STOP = true) ∧
    (due → x.replPeriod = true →
      run fun u => took u ∧ (u.sense ch).stored = x.stored ∧ u.rd F.STU_REPL_COUNT = satN 20 (s.rd F.STU_REPL_COUNT + 1) ∧
        u.rd F.STU_BADPER_COUNT = s.rd F.STU_BADPER_COUNT) ∧
    (¬ due → Completes (.excitationPeriodEnd t ch codes) t s [] fun _ => True)

/-- The angle, its turning points and the kicks (R252 to R254, R257, R258): an output gives the filtered angle, which in
quasi-static mode is L0's sample, with the drive stopped too; a turning point takes its place among the predicted ones, of which
the group delay may have let later ones fall due; a predicted turning point falls due, the fifth unmeasured one ends the
prediction; a kick starts WIDTH / 2 before its centre. -/
def Obligations.AnglesTurningPointsAndKicks : Prop :=
  ∀ (s : State) (t : Nat) (ch : SenseCh), let b := s.begin t
    (∀ o r, (s.sense ch).outs = o :: r →
      let th := clampZ (-524288) 524287 (o.yi * s.rdZ ⟨0x3017 + chNo ch, 19, 0⟩ / 2 ^ 16)
      (s.resonant = true → (s.sense ch).tp.th.length < 2 →
        CompletesAt (.cicOutput t ch) t s [.stu] [0x3019 + chNo ch] fun u =>
          (u.sense ch).outs = r ∧ u.rdZ ⟨0x3019 + chNo ch, 19, 0⟩ = th ∧
          (u.sense ch).tp = { (s.sense ch).tp with th := (th, o.time, o.repl) :: (s.sense ch).tp.th }) ∧
      (∀ a b' ta tb l, s.resonant = true → ch = .mon → s.stu.mon.tp.th = (b', tb, false) :: (a, ta, false) :: l → o.repl = false →
        a ≤ b' → th < b' → (s.rd F.STU_TPMIN_TPMIN : Int) < b' →
        let den := a - 2 * b' + th
        let dq := clampZ (-512) 512 (rdiv0 (1024 * (a - th)) (2 * den))
        let at0 : Int := (tb : Int) - s.groupDelay + dq * ((s.cicR * s.sampleNs : Nat) : Int) / 1024
        let e : TpEv := ⟨at0.toNat, true⟩
        let all := (s.stu.mon.tp.split e).1 ++ e :: (s.stu.mon.tp.split e).2.2
        s.stu.mon.tp.fresh e = true → s.stu.mon.tp.running = false →
        CompletesAt (.cicOutput t ch) t s [.stu] [F.STU_ANG_M_ANG.addr, F.STU_FAULT_MTP_LOST.addr] fun u =>
          u.stu.mon.tp.last = all.head? ∧ u.stu.mon.tp.before = (all.drop 1).take 7 ∧ u.stu.mon.tp.lastMeas = some e ∧
          u.stu.mon.tp.ampLast = (b' - rdiv0 ((a - th) * (a - th)) (8 * den)).natAbs ∧
          u.stu.mon.tp.nmeas = s.stu.mon.tp.nmeas + 1 ∧ u.stu.mon.tp.npred = 0 ∧
          (u.stu.mon.tp.lost = false → u.flag F.STU_FAULT_MTP_LOST = false)) ∧
      (s.resonant = false → ch = .mon →
        CompletesAt (.cicOutput t ch) t s [.stu] [F.STU_ANG_M_ANG.addr] fun u =>
          u.stu.mon.outs = r ∧ u.rdZ F.STU_ANG_M_ANG = th ∧ u.stu.ctrl = s.stu.ctrl ∧
          u.stu.mon.tp.th = ((th, o.time, o.repl) :: s.stu.mon.tp.th).take 3) ∧
      (s.resonant = false → ch = .ctrl → o.repl = true →
        let p := (b.takeBank 0).loopPar 0
        let on := s.stu.drive
        let l := s.stu.l0.sample p on th
        let un : Int := if l.below p then 1 else if l.above p then -1 else l.u
        CompletesAt (.cicOutput t ch) t s [.stu] [F.STU_ANG_C_ANG.addr, (F.CEN_CTL_ABANK 0).addr, (F.CEN_SPT_SPT 0).addr] fun u =>
          u.stu.ctrl.outs = r ∧ u.rdZ F.STU_ANG_C_ANG = th ∧ u.stu.l0 = { l with u := un } ∧
          u.stu.bridge = (if on then un else s.stu.bridge) ∧ u.stu.prevU = (if on then un else 0) ∧
          u.stu.prevTh = (th :: s.stu.prevTh).take 2 ∧
          u.stu.startAt = (if on && l.arrived then none else s.stu.startAt))) ∧
    (∀ l, (s.sense ch).tp.last = some l → s.resonant = true → (s.sense ch).tp.running = true → s.senseOn ch = true →
      let due := l.time + (s.sense ch).tp.thLast
      due ≤ b.now →
      ((s.sense ch).tp.npred < 4 →
        Completes (.turningPointEvent t ch) t s [.seq, .stu] fun u =>
          (u.sense ch).tp.last = some ⟨due, !l.pos⟩ ∧ (u.sense ch).tp.before = (l :: (s.sense ch).tp.before).take 7 ∧
          (u.sense ch).tp.npred = (s.sense ch).tp.npred + 1 ∧ (u.sense ch).tp.events.head? = some ⟨due, !l.pos⟩ ∧
          (ch = .mon → u.seq = s.seq) ∧
          (ch = .ctrl → s.seq.st = .syncwait → s.seq.syncSrc = 5 → s.seq.syncArg = 0 → s.seq.syncHit = none →
            s.seq.syncIssue < due → u.seq = { s.seq with syncHit := some due })) ∧
      (4 ≤ (s.sense ch).tp.npred →
        CompletesAt (.turningPointEvent t ch) t s [.edu, .stu] [F.STU_FAULT_TP_LOST.addr, F.STU_STATUS_MOVTOK.addr] fun u =>
          (u.sense ch).tp.running = false ∧ (u.sense ch).tp.lost = true ∧
          (ch = .ctrl → u.flag F.STU_FAULT_TP_LOST = true ∧ u.flag F.STU_STATUS_MOVTOK = false ∧ u.edu.movSince = none) ∧
          (ch = .mon → u.flag F.STU_FAULT_MTP_LOST = true ∧ u.edu = s.edu))) ∧
    (∀ c, s.stu.kickAt = some c → s.resonant = true → s.stu.drive = true →
      let w := 1000 * s.rd (F.CEN_L0_WIDTH_WIDTH (s.bank 0))
      c - w / 2 ≤ b.now →
      (s.stu.ctrl.tp.running = true →
        Completes (.kick t) t s [.stu] fun u =>
          u.stu = { s.stu with
            bridge := -(if s.stu.ctrl.tp.events.head?.any TpEv.pos then 1 else -1) * s.stu.l0.u, bridgeTo := b.now + w,
            kickAt := none }) ∧
      (s.stu.ctrl.tp.running = false →
        Completes (.kick t) t s [.stu] fun u =>
          u.stu = { s.stu with
            bridge := if s.stu.startPol then -1 else 1, bridgeTo := b.now + w, startPol := !s.stu.startPol,
            kickAt := some (c + 1000000000 / max 1 (2 * s.rd F.STU_MIRCFG_F0NOM)) })) ∧
    (s.stu.kickAt = none → Completes (.kick t) t s [] fun _ => True)

/-- Modes, targets and the drive (R259 to R262, R267, R269): a write of CEN_Lx_CTL requests a mode and a bank, which a sample
boundary after its instant takes; a new target clears ARRIVED; the mirror that has not arrived in MSTART ms stops the drive;
clearing DRIVE_STOP with its cause gone starts the recovery in PROFILE, and with the cause present DRIVE_STOP stays. -/
def Obligations.ModesTargetsAndTheDrive : Prop :=
  ∀ (s : State) (t : Nat) (d : Word), let b := s.begin t
    (∀ loop, loop < 3 → s.portOpen → let a := 0x3040 + 16 * loop
      CompletesAt (.modeRequest t loop d) t s [.mgmt, .stu] [a] fun u =>
        s.answered u a .ok ∧ u.flag (F.CEN_CTL_BSEL loop) = bitOf d.toNat 18 ∧
        u.rd (F.CEN_CTL_ABANK loop) = s.rd (F.CEN_CTL_ABANK loop) ∧
        let bs := assocPut s.stu.bselAt loop (b.clk, b.bselOf loop == 1)
        (loop = 2 → u.stu = { s.stu with bselAt := bs }) ∧
        (loop ≠ 2 → u.flag (F.CEN_CTL_MODE loop) = bitOf d.toNat 19) ∧
        (loop = 0 → u.stu = { s.stu with
          bselAt := bs, l0 := { s.stu.l0 with pending := s.stu.l0.profile != bitOf d.toNat 19 } }) ∧
        (loop = 1 → u.stu = { s.stu with
          bselAt := bs, l1 := { s.stu.l1 with pending := s.stu.l1.profile != bitOf d.toNat 19 } })) ∧
    (s.portOpen →
      CompletesAt (.targetWrite t d) t s [.mgmt, .stu] [F.CEN_L0_TGT_TGT.addr] fun u =>
        s.answered u 0x3041 .ok ∧ u.word 0x3041 = d ∧
        u.stu = (if d = s.word 0x3041 then s.stu else { s.stu with l0 := { s.stu.l0 with arr := 0 } })) ∧
    (s.portOpen → s.flag F.STU_FAULT_DRIVE_STOP = true → (b.poke 0x3001 d).flag F.STU_FAULT_DRIVE_STOP = false →
      let l0 := s.stu.l0.start (s.loopPar 0).lim s.stu.l0.meas (s.stu.l0.meas - s.stu.l0.measPrev) (s.flag (F.CEN_CTL_MODE 0))
      ((b.poke 0x3001 d).stopClear = true →
        CompletesAt (.driveStopClear t d) t s (.stu :: safParts) (0x3001 :: F.STU_STATUS_DRIVE.addr :: safWords) fun u =>
          s.answered u 0x3001 .ok ∧ u.flag F.STU_FAULT_DRIVE_STOP = false ∧ u.flag F.STU_STATUS_DRIVE = true ∧
          u.stu = { s.stu with drive := true, kickAt := some b.now, l0 := l0 }) ∧
      ((b.poke 0x3001 d).stopClear = false →
        CompletesAt (.driveStopClear t d) t s [.mgmt] [0x3001] fun u =>
          s.answered u 0x3001 .ok ∧ u.flag F.STU_FAULT_DRIVE_STOP = true)) ∧
    (∀ t0, s.stu.startAt = some t0 → t0 + 1000000 * s.rd F.STU_MSTART_MSTART ≤ b.clk →
      (s.booting = false →
        Completes (.mstartExpiry t) t s [.regs, .mgmt, .edu, .stu, .saf, .cap, .lnk, .out] fun u =>
          u.stu = { s.stu with drive := false, bridge := 0, kickAt := none, startAt := none, stopAt := some b.clk } ∧
          u.flag F.STU_FAULT_DRIVE_STOP = true ∧
          (s.flag F.STU_FAULT_DRIVE_STOP = false → u.rd F.STU_FAULT_STOPCAUSE = 3)) ∧
      (s.booting = true →
        Completes (.mstartExpiry t) t s [.regs, .mgmt, .edu, .stu, .saf, .cap, .lnk, .tbu, .boot, .free, .out] fun u =>
          u.stu.drive = false ∧ u.boot.failed = true)) ∧
    (s.stu.startAt = none → Completes (.mstartExpiry t) t s [] fun _ => True)

/-- Lock, loss, holdover and time errors (R444, R447, R448, R450, R452 to R454, R460): the fourth good window locks the timing
PLL, which starts device time and governor time and applies the clock configurations; two bad ones unlock it; a lost reference
is holdover; a slew ends when its time at the full rate has passed; at Tsnap device time steps with what is posted. -/
def Obligations.TimebaseLocksHoldsOverAndSnaps : Prop :=
  ∀ (s : State) (t : Nat), s.alive = true → let b := s.begin t
    let steady := s.tbu.retune = false ∧ s.tbu.holdover = false ∧ s.tbu.refOk = true
    (∀ count phase, steady → s.inPpm count = true → s.inTol count = true → s.tbu.timing.lock = false →
      (s.tbu.timing.good < 3 →
        Completes (.lockWindow t .timing count false phase) t s [.tbu] fun u =>
          u.tbu.timing = ⟨false, s.tbu.timing.good + 1, 0⟩ ∧ u.tbu.refOk = true) ∧
      (s.tbu.timing.good = 3 → s.tbu.system.lock = false →
        Completes (.lockWindow t .timing count false phase) t s [.tofs, .regs, .tbu] fun u =>
          u.tbu.timing = ⟨true, 4, 0⟩ ∧ u.tbu.gov0 = some (s.tbu.gov0.getD b.clk) ∧
          u.tofs = (if s.tbu.gov0 = none then -(b.clk : Int) else s.tofs) ∧ u.tbu.backup = [] ∧
          ∀ n, n < 4 → u.word (0x1024 + n) = s.word (0x1020 + n))) ∧
    (∀ count phase, steady → s.inPpm count = true → s.inTol count = false → s.tbu.timing.lock = true → s.tbu.timing.bad = 1 →
      CompletesAt (.lockWindow t .timing count false phase) t s (.tbu :: evParts) (F.TBU_STATUS_UNLOCK.addr :: evWords) fun u =>
        u.tbu.timing = ⟨false, 0, 2⟩ ∧ u.flag F.TBU_STATUS_UNLOCK = true ∧ b.told u 0x28 .fault 0) ∧
    (∀ c count phase, c = Instr.referenceLoss t ∨ c = .lockWindow t .timing count false phase ∧ s.inPpm count = false → steady →
      s.tbu.timing.lock = true →
      CompletesAt c t s (.tbu :: evParts) (F.TBU_STATUS_REFLOSS.addr :: F.TBU_LOSSCNT_COUNT.addr :: evWords) fun u =>
        u.tbu = { s.tbu with refOk := false, goodSince := none, regood := 0, holdover := true, holdAt := b.clk } ∧
        u.flag F.TBU_STATUS_REFLOSS = true ∧ u.rd F.TBU_LOSSCNT_COUNT = satN 20 (s.rd F.TBU_LOSSCNT_COUNT + 1) ∧
        b.told u 0x29 .warn 0) ∧
    (∀ count phase, s.tbu.retune = false → s.tbu.holdover = true → s.tbu.refOk = true → s.tbu.regood = 3 → s.inPpm count = true →
      s.inTol count = true →
      Completes (.lockWindow t .timing count false phase) t s (.regs :: .tbu :: evParts) fun u =>
        u.tbu.holdover = false ∧ u.tbu.regood = 0 ∧ b.told u 0x2A .info 0) ∧
    (∀ count phase, s.tbu.retune = false → s.tbu.holdover = false → s.tbu.timing.lock = true → s.tbu.system.lock = false →
      s.tbu.system.good = 3 → s.inTol count = true →
      Completes (.lockWindow t .system count false phase) t s [.regs, .lnk, .tbu, .boot, .free] fun u =>
        u.tbu.system = ⟨true, 4, 0⟩ ∧
        (s.dev = .boot → s.boot.refDone = false → u.boot = { s.boot with refDone := true } ∧
          u.rd F.CTL_BOOT_STEP = max 1 (s.rd F.CTL_BOOT_STEP))) ∧
    (∀ x, s.tsrc = 2 → s.tbu.tsLost = false → s.lnk.ptp.syncAt = some x → s.lnk.ptp.interval ≠ 0 →
      x + 3 * s.lnk.ptp.interval ≤ b.clk →
      Completes (.ptpSourceLoss t) t s [.tbu, .lnk] fun u =>
        u.tbu = { s.tbu with tsLost := true } ∧ u.lnk = { s.lnk with ptp := { s.lnk.ptp with first := [] } }) ∧
    (s.tbu.slewing = true → s.tbu.slewTo ≤ b.clk → s.tbu.judge = none →
      CompletesAt (.slewComplete t) t s [.tbu] [F.TBU_FOFS_FOFS.addr] fun u =>
        u.tbu = { s.tbu with slewing := false, err := 0 } ∧ u.rd F.TBU_FOFS_FOFS = 0) ∧
    (s.tbu.slewing = false ∨ b.clk < s.tbu.slewTo → Completes (.slewComplete t) t s [] fun _ => True) ∧
    (∀ x, s.firstSnap = some x → x.time ≤ b.now →
      Completes (.tsnap t) t s [.tofs, .regs, .mgmt, .seq, .stu, .saf, .cap, .fso, .lnk, .tbu, .out] fun u =>
        u.tofs = s.tofs + x.delta ∧ u.seq.cursor = (s.seq.cursor + x.delta).toNat ∧
        u.seq.fires = s.seq.fires.map (fun f => { f with instant := (f.instant + x.delta).toNat }) ∧
        u.tbu.snaps.length + 1 = s.tbu.snaps.length ∧ u.fso.timejump = true ∧ u.saf.snapD = x.delta ∧
        u.saf.snapTo = b.clk + 10000000 ∧ u.rdWide 0x100D 3 = x.time % 2 ^ 60 ∧ u.rdWide 0x1010 2 = unsigned 40 x.delta ∧
        u.rd F.TBU_SNAPCNT_COUNT = satN 20 (s.rd F.TBU_SNAPCNT_COUNT + 1)) ∧
    (s.tbu.snaps = [] → Completes (.tsnap t) t s [] fun _ => True)

/-- Trigger inputs and the trigger bus (R71, R130, R316, R349, R433, R434): an edge on an input, placed in its cycle by the
TDC's calibrated fine table, sets its flag, serves SYNC and the capture engine (COARSE without a table: the next TCLK edge); an
edge on FSYNC_IN is an encoder tick in LINE mode; a driven or received bus edge waits for its stamp plus TBLAT and then applies
at the next TCLK edge, and one from a side whose neighbour has left is discarded. The clauses about inputs take a device that
drives no bus line. -/
def Obligations.TriggerEdgesAndBusLines : Prop :=
  ∀ (s : State) (t : Nat), s.alive = true → let b := s.begin t
    let offered := fun (u : State) (c : Cond) =>
      u.cap = if s.cap.st ≠ .idle ∧ bitOf (s.rd F.CAP_A_TRIG_TRIGEN) c.src = true then { s.cap with conds := s.cap.conds ++ [c] }
        else s.cap
    let synced := fun (u : State) (src arg inst : Nat) =>
      u.seq = if s.seq.st = .syncwait ∧ s.seq.syncSrc = src ∧ s.seq.syncArg = arg ∧ s.seq.syncHit = none ∧ s.seq.syncIssue < inst
        then { s.seq with syncHit := some inst } else s.seq
    let ticks := fun (k : Nat) (p : BitVec 8) => (256 * b.now + (4096 - ((s.unitSt (272 + k)).entry p.toNat : Int) + 8) / 16).toNat
    let stamp := fun k p coarse => if coarse then b.now + 1 else ticks k p / 256
    let fine := fun k p coarse => if coarse then 0 else ticks k p % 256
    (∀ k rising (p : BitVec 8), k < 4 → s.lnk.joined = false →
      let coarse := s.flag (F.RTA_FCFG_T_SRC k) || (s.unitSt (272 + k)).coarse
      let fed := fun (u : State) => s.flag (F.RTA_FCFG_T_FEN k) = false ∨ s.flag (F.RTA_FCFG_T_SRC k) = true → u.rta = s.rta
      (rising = s.flag (F.RTA_FCFG_T_POL k) →
        CompletesAt (.trigInEdge t k rising p) t s [.rta] [F.CTL_SEQ_FLAGS_TRIG.addr] fun u =>
          fed u ∧ ∀ j, j < 4 → bitOf (u.rd F.CTL_SEQ_FLAGS_TRIG) j = (bitOf (s.rd F.CTL_SEQ_FLAGS_TRIG) j || (rising && j == k))) ∧
      (rising ≠ s.flag (F.RTA_FCFG_T_POL k) →
        CompletesAt (.trigInEdge t k rising p) t s [.seq, .rta, .cap] [F.CTL_SEQ_FLAGS_TRIG.addr] fun u =>
          synced u 1 k (stamp k p coarse) ∧ offered u ⟨k, stamp k p coarse, fine k p coarse, coarse⟩ ∧ fed u ∧
          ∀ j, j < 4 → bitOf (u.rd F.CTL_SEQ_FLAGS_TRIG) j = (bitOf (s.rd F.CTL_SEQ_FLAGS_TRIG) j || (rising && j == k)))) ∧
    (∀ k rising (p : BitVec 8), s.fsyncTdc = some k → s.lnk.joined = false → s.ready = false →
      rising ≠ s.flag (F.RTA_FCFG_T_POL k) →
      let coarse := (s.unitSt (272 + k)).coarse
      let edge := fun (u : State) => synced u 0 0 (stamp k p coarse) ∧ offered u ⟨4, stamp k p coarse, fine k p coarse, coarse⟩
      (s.rd F.FSO_CFG_FSMODE = 1 →
        CompletesAt (.fsyncInEdge t rising p) t s [.seq, .rta, .cap, .fso] [F.FSO_ENC_ENC.addr] fun u =>
          edge u ∧ u.rd F.FSO_ENC_ENC = (s.rd F.FSO_ENC_ENC + 1) % 2 ^ 20 ∧
          u.fso = { s.fso with encLog := ((s.rd F.FSO_ENC_ENC + 1) % 2 ^ 20, stamp k p coarse) :: s.fso.encLog }) ∧
      (s.rd F.FSO_CFG_FSMODE ≠ 1 →
        Completes (.fsyncInEdge t rising p) t s [.seq, .rta, .cap] fun u => edge u)) ∧
    (∀ rising p, s.fsyncTdc = none → Completes (.fsyncInEdge t rising p) t s [] fun _ => True) ∧
    (∀ c d up, c = Instr.lnkTbusSet t d ∧ up = true ∨ c = .lnkTbusClr t d ∧ up = false → s.portOpen →
      let lines := setBits d.toNat 8
      let a := if up = true then 0xB019 else 0xB01A
      ((∀ l, l ∈ lines → s.drives l 5 = true) →
        Completes c t s [.mgmt, .lnk, .out] fun u =>
          s.answered u a .ok ∧
          u.lnk.bus = s.lnk.bus ++ lines.map (fun l => ⟨l, up, b.now + s.rd F.LNK_TBLAT_TBLAT, 0⟩)) ∧
      ((∃ l, l ∈ lines ∧ s.drives l 5 = false) → Completes c t s [.mgmt] fun u => s.answered u a .refused)) ∧
    (∀ hdr line level stamp (fine : BitVec 8), s.portUp hdr.side = true → line < 8 → s.lnk.joined = true →
      s.flag (F.LNK_TB_EN line) = true →
      (hdr.crcOk = true → (∀ r, (s.neigh hdr.side).rxSeq = some r → newer hdr.seq r = true) → s.joinedNeigh hdr.side = none →
        Completes (.tbedge t hdr line level stamp fine) t s [.lnk] fun u => u.lnk.bus = s.lnk.bus) ∧
      (hdr.crcOk = true → (∀ r, (s.neigh hdr.side).rxSeq = some r → newer hdr.seq r = true) →
        (s.joinedNeigh hdr.side).isSome = true → b.now ≤ stamp + s.rd F.LNK_TBLAT_TBLAT →
        Completes (.tbedge t hdr line level stamp fine) t s [.lnk, .out] fun u =>
          u.lnk.bus = s.lnk.bus ++ [⟨line, level, stamp + s.rd F.LNK_TBLAT_TBLAT, fine.toNat⟩] ∧
          (u.neigh hdr.side).rxSeq = some (hdr.seq % 2 ^ 20)) ∧
      (hdr.crcOk = false →
        CompletesAt (.tbedge t hdr line level stamp fine) t s [] [F.LNK_MSGCRC_COUNT.addr] fun u =>
          u.rd F.LNK_MSGCRC_COUNT = satN 20 (s.rd F.LNK_MSGCRC_COUNT + 1)) ∧
      (∀ r, hdr.crcOk = true → (s.neigh hdr.side).rxSeq = some r → newer hdr.seq r = false →
        CompletesAt (.tbedge t hdr line level stamp fine) t s [] [F.LNK_DUPSEQ_COUNT.addr] fun u =>
          u.rd F.LNK_DUPSEQ_COUNT = satN 20 (s.rd F.LNK_DUPSEQ_COUNT + 1))) ∧
    (∀ line e, line < 8 → (s.lnk.bus.find? fun e => e.line == line && Nat.ble (e.time + b2n (e.fine != 0)) b.now) = some e →
      CompletesAt (.triggerBusEvent t line) t s [.seq, .cap, .lnk] [F.LNK_TBUS_LEVEL.addr] fun u =>
        u.lnk.bus = s.lnk.bus.erase e ∧
        (∀ k, k < 8 → bitOf (u.rd F.LNK_TBUS_LEVEL) k = if k = line then e.level else bitOf (s.rd F.LNK_TBUS_LEVEL) k) ∧
        (e.level = true → bitOf (s.rd F.LNK_TBUS_LEVEL) line = false →
          synced u 2 line e.time ∧ offered u ⟨5 + line, e.time, e.fine, false⟩) ∧
        (e.level = false → u.seq = s.seq ∧ u.cap = s.cap)) ∧
    (∀ line, (s.lnk.bus.find? fun e => e.line == line && Nat.ble (e.time + b2n (e.fine != 0)) b.now) = none →
      Completes (.triggerBusEvent t line) t s [] fun _ => True)

/-- The two channels' evaluations (R282, R283, R285, R287, R288, R291): a stale or unbridged cell is BLIND; a zone set comes
into force with all cells clear; the end of a window of channel B is the no-hit branch of the ports that saw nothing; a point
record is channel A's evaluation of its cell; a tracking interval gives the position or counts a loss. A window ends at s + hwin
and no earlier. -/
def Obligations.SafetyChannelsEvaluateTheirCells : Prop :=
  ∀ (s : State) (t : Nat) (c : SafCh), let b := s.begin t
    let off := fun (u : State) => s.saf.st = .clear → u.saf.st = .stop ∧ u.saf.ossdA = false ∧ u.saf.ossdB = false
    (∀ cell z last, s.zoneSet c = some z → assoc (s.chan c).seen cell = some last → (s.inUse c).contains cell = true →
      last + 1000 * s.freshOf z < b.clk → cell ∉ (s.chan c).blind →
      CompletesAt (.freshnessExpiry t c cell) t s safParts safWords fun u =>
        u.chan c = { s.chan c with blind := cell :: (s.chan c).blind } ∧ off u) ∧
    (∀ key till, assoc s.saf.holds key = some till → till ≤ b.clk →
      CompletesAt (.tbridgeExpiry t key) t s safParts safWords fun u =>
        assoc u.saf.holds key = none ∧ key ∈ u.saf.late ∧
        ∀ ch k, k ∈ u.blindCells ch ↔ k ∈ s.blindCells ch ∨ k ∈ s.keyCells ch key) ∧
    (∀ zs t0, let v := b.settleInputs b.clk
      (v.chan c).pendZs = some (zs, t0) →
      cdiv (((t0 + 1000000 : Nat) : Int) + s.tofs).toNat 250000 * 250000 ≤ b.now →
      CompletesAt (.zoneSetSwitch t c) t s safParts safWords fun u =>
        (u.chan c).zs = zs ∧ (u.chan c).pendZs = none ∧ (u.chan c).cnt = [] ∧ (u.chan c).clr = [] ∧ (u.chan c).intr = [] ∧
        (u.chan c).blind = [] ∧ (∀ e, e ∈ (u.chan c).seen → e.2 = b.clk) ∧ (u.chan c).trk = (s.chan c).trk ∧
        u.saf.cellDisc = [] ∧ ∀ k, k ≠ c → u.chan k = v.chan k) ∧
    (∀ row w z, (s.saf.wins.find? fun e => e.1 == row && !e.2.done) = some (row, w) → s.zoneSet .b = some z →
      w.zs = s.saf.chB.zs → 32 * (b.clk + 1) ≤ 32 * w.t0 + (w.bin % 32).toNat + z.hwin →
      Completes (.channelBWindowEnd t row) t s [] fun _ => True) ∧
    (∀ row w z, (s.saf.wins.find? fun e => e.1 == row && !e.2.done) = some (row, w) → s.zoneSet .b = some z →
      w.zs = s.saf.chB.zs → 32 * w.t0 + (w.bin % 32).toNat + z.hwin < 32 * (b.clk + 1) →
      CompletesAt (.channelBWindowEnd t row) t s safParts safWords fun u =>
        u.saf.wins = (b.endWin row).saf.wins ∧
        ∀ p, p ∈ groupPorts row → let k := 32 * p + w.sect
          (z.typeOf k ≠ .none → p ∉ w.hits → s.heldPort p = false → s.portOff p = false →
            u.saf.chB.cnt.nat k = 0 ∧
            u.saf.chB.clr.nat k = min (s.rd F.SAF_CFG_CM1 + 1) (s.saf.chB.clr.nat k + 1) ∧
            assoc u.saf.chB.seen k = some b.clk ∧ k ∉ u.saf.chB.blind) ∧
          (p ∈ w.hits → u.saf.chB.cnt.nat k = s.saf.chB.cnt.nat k ∧ assoc u.saf.chB.seen k = assoc s.saf.chB.seen k)) ∧
    (∀ p ps z x, s.rpe.safPoints = p :: ps → s.zoneSet .a = some z →
      let k := 32 * p.port + s.sectAtLog p.tlast
      assoc z.cells k = some x → p.noemit = false → x.typ ≠ .none → s.heldPort p.port = false → s.portOff p.port = false →
      let hit := p.ranges.any fun r => Nat.ble x.anear r && Nat.blt r x.afar
      let cam := s.rd F.SAF_CFG_CAM1 + 1
      CompletesAt (.channelAEvaluation t) t s (.rpe :: safParts) (F.SAF_XCHK_COUNT.addr :: safWords) fun u =>
        u.rpe = { s.rpe with safPoints := ps } ∧
        u.saf.chA.cnt.nat k = (if hit then min cam (s.saf.chA.cnt.nat k + 1) else 0) ∧
        u.saf.chA.clr.nat k = (if hit then 0 else min cam (s.saf.chA.clr.nat k + 1)) ∧
        assoc u.saf.chA.seen k = some b.clk ∧ k ∉ u.saf.chA.blind ∧ k ∉ u.saf.chA.unseen ∧
        u.saf.chB = s.saf.chB) ∧
    (∀ p ps, s.rpe.safPoints = p :: ps → p.noemit = true →
      Completes (.channelAEvaluation t) t s [.rpe] fun u => u.rpe = { s.rpe with safPoints := ps }) ∧
    (s.saf.track.tmask.isEmpty = false →
      let stop := b.now / 1000000 * 1000000
      let xs := ((s.chan c).trk.items.filter fun e => Nat.ble (stop - 1000000) e.1 && Nat.blt e.1 stop).map Prod.snd
      let words := [F.SAF_TPOS_A_P.addr, F.SAF_TSPD_A_P.addr, F.SAF_TPOS_B_P.addr, F.SAF_TSPD_B_P.addr]
      CompletesAt (.trackingInterval t c) t s safParts (words ++ safWords) fun u =>
        (u.chan c).trk.pos = s.saf.track.position c xs ∧
        (u.chan c).trk.lost = (if s.saf.track.position c xs = none then (s.chan c).trk.lost + 1 else 0) ∧
        (u.chan c).trk.items = (s.chan c).trk.items.filter (fun e => Nat.ble stop e.1) ∧
        ∀ k, k ≠ c → u.chan k = s.chan k)

/-- The SAF's states (R281, R296 to R302): what leads to Clamp puts the outputs off and its cause into the retention store; no
demand for TCLR, or a safe reset, leads on towards CLEAR, where alone the outputs are on; a reset in Clamp is rejected while a
cause stands. A level at a safe input counts once it has been stable for 1 ms, and the pair then takes the value on which its
pins agree. -/
def Obligations.SafetyStatesAndOutputs : Prop :=
  ∀ (s : State) (t : Nat), let b := s.begin t
    let old := fun (td : Nat) (x : Nat) => Nat.blt (x + 1000 * td) b.clk
    let td := s.rd F.SAF_TDISC_TD
    let high := s.saf.edmA || s.saf.edmB
    let v := b.settleInputs b.clk
    let out := s.saf.cellDisc.any fun e => Nat.blt (e.2.1 + 1000 * td) e.2.2
    let late := decide (s.saf.ossdAt + 1000000 * s.rd F.SAF_TEDM_TE < b.clk)
    (∀ c cause,
      (∃ n, c = Instr.inputDisc t n ∧ n < 4 ∧ (v.saf.pair n).a.filt ≠ (v.saf.pair n).b.filt ∧
          ((v.saf.pair n).diffAt.any fun x => Nat.blt (x + 10000000) b.clk) = true ∧ cause = 4) ∨
        (c = .disc t ∧ s.saf.st ≠ .init ∧ (out || s.saf.diffAt.any (old td)) = true ∧
          cause = 1) ∨
        (c = .disc t ∧ s.saf.st ≠ .init ∧ (out || s.saf.diffAt.any (old td)) = false ∧
          s.saf.trkDiffAt.any (old td) = true ∧ cause = 8) ∨
        (∃ o rl rh f, c = .ossdTest t o rl rh f ∧ (rl && rh && !f) = false ∧ cause = 3 ∧
          (s.saf.st = .clear ∧ b.now % 20000000 = (if o then 10000000 else 0) ∨ s.saf.st = .init ∧ s.ready = true)) ∨
        (∃ o, c = .ossdFault t o ∧ s.dev ≠ .reset ∧ cause = 3) ∨
        (c = .edmFault t ∧ s.flag F.SAF_CFG_EDMEN = true ∧ s.saf.switched = true ∧
          (if s.saf.ossdA then (if s.saf.edmLow then high else late) else late && !s.saf.edmHigh) = true ∧ cause = 2) ∨
        (c = .heartbeat t ∧ s.dev ≠ .reset ∧ cause = 7) ∨ (c = .lockstep t ∧ s.dev ≠ .reset ∧ cause = 9) →
      s.saf.st ≠ .clamp →
      CompletesAt c t s safParts safWords fun u =>
        u.saf.st = .clamp ∧ u.saf.ossdA = false ∧ u.saf.ossdB = false ∧ u.saf.retained = some cause ∧ u.saf.clcause = cause ∧
        b.told u 0x50 .safety 4) ∧
    (s.saf.st = .stop → s.anyDem = false → s.saf.demAt + 1000000 * s.rd F.SAF_TCLR_TCLR ≤ b.clk → b.edmClosed = true →
      CompletesAt (.tclrExpiry t) t s safParts safWords fun u =>
        (s.flag F.SAF_CFG_RSTMODE = true → u.saf.st = .interlock ∧ u.saf.ossdA = false ∧ u.saf.ossdB = false) ∧
        (s.flag F.SAF_CFG_RSTMODE = false → u.saf.st = .clear ∧ u.saf.ossdA = true ∧ u.saf.ossdB = true)) ∧
    (s.saf.st ≠ .stop ∨ s.anyDem = true → Completes (.tclrExpiry t) t s [] fun _ => True) ∧
    (∀ r f, v.saf.resetRise = some r → v.saf.resetFall = some f →
      let pulse := r + 100000000 ≤ f ∧ f ≤ r + 5000000000
      let cnt := fun (u : State) => u.rd F.SAF_RESETS_COUNT = satN 20 (s.rd F.SAF_RESETS_COUNT + 1)
      let words := F.SAF_RESETS_COUNT.addr :: safWords
      (pulse → s.saf.st = .interlock → v.anyDem = false → b.edmClosed = true →
        CompletesAt (.safeReset t) t s safParts words fun u =>
          u.saf.st = .clear ∧ u.saf.ossdA = true ∧ u.saf.ossdB = true ∧ cnt u) ∧
      (pulse → s.saf.st = .interlock → v.anyDem = true →
        CompletesAt (.safeReset t) t s safParts words fun u =>
          u.saf.st = .stop ∧ u.saf.ossdA = false ∧ u.saf.ossdB = false ∧ cnt u) ∧
      (pulse → s.saf.st = .clamp → v.causePresent = false →
        CompletesAt (.safeReset t) t s safParts words fun u =>
          u.saf.st = .stop ∧ u.saf.retained = none ∧ u.saf.clcause = 0 ∧ cnt u) ∧
      (pulse → s.saf.st = .clamp → v.causePresent = true →
        CompletesAt (.safeReset t) t s safParts evWords fun u =>
          u.saf.st = .clamp ∧ u.saf.retained = s.saf.retained ∧ b.told u 0x52 .safety s.saf.clcause) ∧
      (¬ pulse →
        CompletesAt (.safeReset t) t s evParts evWords fun u => u.saf.st = s.saf.st ∧ b.told u 0x51 .safety 0)) ∧
    (∀ n pinB level, n < 4 → s.saf.nextPin b.clk = none →
      let q := s.saf.pair n
      let put := fun (x : SafePin) => if x.raw = level then x else { x with raw := level, since := b.clk }
      Completes (.safeInChange t n pinB level) t s [.saf] fun u =>
        u.saf = s.saf.setPair n (if pinB then { q with b := put q.b } else { q with a := put q.a })) ∧
    (∀ m x, s.saf.nextPin b.clk = some (x, m) → (b.takePair m x).saf.nextPin b.clk = none →
      let q := s.saf.pair m
      let level := fun (p : SafePin) => if p.raw ≠ p.filt ∧ p.since + 1000000 ≤ x then p.raw else p.filt
      Completes (.inputDisc t 4) t s [.saf] fun u =>
        (u.saf.pair m).a.filt = level q.a ∧ (u.saf.pair m).b.filt = level q.b ∧
        (u.saf.pair m).val = (if level q.a = level q.b then level q.a else q.val) ∧
        (u.saf.pair m).diffAt = (if level q.a = level q.b then none else some (q.diffAt.getD x)) ∧
        (∀ k, k < 4 → k ≠ m → u.saf.pair k = s.saf.pair k) ∧ u.saf.st = s.saf.st ∧
        (m = 3 → (u.saf.pair 3).val = true → q.val = false → u.saf.resetRise = some x ∧ u.saf.resetFall = none) ∧
        (m = 3 → (u.saf.pair 3).val = false → q.val = true → u.saf.resetFall = some x)) ∧
    (∀ o, s.saf.st = .clear → b.now % 20000000 = (if o then 10000000 else 0) →
      Completes (.ossdTest t o true true false) t s [] fun _ => True) ∧
    (s.saf.st = .init → s.ready = true → s.saf.preB = false →
      Completes (.ossdTest t false true true false) t s [.saf] fun u => u.saf = { s.saf with preA := true }) ∧
    (s.saf.st = .init → s.ready = true → s.saf.preA = true → s.digestsOk = true → s.flag F.CTL_BOOT_PROV = true →
      s.flag F.CTL_BOOT_SAFCAL = false → s.saf.retained = none →
      CompletesAt (.ossdTest t true true true false) t s safParts safWords fun u => u.saf.st = .stop) ∧
    (∀ pinB level,
      Completes (.edmInputChange t pinB level) t s [.saf] fun u =>
        u.saf.edmA = (if pinB then s.saf.edmA else level) ∧ u.saf.edmB = (if pinB then level else s.saf.edmB) ∧
        u.saf.edmHigh = (s.saf.edmHigh || !s.saf.ossdA && !late && u.saf.edmA && u.saf.edmB) ∧
        u.saf.st = s.saf.st ∧ u.saf.ossdA = s.saf.ossdA ∧ u.saf.ossdB = s.saf.ossdB)

/-- The Ovmor safety telegram (R303 to R308): at every 250 µs of device time both copies go out with the next SEQ, the one of
path 2 as its characters on SAFE_TX; a copy whose frame or CRC fails is counted, the first good one waits, and a matching pair
with a newer SEQ, both in time, is accepted; one that fails by SEQ or TIME is counted (log entry 185); OSTTMO without one is a
timeout, in INIT too (log entry 186). -/
def Obligations.SafetyTelegramsAreSentAndAccepted : Prop :=
  ∀ (s : State) (t : Nat), s.dev ≠ .reset → let b := s.begin t
    (s.tbu.gov0.isSome = true → b.now % 250000 = 0 → s.safetyPartner = none →
      let p := b.ostPayload
      Completes (.deviceTelegram t) t s [.saf, .out] fun u =>
        u.out = [.ost (ost1 p), .safeTx (lineFrame (ost2 p))] ∧
        (s.saf.loaded = true → u.viewSaf 0xC020 = some (BitVec.ofNat 20 s.saf.seqTx)) ∧
        u.saf = { s.saf with seqTx := (s.saf.seqTx + 1) % 2 ^ 20, tx1 := ost1 p, tx2 := ost2 p, txAt := b.clk }) ∧
    (s.tbu.gov0 = none ∨ b.now % 250000 ≠ 0 → Completes (.deviceTelegram t) t s [] fun _ => True) ∧
    (s.flag F.SAF_CFG_PRESSEN = false → ∀ path ws line, Completes (.pressTelegram t path ws line) t s [] fun _ => True) ∧
    (s.flag F.SAF_CFG_PRESSEN = true →
      let got := fun (path : Nat) (ws : List Word) (line : List LineChar) =>
        (if path = 1 then some ws else lineTelegram line).bind (pressPayload path)
      (∀ path ws line, got path ws line = none →
        let cnt := if path = 1 then F.SAF_OSTCRC1_COUNT else F.SAF_OSTCRC2_COUNT
        CompletesAt (.pressTelegram t path ws line) t s [] [cnt.addr] fun u => u.rd cnt = satN 20 (s.rd cnt + 1)) ∧
      (∀ path ws line p, got path ws line = some p →
        let w0 := (p.getD 0 0).toNat
        bitsOf w0 19 16 = 1 → bitsOf w0 11 8 = 2 → bitsOf w0 7 3 = s.lnk.pos →
        (s.saf.copy = none →
          Completes (.pressTelegram t path ws line) t s [.saf] fun u =>
            u.saf = { s.saf with copy := some ⟨path, p, b.clk, b.pressTimeOk p⟩ }) ∧
        (∀ c, s.saf.copy = some c → c.path ≠ path → b.clk ≤ c.time + 150000 → c.words = p →
          (∀ x, s.saf.seqRx = some x → newer (p.getD 1 0).toNat x = true) →
          c.timeOk = true → b.pressTimeOk p = true →
          let w5 := (p.getD 5 0).toNat
          CompletesAt (.pressTelegram t path ws line) t s safParts (F.SAF_SEQRX_SEQ.addr :: safWords) fun u =>
            u.saf.zbank = bitsOf w5 19 19 ∧ u.saf.spdsel = bitsOf w5 18 17 ∧ u.saf.seqRx = some (p.getD 1 0).toNat ∧
            u.rd F.SAF_SEQRX_SEQ = (p.getD 1 0).toNat ∧ u.saf.pressAt = b.clk ∧ u.saf.pressOk = true ∧
            u.saf.pressTmo = false ∧ u.saf.copy = none) ∧
        (∀ c, s.saf.copy = some c → c.path ≠ path → b.clk ≤ c.time + 150000 → c.words.getD 1 0 = p.getD 1 0 →
          c.words ≠ p ∨ (∃ x, s.saf.seqRx = some x ∧ newer (p.getD 1 0).toNat x = false) ∨ c.timeOk = false ∨ b.pressTimeOk p = false →
          CompletesAt (.pressTelegram t path ws line) t s [.saf] [F.SAF_OSTMIS_COUNT.addr] fun u =>
            u.saf = { s.saf with copy := none } ∧ u.rd F.SAF_OSTMIS_COUNT = satN 20 (s.rd F.SAF_OSTMIS_COUNT + 1))) ∧
      (s.saf.pressTmo = false → s.saf.pressAt + 1000 * s.rd F.SAF_OSTTMO_TMO ≤ b.clk →
        CompletesAt (.pressTmo t) t s safParts (F.SAF_OSTTO_COUNT.addr :: safWords) fun u =>
          u.saf.pressTmo = true ∧ u.saf.pressOk = false ∧ u.saf.seqRx = none ∧
          u.rd F.SAF_OSTTO_COUNT = satN 20 (s.rd F.SAF_OSTTO_COUNT + 1) ∧
          (s.saf.st = .clear → u.saf.st = .stop ∧ u.saf.ossdA = false ∧ u.saf.ossdB = false)))

/-- Bring-up of a lane (R406, R424, R425, R429, R438): with both PLLs locked each stage is left when its condition is met, and
at its bound back to DETECT with LNK_RETRAIN counted; at CAPS an ETH lane announces its address and a partner that was suspended
for want of a lane of its aggregate returns. A chain lane goes on to ACTIVE, and the port is degraded no longer once both lanes
are. What the receiver adapts and counts up to a change of stage (R405) are free values (log entry 3). -/
def Obligations.LanesComeUpStageByStage : Prop :=
  ∀ (s : State) (t l : Nat), l < 12 → let b := s.begin t
    let x := s.lane l
    let lw := (if x.stage.adapts && !s.flag (F.LNK_LCFG_ADAPTFRZ l) then [0xB103 + 32 * l, 0xB104 + 32 * l, 0xB105 + 32 * l] else []) ++
      (if s.checks l then [(F.LNK_PRBSERR_COUNT l).addr] else []) ++ (if x.stage.heads then [(F.LNK_LERR_COUNT l).addr] else [])
    let goes := fun (u : State) (st : Stage) =>
      u.lane l = { x with stage := st, since := b.clk, ready := 0 } ∧ ∀ k, k ≠ l → u.lane k = s.lane k
    (s.tbuLocked = false ∨ x.stage = .active ∨ x.stage = .jig ∨ x.stage = .off →
      Completes (.laneStageAdvance t l) t s [] fun _ => True) ∧
    (s.tbuLocked = true →
      (x.stage = .detect → x.since + 100000 ≤ b.clk →
        CompletesAt (.laneStageAdvance t l) t s [.lnk, .free] lw fun u => goes u (if s.laneDlp l then .prbs else .lock)) ∧
      (x.stage = .detect → b.clk < x.since + 100000 → Completes (.laneStageAdvance t l) t s [] fun _ => True) ∧
      (x.stage = .prbs → CompletesAt (.laneStageAdvance t l) t s [.lnk, .free] lw fun u => goes u .train) ∧
      (x.stage = .train → 8 ≤ x.ready → CompletesAt (.laneStageAdvance t l) t s [.lnk, .free] lw fun u => goes u .lock) ∧
      (x.stage = .train → x.ready < 8 → Completes (.laneStageAdvance t l) t s [] fun _ => True) ∧
      (x.stage = .lock → 8 ≤ l → CompletesAt (.laneStageAdvance t l) t s [.lnk, .free] lw fun u => goes u .caps) ∧
      (x.stage = .lock → l < 8 → CompletesAt (.laneStageAdvance t l) t s [.lnk, .out, .free] lw fun u =>
        goes u .caps ∧
        ((∀ e, e ∈ s.lnk.partners → e.2.st = .suspended → e.2.agg ≠ s.aggOf l) →
          u.lnk.partners = s.lnk.partners ∧ u.out = if s.laneEth l then [.arpRequest l (s.laneIp l)] else []) ∧
        (∀ n p, s.lnk.partners = [(n, p)] → p.st = .suspended → p.agg = s.aggOf l → p.evq = [] →
          (∀ k, k < 8 → k ≠ l → s.aggOf k = s.aggOf l → s.carries k = false) →
            u.lnk.partners = [(n, { p with st := if p.maj = 0 then .caps else .active, lane := l })])) ∧
      (x.stage = .caps → l < 8 → Completes (.laneStageAdvance t l) t s [] fun _ => True) ∧
      (x.stage = .caps → 8 ≤ l → CompletesAt (.laneStageAdvance t l) t s [.lnk, .free] lw fun u =>
        goes u .active ∧ ((s.lane (twinLane l)).stage = .active → (u.neigh (sideOf l)).deg = false))) ∧
    (∀ st n, (st, n) ∈ [(Stage.prbs, 50000000), (.train, 100000000), (.lock, 10000000)] → x.stage = st →
      (x.since + n ≤ b.clk →
        CompletesAt (.laneStageTimeout t l) t s [.lnk, .free] ((F.LNK_RETRAIN_COUNT l).addr :: lw) fun u =>
          goes u .detect ∧ u.rd (F.LNK_RETRAIN_COUNT l) = satN 20 (s.rd (F.LNK_RETRAIN_COUNT l) + 1)) ∧
      (b.clk < x.since + n → Completes (.laneStageTimeout t l) t s [] fun _ => True)) ∧
    (x.stage ∉ [Stage.prbs, .train, .lock] → Completes (.laneStageTimeout t l) t s [] fun _ => True)

/-- LANE_LOSS (R406, R423, R424, R428, R429) in LOCK, CAPS or ACTIVE: the lane is at DETECT, LNK_LLOSS and the event report it.
A partner at home on a data lane moves to another lane of its aggregate, with the messages of the last 4 µs again, or is
suspended. A chain port with one ACTIVE lane left is degraded; without one, what is known of the neighbour goes, and a member
leaves the chain with its upstream port. What the receiver counted until then are free values (log entry 3). -/
def Obligations.LaneLossMovesPartnersOrClosesThePort : Prop :=
  ∀ (s : State) (t l : Nat), l < 12 → let b := s.begin t
    let x := s.lane l
    let held := decide (x.stage ≠ .active)
    let lost := { x with stage := .detect, since := b.clk, ready := 0, polinv := x.polinv && held, lswap := x.lswap && held }
    let lw := (if x.stage.adapts && !s.flag (F.LNK_LCFG_ADAPTFRZ l) then [0xB103 + 32 * l, 0xB104 + 32 * l, 0xB105 + 32 * l] else []) ++
      (if s.checks l then [(F.LNK_PRBSERR_COUNT l).addr] else []) ++ (if x.stage.heads then [(F.LNK_LERR_COUNT l).addr] else [])
    let words := (F.LNK_LLOSS_COUNT l).addr :: evWords ++ lw
    let parts := Part.free :: evParts
    let noted := fun (u : State) =>
      u.lane l = lost ∧ b.told u 0x42 .fault l ∧ u.rd (F.LNK_LLOSS_COUNT l) = satN 20 (s.rd (F.LNK_LLOSS_COUNT l) + 1)
    (x.stage ∉ [Stage.lock, .caps, .active] → Completes (.laneLoss t l) t s [] fun _ => True) ∧
    (x.stage ∈ [Stage.lock, .caps, .active] →
      (l < 8 ∧ s.homed l = [] ∨ 8 ≤ l ∧ x.stage ≠ .active → CompletesAt (.laneLoss t l) t s parts words noted) ∧
      (8 ≤ l → x.stage = .active → (s.lane (twinLane l)).stage = .active →
        CompletesAt (.laneLoss t l) t s parts words fun u =>
          noted u ∧ u.neigh (sideOf l) = { s.neigh (sideOf l) with deg := true }) ∧
      (10 ≤ l → x.stage = .active → (s.lane (twinLane l)).stage ≠ .active →
        CompletesAt (.laneLoss t l) t s parts words fun u => noted u ∧ u.neigh .down = default ∧ u.lnk.dvDn = false) ∧
      (8 ≤ l → l < 10 → x.stage = .active → (s.lane (twinLane l)).stage ≠ .active → s.lnk.joined = true → s.isHead = false →
        CompletesAt (.laneLoss t l) t s (.tbu :: parts) words fun u =>
          u.lane l = lost ∧ u.neigh .up = default ∧ u.lnk.dvUp = false ∧ u.lnk.joined = false ∧ u.lnk.pos = 0 ∧
          u.tbu.chainE = none ∧ u.tbu.tsLost = true ∧ u.tbu.rejoin = false) ∧
      (∀ n p, l < 8 → s.lnk.partners = [(n, p)] → p.st = .active → p.maj ≠ 0 → p.lane = l → p.evt = false → p.evq = [] →
        (∀ k, k < 8 → k ≠ l → s.aggOf k = p.agg → s.carries k = true → (∀ j, j < 8 → s.aggOf j = p.agg → s.carries j = true → j = l ∨ j = k) →
          CompletesAt (.laneLoss t l) t s parts (F.LNK_FAILOVER_COUNT.addr :: words) fun u =>
            noted u ∧ u.lnk.partners = [(n, { p with lane := k })] ∧
            u.rd F.LNK_FAILOVER_COUNT = satN 20 (s.rd F.LNK_FAILOVER_COUNT + 1) ∧
            u.out = ((p.sent.filter fun m => decide (b.clk ≤ m.time + 4000)).reverse.map fun m =>
              Out.dlp n k m.typ m.seq m.payload)) ∧
        ((∀ j, j < 8 → j ≠ l → s.aggOf j = p.agg → s.carries j = false) →
          CompletesAt (.laneLoss t l) t s parts words fun u =>
            noted u ∧ u.lnk.partners = [(n, { p with st := .suspended })] ∧ u.out = [])))

/-- Training frames and Jig mode (R405 to R411): a frame whose copy inverts its control word counts when both ends report READY,
corrects polarity and lane order, steps each cursor by at most one within its limits, and is answered by a frame that
acknowledges each request; the device's own READY and requests are free values (log entry 3), no request of the code 11b. A
write of LNK_LCFG enters Jig mode, moves the word boundary by one bit of 66, leaves it, or is REFUSED. -/
def Obligations.LanesAreTrainedAndTested : Prop :=
  ∀ (s : State) (t l : Nat), l < 12 → let b := s.begin t
    let x := s.lane l
    let lw := (if x.stage.adapts && !s.flag (F.LNK_LCFG_ADAPTFRZ l) then [0xB103 + 32 * l, 0xB104 + 32 * l, 0xB105 + 32 * l] else []) ++
      (if s.checks l then [(F.LNK_PRBSERR_COUNT l).addr] else []) ++ (if x.stage.heads then [(F.LNK_LERR_COUNT l).addr] else [])
    let all := [0xB103 + 32 * l, 0xB104 + 32 * l, 0xB105 + 32 * l, (F.LNK_PRBSERR_COUNT l).addr, (F.LNK_LERR_COUNT l).addr]
    (∀ f : TrainFrame, x.stage = .train → s.laneDlp l = true → f.copy = ~~~f.word →
      let w := (if f.markerInv then f.copy else f.word).toNat
      let ready := decide (Config.freeValue s.free % 2 = 1)
      let swap := decide (8 ≤ l ∧ l % 2 = 0 ∧ bitsOf w 19 17 = 1)
      let pre := s.rd (F.LNK_TXFIR_PRE l)
      let main := s.rd (F.LNK_TXFIR_MAIN l)
      let post := s.rd (F.LNK_TXFIR_POST l)
      CompletesAt (.trainingFrame t l f) t s [.lnk, .out, .free] [(F.LNK_TXFIR_PRE l).addr] fun u =>
        u.lane l = { x with polinv := x.polinv != f.markerInv, ready := if bitOf w 15 && ready then x.ready + 1 else 0,
                            lswap := x.lswap || swap } ∧
        (swap = true → u.lane (l + 1) = { s.lane (l + 1) with lswap := true }) ∧
        (∀ k, k ≠ l → (swap = true → k ≠ l + 1) → u.lane k = s.lane k) ∧
        u.rd (F.LNK_TXFIR_PRE l) =
          (if bitsOf w 14 13 = 1 ∧ pre < 15 ∧ pre + main + post < 63 then pre + 1
           else if bitsOf w 14 13 = 2 then pre - 1 else pre) ∧
        (bitsOf w 14 13 ∉ [1, 2] →
          u.rd (F.LNK_TXFIR_MAIN l) =
            (if bitsOf w 12 11 = 1 ∧ pre + main + post < 63 then main + 1
             else if bitsOf w 12 11 = 2 ∧ 24 < main then main - 1 else main)) ∧
        (bitsOf w 14 13 ∉ [1, 2] → bitsOf w 12 11 ∉ [1, 2] →
          u.rd (F.LNK_TXFIR_POST l) =
            (if bitsOf w 10 9 = 1 ∧ post < 31 ∧ pre + main + post < 63 then post + 1
             else if bitsOf w 10 9 = 2 then post - 1 else post)) ∧
        let ack := fun (hi : Nat) (f : Fld) =>
          if bitsOf w hi (hi - 1) ∉ [1, 2] then 0 else if u.rd f = s.rd f then 2 else 1
        ∃ (own : Word) (seed : Nat), u.out = [.train l (trainBits own seed)] ∧
          bitsOf own.toNat 19 17 = (if 8 ≤ l then l % 2 else l) ∧ bitOf own.toNat 16 = decide (8 ≤ l) ∧
          bitOf own.toNat 15 = ready ∧
          bitsOf own.toNat 14 13 ≠ 3 ∧ bitsOf own.toNat 12 11 ≠ 3 ∧ bitsOf own.toNat 10 9 ≠ 3 ∧
          bitsOf own.toNat 8 7 = ack 14 (F.LNK_TXFIR_PRE l) ∧ bitsOf own.toNat 6 5 = ack 12 (F.LNK_TXFIR_MAIN l) ∧
          bitsOf own.toNat 4 3 = ack 10 (F.LNK_TXFIR_POST l)) ∧
    (∀ f : TrainFrame, x.stage ≠ .train ∨ s.laneDlp l = false ∨ f.copy ≠ ~~~f.word →
      Completes (.trainingFrame t l f) t s [] fun _ => True) ∧
    (∀ (w : Word) (c : Instr), s.portOpen → c = .jigWrite t l w ∨ c = .bitslip t l w →
      let a := 0xB100 + 32 * l
      let jig := bitsOf w.toNat 10 8
      let held := decide (x.stage ≠ .active)
      let barred := jig ≠ 0 ∧ (8 ≤ l ∧ s.lnk.joined = true ∨ l < 8 ∧ s.onlySafeLane l = true)
      (4 < jig ∨ barred ∨ bitOf w.toNat 6 = true ∧ (x.stage ≠ .jig ∨ jig = 0 ∨ bitOf w.toNat 7 = false) →
        Completes c t s [.mgmt] fun u => s.answered u a .refused) ∧
      (x.stage = .jig → 0 < jig → jig ≤ 4 → ¬barred → (bitOf w.toNat 6 = true → bitOf w.toNat 7 = true) →
        CompletesAt c t s [.mgmt, .lnk, .free] (a :: lw) fun u =>
          s.answered u a .ok ∧ u.word a = b.mixed a w ∧
          u.lane l = { x with slip := if bitOf w.toNat 6 then (x.slip + 1) % 66 else x.slip }) ∧
      (x.stage ≠ .jig → 0 < jig → jig ≤ 4 → ¬barred → bitOf w.toNat 6 = false → l < 8 ∧ s.homed l = [] ∨ 8 ≤ l ∧ x.stage ≠ .active →
        CompletesAt c t s (.free :: evParts) (a :: (F.LNK_LLOSS_COUNT l).addr :: evWords ++ all) fun u =>
          s.answered u a .ok ∧ u.word a = b.mixed a w ∧ b.told u 0x42 .fault l ∧
          u.lane l = { x with stage := .jig, since := b.clk, ready := 0, polinv := x.polinv && held, lswap := x.lswap && held,
                              slip := 0 }) ∧
      (jig = 0 → bitOf w.toNat 6 = false →
        (x.stage = .jig → CompletesAt c t s [.mgmt, .lnk, .free] (a :: all) fun u =>
          s.answered u a .ok ∧ u.word a = b.mixed a w ∧
          u.lane l = { x with stage := if u.laneOn l && s.lanesRun then .detect else .off, since := b.clk, ready := 0 }) ∧
        (x.stage ≠ .jig → CompletesAt c t s [.mgmt, .free] (a :: lw) fun u => s.answered u a .ok ∧ u.word a = b.mixed a w)))

/-- Messages of partners (R413 to R415, R419): a message whose length and CRC hold is read as it was written; CRC, SEQ and TYPE
are checked in order and each failure is counted; an accepted one sets the SEQ reference and refreshes the keepalive timer,
which is all that KEEPALIVE does. That a message which names an entry of another lane is ignored is the model's reading (log
entry 87). -/
def Obligations.MessagesOfPartnersAreChecked : Prop :=
  (∀ (eth : Bool) (h : Word) (seq : Nat) (payload : List Word), seq < 2 ^ 20 → payload.length ≤ (if eth then 583 else 8192) →
    let body := [h, BitVec.ofNat 20 payload.length, BitVec.ofNat 20 seq] ++ payload
    Dlp.parse eth (body ++ wordsOf (crcA (streamBits body)) 2) =
      some ⟨bitsOf h.toNat 19 12, bitsOf h.toNat 11 6, seq, payload⟩) ∧
  ∀ (s : State) (t l : Nat) (src : EthSrc) (msg : List Word),
    let counts := fun (c : Instr) (f : Fld) => CompletesAt c t s [] [f.addr] fun u => u.rd f = satN 20 (s.rd f + 1)
    (∀ c typ, (c, typ) ∈ [(Instr.select t l src msg, 3), (.keepalive t l src msg, 4), (.bye t l src msg, 5), (.sub t l src msg, 6),
        (.accept t l src msg, 0x14), (.commit t l src msg, 0x15)] →
      (8 ≤ l ∨ s.carries l = false → Completes c t s [] fun _ => True) ∧
      (l < 8 → s.carries l = true →
        (Dlp.parse (s.laneEth l) msg = none → counts c F.LNK_MSGCRC_COUNT) ∧
        (∀ m, Dlp.parse (s.laneEth l) msg = some m → let p := s.ptn m.ptn
          (s.senderOk l src p = false → Completes c t s [] fun _ => True) ∧
          (s.senderOk l src p = true →
            (∀ r, p.rxSeq = some r → newer m.seq r = false → counts c F.LNK_DUPSEQ_COUNT) ∧
            ((∀ r, p.rxSeq = some r → newer m.seq r = true) →
              (p.allows m.typ = false → counts c F.LNK_BADMSG_COUNT) ∧
              (p.allows m.typ = true → m.typ ≠ typ → Completes c t s [] fun _ => True)))))) ∧
    (∀ m, l < 8 → s.carries l = true → Dlp.parse (s.laneEth l) msg = some m → m.typ = 4 → let p := s.ptn m.ptn
      s.senderOk l src p = true → (∀ r, p.rxSeq = some r → newer m.seq r = true) →
        Completes (.keepalive t l src msg) t s [.lnk] fun u =>
          u.lnk = (s.setPtn m.ptn { p with rxSeq := some m.seq, rxAt := (s.begin t).clk }).lnk)

/-- HELLO, SELECT and SUB (R416 to R418): CAPS offers a version and names the lowest free entry, or answers BUSY or NOROOM; the
same partner's entry closes and is used again. A SELECT at the offered major and no higher minor makes the entry ACTIVE, another
one is answered VERSION. SUB grants the enabled streams, and COMP where every one of them has a context. -/
def Obligations.PartnersJoinSelectAndSubscribe : Prop :=
  ∀ (s : State) (t l : Nat) (src : EthSrc) (msg : List Word) (m : Dlp), l < 8 → s.carries l = true →
    Dlp.parse (s.laneEth l) msg = some m → let b := s.begin t
    let eth := s.laneEth l
    let tag : BitVec 32 := if eth then src.ip else BitVec.ofNat 32 (m.payload.headD 0).toNat
    let port : BitVec 16 := if eth then src.port else 0
    let same := fun (p : Partner) => p.agg = s.aggOf l ∧ p.tag = tag ∧ p.port = port
    let offers := fun (maj mi : Nat) => ∃ w, w ∈ (m.payload.drop 1).take 4 ∧ bitsOf w.toNat 19 16 = maj ∧ bitsOf w.toNat 15 12 = mi
    let best := fun (maj top v : Nat) => (∃ i, offers maj i ∧ v = min i top) ∧ ∀ i, offers maj i → min i top ≤ v
    (m.typ = 1 →
      (s.ready = false → Completes (.hello t l src msg) t s [.out] fun u => u.out = [.capsNone l 1]) ∧
      (s.ready = true → (∀ e, e ∈ s.lnk.partners → ¬same e.2) → (∀ k, k < 64 → (s.ptn k).st ≠ .free) →
        CompletesAt (.hello t l src msg) t s [.out] [F.LNK_NOROOM_COUNT.addr] fun u =>
          u.out = [.capsNone l 8] ∧ u.rd F.LNK_NOROOM_COUNT = satN 20 (s.rd F.LNK_NOROOM_COUNT + 1)) ∧
      (∀ n, n < 64 → s.ready = true → (∀ e, e ∈ s.lnk.partners → ¬same e.2) → (s.ptn n).st = .free →
        (∀ k, k < n → (s.ptn k).st ≠ .free) →
        Completes (.hello t l src msg) t s [.lnk, .out] fun u => let q := u.ptn n
          q.st = .caps ∧ same q ∧ q.eth = eth ∧ q.lane = (s.homeLane (s.aggOf l)).getD l ∧ q.maj = 0 ∧ q.subs = 0 ∧ q.rxSeq = none ∧
          q.rxAt = b.clk ∧ q.txSeq = 1 ∧ (∀ k, k ≠ n → u.ptn k = s.ptn k) ∧
          ((∃ i, offers 2 i) → q.offMaj = 2 ∧ best 2 3 q.offMin) ∧
          ((∀ i, ¬offers 2 i) → (∃ i, offers 1 i) → q.offMaj = 1 ∧ best 1 4 q.offMin) ∧
          ((∀ i, ¬offers 2 i) → (∀ i, ¬offers 1 i) → q.offMaj = 2 ∧ q.offMin = 3) ∧
          u.out.getLast? = some (.dlp n q.lane 0x02 0 [mkWord [(16, 0), (6, n)], mkWord [(16, q.offMaj), (12, q.offMin)], s.word 0,
            mkWord [(15, s.lnk.pos), (14, b2n s.lnk.joined)]])) ∧
      (∀ n p, s.ready = true → s.lnk.partners = [(n, p)] → same p →
        CompletesAt (.hello t l src msg) t s [.mgmt, .saf, .fso, .cmp, .lnk, .out] evWords fun u =>
          (u.ptn n).st = .caps ∧ (u.ptn n).maj = 0 ∧ (u.ptn n).rxSeq = none ∧ (u.ptn n).txSeq = 1 ∧ b.told u 0x41 .info n)) ∧
    (∀ p, p = s.ptn m.ptn →
      s.senderOk l src p = true → (∀ r, p.rxSeq = some r → newer m.seq r = true) → p.allows m.typ = true →
        let p' := { p with rxSeq := some m.seq, rxAt := b.clk }
        let w := (m.payload.headD 0).toNat
        (m.typ = 3 →
          (p.st ≠ .caps → Completes (.select t l src msg) t s [.lnk] fun u => u.lnk = (s.setPtn m.ptn p').lnk) ∧
          (p.st = .caps → bitsOf w 19 16 = p.offMaj → bitsOf w 15 12 ≤ p.offMin →
            CompletesAt (.select t l src msg) t s evParts evWords fun u =>
              (u.ptn m.ptn).st = .active ∧ (u.ptn m.ptn).maj = p.offMaj ∧ (u.ptn m.ptn).min = bitsOf w 15 12 ∧
              b.told u 0x40 .info m.ptn ∧ (u.lane l).stage = .active ∧
              ((s.lane l).stage = .caps → (u.lane l).since = b.clk) ∧ ((s.lane l).stage = .active → u.lane l = s.lane l)) ∧
          (p.st = .caps → (bitsOf w 19 16 ≠ p.offMaj ∨ p.offMin < bitsOf w 15 12) →
            CompletesAt (.select t l src msg) t s [.lnk, .out] [F.LNK_VERSION_COUNT.addr] fun u =>
              (u.ptn m.ptn).st = .caps ∧ (u.ptn m.ptn).maj = p.maj ∧ (u.ptn m.ptn).cstat = 6 ∧
              u.rd F.LNK_VERSION_COUNT = satN 20 (s.rd F.LNK_VERSION_COUNT + 1) ∧
              u.out = [.dlp m.ptn p.lane 0x02 p.txSeq [mkWord [(16, 6), (6, m.ptn)], mkWord [(16, p.offMaj), (12, p.offMin)], s.word 0,
                mkWord [(15, s.lnk.pos), (14, b2n s.lnk.joined)]]])) ∧
        (m.typ = 6 →
          let granted := fun (q : Partner) => q.subs < 16 ∧ ∀ k, k < 4 → bitOf q.subs k = (bitOf w (16 + k) && s.streamOn k)
          let answers := fun (u : State) (comp : Bool) (st : Nat) => let q := u.ptn m.ptn
            granted q ∧ q.comp = comp ∧ q.evt = (bitOf w 14 && p.atLeast 1 2) ∧
            q.safSub = (bitOf w 13 && p.atLeast 2 2 && p.safe) ∧
            u.out = [.dlp m.ptn p.lane 0x07 p.txSeq [mkWord [(16, st), (12, q.subs), (11, b2n comp)]]]
          let wants := bitOf w 15 && p.atLeast 2 0
          (wants = false → Completes (.sub t l src msg) t s [.cmp, .lnk, .out] fun u => answers u false 0) ∧
          (wants = true → (∀ k, k < 4 → bitOf w (16 + k) = true → s.streamOn k = true → (s.streamCtx k).isSome = true) →
            Completes (.sub t l src msg) t s [.cmp, .lnk, .out] fun u => answers u true 0) ∧
          (∀ k, k < 4 → wants = true → bitOf w (16 + k) = true → s.streamOn k = true → s.streamCtx k = none →
            (∀ j, j < 16 → (s.ctx j).used = true) →
            Completes (.sub t l src msg) t s [.cmp, .lnk, .out] fun u => answers u false 8)))

/-- BYE, the keepalive bounds, ACCEPT and COMMIT (R350, R354, R355, R419): a closed entry is unsubscribed, and FREE at once or
when the frame in progress has been sent; KEEPALIVE goes to a partner after KATMO/4 of silence. An acceptance is noted and
completes a flip that waited for it alone; a commit that the FSO permits is pending, and COMMITRSP names the frame that will
carry it. -/
def Obligations.PartnersLeaveAcceptAndCommit : Prop :=
  ∀ (s : State) (t : Nat), let b := s.begin t
    let heard := fun (l : Nat) (src : EthSrc) (msg : List Word) (m : Dlp) =>
      l < 8 ∧ s.carries l = true ∧ Dlp.parse (s.laneEth l) msg = some m ∧ s.senderOk l src (s.ptn m.ptn) = true ∧
      (∀ r, (s.ptn m.ptn).rxSeq = some r → newer m.seq r = true) ∧ (s.ptn m.ptn).allows m.typ = true
    let closes := fun (c : Instr) (n : Nat) =>
      (s.inScan n = false →
        CompletesAt c t s [.mgmt, .saf, .fso, .cmp, .lnk, .out] evWords fun u => (u.ptn n).st = .free ∧ b.told u 0x41 .info n) ∧
      (s.inScan n = true →
        Completes c t s [.fso, .cmp, .lnk] fun u =>
          (u.ptn n).closing = true ∧ (u.ptn n).st = (s.ptn n).st ∧ (u.ptn n).subs = 0 ∧ (u.ptn n).evt = false ∧
          (u.ptn n).safSub = false ∧ (u.ptn n).evq = [] ∧ ∀ k, k < 4 → n ∉ (u.stream k).accs)
    (∀ l src msg m, heard l src msg m → m.typ = 5 → closes (.bye t l src msg) m.ptn) ∧
    (∀ n, let p := s.ptn n
      let bound := p.rxAt + 1000000 * s.rd F.LNK_KATMO_KATMO
      (p.st ≠ .free → p.closing = false → bound ≤ b.clk → closes (.keepaliveTimeout t n) n) ∧
      (p.st = .free ∨ p.closing = true ∨ b.clk < bound → Completes (.keepaliveTimeout t n) t s [] fun _ => True) ∧
      (s.canSend n = true → 1000000 * s.rd F.LNK_KATMO_KATMO ≤ 4 * (b.clk - p.txAt) →
        Completes (.keepaliveSend t n) t s [.lnk, .out] fun u =>
          u.out = [.dlp n p.lane 0x04 p.txSeq []] ∧ (u.ptn n).txSeq = (p.txSeq + 1) % 2 ^ 20 ∧ (u.ptn n).txAt = b.clk ∧
          (u.ptn n).rxAt = p.rxAt ∧ (u.ptn n).st = p.st) ∧
      (s.canSend n = false ∨ 4 * (b.clk - p.txAt) < 1000000 * s.rd F.LNK_KATMO_KATMO →
        Completes (.keepaliveSend t n) t s [] fun _ => True)) ∧
    (∀ l src msg m, heard l src msg m → m.typ = 0x14 → let n := bitsOf (m.payload.headD 0).toNat 19 16
      let x := s.stream n
      (4 ≤ n → Completes (.accept t l src msg) t s [.lnk] fun _ => True) ∧
      (n < 4 → x.waitAt = none →
        Completes (.accept t l src msg) t s [.lnk, .fso] fun u =>
          u.fso = (s.setStream n { x with accs := if m.ptn ∈ x.accs then x.accs else m.ptn :: x.accs }).fso) ∧
      (∀ k, n < 4 → x.waitAt.isSome = true → s.missing n = ([m.ptn], false) → x.find .ready = some k → x.scan = none →
        Completes (.accept t l src msg) t s [.regs, .fso, .cmp, .lnk, .out] fun u =>
          (u.stream n).waitAt = none ∧ (u.stream n).accs = [] ∧ ((u.stream n).slot k).st = .scan ∧
          ((u.stream n).slot k).tflip = b.now ∧ ((u.stream n).scan.map Scan.slot) = some k)) ∧
    (∀ l src msg m, heard l src msg m → m.typ = 0x15 → let n := bitsOf (m.payload.headD 0).toNat 19 16
      let p := s.ptn m.ptn
      let w := (List.range 11).map fun i => defMask i (m.payload.getD (i + 1) 0)
      let fr := s.fso.fcnt + (if s.fso.latched then 2 else 1)
      (n < 4 → s.judgeDef n w = .ok → (∀ d, (s.stream n).pend = some d → d.partner = true ∨ d.at0 ≠ b.clk) →
        Completes (.commit t l src msg) t s [.lnk, .fso, .out] fun u =>
          let older := match (s.stream n).pend with
            | none => none
            | some d => if d.at0 = b.clk then d.older else some (d.defn, d.frame)
          u.fso = (s.setStream n { s.stream n with pend := some ⟨w, true, fr, b.clk, older⟩ }).fso ∧
          u.out = [.dlp m.ptn p.lane 0x16 p.txSeq (mkWord [(16, 0), (15, b2n s.fso.latched)] :: wordsOf fr 3)]) ∧
      (4 ≤ n ∨ n < 4 ∧ s.judgeDef n w ≠ .ok →
        Completes (.commit t l src msg) t s [.lnk, .out] fun u =>
          ∃ v, u.out = [.dlp m.ptn p.lane 0x16 p.txSeq (v :: wordsOf 0 3)] ∧
            bitsOf v.toNat 19 16 = if 4 ≤ n then 2 else (s.judgeDef n w).toNat))

/-- The chain's members (R236, R413, R428, R430): a chain message is dropped unless its port is ACTIVE, its CRC holds and its
SEQ is newer; a member joins at its neighbour's position + 1, below 32, and sends PARAMS; on PARAMS the slots, those of the
chain head by what the neighbour holds of it (log entry 108), and the Dovetail widths are compared, and a member whose upstream
neighbour is no longer joined leaves. -/
def Obligations.ChainMembersJoinCompareAndLeave : Prop :=
  ∀ (s : State) (t : Nat), let b := s.begin t
    let cfg := F.CTL_SLOT_STAT_CONFLICT.addr :: evWords
    let some? := fun (o : Option ChainParams) (P : ChainParams → Prop) => ∃ q, o = some q ∧ P q
    let clash := fun (q : ChainParams) => q.mask &&& s.slotMask ≠ 0
    let dvx := s.flag F.CTL_DOVE_DVX
    let compared := fun (u : State) (up dn : Option ChainParams) =>
      (u.flag F.CTL_SLOT_STAT_UPCONF = true ↔ some? up fun q =>
        (if q.pos = 0 then q.slotn else q.headn) ≠ s.rd F.CTL_SLOT_CFG_SLOTN ∨
        (if q.pos = 0 then q.slotlen else q.headlen) ≠ s.rd F.CTL_SLOT_LEN_LEN ∨ clash q) ∧
      (u.flag F.CTL_SLOT_STAT_DNCONF = true ↔ some? dn clash) ∧
      (u.flag F.CTL_SLOT_STAT_CONFLICT = true ↔
        u.flag F.CTL_SLOT_STAT_UPCONF = true ∨ u.flag F.CTL_SLOT_STAT_DNCONF = true) ∧
      (u.flag F.CTL_SLOT_STAT_CONFLICT = true →
        b.told u 0x0C .warn (b2n (u.flag F.CTL_SLOT_STAT_UPCONF) + 2 * b2n (u.flag F.CTL_SLOT_STAT_DNCONF))) ∧
      (u.flag F.CTL_SLOT_STAT_CONFLICT = false → b.silent u) ∧
      (u.lnk.dvUp = true ↔ some? up fun q => ¬(dvx = true ∧ q.dvx = true ∧ q.dr = s.rd F.CTL_DOVE_DL)) ∧
      (u.lnk.dvDn = true ↔ some? dn fun q => ¬(dvx = true ∧ q.dvx = true ∧ q.dl = s.rd F.CTL_DOVE_DR))
    (∀ (h : ChainHdr) (c : Instr),
      (∃ p, c = .params t h p) ∨ c = .probe t h ∨ (∃ a r x o, c = .echo t h a r x o) ∨ (∃ a d o, c = .timeset t h a d o) ∨
        (∃ a g x e, c = .batten t h a g x e) ∨ (∃ n v a f, c = .tbedge t h n v a f) ∨ (∃ r, c = .dove t h r) →
      (s.portUp h.side = false → Completes c t s [] fun _ => True) ∧
      (s.portUp h.side = true → h.crcOk = false → CompletesAt c t s [] [F.LNK_MSGCRC_COUNT.addr] fun u =>
        u.rd F.LNK_MSGCRC_COUNT = satN 20 (s.rd F.LNK_MSGCRC_COUNT + 1)) ∧
      (∀ r, s.portUp h.side = true → h.crcOk = true → (s.neigh h.side).rxSeq = some r → newer h.seq r = false →
        CompletesAt c t s [] [F.LNK_DUPSEQ_COUNT.addr] fun u =>
          u.rd F.LNK_DUPSEQ_COUNT = satN 20 (s.rd F.LNK_DUPSEQ_COUNT + 1))) ∧
    (s.isHead = true ∨ s.lnk.joined = true ∨ s.portUp .up = false ∨ s.joinedNeigh .up = none →
      Completes (.chainJoin t) t s [] fun _ => True) ∧
    (∀ p, s.isHead = false → s.lnk.joined = false → s.portUp .up = true → s.joinedNeigh .up = some p →
      (31 ≤ p.pos → s.lnk.full = true → Completes (.chainJoin t) t s [] fun _ => True) ∧
      (31 ≤ p.pos → s.lnk.full = false → CompletesAt (.chainJoin t) t s evParts evWords fun u =>
        u.lnk.full = true ∧ u.lnk.joined = false ∧ b.told u 0x43 .fault 0) ∧
      (p.pos < 31 → s.tbu.chainE = none → CompletesAt (.chainJoin t) t s (.tbu :: evParts) cfg fun u =>
        u.lnk.joined = true ∧ u.lnk.pos = p.pos + 1 ∧ u.lnk.full = false ∧ compared u (some p) (s.joinedNeigh .down) ∧
        u.tbu = { s.tbu with rejoin := true, tsLost := false } ∧
        ∃ ws rest, u.out = .chain .up 0x62 s.lnk.up.txSeq ((8 * 2 ^ 12 + (p.pos + 1) * 2 ^ 7) :: ws) :: rest) ∧
      (∀ e, p.pos < 31 → s.tbu.chainE = some e → s.ready = false →
        Completes (.chainJoin t) t s [.tofs, .regs, .mgmt, .seq, .stu, .saf, .cap, .fso, .lnk, .tbu, .out] fun u =>
          u.lnk.joined = true ∧ u.lnk.pos = p.pos + 1 ∧ u.tofs = s.tofs + e.tdiv 256 ∧ u.tbu.rejoin = false ∧ u.tbu.tsLost = false)) ∧
    (∀ (h : ChainHdr) (p : ChainParams), s.portUp h.side = true → h.crcOk = true →
      (∀ r, (s.neigh h.side).rxSeq = some r → newer h.seq r = true) →
      let got := fun (u : State) => (u.neigh h.side).params = some p ∧ (u.neigh h.side).rxSeq = some (h.seq % 2 ^ 20)
      let now := if p.joined then some p else none
      (s.lnk.joined = false → Completes (.params t h p) t s [.lnk] got) ∧
      (s.lnk.joined = true → s.isHead = false → h.side = .up → p.joined = false →
        CompletesAt (.params t h p) t s (.tbu :: evParts) evWords fun u =>
          got u ∧ u.lnk.joined = false ∧ u.lnk.pos = 0 ∧ u.tbu = { s.tbu with tsLost := true, rejoin := false } ∧
          b.told u 0x44 .fault 0) ∧
      (s.lnk.joined = true → (s.isHead = true ∨ h.side = .down ∨ p.joined = true) →
        CompletesAt (.params t h p) t s evParts cfg fun u =>
          got u ∧ u.lnk.joined = true ∧ u.lnk.pos = s.lnk.pos ∧
          (h.side = .up → compared u now (s.joinedNeigh .down)) ∧ (h.side = .down → compared u (s.joinedNeigh .up) now) ∧
          (p.joined = true → s.joinedNeigh h.side = none → ∃ q ws, Out.chain h.side 0x62 q ws ∈ u.out)))

/-- Chain time, Battens and Dovetail records (R73, R75, R347, R430 to R432, R435, R453): PROBE goes upstream about every 125 µs
and is answered by ECHO with the head's time as the device holds it, whose hold time is a free value (log entry 3); ECHO gives
the hop's delay, the mean of the last 64, the sum of the hops and the time error; TIMESET is forwarded and pending, or applied
at once when its instant has passed; BATTEN is forwarded and pending, dropped where none can be taken, or in effect at once, and
late, when its Te has passed; a neighbour's record writes the NEIGHBOUR Veneers of the open frame at its local column, or counts
in FSO_DVLATE. -/
def Obligations.ChainTimeAndRecordsAreExchanged : Prop :=
  ∀ (s : State) (t : Nat), let b := s.begin t
    (s.isHead = true ∨ s.portUp .up = false ∨ b.clk < s.lnk.probeAt + 125000 → Completes (.probeSend t) t s [] fun _ => True) ∧
    (s.isHead = false → s.portUp .up = true → s.lnk.probeAt + 125000 ≤ b.clk →
      Completes (.probeSend t) t s [.lnk, .out] fun u =>
        u.out = [.chain .up 0x60 s.lnk.up.txSeq []] ∧ u.lnk.probeAt = b.clk ∧ u.lnk.up.txSeq = (s.lnk.up.txSeq + 1) % 2 ^ 20) ∧
    (∀ h : ChainHdr, s.portUp h.side = true → h.crcOk = true → (∀ r, (s.neigh h.side).rxSeq = some r → newer h.seq r = true) →
      (h.side = .up → Completes (.probe t h) t s [.lnk] fun _ => True) ∧
      (h.side = .down → (s.isHead = true ∨ s.lnk.joined = true) → Completes (.probe t h) t s [.lnk, .out, .free] fun u =>
        ∃ hold, u.out = [.chain .down 0x61 s.lnk.down.txSeq [hold, b.chainNow, s.rdWide 0xB007 2]]) ∧
      (h.side = .down → s.isHead = false → s.lnk.joined = false → Completes (.probe t h) t s [.lnk, .free] fun _ => True) ∧
      (∀ hold rtt head ofs,
        (h.side = .down ∨ s.isHead = true → Completes (.echo t h hold rtt head ofs) t s [.lnk] fun _ => True) ∧
        (h.side = .up → s.isHead = false → s.lnk.joined = false →
          CompletesAt (.echo t h hold rtt head ofs) t s [.lnk, .tbu] [F.LNK_HOPD_D.addr, 0xB007, 0xB008] fun u =>
            let d : Int := ((rtt : Int) - hold + s.rdZ F.LNK_HOPASYM_ASYM) / 2
            let hops := (d :: s.lnk.hops).take 64
            let mean : Int := (2 * hops.sum + hops.length) / (2 * hops.length)
            u.lnk.hops = hops ∧ u.lnk.upOfs = ofs ∧ u.rd F.LNK_HOPD_D = unsigned 20 mean ∧
            u.rdWide 0xB007 2 = unsigned 40 (ofs + mean) ∧
            u.tbu = { s.tbu with chainE := some ((head : Int) + d - 256 * b.now) }) ∧
        (h.side = .up → s.isHead = false → s.lnk.joined = true → s.tbu.rejoin = false →
          CompletesAt (.echo t h hold rtt head ofs) t s [.lnk, .tbu, .free]
            [F.LNK_HOPD_D.addr, 0xB007, 0xB008, F.TBU_TERR_E.addr, F.TBU_FOFS_FOFS.addr] fun u =>
            u.lnk.upOfs = ofs ∧ (s.tbu.slewing = true ∨ s.tbu.tsLost = true → u.rd F.TBU_FOFS_FOFS = s.rd F.TBU_FOFS_FOFS))) ∧
      (∀ (at0 : Nat) (delta : Int) (origin : Nat),
        (h.side = .down ∨ s.lnk.joined = false ∨ s.isHead = true →
          Completes (.timeset t h at0 delta origin) t s [.lnk] fun _ => True) ∧
        (h.side = .up → s.lnk.joined = true → s.isHead = false →
          (b.now ≤ at0 →
            CompletesAt (.timeset t h at0 delta origin) t s [.lnk, .tbu, .out] [0x100D, 0x100E, 0x100F, 0x1010, 0x1011] fun u =>
              u.tbu.snaps = s.tbu.snaps ++ [{ time := at0, delta := delta, origin := origin }] ∧
              u.rdWide 0x100D 3 = at0 % 2 ^ 60 ∧ u.rdWide 0x1010 2 = unsigned 40 delta ∧
              (s.portUp .down = false → u.out = []) ∧
              (s.portUp .down = true → u.out = [.chain .down 0x66 s.lnk.down.txSeq
                ((wordsOf at0 3 ++ wordsOf (unsigned 40 delta) 2).map BitVec.toNat ++ [origin * 2 ^ 15])])) ∧
          (at0 < b.now →
            Completes (.timeset t h at0 delta origin) t s [.tofs, .regs, .mgmt, .seq, .stu, .saf, .cap, .fso, .lnk, .tbu, .out]
              fun u => u.tofs = s.tofs + delta ∧ u.fso.timejump = true ∧ u.saf.snapD = delta))) ∧
      (∀ (sync pg : Bool) (arg te : Nat),
        let run := fun ps P => Completes (.batten t h sync pg arg te) t s (.lnk :: ps) P
        let live := (s.seq.st = .run ∨ s.seq.st = .syncwait) ∧ s.seq.batten = none
        let late := fun (u : State) => u.rdWide 0x0110 3 = te % 2 ^ 60 ∧ b.told u 0x07 .warn 0
        let sent := fun (u : State) => s.portUp .down = true →
          Out.chain .down 0x63 s.lnk.down.txSeq [b2n sync, b2n pg, arg, te] ∈ u.out
        (h.side = .down ∨ s.lnk.joined = false ∨ s.isHead = true → run [] fun _ => True) ∧
        (h.side = .up → s.lnk.joined = true → s.isHead = false →
          (live → b.now ≤ te → run [.seq, .out] fun u =>
            sent u ∧ u.seq = { s.seq with batten := some ⟨sync, pg, arg, te⟩ }) ∧
          (s.seq.batten.isSome = true ∨ s.seq.st = .idle ∨ s.seq.st = .halted → run (.regs :: evParts) fun u =>
            sent u ∧ u.seq = s.seq ∧ b.told u 0x06 .warn 0) ∧
          (live → te < b.now → sync = true → run (.regs :: .seq :: evParts) fun u =>
            sent u ∧ late u ∧ u.seq = if s.seq.st = .syncwait ∧ s.seq.syncSrc = 4 ∧ s.seq.syncArg = arg ∧ s.seq.syncHit = none ∧
              s.seq.syncIssue < b.now then { s.seq with syncHit := some b.now } else s.seq) ∧
          (live → te < b.now → sync = false → pg = s.seq.actB → run (.regs :: .seq :: evParts) fun u =>
            sent u ∧ late u ∧ u.seq = { s.seq with st := .run, syncHit := none, cursor := b.now,
                                                   next := if arg < s.seq.active.count then arg else 0 }) ∧
          (live → te < b.now → sync = false → pg ≠ s.seq.actB → s.seq.loading = some pg → run (.regs :: .seq :: evParts) fun u =>
            sent u ∧ late u ∧ u.seq = { s.seq with st := .run, syncHit := none, deferred := some (pg, arg, true),
                                                   cursor := if s.seq.st = .syncwait then b.now else s.seq.cursor }) ∧
          (live → te < b.now → sync = false → pg ≠ s.seq.actB → s.seq.loading ≠ some pg →
            run [.regs, .mgmt, .seq, .rta, .rpe, .saf, .cap, .out] fun u =>
              u.seq.st = .run ∧ u.seq.actB = pg ∧ u.seq.next = (if arg < (s.seq.pageOf pg).count then arg else 0) ∧ u.seq.cursor = b.now ∧ u.seq.batten = none))) ∧
      (∀ record : List Word,
        let w := fun i => (record.getD i 0).toNat
        let col := bitsOf (w 1) 7 0
        let line := bitsOf (w 1) 19 8
        let dl := s.rd F.CTL_DOVE_DL
        let dr := s.rd F.CTL_DOVE_DR
        let strong := bitsOf (w 0) 8 7
        (s.doveWith h.side = false → Completes (.dove t h record) t s [.lnk] fun _ => True) ∧
        (∀ c, s.doveWith h.side = true →
          (h.side = .up ∧ (∃ p, s.lnk.up.params = some p ∧ p.ncol - dl ≤ col ∧ col < p.ncol - dl + dl ∧ c = col - (p.ncol - dl)) ∨
            h.side = .down ∧ col < dr ∧ c = 256 - dr + col) →
          (s.fso.frameOpen = false ∨ s.nlines ≤ line →
            CompletesAt (.dove t h record) t s [.lnk] [F.FSO_DVLATE_COUNT.addr] fun u =>
              u.rd F.FSO_DVLATE_COUNT = satN 20 (s.rd F.FSO_DVLATE_COUNT + 1)) ∧
          (∀ n k, s.fso.frameOpen = true → line < s.nlines → n < 4 → (s.stream n).find .asm = some k →
            (∀ m, m < 4 → m ≠ n → (s.stream m).find .asm = none) → inWindow ((s.stream n).slot k).defn line c = true →
            Completes (.dove t h record) t s [.lnk, .fso] fun u =>
              ∀ v, v ∈ vens ((s.stream n).slot k).defn → venKind ((s.stream n).slot k).defn v = 12 →
                assoc ((u.stream n).slot k).pix (pixKey v line c) =
                  some (if bitsOf (w 0) 11 9 ≤ strong then noValue
                        else (record[8 + 6 * strong + (if defScale ((s.stream n).slot k).defn then 3 else 2)]?).getD noValue)))))

/-- Ethernet mode beside DLP (R425, R427, R450 to R452, R460): ARP requests for the lane's address are answered, replies enter a
cache of 64 a lane, a request is repeated after 100 ms up to three times; echo requests are answered; PTP selects the best
master, and a Sync with a known path delay gives a time error, the first four of which set device time before READY. How the
time loop corrects is a free value (log entry 3). -/
def Obligations.NetworkMessagesAreAnswered : Prop :=
  ∀ (s : State) (t l : Nat), let b := s.begin t
    let p := s.lnk.ptp
    (∀ ip target mac,
      (s.ethUp l = true → target = s.laneIp l →
        Completes (.arpRequest t l ip target mac) t s [.out] fun u => u.out = [.arpReply l ip mac]) ∧
      (s.ethUp l = false ∨ target ≠ s.laneIp l → Completes (.arpRequest t l ip target mac) t s [] fun _ => True)) ∧
    (∀ ip mac,
      (s.ethUp l = false → Completes (.arpReply t l ip mac) t s [] fun _ => True) ∧
      (s.ethUp l = true → Completes (.arpReply t l ip mac) t s [.lnk] fun u =>
        u.lnk.arp.head? = some (l, ip, mac) ∧ (u.lnk.arp.filter fun e => e.1 == l).length ≤ 64 ∧
        (∀ e, e.1 ≠ l → (e ∈ u.lnk.arp ↔ e ∈ s.lnk.arp)) ∧
        (∀ e, e ∈ u.lnk.arp → e.1 = l → e = (l, ip, mac) ∨ e ∈ s.lnk.arp ∧ e.2.1 ≠ ip) ∧
        ((s.lnk.arp.filter fun e => e.1 == l).length < 64 → ∀ e, e ∈ s.lnk.arp → e.2.1 ≠ ip → e ∈ u.lnk.arp) ∧
        ∀ r, r ∈ u.lnk.arpReqs ↔ r ∈ s.lnk.arpReqs ∧ ¬(r.lane = l ∧ r.ip = ip))) ∧
    (∀ r : ArpReq, s.lnk.arpReqs = [r] → r.lane = l →
      (b.clk < r.at0 + 100000000 → Completes (.arpRequestTimeout t l r.ip) t s [] fun _ => True) ∧
      (r.at0 + 100000000 ≤ b.clk → r.tries < 3 → s.ethUp l = true →
        Completes (.arpRequestTimeout t l r.ip) t s [.lnk, .out] fun u =>
          u.lnk = { s.lnk with arpReqs := [{ r with tries := r.tries + 1, at0 := b.clk }] } ∧ u.out = [.arpRequest l r.ip]) ∧
      (r.at0 + 100000000 ≤ b.clk → 3 ≤ r.tries ∨ s.ethUp l = false →
        Completes (.arpRequestTimeout t l r.ip) t s [.lnk] fun u => u.lnk = { s.lnk with arpReqs := [] })) ∧
    (∀ ip payload,
      (s.ethUp l = true → payload.length ≤ 1472 →
        Completes (.icmpEchoRequest t l ip payload) t s [.out] fun u => u.out = [.icmpReply l ip payload]) ∧
      (s.ethUp l = false ∨ 1472 < payload.length → Completes (.icmpEchoRequest t l ip payload) t s [] fun _ => True)) ∧
    (∀ d, let serves := s.ethUp l = true ∧ s.isHead = true ∧ s.flag F.LNK_CFG_PTPEN = true ∧ l = s.rd F.LNK_CFG_PTPLANE ∧
        d = s.rd F.LNK_CFG_PTPDOM
      (¬serves → ∀ c, (∃ x, c = Instr.ptpAnnounce t l d x) ∨ (∃ k m a, c = .ptpSync t l d k m a) ∨
          (∃ x y, c = .ptpDelayResp t l d x y) → Completes c t s [] fun _ => True) ∧
      (serves →
        (∀ x, p.best = none → Completes (.ptpAnnounce t l d x) t s [.lnk] fun u =>
          u.lnk = { s.lnk with ptp := { p with best := some x } }) ∧
        (∀ pre x xs y ys, p.best = some (pre ++ y :: ys) →
          (x < y → Completes (.ptpAnnounce t l d (pre ++ x :: xs)) t s [.lnk] fun u =>
            u.lnk = { s.lnk with ptp := { p with best := some (pre ++ x :: xs) } }) ∧
          (y < x → Completes (.ptpAnnounce t l d (pre ++ x :: xs)) t s [] fun _ => True)) ∧
        (∀ dep arr,
          (p.ms = none → Completes (.ptpDelayResp t l d dep arr) t s [] fun _ => True) ∧
          (∀ ms, p.ms = some ms → Completes (.ptpDelayResp t l d dep arr) t s [.lnk] fun u =>
            u.lnk = { s.lnk with ptp := { p with delay := some ((ms + ((arr : Int) - dep)) / 2) } })) ∧
        (∀ (k : Bool) (m a : Nat), p.best = none → Completes (.ptpSync t l d k m a) t s [] fun _ => True) ∧
        (∀ (k : Bool) (m a : Nat), p.best.isSome = true →
          let ms : Int := (a : Int) - m
          let gap := match p.syncAt with | some x => b.clk - x | none => 0
          let p' := { p with syncAt := some b.clk, interval := if gap = 0 then p.interval else gap, ms := some ms }
          (p.delay = none → Completes (.ptpSync t l d k m a) t s [.lnk, .out] fun u =>
            u.lnk = { s.lnk with ptp := p' } ∧ u.out = [.delayReq l]) ∧
          (∀ x, p.delay = some x → let e := x - ms
            (p.first.length < 3 → CompletesAt (.ptpSync t l d k m a) t s [.lnk, .out] [F.TBU_TERR_E.addr] fun u =>
              u.lnk = { s.lnk with ptp := { p' with first := p.first ++ [e] } } ∧ u.out = [.delayReq l] ∧
              u.rd F.TBU_TERR_E = unsigned 20 (clampZ (-(2 ^ 19)) (2 ^ 19 - 1) e)) ∧
            (p.first.length = 3 → s.ready = false →
              Completes (.ptpSync t l d k m a) t s [.tofs, .regs, .seq, .stu, .saf, .cap, .fso, .lnk, .tbu, .out] fun u =>
                u.lnk.ptp = { p' with first := p.first ++ [e] } ∧ u.out = [.delayReq l] ∧
                u.tofs = s.tofs + (median4 (p.first ++ [e])).tdiv 256 ∧ u.tbu.tsLost = false) ∧
            (4 ≤ p.first.length →
              CompletesAt (.ptpSync t l d k m a) t s [.lnk, .out, .free] [F.TBU_TERR_E.addr, F.TBU_FOFS_FOFS.addr] fun u =>
                u.lnk = { s.lnk with ptp := p' } ∧ u.out = [.delayReq l] ∧
                u.rd F.TBU_TERR_E = unsigned 20 (clampZ (-(2 ^ 19)) (2 ^ 19 - 1) e)))))) ∧
    (∀ x y z w : Int, x ≤ y → y ≤ z → z ≤ w → ∀ o, o.Perm [x, y, z, w] → median4 o = (y + z).tdiv 2)

/-- Memory upkeep (R387, R394, R397, R399, R401, R403): a scrub pass that has read every burst is counted as completed; at a
multiple of SPASS seconds of device time, and at the end of boot, the next one starts with its counts at 0, or raises SCRUB_LATE
while the last runs on; refresh follows 85 °C, and MEM_HOT a crossing of 95 °C; a recalibration every RECAL ms, of subchannel B
half a period after A (log entry 191 for the clock), makes its subchannel unavailable for 1.5 us. Housekeeping rounds (R496 to
R499, R502, R508, R512, R513): a round takes its channels in order at a multiple of PERIOD; each end latches the corrected code
and VAL; a diode that reads open or shorted sets TDIODE_FAULT; the last one lets the round's values act: DIE115 and TEMP_WARN
with its hysteresis follow the hottest die sensor. Before the first round TS0 to TS11 have interim values. -/
def Obligations.MemoryAndHousekeepingRounds : Prop :=
  (∀ (s : State) (t : Nat), let b := s.begin t
      (∀ (subB : Bool) (dur : Nat),
        let done := fun (p : Option Nat) => p.any fun e => decide (e ≤ b.clk)
        let left := fun (p : Option Nat) => if done p then none else p
        let still := (left (if subB then s.mem.passB else s.mem.passA)).isSome
        let due := s.boot.readyAt = some b.clk ∨ b.now % (1000000000 * s.rd F.MEM_SPASS_SPASS) = 0
        let words := [F.MEM_PASS_A_COUNT.addr, F.MEM_PASS_B_COUNT.addr]
        let counted := fun (u : State) =>
          u.rd F.MEM_PASS_A_COUNT = (if done s.mem.passA then satN 20 (s.rd F.MEM_PASS_A_COUNT + 1) else s.rd F.MEM_PASS_A_COUNT) ∧
          u.rd F.MEM_PASS_B_COUNT = (if done s.mem.passB then satN 20 (s.rd F.MEM_PASS_B_COUNT + 1) else s.rd F.MEM_PASS_B_COUNT)
        (s.flag F.MEM_STATUS_ZFILL = false ∨ ¬due → ∀ hits, CompletesAt (.scrubPassStart t subB dur hits) t s [.mem] words fun u =>
          counted u ∧ u.mem = { s.mem with passA := left s.mem.passA, passB := left s.mem.passB }) ∧
        (s.flag F.MEM_STATUS_ZFILL = true → due → still = true →
          CompletesAt (.scrubPassStart t subB dur []) t s (.mem :: evParts) (words ++ evWords) fun u =>
            counted u ∧ b.told u 0x33 .warn (b2n subB) ∧
            u.mem = { s.mem with passA := left s.mem.passA, passB := left s.mem.passB, seen := [] }) ∧
        (s.flag F.MEM_STATUS_ZFILL = true → due → still = false →
          CompletesAt (.scrubPassStart t subB dur []) t s [.mem] words fun u =>
            counted u ∧ u.mem.passA = (if subB then left s.mem.passA else some (b.clk + dur)) ∧
            u.mem.passB = (if subB then some (b.clk + dur) else left s.mem.passB) ∧
            (∀ k, k / 20 = b2n subB → u.mem.passCe.nat k = 0 ∧ k ∉ u.mem.mark2) ∧
            (∀ k, k / 20 ≠ b2n subB → u.mem.passCe.nat k = s.mem.passCe.nat k ∧ (k ∈ u.mem.mark2 ↔ k ∈ s.mem.mark2)) ∧
            u.mem.poison = s.mem.poison ∧ u.mem.marks = s.mem.marks)) ∧
      (∀ temps, s.flag F.MEM_STATUS_TRAINED = false → Completes (.thermalSensorRead t temps) t s [] fun _ => True) ∧
      (∀ (temps : List Int) (fast hot : Bool), s.flag F.MEM_STATUS_TRAINED = true → (fast = true ↔ ∃ x, x ∈ temps ∧ 85 < x) →
        (hot = true ↔ ∃ x, x ∈ temps ∧ 95 < x) →
        (hot = false ∨ s.mem.hot = true → Completes (.thermalSensorRead t temps) t s [.mem] fun u =>
          u.mem = { s.mem with fast := fast, hot := hot }) ∧
        (hot = true → s.mem.hot = false → CompletesAt (.thermalSensorRead t temps) t s (.mem :: evParts) evWords fun u =>
          u.mem = { s.mem with fast := true, hot := true } ∧ b.told u 0x32 .warn 0)) ∧
      let per := 1000000 * s.rd F.MEM_RECAL_RECAL
      (∀ subB, s.flag F.MEM_STATUS_TRAINED = false ∨ s.mem.selfRef = true ∨ b.clk % per ≠ (if subB then per / 2 else 0) →
        Completes (.periodicRecalibration t subB) t s [] fun _ => True) ∧
      (∀ subB, s.flag F.MEM_STATUS_TRAINED = true → s.mem.selfRef = false → b.clk % per = (if subB then per / 2 else 0) →
        Completes (.periodicRecalibration t subB) t s [.mem] fun u =>
          u.mem = if subB then { s.mem with unavB := some (b.clk + 1500) } else { s.mem with unavA := some (b.clk + 1500) })) ∧
  (∀ (s : State) (t : Nat), let b := s.begin t
      let due := s.hk.rounds = true ∧ b.now % (1000 * max 1 (s.rd F.CTL_HK_CFG_PERIOD)) = 0
      (¬due → Completes (.roundStart t) t s [] fun _ => True) ∧
      (due → Completes (.roundStart t) t s [.hk] fun u =>
        u.hk = { s.hk with todo := u.hk.todo, convAt := (match s.hk.urgAt with | none => b.clk | some x => max b.clk (x + 1000)),
                           lp := s.flag F.CTL_HK_CFG_LP } ∧
        u.hk.todo.Pairwise (· < ·) ∧
        (0 ∈ u.hk.todo ↔ ∀ x, s.hk.urgAt = some x → x + 1000000 ≤ b.clk) ∧
        (∀ ch, 0 < ch → (ch ∈ u.hk.todo ↔ ch = 1 ∨ ch = 2 ∨ 16 ≤ ch ∧ ch < 36 ∨
          3 ≤ ch ∧ ch < 16 ∧ bitOf (s.rd F.CTL_HK_AIN_AINMASK) (ch - 3) = true))) ∧
      (∀ ch raw, s.hk.todo = [] ∨ (∃ c rest, s.hk.todo = c :: rest ∧ (c ≠ ch ∨ b.clk < s.hk.convAt + (if s.hk.lp then 4000 else 1000))) →
        Completes (.conversionEnd t ch raw) t s [] fun _ => True) ∧
      (∀ ch raw rest, ch < 36 → s.hk.todo = ch :: rest → s.hk.convAt + (if s.hk.lp then 4000 else 1000) ≤ b.clk →
        let corr := s.corrOf raw
        let wait := match s.hk.urgAt with | none => b.clk | some x => max b.clk (x + 1000)
        let raws := fun (u : State) => u.word (0xD100 + ch) = mkWord [(19, 1), (18, b2n s.hk.lp), (0, corr)]
        corr < 4096 ∧
        (rest ≠ [] → (ch = 0 ∨ 3 ≤ ch ∧ ch < 16 ∨ 28 ≤ ch ∧ ch < 36) →
          CompletesAt (.conversionEnd t ch raw) t s [.hk] [0xD100 + ch, (F.CTL_HK_VAL_VAL ch).addr] fun u =>
            u.hk = { s.hk with todo := rest, convAt := wait } ∧ raws u ∧
            u.rdZ (F.CTL_HK_VAL_VAL ch) = if ch = 0 then ((5 * corr + 16) / 32 : Nat)
              else ((corr * (if ch = 30 ∨ ch = 32 ∨ ch = 34 then 2560 else if ch = 35 then 3840 else 1280) + 2048) / 4096 : Nat)) ∧
        (rest ≠ [] → 16 ≤ ch → ch < 28 →
          CompletesAt (.conversionEnd t ch raw) t s [.hk] [0xD100 + ch, (F.CTL_HK_VAL_VAL ch).addr] fun u =>
            u.hk = { s.hk with todo := rest, convAt := wait } ∧ raws u ∧
            u.rdZ (F.CTL_HK_VAL_VAL ch) = clampZ (-640) 2400 (Config.sensorTrim (ch - 16) corr)) ∧
        (rest ≠ [] → ch = 1 ∨ ch = 2 → 2000 ≤ corr → corr ≤ 4079 →
          CompletesAt (.conversionEnd t ch raw) t s [.hk, .free] [0xD100 + ch, (F.CTL_HK_VAL_VAL ch).addr] fun u =>
            u.hk = { s.hk with todo := rest, convAt := wait } ∧ raws u) ∧
        (ch = 1 ∨ ch = 2 → corr < 2000 ∨ 4079 < corr →
          Completes (.conversionEnd t ch raw) t s [.regs, .mgmt, .edu, .saf, .cap, .lnk, .hk, .out, .free] fun u =>
            raws u ∧ u.flag F.EDU_FAULT_TDIODE_FAULT = true ∧ u.edu.diodeFlt = true) ∧
        (rest = [] →
          Completes (.conversionEnd t ch raw) t s [.regs, .mgmt, .edu, .saf, .cap, .lnk, .hk, .out, .free] fun u =>
            let die := fun (z : Int) => ∃ k, k < 12 ∧ z < u.rdZ (F.CTL_HK_VAL_VAL (16 + k))
            let w := s.rdZ F.CTL_HK_TWARN_TWARN
            u.hk.todo = [] ∧ u.hk.firstRound = true ∧ raws u ∧ (u.flag F.CTL_HK_STATUS_DIE115 = true ↔ die 1840) ∧
            (die 1840 → u.edu.dieHot = true) ∧
            (s.flag F.CTL_HK_STATUS_TEMP_WARN = false → (u.flag F.CTL_HK_STATUS_TEMP_WARN = true ↔ die (w - 1))) ∧
            (s.flag F.CTL_HK_STATUS_TEMP_WARN = true → (u.flag F.CTL_HK_STATUS_TEMP_WARN = true ↔ die (w - 80))))) ∧
      (∀ raws : List Nat,
        (s.hk.firstRound = true ∨ raws.length ≠ 12 → Completes (.interimConversion t raws) t s [] fun _ => True) ∧
        (s.hk.firstRound = false → raws.length = 12 → Completes (.interimConversion t raws) t s [.hk] fun u =>
          u.hk = { s.hk with interim := u.hk.interim } ∧
          ∀ k x, raws[k]? = some x → u.hk.interim[k]? = some (Config.interimTrim k x))))

/-- Resets and thermal shutdown (R46, R300, R466, R504, R505, R524, R531, R550, R554): RESET_N, a rail, the watchdog and the end
of THERMAL put everything to its reset value but the retention store, the OTP and CTL_RESET_CAUSE, which says why. A thermal
trip aborts the long operation, stops fires and boost, idles the lanes and puts the SAF to INIT. Whether a pulse of 100 ns to 1
us is taken is a free value (log entry 3). -/
def Obligations.ResetsAndThermalShutdown : Prop :=
  ∀ (s : State) (t : Nat), let b := s.begin t
    let all : List Part := [.tofs, .dev, .regs, .mgmt, .seq, .edu, .rta, .rpe, .stu, .saf, .cap, .fso, .cmp, .mem, .lnk, .tbu, .hk, .boot,
      .out, .goodAt]
    let sticky := bitsOf (s.word 0x0002).toNat 3 0
    let z := State.reset
    let cleared := fun (u : State) (last bits : Nat) =>
      u.dev = .reset ∧ u.word 0x0002 = mkWord [(17, last), (0, bits)] ∧ (∀ a, a ≠ 0x0002 → u.word a = RegMap.resetWord a) ∧
      u.mgmt = z.mgmt ∧ u.seq = z.seq ∧ u.edu = z.edu ∧ u.rta = z.rta ∧ u.rpe = z.rpe ∧ u.stu = z.stu ∧ u.cap = z.cap ∧
      u.fso = z.fso ∧ u.cmp = z.cmp ∧ u.mem = z.mem ∧ u.lnk = z.lnk ∧ u.tbu = z.tbu ∧ u.hk = z.hk ∧ u.saf.st = .init ∧
      u.saf.ossdA = false ∧ u.saf.ossdB = false ∧ u.saf.retained = s.saf.retained ∧ u.saf.zones = z.saf.zones ∧
      u.boot = { z.boot with otp := s.boot.otp, fused := s.boot.fused } ∧ u.out = []
    (∀ low, low < 100 → Completes (.resetN t low) t s [] fun _ => True) ∧
    (∀ low, 100 ≤ low → low < 1000 → Completes (.resetN t low) t s (.free :: all) fun u => u.dev = s.dev ∨ u.dev = .reset) ∧
    (∀ low, 1000 ≤ low →
      (s.dev = .thermal → Completes (.resetN t low) t s [.goodAt] fun u => u.goodAt = max s.goodAt (b.clk + low)) ∧
      (s.dev ≠ .thermal → Completes (.resetN t low) t s all fun u =>
        cleared u (if s.dev = .reset ∧ bitsOf (s.word 0x0002).toNat 19 17 = 0 then 0 else 1) (sticky ||| 4) ∧
        u.goodAt = max s.goodAt (b.clk + low))) ∧
    (∀ rail, s.dev ≠ .reset → s.dev ≠ .thermal → Completes (.railLoss t rail) t s all fun u =>
      cleared u 0 (if rail = .vddCore then 8 else sticky ||| 8) ∧ u.goodAt = max s.goodAt b.clk) ∧
    (∀ rail, Completes (.railLoss t rail) t s all fun u => u.dev = .reset ∧ bitsOf (u.word 0x0002).toNat 19 17 = 0 ∧
      bitOf (u.word 0x0002).toNat 3 = true) ∧
    (s.dev = .reset ∨ s.dev = .thermal ∨ s.boot.failed = true → Completes (.watchdog t) t s [] fun _ => True) ∧
    (s.dev ≠ .reset → s.dev ≠ .thermal → s.boot.failed = false →
      Completes (.watchdog t) t s all fun u => cleared u 3 (sticky ||| 1) ∧ u.goodAt = s.goodAt) ∧
    (∀ x, s.dev = .thermal → s.hk.coolAt = some x →
      (x + 1000000000 ≤ b.clk → Completes (.thermalRelease t) t s all fun u => cleared u 2 (sticky ||| 2)) ∧
      (b.clk < x + 1000000000 → Completes (.thermalRelease t) t s [] fun _ => True)) ∧
    (s.dev ≠ .thermal → Completes (.thermalRelease t) t s [] fun _ => True) ∧
    (s.dev ≠ .reset ∨ b.clk < s.goodAt + 2000000 → Completes (.resetRelease t) t s [] fun _ => True) ∧
    (s.dev = .reset → s.goodAt + 2000000 ≤ b.clk →
      Completes (.resetRelease t) t s (.dev :: .regs :: safParts) fun u => u.dev = .boot) ∧
    (∀ k, s.dev = .reset ∨ s.dev = .thermal ∨ 12 ≤ k → Completes (.thermalTrip t k) t s [] fun _ => True) ∧
    (∀ k, s.dev ≠ .reset → s.dev ≠ .thermal → k < 12 →
      Completes (.thermalTrip t k) t s [.dev, .regs, .mgmt, .seq, .edu, .saf, .cap, .mem, .lnk, .tbu, .hk, .out, .free] fun u =>
        u.dev = .thermal ∧ u.seq.st = .idle ∧ u.seq.fires = [] ∧ u.seq.wins = [] ∧ u.edu.started = false ∧ u.chgOk = false ∧
        u.hk.coolAt = some b.clk ∧ u.mem = { s.mem with selfRef := true } ∧ (∀ n, n < 12 → (u.lane n).stage = .off) ∧
        u.saf.st = (if s.saf.st = .clamp then .clamp else .init) ∧
        (s.saf.st ≠ .clamp → s.saf.st ≠ .init → u.saf.ossdA = false ∧ u.saf.ossdB = false) ∧
        u.mgmt.op = none ∧
        (s.mgmt.op.isSome = true → u.flag F.CTL_OPSTAT_DONE = true ∧ u.flag F.CTL_OPSTAT_VALID = false ∧
          u.flag F.CTL_OPSTAT_ABORT = true))

/-- Boot up to its calibration (R269, R366, R376, R388, R463, R465 to R467, R471 to R477, R484, R512): a step whose turn it is
not does nothing; each cause of R465 ends boot with FAILED and every lane idle; the flash is read in the widest mode that its
table advertises (log entry 199), and no more of it than 128 MB; a verified image is put into force, its sections decompressed,
its key hash fused where that is due; calibration waits until L0 has been ARRIVED. What a calibration element fails on is its
own definition (log entry 95 for elements that the command does not list). -/
def Obligations.BootVerifiesAndCalibrates : Prop :=
  ∀ (s : State) (t : Nat), let b := s.begin t
    let idle := fun (c : Instr) => Completes c t s [] fun _ => True
    let fails := fun (c : Instr) (cause : Nat) =>
      Completes c t s [.regs, .mgmt, .rta, .saf, .cap, .lnk, .tbu, .boot, .out, .free] fun u =>
        u.boot.failed = true ∧ u.flag F.CTL_BOOT_FAILED = true ∧ u.rd F.CTL_BOOT_CAUSE = cause ∧ u.flag F.CTL_BOOT_MEMRUN = false ∧
        ∀ n, n < 12 → (u.lane n).stage = .off
    (∀ c, (∃ f, c = Instr.bootFlash t f) ∨ (∃ i, c = .bootVerify t i) ∨ (∃ e, c = .bootCal t e) →
      (s.dev ≠ .boot ∨ s.boot.failed = true) → idle c) ∧
    (s.dev = .boot → s.boot.failed = false →
      (∀ f, s.boot.refDone = false ∨ s.boot.flashDone = true → idle (.bootFlash t f)) ∧
      (∀ f : Sfdp, s.boot.refDone = true → s.boot.flashDone = false →
        (f.valid = false ∨ f.readOk = false → fails (.bootFlash t f) 0x01) ∧
        (f.valid = true → f.readOk = true → CompletesAt (.bootFlash t f) t s [.boot] [F.CTL_BOOT_STEP.addr] fun u =>
          u.boot = { s.boot with flashDone := true, density := min (2 ^ 27) f.density, pageSize := f.pageSize,
                                 readMode := u.boot.readMode, addr4 := decide (2 ^ 24 < f.density) } ∧
          (∀ m, m ∈ f.modes → m.1 < 4 → ∃ r, u.boot.readMode = some r ∧ m.1 ≤ r.1) ∧
          (∀ r, u.boot.readMode = some r → r.1 < 4 ∧ ∃ m, m ∈ f.modes ∧ m.1 = r.1 ∧ r.2 = min 133 m.2) ∧
          u.rd F.CTL_BOOT_STEP = max 2 (s.rd F.CTL_BOOT_STEP))) ∧
      (∀ i, s.boot.flashDone = false ∨ s.boot.verifyDone = true → idle (.bootVerify t i)) ∧
      (∀ i : Image, s.boot.flashDone = true → s.boot.verifyDone = false →
        (i.versionOk = false → fails (.bootVerify t i) 0x02) ∧
        (i.versionOk = true → i.vsigOk = false → fails (.bootVerify t i) 0x03) ∧
        (i.versionOk = true → i.vsigOk = true → i.isigOk = false → fails (.bootVerify t i) 0x04) ∧
        (i.versionOk = true → i.vsigOk = true → i.isigOk = true →
          (s.keyOk i = false → fails (.bootVerify t i) 0x05) ∧
          (s.keyOk i = true →
            (∀ c, i.secVerdict = some c → fails (.bootVerify t i) c) ∧
            (i.secVerdict = none → i.structOk = false ∨ (b.loadImage i).contentOk i = false → fails (.bootVerify t i) 0x09) ∧
            (i.secVerdict = none → i.structOk = true → (b.loadImage i).contentOk i = true →
              Completes (.bootVerify t i) t s [.regs, .mgmt, .seq, .rta, .stu, .saf, .cap, .fso, .mem, .lnk, .tbu, .boot, .out, .free] fun u =>
                u.mem = { s.mem with tblAt := i.tbl, ctxAt := i.ctx, expAt := i.exp } ∧
                u.boot.content = i.sections.map (fun e => (e.typ, e.content)) ∧ u.saf.pageSafe = i.pageSafe ∧ u.saf.loaded = true ∧
                u.boot.verifyDone = true ∧ u.boot.failed = false ∧ u.rd F.CTL_BOOT_STEP = max 3 (s.rd F.CTL_BOOT_STEP) ∧
                u.flag F.CTL_BOOT_MEMRUN = true ∧ u.boot.imgBytes = i.header ++ i.table ∧ u.boot.nvmlock = i.nvmlock ∧
                u.boot.startProfile = i.startProfile ∧ u.seq.bootLib = i.library ∧ u.seq.startEntry = i.startEntry ∧
                u.saf.zones = i.zones ∧
                u.word 0xF001 = mkWord [(16, i.fmtMaj), (12, i.fmtMin), (4, i.member), (3, b2n i.fuse), (2, b2n i.nvmlock)] ∧
                ((i.safDigA && i.safDigB) = false → s.saf.st ≠ .clamp → u.saf.st = .clamp ∧ u.saf.retained = some 5) ∧
                (s.provisioned = true ∨ i.fuse = false → u.boot.fused = s.boot.fused ∧ u.boot.otp = s.boot.otp) ∧
                (s.provisioned = false → i.fuse = true → s.interimOk = false →
                  u.boot.fused = s.boot.fused ∧ u.flag F.CTL_BOOT_FUSEDEF = true) ∧
                (s.provisioned = false → i.fuse = true → s.interimOk = true →
                  u.boot.fused = some i.ikeyHash ∧ u.provisioned = true ∧ u.flag F.CTL_BOOT_PROV = true))))) ∧
      (∀ e, s.boot.verifyDone = false ∨ s.boot.calDone = true ∨ s.stu.startAt.isSome = true → idle (.bootCal t e)) ∧
      (s.boot.verifyDone = true → s.boot.calDone = false → s.stu.startAt = none →
        (∀ e c sub, (e.kind, c) ∈ [(CalKind.pllBand, 0x0B), (.adc, 0x0C), (.mirror, 0x0D)] → s.boot.shimOk = false →
          (b.measured e).run s.resonant [] none = .failed sub → fails (.bootCal t [e]) c) ∧
        Completes (.bootCal t []) t s [.dev, .regs, .mgmt, .rta, .rpe, .saf, .cap, .lnk, .hk, .boot, .out, .free] fun u =>
          u.boot.calDone = true ∧ u.flag F.CTL_BOOT_CALDONE = true ∧ u.hk.rounds = true ∧
          u.boot.failed = false))

/-- Boot from the module to READY (R46, R77, R79, R229, R385, R386, R388, R397, R400, R402, R463, R512): the module is read,
checked and trained, the partitions and SPASS judged against it (log entry 197); the library and the datum tables are written;
SEED starts the sequencer and the ambient trackers, and when they are seeded, or after 50 ms, the device is in RUN, or in
DEGRADED with a port left without a spare. -/
def Obligations.BootTrainsSeedsAndRisesReady : Prop :=
  ∀ (s : State) (t : Nat), let b := s.begin t
    let idle := fun (c : Instr) => Completes c t s [] fun _ => True
    let fails := fun (c : Instr) (f : Fld) =>
      Completes c t s [.regs, .mgmt, .saf, .cap, .lnk, .tbu, .boot, .out, .free] fun u =>
        u.boot.failed = true ∧ u.rd F.CTL_BOOT_CAUSE = 0x0A ∧ u.flag f = true ∧ ∀ n, n < 12 → (u.lane n).stage = .off
    (∀ c, (∃ x, c = Instr.bootMem t x) ∨ c = .bootTbl t ∨ c = .bootSeed t ∨ c = .seedingEnd t →
      (s.dev ≠ .boot ∨ s.boot.failed = true) → idle c) ∧
    (s.dev = .boot → s.boot.failed = false →
      (∀ x, s.boot.verifyDone = false ∨ s.boot.memDone = true → idle (.bootMem t x)) ∧
      (∀ x : Spd, s.boot.verifyDone = true → s.boot.memDone = false →
        let usable := fun (c : Nat) => c ≤ 6 ∧ c ≤ s.rd F.MEM_CFG_RATEMAX ∧ 3200 + 400 * c ∈ x.rates
        let known := x.rdimm = true ∧ x.x4 = true ∧ x.devices = 10 ∧ x.stacked = false ∧ x.dimms = 1 ∧
          (x.ranks, x.dens) ∈ [(1, 0), (1, 1), (2, 0), (1, 2), (2, 1)]
        (¬known ∨ (∀ c, ¬usable c) → fails (.bootMem t x) F.MEM_STATUS_MEM_UNSUP) ∧
        (∀ c, known → usable c → (∀ d, usable d → d ≤ c) →
          let m := ((b.wr F.MEM_STATUS_RANKS x.ranks).wr F.MEM_STATUS_DENS x.dens).wr F.MEM_STATUS_RATE c
          let fits := m.partsFit
          let scrub := m.scrubFits c
          (fits = false → fails (.bootMem t x) F.MEM_STATUS_MEM_CAP) ∧
          (fits = true → scrub = false → fails (.bootMem t x) F.CTL_BOOT_FAILED) ∧
          (fits = true → scrub = true → x.trainOk = false → fails (.bootMem t x) F.MEM_STATUS_MEM_TRAIN) ∧
          (fits = true → scrub = true → x.trainOk = true →
            CompletesAt (.bootMem t x) t s [.boot] [F.MEM_STATUS_RANKS.addr, F.CTL_BOOT_STEP.addr] fun u =>
              u.boot = { s.boot with memDone := true } ∧ u.flag F.MEM_STATUS_TRAINED = true ∧ u.flag F.CTL_BOOT_MEMDONE = true ∧
              u.flag F.CTL_BOOT_MEMRUN = false ∧ u.rd F.CTL_BOOT_STEP = max 4 (s.rd F.CTL_BOOT_STEP) ∧
              u.rd F.MEM_STATUS_RANKS = x.ranks ∧ u.rd F.MEM_STATUS_DENS = x.dens ∧ u.rd F.MEM_STATUS_RATE = c))) ∧
      (s.boot.memDone = false ∨ s.boot.tblDone = true → idle (.bootTbl t)) ∧
      (s.boot.memDone = true → s.boot.tblDone = false →
        Completes (.bootTbl t) t s [.seq, .fso, .boot] fun u =>
          u.seq.library = s.seq.bootLib.map (fun e => (e.1, { e.2 with lib := e.1 })) ∧ u.seq.bootLib = [] ∧
          (∀ p, assoc s.seq.bootLib s.seq.startLib = some p → u.seq.pageA = { p with lib := s.seq.startLib }) ∧
          (∀ p, assoc s.seq.bootLib s.seq.startB = some p → u.seq.pageB = { p with lib := s.seq.startB }) ∧
          u.fso = { s.fso with datum := s.fso.bootDatum, bootDatum := [] } ∧ u.boot = { s.boot with tblDone := true }) ∧
      (s.boot.calDone = false ∨ s.boot.tblDone = false ∨ s.rpe.seeding = true → idle (.bootSeed t)) ∧
      (s.boot.calDone = true → s.boot.tblDone = true → s.rpe.seeding = false →
        Completes (.bootSeed t) t s [.regs, .mgmt, .seq, .edu, .rpe, .stu, .saf, .cap, .lnk, .boot, .out] fun u =>
          u.seq = { s.seq with st := .run, actB := false, next := s.seq.startEntry, cursor := b.now + 1000 } ∧
          (∀ n, n < 4 → u.rd (F.CTL_SEQ_LC_LC n) = 0) ∧ u.rd F.EDU_DITH_STATE_STATE = s.rd F.EDU_DITH_SEED_SEED ∧
          u.rpe = { s.rpe with seeding := true } ∧ u.edu.started = true ∧ u.boot = { s.boot with seedAt := b.clk } ∧
          u.rd F.CTL_BOOT_STEP = max 5 (s.rd F.CTL_BOOT_STEP)) ∧
      (s.rpe.seeding = false ∨ s.seeded = false ∧ b.clk < s.boot.seedAt + 50000000 → idle (.seedingEnd t)) ∧
      (s.rpe.seeding = true → s.seeded = true ∨ s.boot.seedAt + 50000000 ≤ b.clk →
        Completes (.seedingEnd t) t s [.dev, .regs, .mgmt, .rta, .rpe, .saf, .cap, .fso, .lnk, .tbu, .boot, .out] fun u =>
          u.rpe.seeding = false ∧ u.ready = true ∧ (u.dev = .degraded ↔ ∃ p, p < 256 ∧ s.portOff p = true) ∧
          u.rd F.CTL_BOOT_STEP = max 6 (s.rd F.CTL_BOOT_STEP) ∧ u.flag F.MEM_STATUS_ZFILL = true ∧
          u.boot = { s.boot with readyAt := some b.clk } ∧ u.rta.seedStarts = []))

/-- The Shim window and the certificate window (R483, R493, R495): a write goes to the staged copy of the selected set, and
kinds 4h, 5h and 9h and words at or beyond LEN are REFUSED; a read of CTL_CERT_DATA gives two bytes of the certificate and adds
2 to ADDR. -/
def Obligations.ShimAndCertificateWindows : Prop :=
  ∀ (s : State) (t : Nat), s.portOpen →
    (∀ j w, 256 ≤ j → Completes (.shimWindowWrite t j w) t s [] fun _ => True) ∧
    (∀ j w, j < 256 → let k := s.rd F.CTL_SHM_SEL_KIND
      let i := s.rd F.CTL_SHM_SEL_INDEX
      let n := (shimLen k i).getD 0
      (k = 4 ∨ k = 5 ∨ k = 9 ∨ n ≤ j → Completes (.shimWindowWrite t j w) t s [.mgmt] fun u => s.answered u (0xE100 + j) .refused) ∧
      (k ≠ 4 → k ≠ 5 → k ≠ 9 → j < n →
        Completes (.shimWindowWrite t j w) t s [.mgmt, .boot] fun u =>
          s.answered u (0xE100 + j) .ok ∧
          u.stagedShim k i = (if s.stagedShim k i = [] then List.replicate n 0 else s.stagedShim k i).set j w ∧
          (∀ k' i', i' < 512 → (k' ≠ k ∨ i' ≠ i) → u.stagedShim k' i' = s.stagedShim k' i') ∧
          u.boot = { s.boot with staged := u.boot.staged })) ∧
    (∀ a, a = s.rd F.CTL_CERT_ADDR_ADDR →
      CompletesAt (.certDataRead t) t s [.mgmt] [F.CTL_CERT_ADDR_ADDR.addr] fun u =>
        u.mgmt = { s.mgmt with
          resp := ⟨.ok, 0xF05C, BitVec.ofNat 20 (certByte a + 256 * certByte (a + 1))⟩, shifted := some s.mgmt.resp } ∧
        u.rd F.CTL_CERT_ADDR_ADDR = (a + 2) % 2 ^ 11)
end

