-- ==== Sys2Proof/Laws/Tables.lean ====
section
/-! SUPPORT. The laws of the sparse tables: a read after a write, and the canonical form that every operation keeps. -/

namespace Sys2Proof

variable {α : Type}

/-- The canonical form, as a proposition. -/
theorem SMap.wf_iff [DecidableEq α] (d : Nat → α) (m : SMap α) :
    SMap.wf d m = true ↔ (m.map Prod.fst).Pairwise (· < ·) ∧ ∀ e ∈ m, e.2 ≠ d e.1 := by
  simp [SMap.wf]

/-- Taking entries out keeps the canonical form. -/
theorem SMap.wf_filter [DecidableEq α] (d : Nat → α) (m : SMap α) (p : Nat × α → Bool) (h : SMap.wf d m = true) :
    SMap.wf d (m.filter p) = true := by
  rw [SMap.wf_iff] at *
  refine ⟨h.1.sublist (List.Sublist.map _ List.filter_sublist), fun e he => h.2 e ?_⟩
  exact (List.mem_filter.mp he).1

theorem SMap.wf_erase [DecidableEq α] (d : Nat → α) (m : SMap α) (k : Nat) (h : SMap.wf d m = true) :
    SMap.wf d (SMap.erase m k) = true := SMap.wf_filter d m _ h

theorem SMap.not_mem_erase (m : SMap α) (k : Nat) : ∀ e ∈ SMap.erase m k, e.1 ≠ k := by
  intro e he
  have := (List.mem_filter.mp he).2
  simpa using this

theorem SMap.mem_insert (k : Nat) (v : α) (m : SMap α) (e : Nat × α) : e ∈ SMap.insert k v m ↔ e = (k, v) ∨ e ∈ m := by
  induction m with
  | nil => simp [SMap.insert]
  | cons x m ih =>
    obtain ⟨k', v'⟩ := x
    simp only [SMap.insert]
    split
    · simp
    · simp [ih]; tauto

/-- Putting a new key at its place keeps the keys rising. -/
theorem SMap.insert_rising (k : Nat) (v : α) (m : SMap α) (h : (m.map Prod.fst).Pairwise (· < ·)) (hk : ∀ e ∈ m, e.1 ≠ k) :
    ((SMap.insert k v m).map Prod.fst).Pairwise (· < ·) := by
  induction m with
  | nil => simp [SMap.insert]
  | cons x m ih =>
    obtain ⟨k', v'⟩ := x
    simp only [List.map_cons, List.pairwise_cons] at h
    simp only [SMap.insert]
    have hne : k' ≠ k := hk _ (List.mem_cons_self ..)
    split
    · rename_i hlt
      simp only [List.map_cons, List.pairwise_cons]
      refine ⟨fun a ha => ?_, h⟩
      rcases List.mem_cons.mp ha with rfl | ha
      · exact hlt
      · exact Nat.lt_trans hlt (h.1 a ha)
    · simp only [List.map_cons, List.pairwise_cons]
      refine ⟨fun a ha => ?_, ih h.2 fun e he => hk e (List.mem_cons_of_mem _ he)⟩
      obtain ⟨e, he, rfl⟩ := List.mem_map.mp ha
      rcases (SMap.mem_insert k v m e).mp he with rfl | he
      · dsimp only; omega
      · exact h.1 _ (List.mem_map_of_mem he)

/-- Giving a key a value keeps the canonical form. -/
theorem SMap.wf_put [DecidableEq α] (d : Nat → α) (m : SMap α) (k : Nat) (v : α) (h : SMap.wf d m = true) :
    SMap.wf d (SMap.put d m k v) = true := by
  unfold SMap.put
  have he := SMap.wf_erase d m k h
  split
  · exact he
  · rename_i hv
    rw [SMap.wf_iff] at *
    refine ⟨SMap.insert_rising k v _ he.1 (SMap.not_mem_erase m k), fun e hm => ?_⟩
    rcases (SMap.mem_insert k v _ e).mp hm with rfl | hm
    · exact hv
    · exact he.2 e hm

/-- A key that is not listed reads as its unlisted value. -/
theorem SMap.get_none (d : Nat → α) (m : SMap α) (k : Nat) (h : ∀ e ∈ m, e.1 ≠ k) : SMap.get d m k = d k := by
  induction m with
  | nil => rfl
  | cons x m ih =>
    obtain ⟨k', v'⟩ := x
    have hne : k ≠ k' := fun e => h _ (List.mem_cons_self ..) e.symm
    simp only [SMap.get, if_neg hne]
    exact ih fun e he => h e (List.mem_cons_of_mem _ he)

theorem SMap.get_erase_ne (d : Nat → α) (m : SMap α) (k j : Nat) (h : j ≠ k) : SMap.get d (SMap.erase m k) j = SMap.get d m j := by
  induction m with
  | nil => rfl
  | cons x m ih =>
    obtain ⟨k', v'⟩ := x
    by_cases hk : k' = k
    · subst hk
      have : SMap.erase ((k', v') :: m) k' = SMap.erase m k' := by simp [SMap.erase]
      rw [this, ih]
      simp [SMap.get, h]
    · have : SMap.erase ((k', v') :: m) k = (k', v') :: SMap.erase m k := by simp [SMap.erase, hk]
      rw [this]
      simp only [SMap.get, ih]

theorem SMap.get_insert (d : Nat → α) (m : SMap α) (k j : Nat) (v : α) (hk : ∀ e ∈ m, e.1 ≠ k) :
    SMap.get d (SMap.insert k v m) j = if j = k then v else SMap.get d m j := by
  induction m with
  | nil => simp [SMap.insert, SMap.get]
  | cons x m ih =>
    obtain ⟨k', v'⟩ := x
    have hne : k' ≠ k := hk _ (List.mem_cons_self ..)
    simp only [SMap.insert]
    split
    · simp only [SMap.get]
    · simp only [SMap.get, ih fun e he => hk e (List.mem_cons_of_mem _ he)]
      by_cases hj : j = k'
      · subst hj; simp [hne]
      · simp [hj]

/-- A read after a write: the value written at its key, every other key as before. -/
theorem SMap.get_put [DecidableEq α] (d : Nat → α) (m : SMap α) (k j : Nat) (v : α) :
    SMap.get d (SMap.put d m k v) j = if j = k then v else SMap.get d m j := by
  unfold SMap.put
  split
  · rename_i hv
    by_cases hj : j = k
    · subst hj
      rw [SMap.get_none d _ _ (SMap.not_mem_erase m j), if_pos rfl, hv]
    · rw [SMap.get_erase_ne d m k j hj, if_neg hj]
  · rw [SMap.get_insert d _ k j v (SMap.not_mem_erase m k)]
    by_cases hj : j = k
    · simp [hj]
    · rw [SMap.get_erase_ne d m k j hj]

end Sys2Proof
end

