-- ==== Sys2Proof/Laws/Registers.lean ====
section
/-! SUPPORT. The laws of register words and fields: what a read gives after a write of the same field, of another field of the
same word, and of another word. -/

namespace Sys2Proof

theorem bitsOf_testBit (n hi lo i : Nat) : (bitsOf n hi lo).testBit i = (decide (i < hi + 1 - lo) && n.testBit (lo + i)) := by
  simp [bitsOf, Nat.testBit_mod_two_pow, Nat.testBit_div_two_pow, Nat.add_comm]

theorem bitsOf_lt (n hi lo : Nat) : bitsOf n hi lo < 2 ^ (hi + 1 - lo) := Nat.mod_lt _ (Nat.two_pow_pos _)

namespace Machine

/-- The number that a word with a field replaced holds. -/
theorem putBits_toNat (w : Word) (hi lo v : Nat) (h : lo ≤ hi) (hh : hi < 20) :
    (putBits w hi lo v).toNat =
      w.toNat % 2 ^ lo + 2 ^ lo * (v % 2 ^ (hi + 1 - lo) + 2 ^ (hi + 1 - lo) * (w.toNat / 2 ^ (hi + 1))) := by
  have hw := w.isLt
  have e : 2 ^ (hi + 1) = 2 ^ lo * 2 ^ (hi + 1 - lo) := by rw [← Nat.pow_add]; congr 1; omega
  have e20 : 2 ^ 20 = 2 ^ (hi + 1) * 2 ^ (20 - (hi + 1)) := by rw [← Nat.pow_add]; congr 1; omega
  have hq : w.toNat / 2 ^ (hi + 1) < 2 ^ (20 - (hi + 1)) := by
    rw [Nat.div_lt_iff_lt_mul (Nat.two_pow_pos _), Nat.mul_comm, ← e20]; exact hw
  have h1 : w.toNat % 2 ^ lo < 2 ^ lo := Nat.mod_lt _ (Nat.two_pow_pos _)
  have h2 : v % 2 ^ (hi + 1 - lo) < 2 ^ (hi + 1 - lo) := Nat.mod_lt _ (Nat.two_pow_pos _)
  have hsum : w.toNat % 2 ^ lo + 2 ^ lo * (v % 2 ^ (hi + 1 - lo) + 2 ^ (hi + 1 - lo) * (w.toNat / 2 ^ (hi + 1))) < 2 ^ 20 := by
    have a : v % 2 ^ (hi + 1 - lo) + 2 ^ (hi + 1 - lo) * (w.toNat / 2 ^ (hi + 1)) + 1 ≤
        2 ^ (hi + 1 - lo) * 2 ^ (20 - (hi + 1)) := by
      calc _ ≤ 2 ^ (hi + 1 - lo) + 2 ^ (hi + 1 - lo) * (w.toNat / 2 ^ (hi + 1)) := by omega
        _ = 2 ^ (hi + 1 - lo) * (w.toNat / 2 ^ (hi + 1) + 1) := by ring
        _ ≤ _ := Nat.mul_le_mul_left _ hq
    calc _ < 2 ^ lo + 2 ^ lo * (v % 2 ^ (hi + 1 - lo) + 2 ^ (hi + 1 - lo) * (w.toNat / 2 ^ (hi + 1))) := by omega
      _ = 2 ^ lo * (v % 2 ^ (hi + 1 - lo) + 2 ^ (hi + 1 - lo) * (w.toNat / 2 ^ (hi + 1)) + 1) := by ring
      _ ≤ 2 ^ lo * (2 ^ (hi + 1 - lo) * 2 ^ (20 - (hi + 1))) := Nat.mul_le_mul_left _ a
      _ = 2 ^ 20 := by rw [← Nat.mul_assoc, ← e, ← e20]
  unfold putBits
  rw [BitVec.toNat_ofNat]
  have hx : w.toNat % 2 ^ lo + v % 2 ^ (hi + 1 - lo) * 2 ^ lo + w.toNat / 2 ^ (hi + 1) * 2 ^ (hi + 1) =
      w.toNat % 2 ^ lo + 2 ^ lo * (v % 2 ^ (hi + 1 - lo) + 2 ^ (hi + 1 - lo) * (w.toNat / 2 ^ (hi + 1))) := by
    rw [e]; ring
  rw [hx]
  exact Nat.mod_eq_of_lt hsum

/-- Every bit of a word with a field replaced: the field's bits are the value's, the others the word's. -/
theorem putBits_testBit (w : Word) (hi lo v i : Nat) (h : lo ≤ hi) (hh : hi < 20) :
    (putBits w hi lo v).toNat.testBit i =
      if lo ≤ i ∧ i ≤ hi then v.testBit (i - lo) else w.toNat.testBit i := by
  rw [putBits_toNat w hi lo v h hh, Nat.add_comm,
    Nat.testBit_two_pow_mul_add _ (Nat.mod_lt _ (Nat.two_pow_pos lo))]
  by_cases h1 : i < lo
  · rw [if_pos h1, if_neg (by omega), Nat.testBit_mod_two_pow]
    simp [h1]
  · rw [if_neg h1, Nat.add_comm, Nat.testBit_two_pow_mul_add _ (Nat.mod_lt _ (Nat.two_pow_pos _))]
    by_cases h2 : i ≤ hi
    · rw [if_pos (by omega), if_pos (by omega), Nat.testBit_mod_two_pow]
      simp; omega
    · rw [if_neg (by omega), if_neg (by omega), Nat.testBit_div_two_pow]
      congr 1; omega

/-- A field of a word in which it was replaced has the value, modulo its width. -/
theorem bitsOf_putBits (w : Word) (hi lo v : Nat) (h : lo ≤ hi) (hh : hi < 20) :
    bitsOf (putBits w hi lo v).toNat hi lo = v % 2 ^ (hi + 1 - lo) := by
  apply Nat.eq_of_testBit_eq
  intro i
  rw [bitsOf_testBit, putBits_testBit w hi lo v _ h hh, Nat.testBit_mod_two_pow]
  by_cases hi' : i < hi + 1 - lo
  · rw [if_pos (by omega)]; simp
  · simp [hi']

/-- A field that does not overlap the replaced one is as before. -/
theorem bitsOf_putBits_other (w : Word) (hi lo v hi' lo' : Nat) (h : lo ≤ hi) (hh : hi < 20) (d : hi' < lo ∨ hi < lo') :
    bitsOf (putBits w hi lo v).toNat hi' lo' = bitsOf w.toNat hi' lo' := by
  apply Nat.eq_of_testBit_eq
  intro i
  rw [bitsOf_testBit, bitsOf_testBit, putBits_testBit w hi lo v _ h hh]
  by_cases hi2 : i < hi' + 1 - lo'
  · rw [if_neg (by omega)]
  · simp [hi2]

/-- A read of a word after a write of a word. -/
@[simp] theorem word_setWord (s : State) (a b : Nat) (w : Word) : (s.setWord a w).word b = if b = a then w else s.word b := by
  unfold State.setWord State.word
  exact SMap.get_put _ _ _ _ _

/-- A read of a word after a write of a field, whatever part of it counts as set in the present cycle. -/
theorem word_wrNote (s : State) (f : Fld) (v k b : Nat) :
    (s.wrNote f v k).word b = if b = f.addr then putBits (s.word f.addr) f.hi f.lo v else s.word b := by
  unfold State.wrNote State.word
  exact SMap.get_put _ _ _ _ _

/-- A read of a word after a write of a field. -/
theorem word_wr (s : State) (f : Fld) (v b : Nat) :
    (s.wr f v).word b = if b = f.addr then putBits (s.word f.addr) f.hi f.lo v else s.word b :=
  word_wrNote s f v _ b

theorem word_wrNote_ne (s : State) (f : Fld) (v k b : Nat) (h : b ≠ f.addr) : (s.wrNote f v k).word b = s.word b := by
  rw [word_wrNote, if_neg h]

/-- A word that holds no field written is as before. -/
theorem word_wr_ne (s : State) (f : Fld) (v b : Nat) (h : b ≠ f.addr) : (s.wr f v).word b = s.word b := by
  rw [word_wr, if_neg h]

theorem word_put_ne (s : State) (f : Fld) (b : Bool) (a : Nat) (h : a ≠ f.addr) : (s.put f b).word a = s.word a :=
  word_wr_ne s f _ a h

theorem word_wrZ_ne (s : State) (f : Fld) (z : Int) (a : Nat) (h : a ≠ f.addr) : (s.wrZ f z).word a = s.word a :=
  word_wr_ne s f _ a h

theorem word_count_ne (s : State) (f : Fld) (n a : Nat) (h : a ≠ f.addr) : (s.count f n).word a = s.word a :=
  word_wrNote_ne s f _ _ a h

theorem word_inc_ne (s : State) (f : Fld) (a : Nat) (h : a ≠ f.addr) : (s.inc f).word a = s.word a := word_count_ne s f 1 a h

/-- A field reads as the value written, modulo its width. -/
theorem rd_wr (s : State) (f : Fld) (v : Nat) (h : f.lo ≤ f.hi) (hh : f.hi < 20) : (s.wr f v).rd f = v % 2 ^ (f.hi + 1 - f.lo) := by
  unfold State.rd; rw [word_wr, if_pos rfl]; exact bitsOf_putBits _ _ _ _ h hh

/-- A field of another word, and a field of the same word that does not overlap, is as before. -/
theorem rd_wr_other (s : State) (f g : Fld) (v : Nat) (h : f.lo ≤ f.hi) (hh : f.hi < 20)
    (d : g.addr ≠ f.addr ∨ g.hi < f.lo ∨ f.hi < g.lo) : (s.wr f v).rd g = s.rd g := by
  unfold State.rd
  by_cases e : g.addr = f.addr
  · rw [word_wr, if_pos e, e]
    exact bitsOf_putBits_other _ _ _ _ _ _ h hh (by rcases d with d | d; exact absurd e d; exact d)
  · rw [word_wr_ne s f v _ e]

/-- A one-bit field reads as it was set. -/
theorem flag_put (s : State) (f : Fld) (b : Bool) (h : f.lo = f.hi) (hh : f.hi < 20) : (s.put f b).flag f = b := by
  unfold State.flag State.put
  rw [rd_wr s f _ (by omega) hh]
  cases b <;> simp [b2n, h]

/-! ### Changing a part that is no register leaves the words as they are -/

@[simp] theorem modMgmt_word (s : State) (f : Mgmt → Mgmt) (a : Nat) : (s.modMgmt f).word a = s.word a := rfl
@[simp] theorem modMgmt_rd (s : State) (f : Mgmt → Mgmt) (g : Fld) : (s.modMgmt f).rd g = s.rd g := rfl
@[simp] theorem modMgmt_flag (s : State) (f : Mgmt → Mgmt) (g : Fld) : (s.modMgmt f).flag g = s.flag g := rfl
@[simp] theorem modSeq_word (s : State) (f : Seq → Seq) (a : Nat) : (s.modSeq f).word a = s.word a := rfl
@[simp] theorem modSeq_rd (s : State) (f : Seq → Seq) (g : Fld) : (s.modSeq f).rd g = s.rd g := rfl
@[simp] theorem modSeq_flag (s : State) (f : Seq → Seq) (g : Fld) : (s.modSeq f).flag g = s.flag g := rfl
@[simp] theorem modEdu_word (s : State) (f : Edu → Edu) (a : Nat) : (s.modEdu f).word a = s.word a := rfl
@[simp] theorem modEdu_rd (s : State) (f : Edu → Edu) (g : Fld) : (s.modEdu f).rd g = s.rd g := rfl
@[simp] theorem modEdu_flag (s : State) (f : Edu → Edu) (g : Fld) : (s.modEdu f).flag g = s.flag g := rfl
@[simp] theorem modRta_word (s : State) (f : Rta → Rta) (a : Nat) : (s.modRta f).word a = s.word a := rfl
@[simp] theorem modRta_rd (s : State) (f : Rta → Rta) (g : Fld) : (s.modRta f).rd g = s.rd g := rfl
@[simp] theorem modRta_flag (s : State) (f : Rta → Rta) (g : Fld) : (s.modRta f).flag g = s.flag g := rfl
@[simp] theorem modRpe_word (s : State) (f : Rpe → Rpe) (a : Nat) : (s.modRpe f).word a = s.word a := rfl
@[simp] theorem modRpe_rd (s : State) (f : Rpe → Rpe) (g : Fld) : (s.modRpe f).rd g = s.rd g := rfl
@[simp] theorem modRpe_flag (s : State) (f : Rpe → Rpe) (g : Fld) : (s.modRpe f).flag g = s.flag g := rfl
@[simp] theorem modStu_word (s : State) (f : Stu → Stu) (a : Nat) : (s.modStu f).word a = s.word a := rfl
@[simp] theorem modStu_rd (s : State) (f : Stu → Stu) (g : Fld) : (s.modStu f).rd g = s.rd g := rfl
@[simp] theorem modStu_flag (s : State) (f : Stu → Stu) (g : Fld) : (s.modStu f).flag g = s.flag g := rfl
@[simp] theorem modSaf_word (s : State) (f : Saf → Saf) (a : Nat) : (s.modSaf f).word a = s.word a := rfl
@[simp] theorem modSaf_rd (s : State) (f : Saf → Saf) (g : Fld) : (s.modSaf f).rd g = s.rd g := rfl
@[simp] theorem modSaf_flag (s : State) (f : Saf → Saf) (g : Fld) : (s.modSaf f).flag g = s.flag g := rfl
@[simp] theorem modCap_word (s : State) (f : Cap → Cap) (a : Nat) : (s.modCap f).word a = s.word a := rfl
@[simp] theorem modCap_rd (s : State) (f : Cap → Cap) (g : Fld) : (s.modCap f).rd g = s.rd g := rfl
@[simp] theorem modCap_flag (s : State) (f : Cap → Cap) (g : Fld) : (s.modCap f).flag g = s.flag g := rfl
@[simp] theorem modFso_word (s : State) (f : Fso → Fso) (a : Nat) : (s.modFso f).word a = s.word a := rfl
@[simp] theorem modFso_rd (s : State) (f : Fso → Fso) (g : Fld) : (s.modFso f).rd g = s.rd g := rfl
@[simp] theorem modFso_flag (s : State) (f : Fso → Fso) (g : Fld) : (s.modFso f).flag g = s.flag g := rfl
@[simp] theorem modCmp_word (s : State) (f : Cmp → Cmp) (a : Nat) : (s.modCmp f).word a = s.word a := rfl
@[simp] theorem modCmp_rd (s : State) (f : Cmp → Cmp) (g : Fld) : (s.modCmp f).rd g = s.rd g := rfl
@[simp] theorem modCmp_flag (s : State) (f : Cmp → Cmp) (g : Fld) : (s.modCmp f).flag g = s.flag g := rfl
@[simp] theorem modMem_word (s : State) (f : Mem → Mem) (a : Nat) : (s.modMem f).word a = s.word a := rfl
@[simp] theorem modMem_rd (s : State) (f : Mem → Mem) (g : Fld) : (s.modMem f).rd g = s.rd g := rfl
@[simp] theorem modMem_flag (s : State) (f : Mem → Mem) (g : Fld) : (s.modMem f).flag g = s.flag g := rfl
@[simp] theorem modLnk_word (s : State) (f : Lnk → Lnk) (a : Nat) : (s.modLnk f).word a = s.word a := rfl
@[simp] theorem modLnk_rd (s : State) (f : Lnk → Lnk) (g : Fld) : (s.modLnk f).rd g = s.rd g := rfl
@[simp] theorem modLnk_flag (s : State) (f : Lnk → Lnk) (g : Fld) : (s.modLnk f).flag g = s.flag g := rfl
@[simp] theorem modTbu_word (s : State) (f : Tbu → Tbu) (a : Nat) : (s.modTbu f).word a = s.word a := rfl
@[simp] theorem modTbu_rd (s : State) (f : Tbu → Tbu) (g : Fld) : (s.modTbu f).rd g = s.rd g := rfl
@[simp] theorem modTbu_flag (s : State) (f : Tbu → Tbu) (g : Fld) : (s.modTbu f).flag g = s.flag g := rfl
@[simp] theorem modHk_word (s : State) (f : Hk → Hk) (a : Nat) : (s.modHk f).word a = s.word a := rfl
@[simp] theorem modHk_rd (s : State) (f : Hk → Hk) (g : Fld) : (s.modHk f).rd g = s.rd g := rfl
@[simp] theorem modHk_flag (s : State) (f : Hk → Hk) (g : Fld) : (s.modHk f).flag g = s.flag g := rfl
@[simp] theorem modBoot_word (s : State) (f : Boot → Boot) (a : Nat) : (s.modBoot f).word a = s.word a := rfl
@[simp] theorem modBoot_rd (s : State) (f : Boot → Boot) (g : Fld) : (s.modBoot f).rd g = s.rd g := rfl
@[simp] theorem modBoot_flag (s : State) (f : Boot → Boot) (g : Fld) : (s.modBoot f).flag g = s.flag g := rfl
@[simp] theorem setDev_rd (s : State) (d : DevState) (g : Fld) : (s.setDev d).rd g = s.rd g := rfl
@[simp] theorem begin_word (s : State) (t a : Nat) : (s.begin t).word a = s.word a := rfl
@[simp] theorem begin_rd (s : State) (t : Nat) (g : Fld) : (s.begin t).rd g = s.rd g := rfl
@[simp] theorem begin_flag (s : State) (t : Nat) (g : Fld) : (s.begin t).flag g = s.flag g := rfl

end Machine

end Sys2Proof
end

