-- ==== Sys2Proof/Laws/State.lean ====
section
/-! SUPPORT. The state operations of Ops: for every operation on the state, the parts that it leaves unchanged (`_frame`) and that it keeps the form of
every state (`_inv`). A lemma of an operation that chooses between two states has a premise for the second. -/

namespace Sys2Proof.Machine

/-! ### Parts, choices and folds -/

theorem Only.refl (ps : List Part) (s : State) : Only ps s s :=
  ⟨rfl, rfl, fun p _ => by cases p <;> rfl⟩

theorem Only.trans {ps : List Part} {s t u : State} (h : Only ps s t) (k : Only ps t u) : Only ps s u := by
  refine ⟨k.1.trans h.1, k.2.1.trans h.2.1, fun p hp => ?_⟩
  have a := h.2.2 p hp
  have b := k.2.2 p hp
  cases p <;> exact b.trans a

theorem Only.mono {ps qs : List Part} {s t : State} (h : Only ps s t) (k : ∀ p, p ∈ ps → p ∈ qs) : Only qs s t :=
  ⟨h.1, h.2.1, fun p hp => h.2.2 p fun hq => hp (k p hq)⟩

theorem Only.fold {β : Type} {ps : List Part} (f : State → β → State) (h : ∀ u a, Only ps u (f u a)) (l : List β) (s : State) :
    Only ps s (l.foldl f s) := by
  induction l generalizing s with
  | nil => exact Only.refl ps s
  | cons a l ih => exact (h s a).trans (ih _)

@[simp] theorem ite_clk (c : Prop) [Decidable c] (a b : State) : (if c then a else b).clk = if c then a.clk else b.clk := by split <;> rfl
@[simp] theorem fold_clk {β : Type} (f : State → β → State) (h : ∀ u a, (f u a).clk = u.clk) (l : List β) (s : State) : (l.foldl f s).clk = s.clk := by
  induction l generalizing s with
  | nil => rfl
  | cons a l ih => simp [ih, h]
@[simp] theorem ite_tofs (c : Prop) [Decidable c] (a b : State) : (if c then a else b).tofs = if c then a.tofs else b.tofs := by split <;> rfl
@[simp] theorem fold_tofs {β : Type} (f : State → β → State) (h : ∀ u a, (f u a).tofs = u.tofs) (l : List β) (s : State) : (l.foldl f s).tofs = s.tofs := by
  induction l generalizing s with
  | nil => rfl
  | cons a l ih => simp [ih, h]
@[simp] theorem ite_dev (c : Prop) [Decidable c] (a b : State) : (if c then a else b).dev = if c then a.dev else b.dev := by split <;> rfl
@[simp] theorem fold_dev {β : Type} (f : State → β → State) (h : ∀ u a, (f u a).dev = u.dev) (l : List β) (s : State) : (l.foldl f s).dev = s.dev := by
  induction l generalizing s with
  | nil => rfl
  | cons a l ih => simp [ih, h]
@[simp] theorem ite_regs (c : Prop) [Decidable c] (a b : State) : (if c then a else b).regs = if c then a.regs else b.regs := by split <;> rfl
@[simp] theorem fold_regs {β : Type} (f : State → β → State) (h : ∀ u a, (f u a).regs = u.regs) (l : List β) (s : State) : (l.foldl f s).regs = s.regs := by
  induction l generalizing s with
  | nil => rfl
  | cons a l ih => simp [ih, h]
@[simp] theorem ite_mgmt (c : Prop) [Decidable c] (a b : State) : (if c then a else b).mgmt = if c then a.mgmt else b.mgmt := by split <;> rfl
@[simp] theorem fold_mgmt {β : Type} (f : State → β → State) (h : ∀ u a, (f u a).mgmt = u.mgmt) (l : List β) (s : State) : (l.foldl f s).mgmt = s.mgmt := by
  induction l generalizing s with
  | nil => rfl
  | cons a l ih => simp [ih, h]
@[simp] theorem ite_seq (c : Prop) [Decidable c] (a b : State) : (if c then a else b).seq = if c then a.seq else b.seq := by split <;> rfl
@[simp] theorem fold_seq {β : Type} (f : State → β → State) (h : ∀ u a, (f u a).seq = u.seq) (l : List β) (s : State) : (l.foldl f s).seq = s.seq := by
  induction l generalizing s with
  | nil => rfl
  | cons a l ih => simp [ih, h]
@[simp] theorem ite_edu (c : Prop) [Decidable c] (a b : State) : (if c then a else b).edu = if c then a.edu else b.edu := by split <;> rfl
@[simp] theorem fold_edu {β : Type} (f : State → β → State) (h : ∀ u a, (f u a).edu = u.edu) (l : List β) (s : State) : (l.foldl f s).edu = s.edu := by
  induction l generalizing s with
  | nil => rfl
  | cons a l ih => simp [ih, h]
@[simp] theorem ite_rta (c : Prop) [Decidable c] (a b : State) : (if c then a else b).rta = if c then a.rta else b.rta := by split <;> rfl
@[simp] theorem fold_rta {β : Type} (f : State → β → State) (h : ∀ u a, (f u a).rta = u.rta) (l : List β) (s : State) : (l.foldl f s).rta = s.rta := by
  induction l generalizing s with
  | nil => rfl
  | cons a l ih => simp [ih, h]
@[simp] theorem ite_rpe (c : Prop) [Decidable c] (a b : State) : (if c then a else b).rpe = if c then a.rpe else b.rpe := by split <;> rfl
@[simp] theorem fold_rpe {β : Type} (f : State → β → State) (h : ∀ u a, (f u a).rpe = u.rpe) (l : List β) (s : State) : (l.foldl f s).rpe = s.rpe := by
  induction l generalizing s with
  | nil => rfl
  | cons a l ih => simp [ih, h]
@[simp] theorem ite_stu (c : Prop) [Decidable c] (a b : State) : (if c then a else b).stu = if c then a.stu else b.stu := by split <;> rfl
@[simp] theorem fold_stu {β : Type} (f : State → β → State) (h : ∀ u a, (f u a).stu = u.stu) (l : List β) (s : State) : (l.foldl f s).stu = s.stu := by
  induction l generalizing s with
  | nil => rfl
  | cons a l ih => simp [ih, h]
@[simp] theorem ite_saf (c : Prop) [Decidable c] (a b : State) : (if c then a else b).saf = if c then a.saf else b.saf := by split <;> rfl
@[simp] theorem fold_saf {β : Type} (f : State → β → State) (h : ∀ u a, (f u a).saf = u.saf) (l : List β) (s : State) : (l.foldl f s).saf = s.saf := by
  induction l generalizing s with
  | nil => rfl
  | cons a l ih => simp [ih, h]
@[simp] theorem ite_cap (c : Prop) [Decidable c] (a b : State) : (if c then a else b).cap = if c then a.cap else b.cap := by split <;> rfl
@[simp] theorem fold_cap {β : Type} (f : State → β → State) (h : ∀ u a, (f u a).cap = u.cap) (l : List β) (s : State) : (l.foldl f s).cap = s.cap := by
  induction l generalizing s with
  | nil => rfl
  | cons a l ih => simp [ih, h]
@[simp] theorem ite_fso (c : Prop) [Decidable c] (a b : State) : (if c then a else b).fso = if c then a.fso else b.fso := by split <;> rfl
@[simp] theorem fold_fso {β : Type} (f : State → β → State) (h : ∀ u a, (f u a).fso = u.fso) (l : List β) (s : State) : (l.foldl f s).fso = s.fso := by
  induction l generalizing s with
  | nil => rfl
  | cons a l ih => simp [ih, h]
@[simp] theorem ite_cmp (c : Prop) [Decidable c] (a b : State) : (if c then a else b).cmp = if c then a.cmp else b.cmp := by split <;> rfl
@[simp] theorem fold_cmp {β : Type} (f : State → β → State) (h : ∀ u a, (f u a).cmp = u.cmp) (l : List β) (s : State) : (l.foldl f s).cmp = s.cmp := by
  induction l generalizing s with
  | nil => rfl
  | cons a l ih => simp [ih, h]
@[simp] theorem ite_mem (c : Prop) [Decidable c] (a b : State) : (if c then a else b).mem = if c then a.mem else b.mem := by split <;> rfl
@[simp] theorem fold_mem {β : Type} (f : State → β → State) (h : ∀ u a, (f u a).mem = u.mem) (l : List β) (s : State) : (l.foldl f s).mem = s.mem := by
  induction l generalizing s with
  | nil => rfl
  | cons a l ih => simp [ih, h]
@[simp] theorem ite_lnk (c : Prop) [Decidable c] (a b : State) : (if c then a else b).lnk = if c then a.lnk else b.lnk := by split <;> rfl
@[simp] theorem fold_lnk {β : Type} (f : State → β → State) (h : ∀ u a, (f u a).lnk = u.lnk) (l : List β) (s : State) : (l.foldl f s).lnk = s.lnk := by
  induction l generalizing s with
  | nil => rfl
  | cons a l ih => simp [ih, h]
@[simp] theorem ite_tbu (c : Prop) [Decidable c] (a b : State) : (if c then a else b).tbu = if c then a.tbu else b.tbu := by split <;> rfl
@[simp] theorem fold_tbu {β : Type} (f : State → β → State) (h : ∀ u a, (f u a).tbu = u.tbu) (l : List β) (s : State) : (l.foldl f s).tbu = s.tbu := by
  induction l generalizing s with
  | nil => rfl
  | cons a l ih => simp [ih, h]
@[simp] theorem ite_hk (c : Prop) [Decidable c] (a b : State) : (if c then a else b).hk = if c then a.hk else b.hk := by split <;> rfl
@[simp] theorem fold_hk {β : Type} (f : State → β → State) (h : ∀ u a, (f u a).hk = u.hk) (l : List β) (s : State) : (l.foldl f s).hk = s.hk := by
  induction l generalizing s with
  | nil => rfl
  | cons a l ih => simp [ih, h]
@[simp] theorem ite_boot (c : Prop) [Decidable c] (a b : State) : (if c then a else b).boot = if c then a.boot else b.boot := by split <;> rfl
@[simp] theorem fold_boot {β : Type} (f : State → β → State) (h : ∀ u a, (f u a).boot = u.boot) (l : List β) (s : State) : (l.foldl f s).boot = s.boot := by
  induction l generalizing s with
  | nil => rfl
  | cons a l ih => simp [ih, h]
@[simp] theorem ite_out (c : Prop) [Decidable c] (a b : State) : (if c then a else b).out = if c then a.out else b.out := by split <;> rfl
@[simp] theorem fold_out {β : Type} (f : State → β → State) (h : ∀ u a, (f u a).out = u.out) (l : List β) (s : State) : (l.foldl f s).out = s.out := by
  induction l generalizing s with
  | nil => rfl
  | cons a l ih => simp [ih, h]
@[simp] theorem ite_goodAt (c : Prop) [Decidable c] (a b : State) : (if c then a else b).goodAt = if c then a.goodAt else b.goodAt := by split <;> rfl
@[simp] theorem fold_goodAt {β : Type} (f : State → β → State) (h : ∀ u a, (f u a).goodAt = u.goodAt) (l : List β) (s : State) : (l.foldl f s).goodAt = s.goodAt := by
  induction l generalizing s with
  | nil => rfl
  | cons a l ih => simp [ih, h]
@[simp] theorem ite_free (c : Prop) [Decidable c] (a b : State) : (if c then a else b).free = if c then a.free else b.free := by split <;> rfl
@[simp] theorem fold_free {β : Type} (f : State → β → State) (h : ∀ u a, (f u a).free = u.free) (l : List β) (s : State) : (l.foldl f s).free = s.free := by
  induction l generalizing s with
  | nil => rfl
  | cons a l ih => simp [ih, h]
@[simp] theorem ite_pending (c : Prop) [Decidable c] (a b : State) : (if c then a else b).pending = if c then a.pending else b.pending := by split <;> rfl
@[simp] theorem fold_pending {β : Type} (f : State → β → State) (h : ∀ u a, (f u a).pending = u.pending) (l : List β) (s : State) : (l.foldl f s).pending = s.pending := by
  induction l generalizing s with
  | nil => rfl
  | cons a l ih => simp [ih, h]
@[simp] theorem fold1_clk {β γ : Type} (f : State × γ → β → State × γ) (h : ∀ u a, (f u a).1.clk = u.1.clk) (l : List β) (s : State × γ) : (l.foldl f s).1.clk = s.1.clk := by
  induction l generalizing s with
  | nil => rfl
  | cons a l ih => simp [ih, h]
@[simp] theorem fold1_tofs {β γ : Type} (f : State × γ → β → State × γ) (h : ∀ u a, (f u a).1.tofs = u.1.tofs) (l : List β) (s : State × γ) : (l.foldl f s).1.tofs = s.1.tofs := by
  induction l generalizing s with
  | nil => rfl
  | cons a l ih => simp [ih, h]
@[simp] theorem fold1_dev {β γ : Type} (f : State × γ → β → State × γ) (h : ∀ u a, (f u a).1.dev = u.1.dev) (l : List β) (s : State × γ) : (l.foldl f s).1.dev = s.1.dev := by
  induction l generalizing s with
  | nil => rfl
  | cons a l ih => simp [ih, h]
@[simp] theorem fold1_regs {β γ : Type} (f : State × γ → β → State × γ) (h : ∀ u a, (f u a).1.regs = u.1.regs) (l : List β) (s : State × γ) : (l.foldl f s).1.regs = s.1.regs := by
  induction l generalizing s with
  | nil => rfl
  | cons a l ih => simp [ih, h]
@[simp] theorem fold1_mgmt {β γ : Type} (f : State × γ → β → State × γ) (h : ∀ u a, (f u a).1.mgmt = u.1.mgmt) (l : List β) (s : State × γ) : (l.foldl f s).1.mgmt = s.1.mgmt := by
  induction l generalizing s with
  | nil => rfl
  | cons a l ih => simp [ih, h]
@[simp] theorem fold1_seq {β γ : Type} (f : State × γ → β → State × γ) (h : ∀ u a, (f u a).1.seq = u.1.seq) (l : List β) (s : State × γ) : (l.foldl f s).1.seq = s.1.seq := by
  induction l generalizing s with
  | nil => rfl
  | cons a l ih => simp [ih, h]
@[simp] theorem fold1_edu {β γ : Type} (f : State × γ → β → State × γ) (h : ∀ u a, (f u a).1.edu = u.1.edu) (l : List β) (s : State × γ) : (l.foldl f s).1.edu = s.1.edu := by
  induction l generalizing s with
  | nil => rfl
  | cons a l ih => simp [ih, h]
@[simp] theorem fold1_rta {β γ : Type} (f : State × γ → β → State × γ) (h : ∀ u a, (f u a).1.rta = u.1.rta) (l : List β) (s : State × γ) : (l.foldl f s).1.rta = s.1.rta := by
  induction l generalizing s with
  | nil => rfl
  | cons a l ih => simp [ih, h]
@[simp] theorem fold1_rpe {β γ : Type} (f : State × γ → β → State × γ) (h : ∀ u a, (f u a).1.rpe = u.1.rpe) (l : List β) (s : State × γ) : (l.foldl f s).1.rpe = s.1.rpe := by
  induction l generalizing s with
  | nil => rfl
  | cons a l ih => simp [ih, h]
@[simp] theorem fold1_stu {β γ : Type} (f : State × γ → β → State × γ) (h : ∀ u a, (f u a).1.stu = u.1.stu) (l : List β) (s : State × γ) : (l.foldl f s).1.stu = s.1.stu := by
  induction l generalizing s with
  | nil => rfl
  | cons a l ih => simp [ih, h]
@[simp] theorem fold1_saf {β γ : Type} (f : State × γ → β → State × γ) (h : ∀ u a, (f u a).1.saf = u.1.saf) (l : List β) (s : State × γ) : (l.foldl f s).1.saf = s.1.saf := by
  induction l generalizing s with
  | nil => rfl
  | cons a l ih => simp [ih, h]
@[simp] theorem fold1_cap {β γ : Type} (f : State × γ → β → State × γ) (h : ∀ u a, (f u a).1.cap = u.1.cap) (l : List β) (s : State × γ) : (l.foldl f s).1.cap = s.1.cap := by
  induction l generalizing s with
  | nil => rfl
  | cons a l ih => simp [ih, h]
@[simp] theorem fold1_fso {β γ : Type} (f : State × γ → β → State × γ) (h : ∀ u a, (f u a).1.fso = u.1.fso) (l : List β) (s : State × γ) : (l.foldl f s).1.fso = s.1.fso := by
  induction l generalizing s with
  | nil => rfl
  | cons a l ih => simp [ih, h]
@[simp] theorem fold1_cmp {β γ : Type} (f : State × γ → β → State × γ) (h : ∀ u a, (f u a).1.cmp = u.1.cmp) (l : List β) (s : State × γ) : (l.foldl f s).1.cmp = s.1.cmp := by
  induction l generalizing s with
  | nil => rfl
  | cons a l ih => simp [ih, h]
@[simp] theorem fold1_mem {β γ : Type} (f : State × γ → β → State × γ) (h : ∀ u a, (f u a).1.mem = u.1.mem) (l : List β) (s : State × γ) : (l.foldl f s).1.mem = s.1.mem := by
  induction l generalizing s with
  | nil => rfl
  | cons a l ih => simp [ih, h]
@[simp] theorem fold1_lnk {β γ : Type} (f : State × γ → β → State × γ) (h : ∀ u a, (f u a).1.lnk = u.1.lnk) (l : List β) (s : State × γ) : (l.foldl f s).1.lnk = s.1.lnk := by
  induction l generalizing s with
  | nil => rfl
  | cons a l ih => simp [ih, h]
@[simp] theorem fold1_tbu {β γ : Type} (f : State × γ → β → State × γ) (h : ∀ u a, (f u a).1.tbu = u.1.tbu) (l : List β) (s : State × γ) : (l.foldl f s).1.tbu = s.1.tbu := by
  induction l generalizing s with
  | nil => rfl
  | cons a l ih => simp [ih, h]
@[simp] theorem fold1_hk {β γ : Type} (f : State × γ → β → State × γ) (h : ∀ u a, (f u a).1.hk = u.1.hk) (l : List β) (s : State × γ) : (l.foldl f s).1.hk = s.1.hk := by
  induction l generalizing s with
  | nil => rfl
  | cons a l ih => simp [ih, h]
@[simp] theorem fold1_boot {β γ : Type} (f : State × γ → β → State × γ) (h : ∀ u a, (f u a).1.boot = u.1.boot) (l : List β) (s : State × γ) : (l.foldl f s).1.boot = s.1.boot := by
  induction l generalizing s with
  | nil => rfl
  | cons a l ih => simp [ih, h]
@[simp] theorem fold1_out {β γ : Type} (f : State × γ → β → State × γ) (h : ∀ u a, (f u a).1.out = u.1.out) (l : List β) (s : State × γ) : (l.foldl f s).1.out = s.1.out := by
  induction l generalizing s with
  | nil => rfl
  | cons a l ih => simp [ih, h]
@[simp] theorem fold1_goodAt {β γ : Type} (f : State × γ → β → State × γ) (h : ∀ u a, (f u a).1.goodAt = u.1.goodAt) (l : List β) (s : State × γ) : (l.foldl f s).1.goodAt = s.1.goodAt := by
  induction l generalizing s with
  | nil => rfl
  | cons a l ih => simp [ih, h]
@[simp] theorem fold1_free {β γ : Type} (f : State × γ → β → State × γ) (h : ∀ u a, (f u a).1.free = u.1.free) (l : List β) (s : State × γ) : (l.foldl f s).1.free = s.1.free := by
  induction l generalizing s with
  | nil => rfl
  | cons a l ih => simp [ih, h]
@[simp] theorem fold1_pending {β γ : Type} (f : State × γ → β → State × γ) (h : ∀ u a, (f u a).1.pending = u.1.pending) (l : List β) (s : State × γ) : (l.foldl f s).1.pending = s.1.pending := by
  induction l generalizing s with
  | nil => rfl
  | cons a l ih => simp [ih, h]
@[simp] theorem ite_fst {α β : Type} (c : Prop) [Decidable c] (a b : α × β) : (if c then a else b).1 = if c then a.1 else b.1 := by split <;> rfl
@[simp] theorem ite_snd {α β : Type} (c : Prop) [Decidable c] (a b : α × β) : (if c then a else b).2 = if c then a.2 else b.2 := by split <;> rfl

theorem insertEv_length (e : EvEntry) (q : List EvEntry) : (insertEv e q).length = q.length + 1 := by
  induction q with
  | nil => rfl
  | cons x q ih =>
    unfold insertEv
    split
    · rfl
    · simp [ih]

@[simp] theorem ite_inv (c : Prop) [Decidable c] (a b : State) : (if c then a else b).Inv ↔ if c then a.Inv else b.Inv := by
  split <;> rfl

@[simp] theorem fold_inv {β : Type} (f : State → β → State) (h : ∀ u a, u.Inv → (f u a).Inv) (l : List β) (s : State) (hs : s.Inv) :
    (l.foldl f s).Inv := by
  induction l generalizing s with
  | nil => exact hs
  | cons a l ih => exact ih _ (h s a hs)

@[simp] theorem fold1_inv {β γ : Type} (f : State × γ → β → State × γ) (h : ∀ u a, u.1.Inv → (f u a).1.Inv) (l : List β) (s : State × γ)
    (hs : s.1.Inv) : (l.foldl f s).1.Inv := by
  induction l generalizing s with
  | nil => exact hs
  | cons a l ih => exact ih _ (h s a hs)

theorem inv_of_parts {s t : State} (hr : t.regs = s.regs) (hm : t.mgmt = s.mgmt) : t.Inv ↔ s.Inv := by
  unfold State.Inv; rw [hr, hm]

/-! ### Ops -/

@[simp] theorem State.modMgmt_frame (s : State) (x1 : Mgmt → Mgmt) :
    (State.modMgmt s x1).clk = s.clk ∧ (State.modMgmt s x1).tofs = s.tofs ∧ (State.modMgmt s x1).dev = s.dev ∧
    (State.modMgmt s x1).regs = s.regs ∧ (State.modMgmt s x1).seq = s.seq ∧ (State.modMgmt s x1).edu = s.edu ∧
    (State.modMgmt s x1).rta = s.rta ∧ (State.modMgmt s x1).rpe = s.rpe ∧ (State.modMgmt s x1).stu = s.stu ∧
    (State.modMgmt s x1).saf = s.saf ∧ (State.modMgmt s x1).cap = s.cap ∧ (State.modMgmt s x1).fso = s.fso ∧
    (State.modMgmt s x1).cmp = s.cmp ∧ (State.modMgmt s x1).mem = s.mem ∧ (State.modMgmt s x1).lnk = s.lnk ∧
    (State.modMgmt s x1).tbu = s.tbu ∧ (State.modMgmt s x1).hk = s.hk ∧ (State.modMgmt s x1).boot = s.boot ∧
    (State.modMgmt s x1).out = s.out ∧ (State.modMgmt s x1).goodAt = s.goodAt ∧ (State.modMgmt s x1).free = s.free ∧
    (State.modMgmt s x1).pending = s.pending := by
  unfold State.modMgmt
  simp

@[simp] theorem State.modSeq_frame (s : State) (x1 : Seq → Seq) :
    (State.modSeq s x1).clk = s.clk ∧ (State.modSeq s x1).tofs = s.tofs ∧ (State.modSeq s x1).dev = s.dev ∧
    (State.modSeq s x1).regs = s.regs ∧ (State.modSeq s x1).mgmt = s.mgmt ∧ (State.modSeq s x1).edu = s.edu ∧
    (State.modSeq s x1).rta = s.rta ∧ (State.modSeq s x1).rpe = s.rpe ∧ (State.modSeq s x1).stu = s.stu ∧
    (State.modSeq s x1).saf = s.saf ∧ (State.modSeq s x1).cap = s.cap ∧ (State.modSeq s x1).fso = s.fso ∧
    (State.modSeq s x1).cmp = s.cmp ∧ (State.modSeq s x1).mem = s.mem ∧ (State.modSeq s x1).lnk = s.lnk ∧
    (State.modSeq s x1).tbu = s.tbu ∧ (State.modSeq s x1).hk = s.hk ∧ (State.modSeq s x1).boot = s.boot ∧
    (State.modSeq s x1).out = s.out ∧ (State.modSeq s x1).goodAt = s.goodAt ∧ (State.modSeq s x1).free = s.free ∧
    (State.modSeq s x1).pending = s.pending := by
  unfold State.modSeq
  simp

@[simp] theorem State.modEdu_frame (s : State) (x1 : Edu → Edu) :
    (State.modEdu s x1).clk = s.clk ∧ (State.modEdu s x1).tofs = s.tofs ∧ (State.modEdu s x1).dev = s.dev ∧
    (State.modEdu s x1).regs = s.regs ∧ (State.modEdu s x1).mgmt = s.mgmt ∧ (State.modEdu s x1).seq = s.seq ∧
    (State.modEdu s x1).rta = s.rta ∧ (State.modEdu s x1).rpe = s.rpe ∧ (State.modEdu s x1).stu = s.stu ∧
    (State.modEdu s x1).saf = s.saf ∧ (State.modEdu s x1).cap = s.cap ∧ (State.modEdu s x1).fso = s.fso ∧
    (State.modEdu s x1).cmp = s.cmp ∧ (State.modEdu s x1).mem = s.mem ∧ (State.modEdu s x1).lnk = s.lnk ∧
    (State.modEdu s x1).tbu = s.tbu ∧ (State.modEdu s x1).hk = s.hk ∧ (State.modEdu s x1).boot = s.boot ∧
    (State.modEdu s x1).out = s.out ∧ (State.modEdu s x1).goodAt = s.goodAt ∧ (State.modEdu s x1).free = s.free ∧
    (State.modEdu s x1).pending = s.pending := by
  unfold State.modEdu
  simp

@[simp] theorem State.modRta_frame (s : State) (x1 : Rta → Rta) :
    (State.modRta s x1).clk = s.clk ∧ (State.modRta s x1).tofs = s.tofs ∧ (State.modRta s x1).dev = s.dev ∧
    (State.modRta s x1).regs = s.regs ∧ (State.modRta s x1).mgmt = s.mgmt ∧ (State.modRta s x1).seq = s.seq ∧
    (State.modRta s x1).edu = s.edu ∧ (State.modRta s x1).rpe = s.rpe ∧ (State.modRta s x1).stu = s.stu ∧
    (State.modRta s x1).saf = s.saf ∧ (State.modRta s x1).cap = s.cap ∧ (State.modRta s x1).fso = s.fso ∧
    (State.modRta s x1).cmp = s.cmp ∧ (State.modRta s x1).mem = s.mem ∧ (State.modRta s x1).lnk = s.lnk ∧
    (State.modRta s x1).tbu = s.tbu ∧ (State.modRta s x1).hk = s.hk ∧ (State.modRta s x1).boot = s.boot ∧
    (State.modRta s x1).out = s.out ∧ (State.modRta s x1).goodAt = s.goodAt ∧ (State.modRta s x1).free = s.free ∧
    (State.modRta s x1).pending = s.pending := by
  unfold State.modRta
  simp

@[simp] theorem State.modRpe_frame (s : State) (x1 : Rpe → Rpe) :
    (State.modRpe s x1).clk = s.clk ∧ (State.modRpe s x1).tofs = s.tofs ∧ (State.modRpe s x1).dev = s.dev ∧
    (State.modRpe s x1).regs = s.regs ∧ (State.modRpe s x1).mgmt = s.mgmt ∧ (State.modRpe s x1).seq = s.seq ∧
    (State.modRpe s x1).edu = s.edu ∧ (State.modRpe s x1).rta = s.rta ∧ (State.modRpe s x1).stu = s.stu ∧
    (State.modRpe s x1).saf = s.saf ∧ (State.modRpe s x1).cap = s.cap ∧ (State.modRpe s x1).fso = s.fso ∧
    (State.modRpe s x1).cmp = s.cmp ∧ (State.modRpe s x1).mem = s.mem ∧ (State.modRpe s x1).lnk = s.lnk ∧
    (State.modRpe s x1).tbu = s.tbu ∧ (State.modRpe s x1).hk = s.hk ∧ (State.modRpe s x1).boot = s.boot ∧
    (State.modRpe s x1).out = s.out ∧ (State.modRpe s x1).goodAt = s.goodAt ∧ (State.modRpe s x1).free = s.free ∧
    (State.modRpe s x1).pending = s.pending := by
  unfold State.modRpe
  simp

@[simp] theorem State.modStu_frame (s : State) (x1 : Stu → Stu) :
    (State.modStu s x1).clk = s.clk ∧ (State.modStu s x1).tofs = s.tofs ∧ (State.modStu s x1).dev = s.dev ∧
    (State.modStu s x1).regs = s.regs ∧ (State.modStu s x1).mgmt = s.mgmt ∧ (State.modStu s x1).seq = s.seq ∧
    (State.modStu s x1).edu = s.edu ∧ (State.modStu s x1).rta = s.rta ∧ (State.modStu s x1).rpe = s.rpe ∧
    (State.modStu s x1).saf = s.saf ∧ (State.modStu s x1).cap = s.cap ∧ (State.modStu s x1).fso = s.fso ∧
    (State.modStu s x1).cmp = s.cmp ∧ (State.modStu s x1).mem = s.mem ∧ (State.modStu s x1).lnk = s.lnk ∧
    (State.modStu s x1).tbu = s.tbu ∧ (State.modStu s x1).hk = s.hk ∧ (State.modStu s x1).boot = s.boot ∧
    (State.modStu s x1).out = s.out ∧ (State.modStu s x1).goodAt = s.goodAt ∧ (State.modStu s x1).free = s.free ∧
    (State.modStu s x1).pending = s.pending := by
  unfold State.modStu
  simp

@[simp] theorem State.modSaf_frame (s : State) (x1 : Saf → Saf) :
    (State.modSaf s x1).clk = s.clk ∧ (State.modSaf s x1).tofs = s.tofs ∧ (State.modSaf s x1).dev = s.dev ∧
    (State.modSaf s x1).regs = s.regs ∧ (State.modSaf s x1).mgmt = s.mgmt ∧ (State.modSaf s x1).seq = s.seq ∧
    (State.modSaf s x1).edu = s.edu ∧ (State.modSaf s x1).rta = s.rta ∧ (State.modSaf s x1).rpe = s.rpe ∧
    (State.modSaf s x1).stu = s.stu ∧ (State.modSaf s x1).cap = s.cap ∧ (State.modSaf s x1).fso = s.fso ∧
    (State.modSaf s x1).cmp = s.cmp ∧ (State.modSaf s x1).mem = s.mem ∧ (State.modSaf s x1).lnk = s.lnk ∧
    (State.modSaf s x1).tbu = s.tbu ∧ (State.modSaf s x1).hk = s.hk ∧ (State.modSaf s x1).boot = s.boot ∧
    (State.modSaf s x1).out = s.out ∧ (State.modSaf s x1).goodAt = s.goodAt ∧ (State.modSaf s x1).free = s.free ∧
    (State.modSaf s x1).pending = s.pending := by
  unfold State.modSaf
  simp

@[simp] theorem State.modCap_frame (s : State) (x1 : Cap → Cap) :
    (State.modCap s x1).clk = s.clk ∧ (State.modCap s x1).tofs = s.tofs ∧ (State.modCap s x1).dev = s.dev ∧
    (State.modCap s x1).regs = s.regs ∧ (State.modCap s x1).mgmt = s.mgmt ∧ (State.modCap s x1).seq = s.seq ∧
    (State.modCap s x1).edu = s.edu ∧ (State.modCap s x1).rta = s.rta ∧ (State.modCap s x1).rpe = s.rpe ∧
    (State.modCap s x1).stu = s.stu ∧ (State.modCap s x1).saf = s.saf ∧ (State.modCap s x1).fso = s.fso ∧
    (State.modCap s x1).cmp = s.cmp ∧ (State.modCap s x1).mem = s.mem ∧ (State.modCap s x1).lnk = s.lnk ∧
    (State.modCap s x1).tbu = s.tbu ∧ (State.modCap s x1).hk = s.hk ∧ (State.modCap s x1).boot = s.boot ∧
    (State.modCap s x1).out = s.out ∧ (State.modCap s x1).goodAt = s.goodAt ∧ (State.modCap s x1).free = s.free ∧
    (State.modCap s x1).pending = s.pending := by
  unfold State.modCap
  simp

@[simp] theorem State.modFso_frame (s : State) (x1 : Fso → Fso) :
    (State.modFso s x1).clk = s.clk ∧ (State.modFso s x1).tofs = s.tofs ∧ (State.modFso s x1).dev = s.dev ∧
    (State.modFso s x1).regs = s.regs ∧ (State.modFso s x1).mgmt = s.mgmt ∧ (State.modFso s x1).seq = s.seq ∧
    (State.modFso s x1).edu = s.edu ∧ (State.modFso s x1).rta = s.rta ∧ (State.modFso s x1).rpe = s.rpe ∧
    (State.modFso s x1).stu = s.stu ∧ (State.modFso s x1).saf = s.saf ∧ (State.modFso s x1).cap = s.cap ∧
    (State.modFso s x1).cmp = s.cmp ∧ (State.modFso s x1).mem = s.mem ∧ (State.modFso s x1).lnk = s.lnk ∧
    (State.modFso s x1).tbu = s.tbu ∧ (State.modFso s x1).hk = s.hk ∧ (State.modFso s x1).boot = s.boot ∧
    (State.modFso s x1).out = s.out ∧ (State.modFso s x1).goodAt = s.goodAt ∧ (State.modFso s x1).free = s.free ∧
    (State.modFso s x1).pending = s.pending := by
  unfold State.modFso
  simp

@[simp] theorem State.modCmp_frame (s : State) (x1 : Cmp → Cmp) :
    (State.modCmp s x1).clk = s.clk ∧ (State.modCmp s x1).tofs = s.tofs ∧ (State.modCmp s x1).dev = s.dev ∧
    (State.modCmp s x1).regs = s.regs ∧ (State.modCmp s x1).mgmt = s.mgmt ∧ (State.modCmp s x1).seq = s.seq ∧
    (State.modCmp s x1).edu = s.edu ∧ (State.modCmp s x1).rta = s.rta ∧ (State.modCmp s x1).rpe = s.rpe ∧
    (State.modCmp s x1).stu = s.stu ∧ (State.modCmp s x1).saf = s.saf ∧ (State.modCmp s x1).cap = s.cap ∧
    (State.modCmp s x1).fso = s.fso ∧ (State.modCmp s x1).mem = s.mem ∧ (State.modCmp s x1).lnk = s.lnk ∧
    (State.modCmp s x1).tbu = s.tbu ∧ (State.modCmp s x1).hk = s.hk ∧ (State.modCmp s x1).boot = s.boot ∧
    (State.modCmp s x1).out = s.out ∧ (State.modCmp s x1).goodAt = s.goodAt ∧ (State.modCmp s x1).free = s.free ∧
    (State.modCmp s x1).pending = s.pending := by
  unfold State.modCmp
  simp

@[simp] theorem State.modMem_frame (s : State) (x1 : Mem → Mem) :
    (State.modMem s x1).clk = s.clk ∧ (State.modMem s x1).tofs = s.tofs ∧ (State.modMem s x1).dev = s.dev ∧
    (State.modMem s x1).regs = s.regs ∧ (State.modMem s x1).mgmt = s.mgmt ∧ (State.modMem s x1).seq = s.seq ∧
    (State.modMem s x1).edu = s.edu ∧ (State.modMem s x1).rta = s.rta ∧ (State.modMem s x1).rpe = s.rpe ∧
    (State.modMem s x1).stu = s.stu ∧ (State.modMem s x1).saf = s.saf ∧ (State.modMem s x1).cap = s.cap ∧
    (State.modMem s x1).fso = s.fso ∧ (State.modMem s x1).cmp = s.cmp ∧ (State.modMem s x1).lnk = s.lnk ∧
    (State.modMem s x1).tbu = s.tbu ∧ (State.modMem s x1).hk = s.hk ∧ (State.modMem s x1).boot = s.boot ∧
    (State.modMem s x1).out = s.out ∧ (State.modMem s x1).goodAt = s.goodAt ∧ (State.modMem s x1).free = s.free ∧
    (State.modMem s x1).pending = s.pending := by
  unfold State.modMem
  simp

@[simp] theorem State.modLnk_frame (s : State) (x1 : Lnk → Lnk) :
    (State.modLnk s x1).clk = s.clk ∧ (State.modLnk s x1).tofs = s.tofs ∧ (State.modLnk s x1).dev = s.dev ∧
    (State.modLnk s x1).regs = s.regs ∧ (State.modLnk s x1).mgmt = s.mgmt ∧ (State.modLnk s x1).seq = s.seq ∧
    (State.modLnk s x1).edu = s.edu ∧ (State.modLnk s x1).rta = s.rta ∧ (State.modLnk s x1).rpe = s.rpe ∧
    (State.modLnk s x1).stu = s.stu ∧ (State.modLnk s x1).saf = s.saf ∧ (State.modLnk s x1).cap = s.cap ∧
    (State.modLnk s x1).fso = s.fso ∧ (State.modLnk s x1).cmp = s.cmp ∧ (State.modLnk s x1).mem = s.mem ∧
    (State.modLnk s x1).tbu = s.tbu ∧ (State.modLnk s x1).hk = s.hk ∧ (State.modLnk s x1).boot = s.boot ∧
    (State.modLnk s x1).out = s.out ∧ (State.modLnk s x1).goodAt = s.goodAt ∧ (State.modLnk s x1).free = s.free ∧
    (State.modLnk s x1).pending = s.pending := by
  unfold State.modLnk
  simp

@[simp] theorem State.modTbu_frame (s : State) (x1 : Tbu → Tbu) :
    (State.modTbu s x1).clk = s.clk ∧ (State.modTbu s x1).tofs = s.tofs ∧ (State.modTbu s x1).dev = s.dev ∧
    (State.modTbu s x1).regs = s.regs ∧ (State.modTbu s x1).mgmt = s.mgmt ∧ (State.modTbu s x1).seq = s.seq ∧
    (State.modTbu s x1).edu = s.edu ∧ (State.modTbu s x1).rta = s.rta ∧ (State.modTbu s x1).rpe = s.rpe ∧
    (State.modTbu s x1).stu = s.stu ∧ (State.modTbu s x1).saf = s.saf ∧ (State.modTbu s x1).cap = s.cap ∧
    (State.modTbu s x1).fso = s.fso ∧ (State.modTbu s x1).cmp = s.cmp ∧ (State.modTbu s x1).mem = s.mem ∧
    (State.modTbu s x1).lnk = s.lnk ∧ (State.modTbu s x1).hk = s.hk ∧ (State.modTbu s x1).boot = s.boot ∧
    (State.modTbu s x1).out = s.out ∧ (State.modTbu s x1).goodAt = s.goodAt ∧ (State.modTbu s x1).free = s.free ∧
    (State.modTbu s x1).pending = s.pending := by
  unfold State.modTbu
  simp

@[simp] theorem State.modHk_frame (s : State) (x1 : Hk → Hk) :
    (State.modHk s x1).clk = s.clk ∧ (State.modHk s x1).tofs = s.tofs ∧ (State.modHk s x1).dev = s.dev ∧
    (State.modHk s x1).regs = s.regs ∧ (State.modHk s x1).mgmt = s.mgmt ∧ (State.modHk s x1).seq = s.seq ∧
    (State.modHk s x1).edu = s.edu ∧ (State.modHk s x1).rta = s.rta ∧ (State.modHk s x1).rpe = s.rpe ∧
    (State.modHk s x1).stu = s.stu ∧ (State.modHk s x1).saf = s.saf ∧ (State.modHk s x1).cap = s.cap ∧
    (State.modHk s x1).fso = s.fso ∧ (State.modHk s x1).cmp = s.cmp ∧ (State.modHk s x1).mem = s.mem ∧
    (State.modHk s x1).lnk = s.lnk ∧ (State.modHk s x1).tbu = s.tbu ∧ (State.modHk s x1).boot = s.boot ∧
    (State.modHk s x1).out = s.out ∧ (State.modHk s x1).goodAt = s.goodAt ∧ (State.modHk s x1).free = s.free ∧
    (State.modHk s x1).pending = s.pending := by
  unfold State.modHk
  simp

@[simp] theorem State.modBoot_frame (s : State) (x1 : Boot → Boot) :
    (State.modBoot s x1).clk = s.clk ∧ (State.modBoot s x1).tofs = s.tofs ∧ (State.modBoot s x1).dev = s.dev ∧
    (State.modBoot s x1).regs = s.regs ∧ (State.modBoot s x1).mgmt = s.mgmt ∧ (State.modBoot s x1).seq = s.seq ∧
    (State.modBoot s x1).edu = s.edu ∧ (State.modBoot s x1).rta = s.rta ∧ (State.modBoot s x1).rpe = s.rpe ∧
    (State.modBoot s x1).stu = s.stu ∧ (State.modBoot s x1).saf = s.saf ∧ (State.modBoot s x1).cap = s.cap ∧
    (State.modBoot s x1).fso = s.fso ∧ (State.modBoot s x1).cmp = s.cmp ∧ (State.modBoot s x1).mem = s.mem ∧
    (State.modBoot s x1).lnk = s.lnk ∧ (State.modBoot s x1).tbu = s.tbu ∧ (State.modBoot s x1).hk = s.hk ∧
    (State.modBoot s x1).out = s.out ∧ (State.modBoot s x1).goodAt = s.goodAt ∧ (State.modBoot s x1).free = s.free ∧
    (State.modBoot s x1).pending = s.pending := by
  unfold State.modBoot
  simp

@[simp] theorem State.setTofs_frame (s : State) (x1 : ℤ) :
    (State.setTofs s x1).clk = s.clk ∧ (State.setTofs s x1).dev = s.dev ∧ (State.setTofs s x1).regs = s.regs ∧
    (State.setTofs s x1).mgmt = s.mgmt ∧ (State.setTofs s x1).seq = s.seq ∧ (State.setTofs s x1).edu = s.edu ∧
    (State.setTofs s x1).rta = s.rta ∧ (State.setTofs s x1).rpe = s.rpe ∧ (State.setTofs s x1).stu = s.stu ∧
    (State.setTofs s x1).saf = s.saf ∧ (State.setTofs s x1).cap = s.cap ∧ (State.setTofs s x1).fso = s.fso ∧
    (State.setTofs s x1).cmp = s.cmp ∧ (State.setTofs s x1).mem = s.mem ∧ (State.setTofs s x1).lnk = s.lnk ∧
    (State.setTofs s x1).tbu = s.tbu ∧ (State.setTofs s x1).hk = s.hk ∧ (State.setTofs s x1).boot = s.boot ∧
    (State.setTofs s x1).out = s.out ∧ (State.setTofs s x1).goodAt = s.goodAt ∧ (State.setTofs s x1).free = s.free ∧
    (State.setTofs s x1).pending = s.pending := by
  unfold State.setTofs
  simp

@[simp] theorem State.setGoodAt_frame (s : State) (x1 : ℕ) :
    (State.setGoodAt s x1).clk = s.clk ∧ (State.setGoodAt s x1).tofs = s.tofs ∧ (State.setGoodAt s x1).dev = s.dev ∧
    (State.setGoodAt s x1).regs = s.regs ∧ (State.setGoodAt s x1).mgmt = s.mgmt ∧ (State.setGoodAt s x1).seq = s.seq ∧
    (State.setGoodAt s x1).edu = s.edu ∧ (State.setGoodAt s x1).rta = s.rta ∧ (State.setGoodAt s x1).rpe = s.rpe ∧
    (State.setGoodAt s x1).stu = s.stu ∧ (State.setGoodAt s x1).saf = s.saf ∧ (State.setGoodAt s x1).cap = s.cap ∧
    (State.setGoodAt s x1).fso = s.fso ∧ (State.setGoodAt s x1).cmp = s.cmp ∧ (State.setGoodAt s x1).mem = s.mem ∧
    (State.setGoodAt s x1).lnk = s.lnk ∧ (State.setGoodAt s x1).tbu = s.tbu ∧ (State.setGoodAt s x1).hk = s.hk ∧
    (State.setGoodAt s x1).boot = s.boot ∧ (State.setGoodAt s x1).out = s.out ∧ (State.setGoodAt s x1).free = s.free ∧
    (State.setGoodAt s x1).pending = s.pending := by
  unfold State.setGoodAt
  simp

@[simp] theorem State.setDev_frame (s : State) (x1 : DevState) :
    (State.setDev s x1).clk = s.clk ∧ (State.setDev s x1).tofs = s.tofs ∧ (State.setDev s x1).regs = s.regs ∧
    (State.setDev s x1).mgmt = s.mgmt ∧ (State.setDev s x1).seq = s.seq ∧ (State.setDev s x1).edu = s.edu ∧
    (State.setDev s x1).rta = s.rta ∧ (State.setDev s x1).rpe = s.rpe ∧ (State.setDev s x1).stu = s.stu ∧
    (State.setDev s x1).saf = s.saf ∧ (State.setDev s x1).cap = s.cap ∧ (State.setDev s x1).fso = s.fso ∧
    (State.setDev s x1).cmp = s.cmp ∧ (State.setDev s x1).mem = s.mem ∧ (State.setDev s x1).lnk = s.lnk ∧
    (State.setDev s x1).tbu = s.tbu ∧ (State.setDev s x1).hk = s.hk ∧ (State.setDev s x1).boot = s.boot ∧
    (State.setDev s x1).out = s.out ∧ (State.setDev s x1).goodAt = s.goodAt ∧ (State.setDev s x1).free = s.free ∧
    (State.setDev s x1).pending = s.pending := by
  unfold State.setDev
  simp

@[simp] theorem State.setWord_frame (s : State) (x1 : ℕ) (x2 : Word) :
    (State.setWord s x1 x2).clk = s.clk ∧ (State.setWord s x1 x2).tofs = s.tofs ∧ (State.setWord s x1 x2).dev = s.dev ∧
    (State.setWord s x1 x2).mgmt = s.mgmt ∧ (State.setWord s x1 x2).seq = s.seq ∧ (State.setWord s x1 x2).edu = s.edu ∧
    (State.setWord s x1 x2).rta = s.rta ∧ (State.setWord s x1 x2).rpe = s.rpe ∧ (State.setWord s x1 x2).stu = s.stu ∧
    (State.setWord s x1 x2).saf = s.saf ∧ (State.setWord s x1 x2).cap = s.cap ∧ (State.setWord s x1 x2).fso = s.fso ∧
    (State.setWord s x1 x2).cmp = s.cmp ∧ (State.setWord s x1 x2).mem = s.mem ∧ (State.setWord s x1 x2).lnk = s.lnk ∧
    (State.setWord s x1 x2).tbu = s.tbu ∧ (State.setWord s x1 x2).hk = s.hk ∧ (State.setWord s x1 x2).boot = s.boot ∧
    (State.setWord s x1 x2).out = s.out ∧ (State.setWord s x1 x2).goodAt = s.goodAt ∧
    (State.setWord s x1 x2).free = s.free ∧ (State.setWord s x1 x2).pending = s.pending := by
  unfold State.setWord
  simp

@[simp] theorem State.wrNote_frame (s : State) (x1 : Fld) (x2 : ℕ) (x3 : ℕ) :
    (State.wrNote s x1 x2 x3).clk = s.clk ∧ (State.wrNote s x1 x2 x3).tofs = s.tofs ∧
    (State.wrNote s x1 x2 x3).dev = s.dev ∧ (State.wrNote s x1 x2 x3).mgmt = s.mgmt ∧
    (State.wrNote s x1 x2 x3).seq = s.seq ∧ (State.wrNote s x1 x2 x3).edu = s.edu ∧ (State.wrNote s x1 x2 x3).rta = s.rta ∧
    (State.wrNote s x1 x2 x3).rpe = s.rpe ∧ (State.wrNote s x1 x2 x3).stu = s.stu ∧ (State.wrNote s x1 x2 x3).saf = s.saf ∧
    (State.wrNote s x1 x2 x3).cap = s.cap ∧ (State.wrNote s x1 x2 x3).fso = s.fso ∧ (State.wrNote s x1 x2 x3).cmp = s.cmp ∧
    (State.wrNote s x1 x2 x3).mem = s.mem ∧ (State.wrNote s x1 x2 x3).lnk = s.lnk ∧ (State.wrNote s x1 x2 x3).tbu = s.tbu ∧
    (State.wrNote s x1 x2 x3).hk = s.hk ∧ (State.wrNote s x1 x2 x3).boot = s.boot ∧ (State.wrNote s x1 x2 x3).out = s.out ∧
    (State.wrNote s x1 x2 x3).goodAt = s.goodAt ∧ (State.wrNote s x1 x2 x3).free = s.free ∧
    (State.wrNote s x1 x2 x3).pending = s.pending := by
  unfold State.wrNote
  simp

@[simp] theorem State.wr_frame (s : State) (x1 : Fld) (x2 : ℕ) :
    (State.wr s x1 x2).clk = s.clk ∧ (State.wr s x1 x2).tofs = s.tofs ∧ (State.wr s x1 x2).dev = s.dev ∧
    (State.wr s x1 x2).mgmt = s.mgmt ∧ (State.wr s x1 x2).seq = s.seq ∧ (State.wr s x1 x2).edu = s.edu ∧
    (State.wr s x1 x2).rta = s.rta ∧ (State.wr s x1 x2).rpe = s.rpe ∧ (State.wr s x1 x2).stu = s.stu ∧
    (State.wr s x1 x2).saf = s.saf ∧ (State.wr s x1 x2).cap = s.cap ∧ (State.wr s x1 x2).fso = s.fso ∧
    (State.wr s x1 x2).cmp = s.cmp ∧ (State.wr s x1 x2).mem = s.mem ∧ (State.wr s x1 x2).lnk = s.lnk ∧
    (State.wr s x1 x2).tbu = s.tbu ∧ (State.wr s x1 x2).hk = s.hk ∧ (State.wr s x1 x2).boot = s.boot ∧
    (State.wr s x1 x2).out = s.out ∧ (State.wr s x1 x2).goodAt = s.goodAt ∧ (State.wr s x1 x2).free = s.free ∧
    (State.wr s x1 x2).pending = s.pending := by
  unfold State.wr
  simp

@[simp] theorem State.wrZ_frame (s : State) (x1 : Fld) (x2 : ℤ) :
    (State.wrZ s x1 x2).clk = s.clk ∧ (State.wrZ s x1 x2).tofs = s.tofs ∧ (State.wrZ s x1 x2).dev = s.dev ∧
    (State.wrZ s x1 x2).mgmt = s.mgmt ∧ (State.wrZ s x1 x2).seq = s.seq ∧ (State.wrZ s x1 x2).edu = s.edu ∧
    (State.wrZ s x1 x2).rta = s.rta ∧ (State.wrZ s x1 x2).rpe = s.rpe ∧ (State.wrZ s x1 x2).stu = s.stu ∧
    (State.wrZ s x1 x2).saf = s.saf ∧ (State.wrZ s x1 x2).cap = s.cap ∧ (State.wrZ s x1 x2).fso = s.fso ∧
    (State.wrZ s x1 x2).cmp = s.cmp ∧ (State.wrZ s x1 x2).mem = s.mem ∧ (State.wrZ s x1 x2).lnk = s.lnk ∧
    (State.wrZ s x1 x2).tbu = s.tbu ∧ (State.wrZ s x1 x2).hk = s.hk ∧ (State.wrZ s x1 x2).boot = s.boot ∧
    (State.wrZ s x1 x2).out = s.out ∧ (State.wrZ s x1 x2).goodAt = s.goodAt ∧ (State.wrZ s x1 x2).free = s.free ∧
    (State.wrZ s x1 x2).pending = s.pending := by
  unfold State.wrZ
  simp

@[simp] theorem State.put_frame (s : State) (x1 : Fld) (x2 : Bool) :
    (State.put s x1 x2).clk = s.clk ∧ (State.put s x1 x2).tofs = s.tofs ∧ (State.put s x1 x2).dev = s.dev ∧
    (State.put s x1 x2).mgmt = s.mgmt ∧ (State.put s x1 x2).seq = s.seq ∧ (State.put s x1 x2).edu = s.edu ∧
    (State.put s x1 x2).rta = s.rta ∧ (State.put s x1 x2).rpe = s.rpe ∧ (State.put s x1 x2).stu = s.stu ∧
    (State.put s x1 x2).saf = s.saf ∧ (State.put s x1 x2).cap = s.cap ∧ (State.put s x1 x2).fso = s.fso ∧
    (State.put s x1 x2).cmp = s.cmp ∧ (State.put s x1 x2).mem = s.mem ∧ (State.put s x1 x2).lnk = s.lnk ∧
    (State.put s x1 x2).tbu = s.tbu ∧ (State.put s x1 x2).hk = s.hk ∧ (State.put s x1 x2).boot = s.boot ∧
    (State.put s x1 x2).out = s.out ∧ (State.put s x1 x2).goodAt = s.goodAt ∧ (State.put s x1 x2).free = s.free ∧
    (State.put s x1 x2).pending = s.pending := by
  unfold State.put
  simp

@[simp] theorem State.setBit_frame (s : State) (x1 : Fld) (x2 : ℕ) :
    (State.setBit s x1 x2).clk = s.clk ∧ (State.setBit s x1 x2).tofs = s.tofs ∧ (State.setBit s x1 x2).dev = s.dev ∧
    (State.setBit s x1 x2).mgmt = s.mgmt ∧ (State.setBit s x1 x2).seq = s.seq ∧ (State.setBit s x1 x2).edu = s.edu ∧
    (State.setBit s x1 x2).rta = s.rta ∧ (State.setBit s x1 x2).rpe = s.rpe ∧ (State.setBit s x1 x2).stu = s.stu ∧
    (State.setBit s x1 x2).saf = s.saf ∧ (State.setBit s x1 x2).cap = s.cap ∧ (State.setBit s x1 x2).fso = s.fso ∧
    (State.setBit s x1 x2).cmp = s.cmp ∧ (State.setBit s x1 x2).mem = s.mem ∧ (State.setBit s x1 x2).lnk = s.lnk ∧
    (State.setBit s x1 x2).tbu = s.tbu ∧ (State.setBit s x1 x2).hk = s.hk ∧ (State.setBit s x1 x2).boot = s.boot ∧
    (State.setBit s x1 x2).out = s.out ∧ (State.setBit s x1 x2).goodAt = s.goodAt ∧ (State.setBit s x1 x2).free = s.free ∧
    (State.setBit s x1 x2).pending = s.pending := by
  unfold State.setBit
  simp

@[simp] theorem State.count_frame (s : State) (x1 : Fld) (x2 : ℕ) :
    (State.count s x1 x2).clk = s.clk ∧ (State.count s x1 x2).tofs = s.tofs ∧ (State.count s x1 x2).dev = s.dev ∧
    (State.count s x1 x2).mgmt = s.mgmt ∧ (State.count s x1 x2).seq = s.seq ∧ (State.count s x1 x2).edu = s.edu ∧
    (State.count s x1 x2).rta = s.rta ∧ (State.count s x1 x2).rpe = s.rpe ∧ (State.count s x1 x2).stu = s.stu ∧
    (State.count s x1 x2).saf = s.saf ∧ (State.count s x1 x2).cap = s.cap ∧ (State.count s x1 x2).fso = s.fso ∧
    (State.count s x1 x2).cmp = s.cmp ∧ (State.count s x1 x2).mem = s.mem ∧ (State.count s x1 x2).lnk = s.lnk ∧
    (State.count s x1 x2).tbu = s.tbu ∧ (State.count s x1 x2).hk = s.hk ∧ (State.count s x1 x2).boot = s.boot ∧
    (State.count s x1 x2).out = s.out ∧ (State.count s x1 x2).goodAt = s.goodAt ∧ (State.count s x1 x2).free = s.free ∧
    (State.count s x1 x2).pending = s.pending := by
  unfold State.count
  simp

@[simp] theorem State.inc_frame (s : State) (x1 : Fld) :
    (State.inc s x1).clk = s.clk ∧ (State.inc s x1).tofs = s.tofs ∧ (State.inc s x1).dev = s.dev ∧
    (State.inc s x1).mgmt = s.mgmt ∧ (State.inc s x1).seq = s.seq ∧ (State.inc s x1).edu = s.edu ∧
    (State.inc s x1).rta = s.rta ∧ (State.inc s x1).rpe = s.rpe ∧ (State.inc s x1).stu = s.stu ∧
    (State.inc s x1).saf = s.saf ∧ (State.inc s x1).cap = s.cap ∧ (State.inc s x1).fso = s.fso ∧
    (State.inc s x1).cmp = s.cmp ∧ (State.inc s x1).mem = s.mem ∧ (State.inc s x1).lnk = s.lnk ∧
    (State.inc s x1).tbu = s.tbu ∧ (State.inc s x1).hk = s.hk ∧ (State.inc s x1).boot = s.boot ∧
    (State.inc s x1).out = s.out ∧ (State.inc s x1).goodAt = s.goodAt ∧ (State.inc s x1).free = s.free ∧
    (State.inc s x1).pending = s.pending := by
  unfold State.inc
  simp

@[simp] theorem State.wrWords_frame (s : State) (x1 : ℕ) (x2 : List Word) :
    (State.wrWords s x1 x2).clk = s.clk ∧ (State.wrWords s x1 x2).tofs = s.tofs ∧ (State.wrWords s x1 x2).dev = s.dev ∧
    (State.wrWords s x1 x2).mgmt = s.mgmt ∧ (State.wrWords s x1 x2).seq = s.seq ∧ (State.wrWords s x1 x2).edu = s.edu ∧
    (State.wrWords s x1 x2).rta = s.rta ∧ (State.wrWords s x1 x2).rpe = s.rpe ∧ (State.wrWords s x1 x2).stu = s.stu ∧
    (State.wrWords s x1 x2).saf = s.saf ∧ (State.wrWords s x1 x2).cap = s.cap ∧ (State.wrWords s x1 x2).fso = s.fso ∧
    (State.wrWords s x1 x2).cmp = s.cmp ∧ (State.wrWords s x1 x2).mem = s.mem ∧ (State.wrWords s x1 x2).lnk = s.lnk ∧
    (State.wrWords s x1 x2).tbu = s.tbu ∧ (State.wrWords s x1 x2).hk = s.hk ∧ (State.wrWords s x1 x2).boot = s.boot ∧
    (State.wrWords s x1 x2).out = s.out ∧ (State.wrWords s x1 x2).goodAt = s.goodAt ∧
    (State.wrWords s x1 x2).free = s.free ∧ (State.wrWords s x1 x2).pending = s.pending := by
  induction x2 generalizing s x1 with
  | nil => simp [State.wrWords]
  | cons w ws ih => simp [State.wrWords, ih]

@[simp] theorem State.wrWide_frame (s : State) (x1 : ℕ) (x2 : ℕ) (x3 : ℕ) :
    (State.wrWide s x1 x2 x3).clk = s.clk ∧ (State.wrWide s x1 x2 x3).tofs = s.tofs ∧
    (State.wrWide s x1 x2 x3).dev = s.dev ∧ (State.wrWide s x1 x2 x3).mgmt = s.mgmt ∧
    (State.wrWide s x1 x2 x3).seq = s.seq ∧ (State.wrWide s x1 x2 x3).edu = s.edu ∧ (State.wrWide s x1 x2 x3).rta = s.rta ∧
    (State.wrWide s x1 x2 x3).rpe = s.rpe ∧ (State.wrWide s x1 x2 x3).stu = s.stu ∧ (State.wrWide s x1 x2 x3).saf = s.saf ∧
    (State.wrWide s x1 x2 x3).cap = s.cap ∧ (State.wrWide s x1 x2 x3).fso = s.fso ∧ (State.wrWide s x1 x2 x3).cmp = s.cmp ∧
    (State.wrWide s x1 x2 x3).mem = s.mem ∧ (State.wrWide s x1 x2 x3).lnk = s.lnk ∧ (State.wrWide s x1 x2 x3).tbu = s.tbu ∧
    (State.wrWide s x1 x2 x3).hk = s.hk ∧ (State.wrWide s x1 x2 x3).boot = s.boot ∧ (State.wrWide s x1 x2 x3).out = s.out ∧
    (State.wrWide s x1 x2 x3).goodAt = s.goodAt ∧ (State.wrWide s x1 x2 x3).free = s.free ∧
    (State.wrWide s x1 x2 x3).pending = s.pending := by
  unfold State.wrWide
  simp

@[simp] theorem State.send_frame (s : State) (x1 : Out) :
    (State.send s x1).clk = s.clk ∧ (State.send s x1).tofs = s.tofs ∧ (State.send s x1).dev = s.dev ∧
    (State.send s x1).regs = s.regs ∧ (State.send s x1).mgmt = s.mgmt ∧ (State.send s x1).seq = s.seq ∧
    (State.send s x1).edu = s.edu ∧ (State.send s x1).rta = s.rta ∧ (State.send s x1).rpe = s.rpe ∧
    (State.send s x1).stu = s.stu ∧ (State.send s x1).saf = s.saf ∧ (State.send s x1).cap = s.cap ∧
    (State.send s x1).fso = s.fso ∧ (State.send s x1).cmp = s.cmp ∧ (State.send s x1).mem = s.mem ∧
    (State.send s x1).lnk = s.lnk ∧ (State.send s x1).tbu = s.tbu ∧ (State.send s x1).hk = s.hk ∧
    (State.send s x1).boot = s.boot ∧ (State.send s x1).goodAt = s.goodAt ∧ (State.send s x1).free = s.free ∧
    (State.send s x1).pending = s.pending := by
  unfold State.send
  simp

@[simp] theorem State.draw_frame (s : State) :
    (State.draw s).2.clk = s.clk ∧ (State.draw s).2.tofs = s.tofs ∧ (State.draw s).2.dev = s.dev ∧
    (State.draw s).2.regs = s.regs ∧ (State.draw s).2.mgmt = s.mgmt ∧ (State.draw s).2.seq = s.seq ∧
    (State.draw s).2.edu = s.edu ∧ (State.draw s).2.rta = s.rta ∧ (State.draw s).2.rpe = s.rpe ∧
    (State.draw s).2.stu = s.stu ∧ (State.draw s).2.saf = s.saf ∧ (State.draw s).2.cap = s.cap ∧
    (State.draw s).2.fso = s.fso ∧ (State.draw s).2.cmp = s.cmp ∧ (State.draw s).2.mem = s.mem ∧
    (State.draw s).2.lnk = s.lnk ∧ (State.draw s).2.tbu = s.tbu ∧ (State.draw s).2.hk = s.hk ∧
    (State.draw s).2.boot = s.boot ∧ (State.draw s).2.out = s.out ∧ (State.draw s).2.goodAt = s.goodAt ∧
    (State.draw s).2.pending = s.pending := by
  unfold State.draw
  simp

@[simp] theorem State.setLane_frame (s : State) (x1 : ℕ) (x2 : Lane) :
    (State.setLane s x1 x2).clk = s.clk ∧ (State.setLane s x1 x2).tofs = s.tofs ∧ (State.setLane s x1 x2).dev = s.dev ∧
    (State.setLane s x1 x2).regs = s.regs ∧ (State.setLane s x1 x2).mgmt = s.mgmt ∧ (State.setLane s x1 x2).seq = s.seq ∧
    (State.setLane s x1 x2).edu = s.edu ∧ (State.setLane s x1 x2).rta = s.rta ∧ (State.setLane s x1 x2).rpe = s.rpe ∧
    (State.setLane s x1 x2).stu = s.stu ∧ (State.setLane s x1 x2).saf = s.saf ∧ (State.setLane s x1 x2).cap = s.cap ∧
    (State.setLane s x1 x2).fso = s.fso ∧ (State.setLane s x1 x2).cmp = s.cmp ∧ (State.setLane s x1 x2).mem = s.mem ∧
    (State.setLane s x1 x2).tbu = s.tbu ∧ (State.setLane s x1 x2).hk = s.hk ∧ (State.setLane s x1 x2).boot = s.boot ∧
    (State.setLane s x1 x2).out = s.out ∧ (State.setLane s x1 x2).goodAt = s.goodAt ∧
    (State.setLane s x1 x2).free = s.free ∧ (State.setLane s x1 x2).pending = s.pending := by
  unfold State.setLane
  simp

@[simp] theorem State.setPtn_frame (s : State) (x1 : ℕ) (x2 : Partner) :
    (State.setPtn s x1 x2).clk = s.clk ∧ (State.setPtn s x1 x2).tofs = s.tofs ∧ (State.setPtn s x1 x2).dev = s.dev ∧
    (State.setPtn s x1 x2).regs = s.regs ∧ (State.setPtn s x1 x2).mgmt = s.mgmt ∧ (State.setPtn s x1 x2).seq = s.seq ∧
    (State.setPtn s x1 x2).edu = s.edu ∧ (State.setPtn s x1 x2).rta = s.rta ∧ (State.setPtn s x1 x2).rpe = s.rpe ∧
    (State.setPtn s x1 x2).stu = s.stu ∧ (State.setPtn s x1 x2).saf = s.saf ∧ (State.setPtn s x1 x2).cap = s.cap ∧
    (State.setPtn s x1 x2).fso = s.fso ∧ (State.setPtn s x1 x2).cmp = s.cmp ∧ (State.setPtn s x1 x2).mem = s.mem ∧
    (State.setPtn s x1 x2).tbu = s.tbu ∧ (State.setPtn s x1 x2).hk = s.hk ∧ (State.setPtn s x1 x2).boot = s.boot ∧
    (State.setPtn s x1 x2).out = s.out ∧ (State.setPtn s x1 x2).goodAt = s.goodAt ∧ (State.setPtn s x1 x2).free = s.free ∧
    (State.setPtn s x1 x2).pending = s.pending := by
  unfold State.setPtn
  simp

@[simp] theorem State.sendDlp_frame (s : State) (x1 : ℕ) (x2 : ℕ) (x3 : List Word) :
    (State.sendDlp s x1 x2 x3).clk = s.clk ∧ (State.sendDlp s x1 x2 x3).tofs = s.tofs ∧
    (State.sendDlp s x1 x2 x3).dev = s.dev ∧ (State.sendDlp s x1 x2 x3).regs = s.regs ∧
    (State.sendDlp s x1 x2 x3).mgmt = s.mgmt ∧ (State.sendDlp s x1 x2 x3).seq = s.seq ∧
    (State.sendDlp s x1 x2 x3).edu = s.edu ∧ (State.sendDlp s x1 x2 x3).rta = s.rta ∧
    (State.sendDlp s x1 x2 x3).rpe = s.rpe ∧ (State.sendDlp s x1 x2 x3).stu = s.stu ∧
    (State.sendDlp s x1 x2 x3).saf = s.saf ∧ (State.sendDlp s x1 x2 x3).cap = s.cap ∧
    (State.sendDlp s x1 x2 x3).fso = s.fso ∧ (State.sendDlp s x1 x2 x3).cmp = s.cmp ∧
    (State.sendDlp s x1 x2 x3).mem = s.mem ∧ (State.sendDlp s x1 x2 x3).tbu = s.tbu ∧ (State.sendDlp s x1 x2 x3).hk = s.hk ∧
    (State.sendDlp s x1 x2 x3).boot = s.boot ∧ (State.sendDlp s x1 x2 x3).goodAt = s.goodAt ∧
    (State.sendDlp s x1 x2 x3).free = s.free ∧ (State.sendDlp s x1 x2 x3).pending = s.pending := by
  unfold State.sendDlp
  simp

@[simp] theorem State.queueEv_frame (s : State) (x1 : EvEntry) :
    (State.queueEv s x1).clk = s.clk ∧ (State.queueEv s x1).tofs = s.tofs ∧ (State.queueEv s x1).dev = s.dev ∧
    (State.queueEv s x1).seq = s.seq ∧ (State.queueEv s x1).edu = s.edu ∧ (State.queueEv s x1).rta = s.rta ∧
    (State.queueEv s x1).rpe = s.rpe ∧ (State.queueEv s x1).stu = s.stu ∧ (State.queueEv s x1).saf = s.saf ∧
    (State.queueEv s x1).cap = s.cap ∧ (State.queueEv s x1).fso = s.fso ∧ (State.queueEv s x1).cmp = s.cmp ∧
    (State.queueEv s x1).mem = s.mem ∧ (State.queueEv s x1).lnk = s.lnk ∧ (State.queueEv s x1).tbu = s.tbu ∧
    (State.queueEv s x1).hk = s.hk ∧ (State.queueEv s x1).boot = s.boot ∧ (State.queueEv s x1).out = s.out ∧
    (State.queueEv s x1).goodAt = s.goodAt ∧ (State.queueEv s x1).free = s.free ∧
    (State.queueEv s x1).pending = s.pending := by
  unfold State.queueEv
  simp

@[simp] theorem State.eventTo_frame (s : State) (x1 : EvEntry) (x2 : ℕ) :
    (State.eventTo s x1 x2).clk = s.clk ∧ (State.eventTo s x1 x2).tofs = s.tofs ∧ (State.eventTo s x1 x2).dev = s.dev ∧
    (State.eventTo s x1 x2).mgmt = s.mgmt ∧ (State.eventTo s x1 x2).seq = s.seq ∧ (State.eventTo s x1 x2).edu = s.edu ∧
    (State.eventTo s x1 x2).rta = s.rta ∧ (State.eventTo s x1 x2).rpe = s.rpe ∧ (State.eventTo s x1 x2).stu = s.stu ∧
    (State.eventTo s x1 x2).saf = s.saf ∧ (State.eventTo s x1 x2).cap = s.cap ∧ (State.eventTo s x1 x2).fso = s.fso ∧
    (State.eventTo s x1 x2).cmp = s.cmp ∧ (State.eventTo s x1 x2).mem = s.mem ∧ (State.eventTo s x1 x2).tbu = s.tbu ∧
    (State.eventTo s x1 x2).hk = s.hk ∧ (State.eventTo s x1 x2).boot = s.boot ∧ (State.eventTo s x1 x2).goodAt = s.goodAt ∧
    (State.eventTo s x1 x2).free = s.free ∧ (State.eventTo s x1 x2).pending = s.pending := by
  unfold State.eventTo
  simp

@[simp] theorem State.noteDcode_frame (s : State) (x1 : EvEntry) :
    (State.noteDcode s x1).clk = s.clk ∧ (State.noteDcode s x1).tofs = s.tofs ∧ (State.noteDcode s x1).dev = s.dev ∧
    (State.noteDcode s x1).regs = s.regs ∧ (State.noteDcode s x1).mgmt = s.mgmt ∧ (State.noteDcode s x1).seq = s.seq ∧
    (State.noteDcode s x1).edu = s.edu ∧ (State.noteDcode s x1).rta = s.rta ∧ (State.noteDcode s x1).rpe = s.rpe ∧
    (State.noteDcode s x1).stu = s.stu ∧ (State.noteDcode s x1).cap = s.cap ∧ (State.noteDcode s x1).fso = s.fso ∧
    (State.noteDcode s x1).cmp = s.cmp ∧ (State.noteDcode s x1).mem = s.mem ∧ (State.noteDcode s x1).lnk = s.lnk ∧
    (State.noteDcode s x1).tbu = s.tbu ∧ (State.noteDcode s x1).hk = s.hk ∧ (State.noteDcode s x1).boot = s.boot ∧
    (State.noteDcode s x1).out = s.out ∧ (State.noteDcode s x1).goodAt = s.goodAt ∧ (State.noteDcode s x1).free = s.free ∧
    (State.noteDcode s x1).pending = s.pending := by
  unfold State.noteDcode
  simp

@[simp] theorem State.raise_frame (s : State) (x1 : ℕ) (x2 : EvClass) (x3 : ℕ) :
    (State.raise s x1 x2 x3).clk = s.clk ∧ (State.raise s x1 x2 x3).tofs = s.tofs ∧ (State.raise s x1 x2 x3).dev = s.dev ∧
    (State.raise s x1 x2 x3).seq = s.seq ∧ (State.raise s x1 x2 x3).edu = s.edu ∧ (State.raise s x1 x2 x3).rta = s.rta ∧
    (State.raise s x1 x2 x3).rpe = s.rpe ∧ (State.raise s x1 x2 x3).stu = s.stu ∧ (State.raise s x1 x2 x3).cap = s.cap ∧
    (State.raise s x1 x2 x3).fso = s.fso ∧ (State.raise s x1 x2 x3).cmp = s.cmp ∧ (State.raise s x1 x2 x3).mem = s.mem ∧
    (State.raise s x1 x2 x3).tbu = s.tbu ∧ (State.raise s x1 x2 x3).hk = s.hk ∧ (State.raise s x1 x2 x3).boot = s.boot ∧
    (State.raise s x1 x2 x3).goodAt = s.goodAt ∧ (State.raise s x1 x2 x3).free = s.free ∧
    (State.raise s x1 x2 x3).pending = s.pending := by
  unfold State.raise
  simp

@[simp] theorem State.startOp_frame (s : State) (x1 : ℕ) (x2 : LongOp) :
    (State.startOp s x1 x2).clk = s.clk ∧ (State.startOp s x1 x2).tofs = s.tofs ∧ (State.startOp s x1 x2).dev = s.dev ∧
    (State.startOp s x1 x2).seq = s.seq ∧ (State.startOp s x1 x2).edu = s.edu ∧ (State.startOp s x1 x2).rta = s.rta ∧
    (State.startOp s x1 x2).rpe = s.rpe ∧ (State.startOp s x1 x2).stu = s.stu ∧ (State.startOp s x1 x2).saf = s.saf ∧
    (State.startOp s x1 x2).cap = s.cap ∧ (State.startOp s x1 x2).fso = s.fso ∧ (State.startOp s x1 x2).cmp = s.cmp ∧
    (State.startOp s x1 x2).mem = s.mem ∧ (State.startOp s x1 x2).lnk = s.lnk ∧ (State.startOp s x1 x2).tbu = s.tbu ∧
    (State.startOp s x1 x2).hk = s.hk ∧ (State.startOp s x1 x2).boot = s.boot ∧ (State.startOp s x1 x2).out = s.out ∧
    (State.startOp s x1 x2).goodAt = s.goodAt ∧ (State.startOp s x1 x2).free = s.free ∧
    (State.startOp s x1 x2).pending = s.pending := by
  unfold State.startOp
  simp

@[simp] theorem State.endOp_frame (s : State) (x1 : ℕ) :
    (State.endOp s x1).clk = s.clk ∧ (State.endOp s x1).tofs = s.tofs ∧ (State.endOp s x1).dev = s.dev ∧
    (State.endOp s x1).seq = s.seq ∧ (State.endOp s x1).edu = s.edu ∧ (State.endOp s x1).rta = s.rta ∧
    (State.endOp s x1).rpe = s.rpe ∧ (State.endOp s x1).stu = s.stu ∧ (State.endOp s x1).cap = s.cap ∧
    (State.endOp s x1).fso = s.fso ∧ (State.endOp s x1).cmp = s.cmp ∧ (State.endOp s x1).mem = s.mem ∧
    (State.endOp s x1).tbu = s.tbu ∧ (State.endOp s x1).hk = s.hk ∧ (State.endOp s x1).boot = s.boot ∧
    (State.endOp s x1).goodAt = s.goodAt ∧ (State.endOp s x1).free = s.free ∧ (State.endOp s x1).pending = s.pending := by
  unfold State.endOp
  (repeat' (first | (split; rename_i heq; have h1 := congrArg Prod.fst heq; have h2 := congrArg Prod.snd heq; dsimp only at h1 h2; (try subst h1); (try subst h2)) | split)) <;> simp

@[simp] theorem State.setNeigh_frame (s : State) (x1 : ChainSide) (x2 : Neigh) :
    (State.setNeigh s x1 x2).clk = s.clk ∧ (State.setNeigh s x1 x2).tofs = s.tofs ∧ (State.setNeigh s x1 x2).dev = s.dev ∧
    (State.setNeigh s x1 x2).regs = s.regs ∧ (State.setNeigh s x1 x2).mgmt = s.mgmt ∧ (State.setNeigh s x1 x2).seq = s.seq ∧
    (State.setNeigh s x1 x2).edu = s.edu ∧ (State.setNeigh s x1 x2).rta = s.rta ∧ (State.setNeigh s x1 x2).rpe = s.rpe ∧
    (State.setNeigh s x1 x2).stu = s.stu ∧ (State.setNeigh s x1 x2).saf = s.saf ∧ (State.setNeigh s x1 x2).cap = s.cap ∧
    (State.setNeigh s x1 x2).fso = s.fso ∧ (State.setNeigh s x1 x2).cmp = s.cmp ∧ (State.setNeigh s x1 x2).mem = s.mem ∧
    (State.setNeigh s x1 x2).tbu = s.tbu ∧ (State.setNeigh s x1 x2).hk = s.hk ∧ (State.setNeigh s x1 x2).boot = s.boot ∧
    (State.setNeigh s x1 x2).out = s.out ∧ (State.setNeigh s x1 x2).goodAt = s.goodAt ∧
    (State.setNeigh s x1 x2).free = s.free ∧ (State.setNeigh s x1 x2).pending = s.pending := by
  unfold State.setNeigh
  simp

@[simp] theorem State.sendChain_frame (s : State) (x1 : ChainSide) (x2 : ℕ) (x3 : List ℕ) :
    (State.sendChain s x1 x2 x3).clk = s.clk ∧ (State.sendChain s x1 x2 x3).tofs = s.tofs ∧
    (State.sendChain s x1 x2 x3).dev = s.dev ∧ (State.sendChain s x1 x2 x3).regs = s.regs ∧
    (State.sendChain s x1 x2 x3).mgmt = s.mgmt ∧ (State.sendChain s x1 x2 x3).seq = s.seq ∧
    (State.sendChain s x1 x2 x3).edu = s.edu ∧ (State.sendChain s x1 x2 x3).rta = s.rta ∧
    (State.sendChain s x1 x2 x3).rpe = s.rpe ∧ (State.sendChain s x1 x2 x3).stu = s.stu ∧
    (State.sendChain s x1 x2 x3).saf = s.saf ∧ (State.sendChain s x1 x2 x3).cap = s.cap ∧
    (State.sendChain s x1 x2 x3).fso = s.fso ∧ (State.sendChain s x1 x2 x3).cmp = s.cmp ∧
    (State.sendChain s x1 x2 x3).mem = s.mem ∧ (State.sendChain s x1 x2 x3).tbu = s.tbu ∧
    (State.sendChain s x1 x2 x3).hk = s.hk ∧ (State.sendChain s x1 x2 x3).boot = s.boot ∧
    (State.sendChain s x1 x2 x3).goodAt = s.goodAt ∧ (State.sendChain s x1 x2 x3).free = s.free ∧
    (State.sendChain s x1 x2 x3).pending = s.pending := by
  unfold State.sendChain
  simp

/-- What BEGIN changes: the instant, and nothing has been sent yet. -/
@[simp] theorem State.begin_frame (s : State) (t : Nat) :
    (s.begin t).clk = max s.clk t ∧ (s.begin t).out = [] ∧ (s.begin t).tofs = s.tofs ∧ (s.begin t).dev = s.dev ∧
    (s.begin t).regs = s.regs ∧ (s.begin t).mgmt = s.mgmt ∧ (s.begin t).seq = s.seq ∧ (s.begin t).edu = s.edu ∧
    (s.begin t).rta = s.rta ∧ (s.begin t).rpe = s.rpe ∧ (s.begin t).stu = s.stu ∧ (s.begin t).saf = s.saf ∧
    (s.begin t).cap = s.cap ∧ (s.begin t).fso = s.fso ∧ (s.begin t).cmp = s.cmp ∧ (s.begin t).mem = s.mem ∧
    (s.begin t).lnk = s.lnk ∧ (s.begin t).tbu = s.tbu ∧ (s.begin t).hk = s.hk ∧ (s.begin t).boot = s.boot ∧
    (s.begin t).goodAt = s.goodAt ∧ (s.begin t).free = s.free ∧ (s.begin t).pending = s.pending := by
  simp [State.begin]

@[simp] theorem State.begin_inv (s : State) (t : Nat) : (s.begin t).Inv ↔ s.Inv := inv_of_parts rfl rfl

/-- The part that each update changes. -/
@[simp] theorem State.modMgmt_mgmt (s : State) (f : Mgmt → Mgmt) : (s.modMgmt f).mgmt = f s.mgmt := rfl

@[simp] theorem State.modSeq_seq (s : State) (f : Seq → Seq) : (s.modSeq f).seq = f s.seq := rfl

@[simp] theorem State.modEdu_edu (s : State) (f : Edu → Edu) : (s.modEdu f).edu = f s.edu := rfl

@[simp] theorem State.modRta_rta (s : State) (f : Rta → Rta) : (s.modRta f).rta = f s.rta := rfl

@[simp] theorem State.modRpe_rpe (s : State) (f : Rpe → Rpe) : (s.modRpe f).rpe = f s.rpe := rfl

@[simp] theorem State.modStu_stu (s : State) (f : Stu → Stu) : (s.modStu f).stu = f s.stu := rfl

@[simp] theorem State.modSaf_saf (s : State) (f : Saf → Saf) : (s.modSaf f).saf = f s.saf := rfl

@[simp] theorem State.modCap_cap (s : State) (f : Cap → Cap) : (s.modCap f).cap = f s.cap := rfl

@[simp] theorem State.modFso_fso (s : State) (f : Fso → Fso) : (s.modFso f).fso = f s.fso := rfl

@[simp] theorem State.modCmp_cmp (s : State) (f : Cmp → Cmp) : (s.modCmp f).cmp = f s.cmp := rfl

@[simp] theorem State.modMem_mem (s : State) (f : Mem → Mem) : (s.modMem f).mem = f s.mem := rfl

@[simp] theorem State.modLnk_lnk (s : State) (f : Lnk → Lnk) : (s.modLnk f).lnk = f s.lnk := rfl

@[simp] theorem State.modTbu_tbu (s : State) (f : Tbu → Tbu) : (s.modTbu f).tbu = f s.tbu := rfl

@[simp] theorem State.modHk_hk (s : State) (f : Hk → Hk) : (s.modHk f).hk = f s.hk := rfl

@[simp] theorem State.modBoot_boot (s : State) (f : Boot → Boot) : (s.modBoot f).boot = f s.boot := rfl

@[simp] theorem State.setDev_dev (s : State) (d : DevState) : (s.setDev d).dev = d := rfl

@[simp] theorem State.setTofs_tofs (s : State) (z : Int) : (s.setTofs z).tofs = z := rfl

@[simp] theorem State.setGoodAt_goodAt (s : State) (t : Nat) : (s.setGoodAt t).goodAt = t := rfl

@[simp] theorem State.send_out (s : State) (o : Out) : (s.send o).out = s.out ++ [o] := rfl

@[simp] theorem State.setWord_inv (s : State) (a : Nat) (w : Word) (h : s.Inv) : (s.setWord a w).Inv :=
  ⟨SMap.wf_put _ _ _ _ h.1, h.2⟩

@[simp] theorem State.modMgmt_inv (s : State) (f : Mgmt → Mgmt) (h : s.Inv) (hs : ∀ m, (f m).shadow = m.shadow)
    (he : ∀ m, (f m).evq = m.evq) : (s.modMgmt f).Inv := by
  refine ⟨h.1, ?_, ?_⟩
  · show SMap.wf _ (f s.mgmt).shadow = true
    rw [hs]; exact h.2.1
  · show (f s.mgmt).evq.length ≤ 256
    rw [he]; exact h.2.2

@[simp] theorem State.modSeq_inv (s : State) (x1 : Seq → Seq) : (State.modSeq s x1).Inv ↔ s.Inv := inv_of_parts (by simp) (by simp)

@[simp] theorem State.modEdu_inv (s : State) (x1 : Edu → Edu) : (State.modEdu s x1).Inv ↔ s.Inv := inv_of_parts (by simp) (by simp)

@[simp] theorem State.modRta_inv (s : State) (x1 : Rta → Rta) : (State.modRta s x1).Inv ↔ s.Inv := inv_of_parts (by simp) (by simp)

@[simp] theorem State.modRpe_inv (s : State) (x1 : Rpe → Rpe) : (State.modRpe s x1).Inv ↔ s.Inv := inv_of_parts (by simp) (by simp)

@[simp] theorem State.modStu_inv (s : State) (x1 : Stu → Stu) : (State.modStu s x1).Inv ↔ s.Inv := inv_of_parts (by simp) (by simp)

@[simp] theorem State.modSaf_inv (s : State) (x1 : Saf → Saf) : (State.modSaf s x1).Inv ↔ s.Inv := inv_of_parts (by simp) (by simp)

@[simp] theorem State.modCap_inv (s : State) (x1 : Cap → Cap) : (State.modCap s x1).Inv ↔ s.Inv := inv_of_parts (by simp) (by simp)

@[simp] theorem State.modFso_inv (s : State) (x1 : Fso → Fso) : (State.modFso s x1).Inv ↔ s.Inv := inv_of_parts (by simp) (by simp)

@[simp] theorem State.modCmp_inv (s : State) (x1 : Cmp → Cmp) : (State.modCmp s x1).Inv ↔ s.Inv := inv_of_parts (by simp) (by simp)

@[simp] theorem State.modMem_inv (s : State) (x1 : Mem → Mem) : (State.modMem s x1).Inv ↔ s.Inv := inv_of_parts (by simp) (by simp)

@[simp] theorem State.modLnk_inv (s : State) (x1 : Lnk → Lnk) : (State.modLnk s x1).Inv ↔ s.Inv := inv_of_parts (by simp) (by simp)

@[simp] theorem State.modTbu_inv (s : State) (x1 : Tbu → Tbu) : (State.modTbu s x1).Inv ↔ s.Inv := inv_of_parts (by simp) (by simp)

@[simp] theorem State.modHk_inv (s : State) (x1 : Hk → Hk) : (State.modHk s x1).Inv ↔ s.Inv := inv_of_parts (by simp) (by simp)

@[simp] theorem State.modBoot_inv (s : State) (x1 : Boot → Boot) : (State.modBoot s x1).Inv ↔ s.Inv := inv_of_parts (by simp) (by simp)

@[simp] theorem State.setTofs_inv (s : State) (x1 : ℤ) : (State.setTofs s x1).Inv ↔ s.Inv := inv_of_parts (by simp) (by simp)

@[simp] theorem State.setGoodAt_inv (s : State) (x1 : ℕ) : (State.setGoodAt s x1).Inv ↔ s.Inv := inv_of_parts (by simp) (by simp)

@[simp] theorem State.setDev_inv (s : State) (x1 : DevState) : (State.setDev s x1).Inv ↔ s.Inv := inv_of_parts (by simp) (by simp)

@[simp] theorem State.wrNote_inv (s : State) (x1 : Fld) (x2 : ℕ) (x3 : ℕ) (h : s.Inv) : (State.wrNote s x1 x2 x3).Inv := by
  exact ⟨SMap.wf_put _ _ _ _ h.1, h.2⟩

@[simp] theorem State.wr_inv (s : State) (x1 : Fld) (x2 : ℕ) (h : s.Inv) : (State.wr s x1 x2).Inv := by
  unfold State.wr
  simp (maxDischargeDepth := 100) [h]

@[simp] theorem State.wrZ_inv (s : State) (x1 : Fld) (x2 : ℤ) (h : s.Inv) : (State.wrZ s x1 x2).Inv := by
  unfold State.wrZ
  simp (maxDischargeDepth := 100) [h]

@[simp] theorem State.put_inv (s : State) (x1 : Fld) (x2 : Bool) (h : s.Inv) : (State.put s x1 x2).Inv := by
  unfold State.put
  simp (maxDischargeDepth := 100) [h]

@[simp] theorem State.setBit_inv (s : State) (x1 : Fld) (x2 : ℕ) (h : s.Inv) : (State.setBit s x1 x2).Inv := by
  unfold State.setBit
  simp (maxDischargeDepth := 100) [h]

@[simp] theorem State.count_inv (s : State) (x1 : Fld) (x2 : ℕ) (h : s.Inv) : (State.count s x1 x2).Inv := by
  unfold State.count
  simp (maxDischargeDepth := 100) [h]

@[simp] theorem State.inc_inv (s : State) (x1 : Fld) (h : s.Inv) : (State.inc s x1).Inv := by
  unfold State.inc
  simp (maxDischargeDepth := 100) [h]

@[simp] theorem State.wrWords_inv (s : State) (x1 : ℕ) (x2 : List Word) (h : s.Inv) : (State.wrWords s x1 x2).Inv := by
  induction x2 generalizing s x1 with
  | nil => exact h
  | cons w ws ih => exact ih _ _ (State.setWord_inv _ _ _ h)

@[simp] theorem State.wrWide_inv (s : State) (x1 : ℕ) (x2 : ℕ) (x3 : ℕ) (h : s.Inv) : (State.wrWide s x1 x2 x3).Inv := by
  unfold State.wrWide
  simp (maxDischargeDepth := 100) [h]

@[simp] theorem State.send_inv (s : State) (x1 : Out) : (State.send s x1).Inv ↔ s.Inv := inv_of_parts (by simp) (by simp)

@[simp] theorem State.draw_inv (s : State) : (State.draw s).2.Inv ↔ s.Inv := inv_of_parts (by simp) (by simp)

@[simp] theorem State.setLane_inv (s : State) (x1 : ℕ) (x2 : Lane) : (State.setLane s x1 x2).Inv ↔ s.Inv := inv_of_parts (by simp) (by simp)

@[simp] theorem State.setPtn_inv (s : State) (x1 : ℕ) (x2 : Partner) : (State.setPtn s x1 x2).Inv ↔ s.Inv := inv_of_parts (by simp) (by simp)

@[simp] theorem State.sendDlp_inv (s : State) (x1 : ℕ) (x2 : ℕ) (x3 : List Word) : (State.sendDlp s x1 x2 x3).Inv ↔ s.Inv := inv_of_parts (by simp) (by simp)

@[simp] theorem State.queueEv_inv (s : State) (x1 : EvEntry) (h : s.Inv) : (State.queueEv s x1).Inv := by
  unfold State.queueEv
  split
  · rename_i hlt
    refine ⟨h.1, h.2.1, ?_⟩
    show (insertEv _ _).length ≤ 256
    rw [insertEv_length]; exact hlt
  · simp (maxDischargeDepth := 100) [*, State.inc, State.count, State.wr]

@[simp] theorem State.eventTo_inv (s : State) (x1 : EvEntry) (x2 : ℕ) (h : s.Inv) : (State.eventTo s x1 x2).Inv := by
  unfold State.eventTo
  simp (maxDischargeDepth := 100) [h]

@[simp] theorem State.noteDcode_inv (s : State) (x1 : EvEntry) : (State.noteDcode s x1).Inv ↔ s.Inv := inv_of_parts (by simp) (by simp)

@[simp] theorem State.raise_inv (s : State) (x1 : ℕ) (x2 : EvClass) (x3 : ℕ) (h : s.Inv) : (State.raise s x1 x2 x3).Inv := by
  unfold State.raise
  simp +contextual (maxDischargeDepth := 100) [h]

@[simp] theorem State.startOp_inv (s : State) (x1 : ℕ) (x2 : LongOp) (h : s.Inv) : (State.startOp s x1 x2).Inv := by
  unfold State.startOp
  simp (maxDischargeDepth := 100) [h]

@[simp] theorem State.endOp_inv (s : State) (x1 : ℕ) (h : s.Inv) : (State.endOp s x1).Inv := by
  unfold State.endOp
  (repeat' (first | (split; rename_i heq; have h1 := congrArg Prod.fst heq; have h2 := congrArg Prod.snd heq; dsimp only at h1 h2; (try subst h1); (try subst h2)) | split)) <;> simp +contextual (maxDischargeDepth := 100) [h]

@[simp] theorem State.setNeigh_inv (s : State) (x1 : ChainSide) (x2 : Neigh) : (State.setNeigh s x1 x2).Inv ↔ s.Inv := inv_of_parts (by simp) (by simp)

@[simp] theorem State.sendChain_inv (s : State) (x1 : ChainSide) (x2 : ℕ) (x3 : List ℕ) : (State.sendChain s x1 x2 x3).Inv ↔ s.Inv := inv_of_parts (by simp) (by simp)

end Sys2Proof.Machine
end

