-- ==== Sys2Proof/Laws/Stages.lean ====
section
/-! SUPPORT. Capture, memory, histograms and safety: for every operation on the state, the parts that it leaves unchanged (`_frame`) and that it keeps the form of
every state (`_inv`). A lemma of an operation that chooses between two states has a premise for the second. -/

namespace Sys2Proof.Machine

/-! ### Capture -/

@[simp] theorem State.writeBursts_frame (s : State) (x1 : ℕ) (x2 : ℕ → Bool) :
    (State.writeBursts s x1 x2).clk = s.clk ∧ (State.writeBursts s x1 x2).tofs = s.tofs ∧
    (State.writeBursts s x1 x2).dev = s.dev ∧ (State.writeBursts s x1 x2).regs = s.regs ∧
    (State.writeBursts s x1 x2).mgmt = s.mgmt ∧ (State.writeBursts s x1 x2).seq = s.seq ∧
    (State.writeBursts s x1 x2).edu = s.edu ∧ (State.writeBursts s x1 x2).rta = s.rta ∧
    (State.writeBursts s x1 x2).rpe = s.rpe ∧ (State.writeBursts s x1 x2).stu = s.stu ∧
    (State.writeBursts s x1 x2).saf = s.saf ∧ (State.writeBursts s x1 x2).cap = s.cap ∧
    (State.writeBursts s x1 x2).fso = s.fso ∧ (State.writeBursts s x1 x2).cmp = s.cmp ∧
    (State.writeBursts s x1 x2).lnk = s.lnk ∧ (State.writeBursts s x1 x2).tbu = s.tbu ∧
    (State.writeBursts s x1 x2).hk = s.hk ∧ (State.writeBursts s x1 x2).boot = s.boot ∧
    (State.writeBursts s x1 x2).out = s.out ∧ (State.writeBursts s x1 x2).goodAt = s.goodAt ∧
    (State.writeBursts s x1 x2).free = s.free ∧ (State.writeBursts s x1 x2).pending = s.pending := by
  unfold State.writeBursts
  simp

@[simp] theorem State.writeBurst_frame (s : State) (x1 : ℕ) (x2 : ℕ) :
    (State.writeBurst s x1 x2).clk = s.clk ∧ (State.writeBurst s x1 x2).tofs = s.tofs ∧
    (State.writeBurst s x1 x2).dev = s.dev ∧ (State.writeBurst s x1 x2).regs = s.regs ∧
    (State.writeBurst s x1 x2).mgmt = s.mgmt ∧ (State.writeBurst s x1 x2).seq = s.seq ∧
    (State.writeBurst s x1 x2).edu = s.edu ∧ (State.writeBurst s x1 x2).rta = s.rta ∧
    (State.writeBurst s x1 x2).rpe = s.rpe ∧ (State.writeBurst s x1 x2).stu = s.stu ∧
    (State.writeBurst s x1 x2).saf = s.saf ∧ (State.writeBurst s x1 x2).cap = s.cap ∧
    (State.writeBurst s x1 x2).fso = s.fso ∧ (State.writeBurst s x1 x2).cmp = s.cmp ∧
    (State.writeBurst s x1 x2).lnk = s.lnk ∧ (State.writeBurst s x1 x2).tbu = s.tbu ∧ (State.writeBurst s x1 x2).hk = s.hk ∧
    (State.writeBurst s x1 x2).boot = s.boot ∧ (State.writeBurst s x1 x2).out = s.out ∧
    (State.writeBurst s x1 x2).goodAt = s.goodAt ∧ (State.writeBurst s x1 x2).free = s.free ∧
    (State.writeBurst s x1 x2).pending = s.pending := by
  unfold State.writeBurst
  simp

@[simp] theorem State.storeWords_frame (s : State) (x1 : ℕ) (x2 : List Word) :
    (State.storeWords s x1 x2).clk = s.clk ∧ (State.storeWords s x1 x2).tofs = s.tofs ∧
    (State.storeWords s x1 x2).dev = s.dev ∧ (State.storeWords s x1 x2).regs = s.regs ∧
    (State.storeWords s x1 x2).mgmt = s.mgmt ∧ (State.storeWords s x1 x2).seq = s.seq ∧
    (State.storeWords s x1 x2).edu = s.edu ∧ (State.storeWords s x1 x2).rta = s.rta ∧
    (State.storeWords s x1 x2).rpe = s.rpe ∧ (State.storeWords s x1 x2).stu = s.stu ∧
    (State.storeWords s x1 x2).saf = s.saf ∧ (State.storeWords s x1 x2).fso = s.fso ∧
    (State.storeWords s x1 x2).cmp = s.cmp ∧ (State.storeWords s x1 x2).lnk = s.lnk ∧
    (State.storeWords s x1 x2).tbu = s.tbu ∧ (State.storeWords s x1 x2).hk = s.hk ∧
    (State.storeWords s x1 x2).boot = s.boot ∧ (State.storeWords s x1 x2).out = s.out ∧
    (State.storeWords s x1 x2).goodAt = s.goodAt ∧ (State.storeWords s x1 x2).free = s.free ∧
    (State.storeWords s x1 x2).pending = s.pending := by
  induction x2 generalizing s x1 with
  | nil => simp [State.storeWords]
  | cons w ws ih => simp [State.storeWords, ih]

@[simp] theorem State.ringWords_frame (s : State) (x1 : ℕ) (x2 : ℕ) (x3 : List Word) :
    (State.ringWords s x1 x2 x3).clk = s.clk ∧ (State.ringWords s x1 x2 x3).tofs = s.tofs ∧
    (State.ringWords s x1 x2 x3).dev = s.dev ∧ (State.ringWords s x1 x2 x3).regs = s.regs ∧
    (State.ringWords s x1 x2 x3).mgmt = s.mgmt ∧ (State.ringWords s x1 x2 x3).seq = s.seq ∧
    (State.ringWords s x1 x2 x3).edu = s.edu ∧ (State.ringWords s x1 x2 x3).rta = s.rta ∧
    (State.ringWords s x1 x2 x3).rpe = s.rpe ∧ (State.ringWords s x1 x2 x3).stu = s.stu ∧
    (State.ringWords s x1 x2 x3).saf = s.saf ∧ (State.ringWords s x1 x2 x3).fso = s.fso ∧
    (State.ringWords s x1 x2 x3).cmp = s.cmp ∧ (State.ringWords s x1 x2 x3).lnk = s.lnk ∧
    (State.ringWords s x1 x2 x3).tbu = s.tbu ∧ (State.ringWords s x1 x2 x3).hk = s.hk ∧
    (State.ringWords s x1 x2 x3).boot = s.boot ∧ (State.ringWords s x1 x2 x3).out = s.out ∧
    (State.ringWords s x1 x2 x3).goodAt = s.goodAt ∧ (State.ringWords s x1 x2 x3).free = s.free ∧
    (State.ringWords s x1 x2 x3).pending = s.pending := by
  induction x3 generalizing s x2 with
  | nil => simp [State.ringWords]
  | cons w ws ih => simp [State.ringWords, ih]

@[simp] theorem State.condition_frame (s : State) (x1 : Cond) :
    (State.condition s x1).clk = s.clk ∧ (State.condition s x1).tofs = s.tofs ∧ (State.condition s x1).dev = s.dev ∧
    (State.condition s x1).regs = s.regs ∧ (State.condition s x1).mgmt = s.mgmt ∧ (State.condition s x1).seq = s.seq ∧
    (State.condition s x1).edu = s.edu ∧ (State.condition s x1).rta = s.rta ∧ (State.condition s x1).rpe = s.rpe ∧
    (State.condition s x1).stu = s.stu ∧ (State.condition s x1).saf = s.saf ∧ (State.condition s x1).fso = s.fso ∧
    (State.condition s x1).cmp = s.cmp ∧ (State.condition s x1).mem = s.mem ∧ (State.condition s x1).lnk = s.lnk ∧
    (State.condition s x1).tbu = s.tbu ∧ (State.condition s x1).hk = s.hk ∧ (State.condition s x1).boot = s.boot ∧
    (State.condition s x1).out = s.out ∧ (State.condition s x1).goodAt = s.goodAt ∧ (State.condition s x1).free = s.free ∧
    (State.condition s x1).pending = s.pending := by
  unfold State.condition
  simp

@[simp] theorem State.offer_frame (s : State) (x1 : CapRec) :
    (State.offer s x1).clk = s.clk ∧ (State.offer s x1).tofs = s.tofs ∧ (State.offer s x1).dev = s.dev ∧
    (State.offer s x1).regs = s.regs ∧ (State.offer s x1).mgmt = s.mgmt ∧ (State.offer s x1).seq = s.seq ∧
    (State.offer s x1).edu = s.edu ∧ (State.offer s x1).rta = s.rta ∧ (State.offer s x1).rpe = s.rpe ∧
    (State.offer s x1).stu = s.stu ∧ (State.offer s x1).saf = s.saf ∧ (State.offer s x1).fso = s.fso ∧
    (State.offer s x1).cmp = s.cmp ∧ (State.offer s x1).mem = s.mem ∧ (State.offer s x1).lnk = s.lnk ∧
    (State.offer s x1).tbu = s.tbu ∧ (State.offer s x1).hk = s.hk ∧ (State.offer s x1).boot = s.boot ∧
    (State.offer s x1).out = s.out ∧ (State.offer s x1).goodAt = s.goodAt ∧ (State.offer s x1).free = s.free ∧
    (State.offer s x1).pending = s.pending := by
  unfold State.offer
  simp

@[simp] theorem State.setValid_frame (s : State) (x1 : ℕ) (x2 : Bool) :
    (State.setValid s x1 x2).clk = s.clk ∧ (State.setValid s x1 x2).tofs = s.tofs ∧ (State.setValid s x1 x2).dev = s.dev ∧
    (State.setValid s x1 x2).regs = s.regs ∧ (State.setValid s x1 x2).mgmt = s.mgmt ∧ (State.setValid s x1 x2).seq = s.seq ∧
    (State.setValid s x1 x2).edu = s.edu ∧ (State.setValid s x1 x2).rta = s.rta ∧ (State.setValid s x1 x2).rpe = s.rpe ∧
    (State.setValid s x1 x2).stu = s.stu ∧ (State.setValid s x1 x2).saf = s.saf ∧ (State.setValid s x1 x2).fso = s.fso ∧
    (State.setValid s x1 x2).cmp = s.cmp ∧ (State.setValid s x1 x2).mem = s.mem ∧ (State.setValid s x1 x2).lnk = s.lnk ∧
    (State.setValid s x1 x2).tbu = s.tbu ∧ (State.setValid s x1 x2).hk = s.hk ∧ (State.setValid s x1 x2).boot = s.boot ∧
    (State.setValid s x1 x2).out = s.out ∧ (State.setValid s x1 x2).goodAt = s.goodAt ∧
    (State.setValid s x1 x2).free = s.free ∧ (State.setValid s x1 x2).pending = s.pending := by
  unfold State.setValid
  simp

@[simp] theorem State.oldest_frame (s : State) :
    (State.oldest s).clk = s.clk ∧ (State.oldest s).tofs = s.tofs ∧ (State.oldest s).dev = s.dev ∧
    (State.oldest s).mgmt = s.mgmt ∧ (State.oldest s).seq = s.seq ∧ (State.oldest s).edu = s.edu ∧
    (State.oldest s).rta = s.rta ∧ (State.oldest s).rpe = s.rpe ∧ (State.oldest s).stu = s.stu ∧
    (State.oldest s).saf = s.saf ∧ (State.oldest s).cap = s.cap ∧ (State.oldest s).fso = s.fso ∧
    (State.oldest s).cmp = s.cmp ∧ (State.oldest s).mem = s.mem ∧ (State.oldest s).lnk = s.lnk ∧
    (State.oldest s).tbu = s.tbu ∧ (State.oldest s).hk = s.hk ∧ (State.oldest s).boot = s.boot ∧
    (State.oldest s).out = s.out ∧ (State.oldest s).goodAt = s.goodAt ∧ (State.oldest s).free = s.free ∧
    (State.oldest s).pending = s.pending := by
  unfold State.oldest
  simp

@[simp] theorem State.invalidateSegs_frame (s : State) :
    (State.invalidateSegs s).clk = s.clk ∧ (State.invalidateSegs s).tofs = s.tofs ∧ (State.invalidateSegs s).dev = s.dev ∧
    (State.invalidateSegs s).mgmt = s.mgmt ∧ (State.invalidateSegs s).seq = s.seq ∧ (State.invalidateSegs s).edu = s.edu ∧
    (State.invalidateSegs s).rta = s.rta ∧ (State.invalidateSegs s).rpe = s.rpe ∧ (State.invalidateSegs s).stu = s.stu ∧
    (State.invalidateSegs s).saf = s.saf ∧ (State.invalidateSegs s).fso = s.fso ∧ (State.invalidateSegs s).cmp = s.cmp ∧
    (State.invalidateSegs s).mem = s.mem ∧ (State.invalidateSegs s).lnk = s.lnk ∧ (State.invalidateSegs s).tbu = s.tbu ∧
    (State.invalidateSegs s).hk = s.hk ∧ (State.invalidateSegs s).boot = s.boot ∧ (State.invalidateSegs s).out = s.out ∧
    (State.invalidateSegs s).goodAt = s.goodAt ∧ (State.invalidateSegs s).free = s.free ∧
    (State.invalidateSegs s).pending = s.pending := by
  unfold State.invalidateSegs
  simp

@[simp] theorem State.armSeg_frame (s : State) :
    (State.armSeg s).clk = s.clk ∧ (State.armSeg s).tofs = s.tofs ∧ (State.armSeg s).dev = s.dev ∧
    (State.armSeg s).mgmt = s.mgmt ∧ (State.armSeg s).seq = s.seq ∧ (State.armSeg s).edu = s.edu ∧
    (State.armSeg s).rta = s.rta ∧ (State.armSeg s).rpe = s.rpe ∧ (State.armSeg s).stu = s.stu ∧
    (State.armSeg s).saf = s.saf ∧ (State.armSeg s).fso = s.fso ∧ (State.armSeg s).cmp = s.cmp ∧
    (State.armSeg s).mem = s.mem ∧ (State.armSeg s).lnk = s.lnk ∧ (State.armSeg s).tbu = s.tbu ∧
    (State.armSeg s).hk = s.hk ∧ (State.armSeg s).boot = s.boot ∧ (State.armSeg s).out = s.out ∧
    (State.armSeg s).goodAt = s.goodAt ∧ (State.armSeg s).free = s.free ∧ (State.armSeg s).pending = s.pending := by
  unfold State.armSeg
  (repeat' (first | (split; rename_i heq; have h1 := congrArg Prod.fst heq; have h2 := congrArg Prod.snd heq; dsimp only at h1 h2; (try subst h1); (try subst h2)) | split)) <;> simp

@[simp] theorem State.closeSeg_frame (s : State) (x1 : Bool) :
    (State.closeSeg s x1).clk = s.clk ∧ (State.closeSeg s x1).tofs = s.tofs ∧ (State.closeSeg s x1).dev = s.dev ∧
    (State.closeSeg s x1).mgmt = s.mgmt ∧ (State.closeSeg s x1).seq = s.seq ∧ (State.closeSeg s x1).edu = s.edu ∧
    (State.closeSeg s x1).rta = s.rta ∧ (State.closeSeg s x1).rpe = s.rpe ∧ (State.closeSeg s x1).stu = s.stu ∧
    (State.closeSeg s x1).saf = s.saf ∧ (State.closeSeg s x1).fso = s.fso ∧ (State.closeSeg s x1).cmp = s.cmp ∧
    (State.closeSeg s x1).lnk = s.lnk ∧ (State.closeSeg s x1).tbu = s.tbu ∧ (State.closeSeg s x1).hk = s.hk ∧
    (State.closeSeg s x1).boot = s.boot ∧ (State.closeSeg s x1).out = s.out ∧ (State.closeSeg s x1).goodAt = s.goodAt ∧
    (State.closeSeg s x1).free = s.free ∧ (State.closeSeg s x1).pending = s.pending := by
  unfold State.closeSeg
  (repeat' (first | (split; rename_i heq; have h1 := congrArg Prod.fst heq; have h2 := congrArg Prod.snd heq; dsimp only at h1 h2; (try subst h1); (try subst h2)) | split)) <;> simp

@[simp] theorem State.triggerSeg_frame (s : State) (x1 : Seg) (x2 : Cond) :
    (State.triggerSeg s x1 x2).clk = s.clk ∧ (State.triggerSeg s x1 x2).tofs = s.tofs ∧
    (State.triggerSeg s x1 x2).dev = s.dev ∧ (State.triggerSeg s x1 x2).regs = s.regs ∧
    (State.triggerSeg s x1 x2).mgmt = s.mgmt ∧ (State.triggerSeg s x1 x2).seq = s.seq ∧
    (State.triggerSeg s x1 x2).edu = s.edu ∧ (State.triggerSeg s x1 x2).rta = s.rta ∧
    (State.triggerSeg s x1 x2).rpe = s.rpe ∧ (State.triggerSeg s x1 x2).stu = s.stu ∧
    (State.triggerSeg s x1 x2).saf = s.saf ∧ (State.triggerSeg s x1 x2).fso = s.fso ∧
    (State.triggerSeg s x1 x2).cmp = s.cmp ∧ (State.triggerSeg s x1 x2).mem = s.mem ∧
    (State.triggerSeg s x1 x2).lnk = s.lnk ∧ (State.triggerSeg s x1 x2).tbu = s.tbu ∧ (State.triggerSeg s x1 x2).hk = s.hk ∧
    (State.triggerSeg s x1 x2).boot = s.boot ∧ (State.triggerSeg s x1 x2).out = s.out ∧
    (State.triggerSeg s x1 x2).goodAt = s.goodAt ∧ (State.triggerSeg s x1 x2).free = s.free ∧
    (State.triggerSeg s x1 x2).pending = s.pending := by
  unfold State.triggerSeg
  simp

@[simp] theorem State.missTrigger_frame (s : State) :
    (State.missTrigger s).clk = s.clk ∧ (State.missTrigger s).tofs = s.tofs ∧ (State.missTrigger s).dev = s.dev ∧
    (State.missTrigger s).mgmt = s.mgmt ∧ (State.missTrigger s).seq = s.seq ∧ (State.missTrigger s).edu = s.edu ∧
    (State.missTrigger s).rta = s.rta ∧ (State.missTrigger s).rpe = s.rpe ∧ (State.missTrigger s).stu = s.stu ∧
    (State.missTrigger s).saf = s.saf ∧ (State.missTrigger s).fso = s.fso ∧ (State.missTrigger s).cmp = s.cmp ∧
    (State.missTrigger s).mem = s.mem ∧ (State.missTrigger s).lnk = s.lnk ∧ (State.missTrigger s).tbu = s.tbu ∧
    (State.missTrigger s).hk = s.hk ∧ (State.missTrigger s).boot = s.boot ∧ (State.missTrigger s).out = s.out ∧
    (State.missTrigger s).goodAt = s.goodAt ∧ (State.missTrigger s).free = s.free ∧
    (State.missTrigger s).pending = s.pending := by
  unfold State.missTrigger
  simp

@[simp] theorem State.takeCond_frame (s : State) (x1 : Cond) :
    (State.takeCond s x1).clk = s.clk ∧ (State.takeCond s x1).tofs = s.tofs ∧ (State.takeCond s x1).dev = s.dev ∧
    (State.takeCond s x1).mgmt = s.mgmt ∧ (State.takeCond s x1).seq = s.seq ∧ (State.takeCond s x1).edu = s.edu ∧
    (State.takeCond s x1).rta = s.rta ∧ (State.takeCond s x1).rpe = s.rpe ∧ (State.takeCond s x1).stu = s.stu ∧
    (State.takeCond s x1).saf = s.saf ∧ (State.takeCond s x1).fso = s.fso ∧ (State.takeCond s x1).cmp = s.cmp ∧
    (State.takeCond s x1).mem = s.mem ∧ (State.takeCond s x1).lnk = s.lnk ∧ (State.takeCond s x1).tbu = s.tbu ∧
    (State.takeCond s x1).hk = s.hk ∧ (State.takeCond s x1).boot = s.boot ∧ (State.takeCond s x1).out = s.out ∧
    (State.takeCond s x1).goodAt = s.goodAt ∧ (State.takeCond s x1).free = s.free ∧
    (State.takeCond s x1).pending = s.pending := by
  unfold State.takeCond
  (repeat' (first | (split; rename_i heq; have h1 := congrArg Prod.fst heq; have h2 := congrArg Prod.snd heq; dsimp only at h1 h2; (try subst h1); (try subst h2)) | split)) <;> simp

@[simp] theorem State.putItems_frame (s : State) (x1 : Seg) (x2 : List (List Word × ℕ × ℕ)) :
    (State.putItems s x1 x2).1.clk = s.clk ∧ (State.putItems s x1 x2).1.tofs = s.tofs ∧
    (State.putItems s x1 x2).1.dev = s.dev ∧ (State.putItems s x1 x2).1.regs = s.regs ∧
    (State.putItems s x1 x2).1.mgmt = s.mgmt ∧ (State.putItems s x1 x2).1.seq = s.seq ∧
    (State.putItems s x1 x2).1.edu = s.edu ∧ (State.putItems s x1 x2).1.rta = s.rta ∧
    (State.putItems s x1 x2).1.rpe = s.rpe ∧ (State.putItems s x1 x2).1.stu = s.stu ∧
    (State.putItems s x1 x2).1.saf = s.saf ∧ (State.putItems s x1 x2).1.fso = s.fso ∧
    (State.putItems s x1 x2).1.cmp = s.cmp ∧ (State.putItems s x1 x2).1.lnk = s.lnk ∧
    (State.putItems s x1 x2).1.tbu = s.tbu ∧ (State.putItems s x1 x2).1.hk = s.hk ∧
    (State.putItems s x1 x2).1.boot = s.boot ∧ (State.putItems s x1 x2).1.out = s.out ∧
    (State.putItems s x1 x2).1.goodAt = s.goodAt ∧ (State.putItems s x1 x2).1.free = s.free ∧
    (State.putItems s x1 x2).1.pending = s.pending := by
  unfold State.putItems
  simp

@[simp] theorem State.storeRec_frame (s : State) (x1 : Seg) (x2 : CapRec) (x3 : Option ℕ) :
    (State.storeRec s x1 x2 x3).clk = s.clk ∧ (State.storeRec s x1 x2 x3).tofs = s.tofs ∧
    (State.storeRec s x1 x2 x3).dev = s.dev ∧ (State.storeRec s x1 x2 x3).mgmt = s.mgmt ∧
    (State.storeRec s x1 x2 x3).seq = s.seq ∧ (State.storeRec s x1 x2 x3).edu = s.edu ∧
    (State.storeRec s x1 x2 x3).rta = s.rta ∧ (State.storeRec s x1 x2 x3).rpe = s.rpe ∧
    (State.storeRec s x1 x2 x3).stu = s.stu ∧ (State.storeRec s x1 x2 x3).saf = s.saf ∧
    (State.storeRec s x1 x2 x3).fso = s.fso ∧ (State.storeRec s x1 x2 x3).cmp = s.cmp ∧
    (State.storeRec s x1 x2 x3).lnk = s.lnk ∧ (State.storeRec s x1 x2 x3).tbu = s.tbu ∧
    (State.storeRec s x1 x2 x3).hk = s.hk ∧ (State.storeRec s x1 x2 x3).boot = s.boot ∧
    (State.storeRec s x1 x2 x3).out = s.out ∧ (State.storeRec s x1 x2 x3).goodAt = s.goodAt ∧
    (State.storeRec s x1 x2 x3).free = s.free ∧ (State.storeRec s x1 x2 x3).pending = s.pending := by
  unfold State.storeRec
  simp

@[simp] theorem State.capPoison_frame (s : State) (x1 : ℕ) :
    (State.capPoison s x1).clk = s.clk ∧ (State.capPoison s x1).tofs = s.tofs ∧ (State.capPoison s x1).dev = s.dev ∧
    (State.capPoison s x1).mgmt = s.mgmt ∧ (State.capPoison s x1).seq = s.seq ∧ (State.capPoison s x1).edu = s.edu ∧
    (State.capPoison s x1).rta = s.rta ∧ (State.capPoison s x1).rpe = s.rpe ∧ (State.capPoison s x1).stu = s.stu ∧
    (State.capPoison s x1).saf = s.saf ∧ (State.capPoison s x1).fso = s.fso ∧ (State.capPoison s x1).cmp = s.cmp ∧
    (State.capPoison s x1).mem = s.mem ∧ (State.capPoison s x1).lnk = s.lnk ∧ (State.capPoison s x1).tbu = s.tbu ∧
    (State.capPoison s x1).hk = s.hk ∧ (State.capPoison s x1).boot = s.boot ∧ (State.capPoison s x1).out = s.out ∧
    (State.capPoison s x1).goodAt = s.goodAt ∧ (State.capPoison s x1).free = s.free ∧
    (State.capPoison s x1).pending = s.pending := by
  unfold State.capPoison
  dsimp only
  (repeat' (first | (split; rename_i heq; have h1 := congrArg Prod.fst heq; have h2 := congrArg Prod.snd heq; dsimp only at h1 h2; (try subst h1); (try subst h2)) | split)) <;> simp

@[simp] theorem State.commitSetup_frame (s : State) (x1 : List Word) :
    (State.commitSetup s x1).clk = s.clk ∧ (State.commitSetup s x1).tofs = s.tofs ∧ (State.commitSetup s x1).dev = s.dev ∧
    (State.commitSetup s x1).mgmt = s.mgmt ∧ (State.commitSetup s x1).seq = s.seq ∧ (State.commitSetup s x1).edu = s.edu ∧
    (State.commitSetup s x1).rta = s.rta ∧ (State.commitSetup s x1).rpe = s.rpe ∧ (State.commitSetup s x1).stu = s.stu ∧
    (State.commitSetup s x1).saf = s.saf ∧ (State.commitSetup s x1).fso = s.fso ∧ (State.commitSetup s x1).cmp = s.cmp ∧
    (State.commitSetup s x1).mem = s.mem ∧ (State.commitSetup s x1).lnk = s.lnk ∧ (State.commitSetup s x1).tbu = s.tbu ∧
    (State.commitSetup s x1).hk = s.hk ∧ (State.commitSetup s x1).boot = s.boot ∧ (State.commitSetup s x1).out = s.out ∧
    (State.commitSetup s x1).goodAt = s.goodAt ∧ (State.commitSetup s x1).free = s.free ∧
    (State.commitSetup s x1).pending = s.pending := by
  unfold State.commitSetup
  simp

@[simp] theorem State.armCap_frame (s : State) :
    (State.armCap s).clk = s.clk ∧ (State.armCap s).tofs = s.tofs ∧ (State.armCap s).dev = s.dev ∧
    (State.armCap s).mgmt = s.mgmt ∧ (State.armCap s).seq = s.seq ∧ (State.armCap s).edu = s.edu ∧
    (State.armCap s).rta = s.rta ∧ (State.armCap s).rpe = s.rpe ∧ (State.armCap s).stu = s.stu ∧
    (State.armCap s).saf = s.saf ∧ (State.armCap s).fso = s.fso ∧ (State.armCap s).cmp = s.cmp ∧
    (State.armCap s).mem = s.mem ∧ (State.armCap s).lnk = s.lnk ∧ (State.armCap s).tbu = s.tbu ∧
    (State.armCap s).hk = s.hk ∧ (State.armCap s).boot = s.boot ∧ (State.armCap s).out = s.out ∧
    (State.armCap s).goodAt = s.goodAt ∧ (State.armCap s).free = s.free ∧ (State.armCap s).pending = s.pending := by
  unfold State.armCap
  simp

@[simp] theorem State.unlockCap_frame (s : State) :
    (State.unlockCap s).clk = s.clk ∧ (State.unlockCap s).tofs = s.tofs ∧ (State.unlockCap s).dev = s.dev ∧
    (State.unlockCap s).regs = s.regs ∧ (State.unlockCap s).mgmt = s.mgmt ∧ (State.unlockCap s).seq = s.seq ∧
    (State.unlockCap s).edu = s.edu ∧ (State.unlockCap s).rta = s.rta ∧ (State.unlockCap s).rpe = s.rpe ∧
    (State.unlockCap s).stu = s.stu ∧ (State.unlockCap s).saf = s.saf ∧ (State.unlockCap s).fso = s.fso ∧
    (State.unlockCap s).cmp = s.cmp ∧ (State.unlockCap s).mem = s.mem ∧ (State.unlockCap s).lnk = s.lnk ∧
    (State.unlockCap s).tbu = s.tbu ∧ (State.unlockCap s).hk = s.hk ∧ (State.unlockCap s).boot = s.boot ∧
    (State.unlockCap s).out = s.out ∧ (State.unlockCap s).goodAt = s.goodAt ∧ (State.unlockCap s).free = s.free ∧
    (State.unlockCap s).pending = s.pending := by
  unfold State.unlockCap
  simp

@[simp] theorem State.writeBursts_inv (s : State) (x1 : ℕ) (x2 : ℕ → Bool) : (State.writeBursts s x1 x2).Inv ↔ s.Inv := inv_of_parts (by simp) (by simp)

@[simp] theorem State.writeBurst_inv (s : State) (x1 : ℕ) (x2 : ℕ) : (State.writeBurst s x1 x2).Inv ↔ s.Inv := inv_of_parts (by simp) (by simp)

@[simp] theorem State.storeWords_inv (s : State) (x1 : ℕ) (x2 : List Word) : (State.storeWords s x1 x2).Inv ↔ s.Inv := inv_of_parts (by simp) (by simp)

@[simp] theorem State.ringWords_inv (s : State) (x1 : ℕ) (x2 : ℕ) (x3 : List Word) : (State.ringWords s x1 x2 x3).Inv ↔ s.Inv := inv_of_parts (by simp) (by simp)

@[simp] theorem State.condition_inv (s : State) (x1 : Cond) : (State.condition s x1).Inv ↔ s.Inv := inv_of_parts (by simp) (by simp)

@[simp] theorem State.offer_inv (s : State) (x1 : CapRec) : (State.offer s x1).Inv ↔ s.Inv := inv_of_parts (by simp) (by simp)

@[simp] theorem State.setValid_inv (s : State) (x1 : ℕ) (x2 : Bool) : (State.setValid s x1 x2).Inv ↔ s.Inv := inv_of_parts (by simp) (by simp)

@[simp] theorem State.oldest_inv (s : State) (h : s.Inv) : (State.oldest s).Inv := by
  unfold State.oldest
  simp (maxDischargeDepth := 100) [h]

@[simp] theorem State.invalidateSegs_inv (s : State) (h : s.Inv) : (State.invalidateSegs s).Inv := by
  unfold State.invalidateSegs
  simp (maxDischargeDepth := 100) [h]

@[simp] theorem State.armSeg_inv (s : State) (h : s.Inv) : (State.armSeg s).Inv := by
  unfold State.armSeg
  (repeat' (first | (split; rename_i heq; have h1 := congrArg Prod.fst heq; have h2 := congrArg Prod.snd heq; dsimp only at h1 h2; (try subst h1); (try subst h2)) | split)) <;> simp +contextual (maxDischargeDepth := 100) [h]

@[simp] theorem State.closeSeg_inv (s : State) (x1 : Bool) (h : s.Inv) : (State.closeSeg s x1).Inv := by
  unfold State.closeSeg
  (repeat' (first | (split; rename_i heq; have h1 := congrArg Prod.fst heq; have h2 := congrArg Prod.snd heq; dsimp only at h1 h2; (try subst h1); (try subst h2)) | split)) <;> simp +contextual (maxDischargeDepth := 100) [h]

@[simp] theorem State.triggerSeg_inv (s : State) (x1 : Seg) (x2 : Cond) : (State.triggerSeg s x1 x2).Inv ↔ s.Inv := inv_of_parts (by simp) (by simp)

@[simp] theorem State.missTrigger_inv (s : State) (h : s.Inv) : (State.missTrigger s).Inv := by
  unfold State.missTrigger
  simp (maxDischargeDepth := 100) [h]

@[simp] theorem State.takeCond_inv (s : State) (x1 : Cond) (h : s.Inv) : (State.takeCond s x1).Inv := by
  unfold State.takeCond
  (repeat' (first | (split; rename_i heq; have h1 := congrArg Prod.fst heq; have h2 := congrArg Prod.snd heq; dsimp only at h1 h2; (try subst h1); (try subst h2)) | split)) <;> simp +contextual (maxDischargeDepth := 100) [h]

@[simp] theorem State.putItems_inv (s : State) (x1 : Seg) (x2 : List (List Word × ℕ × ℕ)) : (State.putItems s x1 x2).1.Inv ↔ s.Inv := inv_of_parts (by simp) (by simp)

@[simp] theorem State.storeRec_inv (s : State) (x1 : Seg) (x2 : CapRec) (x3 : Option ℕ) (h : s.Inv) : (State.storeRec s x1 x2 x3).Inv := by
  unfold State.storeRec
  simp (maxDischargeDepth := 100) [h]

@[simp] theorem State.capPoison_inv (s : State) (x1 : ℕ) (h : s.Inv) : (State.capPoison s x1).Inv := by
  unfold State.capPoison
  dsimp only
  (repeat' (first | (split; rename_i heq; have h1 := congrArg Prod.fst heq; have h2 := congrArg Prod.snd heq; dsimp only at h1 h2; (try subst h1); (try subst h2)) | split)) <;> simp +contextual (maxDischargeDepth := 100) [h]

@[simp] theorem State.commitSetup_inv (s : State) (x1 : List Word) (h : s.Inv) : (State.commitSetup s x1).Inv := by
  unfold State.commitSetup
  dsimp only
  rw [State.modCap_inv]
  refine fold_inv _ (fun u a hu => ?_) _ _ (State.invalidateSegs_inv s h)
  split
  · exact State.setWord_inv _ _ _ hu
  · exact hu

@[simp] theorem State.armCap_inv (s : State) (h : s.Inv) : (State.armCap s).Inv := by
  unfold State.armCap
  simp (maxDischargeDepth := 100) [h]

@[simp] theorem State.unlockCap_inv (s : State) : (State.unlockCap s).Inv ↔ s.Inv := inv_of_parts (by simp) (by simp)

/-! ### Memory -/

@[simp] theorem State.seeWrong_frame (s : State) (x1 : ℕ) (x2 : ℕ) (x3 : ℕ) :
    (State.seeWrong s x1 x2 x3).clk = s.clk ∧ (State.seeWrong s x1 x2 x3).tofs = s.tofs ∧
    (State.seeWrong s x1 x2 x3).dev = s.dev ∧ (State.seeWrong s x1 x2 x3).regs = s.regs ∧
    (State.seeWrong s x1 x2 x3).mgmt = s.mgmt ∧ (State.seeWrong s x1 x2 x3).seq = s.seq ∧
    (State.seeWrong s x1 x2 x3).edu = s.edu ∧ (State.seeWrong s x1 x2 x3).rta = s.rta ∧
    (State.seeWrong s x1 x2 x3).rpe = s.rpe ∧ (State.seeWrong s x1 x2 x3).stu = s.stu ∧
    (State.seeWrong s x1 x2 x3).saf = s.saf ∧ (State.seeWrong s x1 x2 x3).cap = s.cap ∧
    (State.seeWrong s x1 x2 x3).fso = s.fso ∧ (State.seeWrong s x1 x2 x3).cmp = s.cmp ∧
    (State.seeWrong s x1 x2 x3).lnk = s.lnk ∧ (State.seeWrong s x1 x2 x3).tbu = s.tbu ∧
    (State.seeWrong s x1 x2 x3).hk = s.hk ∧ (State.seeWrong s x1 x2 x3).boot = s.boot ∧
    (State.seeWrong s x1 x2 x3).out = s.out ∧ (State.seeWrong s x1 x2 x3).goodAt = s.goodAt ∧
    (State.seeWrong s x1 x2 x3).free = s.free ∧ (State.seeWrong s x1 x2 x3).pending = s.pending := by
  unfold State.seeWrong
  simp

@[simp] theorem State.leaveWrong_frame (s : State) (x1 : ℕ) (x2 : ℕ) (x3 : ℕ) :
    (State.leaveWrong s x1 x2 x3).clk = s.clk ∧ (State.leaveWrong s x1 x2 x3).tofs = s.tofs ∧
    (State.leaveWrong s x1 x2 x3).dev = s.dev ∧ (State.leaveWrong s x1 x2 x3).regs = s.regs ∧
    (State.leaveWrong s x1 x2 x3).mgmt = s.mgmt ∧ (State.leaveWrong s x1 x2 x3).seq = s.seq ∧
    (State.leaveWrong s x1 x2 x3).edu = s.edu ∧ (State.leaveWrong s x1 x2 x3).rta = s.rta ∧
    (State.leaveWrong s x1 x2 x3).rpe = s.rpe ∧ (State.leaveWrong s x1 x2 x3).stu = s.stu ∧
    (State.leaveWrong s x1 x2 x3).saf = s.saf ∧ (State.leaveWrong s x1 x2 x3).cap = s.cap ∧
    (State.leaveWrong s x1 x2 x3).fso = s.fso ∧ (State.leaveWrong s x1 x2 x3).cmp = s.cmp ∧
    (State.leaveWrong s x1 x2 x3).lnk = s.lnk ∧ (State.leaveWrong s x1 x2 x3).tbu = s.tbu ∧
    (State.leaveWrong s x1 x2 x3).hk = s.hk ∧ (State.leaveWrong s x1 x2 x3).boot = s.boot ∧
    (State.leaveWrong s x1 x2 x3).out = s.out ∧ (State.leaveWrong s x1 x2 x3).goodAt = s.goodAt ∧
    (State.leaveWrong s x1 x2 x3).free = s.free ∧ (State.leaveWrong s x1 x2 x3).pending = s.pending := by
  unfold State.leaveWrong
  simp

@[simp] theorem State.noteCe_frame (s : State) (x1 : ℕ) (x2 : ℕ) (x3 : ℕ) (x4 : Bool) (x5 : MemHit) :
    (State.noteCe s x1 x2 x3 x4 x5).clk = s.clk ∧ (State.noteCe s x1 x2 x3 x4 x5).tofs = s.tofs ∧
    (State.noteCe s x1 x2 x3 x4 x5).dev = s.dev ∧ (State.noteCe s x1 x2 x3 x4 x5).mgmt = s.mgmt ∧
    (State.noteCe s x1 x2 x3 x4 x5).seq = s.seq ∧ (State.noteCe s x1 x2 x3 x4 x5).edu = s.edu ∧
    (State.noteCe s x1 x2 x3 x4 x5).rta = s.rta ∧ (State.noteCe s x1 x2 x3 x4 x5).rpe = s.rpe ∧
    (State.noteCe s x1 x2 x3 x4 x5).stu = s.stu ∧ (State.noteCe s x1 x2 x3 x4 x5).saf = s.saf ∧
    (State.noteCe s x1 x2 x3 x4 x5).cap = s.cap ∧ (State.noteCe s x1 x2 x3 x4 x5).fso = s.fso ∧
    (State.noteCe s x1 x2 x3 x4 x5).cmp = s.cmp ∧ (State.noteCe s x1 x2 x3 x4 x5).lnk = s.lnk ∧
    (State.noteCe s x1 x2 x3 x4 x5).tbu = s.tbu ∧ (State.noteCe s x1 x2 x3 x4 x5).hk = s.hk ∧
    (State.noteCe s x1 x2 x3 x4 x5).boot = s.boot ∧ (State.noteCe s x1 x2 x3 x4 x5).out = s.out ∧
    (State.noteCe s x1 x2 x3 x4 x5).goodAt = s.goodAt ∧ (State.noteCe s x1 x2 x3 x4 x5).free = s.free ∧
    (State.noteCe s x1 x2 x3 x4 x5).pending = s.pending := by
  unfold State.noteCe
  simp

@[simp] theorem State.noteUe_frame (s : State) (x1 : ℕ) (x2 : ℕ) (x3 : MemHit) :
    (State.noteUe s x1 x2 x3).clk = s.clk ∧ (State.noteUe s x1 x2 x3).tofs = s.tofs ∧
    (State.noteUe s x1 x2 x3).dev = s.dev ∧ (State.noteUe s x1 x2 x3).seq = s.seq ∧ (State.noteUe s x1 x2 x3).edu = s.edu ∧
    (State.noteUe s x1 x2 x3).rta = s.rta ∧ (State.noteUe s x1 x2 x3).rpe = s.rpe ∧ (State.noteUe s x1 x2 x3).stu = s.stu ∧
    (State.noteUe s x1 x2 x3).fso = s.fso ∧ (State.noteUe s x1 x2 x3).cmp = s.cmp ∧ (State.noteUe s x1 x2 x3).tbu = s.tbu ∧
    (State.noteUe s x1 x2 x3).hk = s.hk ∧ (State.noteUe s x1 x2 x3).boot = s.boot ∧
    (State.noteUe s x1 x2 x3).goodAt = s.goodAt ∧ (State.noteUe s x1 x2 x3).free = s.free ∧
    (State.noteUe s x1 x2 x3).pending = s.pending := by
  unfold State.noteUe
  simp

@[simp] theorem State.noteHit_frame (s : State) (x1 : ℕ) (x2 : ℕ) (x3 : Bool) (x4 : MemHit) :
    (State.noteHit s x1 x2 x3 x4).clk = s.clk ∧ (State.noteHit s x1 x2 x3 x4).tofs = s.tofs ∧
    (State.noteHit s x1 x2 x3 x4).dev = s.dev ∧ (State.noteHit s x1 x2 x3 x4).seq = s.seq ∧
    (State.noteHit s x1 x2 x3 x4).edu = s.edu ∧ (State.noteHit s x1 x2 x3 x4).rta = s.rta ∧
    (State.noteHit s x1 x2 x3 x4).rpe = s.rpe ∧ (State.noteHit s x1 x2 x3 x4).stu = s.stu ∧
    (State.noteHit s x1 x2 x3 x4).fso = s.fso ∧ (State.noteHit s x1 x2 x3 x4).cmp = s.cmp ∧
    (State.noteHit s x1 x2 x3 x4).tbu = s.tbu ∧ (State.noteHit s x1 x2 x3 x4).hk = s.hk ∧
    (State.noteHit s x1 x2 x3 x4).boot = s.boot ∧ (State.noteHit s x1 x2 x3 x4).goodAt = s.goodAt ∧
    (State.noteHit s x1 x2 x3 x4).free = s.free ∧ (State.noteHit s x1 x2 x3 x4).pending = s.pending := by
  unfold State.noteHit
  (repeat' (first | (split; rename_i heq; have h1 := congrArg Prod.fst heq; have h2 := congrArg Prod.snd heq; dsimp only at h1 h2; (try subst h1); (try subst h2)) | split)) <;> simp

@[simp] theorem State.judgeMark_frame (s : State) (x1 : ℕ) :
    (State.judgeMark s x1).clk = s.clk ∧ (State.judgeMark s x1).tofs = s.tofs ∧ (State.judgeMark s x1).dev = s.dev ∧
    (State.judgeMark s x1).seq = s.seq ∧ (State.judgeMark s x1).edu = s.edu ∧ (State.judgeMark s x1).rta = s.rta ∧
    (State.judgeMark s x1).rpe = s.rpe ∧ (State.judgeMark s x1).stu = s.stu ∧ (State.judgeMark s x1).cap = s.cap ∧
    (State.judgeMark s x1).fso = s.fso ∧ (State.judgeMark s x1).cmp = s.cmp ∧ (State.judgeMark s x1).tbu = s.tbu ∧
    (State.judgeMark s x1).hk = s.hk ∧ (State.judgeMark s x1).boot = s.boot ∧ (State.judgeMark s x1).goodAt = s.goodAt ∧
    (State.judgeMark s x1).free = s.free ∧ (State.judgeMark s x1).pending = s.pending := by
  unfold State.judgeMark
  dsimp only
  (repeat' (first | (split; rename_i heq; have h1 := congrArg Prod.fst heq; have h2 := congrArg Prod.snd heq; dsimp only at h1 h2; (try subst h1); (try subst h2)) | split)) <;> simp

@[simp] theorem State.judgeMarks_frame (s : State) (x1 : ℕ) :
    (State.judgeMarks s x1).clk = s.clk ∧ (State.judgeMarks s x1).tofs = s.tofs ∧ (State.judgeMarks s x1).dev = s.dev ∧
    (State.judgeMarks s x1).seq = s.seq ∧ (State.judgeMarks s x1).edu = s.edu ∧ (State.judgeMarks s x1).rta = s.rta ∧
    (State.judgeMarks s x1).rpe = s.rpe ∧ (State.judgeMarks s x1).stu = s.stu ∧ (State.judgeMarks s x1).cap = s.cap ∧
    (State.judgeMarks s x1).fso = s.fso ∧ (State.judgeMarks s x1).cmp = s.cmp ∧ (State.judgeMarks s x1).tbu = s.tbu ∧
    (State.judgeMarks s x1).hk = s.hk ∧ (State.judgeMarks s x1).boot = s.boot ∧ (State.judgeMarks s x1).goodAt = s.goodAt ∧
    (State.judgeMarks s x1).free = s.free ∧ (State.judgeMarks s x1).pending = s.pending := by
  unfold State.judgeMarks
  simp

@[simp] theorem State.readBeats_frame (s : State) (x1 : ℕ) (x2 : ℕ) (x3 : Bool) (x4 : List MemHit) :
    (State.readBeats s x1 x2 x3 x4).clk = s.clk ∧ (State.readBeats s x1 x2 x3 x4).tofs = s.tofs ∧
    (State.readBeats s x1 x2 x3 x4).dev = s.dev ∧ (State.readBeats s x1 x2 x3 x4).seq = s.seq ∧
    (State.readBeats s x1 x2 x3 x4).edu = s.edu ∧ (State.readBeats s x1 x2 x3 x4).rta = s.rta ∧
    (State.readBeats s x1 x2 x3 x4).rpe = s.rpe ∧ (State.readBeats s x1 x2 x3 x4).stu = s.stu ∧
    (State.readBeats s x1 x2 x3 x4).fso = s.fso ∧ (State.readBeats s x1 x2 x3 x4).cmp = s.cmp ∧
    (State.readBeats s x1 x2 x3 x4).tbu = s.tbu ∧ (State.readBeats s x1 x2 x3 x4).hk = s.hk ∧
    (State.readBeats s x1 x2 x3 x4).boot = s.boot ∧ (State.readBeats s x1 x2 x3 x4).goodAt = s.goodAt ∧
    (State.readBeats s x1 x2 x3 x4).free = s.free ∧ (State.readBeats s x1 x2 x3 x4).pending = s.pending := by
  induction x4 generalizing s with
  | nil => simp [State.readBeats]
  | cons w ws ih => unfold State.readBeats; dsimp only; (repeat' (first | (split; rename_i heq; have h1 := congrArg Prod.fst heq; have h2 := congrArg Prod.snd heq; dsimp only at h1 h2; (try subst h1); (try subst h2)) | split)) <;> simp [ih]

@[simp] theorem State.memRead_frame (s : State) (x1 : ℕ) (x2 : ℕ) (x3 : Bool) (x4 : List MemHit) :
    (State.memRead s x1 x2 x3 x4).clk = s.clk ∧ (State.memRead s x1 x2 x3 x4).tofs = s.tofs ∧
    (State.memRead s x1 x2 x3 x4).dev = s.dev ∧ (State.memRead s x1 x2 x3 x4).seq = s.seq ∧
    (State.memRead s x1 x2 x3 x4).edu = s.edu ∧ (State.memRead s x1 x2 x3 x4).rta = s.rta ∧
    (State.memRead s x1 x2 x3 x4).rpe = s.rpe ∧ (State.memRead s x1 x2 x3 x4).stu = s.stu ∧
    (State.memRead s x1 x2 x3 x4).fso = s.fso ∧ (State.memRead s x1 x2 x3 x4).cmp = s.cmp ∧
    (State.memRead s x1 x2 x3 x4).tbu = s.tbu ∧ (State.memRead s x1 x2 x3 x4).hk = s.hk ∧
    (State.memRead s x1 x2 x3 x4).boot = s.boot ∧ (State.memRead s x1 x2 x3 x4).goodAt = s.goodAt ∧
    (State.memRead s x1 x2 x3 x4).free = s.free ∧ (State.memRead s x1 x2 x3 x4).pending = s.pending := by
  unfold State.memRead
  simp

@[simp] theorem State.settlePass_frame (s : State) :
    (State.settlePass s).clk = s.clk ∧ (State.settlePass s).tofs = s.tofs ∧ (State.settlePass s).dev = s.dev ∧
    (State.settlePass s).mgmt = s.mgmt ∧ (State.settlePass s).seq = s.seq ∧ (State.settlePass s).edu = s.edu ∧
    (State.settlePass s).rta = s.rta ∧ (State.settlePass s).rpe = s.rpe ∧ (State.settlePass s).stu = s.stu ∧
    (State.settlePass s).saf = s.saf ∧ (State.settlePass s).cap = s.cap ∧ (State.settlePass s).fso = s.fso ∧
    (State.settlePass s).cmp = s.cmp ∧ (State.settlePass s).lnk = s.lnk ∧ (State.settlePass s).tbu = s.tbu ∧
    (State.settlePass s).hk = s.hk ∧ (State.settlePass s).boot = s.boot ∧ (State.settlePass s).out = s.out ∧
    (State.settlePass s).goodAt = s.goodAt ∧ (State.settlePass s).free = s.free ∧
    (State.settlePass s).pending = s.pending := by
  unfold State.settlePass
  simp

@[simp] theorem State.readTbl_frame (s : State) (x1 : ℕ) (x2 : List MemHit) :
    (State.readTbl s x1 x2).2.clk = s.clk ∧ (State.readTbl s x1 x2).2.tofs = s.tofs ∧
    (State.readTbl s x1 x2).2.dev = s.dev ∧ (State.readTbl s x1 x2).2.seq = s.seq ∧ (State.readTbl s x1 x2).2.edu = s.edu ∧
    (State.readTbl s x1 x2).2.rta = s.rta ∧ (State.readTbl s x1 x2).2.rpe = s.rpe ∧ (State.readTbl s x1 x2).2.stu = s.stu ∧
    (State.readTbl s x1 x2).2.fso = s.fso ∧ (State.readTbl s x1 x2).2.cmp = s.cmp ∧ (State.readTbl s x1 x2).2.tbu = s.tbu ∧
    (State.readTbl s x1 x2).2.hk = s.hk ∧ (State.readTbl s x1 x2).2.boot = s.boot ∧
    (State.readTbl s x1 x2).2.goodAt = s.goodAt ∧ (State.readTbl s x1 x2).2.free = s.free ∧
    (State.readTbl s x1 x2).2.pending = s.pending := by
  unfold State.readTbl
  simp

@[simp] theorem State.seeWrong_inv (s : State) (x1 : ℕ) (x2 : ℕ) (x3 : ℕ) : (State.seeWrong s x1 x2 x3).Inv ↔ s.Inv := inv_of_parts (by simp) (by simp)

@[simp] theorem State.leaveWrong_inv (s : State) (x1 : ℕ) (x2 : ℕ) (x3 : ℕ) : (State.leaveWrong s x1 x2 x3).Inv ↔ s.Inv := inv_of_parts (by simp) (by simp)

@[simp] theorem State.noteCe_inv (s : State) (x1 : ℕ) (x2 : ℕ) (x3 : ℕ) (x4 : Bool) (x5 : MemHit) (h : s.Inv) : (State.noteCe s x1 x2 x3 x4 x5).Inv := by
  unfold State.noteCe
  simp (maxDischargeDepth := 100) [h]

@[simp] theorem State.noteUe_inv (s : State) (x1 : ℕ) (x2 : ℕ) (x3 : MemHit) (h : s.Inv) : (State.noteUe s x1 x2 x3).Inv := by
  unfold State.noteUe
  simp (maxDischargeDepth := 100) [h]

@[simp] theorem State.noteHit_inv (s : State) (x1 : ℕ) (x2 : ℕ) (x3 : Bool) (x4 : MemHit) (h : s.Inv) : (State.noteHit s x1 x2 x3 x4).Inv := by
  unfold State.noteHit
  (repeat' (first | (split; rename_i heq; have h1 := congrArg Prod.fst heq; have h2 := congrArg Prod.snd heq; dsimp only at h1 h2; (try subst h1); (try subst h2)) | split)) <;> simp +contextual (maxDischargeDepth := 100) [h]

@[simp] theorem State.judgeMark_inv (s : State) (x1 : ℕ) (h : s.Inv) : (State.judgeMark s x1).Inv := by
  unfold State.judgeMark
  dsimp only
  (repeat' (first | (split; rename_i heq; have h1 := congrArg Prod.fst heq; have h2 := congrArg Prod.snd heq; dsimp only at h1 h2; (try subst h1); (try subst h2)) | split)) <;> simp +contextual (maxDischargeDepth := 100) [h]

@[simp] theorem State.judgeMarks_inv (s : State) (x1 : ℕ) (h : s.Inv) : (State.judgeMarks s x1).Inv := by
  unfold State.judgeMarks
  simp +contextual (maxDischargeDepth := 100) [h]

@[simp] theorem State.readBeats_inv (s : State) (x1 : ℕ) (x2 : ℕ) (x3 : Bool) (x4 : List MemHit) (h : s.Inv) : (State.readBeats s x1 x2 x3 x4).Inv := by
  induction x4 generalizing s with
  | nil => simpa [State.readBeats] using h
  | cons w ws ih =>
    unfold State.readBeats
    dsimp only
    apply ih
    split <;> simp (maxDischargeDepth := 100) [*]

@[simp] theorem State.memRead_inv (s : State) (x1 : ℕ) (x2 : ℕ) (x3 : Bool) (x4 : List MemHit) (h : s.Inv) : (State.memRead s x1 x2 x3 x4).Inv := by
  unfold State.memRead
  simp +contextual (maxDischargeDepth := 100) [h]

@[simp] theorem State.settlePass_inv (s : State) (h : s.Inv) : (State.settlePass s).Inv := by
  unfold State.settlePass
  simp (maxDischargeDepth := 100) [h]

@[simp] theorem State.readTbl_inv (s : State) (x1 : ℕ) (x2 : List MemHit) (h : s.Inv) : (State.readTbl s x1 x2).2.Inv := by
  unfold State.readTbl
  simp (maxDischargeDepth := 100) [h]

/-! ### Hist -/

@[simp] theorem State.noteDrained_frame (s : State) (x1 : ℕ) :
    (State.noteDrained s x1).clk = s.clk ∧ (State.noteDrained s x1).tofs = s.tofs ∧ (State.noteDrained s x1).dev = s.dev ∧
    (State.noteDrained s x1).mgmt = s.mgmt ∧ (State.noteDrained s x1).seq = s.seq ∧ (State.noteDrained s x1).edu = s.edu ∧
    (State.noteDrained s x1).rta = s.rta ∧ (State.noteDrained s x1).rpe = s.rpe ∧ (State.noteDrained s x1).stu = s.stu ∧
    (State.noteDrained s x1).saf = s.saf ∧ (State.noteDrained s x1).cap = s.cap ∧ (State.noteDrained s x1).fso = s.fso ∧
    (State.noteDrained s x1).cmp = s.cmp ∧ (State.noteDrained s x1).mem = s.mem ∧ (State.noteDrained s x1).lnk = s.lnk ∧
    (State.noteDrained s x1).tbu = s.tbu ∧ (State.noteDrained s x1).hk = s.hk ∧ (State.noteDrained s x1).boot = s.boot ∧
    (State.noteDrained s x1).out = s.out ∧ (State.noteDrained s x1).goodAt = s.goodAt ∧
    (State.noteDrained s x1).free = s.free ∧ (State.noteDrained s x1).pending = s.pending := by
  unfold State.noteDrained
  simp

@[simp] theorem State.handOver_frame (s : State) (x1 : Hist) :
    (State.handOver s x1).clk = s.clk ∧ (State.handOver s x1).tofs = s.tofs ∧ (State.handOver s x1).dev = s.dev ∧
    (State.handOver s x1).mgmt = s.mgmt ∧ (State.handOver s x1).seq = s.seq ∧ (State.handOver s x1).edu = s.edu ∧
    (State.handOver s x1).rta = s.rta ∧ (State.handOver s x1).stu = s.stu ∧ (State.handOver s x1).saf = s.saf ∧
    (State.handOver s x1).fso = s.fso ∧ (State.handOver s x1).cmp = s.cmp ∧ (State.handOver s x1).mem = s.mem ∧
    (State.handOver s x1).lnk = s.lnk ∧ (State.handOver s x1).tbu = s.tbu ∧ (State.handOver s x1).hk = s.hk ∧
    (State.handOver s x1).boot = s.boot ∧ (State.handOver s x1).out = s.out ∧ (State.handOver s x1).goodAt = s.goodAt ∧
    (State.handOver s x1).free = s.free ∧ (State.handOver s x1).pending = s.pending := by
  unfold State.handOver
  simp

@[simp] theorem State.closeOpen_frame (s : State) (x1 : Hist) (x2 : ℕ) :
    (State.closeOpen s x1 x2).clk = s.clk ∧ (State.closeOpen s x1 x2).tofs = s.tofs ∧
    (State.closeOpen s x1 x2).dev = s.dev ∧ (State.closeOpen s x1 x2).seq = s.seq ∧ (State.closeOpen s x1 x2).edu = s.edu ∧
    (State.closeOpen s x1 x2).rta = s.rta ∧ (State.closeOpen s x1 x2).stu = s.stu ∧ (State.closeOpen s x1 x2).fso = s.fso ∧
    (State.closeOpen s x1 x2).cmp = s.cmp ∧ (State.closeOpen s x1 x2).mem = s.mem ∧ (State.closeOpen s x1 x2).tbu = s.tbu ∧
    (State.closeOpen s x1 x2).hk = s.hk ∧ (State.closeOpen s x1 x2).boot = s.boot ∧
    (State.closeOpen s x1 x2).goodAt = s.goodAt ∧ (State.closeOpen s x1 x2).free = s.free ∧
    (State.closeOpen s x1 x2).pending = s.pending := by
  unfold State.closeOpen
  simp

@[simp] theorem State.closeHist_frame (s : State) (x1 : ℕ) (x2 : ℕ) :
    (State.closeHist s x1 x2).clk = s.clk ∧ (State.closeHist s x1 x2).tofs = s.tofs ∧
    (State.closeHist s x1 x2).dev = s.dev ∧ (State.closeHist s x1 x2).seq = s.seq ∧ (State.closeHist s x1 x2).edu = s.edu ∧
    (State.closeHist s x1 x2).rta = s.rta ∧ (State.closeHist s x1 x2).stu = s.stu ∧ (State.closeHist s x1 x2).fso = s.fso ∧
    (State.closeHist s x1 x2).cmp = s.cmp ∧ (State.closeHist s x1 x2).mem = s.mem ∧ (State.closeHist s x1 x2).tbu = s.tbu ∧
    (State.closeHist s x1 x2).hk = s.hk ∧ (State.closeHist s x1 x2).boot = s.boot ∧
    (State.closeHist s x1 x2).goodAt = s.goodAt ∧ (State.closeHist s x1 x2).free = s.free ∧
    (State.closeHist s x1 x2).pending = s.pending := by
  unfold State.closeHist
  (repeat' (first | (split; rename_i heq; have h1 := congrArg Prod.fst heq; have h2 := congrArg Prod.snd heq; dsimp only at h1 h2; (try subst h1); (try subst h2)) | split)) <;> simp

@[simp] theorem State.closeAll_frame (s : State) (x1 : ℕ) :
    (State.closeAll s x1).clk = s.clk ∧ (State.closeAll s x1).tofs = s.tofs ∧ (State.closeAll s x1).dev = s.dev ∧
    (State.closeAll s x1).seq = s.seq ∧ (State.closeAll s x1).edu = s.edu ∧ (State.closeAll s x1).rta = s.rta ∧
    (State.closeAll s x1).stu = s.stu ∧ (State.closeAll s x1).fso = s.fso ∧ (State.closeAll s x1).cmp = s.cmp ∧
    (State.closeAll s x1).mem = s.mem ∧ (State.closeAll s x1).tbu = s.tbu ∧ (State.closeAll s x1).hk = s.hk ∧
    (State.closeAll s x1).boot = s.boot ∧ (State.closeAll s x1).goodAt = s.goodAt ∧ (State.closeAll s x1).free = s.free ∧
    (State.closeAll s x1).pending = s.pending := by
  unfold State.closeAll
  simp

@[simp] theorem State.releaseRd_frame (s : State) (x1 : ℕ) :
    (State.releaseRd s x1).clk = s.clk ∧ (State.releaseRd s x1).tofs = s.tofs ∧ (State.releaseRd s x1).dev = s.dev ∧
    (State.releaseRd s x1).mgmt = s.mgmt ∧ (State.releaseRd s x1).seq = s.seq ∧ (State.releaseRd s x1).edu = s.edu ∧
    (State.releaseRd s x1).rta = s.rta ∧ (State.releaseRd s x1).stu = s.stu ∧ (State.releaseRd s x1).saf = s.saf ∧
    (State.releaseRd s x1).fso = s.fso ∧ (State.releaseRd s x1).cmp = s.cmp ∧ (State.releaseRd s x1).mem = s.mem ∧
    (State.releaseRd s x1).lnk = s.lnk ∧ (State.releaseRd s x1).tbu = s.tbu ∧ (State.releaseRd s x1).hk = s.hk ∧
    (State.releaseRd s x1).boot = s.boot ∧ (State.releaseRd s x1).out = s.out ∧ (State.releaseRd s x1).goodAt = s.goodAt ∧
    (State.releaseRd s x1).free = s.free ∧ (State.releaseRd s x1).pending = s.pending := by
  unfold State.releaseRd
  (repeat' (first | (split; rename_i heq; have h1 := congrArg Prod.fst heq; have h2 := congrArg Prod.snd heq; dsimp only at h1 h2; (try subst h1); (try subst h2)) | split)) <;> simp

@[simp] theorem State.dropAnchor_frame (s : State) (x1 : ℕ) :
    (State.dropAnchor s x1).clk = s.clk ∧ (State.dropAnchor s x1).tofs = s.tofs ∧ (State.dropAnchor s x1).dev = s.dev ∧
    (State.dropAnchor s x1).mgmt = s.mgmt ∧ (State.dropAnchor s x1).seq = s.seq ∧ (State.dropAnchor s x1).edu = s.edu ∧
    (State.dropAnchor s x1).rta = s.rta ∧ (State.dropAnchor s x1).stu = s.stu ∧ (State.dropAnchor s x1).saf = s.saf ∧
    (State.dropAnchor s x1).cap = s.cap ∧ (State.dropAnchor s x1).fso = s.fso ∧ (State.dropAnchor s x1).cmp = s.cmp ∧
    (State.dropAnchor s x1).mem = s.mem ∧ (State.dropAnchor s x1).lnk = s.lnk ∧ (State.dropAnchor s x1).tbu = s.tbu ∧
    (State.dropAnchor s x1).hk = s.hk ∧ (State.dropAnchor s x1).boot = s.boot ∧ (State.dropAnchor s x1).out = s.out ∧
    (State.dropAnchor s x1).goodAt = s.goodAt ∧ (State.dropAnchor s x1).free = s.free ∧
    (State.dropAnchor s x1).pending = s.pending := by
  unfold State.dropAnchor
  simp

@[simp] theorem State.dropAnchors_frame (s : State) :
    (State.dropAnchors s).clk = s.clk ∧ (State.dropAnchors s).tofs = s.tofs ∧ (State.dropAnchors s).dev = s.dev ∧
    (State.dropAnchors s).mgmt = s.mgmt ∧ (State.dropAnchors s).seq = s.seq ∧ (State.dropAnchors s).edu = s.edu ∧
    (State.dropAnchors s).rta = s.rta ∧ (State.dropAnchors s).stu = s.stu ∧ (State.dropAnchors s).saf = s.saf ∧
    (State.dropAnchors s).cap = s.cap ∧ (State.dropAnchors s).fso = s.fso ∧ (State.dropAnchors s).cmp = s.cmp ∧
    (State.dropAnchors s).mem = s.mem ∧ (State.dropAnchors s).lnk = s.lnk ∧ (State.dropAnchors s).tbu = s.tbu ∧
    (State.dropAnchors s).hk = s.hk ∧ (State.dropAnchors s).boot = s.boot ∧ (State.dropAnchors s).out = s.out ∧
    (State.dropAnchors s).goodAt = s.goodAt ∧ (State.dropAnchors s).free = s.free ∧
    (State.dropAnchors s).pending = s.pending := by
  unfold State.dropAnchors
  simp

@[simp] theorem State.portClose_frame (s : State) (x1 : ℕ) (x2 : ℕ) :
    (State.portClose s x1 x2).clk = s.clk ∧ (State.portClose s x1 x2).tofs = s.tofs ∧
    (State.portClose s x1 x2).dev = s.dev ∧ (State.portClose s x1 x2).seq = s.seq ∧ (State.portClose s x1 x2).edu = s.edu ∧
    (State.portClose s x1 x2).stu = s.stu ∧ (State.portClose s x1 x2).fso = s.fso ∧ (State.portClose s x1 x2).cmp = s.cmp ∧
    (State.portClose s x1 x2).mem = s.mem ∧ (State.portClose s x1 x2).tbu = s.tbu ∧ (State.portClose s x1 x2).hk = s.hk ∧
    (State.portClose s x1 x2).boot = s.boot ∧ (State.portClose s x1 x2).goodAt = s.goodAt ∧
    (State.portClose s x1 x2).free = s.free ∧ (State.portClose s x1 x2).pending = s.pending := by
  unfold State.portClose
  simp

@[simp] theorem State.settleCloses_frame (s : State) (x1 : ℕ) :
    (State.settleCloses s x1).clk = s.clk ∧ (State.settleCloses s x1).tofs = s.tofs ∧
    (State.settleCloses s x1).dev = s.dev ∧ (State.settleCloses s x1).seq = s.seq ∧ (State.settleCloses s x1).edu = s.edu ∧
    (State.settleCloses s x1).stu = s.stu ∧ (State.settleCloses s x1).fso = s.fso ∧ (State.settleCloses s x1).cmp = s.cmp ∧
    (State.settleCloses s x1).mem = s.mem ∧ (State.settleCloses s x1).tbu = s.tbu ∧ (State.settleCloses s x1).hk = s.hk ∧
    (State.settleCloses s x1).boot = s.boot ∧ (State.settleCloses s x1).goodAt = s.goodAt ∧
    (State.settleCloses s x1).free = s.free ∧ (State.settleCloses s x1).pending = s.pending := by
  unfold State.settleCloses
  simp

@[simp] theorem State.clearHistory_frame (s : State) :
    (State.clearHistory s).clk = s.clk ∧ (State.clearHistory s).tofs = s.tofs ∧ (State.clearHistory s).dev = s.dev ∧
    (State.clearHistory s).mgmt = s.mgmt ∧ (State.clearHistory s).seq = s.seq ∧ (State.clearHistory s).edu = s.edu ∧
    (State.clearHistory s).rta = s.rta ∧ (State.clearHistory s).stu = s.stu ∧ (State.clearHistory s).saf = s.saf ∧
    (State.clearHistory s).cap = s.cap ∧ (State.clearHistory s).fso = s.fso ∧ (State.clearHistory s).cmp = s.cmp ∧
    (State.clearHistory s).mem = s.mem ∧ (State.clearHistory s).lnk = s.lnk ∧ (State.clearHistory s).tbu = s.tbu ∧
    (State.clearHistory s).hk = s.hk ∧ (State.clearHistory s).boot = s.boot ∧ (State.clearHistory s).out = s.out ∧
    (State.clearHistory s).goodAt = s.goodAt ∧ (State.clearHistory s).free = s.free ∧
    (State.clearHistory s).pending = s.pending := by
  unfold State.clearHistory
  simp

@[simp] theorem State.switchPorts_frame (s : State) (x1 : ℕ) :
    (State.switchPorts s x1).clk = s.clk ∧ (State.switchPorts s x1).tofs = s.tofs ∧ (State.switchPorts s x1).dev = s.dev ∧
    (State.switchPorts s x1).seq = s.seq ∧ (State.switchPorts s x1).edu = s.edu ∧ (State.switchPorts s x1).rta = s.rta ∧
    (State.switchPorts s x1).stu = s.stu ∧ (State.switchPorts s x1).fso = s.fso ∧ (State.switchPorts s x1).cmp = s.cmp ∧
    (State.switchPorts s x1).mem = s.mem ∧ (State.switchPorts s x1).tbu = s.tbu ∧ (State.switchPorts s x1).hk = s.hk ∧
    (State.switchPorts s x1).boot = s.boot ∧ (State.switchPorts s x1).goodAt = s.goodAt ∧
    (State.switchPorts s x1).free = s.free ∧ (State.switchPorts s x1).pending = s.pending := by
  unfold State.switchPorts
  simp

@[simp] theorem State.takeShot_frame (s : State) (x1 : ℕ) (x2 : ℕ) :
    (State.takeShot s x1 x2).clk = s.clk ∧ (State.takeShot s x1 x2).tofs = s.tofs ∧ (State.takeShot s x1 x2).dev = s.dev ∧
    (State.takeShot s x1 x2).regs = s.regs ∧ (State.takeShot s x1 x2).mgmt = s.mgmt ∧ (State.takeShot s x1 x2).seq = s.seq ∧
    (State.takeShot s x1 x2).edu = s.edu ∧ (State.takeShot s x1 x2).rpe = s.rpe ∧ (State.takeShot s x1 x2).stu = s.stu ∧
    (State.takeShot s x1 x2).saf = s.saf ∧ (State.takeShot s x1 x2).cap = s.cap ∧ (State.takeShot s x1 x2).fso = s.fso ∧
    (State.takeShot s x1 x2).cmp = s.cmp ∧ (State.takeShot s x1 x2).mem = s.mem ∧ (State.takeShot s x1 x2).lnk = s.lnk ∧
    (State.takeShot s x1 x2).tbu = s.tbu ∧ (State.takeShot s x1 x2).hk = s.hk ∧ (State.takeShot s x1 x2).boot = s.boot ∧
    (State.takeShot s x1 x2).out = s.out ∧ (State.takeShot s x1 x2).goodAt = s.goodAt ∧
    (State.takeShot s x1 x2).free = s.free ∧ (State.takeShot s x1 x2).pending = s.pending := by
  unfold State.takeShot
  simp

@[simp] theorem State.takeSingle_frame (s : State) (x1 : FireRec) (x2 : ℕ) :
    (State.takeSingle s x1 x2).clk = s.clk ∧ (State.takeSingle s x1 x2).tofs = s.tofs ∧
    (State.takeSingle s x1 x2).dev = s.dev ∧ (State.takeSingle s x1 x2).seq = s.seq ∧
    (State.takeSingle s x1 x2).edu = s.edu ∧ (State.takeSingle s x1 x2).stu = s.stu ∧
    (State.takeSingle s x1 x2).fso = s.fso ∧ (State.takeSingle s x1 x2).cmp = s.cmp ∧
    (State.takeSingle s x1 x2).mem = s.mem ∧ (State.takeSingle s x1 x2).tbu = s.tbu ∧ (State.takeSingle s x1 x2).hk = s.hk ∧
    (State.takeSingle s x1 x2).boot = s.boot ∧ (State.takeSingle s x1 x2).goodAt = s.goodAt ∧
    (State.takeSingle s x1 x2).free = s.free ∧ (State.takeSingle s x1 x2).pending = s.pending := by
  unfold State.takeSingle
  (repeat' (first | (split; rename_i heq; have h1 := congrArg Prod.fst heq; have h2 := congrArg Prod.snd heq; dsimp only at h1 h2; (try subst h1); (try subst h2)) | split)) <;> simp

@[simp] theorem State.settleSingles_frame (s : State) :
    (State.settleSingles s).clk = s.clk ∧ (State.settleSingles s).tofs = s.tofs ∧ (State.settleSingles s).dev = s.dev ∧
    (State.settleSingles s).seq = s.seq ∧ (State.settleSingles s).edu = s.edu ∧ (State.settleSingles s).stu = s.stu ∧
    (State.settleSingles s).fso = s.fso ∧ (State.settleSingles s).cmp = s.cmp ∧ (State.settleSingles s).mem = s.mem ∧
    (State.settleSingles s).tbu = s.tbu ∧ (State.settleSingles s).hk = s.hk ∧ (State.settleSingles s).boot = s.boot ∧
    (State.settleSingles s).goodAt = s.goodAt ∧ (State.settleSingles s).free = s.free ∧
    (State.settleSingles s).pending = s.pending := by
  unfold State.settleSingles
  simp

@[simp] theorem State.settlePath_frame (x0 : ℕ) (s : State) :
    (State.settlePath x0 s).clk = s.clk ∧ (State.settlePath x0 s).tofs = s.tofs ∧ (State.settlePath x0 s).dev = s.dev ∧
    (State.settlePath x0 s).edu = s.edu ∧ (State.settlePath x0 s).stu = s.stu ∧ (State.settlePath x0 s).fso = s.fso ∧
    (State.settlePath x0 s).cmp = s.cmp ∧ (State.settlePath x0 s).mem = s.mem ∧ (State.settlePath x0 s).tbu = s.tbu ∧
    (State.settlePath x0 s).hk = s.hk ∧ (State.settlePath x0 s).boot = s.boot ∧ (State.settlePath x0 s).goodAt = s.goodAt ∧
    (State.settlePath x0 s).free = s.free ∧ (State.settlePath x0 s).pending = s.pending := by
  induction x0 generalizing s with
  | zero => simp [State.settlePath]
  | succ n ih => unfold State.settlePath; dsimp only; (repeat' (first | (split; rename_i heq; have h1 := congrArg Prod.fst heq; have h2 := congrArg Prod.snd heq; dsimp only at h1 h2; (try subst h1); (try subst h2)) | split)) <;> simp [ih]

@[simp] theorem State.settle_frame (s : State) :
    (State.settle s).clk = s.clk ∧ (State.settle s).tofs = s.tofs ∧ (State.settle s).dev = s.dev ∧
    (State.settle s).edu = s.edu ∧ (State.settle s).stu = s.stu ∧ (State.settle s).fso = s.fso ∧
    (State.settle s).cmp = s.cmp ∧ (State.settle s).mem = s.mem ∧ (State.settle s).tbu = s.tbu ∧
    (State.settle s).hk = s.hk ∧ (State.settle s).boot = s.boot ∧ (State.settle s).goodAt = s.goodAt ∧
    (State.settle s).free = s.free ∧ (State.settle s).pending = s.pending := by
  unfold State.settle
  simp

@[simp] theorem State.passMark_frame (s : State) (x1 : Mark) :
    (State.passMark s x1).clk = s.clk ∧ (State.passMark s x1).tofs = s.tofs ∧ (State.passMark s x1).dev = s.dev ∧
    (State.passMark s x1).edu = s.edu ∧ (State.passMark s x1).stu = s.stu ∧ (State.passMark s x1).fso = s.fso ∧
    (State.passMark s x1).cmp = s.cmp ∧ (State.passMark s x1).mem = s.mem ∧ (State.passMark s x1).tbu = s.tbu ∧
    (State.passMark s x1).hk = s.hk ∧ (State.passMark s x1).boot = s.boot ∧ (State.passMark s x1).goodAt = s.goodAt ∧
    (State.passMark s x1).free = s.free ∧ (State.passMark s x1).pending = s.pending := by
  unfold State.passMark
  simp

@[simp] theorem State.noteDrained_inv (s : State) (x1 : ℕ) (h : s.Inv) : (State.noteDrained s x1).Inv := by
  unfold State.noteDrained
  simp (maxDischargeDepth := 100) [h]

@[simp] theorem State.handOver_inv (s : State) (x1 : Hist) (h : s.Inv) : (State.handOver s x1).Inv := by
  unfold State.handOver
  simp (maxDischargeDepth := 100) [h]

@[simp] theorem State.closeOpen_inv (s : State) (x1 : Hist) (x2 : ℕ) (h : s.Inv) : (State.closeOpen s x1 x2).Inv := by
  unfold State.closeOpen
  simp (maxDischargeDepth := 100) [h]

@[simp] theorem State.closeHist_inv (s : State) (x1 : ℕ) (x2 : ℕ) (h : s.Inv) : (State.closeHist s x1 x2).Inv := by
  unfold State.closeHist
  (repeat' (first | (split; rename_i heq; have h1 := congrArg Prod.fst heq; have h2 := congrArg Prod.snd heq; dsimp only at h1 h2; (try subst h1); (try subst h2)) | split)) <;> simp +contextual (maxDischargeDepth := 100) [h]

@[simp] theorem State.closeAll_inv (s : State) (x1 : ℕ) (h : s.Inv) : (State.closeAll s x1).Inv := by
  unfold State.closeAll
  simp +contextual (maxDischargeDepth := 100) [h]

@[simp] theorem State.releaseRd_inv (s : State) (x1 : ℕ) (h : s.Inv) : (State.releaseRd s x1).Inv := by
  unfold State.releaseRd
  (repeat' (first | (split; rename_i heq; have h1 := congrArg Prod.fst heq; have h2 := congrArg Prod.snd heq; dsimp only at h1 h2; (try subst h1); (try subst h2)) | split)) <;> simp +contextual (maxDischargeDepth := 100) [h]

@[simp] theorem State.dropAnchor_inv (s : State) (x1 : ℕ) (h : s.Inv) : (State.dropAnchor s x1).Inv := by
  unfold State.dropAnchor
  simp (maxDischargeDepth := 100) [h]

@[simp] theorem State.dropAnchors_inv (s : State) (h : s.Inv) : (State.dropAnchors s).Inv := by
  unfold State.dropAnchors
  dsimp only
  rw [State.modRpe_inv]
  exact ⟨SMap.wf_filter _ _ _ h.1, h.2⟩

@[simp] theorem State.portClose_inv (s : State) (x1 : ℕ) (x2 : ℕ) (h : s.Inv) : (State.portClose s x1 x2).Inv := by
  unfold State.portClose
  simp (maxDischargeDepth := 100) [h]

@[simp] theorem State.settleCloses_inv (s : State) (x1 : ℕ) (h : s.Inv) : (State.settleCloses s x1).Inv := by
  unfold State.settleCloses
  simp +contextual (maxDischargeDepth := 100) [h]

@[simp] theorem State.clearHistory_inv (s : State) (h : s.Inv) : (State.clearHistory s).Inv := by
  unfold State.clearHistory
  simp (maxDischargeDepth := 100) [h]

@[simp] theorem State.switchPorts_inv (s : State) (x1 : ℕ) (h : s.Inv) : (State.switchPorts s x1).Inv := by
  unfold State.switchPorts
  simp (maxDischargeDepth := 100) [h]

@[simp] theorem State.takeShot_inv (s : State) (x1 : ℕ) (x2 : ℕ) : (State.takeShot s x1 x2).Inv ↔ s.Inv := inv_of_parts (by simp) (by simp)

@[simp] theorem State.takeSingle_inv (s : State) (x1 : FireRec) (x2 : ℕ) (h : s.Inv) : (State.takeSingle s x1 x2).Inv := by
  unfold State.takeSingle
  (repeat' (first | (split; rename_i heq; have h1 := congrArg Prod.fst heq; have h2 := congrArg Prod.snd heq; dsimp only at h1 h2; (try subst h1); (try subst h2)) | split)) <;> simp +contextual (maxDischargeDepth := 100) [h]

@[simp] theorem State.settleSingles_inv (s : State) (h : s.Inv) : (State.settleSingles s).Inv := by
  unfold State.settleSingles
  simp +contextual (maxDischargeDepth := 100) [h]

@[simp] theorem State.settlePath_inv (x0 : ℕ) (s : State) (h : s.Inv) : (State.settlePath x0 s).Inv := by
  induction x0 generalizing s with
  | zero => unfold State.settlePath; simp (maxDischargeDepth := 100) [*]
  | succ n ih =>
    unfold State.settlePath
    dsimp only
    (repeat' (first | (split; rename_i heq; have h1 := congrArg Prod.fst heq; have h2 := congrArg Prod.snd heq; dsimp only at h1 h2; (try subst h1); (try subst h2)) | split)) <;> simp (maxDischargeDepth := 100) [*]

@[simp] theorem State.settle_inv (s : State) (h : s.Inv) : (State.settle s).Inv := by
  unfold State.settle
  simp (maxDischargeDepth := 100) [h]

@[simp] theorem State.passMark_inv (s : State) (x1 : Mark) (h : s.Inv) : (State.passMark s x1).Inv := by
  unfold State.passMark
  simp (maxDischargeDepth := 100) [h]

/-! ### Levels -/

@[simp] theorem State.noteTempEmit_frame (s : State) (x1 : Bool) :
    (State.noteTempEmit s x1).clk = s.clk ∧ (State.noteTempEmit s x1).tofs = s.tofs ∧
    (State.noteTempEmit s x1).dev = s.dev ∧ (State.noteTempEmit s x1).seq = s.seq ∧ (State.noteTempEmit s x1).edu = s.edu ∧
    (State.noteTempEmit s x1).rta = s.rta ∧ (State.noteTempEmit s x1).rpe = s.rpe ∧ (State.noteTempEmit s x1).stu = s.stu ∧
    (State.noteTempEmit s x1).cap = s.cap ∧ (State.noteTempEmit s x1).fso = s.fso ∧ (State.noteTempEmit s x1).cmp = s.cmp ∧
    (State.noteTempEmit s x1).mem = s.mem ∧ (State.noteTempEmit s x1).tbu = s.tbu ∧ (State.noteTempEmit s x1).hk = s.hk ∧
    (State.noteTempEmit s x1).boot = s.boot ∧ (State.noteTempEmit s x1).goodAt = s.goodAt ∧
    (State.noteTempEmit s x1).free = s.free ∧ (State.noteTempEmit s x1).pending = s.pending := by
  unfold State.noteTempEmit
  simp

@[simp] theorem State.noteTempEmit_inv (s : State) (x1 : Bool) (h : s.Inv) : (State.noteTempEmit s x1).Inv := by
  unfold State.noteTempEmit
  simp (maxDischargeDepth := 100) [h]

/-! ### Saf -/

@[simp] theorem State.modChan_frame (s : State) (x1 : SafCh) (x2 : SafChan → SafChan) :
    (State.modChan s x1 x2).clk = s.clk ∧ (State.modChan s x1 x2).tofs = s.tofs ∧ (State.modChan s x1 x2).dev = s.dev ∧
    (State.modChan s x1 x2).regs = s.regs ∧ (State.modChan s x1 x2).mgmt = s.mgmt ∧ (State.modChan s x1 x2).seq = s.seq ∧
    (State.modChan s x1 x2).edu = s.edu ∧ (State.modChan s x1 x2).rta = s.rta ∧ (State.modChan s x1 x2).rpe = s.rpe ∧
    (State.modChan s x1 x2).stu = s.stu ∧ (State.modChan s x1 x2).cap = s.cap ∧ (State.modChan s x1 x2).fso = s.fso ∧
    (State.modChan s x1 x2).cmp = s.cmp ∧ (State.modChan s x1 x2).mem = s.mem ∧ (State.modChan s x1 x2).lnk = s.lnk ∧
    (State.modChan s x1 x2).tbu = s.tbu ∧ (State.modChan s x1 x2).hk = s.hk ∧ (State.modChan s x1 x2).boot = s.boot ∧
    (State.modChan s x1 x2).out = s.out ∧ (State.modChan s x1 x2).goodAt = s.goodAt ∧
    (State.modChan s x1 x2).free = s.free ∧ (State.modChan s x1 x2).pending = s.pending := by
  unfold State.modChan
  (repeat' (first | (split; rename_i heq; have h1 := congrArg Prod.fst heq; have h2 := congrArg Prod.snd heq; dsimp only at h1 h2; (try subst h1); (try subst h2)) | split)) <;> simp

@[simp] theorem State.drive_frame (s : State) (x1 : Bool) :
    (State.drive s x1).clk = s.clk ∧ (State.drive s x1).tofs = s.tofs ∧ (State.drive s x1).dev = s.dev ∧
    (State.drive s x1).regs = s.regs ∧ (State.drive s x1).mgmt = s.mgmt ∧ (State.drive s x1).seq = s.seq ∧
    (State.drive s x1).edu = s.edu ∧ (State.drive s x1).rta = s.rta ∧ (State.drive s x1).rpe = s.rpe ∧
    (State.drive s x1).stu = s.stu ∧ (State.drive s x1).cap = s.cap ∧ (State.drive s x1).fso = s.fso ∧
    (State.drive s x1).cmp = s.cmp ∧ (State.drive s x1).mem = s.mem ∧ (State.drive s x1).lnk = s.lnk ∧
    (State.drive s x1).tbu = s.tbu ∧ (State.drive s x1).hk = s.hk ∧ (State.drive s x1).boot = s.boot ∧
    (State.drive s x1).out = s.out ∧ (State.drive s x1).goodAt = s.goodAt ∧ (State.drive s x1).free = s.free ∧
    (State.drive s x1).pending = s.pending := by
  unfold State.drive
  simp

@[simp] theorem State.safTo_frame (s : State) (x1 : SafSt) :
    (State.safTo s x1).clk = s.clk ∧ (State.safTo s x1).tofs = s.tofs ∧ (State.safTo s x1).dev = s.dev ∧
    (State.safTo s x1).seq = s.seq ∧ (State.safTo s x1).edu = s.edu ∧ (State.safTo s x1).rta = s.rta ∧
    (State.safTo s x1).rpe = s.rpe ∧ (State.safTo s x1).stu = s.stu ∧ (State.safTo s x1).fso = s.fso ∧
    (State.safTo s x1).cmp = s.cmp ∧ (State.safTo s x1).mem = s.mem ∧ (State.safTo s x1).tbu = s.tbu ∧
    (State.safTo s x1).hk = s.hk ∧ (State.safTo s x1).boot = s.boot ∧ (State.safTo s x1).goodAt = s.goodAt ∧
    (State.safTo s x1).free = s.free ∧ (State.safTo s x1).pending = s.pending := by
  unfold State.safTo
  simp

@[simp] theorem State.clamp_frame (s : State) (x1 : ℕ) :
    (State.clamp s x1).clk = s.clk ∧ (State.clamp s x1).tofs = s.tofs ∧ (State.clamp s x1).dev = s.dev ∧
    (State.clamp s x1).seq = s.seq ∧ (State.clamp s x1).edu = s.edu ∧ (State.clamp s x1).rta = s.rta ∧
    (State.clamp s x1).rpe = s.rpe ∧ (State.clamp s x1).stu = s.stu ∧ (State.clamp s x1).fso = s.fso ∧
    (State.clamp s x1).cmp = s.cmp ∧ (State.clamp s x1).mem = s.mem ∧ (State.clamp s x1).tbu = s.tbu ∧
    (State.clamp s x1).hk = s.hk ∧ (State.clamp s x1).boot = s.boot ∧ (State.clamp s x1).goodAt = s.goodAt ∧
    (State.clamp s x1).free = s.free ∧ (State.clamp s x1).pending = s.pending := by
  unfold State.clamp
  simp

@[simp] theorem State.safEval_frame (s : State) :
    (State.safEval s).clk = s.clk ∧ (State.safEval s).tofs = s.tofs ∧ (State.safEval s).dev = s.dev ∧
    (State.safEval s).seq = s.seq ∧ (State.safEval s).edu = s.edu ∧ (State.safEval s).rta = s.rta ∧
    (State.safEval s).rpe = s.rpe ∧ (State.safEval s).stu = s.stu ∧ (State.safEval s).fso = s.fso ∧
    (State.safEval s).cmp = s.cmp ∧ (State.safEval s).mem = s.mem ∧ (State.safEval s).tbu = s.tbu ∧
    (State.safEval s).hk = s.hk ∧ (State.safEval s).boot = s.boot ∧ (State.safEval s).goodAt = s.goodAt ∧
    (State.safEval s).free = s.free ∧ (State.safEval s).pending = s.pending := by
  unfold State.safEval
  simp

@[simp] theorem State.chgEval_frame (s : State) :
    (State.chgEval s).clk = s.clk ∧ (State.chgEval s).tofs = s.tofs ∧ (State.chgEval s).dev = s.dev ∧
    (State.chgEval s).seq = s.seq ∧ (State.chgEval s).rta = s.rta ∧ (State.chgEval s).rpe = s.rpe ∧
    (State.chgEval s).stu = s.stu ∧ (State.chgEval s).fso = s.fso ∧ (State.chgEval s).cmp = s.cmp ∧
    (State.chgEval s).mem = s.mem ∧ (State.chgEval s).tbu = s.tbu ∧ (State.chgEval s).hk = s.hk ∧
    (State.chgEval s).boot = s.boot ∧ (State.chgEval s).goodAt = s.goodAt ∧ (State.chgEval s).free = s.free ∧
    (State.chgEval s).pending = s.pending := by
  unfold State.chgEval
  simp

@[simp] theorem State.safInit_frame (s : State) :
    (State.safInit s).clk = s.clk ∧ (State.safInit s).tofs = s.tofs ∧ (State.safInit s).dev = s.dev ∧
    (State.safInit s).seq = s.seq ∧ (State.safInit s).edu = s.edu ∧ (State.safInit s).rta = s.rta ∧
    (State.safInit s).rpe = s.rpe ∧ (State.safInit s).stu = s.stu ∧ (State.safInit s).fso = s.fso ∧
    (State.safInit s).cmp = s.cmp ∧ (State.safInit s).mem = s.mem ∧ (State.safInit s).tbu = s.tbu ∧
    (State.safInit s).hk = s.hk ∧ (State.safInit s).boot = s.boot ∧ (State.safInit s).goodAt = s.goodAt ∧
    (State.safInit s).free = s.free ∧ (State.safInit s).pending = s.pending := by
  unfold State.safInit
  simp

@[simp] theorem State.noteZs_frame (s : State) (x1 : ℕ) :
    (State.noteZs s x1).clk = s.clk ∧ (State.noteZs s x1).tofs = s.tofs ∧ (State.noteZs s x1).dev = s.dev ∧
    (State.noteZs s x1).regs = s.regs ∧ (State.noteZs s x1).mgmt = s.mgmt ∧ (State.noteZs s x1).seq = s.seq ∧
    (State.noteZs s x1).edu = s.edu ∧ (State.noteZs s x1).rta = s.rta ∧ (State.noteZs s x1).rpe = s.rpe ∧
    (State.noteZs s x1).stu = s.stu ∧ (State.noteZs s x1).cap = s.cap ∧ (State.noteZs s x1).fso = s.fso ∧
    (State.noteZs s x1).cmp = s.cmp ∧ (State.noteZs s x1).mem = s.mem ∧ (State.noteZs s x1).lnk = s.lnk ∧
    (State.noteZs s x1).tbu = s.tbu ∧ (State.noteZs s x1).hk = s.hk ∧ (State.noteZs s x1).boot = s.boot ∧
    (State.noteZs s x1).out = s.out ∧ (State.noteZs s x1).goodAt = s.goodAt ∧ (State.noteZs s x1).free = s.free ∧
    (State.noteZs s x1).pending = s.pending := by
  unfold State.noteZs
  simp

@[simp] theorem State.takePair_frame (s : State) (x1 : ℕ) (x2 : ℕ) :
    (State.takePair s x1 x2).clk = s.clk ∧ (State.takePair s x1 x2).tofs = s.tofs ∧ (State.takePair s x1 x2).dev = s.dev ∧
    (State.takePair s x1 x2).regs = s.regs ∧ (State.takePair s x1 x2).mgmt = s.mgmt ∧ (State.takePair s x1 x2).seq = s.seq ∧
    (State.takePair s x1 x2).edu = s.edu ∧ (State.takePair s x1 x2).rta = s.rta ∧ (State.takePair s x1 x2).rpe = s.rpe ∧
    (State.takePair s x1 x2).stu = s.stu ∧ (State.takePair s x1 x2).cap = s.cap ∧ (State.takePair s x1 x2).fso = s.fso ∧
    (State.takePair s x1 x2).cmp = s.cmp ∧ (State.takePair s x1 x2).mem = s.mem ∧ (State.takePair s x1 x2).lnk = s.lnk ∧
    (State.takePair s x1 x2).tbu = s.tbu ∧ (State.takePair s x1 x2).hk = s.hk ∧ (State.takePair s x1 x2).boot = s.boot ∧
    (State.takePair s x1 x2).out = s.out ∧ (State.takePair s x1 x2).goodAt = s.goodAt ∧
    (State.takePair s x1 x2).free = s.free ∧ (State.takePair s x1 x2).pending = s.pending := by
  unfold State.takePair
  simp

@[simp] theorem State.settleInputs_frame (s : State) (x1 : ℕ) :
    (State.settleInputs s x1).clk = s.clk ∧ (State.settleInputs s x1).tofs = s.tofs ∧
    (State.settleInputs s x1).dev = s.dev ∧ (State.settleInputs s x1).regs = s.regs ∧
    (State.settleInputs s x1).mgmt = s.mgmt ∧ (State.settleInputs s x1).seq = s.seq ∧
    (State.settleInputs s x1).edu = s.edu ∧ (State.settleInputs s x1).rta = s.rta ∧ (State.settleInputs s x1).rpe = s.rpe ∧
    (State.settleInputs s x1).stu = s.stu ∧ (State.settleInputs s x1).cap = s.cap ∧ (State.settleInputs s x1).fso = s.fso ∧
    (State.settleInputs s x1).cmp = s.cmp ∧ (State.settleInputs s x1).mem = s.mem ∧ (State.settleInputs s x1).lnk = s.lnk ∧
    (State.settleInputs s x1).tbu = s.tbu ∧ (State.settleInputs s x1).hk = s.hk ∧ (State.settleInputs s x1).boot = s.boot ∧
    (State.settleInputs s x1).out = s.out ∧ (State.settleInputs s x1).goodAt = s.goodAt ∧
    (State.settleInputs s x1).free = s.free ∧ (State.settleInputs s x1).pending = s.pending := by
  unfold State.settleInputs
  simp (disch := (intro u e; first | (simp; done) | ((repeat' (first | (split; rename_i heq; have h1 := congrArg Prod.fst heq; have h2 := congrArg Prod.snd heq; dsimp only at h1 h2; (try subst h1); (try subst h2)) | split)) <;> simp)))

@[simp] theorem State.changePin_frame (s : State) (x1 : ℕ) (x2 : Bool) (x3 : Bool) :
    (State.changePin s x1 x2 x3).clk = s.clk ∧ (State.changePin s x1 x2 x3).tofs = s.tofs ∧
    (State.changePin s x1 x2 x3).dev = s.dev ∧ (State.changePin s x1 x2 x3).regs = s.regs ∧
    (State.changePin s x1 x2 x3).mgmt = s.mgmt ∧ (State.changePin s x1 x2 x3).seq = s.seq ∧
    (State.changePin s x1 x2 x3).edu = s.edu ∧ (State.changePin s x1 x2 x3).rta = s.rta ∧
    (State.changePin s x1 x2 x3).rpe = s.rpe ∧ (State.changePin s x1 x2 x3).stu = s.stu ∧
    (State.changePin s x1 x2 x3).cap = s.cap ∧ (State.changePin s x1 x2 x3).fso = s.fso ∧
    (State.changePin s x1 x2 x3).cmp = s.cmp ∧ (State.changePin s x1 x2 x3).mem = s.mem ∧
    (State.changePin s x1 x2 x3).lnk = s.lnk ∧ (State.changePin s x1 x2 x3).tbu = s.tbu ∧
    (State.changePin s x1 x2 x3).hk = s.hk ∧ (State.changePin s x1 x2 x3).boot = s.boot ∧
    (State.changePin s x1 x2 x3).out = s.out ∧ (State.changePin s x1 x2 x3).goodAt = s.goodAt ∧
    (State.changePin s x1 x2 x3).free = s.free ∧ (State.changePin s x1 x2 x3).pending = s.pending := by
  unfold State.changePin
  simp

@[simp] theorem State.startZs_frame (s : State) (x1 : SafCh) (x2 : ℕ) (x3 : Bool) :
    (State.startZs s x1 x2 x3).clk = s.clk ∧ (State.startZs s x1 x2 x3).tofs = s.tofs ∧
    (State.startZs s x1 x2 x3).dev = s.dev ∧ (State.startZs s x1 x2 x3).regs = s.regs ∧
    (State.startZs s x1 x2 x3).mgmt = s.mgmt ∧ (State.startZs s x1 x2 x3).seq = s.seq ∧
    (State.startZs s x1 x2 x3).edu = s.edu ∧ (State.startZs s x1 x2 x3).rta = s.rta ∧
    (State.startZs s x1 x2 x3).rpe = s.rpe ∧ (State.startZs s x1 x2 x3).stu = s.stu ∧
    (State.startZs s x1 x2 x3).cap = s.cap ∧ (State.startZs s x1 x2 x3).fso = s.fso ∧
    (State.startZs s x1 x2 x3).cmp = s.cmp ∧ (State.startZs s x1 x2 x3).mem = s.mem ∧
    (State.startZs s x1 x2 x3).lnk = s.lnk ∧ (State.startZs s x1 x2 x3).tbu = s.tbu ∧ (State.startZs s x1 x2 x3).hk = s.hk ∧
    (State.startZs s x1 x2 x3).boot = s.boot ∧ (State.startZs s x1 x2 x3).out = s.out ∧
    (State.startZs s x1 x2 x3).goodAt = s.goodAt ∧ (State.startZs s x1 x2 x3).free = s.free ∧
    (State.startZs s x1 x2 x3).pending = s.pending := by
  unfold State.startZs
  simp

@[simp] theorem State.blindKey_frame (s : State) (x1 : ℕ) :
    (State.blindKey s x1).clk = s.clk ∧ (State.blindKey s x1).tofs = s.tofs ∧ (State.blindKey s x1).dev = s.dev ∧
    (State.blindKey s x1).seq = s.seq ∧ (State.blindKey s x1).edu = s.edu ∧ (State.blindKey s x1).rta = s.rta ∧
    (State.blindKey s x1).rpe = s.rpe ∧ (State.blindKey s x1).stu = s.stu ∧ (State.blindKey s x1).fso = s.fso ∧
    (State.blindKey s x1).cmp = s.cmp ∧ (State.blindKey s x1).mem = s.mem ∧ (State.blindKey s x1).tbu = s.tbu ∧
    (State.blindKey s x1).hk = s.hk ∧ (State.blindKey s x1).boot = s.boot ∧ (State.blindKey s x1).goodAt = s.goodAt ∧
    (State.blindKey s x1).free = s.free ∧ (State.blindKey s x1).pending = s.pending := by
  unfold State.blindKey
  simp

@[simp] theorem State.bridge_frame (s : State) (x1 : ℕ) :
    (State.bridge s x1).clk = s.clk ∧ (State.bridge s x1).tofs = s.tofs ∧ (State.bridge s x1).dev = s.dev ∧
    (State.bridge s x1).seq = s.seq ∧ (State.bridge s x1).edu = s.edu ∧ (State.bridge s x1).rta = s.rta ∧
    (State.bridge s x1).rpe = s.rpe ∧ (State.bridge s x1).stu = s.stu ∧ (State.bridge s x1).fso = s.fso ∧
    (State.bridge s x1).cmp = s.cmp ∧ (State.bridge s x1).mem = s.mem ∧ (State.bridge s x1).tbu = s.tbu ∧
    (State.bridge s x1).hk = s.hk ∧ (State.bridge s x1).boot = s.boot ∧ (State.bridge s x1).goodAt = s.goodAt ∧
    (State.bridge s x1).free = s.free ∧ (State.bridge s x1).pending = s.pending := by
  unfold State.bridge
  simp

@[simp] theorem State.unbridge_frame (s : State) (x1 : ℕ) :
    (State.unbridge s x1).clk = s.clk ∧ (State.unbridge s x1).tofs = s.tofs ∧ (State.unbridge s x1).dev = s.dev ∧
    (State.unbridge s x1).regs = s.regs ∧ (State.unbridge s x1).mgmt = s.mgmt ∧ (State.unbridge s x1).seq = s.seq ∧
    (State.unbridge s x1).edu = s.edu ∧ (State.unbridge s x1).rta = s.rta ∧ (State.unbridge s x1).rpe = s.rpe ∧
    (State.unbridge s x1).stu = s.stu ∧ (State.unbridge s x1).cap = s.cap ∧ (State.unbridge s x1).fso = s.fso ∧
    (State.unbridge s x1).cmp = s.cmp ∧ (State.unbridge s x1).mem = s.mem ∧ (State.unbridge s x1).lnk = s.lnk ∧
    (State.unbridge s x1).tbu = s.tbu ∧ (State.unbridge s x1).hk = s.hk ∧ (State.unbridge s x1).boot = s.boot ∧
    (State.unbridge s x1).out = s.out ∧ (State.unbridge s x1).goodAt = s.goodAt ∧ (State.unbridge s x1).free = s.free ∧
    (State.unbridge s x1).pending = s.pending := by
  unfold State.unbridge
  simp

@[simp] theorem State.chbStart_frame (s : State) (x1 : ℕ) (x2 : ℤ) :
    (State.chbStart s x1 x2).clk = s.clk ∧ (State.chbStart s x1 x2).tofs = s.tofs ∧ (State.chbStart s x1 x2).dev = s.dev ∧
    (State.chbStart s x1 x2).regs = s.regs ∧ (State.chbStart s x1 x2).mgmt = s.mgmt ∧ (State.chbStart s x1 x2).seq = s.seq ∧
    (State.chbStart s x1 x2).edu = s.edu ∧ (State.chbStart s x1 x2).rta = s.rta ∧ (State.chbStart s x1 x2).rpe = s.rpe ∧
    (State.chbStart s x1 x2).stu = s.stu ∧ (State.chbStart s x1 x2).cap = s.cap ∧ (State.chbStart s x1 x2).fso = s.fso ∧
    (State.chbStart s x1 x2).cmp = s.cmp ∧ (State.chbStart s x1 x2).mem = s.mem ∧ (State.chbStart s x1 x2).lnk = s.lnk ∧
    (State.chbStart s x1 x2).tbu = s.tbu ∧ (State.chbStart s x1 x2).hk = s.hk ∧ (State.chbStart s x1 x2).boot = s.boot ∧
    (State.chbStart s x1 x2).out = s.out ∧ (State.chbStart s x1 x2).goodAt = s.goodAt ∧
    (State.chbStart s x1 x2).free = s.free ∧ (State.chbStart s x1 x2).pending = s.pending := by
  unfold State.chbStart
  simp

@[simp] theorem State.chbEdgeIn_frame (s : State) (x1 : ℕ) (x2 : ℕ) (x3 : Option ℕ) (x4 : ℤ) :
    (State.chbEdgeIn s x1 x2 x3 x4).clk = s.clk ∧ (State.chbEdgeIn s x1 x2 x3 x4).tofs = s.tofs ∧
    (State.chbEdgeIn s x1 x2 x3 x4).dev = s.dev ∧ (State.chbEdgeIn s x1 x2 x3 x4).seq = s.seq ∧
    (State.chbEdgeIn s x1 x2 x3 x4).edu = s.edu ∧ (State.chbEdgeIn s x1 x2 x3 x4).rta = s.rta ∧
    (State.chbEdgeIn s x1 x2 x3 x4).rpe = s.rpe ∧ (State.chbEdgeIn s x1 x2 x3 x4).stu = s.stu ∧
    (State.chbEdgeIn s x1 x2 x3 x4).fso = s.fso ∧ (State.chbEdgeIn s x1 x2 x3 x4).cmp = s.cmp ∧
    (State.chbEdgeIn s x1 x2 x3 x4).mem = s.mem ∧ (State.chbEdgeIn s x1 x2 x3 x4).tbu = s.tbu ∧
    (State.chbEdgeIn s x1 x2 x3 x4).hk = s.hk ∧ (State.chbEdgeIn s x1 x2 x3 x4).boot = s.boot ∧
    (State.chbEdgeIn s x1 x2 x3 x4).goodAt = s.goodAt ∧ (State.chbEdgeIn s x1 x2 x3 x4).free = s.free ∧
    (State.chbEdgeIn s x1 x2 x3 x4).pending = s.pending := by
  unfold State.chbEdgeIn
  dsimp only
  (repeat' (first | (split; rename_i heq; have h1 := congrArg Prod.fst heq; have h2 := congrArg Prod.snd heq; dsimp only at h1 h2; (try subst h1); (try subst h2)) | split)) <;> simp

@[simp] theorem State.chbEdge_frame (s : State) (x1 : ℕ) (x2 : Option ℕ) (x3 : ℤ) :
    (State.chbEdge s x1 x2 x3).clk = s.clk ∧ (State.chbEdge s x1 x2 x3).tofs = s.tofs ∧
    (State.chbEdge s x1 x2 x3).dev = s.dev ∧ (State.chbEdge s x1 x2 x3).seq = s.seq ∧
    (State.chbEdge s x1 x2 x3).edu = s.edu ∧ (State.chbEdge s x1 x2 x3).rta = s.rta ∧
    (State.chbEdge s x1 x2 x3).rpe = s.rpe ∧ (State.chbEdge s x1 x2 x3).stu = s.stu ∧
    (State.chbEdge s x1 x2 x3).fso = s.fso ∧ (State.chbEdge s x1 x2 x3).cmp = s.cmp ∧
    (State.chbEdge s x1 x2 x3).mem = s.mem ∧ (State.chbEdge s x1 x2 x3).tbu = s.tbu ∧ (State.chbEdge s x1 x2 x3).hk = s.hk ∧
    (State.chbEdge s x1 x2 x3).boot = s.boot ∧ (State.chbEdge s x1 x2 x3).goodAt = s.goodAt ∧
    (State.chbEdge s x1 x2 x3).free = s.free ∧ (State.chbEdge s x1 x2 x3).pending = s.pending := by
  unfold State.chbEdge
  simp

@[simp] theorem State.endWin_frame (s : State) (x1 : ℕ) :
    (State.endWin s x1).clk = s.clk ∧ (State.endWin s x1).tofs = s.tofs ∧ (State.endWin s x1).dev = s.dev ∧
    (State.endWin s x1).regs = s.regs ∧ (State.endWin s x1).mgmt = s.mgmt ∧ (State.endWin s x1).seq = s.seq ∧
    (State.endWin s x1).edu = s.edu ∧ (State.endWin s x1).rta = s.rta ∧ (State.endWin s x1).rpe = s.rpe ∧
    (State.endWin s x1).stu = s.stu ∧ (State.endWin s x1).cap = s.cap ∧ (State.endWin s x1).fso = s.fso ∧
    (State.endWin s x1).cmp = s.cmp ∧ (State.endWin s x1).mem = s.mem ∧ (State.endWin s x1).lnk = s.lnk ∧
    (State.endWin s x1).tbu = s.tbu ∧ (State.endWin s x1).hk = s.hk ∧ (State.endWin s x1).boot = s.boot ∧
    (State.endWin s x1).out = s.out ∧ (State.endWin s x1).goodAt = s.goodAt ∧ (State.endWin s x1).free = s.free ∧
    (State.endWin s x1).pending = s.pending := by
  unfold State.endWin
  simp

@[simp] theorem State.logSector_frame (s : State) (x1 : ℕ) :
    (State.logSector s x1).clk = s.clk ∧ (State.logSector s x1).tofs = s.tofs ∧ (State.logSector s x1).dev = s.dev ∧
    (State.logSector s x1).regs = s.regs ∧ (State.logSector s x1).mgmt = s.mgmt ∧ (State.logSector s x1).seq = s.seq ∧
    (State.logSector s x1).edu = s.edu ∧ (State.logSector s x1).rta = s.rta ∧ (State.logSector s x1).rpe = s.rpe ∧
    (State.logSector s x1).stu = s.stu ∧ (State.logSector s x1).cap = s.cap ∧ (State.logSector s x1).fso = s.fso ∧
    (State.logSector s x1).cmp = s.cmp ∧ (State.logSector s x1).mem = s.mem ∧ (State.logSector s x1).lnk = s.lnk ∧
    (State.logSector s x1).tbu = s.tbu ∧ (State.logSector s x1).hk = s.hk ∧ (State.logSector s x1).boot = s.boot ∧
    (State.logSector s x1).out = s.out ∧ (State.logSector s x1).goodAt = s.goodAt ∧ (State.logSector s x1).free = s.free ∧
    (State.logSector s x1).pending = s.pending := by
  unfold State.logSector
  simp

@[simp] theorem State.crossCheck_frame (s : State) (x1 : ℕ) (x2 : Cell) (x3 : List ℕ) :
    (State.crossCheck s x1 x2 x3).clk = s.clk ∧ (State.crossCheck s x1 x2 x3).tofs = s.tofs ∧
    (State.crossCheck s x1 x2 x3).dev = s.dev ∧ (State.crossCheck s x1 x2 x3).mgmt = s.mgmt ∧
    (State.crossCheck s x1 x2 x3).seq = s.seq ∧ (State.crossCheck s x1 x2 x3).edu = s.edu ∧
    (State.crossCheck s x1 x2 x3).rta = s.rta ∧ (State.crossCheck s x1 x2 x3).rpe = s.rpe ∧
    (State.crossCheck s x1 x2 x3).stu = s.stu ∧ (State.crossCheck s x1 x2 x3).cap = s.cap ∧
    (State.crossCheck s x1 x2 x3).fso = s.fso ∧ (State.crossCheck s x1 x2 x3).cmp = s.cmp ∧
    (State.crossCheck s x1 x2 x3).mem = s.mem ∧ (State.crossCheck s x1 x2 x3).lnk = s.lnk ∧
    (State.crossCheck s x1 x2 x3).tbu = s.tbu ∧ (State.crossCheck s x1 x2 x3).hk = s.hk ∧
    (State.crossCheck s x1 x2 x3).boot = s.boot ∧ (State.crossCheck s x1 x2 x3).out = s.out ∧
    (State.crossCheck s x1 x2 x3).goodAt = s.goodAt ∧ (State.crossCheck s x1 x2 x3).free = s.free ∧
    (State.crossCheck s x1 x2 x3).pending = s.pending := by
  unfold State.crossCheck
  simp

@[simp] theorem State.safeReset_frame (s : State) :
    (State.safeReset s).clk = s.clk ∧ (State.safeReset s).tofs = s.tofs ∧ (State.safeReset s).dev = s.dev ∧
    (State.safeReset s).seq = s.seq ∧ (State.safeReset s).edu = s.edu ∧ (State.safeReset s).rta = s.rta ∧
    (State.safeReset s).rpe = s.rpe ∧ (State.safeReset s).stu = s.stu ∧ (State.safeReset s).fso = s.fso ∧
    (State.safeReset s).cmp = s.cmp ∧ (State.safeReset s).mem = s.mem ∧ (State.safeReset s).tbu = s.tbu ∧
    (State.safeReset s).hk = s.hk ∧ (State.safeReset s).boot = s.boot ∧ (State.safeReset s).goodAt = s.goodAt ∧
    (State.safeReset s).free = s.free ∧ (State.safeReset s).pending = s.pending := by
  unfold State.safeReset
  (repeat' (first | (split; rename_i heq; have h1 := congrArg Prod.fst heq; have h2 := congrArg Prod.snd heq; dsimp only at h1 h2; (try subst h1); (try subst h2)) | split)) <;> simp

@[simp] theorem State.leaveInit_frame (s : State) :
    (State.leaveInit s).clk = s.clk ∧ (State.leaveInit s).tofs = s.tofs ∧ (State.leaveInit s).dev = s.dev ∧
    (State.leaveInit s).seq = s.seq ∧ (State.leaveInit s).edu = s.edu ∧ (State.leaveInit s).rta = s.rta ∧
    (State.leaveInit s).rpe = s.rpe ∧ (State.leaveInit s).stu = s.stu ∧ (State.leaveInit s).fso = s.fso ∧
    (State.leaveInit s).cmp = s.cmp ∧ (State.leaveInit s).mem = s.mem ∧ (State.leaveInit s).tbu = s.tbu ∧
    (State.leaveInit s).hk = s.hk ∧ (State.leaveInit s).boot = s.boot ∧ (State.leaveInit s).goodAt = s.goodAt ∧
    (State.leaveInit s).free = s.free ∧ (State.leaveInit s).pending = s.pending := by
  unfold State.leaveInit
  (repeat' (first | (split; rename_i heq; have h1 := congrArg Prod.fst heq; have h2 := congrArg Prod.snd heq; dsimp only at h1 h2; (try subst h1); (try subst h2)) | split)) <;> simp

@[simp] theorem State.acceptPress_frame (s : State) (x1 : List Word) :
    (State.acceptPress s x1).clk = s.clk ∧ (State.acceptPress s x1).tofs = s.tofs ∧ (State.acceptPress s x1).dev = s.dev ∧
    (State.acceptPress s x1).seq = s.seq ∧ (State.acceptPress s x1).edu = s.edu ∧ (State.acceptPress s x1).rta = s.rta ∧
    (State.acceptPress s x1).rpe = s.rpe ∧ (State.acceptPress s x1).stu = s.stu ∧ (State.acceptPress s x1).fso = s.fso ∧
    (State.acceptPress s x1).cmp = s.cmp ∧ (State.acceptPress s x1).mem = s.mem ∧ (State.acceptPress s x1).tbu = s.tbu ∧
    (State.acceptPress s x1).hk = s.hk ∧ (State.acceptPress s x1).boot = s.boot ∧
    (State.acceptPress s x1).goodAt = s.goodAt ∧ (State.acceptPress s x1).free = s.free ∧
    (State.acceptPress s x1).pending = s.pending := by
  unfold State.acceptPress
  simp

@[simp] theorem State.pairPress_frame (s : State) (x1 : ℕ) (x2 : List Word) :
    (State.pairPress s x1 x2).clk = s.clk ∧ (State.pairPress s x1 x2).tofs = s.tofs ∧
    (State.pairPress s x1 x2).dev = s.dev ∧ (State.pairPress s x1 x2).seq = s.seq ∧ (State.pairPress s x1 x2).edu = s.edu ∧
    (State.pairPress s x1 x2).rta = s.rta ∧ (State.pairPress s x1 x2).rpe = s.rpe ∧ (State.pairPress s x1 x2).stu = s.stu ∧
    (State.pairPress s x1 x2).fso = s.fso ∧ (State.pairPress s x1 x2).cmp = s.cmp ∧ (State.pairPress s x1 x2).mem = s.mem ∧
    (State.pairPress s x1 x2).tbu = s.tbu ∧ (State.pairPress s x1 x2).hk = s.hk ∧ (State.pairPress s x1 x2).boot = s.boot ∧
    (State.pairPress s x1 x2).goodAt = s.goodAt ∧ (State.pairPress s x1 x2).free = s.free ∧
    (State.pairPress s x1 x2).pending = s.pending := by
  unfold State.pairPress
  (repeat' (first | (split; rename_i heq; have h1 := congrArg Prod.fst heq; have h2 := congrArg Prod.snd heq; dsimp only at h1 h2; (try subst h1); (try subst h2)) | split)) <;> simp

@[simp] theorem State.modChan_inv (s : State) (x1 : SafCh) (x2 : SafChan → SafChan) : (State.modChan s x1 x2).Inv ↔ s.Inv := inv_of_parts (by simp) (by simp)

@[simp] theorem State.drive_inv (s : State) (x1 : Bool) : (State.drive s x1).Inv ↔ s.Inv := inv_of_parts (by simp) (by simp)

@[simp] theorem State.safTo_inv (s : State) (x1 : SafSt) (h : s.Inv) : (State.safTo s x1).Inv := by
  unfold State.safTo
  simp (maxDischargeDepth := 100) [h]

@[simp] theorem State.clamp_inv (s : State) (x1 : ℕ) (h : s.Inv) : (State.clamp s x1).Inv := by
  unfold State.clamp
  simp (maxDischargeDepth := 100) [h]

@[simp] theorem State.safEval_inv (s : State) (h : s.Inv) : (State.safEval s).Inv := by
  unfold State.safEval
  simp (maxDischargeDepth := 100) [h]

@[simp] theorem State.chgEval_inv (s : State) (h : s.Inv) : (State.chgEval s).Inv := by
  unfold State.chgEval
  simp (maxDischargeDepth := 100) [h]

@[simp] theorem State.safInit_inv (s : State) (h : s.Inv) : (State.safInit s).Inv := by
  unfold State.safInit
  simp (maxDischargeDepth := 100) [h]

@[simp] theorem State.noteZs_inv (s : State) (x1 : ℕ) : (State.noteZs s x1).Inv ↔ s.Inv := inv_of_parts (by simp) (by simp)

@[simp] theorem State.takePair_inv (s : State) (x1 : ℕ) (x2 : ℕ) : (State.takePair s x1 x2).Inv ↔ s.Inv := inv_of_parts (by simp) (by simp)

@[simp] theorem State.settleInputs_inv (s : State) (x1 : ℕ) : (State.settleInputs s x1).Inv ↔ s.Inv := inv_of_parts (by simp) (by simp)

@[simp] theorem State.changePin_inv (s : State) (x1 : ℕ) (x2 : Bool) (x3 : Bool) : (State.changePin s x1 x2 x3).Inv ↔ s.Inv := inv_of_parts (by simp) (by simp)

@[simp] theorem State.startZs_inv (s : State) (x1 : SafCh) (x2 : ℕ) (x3 : Bool) : (State.startZs s x1 x2 x3).Inv ↔ s.Inv := inv_of_parts (by simp) (by simp)

@[simp] theorem State.blindKey_inv (s : State) (x1 : ℕ) (h : s.Inv) : (State.blindKey s x1).Inv := by
  unfold State.blindKey
  simp (maxDischargeDepth := 100) [h]

@[simp] theorem State.bridge_inv (s : State) (x1 : ℕ) (h : s.Inv) : (State.bridge s x1).Inv := by
  unfold State.bridge
  simp (maxDischargeDepth := 100) [h]

@[simp] theorem State.unbridge_inv (s : State) (x1 : ℕ) : (State.unbridge s x1).Inv ↔ s.Inv := inv_of_parts (by simp) (by simp)

@[simp] theorem State.chbStart_inv (s : State) (x1 : ℕ) (x2 : ℤ) : (State.chbStart s x1 x2).Inv ↔ s.Inv := inv_of_parts (by simp) (by simp)

@[simp] theorem State.chbEdgeIn_inv (s : State) (x1 : ℕ) (x2 : ℕ) (x3 : Option ℕ) (x4 : ℤ) (h : s.Inv) : (State.chbEdgeIn s x1 x2 x3 x4).Inv := by
  unfold State.chbEdgeIn
  dsimp only
  (repeat' (first | (split; rename_i heq; have h1 := congrArg Prod.fst heq; have h2 := congrArg Prod.snd heq; dsimp only at h1 h2; (try subst h1); (try subst h2)) | split)) <;> simp +contextual (maxDischargeDepth := 100) [h]

@[simp] theorem State.chbEdge_inv (s : State) (x1 : ℕ) (x2 : Option ℕ) (x3 : ℤ) (h : s.Inv) : (State.chbEdge s x1 x2 x3).Inv := by
  unfold State.chbEdge
  simp +contextual (maxDischargeDepth := 100) [h]

@[simp] theorem State.endWin_inv (s : State) (x1 : ℕ) : (State.endWin s x1).Inv ↔ s.Inv := inv_of_parts (by simp) (by simp)

@[simp] theorem State.logSector_inv (s : State) (x1 : ℕ) : (State.logSector s x1).Inv ↔ s.Inv := inv_of_parts (by simp) (by simp)

@[simp] theorem State.crossCheck_inv (s : State) (x1 : ℕ) (x2 : Cell) (x3 : List ℕ) (h : s.Inv) : (State.crossCheck s x1 x2 x3).Inv := by
  unfold State.crossCheck
  simp (maxDischargeDepth := 100) [h]

@[simp] theorem State.safeReset_inv (s : State) (h : s.Inv) : (State.safeReset s).Inv := by
  unfold State.safeReset
  (repeat' (first | (split; rename_i heq; have h1 := congrArg Prod.fst heq; have h2 := congrArg Prod.snd heq; dsimp only at h1 h2; (try subst h1); (try subst h2)) | split)) <;> simp +contextual (maxDischargeDepth := 100) [h]

@[simp] theorem State.leaveInit_inv (s : State) (h : s.Inv) : (State.leaveInit s).Inv := by
  unfold State.leaveInit
  (repeat' (first | (split; rename_i heq; have h1 := congrArg Prod.fst heq; have h2 := congrArg Prod.snd heq; dsimp only at h1 h2; (try subst h1); (try subst h2)) | split)) <;> simp +contextual (maxDischargeDepth := 100) [h]

@[simp] theorem State.acceptPress_inv (s : State) (x1 : List Word) (h : s.Inv) : (State.acceptPress s x1).Inv := by
  unfold State.acceptPress
  simp (maxDischargeDepth := 100) [h]

@[simp] theorem State.pairPress_inv (s : State) (x1 : ℕ) (x2 : List Word) (h : s.Inv) : (State.pairPress s x1 x2).Inv := by
  unfold State.pairPress
  (repeat' (first | (split; rename_i heq; have h1 := congrArg Prod.fst heq; have h2 := congrArg Prod.snd heq; dsimp only at h1 h2; (try subst h1); (try subst h2)) | split)) <;> simp +contextual (maxDischargeDepth := 100) [h]

end Sys2Proof.Machine
end

