-- ==== Sys2Proof/Laws/Firing.lean ====
section
/-! SUPPORT. The sequencer, windows, receivers, loops and emitter: for every operation on the state, the parts that it leaves unchanged (`_frame`) and that it keeps the form of
every state (`_inv`). A lemma of an operation that chooses between two states has a premise for the second. -/

namespace Sys2Proof.Machine

/-! ### Sequencer -/

@[simp] theorem State.clearLc_frame (s : State) :
    (State.clearLc s).clk = s.clk ∧ (State.clearLc s).tofs = s.tofs ∧ (State.clearLc s).dev = s.dev ∧
    (State.clearLc s).mgmt = s.mgmt ∧ (State.clearLc s).seq = s.seq ∧ (State.clearLc s).edu = s.edu ∧
    (State.clearLc s).rta = s.rta ∧ (State.clearLc s).rpe = s.rpe ∧ (State.clearLc s).stu = s.stu ∧
    (State.clearLc s).saf = s.saf ∧ (State.clearLc s).cap = s.cap ∧ (State.clearLc s).fso = s.fso ∧
    (State.clearLc s).cmp = s.cmp ∧ (State.clearLc s).mem = s.mem ∧ (State.clearLc s).lnk = s.lnk ∧
    (State.clearLc s).tbu = s.tbu ∧ (State.clearLc s).hk = s.hk ∧ (State.clearLc s).boot = s.boot ∧
    (State.clearLc s).out = s.out ∧ (State.clearLc s).goodAt = s.goodAt ∧ (State.clearLc s).free = s.free ∧
    (State.clearLc s).pending = s.pending := by
  unfold State.clearLc
  simp

@[simp] theorem State.enter_frame (s : State) (x1 : Bool) (x2 : ℕ) :
    (State.enter s x1 x2).clk = s.clk ∧ (State.enter s x1 x2).tofs = s.tofs ∧ (State.enter s x1 x2).dev = s.dev ∧
    (State.enter s x1 x2).mgmt = s.mgmt ∧ (State.enter s x1 x2).edu = s.edu ∧ (State.enter s x1 x2).rta = s.rta ∧
    (State.enter s x1 x2).rpe = s.rpe ∧ (State.enter s x1 x2).stu = s.stu ∧ (State.enter s x1 x2).saf = s.saf ∧
    (State.enter s x1 x2).cap = s.cap ∧ (State.enter s x1 x2).fso = s.fso ∧ (State.enter s x1 x2).cmp = s.cmp ∧
    (State.enter s x1 x2).mem = s.mem ∧ (State.enter s x1 x2).lnk = s.lnk ∧ (State.enter s x1 x2).tbu = s.tbu ∧
    (State.enter s x1 x2).hk = s.hk ∧ (State.enter s x1 x2).boot = s.boot ∧ (State.enter s x1 x2).out = s.out ∧
    (State.enter s x1 x2).goodAt = s.goodAt ∧ (State.enter s x1 x2).free = s.free ∧
    (State.enter s x1 x2).pending = s.pending := by
  unfold State.enter
  simp

@[simp] theorem State.pushToken_frame (s : State) (x1 : ℕ) :
    (State.pushToken s x1).clk = s.clk ∧ (State.pushToken s x1).tofs = s.tofs ∧ (State.pushToken s x1).dev = s.dev ∧
    (State.pushToken s x1).edu = s.edu ∧ (State.pushToken s x1).stu = s.stu ∧ (State.pushToken s x1).fso = s.fso ∧
    (State.pushToken s x1).cmp = s.cmp ∧ (State.pushToken s x1).mem = s.mem ∧ (State.pushToken s x1).tbu = s.tbu ∧
    (State.pushToken s x1).hk = s.hk ∧ (State.pushToken s x1).boot = s.boot ∧ (State.pushToken s x1).goodAt = s.goodAt ∧
    (State.pushToken s x1).free = s.free ∧ (State.pushToken s x1).pending = s.pending := by
  unfold State.pushToken
  simp

@[simp] theorem State.otherPage_frame (s : State) (x1 : ℕ) :
    (State.otherPage s x1).clk = s.clk ∧ (State.otherPage s x1).tofs = s.tofs ∧ (State.otherPage s x1).dev = s.dev ∧
    (State.otherPage s x1).edu = s.edu ∧ (State.otherPage s x1).stu = s.stu ∧ (State.otherPage s x1).fso = s.fso ∧
    (State.otherPage s x1).cmp = s.cmp ∧ (State.otherPage s x1).mem = s.mem ∧ (State.otherPage s x1).tbu = s.tbu ∧
    (State.otherPage s x1).hk = s.hk ∧ (State.otherPage s x1).boot = s.boot ∧ (State.otherPage s x1).goodAt = s.goodAt ∧
    (State.otherPage s x1).free = s.free ∧ (State.otherPage s x1).pending = s.pending := by
  unfold State.otherPage
  simp

@[simp] theorem State.switchTo_frame (s : State) (x1 : Bool) (x2 : ℕ) :
    (State.switchTo s x1 x2).clk = s.clk ∧ (State.switchTo s x1 x2).tofs = s.tofs ∧ (State.switchTo s x1 x2).dev = s.dev ∧
    (State.switchTo s x1 x2).edu = s.edu ∧ (State.switchTo s x1 x2).stu = s.stu ∧ (State.switchTo s x1 x2).fso = s.fso ∧
    (State.switchTo s x1 x2).cmp = s.cmp ∧ (State.switchTo s x1 x2).mem = s.mem ∧ (State.switchTo s x1 x2).tbu = s.tbu ∧
    (State.switchTo s x1 x2).hk = s.hk ∧ (State.switchTo s x1 x2).boot = s.boot ∧
    (State.switchTo s x1 x2).goodAt = s.goodAt ∧ (State.switchTo s x1 x2).free = s.free ∧
    (State.switchTo s x1 x2).pending = s.pending := by
  unfold State.switchTo
  simp

@[simp] theorem State.settleDeferred_frame (s : State) :
    (State.settleDeferred s).clk = s.clk ∧ (State.settleDeferred s).tofs = s.tofs ∧ (State.settleDeferred s).dev = s.dev ∧
    (State.settleDeferred s).edu = s.edu ∧ (State.settleDeferred s).stu = s.stu ∧ (State.settleDeferred s).fso = s.fso ∧
    (State.settleDeferred s).cmp = s.cmp ∧ (State.settleDeferred s).mem = s.mem ∧ (State.settleDeferred s).tbu = s.tbu ∧
    (State.settleDeferred s).hk = s.hk ∧ (State.settleDeferred s).boot = s.boot ∧
    (State.settleDeferred s).goodAt = s.goodAt ∧ (State.settleDeferred s).free = s.free ∧
    (State.settleDeferred s).pending = s.pending := by
  unfold State.settleDeferred
  (repeat' (first | (split; rename_i heq; have h1 := congrArg Prod.fst heq; have h2 := congrArg Prod.snd heq; dsimp only at h1 h2; (try subst h1); (try subst h2)) | split)) <;> simp

@[simp] theorem State.parity_frame (s : State) :
    (State.parity s).clk = s.clk ∧ (State.parity s).tofs = s.tofs ∧ (State.parity s).dev = s.dev ∧
    (State.parity s).edu = s.edu ∧ (State.parity s).stu = s.stu ∧ (State.parity s).fso = s.fso ∧
    (State.parity s).cmp = s.cmp ∧ (State.parity s).mem = s.mem ∧ (State.parity s).tbu = s.tbu ∧
    (State.parity s).hk = s.hk ∧ (State.parity s).boot = s.boot ∧ (State.parity s).goodAt = s.goodAt ∧
    (State.parity s).free = s.free ∧ (State.parity s).pending = s.pending := by
  unfold State.parity
  simp

@[simp] theorem State.goOn_frame (s : State) (x1 : ℕ) :
    (State.goOn s x1).clk = s.clk ∧ (State.goOn s x1).tofs = s.tofs ∧ (State.goOn s x1).dev = s.dev ∧
    (State.goOn s x1).edu = s.edu ∧ (State.goOn s x1).stu = s.stu ∧ (State.goOn s x1).fso = s.fso ∧
    (State.goOn s x1).cmp = s.cmp ∧ (State.goOn s x1).mem = s.mem ∧ (State.goOn s x1).tbu = s.tbu ∧
    (State.goOn s x1).hk = s.hk ∧ (State.goOn s x1).boot = s.boot ∧ (State.goOn s x1).goodAt = s.goodAt ∧
    (State.goOn s x1).free = s.free ∧ (State.goOn s x1).pending = s.pending := by
  unfold State.goOn
  simp

@[simp] theorem State.advance_frame (s : State) :
    (State.advance s).clk = s.clk ∧ (State.advance s).tofs = s.tofs ∧ (State.advance s).dev = s.dev ∧
    (State.advance s).edu = s.edu ∧ (State.advance s).stu = s.stu ∧ (State.advance s).fso = s.fso ∧
    (State.advance s).cmp = s.cmp ∧ (State.advance s).mem = s.mem ∧ (State.advance s).tbu = s.tbu ∧
    (State.advance s).hk = s.hk ∧ (State.advance s).boot = s.boot ∧ (State.advance s).goodAt = s.goodAt ∧
    (State.advance s).free = s.free ∧ (State.advance s).pending = s.pending := by
  unfold State.advance
  simp

@[simp] theorem State.slip_frame (s : State) :
    (State.slip s).clk = s.clk ∧ (State.slip s).tofs = s.tofs ∧ (State.slip s).dev = s.dev ∧ (State.slip s).seq = s.seq ∧
    (State.slip s).edu = s.edu ∧ (State.slip s).rta = s.rta ∧ (State.slip s).rpe = s.rpe ∧ (State.slip s).stu = s.stu ∧
    (State.slip s).cap = s.cap ∧ (State.slip s).fso = s.fso ∧ (State.slip s).cmp = s.cmp ∧ (State.slip s).mem = s.mem ∧
    (State.slip s).tbu = s.tbu ∧ (State.slip s).hk = s.hk ∧ (State.slip s).boot = s.boot ∧
    (State.slip s).goodAt = s.goodAt ∧ (State.slip s).free = s.free ∧ (State.slip s).pending = s.pending := by
  unfold State.slip
  simp

@[simp] theorem State.postFire_frame (s : State) (x1 : Fire) :
    (State.postFire s x1).clk = s.clk ∧ (State.postFire s x1).tofs = s.tofs ∧ (State.postFire s x1).dev = s.dev ∧
    (State.postFire s x1).regs = s.regs ∧ (State.postFire s x1).mgmt = s.mgmt ∧ (State.postFire s x1).edu = s.edu ∧
    (State.postFire s x1).rta = s.rta ∧ (State.postFire s x1).rpe = s.rpe ∧ (State.postFire s x1).stu = s.stu ∧
    (State.postFire s x1).saf = s.saf ∧ (State.postFire s x1).cap = s.cap ∧ (State.postFire s x1).fso = s.fso ∧
    (State.postFire s x1).cmp = s.cmp ∧ (State.postFire s x1).mem = s.mem ∧ (State.postFire s x1).lnk = s.lnk ∧
    (State.postFire s x1).tbu = s.tbu ∧ (State.postFire s x1).hk = s.hk ∧ (State.postFire s x1).boot = s.boot ∧
    (State.postFire s x1).out = s.out ∧ (State.postFire s x1).goodAt = s.goodAt ∧ (State.postFire s x1).free = s.free ∧
    (State.postFire s x1).pending = s.pending := by
  unfold State.postFire
  simp

@[simp] theorem State.eofIssued_frame (s : State) :
    (State.eofIssued s).clk = s.clk ∧ (State.eofIssued s).tofs = s.tofs ∧ (State.eofIssued s).dev = s.dev ∧
    (State.eofIssued s).rta = s.rta ∧ (State.eofIssued s).rpe = s.rpe ∧ (State.eofIssued s).stu = s.stu ∧
    (State.eofIssued s).fso = s.fso ∧ (State.eofIssued s).cmp = s.cmp ∧ (State.eofIssued s).mem = s.mem ∧
    (State.eofIssued s).tbu = s.tbu ∧ (State.eofIssued s).hk = s.hk ∧ (State.eofIssued s).boot = s.boot ∧
    (State.eofIssued s).goodAt = s.goodAt ∧ (State.eofIssued s).free = s.free ∧
    (State.eofIssued s).pending = s.pending := by
  unfold State.eofIssued
  (repeat' (first | (split; rename_i heq; have h1 := congrArg Prod.fst heq; have h2 := congrArg Prod.snd heq; dsimp only at h1 h2; (try subst h1); (try subst h2)) | split)) <;> simp

@[simp] theorem State.pushMark_frame (s : State) (x1 : Bool) (x2 : Bool) (x3 : Bool) (x4 : ℕ) :
    (State.pushMark s x1 x2 x3 x4).clk = s.clk ∧ (State.pushMark s x1 x2 x3 x4).tofs = s.tofs ∧
    (State.pushMark s x1 x2 x3 x4).dev = s.dev ∧ (State.pushMark s x1 x2 x3 x4).regs = s.regs ∧
    (State.pushMark s x1 x2 x3 x4).mgmt = s.mgmt ∧ (State.pushMark s x1 x2 x3 x4).edu = s.edu ∧
    (State.pushMark s x1 x2 x3 x4).rta = s.rta ∧ (State.pushMark s x1 x2 x3 x4).rpe = s.rpe ∧
    (State.pushMark s x1 x2 x3 x4).stu = s.stu ∧ (State.pushMark s x1 x2 x3 x4).saf = s.saf ∧
    (State.pushMark s x1 x2 x3 x4).cap = s.cap ∧ (State.pushMark s x1 x2 x3 x4).fso = s.fso ∧
    (State.pushMark s x1 x2 x3 x4).cmp = s.cmp ∧ (State.pushMark s x1 x2 x3 x4).mem = s.mem ∧
    (State.pushMark s x1 x2 x3 x4).lnk = s.lnk ∧ (State.pushMark s x1 x2 x3 x4).tbu = s.tbu ∧
    (State.pushMark s x1 x2 x3 x4).hk = s.hk ∧ (State.pushMark s x1 x2 x3 x4).boot = s.boot ∧
    (State.pushMark s x1 x2 x3 x4).out = s.out ∧ (State.pushMark s x1 x2 x3 x4).goodAt = s.goodAt ∧
    (State.pushMark s x1 x2 x3 x4).free = s.free ∧ (State.pushMark s x1 x2 x3 x4).pending = s.pending := by
  unfold State.pushMark
  simp

@[simp] theorem State.syncSource_frame (s : State) (x1 : ℕ) (x2 : ℕ) (x3 : ℕ) :
    (State.syncSource s x1 x2 x3).clk = s.clk ∧ (State.syncSource s x1 x2 x3).tofs = s.tofs ∧
    (State.syncSource s x1 x2 x3).dev = s.dev ∧ (State.syncSource s x1 x2 x3).regs = s.regs ∧
    (State.syncSource s x1 x2 x3).mgmt = s.mgmt ∧ (State.syncSource s x1 x2 x3).edu = s.edu ∧
    (State.syncSource s x1 x2 x3).rta = s.rta ∧ (State.syncSource s x1 x2 x3).rpe = s.rpe ∧
    (State.syncSource s x1 x2 x3).stu = s.stu ∧ (State.syncSource s x1 x2 x3).saf = s.saf ∧
    (State.syncSource s x1 x2 x3).cap = s.cap ∧ (State.syncSource s x1 x2 x3).fso = s.fso ∧
    (State.syncSource s x1 x2 x3).cmp = s.cmp ∧ (State.syncSource s x1 x2 x3).mem = s.mem ∧
    (State.syncSource s x1 x2 x3).lnk = s.lnk ∧ (State.syncSource s x1 x2 x3).tbu = s.tbu ∧
    (State.syncSource s x1 x2 x3).hk = s.hk ∧ (State.syncSource s x1 x2 x3).boot = s.boot ∧
    (State.syncSource s x1 x2 x3).out = s.out ∧ (State.syncSource s x1 x2 x3).goodAt = s.goodAt ∧
    (State.syncSource s x1 x2 x3).free = s.free ∧ (State.syncSource s x1 x2 x3).pending = s.pending := by
  unfold State.syncSource
  simp

@[simp] theorem State.endSync_frame (s : State) (x1 : ℕ) :
    (State.endSync s x1).clk = s.clk ∧ (State.endSync s x1).tofs = s.tofs ∧ (State.endSync s x1).dev = s.dev ∧
    (State.endSync s x1).edu = s.edu ∧ (State.endSync s x1).stu = s.stu ∧ (State.endSync s x1).fso = s.fso ∧
    (State.endSync s x1).cmp = s.cmp ∧ (State.endSync s x1).mem = s.mem ∧ (State.endSync s x1).tbu = s.tbu ∧
    (State.endSync s x1).hk = s.hk ∧ (State.endSync s x1).boot = s.boot ∧ (State.endSync s x1).goodAt = s.goodAt ∧
    (State.endSync s x1).free = s.free ∧ (State.endSync s x1).pending = s.pending := by
  unfold State.endSync
  simp

@[simp] theorem State.syncTimeout_frame (s : State) :
    (State.syncTimeout s).clk = s.clk ∧ (State.syncTimeout s).tofs = s.tofs ∧ (State.syncTimeout s).dev = s.dev ∧
    (State.syncTimeout s).edu = s.edu ∧ (State.syncTimeout s).stu = s.stu ∧ (State.syncTimeout s).fso = s.fso ∧
    (State.syncTimeout s).cmp = s.cmp ∧ (State.syncTimeout s).mem = s.mem ∧ (State.syncTimeout s).tbu = s.tbu ∧
    (State.syncTimeout s).hk = s.hk ∧ (State.syncTimeout s).boot = s.boot ∧ (State.syncTimeout s).goodAt = s.goodAt ∧
    (State.syncTimeout s).free = s.free ∧ (State.syncTimeout s).pending = s.pending := by
  unfold State.syncTimeout
  simp

@[simp] theorem State.clearSticky_frame (s : State) (x1 : ℕ) :
    (State.clearSticky s x1).clk = s.clk ∧ (State.clearSticky s x1).tofs = s.tofs ∧ (State.clearSticky s x1).dev = s.dev ∧
    (State.clearSticky s x1).mgmt = s.mgmt ∧ (State.clearSticky s x1).seq = s.seq ∧ (State.clearSticky s x1).edu = s.edu ∧
    (State.clearSticky s x1).rta = s.rta ∧ (State.clearSticky s x1).rpe = s.rpe ∧ (State.clearSticky s x1).stu = s.stu ∧
    (State.clearSticky s x1).saf = s.saf ∧ (State.clearSticky s x1).cap = s.cap ∧ (State.clearSticky s x1).fso = s.fso ∧
    (State.clearSticky s x1).cmp = s.cmp ∧ (State.clearSticky s x1).mem = s.mem ∧ (State.clearSticky s x1).lnk = s.lnk ∧
    (State.clearSticky s x1).tbu = s.tbu ∧ (State.clearSticky s x1).hk = s.hk ∧ (State.clearSticky s x1).boot = s.boot ∧
    (State.clearSticky s x1).out = s.out ∧ (State.clearSticky s x1).goodAt = s.goodAt ∧
    (State.clearSticky s x1).free = s.free ∧ (State.clearSticky s x1).pending = s.pending := by
  unfold State.clearSticky
  simp

@[simp] theorem State.clearFlag_frame (s : State) (x1 : ℕ) :
    (State.clearFlag s x1).clk = s.clk ∧ (State.clearFlag s x1).tofs = s.tofs ∧ (State.clearFlag s x1).dev = s.dev ∧
    (State.clearFlag s x1).mgmt = s.mgmt ∧ (State.clearFlag s x1).seq = s.seq ∧ (State.clearFlag s x1).edu = s.edu ∧
    (State.clearFlag s x1).rta = s.rta ∧ (State.clearFlag s x1).rpe = s.rpe ∧ (State.clearFlag s x1).stu = s.stu ∧
    (State.clearFlag s x1).saf = s.saf ∧ (State.clearFlag s x1).cap = s.cap ∧ (State.clearFlag s x1).fso = s.fso ∧
    (State.clearFlag s x1).cmp = s.cmp ∧ (State.clearFlag s x1).mem = s.mem ∧ (State.clearFlag s x1).lnk = s.lnk ∧
    (State.clearFlag s x1).tbu = s.tbu ∧ (State.clearFlag s x1).hk = s.hk ∧ (State.clearFlag s x1).boot = s.boot ∧
    (State.clearFlag s x1).out = s.out ∧ (State.clearFlag s x1).goodAt = s.goodAt ∧ (State.clearFlag s x1).free = s.free ∧
    (State.clearFlag s x1).pending = s.pending := by
  unfold State.clearFlag
  simp

@[simp] theorem State.branchCond_frame (s : State) (x1 : Entry) :
    (State.branchCond s x1).2.clk = s.clk ∧ (State.branchCond s x1).2.tofs = s.tofs ∧
    (State.branchCond s x1).2.dev = s.dev ∧ (State.branchCond s x1).2.mgmt = s.mgmt ∧
    (State.branchCond s x1).2.seq = s.seq ∧ (State.branchCond s x1).2.edu = s.edu ∧ (State.branchCond s x1).2.rta = s.rta ∧
    (State.branchCond s x1).2.rpe = s.rpe ∧ (State.branchCond s x1).2.stu = s.stu ∧ (State.branchCond s x1).2.saf = s.saf ∧
    (State.branchCond s x1).2.cap = s.cap ∧ (State.branchCond s x1).2.fso = s.fso ∧ (State.branchCond s x1).2.cmp = s.cmp ∧
    (State.branchCond s x1).2.mem = s.mem ∧ (State.branchCond s x1).2.lnk = s.lnk ∧ (State.branchCond s x1).2.tbu = s.tbu ∧
    (State.branchCond s x1).2.hk = s.hk ∧ (State.branchCond s x1).2.boot = s.boot ∧ (State.branchCond s x1).2.out = s.out ∧
    (State.branchCond s x1).2.goodAt = s.goodAt ∧ (State.branchCond s x1).2.free = s.free ∧
    (State.branchCond s x1).2.pending = s.pending := by
  unfold State.branchCond
  simp

@[simp] theorem State.battenDrop_frame (s : State) :
    (State.battenDrop s).clk = s.clk ∧ (State.battenDrop s).tofs = s.tofs ∧ (State.battenDrop s).dev = s.dev ∧
    (State.battenDrop s).seq = s.seq ∧ (State.battenDrop s).edu = s.edu ∧ (State.battenDrop s).rta = s.rta ∧
    (State.battenDrop s).rpe = s.rpe ∧ (State.battenDrop s).stu = s.stu ∧ (State.battenDrop s).cap = s.cap ∧
    (State.battenDrop s).fso = s.fso ∧ (State.battenDrop s).cmp = s.cmp ∧ (State.battenDrop s).mem = s.mem ∧
    (State.battenDrop s).tbu = s.tbu ∧ (State.battenDrop s).hk = s.hk ∧ (State.battenDrop s).boot = s.boot ∧
    (State.battenDrop s).goodAt = s.goodAt ∧ (State.battenDrop s).free = s.free ∧
    (State.battenDrop s).pending = s.pending := by
  unfold State.battenDrop
  simp

@[simp] theorem State.battenLate_frame (s : State) :
    (State.battenLate s).clk = s.clk ∧ (State.battenLate s).tofs = s.tofs ∧ (State.battenLate s).dev = s.dev ∧
    (State.battenLate s).seq = s.seq ∧ (State.battenLate s).edu = s.edu ∧ (State.battenLate s).rta = s.rta ∧
    (State.battenLate s).rpe = s.rpe ∧ (State.battenLate s).stu = s.stu ∧ (State.battenLate s).cap = s.cap ∧
    (State.battenLate s).fso = s.fso ∧ (State.battenLate s).cmp = s.cmp ∧ (State.battenLate s).mem = s.mem ∧
    (State.battenLate s).tbu = s.tbu ∧ (State.battenLate s).hk = s.hk ∧ (State.battenLate s).boot = s.boot ∧
    (State.battenLate s).goodAt = s.goodAt ∧ (State.battenLate s).free = s.free ∧
    (State.battenLate s).pending = s.pending := by
  unfold State.battenLate
  simp

@[simp] theorem State.takeBatten_frame (s : State) (x1 : Batten) :
    (State.takeBatten s x1).clk = s.clk ∧ (State.takeBatten s x1).tofs = s.tofs ∧ (State.takeBatten s x1).dev = s.dev ∧
    (State.takeBatten s x1).edu = s.edu ∧ (State.takeBatten s x1).rta = s.rta ∧ (State.takeBatten s x1).rpe = s.rpe ∧
    (State.takeBatten s x1).stu = s.stu ∧ (State.takeBatten s x1).cap = s.cap ∧ (State.takeBatten s x1).fso = s.fso ∧
    (State.takeBatten s x1).cmp = s.cmp ∧ (State.takeBatten s x1).mem = s.mem ∧ (State.takeBatten s x1).tbu = s.tbu ∧
    (State.takeBatten s x1).hk = s.hk ∧ (State.takeBatten s x1).boot = s.boot ∧ (State.takeBatten s x1).goodAt = s.goodAt ∧
    (State.takeBatten s x1).free = s.free ∧ (State.takeBatten s x1).pending = s.pending := by
  unfold State.takeBatten
  simp

@[simp] theorem State.issueBatten_frame (s : State) (x1 : Bool) (x2 : Bool) (x3 : ℕ) (x4 : ℕ) :
    (State.issueBatten s x1 x2 x3 x4).clk = s.clk ∧ (State.issueBatten s x1 x2 x3 x4).tofs = s.tofs ∧
    (State.issueBatten s x1 x2 x3 x4).dev = s.dev ∧ (State.issueBatten s x1 x2 x3 x4).edu = s.edu ∧
    (State.issueBatten s x1 x2 x3 x4).rta = s.rta ∧ (State.issueBatten s x1 x2 x3 x4).rpe = s.rpe ∧
    (State.issueBatten s x1 x2 x3 x4).stu = s.stu ∧ (State.issueBatten s x1 x2 x3 x4).cap = s.cap ∧
    (State.issueBatten s x1 x2 x3 x4).fso = s.fso ∧ (State.issueBatten s x1 x2 x3 x4).cmp = s.cmp ∧
    (State.issueBatten s x1 x2 x3 x4).mem = s.mem ∧ (State.issueBatten s x1 x2 x3 x4).tbu = s.tbu ∧
    (State.issueBatten s x1 x2 x3 x4).hk = s.hk ∧ (State.issueBatten s x1 x2 x3 x4).boot = s.boot ∧
    (State.issueBatten s x1 x2 x3 x4).goodAt = s.goodAt ∧ (State.issueBatten s x1 x2 x3 x4).free = s.free ∧
    (State.issueBatten s x1 x2 x3 x4).pending = s.pending := by
  unfold State.issueBatten
  simp

@[simp] theorem State.battenSwitch_frame (s : State) (x1 : Batten) (x2 : ℕ) :
    (State.battenSwitch s x1 x2).clk = s.clk ∧ (State.battenSwitch s x1 x2).tofs = s.tofs ∧
    (State.battenSwitch s x1 x2).dev = s.dev ∧ (State.battenSwitch s x1 x2).edu = s.edu ∧
    (State.battenSwitch s x1 x2).stu = s.stu ∧ (State.battenSwitch s x1 x2).fso = s.fso ∧
    (State.battenSwitch s x1 x2).cmp = s.cmp ∧ (State.battenSwitch s x1 x2).mem = s.mem ∧
    (State.battenSwitch s x1 x2).tbu = s.tbu ∧ (State.battenSwitch s x1 x2).hk = s.hk ∧
    (State.battenSwitch s x1 x2).boot = s.boot ∧ (State.battenSwitch s x1 x2).goodAt = s.goodAt ∧
    (State.battenSwitch s x1 x2).free = s.free ∧ (State.battenSwitch s x1 x2).pending = s.pending := by
  unfold State.battenSwitch
  simp

@[simp] theorem State.battenTime_frame (s : State) (x1 : ℕ) :
    (State.battenTime s x1).clk = s.clk ∧ (State.battenTime s x1).tofs = s.tofs ∧ (State.battenTime s x1).dev = s.dev ∧
    (State.battenTime s x1).mgmt = s.mgmt ∧ (State.battenTime s x1).seq = s.seq ∧ (State.battenTime s x1).edu = s.edu ∧
    (State.battenTime s x1).rta = s.rta ∧ (State.battenTime s x1).rpe = s.rpe ∧ (State.battenTime s x1).stu = s.stu ∧
    (State.battenTime s x1).saf = s.saf ∧ (State.battenTime s x1).cap = s.cap ∧ (State.battenTime s x1).fso = s.fso ∧
    (State.battenTime s x1).cmp = s.cmp ∧ (State.battenTime s x1).mem = s.mem ∧ (State.battenTime s x1).lnk = s.lnk ∧
    (State.battenTime s x1).tbu = s.tbu ∧ (State.battenTime s x1).hk = s.hk ∧ (State.battenTime s x1).boot = s.boot ∧
    (State.battenTime s x1).out = s.out ∧ (State.battenTime s x1).goodAt = s.goodAt ∧
    (State.battenTime s x1).free = s.free ∧ (State.battenTime s x1).pending = s.pending := by
  unfold State.battenTime
  simp

@[simp] theorem State.lateBatten_frame (s : State) (x1 : Batten) :
    (State.lateBatten s x1).clk = s.clk ∧ (State.lateBatten s x1).tofs = s.tofs ∧ (State.lateBatten s x1).dev = s.dev ∧
    (State.lateBatten s x1).edu = s.edu ∧ (State.lateBatten s x1).stu = s.stu ∧ (State.lateBatten s x1).fso = s.fso ∧
    (State.lateBatten s x1).cmp = s.cmp ∧ (State.lateBatten s x1).mem = s.mem ∧ (State.lateBatten s x1).tbu = s.tbu ∧
    (State.lateBatten s x1).hk = s.hk ∧ (State.lateBatten s x1).boot = s.boot ∧ (State.lateBatten s x1).goodAt = s.goodAt ∧
    (State.lateBatten s x1).free = s.free ∧ (State.lateBatten s x1).pending = s.pending := by
  unfold State.lateBatten
  simp

@[simp] theorem State.startSeq_frame (s : State) (x1 : Bool) (x2 : ℕ) :
    (State.startSeq s x1 x2).clk = s.clk ∧ (State.startSeq s x1 x2).tofs = s.tofs ∧ (State.startSeq s x1 x2).dev = s.dev ∧
    (State.startSeq s x1 x2).mgmt = s.mgmt ∧ (State.startSeq s x1 x2).edu = s.edu ∧ (State.startSeq s x1 x2).rta = s.rta ∧
    (State.startSeq s x1 x2).rpe = s.rpe ∧ (State.startSeq s x1 x2).stu = s.stu ∧ (State.startSeq s x1 x2).saf = s.saf ∧
    (State.startSeq s x1 x2).cap = s.cap ∧ (State.startSeq s x1 x2).fso = s.fso ∧ (State.startSeq s x1 x2).cmp = s.cmp ∧
    (State.startSeq s x1 x2).mem = s.mem ∧ (State.startSeq s x1 x2).lnk = s.lnk ∧ (State.startSeq s x1 x2).tbu = s.tbu ∧
    (State.startSeq s x1 x2).hk = s.hk ∧ (State.startSeq s x1 x2).boot = s.boot ∧ (State.startSeq s x1 x2).out = s.out ∧
    (State.startSeq s x1 x2).goodAt = s.goodAt ∧ (State.startSeq s x1 x2).free = s.free ∧
    (State.startSeq s x1 x2).pending = s.pending := by
  unfold State.startSeq
  simp

@[simp] theorem State.clearLc_inv (s : State) (h : s.Inv) : (State.clearLc s).Inv := by
  unfold State.clearLc
  simp +contextual (maxDischargeDepth := 100) [h]

@[simp] theorem State.enter_inv (s : State) (x1 : Bool) (x2 : ℕ) (h : s.Inv) : (State.enter s x1 x2).Inv := by
  unfold State.enter
  simp (maxDischargeDepth := 100) [h]

@[simp] theorem State.pushToken_inv (s : State) (x1 : ℕ) (h : s.Inv) : (State.pushToken s x1).Inv := by
  unfold State.pushToken
  simp (maxDischargeDepth := 100) [h]

@[simp] theorem State.otherPage_inv (s : State) (x1 : ℕ) (h : s.Inv) : (State.otherPage s x1).Inv := by
  unfold State.otherPage
  simp (maxDischargeDepth := 100) [h]

@[simp] theorem State.switchTo_inv (s : State) (x1 : Bool) (x2 : ℕ) (h : s.Inv) : (State.switchTo s x1 x2).Inv := by
  unfold State.switchTo
  simp (maxDischargeDepth := 100) [h]

@[simp] theorem State.settleDeferred_inv (s : State) (h : s.Inv) : (State.settleDeferred s).Inv := by
  unfold State.settleDeferred
  (repeat' (first | (split; rename_i heq; have h1 := congrArg Prod.fst heq; have h2 := congrArg Prod.snd heq; dsimp only at h1 h2; (try subst h1); (try subst h2)) | split)) <;> simp +contextual (maxDischargeDepth := 100) [h]

@[simp] theorem State.parity_inv (s : State) (h : s.Inv) : (State.parity s).Inv := by
  unfold State.parity
  simp (maxDischargeDepth := 100) [h]

@[simp] theorem State.goOn_inv (s : State) (x1 : ℕ) (h : s.Inv) : (State.goOn s x1).Inv := by
  unfold State.goOn
  simp (maxDischargeDepth := 100) [h]

@[simp] theorem State.advance_inv (s : State) (h : s.Inv) : (State.advance s).Inv := by
  unfold State.advance
  simp (maxDischargeDepth := 100) [h]

@[simp] theorem State.slip_inv (s : State) (h : s.Inv) : (State.slip s).Inv := by
  unfold State.slip
  simp (maxDischargeDepth := 100) [h]

@[simp] theorem State.postFire_inv (s : State) (x1 : Fire) : (State.postFire s x1).Inv ↔ s.Inv := inv_of_parts (by simp) (by simp)

@[simp] theorem State.eofIssued_inv (s : State) (h : s.Inv) : (State.eofIssued s).Inv := by
  unfold State.eofIssued
  (repeat' (first | (split; rename_i heq; have h1 := congrArg Prod.fst heq; have h2 := congrArg Prod.snd heq; dsimp only at h1 h2; (try subst h1); (try subst h2)) | split)) <;> simp +contextual (maxDischargeDepth := 100) [h]

@[simp] theorem State.pushMark_inv (s : State) (x1 : Bool) (x2 : Bool) (x3 : Bool) (x4 : ℕ) : (State.pushMark s x1 x2 x3 x4).Inv ↔ s.Inv := inv_of_parts (by simp) (by simp)

@[simp] theorem State.syncSource_inv (s : State) (x1 : ℕ) (x2 : ℕ) (x3 : ℕ) : (State.syncSource s x1 x2 x3).Inv ↔ s.Inv := inv_of_parts (by simp) (by simp)

@[simp] theorem State.endSync_inv (s : State) (x1 : ℕ) (h : s.Inv) : (State.endSync s x1).Inv := by
  unfold State.endSync
  simp (maxDischargeDepth := 100) [h]

@[simp] theorem State.syncTimeout_inv (s : State) (h : s.Inv) : (State.syncTimeout s).Inv := by
  unfold State.syncTimeout
  simp (maxDischargeDepth := 100) [h]

@[simp] theorem State.clearSticky_inv (s : State) (x1 : ℕ) (h : s.Inv) : (State.clearSticky s x1).Inv := by
  unfold State.clearSticky
  simp (maxDischargeDepth := 100) [h]

@[simp] theorem State.clearFlag_inv (s : State) (x1 : ℕ) (h : s.Inv) : (State.clearFlag s x1).Inv := by
  unfold State.clearFlag
  simp (maxDischargeDepth := 100) [h]

@[simp] theorem State.branchCond_inv (s : State) (x1 : Entry) (h : s.Inv) : (State.branchCond s x1).2.Inv := by
  unfold State.branchCond
  simp (maxDischargeDepth := 100) [h]

@[simp] theorem State.battenDrop_inv (s : State) (h : s.Inv) : (State.battenDrop s).Inv := by
  unfold State.battenDrop
  simp (maxDischargeDepth := 100) [h]

@[simp] theorem State.battenLate_inv (s : State) (h : s.Inv) : (State.battenLate s).Inv := by
  unfold State.battenLate
  simp (maxDischargeDepth := 100) [h]

@[simp] theorem State.takeBatten_inv (s : State) (x1 : Batten) (h : s.Inv) : (State.takeBatten s x1).Inv := by
  unfold State.takeBatten
  simp (maxDischargeDepth := 100) [h]

@[simp] theorem State.issueBatten_inv (s : State) (x1 : Bool) (x2 : Bool) (x3 : ℕ) (x4 : ℕ) (h : s.Inv) : (State.issueBatten s x1 x2 x3 x4).Inv := by
  unfold State.issueBatten
  simp (maxDischargeDepth := 100) [h]

@[simp] theorem State.battenSwitch_inv (s : State) (x1 : Batten) (x2 : ℕ) (h : s.Inv) : (State.battenSwitch s x1 x2).Inv := by
  unfold State.battenSwitch
  simp (maxDischargeDepth := 100) [h]

@[simp] theorem State.battenTime_inv (s : State) (x1 : ℕ) (h : s.Inv) : (State.battenTime s x1).Inv := by
  unfold State.battenTime
  simp (maxDischargeDepth := 100) [h]

@[simp] theorem State.lateBatten_inv (s : State) (x1 : Batten) (h : s.Inv) : (State.lateBatten s x1).Inv := by
  unfold State.lateBatten
  simp (maxDischargeDepth := 100) [h]

@[simp] theorem State.startSeq_inv (s : State) (x1 : Bool) (x2 : ℕ) (h : s.Inv) : (State.startSeq s x1 x2).Inv := by
  unfold State.startSeq
  simp (maxDischargeDepth := 100) [h]

/-! ### Windows -/

@[simp] theorem State.setUnit_frame (s : State) (x1 : ℕ) (x2 : UnitSt) :
    (State.setUnit s x1 x2).clk = s.clk ∧ (State.setUnit s x1 x2).tofs = s.tofs ∧ (State.setUnit s x1 x2).dev = s.dev ∧
    (State.setUnit s x1 x2).regs = s.regs ∧ (State.setUnit s x1 x2).mgmt = s.mgmt ∧ (State.setUnit s x1 x2).seq = s.seq ∧
    (State.setUnit s x1 x2).edu = s.edu ∧ (State.setUnit s x1 x2).rpe = s.rpe ∧ (State.setUnit s x1 x2).stu = s.stu ∧
    (State.setUnit s x1 x2).saf = s.saf ∧ (State.setUnit s x1 x2).cap = s.cap ∧ (State.setUnit s x1 x2).fso = s.fso ∧
    (State.setUnit s x1 x2).cmp = s.cmp ∧ (State.setUnit s x1 x2).mem = s.mem ∧ (State.setUnit s x1 x2).lnk = s.lnk ∧
    (State.setUnit s x1 x2).tbu = s.tbu ∧ (State.setUnit s x1 x2).hk = s.hk ∧ (State.setUnit s x1 x2).boot = s.boot ∧
    (State.setUnit s x1 x2).out = s.out ∧ (State.setUnit s x1 x2).goodAt = s.goodAt ∧
    (State.setUnit s x1 x2).free = s.free ∧ (State.setUnit s x1 x2).pending = s.pending := by
  unfold State.setUnit
  simp

@[simp] theorem State.refreshActive_frame (s : State) (x1 : ℕ) :
    (State.refreshActive s x1).clk = s.clk ∧ (State.refreshActive s x1).tofs = s.tofs ∧
    (State.refreshActive s x1).dev = s.dev ∧ (State.refreshActive s x1).mgmt = s.mgmt ∧
    (State.refreshActive s x1).seq = s.seq ∧ (State.refreshActive s x1).edu = s.edu ∧
    (State.refreshActive s x1).rta = s.rta ∧ (State.refreshActive s x1).rpe = s.rpe ∧
    (State.refreshActive s x1).stu = s.stu ∧ (State.refreshActive s x1).saf = s.saf ∧
    (State.refreshActive s x1).cap = s.cap ∧ (State.refreshActive s x1).fso = s.fso ∧
    (State.refreshActive s x1).cmp = s.cmp ∧ (State.refreshActive s x1).mem = s.mem ∧
    (State.refreshActive s x1).lnk = s.lnk ∧ (State.refreshActive s x1).tbu = s.tbu ∧ (State.refreshActive s x1).hk = s.hk ∧
    (State.refreshActive s x1).boot = s.boot ∧ (State.refreshActive s x1).out = s.out ∧
    (State.refreshActive s x1).goodAt = s.goodAt ∧ (State.refreshActive s x1).free = s.free ∧
    (State.refreshActive s x1).pending = s.pending := by
  unfold State.refreshActive
  simp

@[simp] theorem State.disablePort_frame (s : State) (x1 : ℕ) :
    (State.disablePort s x1).clk = s.clk ∧ (State.disablePort s x1).tofs = s.tofs ∧ (State.disablePort s x1).dev = s.dev ∧
    (State.disablePort s x1).seq = s.seq ∧ (State.disablePort s x1).edu = s.edu ∧ (State.disablePort s x1).stu = s.stu ∧
    (State.disablePort s x1).fso = s.fso ∧ (State.disablePort s x1).cmp = s.cmp ∧ (State.disablePort s x1).mem = s.mem ∧
    (State.disablePort s x1).tbu = s.tbu ∧ (State.disablePort s x1).hk = s.hk ∧ (State.disablePort s x1).boot = s.boot ∧
    (State.disablePort s x1).goodAt = s.goodAt ∧ (State.disablePort s x1).free = s.free ∧
    (State.disablePort s x1).pending = s.pending := by
  unfold State.disablePort
  simp

@[simp] theorem State.boundary_frame (s : State) (x1 : List ℕ) :
    (State.boundary s x1).clk = s.clk ∧ (State.boundary s x1).tofs = s.tofs ∧ (State.boundary s x1).dev = s.dev ∧
    (State.boundary s x1).seq = s.seq ∧ (State.boundary s x1).edu = s.edu ∧ (State.boundary s x1).stu = s.stu ∧
    (State.boundary s x1).fso = s.fso ∧ (State.boundary s x1).cmp = s.cmp ∧ (State.boundary s x1).mem = s.mem ∧
    (State.boundary s x1).tbu = s.tbu ∧ (State.boundary s x1).hk = s.hk ∧ (State.boundary s x1).boot = s.boot ∧
    (State.boundary s x1).goodAt = s.goodAt ∧ (State.boundary s x1).free = s.free ∧
    (State.boundary s x1).pending = s.pending := by
  unfold State.boundary
  simp

@[simp] theorem State.spareFail_frame (s : State) (x1 : ℕ) :
    (State.spareFail s x1).clk = s.clk ∧ (State.spareFail s x1).tofs = s.tofs ∧ (State.spareFail s x1).dev = s.dev ∧
    (State.spareFail s x1).mgmt = s.mgmt ∧ (State.spareFail s x1).seq = s.seq ∧ (State.spareFail s x1).edu = s.edu ∧
    (State.spareFail s x1).rta = s.rta ∧ (State.spareFail s x1).rpe = s.rpe ∧ (State.spareFail s x1).stu = s.stu ∧
    (State.spareFail s x1).saf = s.saf ∧ (State.spareFail s x1).cap = s.cap ∧ (State.spareFail s x1).fso = s.fso ∧
    (State.spareFail s x1).cmp = s.cmp ∧ (State.spareFail s x1).mem = s.mem ∧ (State.spareFail s x1).lnk = s.lnk ∧
    (State.spareFail s x1).tbu = s.tbu ∧ (State.spareFail s x1).hk = s.hk ∧ (State.spareFail s x1).boot = s.boot ∧
    (State.spareFail s x1).out = s.out ∧ (State.spareFail s x1).goodAt = s.goodAt ∧ (State.spareFail s x1).free = s.free ∧
    (State.spareFail s x1).pending = s.pending := by
  unfold State.spareFail
  simp

@[simp] theorem State.portGoesOff_frame (s : State) (x1 : ℕ) :
    (State.portGoesOff s x1).clk = s.clk ∧ (State.portGoesOff s x1).tofs = s.tofs ∧ (State.portGoesOff s x1).seq = s.seq ∧
    (State.portGoesOff s x1).edu = s.edu ∧ (State.portGoesOff s x1).stu = s.stu ∧ (State.portGoesOff s x1).fso = s.fso ∧
    (State.portGoesOff s x1).cmp = s.cmp ∧ (State.portGoesOff s x1).mem = s.mem ∧ (State.portGoesOff s x1).tbu = s.tbu ∧
    (State.portGoesOff s x1).hk = s.hk ∧ (State.portGoesOff s x1).boot = s.boot ∧
    (State.portGoesOff s x1).goodAt = s.goodAt ∧ (State.portGoesOff s x1).free = s.free ∧
    (State.portGoesOff s x1).pending = s.pending := by
  unfold State.portGoesOff
  simp

@[simp] theorem State.substitute_frame (s : State) (x1 : ℕ) :
    (State.substitute s x1).clk = s.clk ∧ (State.substitute s x1).tofs = s.tofs ∧ (State.substitute s x1).dev = s.dev ∧
    (State.substitute s x1).seq = s.seq ∧ (State.substitute s x1).edu = s.edu ∧ (State.substitute s x1).stu = s.stu ∧
    (State.substitute s x1).fso = s.fso ∧ (State.substitute s x1).cmp = s.cmp ∧ (State.substitute s x1).mem = s.mem ∧
    (State.substitute s x1).tbu = s.tbu ∧ (State.substitute s x1).hk = s.hk ∧ (State.substitute s x1).boot = s.boot ∧
    (State.substitute s x1).goodAt = s.goodAt ∧ (State.substitute s x1).free = s.free ∧
    (State.substitute s x1).pending = s.pending := by
  unfold State.substitute
  simp

@[simp] theorem State.portFails_frame (s : State) (x1 : ℕ) :
    (State.portFails s x1).clk = s.clk ∧ (State.portFails s x1).tofs = s.tofs ∧ (State.portFails s x1).seq = s.seq ∧
    (State.portFails s x1).edu = s.edu ∧ (State.portFails s x1).stu = s.stu ∧ (State.portFails s x1).fso = s.fso ∧
    (State.portFails s x1).cmp = s.cmp ∧ (State.portFails s x1).mem = s.mem ∧ (State.portFails s x1).tbu = s.tbu ∧
    (State.portFails s x1).hk = s.hk ∧ (State.portFails s x1).boot = s.boot ∧ (State.portFails s x1).goodAt = s.goodAt ∧
    (State.portFails s x1).free = s.free ∧ (State.portFails s x1).pending = s.pending := by
  unfold State.portFails
  simp

@[simp] theorem State.spareLost_frame (s : State) (x1 : ℕ) :
    (State.spareLost s x1).clk = s.clk ∧ (State.spareLost s x1).tofs = s.tofs ∧ (State.spareLost s x1).seq = s.seq ∧
    (State.spareLost s x1).edu = s.edu ∧ (State.spareLost s x1).stu = s.stu ∧ (State.spareLost s x1).fso = s.fso ∧
    (State.spareLost s x1).cmp = s.cmp ∧ (State.spareLost s x1).mem = s.mem ∧ (State.spareLost s x1).tbu = s.tbu ∧
    (State.spareLost s x1).hk = s.hk ∧ (State.spareLost s x1).boot = s.boot ∧ (State.spareLost s x1).goodAt = s.goodAt ∧
    (State.spareLost s x1).free = s.free ∧ (State.spareLost s x1).pending = s.pending := by
  unfold State.spareLost
  simp

@[simp] theorem State.failCheck_frame (s : State) (x1 : ℕ) :
    (State.failCheck s x1).2.clk = s.clk ∧ (State.failCheck s x1).2.tofs = s.tofs ∧ (State.failCheck s x1).2.dev = s.dev ∧
    (State.failCheck s x1).2.mgmt = s.mgmt ∧ (State.failCheck s x1).2.seq = s.seq ∧ (State.failCheck s x1).2.edu = s.edu ∧
    (State.failCheck s x1).2.rpe = s.rpe ∧ (State.failCheck s x1).2.stu = s.stu ∧ (State.failCheck s x1).2.saf = s.saf ∧
    (State.failCheck s x1).2.cap = s.cap ∧ (State.failCheck s x1).2.fso = s.fso ∧ (State.failCheck s x1).2.cmp = s.cmp ∧
    (State.failCheck s x1).2.mem = s.mem ∧ (State.failCheck s x1).2.lnk = s.lnk ∧ (State.failCheck s x1).2.tbu = s.tbu ∧
    (State.failCheck s x1).2.hk = s.hk ∧ (State.failCheck s x1).2.boot = s.boot ∧ (State.failCheck s x1).2.out = s.out ∧
    (State.failCheck s x1).2.goodAt = s.goodAt ∧ (State.failCheck s x1).2.free = s.free ∧
    (State.failCheck s x1).2.pending = s.pending := by
  unfold State.failCheck
  simp

@[simp] theorem State.selfCheckFails_frame (s : State) (x1 : ℕ) :
    (State.selfCheckFails s x1).clk = s.clk ∧ (State.selfCheckFails s x1).tofs = s.tofs ∧
    (State.selfCheckFails s x1).seq = s.seq ∧ (State.selfCheckFails s x1).edu = s.edu ∧
    (State.selfCheckFails s x1).stu = s.stu ∧ (State.selfCheckFails s x1).fso = s.fso ∧
    (State.selfCheckFails s x1).cmp = s.cmp ∧ (State.selfCheckFails s x1).mem = s.mem ∧
    (State.selfCheckFails s x1).tbu = s.tbu ∧ (State.selfCheckFails s x1).hk = s.hk ∧
    (State.selfCheckFails s x1).boot = s.boot ∧ (State.selfCheckFails s x1).goodAt = s.goodAt ∧
    (State.selfCheckFails s x1).free = s.free ∧ (State.selfCheckFails s x1).pending = s.pending := by
  unfold State.selfCheckFails
  simp

@[simp] theorem State.installLut_frame (s : State) (x1 : ℕ) :
    (State.installLut s x1).clk = s.clk ∧ (State.installLut s x1).tofs = s.tofs ∧ (State.installLut s x1).dev = s.dev ∧
    (State.installLut s x1).regs = s.regs ∧ (State.installLut s x1).mgmt = s.mgmt ∧ (State.installLut s x1).seq = s.seq ∧
    (State.installLut s x1).edu = s.edu ∧ (State.installLut s x1).rpe = s.rpe ∧ (State.installLut s x1).stu = s.stu ∧
    (State.installLut s x1).saf = s.saf ∧ (State.installLut s x1).cap = s.cap ∧ (State.installLut s x1).fso = s.fso ∧
    (State.installLut s x1).cmp = s.cmp ∧ (State.installLut s x1).mem = s.mem ∧ (State.installLut s x1).lnk = s.lnk ∧
    (State.installLut s x1).tbu = s.tbu ∧ (State.installLut s x1).hk = s.hk ∧ (State.installLut s x1).boot = s.boot ∧
    (State.installLut s x1).out = s.out ∧ (State.installLut s x1).goodAt = s.goodAt ∧
    (State.installLut s x1).free = s.free ∧ (State.installLut s x1).pending = s.pending := by
  unfold State.installLut
  dsimp only
  (repeat' (first | (split; rename_i heq; have h1 := congrArg Prod.fst heq; have h2 := congrArg Prod.snd heq; dsimp only at h1 h2; (try subst h1); (try subst h2)) | split)) <;> simp

@[simp] theorem State.openGroup_frame (s : State) (x1 : ℕ) (x2 : List ℕ) (x3 : Bool) (x4 : Bool) (x5 : GWin) :
    (State.openGroup s x1 x2 x3 x4 x5).clk = s.clk ∧ (State.openGroup s x1 x2 x3 x4 x5).tofs = s.tofs ∧
    (State.openGroup s x1 x2 x3 x4 x5).dev = s.dev ∧ (State.openGroup s x1 x2 x3 x4 x5).seq = s.seq ∧
    (State.openGroup s x1 x2 x3 x4 x5).edu = s.edu ∧ (State.openGroup s x1 x2 x3 x4 x5).stu = s.stu ∧
    (State.openGroup s x1 x2 x3 x4 x5).fso = s.fso ∧ (State.openGroup s x1 x2 x3 x4 x5).cmp = s.cmp ∧
    (State.openGroup s x1 x2 x3 x4 x5).mem = s.mem ∧ (State.openGroup s x1 x2 x3 x4 x5).tbu = s.tbu ∧
    (State.openGroup s x1 x2 x3 x4 x5).hk = s.hk ∧ (State.openGroup s x1 x2 x3 x4 x5).boot = s.boot ∧
    (State.openGroup s x1 x2 x3 x4 x5).goodAt = s.goodAt ∧ (State.openGroup s x1 x2 x3 x4 x5).free = s.free ∧
    (State.openGroup s x1 x2 x3 x4 x5).pending = s.pending := by
  unfold State.openGroup
  simp

@[simp] theorem State.openPosted_frame (s : State) (x1 : WinPost) (x2 : ℕ) :
    (State.openPosted s x1 x2).clk = s.clk ∧ (State.openPosted s x1 x2).tofs = s.tofs ∧
    (State.openPosted s x1 x2).dev = s.dev ∧ (State.openPosted s x1 x2).seq = s.seq ∧
    (State.openPosted s x1 x2).edu = s.edu ∧ (State.openPosted s x1 x2).stu = s.stu ∧
    (State.openPosted s x1 x2).fso = s.fso ∧ (State.openPosted s x1 x2).cmp = s.cmp ∧
    (State.openPosted s x1 x2).mem = s.mem ∧ (State.openPosted s x1 x2).tbu = s.tbu ∧ (State.openPosted s x1 x2).hk = s.hk ∧
    (State.openPosted s x1 x2).boot = s.boot ∧ (State.openPosted s x1 x2).goodAt = s.goodAt ∧
    (State.openPosted s x1 x2).free = s.free ∧ (State.openPosted s x1 x2).pending = s.pending := by
  unfold State.openPosted
  simp

@[simp] theorem State.noteHold_frame (s : State) :
    (State.noteHold s).clk = s.clk ∧ (State.noteHold s).tofs = s.tofs ∧ (State.noteHold s).dev = s.dev ∧
    (State.noteHold s).seq = s.seq ∧ (State.noteHold s).edu = s.edu ∧ (State.noteHold s).rta = s.rta ∧
    (State.noteHold s).rpe = s.rpe ∧ (State.noteHold s).stu = s.stu ∧ (State.noteHold s).cap = s.cap ∧
    (State.noteHold s).fso = s.fso ∧ (State.noteHold s).cmp = s.cmp ∧ (State.noteHold s).mem = s.mem ∧
    (State.noteHold s).tbu = s.tbu ∧ (State.noteHold s).hk = s.hk ∧ (State.noteHold s).boot = s.boot ∧
    (State.noteHold s).goodAt = s.goodAt ∧ (State.noteHold s).free = s.free ∧ (State.noteHold s).pending = s.pending := by
  unfold State.noteHold
  simp

@[simp] theorem State.openDueFrom_frame (s : State) (x1 : List WinPost) (x2 : List WinPost) :
    (State.openDueFrom s x1 x2).clk = s.clk ∧ (State.openDueFrom s x1 x2).tofs = s.tofs ∧
    (State.openDueFrom s x1 x2).dev = s.dev ∧ (State.openDueFrom s x1 x2).edu = s.edu ∧
    (State.openDueFrom s x1 x2).stu = s.stu ∧ (State.openDueFrom s x1 x2).fso = s.fso ∧
    (State.openDueFrom s x1 x2).cmp = s.cmp ∧ (State.openDueFrom s x1 x2).mem = s.mem ∧
    (State.openDueFrom s x1 x2).tbu = s.tbu ∧ (State.openDueFrom s x1 x2).hk = s.hk ∧
    (State.openDueFrom s x1 x2).boot = s.boot ∧ (State.openDueFrom s x1 x2).goodAt = s.goodAt ∧
    (State.openDueFrom s x1 x2).free = s.free ∧ (State.openDueFrom s x1 x2).pending = s.pending := by
  induction x2 generalizing s x1 with
  | nil => simp [State.openDueFrom]
  | cons w ws ih => simp [State.openDueFrom, ih]

@[simp] theorem State.openDue_frame (s : State) :
    (State.openDue s).clk = s.clk ∧ (State.openDue s).tofs = s.tofs ∧ (State.openDue s).dev = s.dev ∧
    (State.openDue s).edu = s.edu ∧ (State.openDue s).stu = s.stu ∧ (State.openDue s).fso = s.fso ∧
    (State.openDue s).cmp = s.cmp ∧ (State.openDue s).mem = s.mem ∧ (State.openDue s).tbu = s.tbu ∧
    (State.openDue s).hk = s.hk ∧ (State.openDue s).boot = s.boot ∧ (State.openDue s).goodAt = s.goodAt ∧
    (State.openDue s).free = s.free ∧ (State.openDue s).pending = s.pending := by
  unfold State.openDue
  simp

@[simp] theorem State.postWin_frame (s : State) (x1 : WinPost) :
    (State.postWin s x1).clk = s.clk ∧ (State.postWin s x1).tofs = s.tofs ∧ (State.postWin s x1).dev = s.dev ∧
    (State.postWin s x1).edu = s.edu ∧ (State.postWin s x1).stu = s.stu ∧ (State.postWin s x1).fso = s.fso ∧
    (State.postWin s x1).cmp = s.cmp ∧ (State.postWin s x1).mem = s.mem ∧ (State.postWin s x1).tbu = s.tbu ∧
    (State.postWin s x1).hk = s.hk ∧ (State.postWin s x1).boot = s.boot ∧ (State.postWin s x1).goodAt = s.goodAt ∧
    (State.postWin s x1).free = s.free ∧ (State.postWin s x1).pending = s.pending := by
  unfold State.postWin
  simp

@[simp] theorem State.setUnit_inv (s : State) (x1 : ℕ) (x2 : UnitSt) : (State.setUnit s x1 x2).Inv ↔ s.Inv := inv_of_parts (by simp) (by simp)

@[simp] theorem State.refreshActive_inv (s : State) (x1 : ℕ) (h : s.Inv) : (State.refreshActive s x1).Inv := by
  unfold State.refreshActive
  simp (maxDischargeDepth := 100) [h]

@[simp] theorem State.disablePort_inv (s : State) (x1 : ℕ) (h : s.Inv) : (State.disablePort s x1).Inv := by
  unfold State.disablePort
  simp (maxDischargeDepth := 100) [h]

@[simp] theorem State.boundary_inv (s : State) (x1 : List ℕ) (h : s.Inv) : (State.boundary s x1).Inv := by
  unfold State.boundary
  simp +contextual (maxDischargeDepth := 100) [h]

@[simp] theorem State.spareFail_inv (s : State) (x1 : ℕ) (h : s.Inv) : (State.spareFail s x1).Inv := by
  unfold State.spareFail
  simp (maxDischargeDepth := 100) [h]

@[simp] theorem State.portGoesOff_inv (s : State) (x1 : ℕ) (h : s.Inv) : (State.portGoesOff s x1).Inv := by
  unfold State.portGoesOff
  simp (maxDischargeDepth := 100) [h]

@[simp] theorem State.substitute_inv (s : State) (x1 : ℕ) (h : s.Inv) : (State.substitute s x1).Inv := by
  unfold State.substitute
  simp (maxDischargeDepth := 100) [h]

@[simp] theorem State.portFails_inv (s : State) (x1 : ℕ) (h : s.Inv) : (State.portFails s x1).Inv := by
  unfold State.portFails
  simp (maxDischargeDepth := 100) [h]

@[simp] theorem State.spareLost_inv (s : State) (x1 : ℕ) (h : s.Inv) : (State.spareLost s x1).Inv := by
  unfold State.spareLost
  simp (maxDischargeDepth := 100) [h]

@[simp] theorem State.failCheck_inv (s : State) (x1 : ℕ) (h : s.Inv) : (State.failCheck s x1).2.Inv := by
  unfold State.failCheck
  simp (maxDischargeDepth := 100) [h]

@[simp] theorem State.selfCheckFails_inv (s : State) (x1 : ℕ) (h : s.Inv) : (State.selfCheckFails s x1).Inv := by
  unfold State.selfCheckFails
  simp (maxDischargeDepth := 100) [h]

@[simp] theorem State.installLut_inv (s : State) (x1 : ℕ) : (State.installLut s x1).Inv ↔ s.Inv := inv_of_parts (by simp) (by simp)

@[simp] theorem State.openGroup_inv (s : State) (x1 : ℕ) (x2 : List ℕ) (x3 : Bool) (x4 : Bool) (x5 : GWin) (h : s.Inv) : (State.openGroup s x1 x2 x3 x4 x5).Inv := by
  unfold State.openGroup
  simp (maxDischargeDepth := 100) [h]

@[simp] theorem State.openPosted_inv (s : State) (x1 : WinPost) (x2 : ℕ) (h : s.Inv) : (State.openPosted s x1 x2).Inv := by
  unfold State.openPosted
  simp +contextual (maxDischargeDepth := 100) [h]

@[simp] theorem State.noteHold_inv (s : State) (h : s.Inv) : (State.noteHold s).Inv := by
  unfold State.noteHold
  simp (maxDischargeDepth := 100) [h]

@[simp] theorem State.openDueFrom_inv (s : State) (x1 : List WinPost) (x2 : List WinPost) (h : s.Inv) : (State.openDueFrom s x1 x2).Inv := by
  induction x2 generalizing s x1 with
  | nil => simpa [State.openDueFrom] using h
  | cons w ws ih => unfold State.openDueFrom; (repeat' (first | (split; rename_i heq; have h1 := congrArg Prod.fst heq; have h2 := congrArg Prod.snd heq; dsimp only at h1 h2; (try subst h1); (try subst h2)) | split)) <;> (apply ih; simp (maxDischargeDepth := 100) [*])

@[simp] theorem State.openDue_inv (s : State) (h : s.Inv) : (State.openDue s).Inv := by
  unfold State.openDue
  simp (maxDischargeDepth := 100) [h]

@[simp] theorem State.postWin_inv (s : State) (x1 : WinPost) (h : s.Inv) : (State.postWin s x1).Inv := by
  unfold State.postWin
  simp (maxDischargeDepth := 100) [h]

/-! ### Receiver -/

@[simp] theorem State.setRef_frame (s : State) (x1 : ℕ) (x2 : ℤ) (x3 : Bool) :
    (State.setRef s x1 x2 x3).clk = s.clk ∧ (State.setRef s x1 x2 x3).tofs = s.tofs ∧
    (State.setRef s x1 x2 x3).dev = s.dev ∧ (State.setRef s x1 x2 x3).regs = s.regs ∧
    (State.setRef s x1 x2 x3).mgmt = s.mgmt ∧ (State.setRef s x1 x2 x3).seq = s.seq ∧
    (State.setRef s x1 x2 x3).edu = s.edu ∧ (State.setRef s x1 x2 x3).rpe = s.rpe ∧ (State.setRef s x1 x2 x3).stu = s.stu ∧
    (State.setRef s x1 x2 x3).saf = s.saf ∧ (State.setRef s x1 x2 x3).cap = s.cap ∧ (State.setRef s x1 x2 x3).fso = s.fso ∧
    (State.setRef s x1 x2 x3).cmp = s.cmp ∧ (State.setRef s x1 x2 x3).mem = s.mem ∧ (State.setRef s x1 x2 x3).lnk = s.lnk ∧
    (State.setRef s x1 x2 x3).tbu = s.tbu ∧ (State.setRef s x1 x2 x3).hk = s.hk ∧ (State.setRef s x1 x2 x3).boot = s.boot ∧
    (State.setRef s x1 x2 x3).out = s.out ∧ (State.setRef s x1 x2 x3).goodAt = s.goodAt ∧
    (State.setRef s x1 x2 x3).free = s.free ∧ (State.setRef s x1 x2 x3).pending = s.pending := by
  unfold State.setRef
  (repeat' (first | (split; rename_i heq; have h1 := congrArg Prod.fst heq; have h2 := congrArg Prod.snd heq; dsimp only at h1 h2; (try subst h1); (try subst h2)) | split)) <;> simp

@[simp] theorem State.bgHit_frame (s : State) (x1 : ℕ) (x2 : ℕ) :
    (State.bgHit s x1 x2).clk = s.clk ∧ (State.bgHit s x1 x2).tofs = s.tofs ∧ (State.bgHit s x1 x2).dev = s.dev ∧
    (State.bgHit s x1 x2).regs = s.regs ∧ (State.bgHit s x1 x2).mgmt = s.mgmt ∧ (State.bgHit s x1 x2).seq = s.seq ∧
    (State.bgHit s x1 x2).edu = s.edu ∧ (State.bgHit s x1 x2).rpe = s.rpe ∧ (State.bgHit s x1 x2).stu = s.stu ∧
    (State.bgHit s x1 x2).saf = s.saf ∧ (State.bgHit s x1 x2).cap = s.cap ∧ (State.bgHit s x1 x2).fso = s.fso ∧
    (State.bgHit s x1 x2).cmp = s.cmp ∧ (State.bgHit s x1 x2).mem = s.mem ∧ (State.bgHit s x1 x2).lnk = s.lnk ∧
    (State.bgHit s x1 x2).tbu = s.tbu ∧ (State.bgHit s x1 x2).hk = s.hk ∧ (State.bgHit s x1 x2).boot = s.boot ∧
    (State.bgHit s x1 x2).out = s.out ∧ (State.bgHit s x1 x2).goodAt = s.goodAt ∧ (State.bgHit s x1 x2).free = s.free ∧
    (State.bgHit s x1 x2).pending = s.pending := by
  unfold State.bgHit
  simp

@[simp] theorem State.offerRaw_frame (s : State) (x1 : ℕ) (x2 : CapRec) :
    (State.offerRaw s x1 x2).clk = s.clk ∧ (State.offerRaw s x1 x2).tofs = s.tofs ∧ (State.offerRaw s x1 x2).dev = s.dev ∧
    (State.offerRaw s x1 x2).regs = s.regs ∧ (State.offerRaw s x1 x2).mgmt = s.mgmt ∧ (State.offerRaw s x1 x2).seq = s.seq ∧
    (State.offerRaw s x1 x2).edu = s.edu ∧ (State.offerRaw s x1 x2).rta = s.rta ∧ (State.offerRaw s x1 x2).rpe = s.rpe ∧
    (State.offerRaw s x1 x2).stu = s.stu ∧ (State.offerRaw s x1 x2).saf = s.saf ∧ (State.offerRaw s x1 x2).fso = s.fso ∧
    (State.offerRaw s x1 x2).cmp = s.cmp ∧ (State.offerRaw s x1 x2).mem = s.mem ∧ (State.offerRaw s x1 x2).lnk = s.lnk ∧
    (State.offerRaw s x1 x2).tbu = s.tbu ∧ (State.offerRaw s x1 x2).hk = s.hk ∧ (State.offerRaw s x1 x2).boot = s.boot ∧
    (State.offerRaw s x1 x2).out = s.out ∧ (State.offerRaw s x1 x2).goodAt = s.goodAt ∧
    (State.offerRaw s x1 x2).free = s.free ∧ (State.offerRaw s x1 x2).pending = s.pending := by
  unfold State.offerRaw
  simp

@[simp] theorem State.releaseRaw_frame (s : State) :
    (State.releaseRaw s).clk = s.clk ∧ (State.releaseRaw s).tofs = s.tofs ∧ (State.releaseRaw s).dev = s.dev ∧
    (State.releaseRaw s).regs = s.regs ∧ (State.releaseRaw s).mgmt = s.mgmt ∧ (State.releaseRaw s).seq = s.seq ∧
    (State.releaseRaw s).edu = s.edu ∧ (State.releaseRaw s).rta = s.rta ∧ (State.releaseRaw s).rpe = s.rpe ∧
    (State.releaseRaw s).stu = s.stu ∧ (State.releaseRaw s).saf = s.saf ∧ (State.releaseRaw s).fso = s.fso ∧
    (State.releaseRaw s).cmp = s.cmp ∧ (State.releaseRaw s).mem = s.mem ∧ (State.releaseRaw s).lnk = s.lnk ∧
    (State.releaseRaw s).tbu = s.tbu ∧ (State.releaseRaw s).hk = s.hk ∧ (State.releaseRaw s).boot = s.boot ∧
    (State.releaseRaw s).out = s.out ∧ (State.releaseRaw s).goodAt = s.goodAt ∧ (State.releaseRaw s).free = s.free ∧
    (State.releaseRaw s).pending = s.pending := by
  unfold State.releaseRaw
  simp

@[simp] theorem State.jigHit_frame (s : State) (x1 : ℕ) (x2 : ℕ) (x3 : GWin) (x4 : PWin) (x5 : Edge) :
    (State.jigHit s x1 x2 x3 x4 x5).clk = s.clk ∧ (State.jigHit s x1 x2 x3 x4 x5).tofs = s.tofs ∧
    (State.jigHit s x1 x2 x3 x4 x5).dev = s.dev ∧ (State.jigHit s x1 x2 x3 x4 x5).mgmt = s.mgmt ∧
    (State.jigHit s x1 x2 x3 x4 x5).seq = s.seq ∧ (State.jigHit s x1 x2 x3 x4 x5).edu = s.edu ∧
    (State.jigHit s x1 x2 x3 x4 x5).rpe = s.rpe ∧ (State.jigHit s x1 x2 x3 x4 x5).stu = s.stu ∧
    (State.jigHit s x1 x2 x3 x4 x5).saf = s.saf ∧ (State.jigHit s x1 x2 x3 x4 x5).fso = s.fso ∧
    (State.jigHit s x1 x2 x3 x4 x5).cmp = s.cmp ∧ (State.jigHit s x1 x2 x3 x4 x5).mem = s.mem ∧
    (State.jigHit s x1 x2 x3 x4 x5).lnk = s.lnk ∧ (State.jigHit s x1 x2 x3 x4 x5).tbu = s.tbu ∧
    (State.jigHit s x1 x2 x3 x4 x5).hk = s.hk ∧ (State.jigHit s x1 x2 x3 x4 x5).boot = s.boot ∧
    (State.jigHit s x1 x2 x3 x4 x5).out = s.out ∧ (State.jigHit s x1 x2 x3 x4 x5).goodAt = s.goodAt ∧
    (State.jigHit s x1 x2 x3 x4 x5).free = s.free ∧ (State.jigHit s x1 x2 x3 x4 x5).pending = s.pending := by
  unfold State.jigHit
  simp

@[simp] theorem State.tapEdge_frame (s : State) (x1 : ℕ) (x2 : ℤ) :
    (State.tapEdge s x1 x2).clk = s.clk ∧ (State.tapEdge s x1 x2).tofs = s.tofs ∧ (State.tapEdge s x1 x2).dev = s.dev ∧
    (State.tapEdge s x1 x2).seq = s.seq ∧ (State.tapEdge s x1 x2).edu = s.edu ∧ (State.tapEdge s x1 x2).rta = s.rta ∧
    (State.tapEdge s x1 x2).rpe = s.rpe ∧ (State.tapEdge s x1 x2).stu = s.stu ∧ (State.tapEdge s x1 x2).fso = s.fso ∧
    (State.tapEdge s x1 x2).cmp = s.cmp ∧ (State.tapEdge s x1 x2).mem = s.mem ∧ (State.tapEdge s x1 x2).tbu = s.tbu ∧
    (State.tapEdge s x1 x2).hk = s.hk ∧ (State.tapEdge s x1 x2).boot = s.boot ∧ (State.tapEdge s x1 x2).goodAt = s.goodAt ∧
    (State.tapEdge s x1 x2).free = s.free ∧ (State.tapEdge s x1 x2).pending = s.pending := by
  unfold State.tapEdge
  (repeat' (first | (split; rename_i heq; have h1 := congrArg Prod.fst heq; have h2 := congrArg Prod.snd heq; dsimp only at h1 h2; (try subst h1); (try subst h2)) | split)) <;> simp

@[simp] theorem State.densityHit_frame (s : State) (x1 : ℕ) (x2 : Edge) :
    (State.densityHit s x1 x2).clk = s.clk ∧ (State.densityHit s x1 x2).tofs = s.tofs ∧
    (State.densityHit s x1 x2).dev = s.dev ∧ (State.densityHit s x1 x2).mgmt = s.mgmt ∧
    (State.densityHit s x1 x2).seq = s.seq ∧ (State.densityHit s x1 x2).edu = s.edu ∧
    (State.densityHit s x1 x2).rpe = s.rpe ∧ (State.densityHit s x1 x2).stu = s.stu ∧
    (State.densityHit s x1 x2).saf = s.saf ∧ (State.densityHit s x1 x2).fso = s.fso ∧
    (State.densityHit s x1 x2).cmp = s.cmp ∧ (State.densityHit s x1 x2).mem = s.mem ∧
    (State.densityHit s x1 x2).lnk = s.lnk ∧ (State.densityHit s x1 x2).tbu = s.tbu ∧ (State.densityHit s x1 x2).hk = s.hk ∧
    (State.densityHit s x1 x2).boot = s.boot ∧ (State.densityHit s x1 x2).out = s.out ∧
    (State.densityHit s x1 x2).goodAt = s.goodAt ∧ (State.densityHit s x1 x2).free = s.free ∧
    (State.densityHit s x1 x2).pending = s.pending := by
  unfold State.densityHit
  (repeat' (first | (split; rename_i heq; have h1 := congrArg Prod.fst heq; have h2 := congrArg Prod.snd heq; dsimp only at h1 h2; (try subst h1); (try subst h2)) | split)) <;> simp

@[simp] theorem State.tdcEdge_frame (s : State) (x1 : ℕ) (x2 : TdcCode) (x3 : Edge) :
    (State.tdcEdge s x1 x2 x3).clk = s.clk ∧ (State.tdcEdge s x1 x2 x3).tofs = s.tofs ∧
    (State.tdcEdge s x1 x2 x3).dev = s.dev ∧ (State.tdcEdge s x1 x2 x3).mgmt = s.mgmt ∧
    (State.tdcEdge s x1 x2 x3).seq = s.seq ∧ (State.tdcEdge s x1 x2 x3).edu = s.edu ∧
    (State.tdcEdge s x1 x2 x3).rpe = s.rpe ∧ (State.tdcEdge s x1 x2 x3).stu = s.stu ∧
    (State.tdcEdge s x1 x2 x3).saf = s.saf ∧ (State.tdcEdge s x1 x2 x3).cap = s.cap ∧
    (State.tdcEdge s x1 x2 x3).fso = s.fso ∧ (State.tdcEdge s x1 x2 x3).cmp = s.cmp ∧
    (State.tdcEdge s x1 x2 x3).mem = s.mem ∧ (State.tdcEdge s x1 x2 x3).lnk = s.lnk ∧
    (State.tdcEdge s x1 x2 x3).tbu = s.tbu ∧ (State.tdcEdge s x1 x2 x3).hk = s.hk ∧
    (State.tdcEdge s x1 x2 x3).boot = s.boot ∧ (State.tdcEdge s x1 x2 x3).out = s.out ∧
    (State.tdcEdge s x1 x2 x3).goodAt = s.goodAt ∧ (State.tdcEdge s x1 x2 x3).free = s.free ∧
    (State.tdcEdge s x1 x2 x3).pending = s.pending := by
  unfold State.tdcEdge
  dsimp only
  (repeat' (first | (split; rename_i heq; have h1 := congrArg Prod.fst heq; have h2 := congrArg Prod.snd heq; dsimp only at h1 h2; (try subst h1); (try subst h2)) | split)) <;> simp

@[simp] theorem State.writePchk_frame (s : State) (x1 : ℕ) (x2 : PWin) (x3 : WinPost) :
    (State.writePchk s x1 x2 x3).clk = s.clk ∧ (State.writePchk s x1 x2 x3).tofs = s.tofs ∧
    (State.writePchk s x1 x2 x3).dev = s.dev ∧ (State.writePchk s x1 x2 x3).mgmt = s.mgmt ∧
    (State.writePchk s x1 x2 x3).seq = s.seq ∧ (State.writePchk s x1 x2 x3).edu = s.edu ∧
    (State.writePchk s x1 x2 x3).rta = s.rta ∧ (State.writePchk s x1 x2 x3).rpe = s.rpe ∧
    (State.writePchk s x1 x2 x3).stu = s.stu ∧ (State.writePchk s x1 x2 x3).saf = s.saf ∧
    (State.writePchk s x1 x2 x3).cap = s.cap ∧ (State.writePchk s x1 x2 x3).fso = s.fso ∧
    (State.writePchk s x1 x2 x3).cmp = s.cmp ∧ (State.writePchk s x1 x2 x3).mem = s.mem ∧
    (State.writePchk s x1 x2 x3).lnk = s.lnk ∧ (State.writePchk s x1 x2 x3).tbu = s.tbu ∧
    (State.writePchk s x1 x2 x3).hk = s.hk ∧ (State.writePchk s x1 x2 x3).boot = s.boot ∧
    (State.writePchk s x1 x2 x3).out = s.out ∧ (State.writePchk s x1 x2 x3).goodAt = s.goodAt ∧
    (State.writePchk s x1 x2 x3).free = s.free ∧ (State.writePchk s x1 x2 x3).pending = s.pending := by
  unfold State.writePchk
  simp

@[simp] theorem State.judgeSpare_frame (s : State) (x1 : ℕ) (x2 : Bool) :
    (State.judgeSpare s x1 x2).clk = s.clk ∧ (State.judgeSpare s x1 x2).tofs = s.tofs ∧
    (State.judgeSpare s x1 x2).seq = s.seq ∧ (State.judgeSpare s x1 x2).edu = s.edu ∧
    (State.judgeSpare s x1 x2).stu = s.stu ∧ (State.judgeSpare s x1 x2).fso = s.fso ∧
    (State.judgeSpare s x1 x2).cmp = s.cmp ∧ (State.judgeSpare s x1 x2).mem = s.mem ∧
    (State.judgeSpare s x1 x2).tbu = s.tbu ∧ (State.judgeSpare s x1 x2).hk = s.hk ∧
    (State.judgeSpare s x1 x2).boot = s.boot ∧ (State.judgeSpare s x1 x2).goodAt = s.goodAt ∧
    (State.judgeSpare s x1 x2).free = s.free ∧ (State.judgeSpare s x1 x2).pending = s.pending := by
  unfold State.judgeSpare
  simp

@[simp] theorem State.judgeCheck_frame (s : State) (x1 : GWin) (x2 : WinPost) (x3 : ℕ × PWin) :
    (State.judgeCheck s x1 x2 x3).clk = s.clk ∧ (State.judgeCheck s x1 x2 x3).tofs = s.tofs ∧
    (State.judgeCheck s x1 x2 x3).seq = s.seq ∧ (State.judgeCheck s x1 x2 x3).edu = s.edu ∧
    (State.judgeCheck s x1 x2 x3).stu = s.stu ∧ (State.judgeCheck s x1 x2 x3).fso = s.fso ∧
    (State.judgeCheck s x1 x2 x3).cmp = s.cmp ∧ (State.judgeCheck s x1 x2 x3).mem = s.mem ∧
    (State.judgeCheck s x1 x2 x3).tbu = s.tbu ∧ (State.judgeCheck s x1 x2 x3).hk = s.hk ∧
    (State.judgeCheck s x1 x2 x3).boot = s.boot ∧ (State.judgeCheck s x1 x2 x3).goodAt = s.goodAt ∧
    (State.judgeCheck s x1 x2 x3).free = s.free ∧ (State.judgeCheck s x1 x2 x3).pending = s.pending := by
  unfold State.judgeCheck
  (repeat' (first | (split; rename_i heq; have h1 := congrArg Prod.fst heq; have h2 := congrArg Prod.snd heq; dsimp only at h1 h2; (try subst h1); (try subst h2)) | split)) <;> simp

@[simp] theorem State.addSkew_frame (s : State) (x1 : ℕ) (x2 : ℤ) :
    (State.addSkew s x1 x2).clk = s.clk ∧ (State.addSkew s x1 x2).tofs = s.tofs ∧ (State.addSkew s x1 x2).dev = s.dev ∧
    (State.addSkew s x1 x2).regs = s.regs ∧ (State.addSkew s x1 x2).mgmt = s.mgmt ∧ (State.addSkew s x1 x2).seq = s.seq ∧
    (State.addSkew s x1 x2).edu = s.edu ∧ (State.addSkew s x1 x2).rpe = s.rpe ∧ (State.addSkew s x1 x2).stu = s.stu ∧
    (State.addSkew s x1 x2).saf = s.saf ∧ (State.addSkew s x1 x2).cap = s.cap ∧ (State.addSkew s x1 x2).fso = s.fso ∧
    (State.addSkew s x1 x2).cmp = s.cmp ∧ (State.addSkew s x1 x2).mem = s.mem ∧ (State.addSkew s x1 x2).lnk = s.lnk ∧
    (State.addSkew s x1 x2).tbu = s.tbu ∧ (State.addSkew s x1 x2).hk = s.hk ∧ (State.addSkew s x1 x2).boot = s.boot ∧
    (State.addSkew s x1 x2).out = s.out ∧ (State.addSkew s x1 x2).goodAt = s.goodAt ∧
    (State.addSkew s x1 x2).free = s.free ∧ (State.addSkew s x1 x2).pending = s.pending := by
  unfold State.addSkew
  simp

@[simp] theorem State.skewHit_frame (s : State) (x1 : WinPost) (x2 : ℕ × PWin) :
    (State.skewHit s x1 x2).clk = s.clk ∧ (State.skewHit s x1 x2).tofs = s.tofs ∧ (State.skewHit s x1 x2).dev = s.dev ∧
    (State.skewHit s x1 x2).regs = s.regs ∧ (State.skewHit s x1 x2).mgmt = s.mgmt ∧ (State.skewHit s x1 x2).seq = s.seq ∧
    (State.skewHit s x1 x2).edu = s.edu ∧ (State.skewHit s x1 x2).rpe = s.rpe ∧ (State.skewHit s x1 x2).stu = s.stu ∧
    (State.skewHit s x1 x2).saf = s.saf ∧ (State.skewHit s x1 x2).cap = s.cap ∧ (State.skewHit s x1 x2).fso = s.fso ∧
    (State.skewHit s x1 x2).cmp = s.cmp ∧ (State.skewHit s x1 x2).mem = s.mem ∧ (State.skewHit s x1 x2).lnk = s.lnk ∧
    (State.skewHit s x1 x2).tbu = s.tbu ∧ (State.skewHit s x1 x2).hk = s.hk ∧ (State.skewHit s x1 x2).boot = s.boot ∧
    (State.skewHit s x1 x2).out = s.out ∧ (State.skewHit s x1 x2).goodAt = s.goodAt ∧
    (State.skewHit s x1 x2).free = s.free ∧ (State.skewHit s x1 x2).pending = s.pending := by
  unfold State.skewHit
  (repeat' (first | (split; rename_i heq; have h1 := congrArg Prod.fst heq; have h2 := congrArg Prod.snd heq; dsimp only at h1 h2; (try subst h1); (try subst h2)) | split)) <;> simp

@[simp] theorem State.threshOf_frame (s : State) (x1 : GWin) (x2 : WinPost) (x3 : ℕ × PWin) :
    (State.threshOf s x1 x2 x3).clk = s.clk ∧ (State.threshOf s x1 x2 x3).tofs = s.tofs ∧
    (State.threshOf s x1 x2 x3).dev = s.dev ∧ (State.threshOf s x1 x2 x3).mgmt = s.mgmt ∧
    (State.threshOf s x1 x2 x3).seq = s.seq ∧ (State.threshOf s x1 x2 x3).edu = s.edu ∧
    (State.threshOf s x1 x2 x3).rta = s.rta ∧ (State.threshOf s x1 x2 x3).rpe = s.rpe ∧
    (State.threshOf s x1 x2 x3).stu = s.stu ∧ (State.threshOf s x1 x2 x3).saf = s.saf ∧
    (State.threshOf s x1 x2 x3).cap = s.cap ∧ (State.threshOf s x1 x2 x3).fso = s.fso ∧
    (State.threshOf s x1 x2 x3).cmp = s.cmp ∧ (State.threshOf s x1 x2 x3).mem = s.mem ∧
    (State.threshOf s x1 x2 x3).lnk = s.lnk ∧ (State.threshOf s x1 x2 x3).tbu = s.tbu ∧
    (State.threshOf s x1 x2 x3).hk = s.hk ∧ (State.threshOf s x1 x2 x3).boot = s.boot ∧
    (State.threshOf s x1 x2 x3).out = s.out ∧ (State.threshOf s x1 x2 x3).goodAt = s.goodAt ∧
    (State.threshOf s x1 x2 x3).free = s.free ∧ (State.threshOf s x1 x2 x3).pending = s.pending := by
  unfold State.threshOf
  (repeat' (first | (split; rename_i heq; have h1 := congrArg Prod.fst heq; have h2 := congrArg Prod.snd heq; dsimp only at h1 h2; (try subst h1); (try subst h2)) | split)) <;> simp

@[simp] theorem State.evalCal_frame (s : State) (x1 : GWin) (x2 : WinPost) :
    (State.evalCal s x1 x2).clk = s.clk ∧ (State.evalCal s x1 x2).tofs = s.tofs ∧ (State.evalCal s x1 x2).seq = s.seq ∧
    (State.evalCal s x1 x2).edu = s.edu ∧ (State.evalCal s x1 x2).stu = s.stu ∧ (State.evalCal s x1 x2).fso = s.fso ∧
    (State.evalCal s x1 x2).cmp = s.cmp ∧ (State.evalCal s x1 x2).mem = s.mem ∧ (State.evalCal s x1 x2).tbu = s.tbu ∧
    (State.evalCal s x1 x2).hk = s.hk ∧ (State.evalCal s x1 x2).boot = s.boot ∧ (State.evalCal s x1 x2).goodAt = s.goodAt ∧
    (State.evalCal s x1 x2).free = s.free ∧ (State.evalCal s x1 x2).pending = s.pending := by
  unfold State.evalCal
  simp

@[simp] theorem State.countShot_frame (s : State) (x1 : ℕ) (x2 : PWin) :
    (State.countShot s x1 x2).clk = s.clk ∧ (State.countShot s x1 x2).tofs = s.tofs ∧
    (State.countShot s x1 x2).dev = s.dev ∧ (State.countShot s x1 x2).mgmt = s.mgmt ∧
    (State.countShot s x1 x2).seq = s.seq ∧ (State.countShot s x1 x2).edu = s.edu ∧ (State.countShot s x1 x2).rta = s.rta ∧
    (State.countShot s x1 x2).rpe = s.rpe ∧ (State.countShot s x1 x2).stu = s.stu ∧ (State.countShot s x1 x2).saf = s.saf ∧
    (State.countShot s x1 x2).cap = s.cap ∧ (State.countShot s x1 x2).fso = s.fso ∧ (State.countShot s x1 x2).cmp = s.cmp ∧
    (State.countShot s x1 x2).mem = s.mem ∧ (State.countShot s x1 x2).lnk = s.lnk ∧ (State.countShot s x1 x2).tbu = s.tbu ∧
    (State.countShot s x1 x2).hk = s.hk ∧ (State.countShot s x1 x2).boot = s.boot ∧ (State.countShot s x1 x2).out = s.out ∧
    (State.countShot s x1 x2).goodAt = s.goodAt ∧ (State.countShot s x1 x2).free = s.free ∧
    (State.countShot s x1 x2).pending = s.pending := by
  unfold State.countShot
  simp

@[simp] theorem State.listenRecord_frame (s : State) (x1 : GWin) (x2 : WinPost) (x3 : ℕ) (x4 : PWin) :
    (State.listenRecord s x1 x2 x3 x4).clk = s.clk ∧ (State.listenRecord s x1 x2 x3 x4).tofs = s.tofs ∧
    (State.listenRecord s x1 x2 x3 x4).dev = s.dev ∧ (State.listenRecord s x1 x2 x3 x4).regs = s.regs ∧
    (State.listenRecord s x1 x2 x3 x4).mgmt = s.mgmt ∧ (State.listenRecord s x1 x2 x3 x4).seq = s.seq ∧
    (State.listenRecord s x1 x2 x3 x4).edu = s.edu ∧ (State.listenRecord s x1 x2 x3 x4).rta = s.rta ∧
    (State.listenRecord s x1 x2 x3 x4).stu = s.stu ∧ (State.listenRecord s x1 x2 x3 x4).saf = s.saf ∧
    (State.listenRecord s x1 x2 x3 x4).fso = s.fso ∧ (State.listenRecord s x1 x2 x3 x4).cmp = s.cmp ∧
    (State.listenRecord s x1 x2 x3 x4).mem = s.mem ∧ (State.listenRecord s x1 x2 x3 x4).lnk = s.lnk ∧
    (State.listenRecord s x1 x2 x3 x4).tbu = s.tbu ∧ (State.listenRecord s x1 x2 x3 x4).hk = s.hk ∧
    (State.listenRecord s x1 x2 x3 x4).boot = s.boot ∧ (State.listenRecord s x1 x2 x3 x4).out = s.out ∧
    (State.listenRecord s x1 x2 x3 x4).goodAt = s.goodAt ∧ (State.listenRecord s x1 x2 x3 x4).free = s.free ∧
    (State.listenRecord s x1 x2 x3 x4).pending = s.pending := by
  unfold State.listenRecord
  simp

@[simp] theorem State.closeUnit_frame (s : State) (x1 : GWin) (x2 : ℕ) (x3 : ℕ) (x4 : PWin) :
    (State.closeUnit s x1 x2 x3 x4).clk = s.clk ∧ (State.closeUnit s x1 x2 x3 x4).tofs = s.tofs ∧
    (State.closeUnit s x1 x2 x3 x4).dev = s.dev ∧ (State.closeUnit s x1 x2 x3 x4).mgmt = s.mgmt ∧
    (State.closeUnit s x1 x2 x3 x4).seq = s.seq ∧ (State.closeUnit s x1 x2 x3 x4).edu = s.edu ∧
    (State.closeUnit s x1 x2 x3 x4).stu = s.stu ∧ (State.closeUnit s x1 x2 x3 x4).saf = s.saf ∧
    (State.closeUnit s x1 x2 x3 x4).fso = s.fso ∧ (State.closeUnit s x1 x2 x3 x4).cmp = s.cmp ∧
    (State.closeUnit s x1 x2 x3 x4).mem = s.mem ∧ (State.closeUnit s x1 x2 x3 x4).lnk = s.lnk ∧
    (State.closeUnit s x1 x2 x3 x4).tbu = s.tbu ∧ (State.closeUnit s x1 x2 x3 x4).hk = s.hk ∧
    (State.closeUnit s x1 x2 x3 x4).boot = s.boot ∧ (State.closeUnit s x1 x2 x3 x4).out = s.out ∧
    (State.closeUnit s x1 x2 x3 x4).goodAt = s.goodAt ∧ (State.closeUnit s x1 x2 x3 x4).free = s.free ∧
    (State.closeUnit s x1 x2 x3 x4).pending = s.pending := by
  unfold State.closeUnit
  (repeat' (first | (split; rename_i heq; have h1 := congrArg Prod.fst heq; have h2 := congrArg Prod.snd heq; dsimp only at h1 h2; (try subst h1); (try subst h2)) | split)) <;> simp

@[simp] theorem State.offerUnit_frame (s : State) (x1 : GWin) (x2 : ℕ × PWin) :
    (State.offerUnit s x1 x2).clk = s.clk ∧ (State.offerUnit s x1 x2).tofs = s.tofs ∧
    (State.offerUnit s x1 x2).dev = s.dev ∧ (State.offerUnit s x1 x2).regs = s.regs ∧
    (State.offerUnit s x1 x2).mgmt = s.mgmt ∧ (State.offerUnit s x1 x2).seq = s.seq ∧
    (State.offerUnit s x1 x2).edu = s.edu ∧ (State.offerUnit s x1 x2).rta = s.rta ∧ (State.offerUnit s x1 x2).rpe = s.rpe ∧
    (State.offerUnit s x1 x2).stu = s.stu ∧ (State.offerUnit s x1 x2).saf = s.saf ∧ (State.offerUnit s x1 x2).fso = s.fso ∧
    (State.offerUnit s x1 x2).cmp = s.cmp ∧ (State.offerUnit s x1 x2).mem = s.mem ∧ (State.offerUnit s x1 x2).lnk = s.lnk ∧
    (State.offerUnit s x1 x2).tbu = s.tbu ∧ (State.offerUnit s x1 x2).hk = s.hk ∧ (State.offerUnit s x1 x2).boot = s.boot ∧
    (State.offerUnit s x1 x2).out = s.out ∧ (State.offerUnit s x1 x2).goodAt = s.goodAt ∧
    (State.offerUnit s x1 x2).free = s.free ∧ (State.offerUnit s x1 x2).pending = s.pending := by
  unfold State.offerUnit
  (repeat' (first | (split; rename_i heq; have h1 := congrArg Prod.fst heq; have h2 := congrArg Prod.snd heq; dsimp only at h1 h2; (try subst h1); (try subst h2)) | split)) <;> simp

@[simp] theorem State.closeGroup_frame (s : State) (x1 : ℕ) (x2 : GWin) :
    (State.closeGroup s x1 x2).clk = s.clk ∧ (State.closeGroup s x1 x2).tofs = s.tofs ∧
    (State.closeGroup s x1 x2).edu = s.edu ∧ (State.closeGroup s x1 x2).stu = s.stu ∧
    (State.closeGroup s x1 x2).fso = s.fso ∧ (State.closeGroup s x1 x2).cmp = s.cmp ∧
    (State.closeGroup s x1 x2).mem = s.mem ∧ (State.closeGroup s x1 x2).tbu = s.tbu ∧ (State.closeGroup s x1 x2).hk = s.hk ∧
    (State.closeGroup s x1 x2).boot = s.boot ∧ (State.closeGroup s x1 x2).goodAt = s.goodAt ∧
    (State.closeGroup s x1 x2).free = s.free ∧ (State.closeGroup s x1 x2).pending = s.pending := by
  unfold State.closeGroup
  (repeat' (first | (split; rename_i heq; have h1 := congrArg Prod.fst heq; have h2 := congrArg Prod.snd heq; dsimp only at h1 h2; (try subst h1); (try subst h2)) | split)) <;> simp

@[simp] theorem State.startFails_frame (s : State) (x1 : ℕ) :
    (State.startFails s x1).clk = s.clk ∧ (State.startFails s x1).tofs = s.tofs ∧ (State.startFails s x1).dev = s.dev ∧
    (State.startFails s x1).mgmt = s.mgmt ∧ (State.startFails s x1).seq = s.seq ∧ (State.startFails s x1).edu = s.edu ∧
    (State.startFails s x1).rpe = s.rpe ∧ (State.startFails s x1).stu = s.stu ∧ (State.startFails s x1).saf = s.saf ∧
    (State.startFails s x1).cap = s.cap ∧ (State.startFails s x1).fso = s.fso ∧ (State.startFails s x1).cmp = s.cmp ∧
    (State.startFails s x1).mem = s.mem ∧ (State.startFails s x1).lnk = s.lnk ∧ (State.startFails s x1).tbu = s.tbu ∧
    (State.startFails s x1).hk = s.hk ∧ (State.startFails s x1).boot = s.boot ∧ (State.startFails s x1).out = s.out ∧
    (State.startFails s x1).goodAt = s.goodAt ∧ (State.startFails s x1).free = s.free ∧
    (State.startFails s x1).pending = s.pending := by
  unfold State.startFails
  simp

@[simp] theorem State.moveSkew_frame (s : State) (x1 : ℕ) (x2 : ℤ) :
    (State.moveSkew s x1 x2).clk = s.clk ∧ (State.moveSkew s x1 x2).tofs = s.tofs ∧ (State.moveSkew s x1 x2).dev = s.dev ∧
    (State.moveSkew s x1 x2).mgmt = s.mgmt ∧ (State.moveSkew s x1 x2).seq = s.seq ∧ (State.moveSkew s x1 x2).edu = s.edu ∧
    (State.moveSkew s x1 x2).rpe = s.rpe ∧ (State.moveSkew s x1 x2).stu = s.stu ∧ (State.moveSkew s x1 x2).saf = s.saf ∧
    (State.moveSkew s x1 x2).cap = s.cap ∧ (State.moveSkew s x1 x2).fso = s.fso ∧ (State.moveSkew s x1 x2).cmp = s.cmp ∧
    (State.moveSkew s x1 x2).mem = s.mem ∧ (State.moveSkew s x1 x2).lnk = s.lnk ∧ (State.moveSkew s x1 x2).tbu = s.tbu ∧
    (State.moveSkew s x1 x2).hk = s.hk ∧ (State.moveSkew s x1 x2).boot = s.boot ∧ (State.moveSkew s x1 x2).out = s.out ∧
    (State.moveSkew s x1 x2).goodAt = s.goodAt ∧ (State.moveSkew s x1 x2).free = s.free ∧
    (State.moveSkew s x1 x2).pending = s.pending := by
  unfold State.moveSkew
  simp

@[simp] theorem State.setRef_inv (s : State) (x1 : ℕ) (x2 : ℤ) (x3 : Bool) : (State.setRef s x1 x2 x3).Inv ↔ s.Inv := inv_of_parts (by simp) (by simp)

@[simp] theorem State.bgHit_inv (s : State) (x1 : ℕ) (x2 : ℕ) : (State.bgHit s x1 x2).Inv ↔ s.Inv := inv_of_parts (by simp) (by simp)

@[simp] theorem State.offerRaw_inv (s : State) (x1 : ℕ) (x2 : CapRec) : (State.offerRaw s x1 x2).Inv ↔ s.Inv := inv_of_parts (by simp) (by simp)

@[simp] theorem State.releaseRaw_inv (s : State) : (State.releaseRaw s).Inv ↔ s.Inv := inv_of_parts (by simp) (by simp)

@[simp] theorem State.jigHit_inv (s : State) (x1 : ℕ) (x2 : ℕ) (x3 : GWin) (x4 : PWin) (x5 : Edge) (h : s.Inv) : (State.jigHit s x1 x2 x3 x4 x5).Inv := by
  unfold State.jigHit
  simp (maxDischargeDepth := 100) [h]

@[simp] theorem State.tapEdge_inv (s : State) (x1 : ℕ) (x2 : ℤ) (h : s.Inv) : (State.tapEdge s x1 x2).Inv := by
  unfold State.tapEdge
  (repeat' (first | (split; rename_i heq; have h1 := congrArg Prod.fst heq; have h2 := congrArg Prod.snd heq; dsimp only at h1 h2; (try subst h1); (try subst h2)) | split)) <;> simp +contextual (maxDischargeDepth := 100) [h]

@[simp] theorem State.densityHit_inv (s : State) (x1 : ℕ) (x2 : Edge) (h : s.Inv) : (State.densityHit s x1 x2).Inv := by
  unfold State.densityHit
  (repeat' (first | (split; rename_i heq; have h1 := congrArg Prod.fst heq; have h2 := congrArg Prod.snd heq; dsimp only at h1 h2; (try subst h1); (try subst h2)) | split)) <;> simp +contextual (maxDischargeDepth := 100) [h]

@[simp] theorem State.tdcEdge_inv (s : State) (x1 : ℕ) (x2 : TdcCode) (x3 : Edge) (h : s.Inv) : (State.tdcEdge s x1 x2 x3).Inv := by
  unfold State.tdcEdge
  dsimp only
  (repeat' (first | (split; rename_i heq; have h1 := congrArg Prod.fst heq; have h2 := congrArg Prod.snd heq; dsimp only at h1 h2; (try subst h1); (try subst h2)) | split)) <;> simp +contextual (maxDischargeDepth := 100) [h]

@[simp] theorem State.writePchk_inv (s : State) (x1 : ℕ) (x2 : PWin) (x3 : WinPost) (h : s.Inv) : (State.writePchk s x1 x2 x3).Inv := by
  unfold State.writePchk
  simp (maxDischargeDepth := 100) [h]

@[simp] theorem State.judgeSpare_inv (s : State) (x1 : ℕ) (x2 : Bool) (h : s.Inv) : (State.judgeSpare s x1 x2).Inv := by
  unfold State.judgeSpare
  simp (maxDischargeDepth := 100) [h]

@[simp] theorem State.judgeCheck_inv (s : State) (x1 : GWin) (x2 : WinPost) (x3 : ℕ × PWin) (h : s.Inv) : (State.judgeCheck s x1 x2 x3).Inv := by
  unfold State.judgeCheck
  (repeat' (first | (split; rename_i heq; have h1 := congrArg Prod.fst heq; have h2 := congrArg Prod.snd heq; dsimp only at h1 h2; (try subst h1); (try subst h2)) | split)) <;> simp +contextual (maxDischargeDepth := 100) [h]

@[simp] theorem State.addSkew_inv (s : State) (x1 : ℕ) (x2 : ℤ) : (State.addSkew s x1 x2).Inv ↔ s.Inv := inv_of_parts (by simp) (by simp)

@[simp] theorem State.skewHit_inv (s : State) (x1 : WinPost) (x2 : ℕ × PWin) : (State.skewHit s x1 x2).Inv ↔ s.Inv := inv_of_parts (by simp) (by simp)

@[simp] theorem State.threshOf_inv (s : State) (x1 : GWin) (x2 : WinPost) (x3 : ℕ × PWin) (h : s.Inv) : (State.threshOf s x1 x2 x3).Inv := by
  unfold State.threshOf
  (repeat' (first | (split; rename_i heq; have h1 := congrArg Prod.fst heq; have h2 := congrArg Prod.snd heq; dsimp only at h1 h2; (try subst h1); (try subst h2)) | split)) <;> simp +contextual (maxDischargeDepth := 100) [h]

@[simp] theorem State.evalCal_inv (s : State) (x1 : GWin) (x2 : WinPost) (h : s.Inv) : (State.evalCal s x1 x2).Inv := by
  unfold State.evalCal
  simp +contextual (maxDischargeDepth := 100) [h]

@[simp] theorem State.countShot_inv (s : State) (x1 : ℕ) (x2 : PWin) (h : s.Inv) : (State.countShot s x1 x2).Inv := by
  unfold State.countShot
  simp (maxDischargeDepth := 100) [h]

@[simp] theorem State.listenRecord_inv (s : State) (x1 : GWin) (x2 : WinPost) (x3 : ℕ) (x4 : PWin) : (State.listenRecord s x1 x2 x3 x4).Inv ↔ s.Inv := inv_of_parts (by simp) (by simp)

@[simp] theorem State.closeUnit_inv (s : State) (x1 : GWin) (x2 : ℕ) (x3 : ℕ) (x4 : PWin) (h : s.Inv) : (State.closeUnit s x1 x2 x3 x4).Inv := by
  unfold State.closeUnit
  (repeat' (first | (split; rename_i heq; have h1 := congrArg Prod.fst heq; have h2 := congrArg Prod.snd heq; dsimp only at h1 h2; (try subst h1); (try subst h2)) | split)) <;> simp +contextual (maxDischargeDepth := 100) [h]

@[simp] theorem State.offerUnit_inv (s : State) (x1 : GWin) (x2 : ℕ × PWin) : (State.offerUnit s x1 x2).Inv ↔ s.Inv := inv_of_parts (by simp) (by simp)

@[simp] theorem State.closeGroup_inv (s : State) (x1 : ℕ) (x2 : GWin) (h : s.Inv) : (State.closeGroup s x1 x2).Inv := by
  unfold State.closeGroup
  (repeat' (first | (split; rename_i heq; have h1 := congrArg Prod.fst heq; have h2 := congrArg Prod.snd heq; dsimp only at h1 h2; (try subst h1); (try subst h2)) | split)) <;> simp +contextual (maxDischargeDepth := 100) [h]

@[simp] theorem State.startFails_inv (s : State) (x1 : ℕ) (h : s.Inv) : (State.startFails s x1).Inv := by
  unfold State.startFails
  simp (maxDischargeDepth := 100) [h]

@[simp] theorem State.moveSkew_inv (s : State) (x1 : ℕ) (x2 : ℤ) (h : s.Inv) : (State.moveSkew s x1 x2).Inv := by
  unfold State.moveSkew
  simp (maxDischargeDepth := 100) [h]

/-! ### Control -/

@[simp] theorem State.takeBank_frame (s : State) (x1 : ℕ) :
    (State.takeBank s x1).clk = s.clk ∧ (State.takeBank s x1).tofs = s.tofs ∧ (State.takeBank s x1).dev = s.dev ∧
    (State.takeBank s x1).mgmt = s.mgmt ∧ (State.takeBank s x1).seq = s.seq ∧ (State.takeBank s x1).edu = s.edu ∧
    (State.takeBank s x1).rta = s.rta ∧ (State.takeBank s x1).rpe = s.rpe ∧ (State.takeBank s x1).stu = s.stu ∧
    (State.takeBank s x1).saf = s.saf ∧ (State.takeBank s x1).cap = s.cap ∧ (State.takeBank s x1).fso = s.fso ∧
    (State.takeBank s x1).cmp = s.cmp ∧ (State.takeBank s x1).mem = s.mem ∧ (State.takeBank s x1).lnk = s.lnk ∧
    (State.takeBank s x1).tbu = s.tbu ∧ (State.takeBank s x1).hk = s.hk ∧ (State.takeBank s x1).boot = s.boot ∧
    (State.takeBank s x1).out = s.out ∧ (State.takeBank s x1).goodAt = s.goodAt ∧ (State.takeBank s x1).free = s.free ∧
    (State.takeBank s x1).pending = s.pending := by
  unfold State.takeBank
  simp

@[simp] theorem State.writeBsel_frame (s : State) (x1 : ℕ) (x2 : Bool) :
    (State.writeBsel s x1 x2).clk = s.clk ∧ (State.writeBsel s x1 x2).tofs = s.tofs ∧
    (State.writeBsel s x1 x2).dev = s.dev ∧ (State.writeBsel s x1 x2).mgmt = s.mgmt ∧
    (State.writeBsel s x1 x2).seq = s.seq ∧ (State.writeBsel s x1 x2).edu = s.edu ∧ (State.writeBsel s x1 x2).rta = s.rta ∧
    (State.writeBsel s x1 x2).rpe = s.rpe ∧ (State.writeBsel s x1 x2).saf = s.saf ∧ (State.writeBsel s x1 x2).cap = s.cap ∧
    (State.writeBsel s x1 x2).fso = s.fso ∧ (State.writeBsel s x1 x2).cmp = s.cmp ∧ (State.writeBsel s x1 x2).mem = s.mem ∧
    (State.writeBsel s x1 x2).lnk = s.lnk ∧ (State.writeBsel s x1 x2).tbu = s.tbu ∧ (State.writeBsel s x1 x2).hk = s.hk ∧
    (State.writeBsel s x1 x2).boot = s.boot ∧ (State.writeBsel s x1 x2).out = s.out ∧
    (State.writeBsel s x1 x2).goodAt = s.goodAt ∧ (State.writeBsel s x1 x2).free = s.free ∧
    (State.writeBsel s x1 x2).pending = s.pending := by
  unfold State.writeBsel
  simp

@[simp] theorem State.noteSpt_frame (s : State) (x1 : ℕ) (x2 : Loop) :
    (State.noteSpt s x1 x2).clk = s.clk ∧ (State.noteSpt s x1 x2).tofs = s.tofs ∧ (State.noteSpt s x1 x2).dev = s.dev ∧
    (State.noteSpt s x1 x2).mgmt = s.mgmt ∧ (State.noteSpt s x1 x2).seq = s.seq ∧ (State.noteSpt s x1 x2).edu = s.edu ∧
    (State.noteSpt s x1 x2).rta = s.rta ∧ (State.noteSpt s x1 x2).rpe = s.rpe ∧ (State.noteSpt s x1 x2).stu = s.stu ∧
    (State.noteSpt s x1 x2).saf = s.saf ∧ (State.noteSpt s x1 x2).cap = s.cap ∧ (State.noteSpt s x1 x2).fso = s.fso ∧
    (State.noteSpt s x1 x2).cmp = s.cmp ∧ (State.noteSpt s x1 x2).mem = s.mem ∧ (State.noteSpt s x1 x2).lnk = s.lnk ∧
    (State.noteSpt s x1 x2).tbu = s.tbu ∧ (State.noteSpt s x1 x2).hk = s.hk ∧ (State.noteSpt s x1 x2).boot = s.boot ∧
    (State.noteSpt s x1 x2).out = s.out ∧ (State.noteSpt s x1 x2).goodAt = s.goodAt ∧
    (State.noteSpt s x1 x2).free = s.free ∧ (State.noteSpt s x1 x2).pending = s.pending := by
  unfold State.noteSpt
  simp

@[simp] theorem State.sampleL1_frame (s : State) (x1 : ℤ) :
    (State.sampleL1 s x1).clk = s.clk ∧ (State.sampleL1 s x1).tofs = s.tofs ∧ (State.sampleL1 s x1).dev = s.dev ∧
    (State.sampleL1 s x1).mgmt = s.mgmt ∧ (State.sampleL1 s x1).seq = s.seq ∧ (State.sampleL1 s x1).edu = s.edu ∧
    (State.sampleL1 s x1).rta = s.rta ∧ (State.sampleL1 s x1).rpe = s.rpe ∧ (State.sampleL1 s x1).saf = s.saf ∧
    (State.sampleL1 s x1).cap = s.cap ∧ (State.sampleL1 s x1).fso = s.fso ∧ (State.sampleL1 s x1).cmp = s.cmp ∧
    (State.sampleL1 s x1).mem = s.mem ∧ (State.sampleL1 s x1).lnk = s.lnk ∧ (State.sampleL1 s x1).tbu = s.tbu ∧
    (State.sampleL1 s x1).hk = s.hk ∧ (State.sampleL1 s x1).boot = s.boot ∧ (State.sampleL1 s x1).out = s.out ∧
    (State.sampleL1 s x1).goodAt = s.goodAt ∧ (State.sampleL1 s x1).free = s.free ∧
    (State.sampleL1 s x1).pending = s.pending := by
  unfold State.sampleL1
  simp

@[simp] theorem State.sampleL0_frame (s : State) (x1 : ℤ) :
    (State.sampleL0 s x1).clk = s.clk ∧ (State.sampleL0 s x1).tofs = s.tofs ∧ (State.sampleL0 s x1).dev = s.dev ∧
    (State.sampleL0 s x1).mgmt = s.mgmt ∧ (State.sampleL0 s x1).seq = s.seq ∧ (State.sampleL0 s x1).edu = s.edu ∧
    (State.sampleL0 s x1).rta = s.rta ∧ (State.sampleL0 s x1).rpe = s.rpe ∧ (State.sampleL0 s x1).saf = s.saf ∧
    (State.sampleL0 s x1).cap = s.cap ∧ (State.sampleL0 s x1).fso = s.fso ∧ (State.sampleL0 s x1).cmp = s.cmp ∧
    (State.sampleL0 s x1).mem = s.mem ∧ (State.sampleL0 s x1).lnk = s.lnk ∧ (State.sampleL0 s x1).tbu = s.tbu ∧
    (State.sampleL0 s x1).hk = s.hk ∧ (State.sampleL0 s x1).boot = s.boot ∧ (State.sampleL0 s x1).out = s.out ∧
    (State.sampleL0 s x1).goodAt = s.goodAt ∧ (State.sampleL0 s x1).free = s.free ∧
    (State.sampleL0 s x1).pending = s.pending := by
  unfold State.sampleL0
  simp

@[simp] theorem State.followHv_frame (s : State) :
    (State.followHv s).clk = s.clk ∧ (State.followHv s).tofs = s.tofs ∧ (State.followHv s).dev = s.dev ∧
    (State.followHv s).mgmt = s.mgmt ∧ (State.followHv s).seq = s.seq ∧ (State.followHv s).edu = s.edu ∧
    (State.followHv s).rta = s.rta ∧ (State.followHv s).rpe = s.rpe ∧ (State.followHv s).saf = s.saf ∧
    (State.followHv s).cap = s.cap ∧ (State.followHv s).fso = s.fso ∧ (State.followHv s).cmp = s.cmp ∧
    (State.followHv s).mem = s.mem ∧ (State.followHv s).lnk = s.lnk ∧ (State.followHv s).tbu = s.tbu ∧
    (State.followHv s).hk = s.hk ∧ (State.followHv s).boot = s.boot ∧ (State.followHv s).out = s.out ∧
    (State.followHv s).goodAt = s.goodAt ∧ (State.followHv s).free = s.free ∧ (State.followHv s).pending = s.pending := by
  unfold State.followHv
  simp

@[simp] theorem State.startL1_frame (s : State) :
    (State.startL1 s).clk = s.clk ∧ (State.startL1 s).tofs = s.tofs ∧ (State.startL1 s).dev = s.dev ∧
    (State.startL1 s).regs = s.regs ∧ (State.startL1 s).mgmt = s.mgmt ∧ (State.startL1 s).seq = s.seq ∧
    (State.startL1 s).edu = s.edu ∧ (State.startL1 s).rta = s.rta ∧ (State.startL1 s).rpe = s.rpe ∧
    (State.startL1 s).saf = s.saf ∧ (State.startL1 s).cap = s.cap ∧ (State.startL1 s).fso = s.fso ∧
    (State.startL1 s).cmp = s.cmp ∧ (State.startL1 s).mem = s.mem ∧ (State.startL1 s).lnk = s.lnk ∧
    (State.startL1 s).tbu = s.tbu ∧ (State.startL1 s).hk = s.hk ∧ (State.startL1 s).boot = s.boot ∧
    (State.startL1 s).out = s.out ∧ (State.startL1 s).goodAt = s.goodAt ∧ (State.startL1 s).free = s.free ∧
    (State.startL1 s).pending = s.pending := by
  unfold State.startL1
  simp

@[simp] theorem State.takeBank_inv (s : State) (x1 : ℕ) (h : s.Inv) : (State.takeBank s x1).Inv := by
  unfold State.takeBank
  simp (maxDischargeDepth := 100) [h]

@[simp] theorem State.writeBsel_inv (s : State) (x1 : ℕ) (x2 : Bool) (h : s.Inv) : (State.writeBsel s x1 x2).Inv := by
  unfold State.writeBsel
  simp (maxDischargeDepth := 100) [h]

@[simp] theorem State.noteSpt_inv (s : State) (x1 : ℕ) (x2 : Loop) (h : s.Inv) : (State.noteSpt s x1 x2).Inv := by
  unfold State.noteSpt
  simp (maxDischargeDepth := 100) [h]

@[simp] theorem State.sampleL1_inv (s : State) (x1 : ℤ) (h : s.Inv) : (State.sampleL1 s x1).Inv := by
  unfold State.sampleL1
  simp (maxDischargeDepth := 100) [h]

@[simp] theorem State.sampleL0_inv (s : State) (x1 : ℤ) (h : s.Inv) : (State.sampleL0 s x1).Inv := by
  unfold State.sampleL0
  simp (maxDischargeDepth := 100) [h]

@[simp] theorem State.followHv_inv (s : State) (h : s.Inv) : (State.followHv s).Inv := by
  unfold State.followHv
  simp (maxDischargeDepth := 100) [h]

@[simp] theorem State.startL1_inv (s : State) : (State.startL1 s).Inv ↔ s.Inv := inv_of_parts (by simp) (by simp)

/-! ### Emitter -/

@[simp] theorem State.pruneShots_frame (s : State) :
    (State.pruneShots s).clk = s.clk ∧ (State.pruneShots s).tofs = s.tofs ∧ (State.pruneShots s).dev = s.dev ∧
    (State.pruneShots s).regs = s.regs ∧ (State.pruneShots s).mgmt = s.mgmt ∧ (State.pruneShots s).seq = s.seq ∧
    (State.pruneShots s).rta = s.rta ∧ (State.pruneShots s).rpe = s.rpe ∧ (State.pruneShots s).stu = s.stu ∧
    (State.pruneShots s).saf = s.saf ∧ (State.pruneShots s).cap = s.cap ∧ (State.pruneShots s).fso = s.fso ∧
    (State.pruneShots s).cmp = s.cmp ∧ (State.pruneShots s).mem = s.mem ∧ (State.pruneShots s).lnk = s.lnk ∧
    (State.pruneShots s).tbu = s.tbu ∧ (State.pruneShots s).hk = s.hk ∧ (State.pruneShots s).boot = s.boot ∧
    (State.pruneShots s).out = s.out ∧ (State.pruneShots s).goodAt = s.goodAt ∧ (State.pruneShots s).free = s.free ∧
    (State.pruneShots s).pending = s.pending := by
  unfold State.pruneShots
  simp

@[simp] theorem State.govern_frame (s : State) (x1 : ℕ) (x2 : Bool) :
    (State.govern s x1 x2).2.clk = s.clk ∧ (State.govern s x1 x2).2.tofs = s.tofs ∧ (State.govern s x1 x2).2.dev = s.dev ∧
    (State.govern s x1 x2).2.mgmt = s.mgmt ∧ (State.govern s x1 x2).2.seq = s.seq ∧ (State.govern s x1 x2).2.rta = s.rta ∧
    (State.govern s x1 x2).2.rpe = s.rpe ∧ (State.govern s x1 x2).2.stu = s.stu ∧ (State.govern s x1 x2).2.saf = s.saf ∧
    (State.govern s x1 x2).2.cap = s.cap ∧ (State.govern s x1 x2).2.fso = s.fso ∧ (State.govern s x1 x2).2.cmp = s.cmp ∧
    (State.govern s x1 x2).2.mem = s.mem ∧ (State.govern s x1 x2).2.lnk = s.lnk ∧ (State.govern s x1 x2).2.tbu = s.tbu ∧
    (State.govern s x1 x2).2.hk = s.hk ∧ (State.govern s x1 x2).2.boot = s.boot ∧ (State.govern s x1 x2).2.out = s.out ∧
    (State.govern s x1 x2).2.goodAt = s.goodAt ∧ (State.govern s x1 x2).2.free = s.free ∧
    (State.govern s x1 x2).2.pending = s.pending := by
  unfold State.govern
  simp

@[simp] theorem State.slotCheck_frame (s : State) (x1 : Fire) :
    (State.slotCheck s x1).clk = s.clk ∧ (State.slotCheck s x1).tofs = s.tofs ∧ (State.slotCheck s x1).dev = s.dev ∧
    (State.slotCheck s x1).seq = s.seq ∧ (State.slotCheck s x1).edu = s.edu ∧ (State.slotCheck s x1).rta = s.rta ∧
    (State.slotCheck s x1).rpe = s.rpe ∧ (State.slotCheck s x1).stu = s.stu ∧ (State.slotCheck s x1).cap = s.cap ∧
    (State.slotCheck s x1).fso = s.fso ∧ (State.slotCheck s x1).cmp = s.cmp ∧ (State.slotCheck s x1).mem = s.mem ∧
    (State.slotCheck s x1).tbu = s.tbu ∧ (State.slotCheck s x1).hk = s.hk ∧ (State.slotCheck s x1).boot = s.boot ∧
    (State.slotCheck s x1).goodAt = s.goodAt ∧ (State.slotCheck s x1).free = s.free ∧
    (State.slotCheck s x1).pending = s.pending := by
  unfold State.slotCheck
  simp

@[simp] theorem State.openFire_frame (s : State) (x1 : Fire) (x2 : Bool) (x3 : ℕ) (x4 : Bool) :
    (State.openFire s x1 x2 x3 x4).clk = s.clk ∧ (State.openFire s x1 x2 x3 x4).tofs = s.tofs ∧
    (State.openFire s x1 x2 x3 x4).dev = s.dev ∧ (State.openFire s x1 x2 x3 x4).seq = s.seq ∧
    (State.openFire s x1 x2 x3 x4).edu = s.edu ∧ (State.openFire s x1 x2 x3 x4).stu = s.stu ∧
    (State.openFire s x1 x2 x3 x4).cmp = s.cmp ∧ (State.openFire s x1 x2 x3 x4).mem = s.mem ∧
    (State.openFire s x1 x2 x3 x4).tbu = s.tbu ∧ (State.openFire s x1 x2 x3 x4).hk = s.hk ∧
    (State.openFire s x1 x2 x3 x4).boot = s.boot ∧ (State.openFire s x1 x2 x3 x4).goodAt = s.goodAt ∧
    (State.openFire s x1 x2 x3 x4).free = s.free ∧ (State.openFire s x1 x2 x3 x4).pending = s.pending := by
  unfold State.openFire
  dsimp only
  (repeat' (first | (split; rename_i heq; have h1 := congrArg Prod.fst heq; have h2 := congrArg Prod.snd heq; dsimp only at h1 h2; (try subst h1); (try subst h2)) | split)) <;> simp

@[simp] theorem State.fireRow_frame (s : State) (x1 : Fire) (x2 : Bool) :
    (State.fireRow s x1 x2).clk = s.clk ∧ (State.fireRow s x1 x2).tofs = s.tofs ∧ (State.fireRow s x1 x2).dev = s.dev ∧
    (State.fireRow s x1 x2).stu = s.stu ∧ (State.fireRow s x1 x2).cmp = s.cmp ∧ (State.fireRow s x1 x2).mem = s.mem ∧
    (State.fireRow s x1 x2).tbu = s.tbu ∧ (State.fireRow s x1 x2).hk = s.hk ∧ (State.fireRow s x1 x2).boot = s.boot ∧
    (State.fireRow s x1 x2).goodAt = s.goodAt ∧ (State.fireRow s x1 x2).free = s.free ∧
    (State.fireRow s x1 x2).pending = s.pending := by
  unfold State.fireRow
  simp

@[simp] theorem State.noteSeedStart_frame (s : State) (x1 : ℕ) (x2 : ℤ) :
    (State.noteSeedStart s x1 x2).clk = s.clk ∧ (State.noteSeedStart s x1 x2).tofs = s.tofs ∧
    (State.noteSeedStart s x1 x2).dev = s.dev ∧ (State.noteSeedStart s x1 x2).regs = s.regs ∧
    (State.noteSeedStart s x1 x2).mgmt = s.mgmt ∧ (State.noteSeedStart s x1 x2).seq = s.seq ∧
    (State.noteSeedStart s x1 x2).edu = s.edu ∧ (State.noteSeedStart s x1 x2).rpe = s.rpe ∧
    (State.noteSeedStart s x1 x2).stu = s.stu ∧ (State.noteSeedStart s x1 x2).saf = s.saf ∧
    (State.noteSeedStart s x1 x2).cap = s.cap ∧ (State.noteSeedStart s x1 x2).fso = s.fso ∧
    (State.noteSeedStart s x1 x2).cmp = s.cmp ∧ (State.noteSeedStart s x1 x2).mem = s.mem ∧
    (State.noteSeedStart s x1 x2).lnk = s.lnk ∧ (State.noteSeedStart s x1 x2).tbu = s.tbu ∧
    (State.noteSeedStart s x1 x2).hk = s.hk ∧ (State.noteSeedStart s x1 x2).boot = s.boot ∧
    (State.noteSeedStart s x1 x2).out = s.out ∧ (State.noteSeedStart s x1 x2).goodAt = s.goodAt ∧
    (State.noteSeedStart s x1 x2).free = s.free ∧ (State.noteSeedStart s x1 x2).pending = s.pending := by
  unfold State.noteSeedStart
  simp

@[simp] theorem State.ratio_frame (s : State) (x1 : ℕ) (x2 : ℕ) :
    (State.ratio s x1 x2).2.clk = s.clk ∧ (State.ratio s x1 x2).2.tofs = s.tofs ∧ (State.ratio s x1 x2).2.dev = s.dev ∧
    (State.ratio s x1 x2).2.regs = s.regs ∧ (State.ratio s x1 x2).2.mgmt = s.mgmt ∧ (State.ratio s x1 x2).2.seq = s.seq ∧
    (State.ratio s x1 x2).2.edu = s.edu ∧ (State.ratio s x1 x2).2.rta = s.rta ∧ (State.ratio s x1 x2).2.rpe = s.rpe ∧
    (State.ratio s x1 x2).2.stu = s.stu ∧ (State.ratio s x1 x2).2.saf = s.saf ∧ (State.ratio s x1 x2).2.cap = s.cap ∧
    (State.ratio s x1 x2).2.fso = s.fso ∧ (State.ratio s x1 x2).2.cmp = s.cmp ∧ (State.ratio s x1 x2).2.mem = s.mem ∧
    (State.ratio s x1 x2).2.lnk = s.lnk ∧ (State.ratio s x1 x2).2.tbu = s.tbu ∧ (State.ratio s x1 x2).2.hk = s.hk ∧
    (State.ratio s x1 x2).2.boot = s.boot ∧ (State.ratio s x1 x2).2.out = s.out ∧
    (State.ratio s x1 x2).2.goodAt = s.goodAt ∧ (State.ratio s x1 x2).2.pending = s.pending := by
  unfold State.ratio
  simp

@[simp] theorem State.l2Step_frame (s : State) (x1 : ℕ) (x2 : L2Row) (x3 : Bool) :
    (State.l2Step s x1 x2 x3).clk = s.clk ∧ (State.l2Step s x1 x2 x3).tofs = s.tofs ∧
    (State.l2Step s x1 x2 x3).dev = s.dev ∧ (State.l2Step s x1 x2 x3).seq = s.seq ∧ (State.l2Step s x1 x2 x3).rta = s.rta ∧
    (State.l2Step s x1 x2 x3).rpe = s.rpe ∧ (State.l2Step s x1 x2 x3).stu = s.stu ∧ (State.l2Step s x1 x2 x3).cap = s.cap ∧
    (State.l2Step s x1 x2 x3).fso = s.fso ∧ (State.l2Step s x1 x2 x3).cmp = s.cmp ∧ (State.l2Step s x1 x2 x3).mem = s.mem ∧
    (State.l2Step s x1 x2 x3).tbu = s.tbu ∧ (State.l2Step s x1 x2 x3).hk = s.hk ∧ (State.l2Step s x1 x2 x3).boot = s.boot ∧
    (State.l2Step s x1 x2 x3).goodAt = s.goodAt ∧ (State.l2Step s x1 x2 x3).free = s.free ∧
    (State.l2Step s x1 x2 x3).pending = s.pending := by
  unfold State.l2Step
  simp

@[simp] theorem State.limitAdj_frame (s : State) (x1 : ℕ) :
    (State.limitAdj s x1).clk = s.clk ∧ (State.limitAdj s x1).tofs = s.tofs ∧ (State.limitAdj s x1).dev = s.dev ∧
    (State.limitAdj s x1).mgmt = s.mgmt ∧ (State.limitAdj s x1).seq = s.seq ∧ (State.limitAdj s x1).rta = s.rta ∧
    (State.limitAdj s x1).rpe = s.rpe ∧ (State.limitAdj s x1).stu = s.stu ∧ (State.limitAdj s x1).saf = s.saf ∧
    (State.limitAdj s x1).cap = s.cap ∧ (State.limitAdj s x1).fso = s.fso ∧ (State.limitAdj s x1).cmp = s.cmp ∧
    (State.limitAdj s x1).mem = s.mem ∧ (State.limitAdj s x1).lnk = s.lnk ∧ (State.limitAdj s x1).tbu = s.tbu ∧
    (State.limitAdj s x1).hk = s.hk ∧ (State.limitAdj s x1).boot = s.boot ∧ (State.limitAdj s x1).out = s.out ∧
    (State.limitAdj s x1).goodAt = s.goodAt ∧ (State.limitAdj s x1).free = s.free ∧
    (State.limitAdj s x1).pending = s.pending := by
  unfold State.limitAdj
  simp

@[simp] theorem State.l2Sample_frame (s : State) (x1 : ℕ) (x2 : ℚ) :
    (State.l2Sample s x1 x2).clk = s.clk ∧ (State.l2Sample s x1 x2).tofs = s.tofs ∧ (State.l2Sample s x1 x2).dev = s.dev ∧
    (State.l2Sample s x1 x2).seq = s.seq ∧ (State.l2Sample s x1 x2).rta = s.rta ∧ (State.l2Sample s x1 x2).rpe = s.rpe ∧
    (State.l2Sample s x1 x2).stu = s.stu ∧ (State.l2Sample s x1 x2).cap = s.cap ∧ (State.l2Sample s x1 x2).fso = s.fso ∧
    (State.l2Sample s x1 x2).cmp = s.cmp ∧ (State.l2Sample s x1 x2).mem = s.mem ∧ (State.l2Sample s x1 x2).tbu = s.tbu ∧
    (State.l2Sample s x1 x2).hk = s.hk ∧ (State.l2Sample s x1 x2).boot = s.boot ∧
    (State.l2Sample s x1 x2).goodAt = s.goodAt ∧ (State.l2Sample s x1 x2).free = s.free ∧
    (State.l2Sample s x1 x2).pending = s.pending := by
  unfold State.l2Sample
  dsimp only
  (repeat' (first | (split; rename_i heq; have h1 := congrArg Prod.fst heq; have h2 := congrArg Prod.snd heq; dsimp only at h1 h2; (try subst h1); (try subst h2)) | split)) <;> simp

@[simp] theorem State.addExcess_frame (s : State) (x1 : ℕ) (x2 : ℕ) :
    (State.addExcess s x1 x2).clk = s.clk ∧ (State.addExcess s x1 x2).tofs = s.tofs ∧
    (State.addExcess s x1 x2).dev = s.dev ∧ (State.addExcess s x1 x2).regs = s.regs ∧
    (State.addExcess s x1 x2).mgmt = s.mgmt ∧ (State.addExcess s x1 x2).seq = s.seq ∧
    (State.addExcess s x1 x2).rta = s.rta ∧ (State.addExcess s x1 x2).rpe = s.rpe ∧ (State.addExcess s x1 x2).stu = s.stu ∧
    (State.addExcess s x1 x2).saf = s.saf ∧ (State.addExcess s x1 x2).cap = s.cap ∧ (State.addExcess s x1 x2).fso = s.fso ∧
    (State.addExcess s x1 x2).cmp = s.cmp ∧ (State.addExcess s x1 x2).mem = s.mem ∧ (State.addExcess s x1 x2).lnk = s.lnk ∧
    (State.addExcess s x1 x2).tbu = s.tbu ∧ (State.addExcess s x1 x2).hk = s.hk ∧ (State.addExcess s x1 x2).boot = s.boot ∧
    (State.addExcess s x1 x2).out = s.out ∧ (State.addExcess s x1 x2).goodAt = s.goodAt ∧
    (State.addExcess s x1 x2).free = s.free ∧ (State.addExcess s x1 x2).pending = s.pending := by
  unfold State.addExcess
  simp

@[simp] theorem State.movingToken_frame (s : State) :
    (State.movingToken s).clk = s.clk ∧ (State.movingToken s).tofs = s.tofs ∧ (State.movingToken s).dev = s.dev ∧
    (State.movingToken s).regs = s.regs ∧ (State.movingToken s).mgmt = s.mgmt ∧ (State.movingToken s).seq = s.seq ∧
    (State.movingToken s).rta = s.rta ∧ (State.movingToken s).rpe = s.rpe ∧ (State.movingToken s).stu = s.stu ∧
    (State.movingToken s).saf = s.saf ∧ (State.movingToken s).cap = s.cap ∧ (State.movingToken s).fso = s.fso ∧
    (State.movingToken s).cmp = s.cmp ∧ (State.movingToken s).mem = s.mem ∧ (State.movingToken s).lnk = s.lnk ∧
    (State.movingToken s).tbu = s.tbu ∧ (State.movingToken s).hk = s.hk ∧ (State.movingToken s).boot = s.boot ∧
    (State.movingToken s).out = s.out ∧ (State.movingToken s).goodAt = s.goodAt ∧ (State.movingToken s).free = s.free ∧
    (State.movingToken s).pending = s.pending := by
  unfold State.movingToken
  simp

@[simp] theorem State.movingStop_frame (s : State) :
    (State.movingStop s).clk = s.clk ∧ (State.movingStop s).tofs = s.tofs ∧ (State.movingStop s).dev = s.dev ∧
    (State.movingStop s).regs = s.regs ∧ (State.movingStop s).mgmt = s.mgmt ∧ (State.movingStop s).seq = s.seq ∧
    (State.movingStop s).rta = s.rta ∧ (State.movingStop s).rpe = s.rpe ∧ (State.movingStop s).stu = s.stu ∧
    (State.movingStop s).saf = s.saf ∧ (State.movingStop s).cap = s.cap ∧ (State.movingStop s).fso = s.fso ∧
    (State.movingStop s).cmp = s.cmp ∧ (State.movingStop s).mem = s.mem ∧ (State.movingStop s).lnk = s.lnk ∧
    (State.movingStop s).tbu = s.tbu ∧ (State.movingStop s).hk = s.hk ∧ (State.movingStop s).boot = s.boot ∧
    (State.movingStop s).out = s.out ∧ (State.movingStop s).goodAt = s.goodAt ∧ (State.movingStop s).free = s.free ∧
    (State.movingStop s).pending = s.pending := by
  unfold State.movingStop
  simp

@[simp] theorem State.rowCleared_frame (s : State) (x1 : ℕ) :
    (State.rowCleared s x1).clk = s.clk ∧ (State.rowCleared s x1).tofs = s.tofs ∧ (State.rowCleared s x1).dev = s.dev ∧
    (State.rowCleared s x1).regs = s.regs ∧ (State.rowCleared s x1).mgmt = s.mgmt ∧ (State.rowCleared s x1).seq = s.seq ∧
    (State.rowCleared s x1).rta = s.rta ∧ (State.rowCleared s x1).rpe = s.rpe ∧ (State.rowCleared s x1).stu = s.stu ∧
    (State.rowCleared s x1).saf = s.saf ∧ (State.rowCleared s x1).cap = s.cap ∧ (State.rowCleared s x1).fso = s.fso ∧
    (State.rowCleared s x1).cmp = s.cmp ∧ (State.rowCleared s x1).mem = s.mem ∧ (State.rowCleared s x1).lnk = s.lnk ∧
    (State.rowCleared s x1).tbu = s.tbu ∧ (State.rowCleared s x1).hk = s.hk ∧ (State.rowCleared s x1).boot = s.boot ∧
    (State.rowCleared s x1).out = s.out ∧ (State.rowCleared s x1).goodAt = s.goodAt ∧
    (State.rowCleared s x1).free = s.free ∧ (State.rowCleared s x1).pending = s.pending := by
  unfold State.rowCleared
  simp

@[simp] theorem State.faultCleared_frame (s : State) (x1 : Word) :
    (State.faultCleared s x1).clk = s.clk ∧ (State.faultCleared s x1).tofs = s.tofs ∧
    (State.faultCleared s x1).dev = s.dev ∧ (State.faultCleared s x1).seq = s.seq ∧ (State.faultCleared s x1).rta = s.rta ∧
    (State.faultCleared s x1).rpe = s.rpe ∧ (State.faultCleared s x1).fso = s.fso ∧ (State.faultCleared s x1).cmp = s.cmp ∧
    (State.faultCleared s x1).mem = s.mem ∧ (State.faultCleared s x1).tbu = s.tbu ∧ (State.faultCleared s x1).hk = s.hk ∧
    (State.faultCleared s x1).boot = s.boot ∧ (State.faultCleared s x1).goodAt = s.goodAt ∧
    (State.faultCleared s x1).free = s.free ∧ (State.faultCleared s x1).pending = s.pending := by
  unfold State.faultCleared
  simp

@[simp] theorem State.pruneShots_inv (s : State) : (State.pruneShots s).Inv ↔ s.Inv := inv_of_parts (by simp) (by simp)

@[simp] theorem State.govern_inv (s : State) (x1 : ℕ) (x2 : Bool) (h : s.Inv) : (State.govern s x1 x2).2.Inv := by
  unfold State.govern
  simp +contextual (maxDischargeDepth := 100) [h]

@[simp] theorem State.slotCheck_inv (s : State) (x1 : Fire) (h : s.Inv) : (State.slotCheck s x1).Inv := by
  unfold State.slotCheck
  simp (maxDischargeDepth := 100) [h]

@[simp] theorem State.openFire_inv (s : State) (x1 : Fire) (x2 : Bool) (x3 : ℕ) (x4 : Bool) (h : s.Inv) : (State.openFire s x1 x2 x3 x4).Inv := by
  unfold State.openFire
  dsimp only
  (repeat' (first | (split; rename_i heq; have h1 := congrArg Prod.fst heq; have h2 := congrArg Prod.snd heq; dsimp only at h1 h2; (try subst h1); (try subst h2)) | split)) <;> simp +contextual (maxDischargeDepth := 100) [h]

@[simp] theorem State.fireRow_inv (s : State) (x1 : Fire) (x2 : Bool) (h : s.Inv) : (State.fireRow s x1 x2).Inv := by
  unfold State.fireRow
  simp (maxDischargeDepth := 100) [h]

@[simp] theorem State.noteSeedStart_inv (s : State) (x1 : ℕ) (x2 : ℤ) : (State.noteSeedStart s x1 x2).Inv ↔ s.Inv := inv_of_parts (by simp) (by simp)

@[simp] theorem State.ratio_inv (s : State) (x1 : ℕ) (x2 : ℕ) : (State.ratio s x1 x2).2.Inv ↔ s.Inv := inv_of_parts (by simp) (by simp)

@[simp] theorem State.l2Step_inv (s : State) (x1 : ℕ) (x2 : L2Row) (x3 : Bool) (h : s.Inv) : (State.l2Step s x1 x2 x3).Inv := by
  unfold State.l2Step
  simp (maxDischargeDepth := 100) [h]

@[simp] theorem State.limitAdj_inv (s : State) (x1 : ℕ) (h : s.Inv) : (State.limitAdj s x1).Inv := by
  unfold State.limitAdj
  simp (maxDischargeDepth := 100) [h]

@[simp] theorem State.l2Sample_inv (s : State) (x1 : ℕ) (x2 : ℚ) (h : s.Inv) : (State.l2Sample s x1 x2).Inv := by
  unfold State.l2Sample
  dsimp only
  (repeat' (first | (split; rename_i heq; have h1 := congrArg Prod.fst heq; have h2 := congrArg Prod.snd heq; dsimp only at h1 h2; (try subst h1); (try subst h2)) | split)) <;> simp +contextual (maxDischargeDepth := 100) [h]

@[simp] theorem State.addExcess_inv (s : State) (x1 : ℕ) (x2 : ℕ) : (State.addExcess s x1 x2).Inv ↔ s.Inv := inv_of_parts (by simp) (by simp)

@[simp] theorem State.movingToken_inv (s : State) : (State.movingToken s).Inv ↔ s.Inv := inv_of_parts (by simp) (by simp)

@[simp] theorem State.movingStop_inv (s : State) : (State.movingStop s).Inv ↔ s.Inv := inv_of_parts (by simp) (by simp)

@[simp] theorem State.rowCleared_inv (s : State) (x1 : ℕ) : (State.rowCleared s x1).Inv ↔ s.Inv := inv_of_parts (by simp) (by simp)

@[simp] theorem State.faultCleared_inv (s : State) (x1 : Word) (h : s.Inv) : (State.faultCleared s x1).Inv := by
  unfold State.faultCleared
  simp (maxDischargeDepth := 100) [h]

end Sys2Proof.Machine
end

