-- ==== Sys2Proof/Laws/Returns.lean ====
section
/-! SUPPORT. Echoes, ambient light, mirror, steering and compression: for every operation on the state, the parts that it leaves unchanged (`_frame`) and that it keeps the form of
every state (`_inv`). A lemma of an operation that chooses between two states has a premise for the second. -/

namespace Sys2Proof.Machine

/-! ### Echo -/

@[simp] theorem State.setKr_frame (s : State) :
    (State.setKr s).clk = s.clk ∧ (State.setKr s).tofs = s.tofs ∧ (State.setKr s).dev = s.dev ∧
    (State.setKr s).mgmt = s.mgmt ∧ (State.setKr s).seq = s.seq ∧ (State.setKr s).edu = s.edu ∧
    (State.setKr s).rta = s.rta ∧ (State.setKr s).rpe = s.rpe ∧ (State.setKr s).stu = s.stu ∧ (State.setKr s).saf = s.saf ∧
    (State.setKr s).cap = s.cap ∧ (State.setKr s).fso = s.fso ∧ (State.setKr s).cmp = s.cmp ∧ (State.setKr s).mem = s.mem ∧
    (State.setKr s).lnk = s.lnk ∧ (State.setKr s).tbu = s.tbu ∧ (State.setKr s).hk = s.hk ∧ (State.setKr s).boot = s.boot ∧
    (State.setKr s).out = s.out ∧ (State.setKr s).goodAt = s.goodAt ∧ (State.setKr s).free = s.free ∧
    (State.setKr s).pending = s.pending := by
  unfold State.setKr
  simp

@[simp] theorem State.writeHistory_frame (s : State) (x1 : ℕ) (x2 : ℕ) (x3 : List ℕ) :
    (State.writeHistory s x1 x2 x3).clk = s.clk ∧ (State.writeHistory s x1 x2 x3).tofs = s.tofs ∧
    (State.writeHistory s x1 x2 x3).dev = s.dev ∧ (State.writeHistory s x1 x2 x3).regs = s.regs ∧
    (State.writeHistory s x1 x2 x3).mgmt = s.mgmt ∧ (State.writeHistory s x1 x2 x3).seq = s.seq ∧
    (State.writeHistory s x1 x2 x3).edu = s.edu ∧ (State.writeHistory s x1 x2 x3).rta = s.rta ∧
    (State.writeHistory s x1 x2 x3).stu = s.stu ∧ (State.writeHistory s x1 x2 x3).saf = s.saf ∧
    (State.writeHistory s x1 x2 x3).cap = s.cap ∧ (State.writeHistory s x1 x2 x3).fso = s.fso ∧
    (State.writeHistory s x1 x2 x3).cmp = s.cmp ∧ (State.writeHistory s x1 x2 x3).lnk = s.lnk ∧
    (State.writeHistory s x1 x2 x3).tbu = s.tbu ∧ (State.writeHistory s x1 x2 x3).hk = s.hk ∧
    (State.writeHistory s x1 x2 x3).boot = s.boot ∧ (State.writeHistory s x1 x2 x3).out = s.out ∧
    (State.writeHistory s x1 x2 x3).goodAt = s.goodAt ∧ (State.writeHistory s x1 x2 x3).free = s.free ∧
    (State.writeHistory s x1 x2 x3).pending = s.pending := by
  unfold State.writeHistory
  simp

@[simp] theorem State.deliver_frame (s : State) (x1 : Point) :
    (State.deliver s x1).clk = s.clk ∧ (State.deliver s x1).tofs = s.tofs ∧ (State.deliver s x1).dev = s.dev ∧
    (State.deliver s x1).regs = s.regs ∧ (State.deliver s x1).mgmt = s.mgmt ∧ (State.deliver s x1).seq = s.seq ∧
    (State.deliver s x1).edu = s.edu ∧ (State.deliver s x1).rta = s.rta ∧ (State.deliver s x1).stu = s.stu ∧
    (State.deliver s x1).saf = s.saf ∧ (State.deliver s x1).fso = s.fso ∧ (State.deliver s x1).cmp = s.cmp ∧
    (State.deliver s x1).mem = s.mem ∧ (State.deliver s x1).lnk = s.lnk ∧ (State.deliver s x1).tbu = s.tbu ∧
    (State.deliver s x1).hk = s.hk ∧ (State.deliver s x1).boot = s.boot ∧ (State.deliver s x1).out = s.out ∧
    (State.deliver s x1).goodAt = s.goodAt ∧ (State.deliver s x1).free = s.free ∧
    (State.deliver s x1).pending = s.pending := by
  unfold State.deliver
  simp

@[simp] theorem State.countRecord_frame (s : State) (x1 : Point) :
    (State.countRecord s x1).clk = s.clk ∧ (State.countRecord s x1).tofs = s.tofs ∧ (State.countRecord s x1).dev = s.dev ∧
    (State.countRecord s x1).mgmt = s.mgmt ∧ (State.countRecord s x1).seq = s.seq ∧ (State.countRecord s x1).edu = s.edu ∧
    (State.countRecord s x1).rta = s.rta ∧ (State.countRecord s x1).rpe = s.rpe ∧ (State.countRecord s x1).stu = s.stu ∧
    (State.countRecord s x1).saf = s.saf ∧ (State.countRecord s x1).cap = s.cap ∧ (State.countRecord s x1).fso = s.fso ∧
    (State.countRecord s x1).cmp = s.cmp ∧ (State.countRecord s x1).mem = s.mem ∧ (State.countRecord s x1).lnk = s.lnk ∧
    (State.countRecord s x1).tbu = s.tbu ∧ (State.countRecord s x1).hk = s.hk ∧ (State.countRecord s x1).boot = s.boot ∧
    (State.countRecord s x1).out = s.out ∧ (State.countRecord s x1).goodAt = s.goodAt ∧
    (State.countRecord s x1).free = s.free ∧ (State.countRecord s x1).pending = s.pending := by
  unfold State.countRecord
  simp

@[simp] theorem State.moveAnchor_frame (s : State) (x1 : Hist) (x2 : Option ℕ) :
    (State.moveAnchor s x1 x2).clk = s.clk ∧ (State.moveAnchor s x1 x2).tofs = s.tofs ∧
    (State.moveAnchor s x1 x2).dev = s.dev ∧ (State.moveAnchor s x1 x2).mgmt = s.mgmt ∧
    (State.moveAnchor s x1 x2).seq = s.seq ∧ (State.moveAnchor s x1 x2).edu = s.edu ∧
    (State.moveAnchor s x1 x2).rta = s.rta ∧ (State.moveAnchor s x1 x2).rpe = s.rpe ∧
    (State.moveAnchor s x1 x2).stu = s.stu ∧ (State.moveAnchor s x1 x2).saf = s.saf ∧
    (State.moveAnchor s x1 x2).cap = s.cap ∧ (State.moveAnchor s x1 x2).fso = s.fso ∧
    (State.moveAnchor s x1 x2).cmp = s.cmp ∧ (State.moveAnchor s x1 x2).mem = s.mem ∧
    (State.moveAnchor s x1 x2).lnk = s.lnk ∧ (State.moveAnchor s x1 x2).tbu = s.tbu ∧ (State.moveAnchor s x1 x2).hk = s.hk ∧
    (State.moveAnchor s x1 x2).boot = s.boot ∧ (State.moveAnchor s x1 x2).out = s.out ∧
    (State.moveAnchor s x1 x2).goodAt = s.goodAt ∧ (State.moveAnchor s x1 x2).free = s.free ∧
    (State.moveAnchor s x1 x2).pending = s.pending := by
  unfold State.moveAnchor
  simp

@[simp] theorem State.endHistFrame_frame (s : State) (x1 : ℕ) :
    (State.endHistFrame s x1).clk = s.clk ∧ (State.endHistFrame s x1).tofs = s.tofs ∧
    (State.endHistFrame s x1).dev = s.dev ∧ (State.endHistFrame s x1).mgmt = s.mgmt ∧
    (State.endHistFrame s x1).seq = s.seq ∧ (State.endHistFrame s x1).edu = s.edu ∧ (State.endHistFrame s x1).rta = s.rta ∧
    (State.endHistFrame s x1).stu = s.stu ∧ (State.endHistFrame s x1).saf = s.saf ∧ (State.endHistFrame s x1).cap = s.cap ∧
    (State.endHistFrame s x1).fso = s.fso ∧ (State.endHistFrame s x1).cmp = s.cmp ∧ (State.endHistFrame s x1).mem = s.mem ∧
    (State.endHistFrame s x1).lnk = s.lnk ∧ (State.endHistFrame s x1).tbu = s.tbu ∧ (State.endHistFrame s x1).hk = s.hk ∧
    (State.endHistFrame s x1).boot = s.boot ∧ (State.endHistFrame s x1).out = s.out ∧
    (State.endHistFrame s x1).goodAt = s.goodAt ∧ (State.endHistFrame s x1).free = s.free ∧
    (State.endHistFrame s x1).pending = s.pending := by
  unfold State.endHistFrame
  simp

@[simp] theorem State.setKr_inv (s : State) (h : s.Inv) : (State.setKr s).Inv := by
  unfold State.setKr
  simp (maxDischargeDepth := 100) [h]

@[simp] theorem State.writeHistory_inv (s : State) (x1 : ℕ) (x2 : ℕ) (x3 : List ℕ) : (State.writeHistory s x1 x2 x3).Inv ↔ s.Inv := inv_of_parts (by simp) (by simp)

@[simp] theorem State.deliver_inv (s : State) (x1 : Point) : (State.deliver s x1).Inv ↔ s.Inv := inv_of_parts (by simp) (by simp)

@[simp] theorem State.countRecord_inv (s : State) (x1 : Point) (h : s.Inv) : (State.countRecord s x1).Inv := by
  unfold State.countRecord
  simp (maxDischargeDepth := 100) [h]

@[simp] theorem State.moveAnchor_inv (s : State) (x1 : Hist) (x2 : Option ℕ) (h : s.Inv) : (State.moveAnchor s x1 x2).Inv := by
  unfold State.moveAnchor
  simp (maxDischargeDepth := 100) [h]

@[simp] theorem State.endHistFrame_inv (s : State) (x1 : ℕ) (h : s.Inv) : (State.endHistFrame s x1).Inv := by
  unfold State.endHistFrame
  simp (maxDischargeDepth := 100) [h]

/-! ### Ambient -/

@[simp] theorem State.setTrk_frame (s : State) (x1 : ℕ) (x2 : Trk) :
    (State.setTrk s x1 x2).clk = s.clk ∧ (State.setTrk s x1 x2).tofs = s.tofs ∧ (State.setTrk s x1 x2).dev = s.dev ∧
    (State.setTrk s x1 x2).regs = s.regs ∧ (State.setTrk s x1 x2).mgmt = s.mgmt ∧ (State.setTrk s x1 x2).seq = s.seq ∧
    (State.setTrk s x1 x2).edu = s.edu ∧ (State.setTrk s x1 x2).rta = s.rta ∧ (State.setTrk s x1 x2).stu = s.stu ∧
    (State.setTrk s x1 x2).saf = s.saf ∧ (State.setTrk s x1 x2).cap = s.cap ∧ (State.setTrk s x1 x2).fso = s.fso ∧
    (State.setTrk s x1 x2).cmp = s.cmp ∧ (State.setTrk s x1 x2).mem = s.mem ∧ (State.setTrk s x1 x2).lnk = s.lnk ∧
    (State.setTrk s x1 x2).tbu = s.tbu ∧ (State.setTrk s x1 x2).hk = s.hk ∧ (State.setTrk s x1 x2).boot = s.boot ∧
    (State.setTrk s x1 x2).out = s.out ∧ (State.setTrk s x1 x2).goodAt = s.goodAt ∧ (State.setTrk s x1 x2).free = s.free ∧
    (State.setTrk s x1 x2).pending = s.pending := by
  unfold State.setTrk
  simp

@[simp] theorem State.addSample_frame (s : State) (x1 : ℕ) (x2 : ℕ) :
    (State.addSample s x1 x2).clk = s.clk ∧ (State.addSample s x1 x2).tofs = s.tofs ∧
    (State.addSample s x1 x2).dev = s.dev ∧ (State.addSample s x1 x2).mgmt = s.mgmt ∧
    (State.addSample s x1 x2).seq = s.seq ∧ (State.addSample s x1 x2).edu = s.edu ∧ (State.addSample s x1 x2).rta = s.rta ∧
    (State.addSample s x1 x2).stu = s.stu ∧ (State.addSample s x1 x2).saf = s.saf ∧ (State.addSample s x1 x2).cap = s.cap ∧
    (State.addSample s x1 x2).fso = s.fso ∧ (State.addSample s x1 x2).cmp = s.cmp ∧ (State.addSample s x1 x2).mem = s.mem ∧
    (State.addSample s x1 x2).lnk = s.lnk ∧ (State.addSample s x1 x2).tbu = s.tbu ∧ (State.addSample s x1 x2).hk = s.hk ∧
    (State.addSample s x1 x2).boot = s.boot ∧ (State.addSample s x1 x2).out = s.out ∧
    (State.addSample s x1 x2).goodAt = s.goodAt ∧ (State.addSample s x1 x2).free = s.free ∧
    (State.addSample s x1 x2).pending = s.pending := by
  unfold State.addSample
  simp

@[simp] theorem State.loadLadder_frame (s : State) (x1 : ℕ) (x2 : List Bool) :
    (State.loadLadder s x1 x2).clk = s.clk ∧ (State.loadLadder s x1 x2).tofs = s.tofs ∧
    (State.loadLadder s x1 x2).dev = s.dev ∧ (State.loadLadder s x1 x2).mgmt = s.mgmt ∧
    (State.loadLadder s x1 x2).seq = s.seq ∧ (State.loadLadder s x1 x2).edu = s.edu ∧
    (State.loadLadder s x1 x2).rta = s.rta ∧ (State.loadLadder s x1 x2).rpe = s.rpe ∧
    (State.loadLadder s x1 x2).stu = s.stu ∧ (State.loadLadder s x1 x2).saf = s.saf ∧
    (State.loadLadder s x1 x2).cap = s.cap ∧ (State.loadLadder s x1 x2).fso = s.fso ∧
    (State.loadLadder s x1 x2).cmp = s.cmp ∧ (State.loadLadder s x1 x2).mem = s.mem ∧
    (State.loadLadder s x1 x2).lnk = s.lnk ∧ (State.loadLadder s x1 x2).tbu = s.tbu ∧ (State.loadLadder s x1 x2).hk = s.hk ∧
    (State.loadLadder s x1 x2).boot = s.boot ∧ (State.loadLadder s x1 x2).out = s.out ∧
    (State.loadLadder s x1 x2).goodAt = s.goodAt ∧ (State.loadLadder s x1 x2).free = s.free ∧
    (State.loadLadder s x1 x2).pending = s.pending := by
  unfold State.loadLadder
  simp

/-- What a threshold event changes. -/
theorem thresholdEvent_only (u : State) (p : Nat) :
    Only [.mgmt, .regs, .lnk, .saf, .out] u ((u.inc F.RPE_AMBEVT_COUNT).raise 0x09 .info p) := by
  refine ⟨by simp, by simp, fun p hp => ?_⟩
  cases p <;> simp_all [Part.same]

/-- What loading the ladder changes. -/
theorem loadLadder_only (s : State) (p : Nat) (on : List Bool) : Only [.mgmt, .regs, .lnk, .saf, .out] s (s.loadLadder p on) := by
  refine ⟨by simp, by simp, fun p hp => ?_⟩
  cases p <;> simp_all [Part.same]

/-- What a register field written changes. -/
theorem wr_only (s : State) (f : Fld) (v : Nat) : Only [.mgmt, .regs, .lnk, .saf, .out] s (s.wr f v) := by
  refine ⟨by simp, by simp, fun p hp => ?_⟩
  cases p <;> simp_all [Part.same]

@[simp] theorem State.updateLambda_frame (s : State) (x1 : ℕ) (x2 : ℕ) :
    (State.updateLambda s x1 x2).clk = s.clk ∧ (State.updateLambda s x1 x2).tofs = s.tofs ∧
    (State.updateLambda s x1 x2).dev = s.dev ∧ (State.updateLambda s x1 x2).seq = s.seq ∧
    (State.updateLambda s x1 x2).edu = s.edu ∧ (State.updateLambda s x1 x2).rta = s.rta ∧
    (State.updateLambda s x1 x2).rpe = s.rpe ∧ (State.updateLambda s x1 x2).stu = s.stu ∧
    (State.updateLambda s x1 x2).cap = s.cap ∧ (State.updateLambda s x1 x2).fso = s.fso ∧
    (State.updateLambda s x1 x2).cmp = s.cmp ∧ (State.updateLambda s x1 x2).mem = s.mem ∧
    (State.updateLambda s x1 x2).tbu = s.tbu ∧ (State.updateLambda s x1 x2).hk = s.hk ∧
    (State.updateLambda s x1 x2).boot = s.boot ∧ (State.updateLambda s x1 x2).goodAt = s.goodAt ∧
    (State.updateLambda s x1 x2).free = s.free ∧ (State.updateLambda s x1 x2).pending = s.pending := by
  have h : Only [.mgmt, .regs, .lnk, .saf, .out] s (State.updateLambda s x1 x2) := by
    unfold State.updateLambda
    exact ((wr_only s _ _).trans (loadLadder_only _ _ _)).trans (Only.fold _ (fun u _ => thresholdEvent_only u x1) _ _)
  exact ⟨h.1, h.2.2 .tofs (by decide), h.2.2 .dev (by decide), h.2.2 .seq (by decide), h.2.2 .edu (by decide), h.2.2 .rta (by decide), h.2.2 .rpe (by decide), h.2.2 .stu (by decide), h.2.2 .cap (by decide), h.2.2 .fso (by decide), h.2.2 .cmp (by decide), h.2.2 .mem (by decide), h.2.2 .tbu (by decide), h.2.2 .hk (by decide), h.2.2 .boot (by decide), h.2.2 .goodAt (by decide), h.2.2 .free (by decide), h.2.1⟩

@[simp] theorem State.tickPort_frame (s : State) (x1 : Bool) (x2 : ℕ) :
    (State.tickPort s x1 x2).clk = s.clk ∧ (State.tickPort s x1 x2).tofs = s.tofs ∧ (State.tickPort s x1 x2).dev = s.dev ∧
    (State.tickPort s x1 x2).seq = s.seq ∧ (State.tickPort s x1 x2).edu = s.edu ∧ (State.tickPort s x1 x2).rta = s.rta ∧
    (State.tickPort s x1 x2).stu = s.stu ∧ (State.tickPort s x1 x2).cap = s.cap ∧ (State.tickPort s x1 x2).fso = s.fso ∧
    (State.tickPort s x1 x2).cmp = s.cmp ∧ (State.tickPort s x1 x2).mem = s.mem ∧ (State.tickPort s x1 x2).tbu = s.tbu ∧
    (State.tickPort s x1 x2).hk = s.hk ∧ (State.tickPort s x1 x2).boot = s.boot ∧
    (State.tickPort s x1 x2).goodAt = s.goodAt ∧ (State.tickPort s x1 x2).free = s.free ∧
    (State.tickPort s x1 x2).pending = s.pending := by
  unfold State.tickPort
  dsimp only
  (repeat' (first | (split; rename_i heq; have h1 := congrArg Prod.fst heq; have h2 := congrArg Prod.snd heq; dsimp only at h1 h2; (try subst h1); (try subst h2)) | split)) <;> simp

@[simp] theorem State.trackTick_frame (s : State) :
    (State.trackTick s).clk = s.clk ∧ (State.trackTick s).tofs = s.tofs ∧ (State.trackTick s).dev = s.dev ∧
    (State.trackTick s).seq = s.seq ∧ (State.trackTick s).edu = s.edu ∧ (State.trackTick s).rta = s.rta ∧
    (State.trackTick s).stu = s.stu ∧ (State.trackTick s).cap = s.cap ∧ (State.trackTick s).fso = s.fso ∧
    (State.trackTick s).cmp = s.cmp ∧ (State.trackTick s).mem = s.mem ∧ (State.trackTick s).tbu = s.tbu ∧
    (State.trackTick s).hk = s.hk ∧ (State.trackTick s).boot = s.boot ∧ (State.trackTick s).goodAt = s.goodAt ∧
    (State.trackTick s).free = s.free ∧ (State.trackTick s).pending = s.pending := by
  unfold State.trackTick
  simp

@[simp] theorem State.seedPort_frame (s : State) (x1 : ℕ) :
    (State.seedPort s x1).clk = s.clk ∧ (State.seedPort s x1).tofs = s.tofs ∧ (State.seedPort s x1).dev = s.dev ∧
    (State.seedPort s x1).mgmt = s.mgmt ∧ (State.seedPort s x1).seq = s.seq ∧ (State.seedPort s x1).edu = s.edu ∧
    (State.seedPort s x1).rta = s.rta ∧ (State.seedPort s x1).stu = s.stu ∧ (State.seedPort s x1).saf = s.saf ∧
    (State.seedPort s x1).cap = s.cap ∧ (State.seedPort s x1).fso = s.fso ∧ (State.seedPort s x1).cmp = s.cmp ∧
    (State.seedPort s x1).mem = s.mem ∧ (State.seedPort s x1).lnk = s.lnk ∧ (State.seedPort s x1).tbu = s.tbu ∧
    (State.seedPort s x1).hk = s.hk ∧ (State.seedPort s x1).boot = s.boot ∧ (State.seedPort s x1).out = s.out ∧
    (State.seedPort s x1).goodAt = s.goodAt ∧ (State.seedPort s x1).free = s.free ∧
    (State.seedPort s x1).pending = s.pending := by
  unfold State.seedPort
  simp

@[simp] theorem State.seedTrackers_frame (s : State) :
    (State.seedTrackers s).clk = s.clk ∧ (State.seedTrackers s).tofs = s.tofs ∧ (State.seedTrackers s).dev = s.dev ∧
    (State.seedTrackers s).mgmt = s.mgmt ∧ (State.seedTrackers s).seq = s.seq ∧ (State.seedTrackers s).edu = s.edu ∧
    (State.seedTrackers s).rta = s.rta ∧ (State.seedTrackers s).stu = s.stu ∧ (State.seedTrackers s).saf = s.saf ∧
    (State.seedTrackers s).cap = s.cap ∧ (State.seedTrackers s).fso = s.fso ∧ (State.seedTrackers s).cmp = s.cmp ∧
    (State.seedTrackers s).mem = s.mem ∧ (State.seedTrackers s).lnk = s.lnk ∧ (State.seedTrackers s).tbu = s.tbu ∧
    (State.seedTrackers s).hk = s.hk ∧ (State.seedTrackers s).boot = s.boot ∧ (State.seedTrackers s).out = s.out ∧
    (State.seedTrackers s).goodAt = s.goodAt ∧ (State.seedTrackers s).free = s.free ∧
    (State.seedTrackers s).pending = s.pending := by
  unfold State.seedTrackers
  simp

@[simp] theorem State.setForeign_frame (s : State) (x1 : ℕ) (x2 : Foreign) :
    (State.setForeign s x1 x2).clk = s.clk ∧ (State.setForeign s x1 x2).tofs = s.tofs ∧
    (State.setForeign s x1 x2).dev = s.dev ∧ (State.setForeign s x1 x2).mgmt = s.mgmt ∧
    (State.setForeign s x1 x2).seq = s.seq ∧ (State.setForeign s x1 x2).edu = s.edu ∧
    (State.setForeign s x1 x2).rta = s.rta ∧ (State.setForeign s x1 x2).stu = s.stu ∧
    (State.setForeign s x1 x2).saf = s.saf ∧ (State.setForeign s x1 x2).cap = s.cap ∧
    (State.setForeign s x1 x2).fso = s.fso ∧ (State.setForeign s x1 x2).cmp = s.cmp ∧
    (State.setForeign s x1 x2).mem = s.mem ∧ (State.setForeign s x1 x2).lnk = s.lnk ∧
    (State.setForeign s x1 x2).tbu = s.tbu ∧ (State.setForeign s x1 x2).hk = s.hk ∧
    (State.setForeign s x1 x2).boot = s.boot ∧ (State.setForeign s x1 x2).out = s.out ∧
    (State.setForeign s x1 x2).goodAt = s.goodAt ∧ (State.setForeign s x1 x2).free = s.free ∧
    (State.setForeign s x1 x2).pending = s.pending := by
  unfold State.setForeign
  simp

@[simp] theorem State.evalForeign_frame (s : State) :
    (State.evalForeign s).clk = s.clk ∧ (State.evalForeign s).tofs = s.tofs ∧ (State.evalForeign s).dev = s.dev ∧
    (State.evalForeign s).seq = s.seq ∧ (State.evalForeign s).edu = s.edu ∧ (State.evalForeign s).rta = s.rta ∧
    (State.evalForeign s).rpe = s.rpe ∧ (State.evalForeign s).stu = s.stu ∧ (State.evalForeign s).cap = s.cap ∧
    (State.evalForeign s).fso = s.fso ∧ (State.evalForeign s).cmp = s.cmp ∧ (State.evalForeign s).mem = s.mem ∧
    (State.evalForeign s).tbu = s.tbu ∧ (State.evalForeign s).hk = s.hk ∧ (State.evalForeign s).boot = s.boot ∧
    (State.evalForeign s).goodAt = s.goodAt ∧ (State.evalForeign s).free = s.free ∧
    (State.evalForeign s).pending = s.pending := by
  unfold State.evalForeign
  simp

@[simp] theorem State.portGate_frame (s : State) (x1 : ℕ) (x2 : ℕ) :
    (State.portGate s x1 x2).clk = s.clk ∧ (State.portGate s x1 x2).tofs = s.tofs ∧ (State.portGate s x1 x2).dev = s.dev ∧
    (State.portGate s x1 x2).seq = s.seq ∧ (State.portGate s x1 x2).edu = s.edu ∧ (State.portGate s x1 x2).stu = s.stu ∧
    (State.portGate s x1 x2).cap = s.cap ∧ (State.portGate s x1 x2).fso = s.fso ∧ (State.portGate s x1 x2).cmp = s.cmp ∧
    (State.portGate s x1 x2).mem = s.mem ∧ (State.portGate s x1 x2).tbu = s.tbu ∧ (State.portGate s x1 x2).hk = s.hk ∧
    (State.portGate s x1 x2).boot = s.boot ∧ (State.portGate s x1 x2).goodAt = s.goodAt ∧
    (State.portGate s x1 x2).free = s.free ∧ (State.portGate s x1 x2).pending = s.pending := by
  unfold State.portGate
  simp

@[simp] theorem State.tdcGate_frame (s : State) (x1 : ℕ) :
    (State.tdcGate s x1).clk = s.clk ∧ (State.tdcGate s x1).tofs = s.tofs ∧ (State.tdcGate s x1).dev = s.dev ∧
    (State.tdcGate s x1).mgmt = s.mgmt ∧ (State.tdcGate s x1).seq = s.seq ∧ (State.tdcGate s x1).edu = s.edu ∧
    (State.tdcGate s x1).rpe = s.rpe ∧ (State.tdcGate s x1).stu = s.stu ∧ (State.tdcGate s x1).saf = s.saf ∧
    (State.tdcGate s x1).cap = s.cap ∧ (State.tdcGate s x1).fso = s.fso ∧ (State.tdcGate s x1).cmp = s.cmp ∧
    (State.tdcGate s x1).mem = s.mem ∧ (State.tdcGate s x1).lnk = s.lnk ∧ (State.tdcGate s x1).tbu = s.tbu ∧
    (State.tdcGate s x1).hk = s.hk ∧ (State.tdcGate s x1).boot = s.boot ∧ (State.tdcGate s x1).out = s.out ∧
    (State.tdcGate s x1).goodAt = s.goodAt ∧ (State.tdcGate s x1).free = s.free ∧
    (State.tdcGate s x1).pending = s.pending := by
  unfold State.tdcGate
  simp

@[simp] theorem State.setTrk_inv (s : State) (x1 : ℕ) (x2 : Trk) : (State.setTrk s x1 x2).Inv ↔ s.Inv := inv_of_parts (by simp) (by simp)

@[simp] theorem State.addSample_inv (s : State) (x1 : ℕ) (x2 : ℕ) (h : s.Inv) : (State.addSample s x1 x2).Inv := by
  unfold State.addSample
  simp (maxDischargeDepth := 100) [h]

@[simp] theorem State.loadLadder_inv (s : State) (x1 : ℕ) (x2 : List Bool) (h : s.Inv) : (State.loadLadder s x1 x2).Inv := by
  unfold State.loadLadder
  simp (maxDischargeDepth := 100) [h]

@[simp] theorem State.updateLambda_inv (s : State) (x1 : ℕ) (x2 : ℕ) (h : s.Inv) : (State.updateLambda s x1 x2).Inv := by
  unfold State.updateLambda
  simp +contextual (maxDischargeDepth := 100) [h]

@[simp] theorem State.tickPort_inv (s : State) (x1 : Bool) (x2 : ℕ) (h : s.Inv) : (State.tickPort s x1 x2).Inv := by
  unfold State.tickPort
  dsimp only
  (repeat' (first | (split; rename_i heq; have h1 := congrArg Prod.fst heq; have h2 := congrArg Prod.snd heq; dsimp only at h1 h2; (try subst h1); (try subst h2)) | split)) <;> simp +contextual (maxDischargeDepth := 100) [h]

@[simp] theorem State.trackTick_inv (s : State) (h : s.Inv) : (State.trackTick s).Inv := by
  unfold State.trackTick
  simp +contextual (maxDischargeDepth := 100) [h]

@[simp] theorem State.seedPort_inv (s : State) (x1 : ℕ) (h : s.Inv) : (State.seedPort s x1).Inv := by
  unfold State.seedPort
  simp (maxDischargeDepth := 100) [h]

@[simp] theorem State.seedTrackers_inv (s : State) (h : s.Inv) : (State.seedTrackers s).Inv := by
  unfold State.seedTrackers
  simp +contextual (maxDischargeDepth := 100) [h]

@[simp] theorem State.setForeign_inv (s : State) (x1 : ℕ) (x2 : Foreign) (h : s.Inv) : (State.setForeign s x1 x2).Inv := by
  unfold State.setForeign
  simp (maxDischargeDepth := 100) [h]

@[simp] theorem State.evalForeign_inv (s : State) (h : s.Inv) : (State.evalForeign s).Inv := by
  unfold State.evalForeign
  simp (maxDischargeDepth := 100) [h]

@[simp] theorem State.portGate_inv (s : State) (x1 : ℕ) (x2 : ℕ) (h : s.Inv) : (State.portGate s x1 x2).Inv := by
  unfold State.portGate
  simp (maxDischargeDepth := 100) [h]

@[simp] theorem State.tdcGate_inv (s : State) (x1 : ℕ) (h : s.Inv) : (State.tdcGate s x1).Inv := by
  unfold State.tdcGate
  simp (maxDischargeDepth := 100) [h]

/-! ### Mirror -/

@[simp] theorem State.setSense_frame (s : State) (x1 : SenseCh) (x2 : Sense) :
    (State.setSense s x1 x2).clk = s.clk ∧ (State.setSense s x1 x2).tofs = s.tofs ∧ (State.setSense s x1 x2).dev = s.dev ∧
    (State.setSense s x1 x2).regs = s.regs ∧ (State.setSense s x1 x2).mgmt = s.mgmt ∧ (State.setSense s x1 x2).seq = s.seq ∧
    (State.setSense s x1 x2).edu = s.edu ∧ (State.setSense s x1 x2).rta = s.rta ∧ (State.setSense s x1 x2).rpe = s.rpe ∧
    (State.setSense s x1 x2).saf = s.saf ∧ (State.setSense s x1 x2).cap = s.cap ∧ (State.setSense s x1 x2).fso = s.fso ∧
    (State.setSense s x1 x2).cmp = s.cmp ∧ (State.setSense s x1 x2).mem = s.mem ∧ (State.setSense s x1 x2).lnk = s.lnk ∧
    (State.setSense s x1 x2).tbu = s.tbu ∧ (State.setSense s x1 x2).hk = s.hk ∧ (State.setSense s x1 x2).boot = s.boot ∧
    (State.setSense s x1 x2).out = s.out ∧ (State.setSense s x1 x2).goodAt = s.goodAt ∧
    (State.setSense s x1 x2).free = s.free ∧ (State.setSense s x1 x2).pending = s.pending := by
  unfold State.setSense
  (repeat' (first | (split; rename_i heq; have h1 := congrArg Prod.fst heq; have h2 := congrArg Prod.snd heq; dsimp only at h1 h2; (try subst h1); (try subst h2)) | split)) <;> simp

@[simp] theorem State.stopToken_frame (s : State) :
    (State.stopToken s).clk = s.clk ∧ (State.stopToken s).tofs = s.tofs ∧ (State.stopToken s).dev = s.dev ∧
    (State.stopToken s).regs = s.regs ∧ (State.stopToken s).mgmt = s.mgmt ∧ (State.stopToken s).seq = s.seq ∧
    (State.stopToken s).rta = s.rta ∧ (State.stopToken s).rpe = s.rpe ∧ (State.stopToken s).saf = s.saf ∧
    (State.stopToken s).cap = s.cap ∧ (State.stopToken s).fso = s.fso ∧ (State.stopToken s).cmp = s.cmp ∧
    (State.stopToken s).mem = s.mem ∧ (State.stopToken s).lnk = s.lnk ∧ (State.stopToken s).tbu = s.tbu ∧
    (State.stopToken s).hk = s.hk ∧ (State.stopToken s).boot = s.boot ∧ (State.stopToken s).out = s.out ∧
    (State.stopToken s).goodAt = s.goodAt ∧ (State.stopToken s).free = s.free ∧
    (State.stopToken s).pending = s.pending := by
  unfold State.stopToken
  simp

@[simp] theorem State.driveStop_frame (s : State) (x1 : ℕ) :
    (State.driveStop s x1).clk = s.clk ∧ (State.driveStop s x1).tofs = s.tofs ∧ (State.driveStop s x1).dev = s.dev ∧
    (State.driveStop s x1).seq = s.seq ∧ (State.driveStop s x1).rta = s.rta ∧ (State.driveStop s x1).rpe = s.rpe ∧
    (State.driveStop s x1).fso = s.fso ∧ (State.driveStop s x1).cmp = s.cmp ∧ (State.driveStop s x1).mem = s.mem ∧
    (State.driveStop s x1).tbu = s.tbu ∧ (State.driveStop s x1).hk = s.hk ∧ (State.driveStop s x1).boot = s.boot ∧
    (State.driveStop s x1).goodAt = s.goodAt ∧ (State.driveStop s x1).free = s.free ∧
    (State.driveStop s x1).pending = s.pending := by
  unfold State.driveStop
  simp

@[simp] theorem State.sensorOpen_frame (s : State) (x1 : SenseCh) :
    (State.sensorOpen s x1).clk = s.clk ∧ (State.sensorOpen s x1).tofs = s.tofs ∧ (State.sensorOpen s x1).dev = s.dev ∧
    (State.sensorOpen s x1).seq = s.seq ∧ (State.sensorOpen s x1).rta = s.rta ∧ (State.sensorOpen s x1).rpe = s.rpe ∧
    (State.sensorOpen s x1).fso = s.fso ∧ (State.sensorOpen s x1).cmp = s.cmp ∧ (State.sensorOpen s x1).mem = s.mem ∧
    (State.sensorOpen s x1).tbu = s.tbu ∧ (State.sensorOpen s x1).hk = s.hk ∧ (State.sensorOpen s x1).boot = s.boot ∧
    (State.sensorOpen s x1).goodAt = s.goodAt ∧ (State.sensorOpen s x1).free = s.free ∧
    (State.sensorOpen s x1).pending = s.pending := by
  unfold State.sensorOpen
  simp

@[simp] theorem State.movingPeriod_frame (s : State) :
    (State.movingPeriod s).clk = s.clk ∧ (State.movingPeriod s).tofs = s.tofs ∧ (State.movingPeriod s).dev = s.dev ∧
    (State.movingPeriod s).mgmt = s.mgmt ∧ (State.movingPeriod s).seq = s.seq ∧ (State.movingPeriod s).rta = s.rta ∧
    (State.movingPeriod s).rpe = s.rpe ∧ (State.movingPeriod s).stu = s.stu ∧ (State.movingPeriod s).saf = s.saf ∧
    (State.movingPeriod s).cap = s.cap ∧ (State.movingPeriod s).fso = s.fso ∧ (State.movingPeriod s).cmp = s.cmp ∧
    (State.movingPeriod s).mem = s.mem ∧ (State.movingPeriod s).lnk = s.lnk ∧ (State.movingPeriod s).tbu = s.tbu ∧
    (State.movingPeriod s).hk = s.hk ∧ (State.movingPeriod s).boot = s.boot ∧ (State.movingPeriod s).out = s.out ∧
    (State.movingPeriod s).goodAt = s.goodAt ∧ (State.movingPeriod s).free = s.free ∧
    (State.movingPeriod s).pending = s.pending := by
  unfold State.movingPeriod
  simp

@[simp] theorem State.takePending_frame (s : State) (x1 : SenseCh) :
    (State.takePending s x1).clk = s.clk ∧ (State.takePending s x1).tofs = s.tofs ∧ (State.takePending s x1).dev = s.dev ∧
    (State.takePending s x1).mgmt = s.mgmt ∧ (State.takePending s x1).seq = s.seq ∧ (State.takePending s x1).edu = s.edu ∧
    (State.takePending s x1).rta = s.rta ∧ (State.takePending s x1).rpe = s.rpe ∧ (State.takePending s x1).saf = s.saf ∧
    (State.takePending s x1).cap = s.cap ∧ (State.takePending s x1).fso = s.fso ∧ (State.takePending s x1).cmp = s.cmp ∧
    (State.takePending s x1).mem = s.mem ∧ (State.takePending s x1).lnk = s.lnk ∧ (State.takePending s x1).tbu = s.tbu ∧
    (State.takePending s x1).hk = s.hk ∧ (State.takePending s x1).boot = s.boot ∧ (State.takePending s x1).out = s.out ∧
    (State.takePending s x1).goodAt = s.goodAt ∧ (State.takePending s x1).free = s.free ∧
    (State.takePending s x1).pending = s.pending := by
  unfold State.takePending
  dsimp only
  (repeat' (first | (split; rename_i heq; have h1 := congrArg Prod.fst heq; have h2 := congrArg Prod.snd heq; dsimp only at h1 h2; (try subst h1); (try subst h2)) | split)) <;> simp

@[simp] theorem State.judgePeriod_frame (s : State) (x1 : SenseCh) (x2 : Bool) :
    (State.judgePeriod s x1 x2).clk = s.clk ∧ (State.judgePeriod s x1 x2).tofs = s.tofs ∧
    (State.judgePeriod s x1 x2).dev = s.dev ∧ (State.judgePeriod s x1 x2).seq = s.seq ∧
    (State.judgePeriod s x1 x2).rta = s.rta ∧ (State.judgePeriod s x1 x2).rpe = s.rpe ∧
    (State.judgePeriod s x1 x2).fso = s.fso ∧ (State.judgePeriod s x1 x2).cmp = s.cmp ∧
    (State.judgePeriod s x1 x2).mem = s.mem ∧ (State.judgePeriod s x1 x2).tbu = s.tbu ∧
    (State.judgePeriod s x1 x2).hk = s.hk ∧ (State.judgePeriod s x1 x2).boot = s.boot ∧
    (State.judgePeriod s x1 x2).goodAt = s.goodAt ∧ (State.judgePeriod s x1 x2).free = s.free ∧
    (State.judgePeriod s x1 x2).pending = s.pending := by
  unfold State.judgePeriod
  simp

@[simp] theorem State.setSense_inv (s : State) (x1 : SenseCh) (x2 : Sense) : (State.setSense s x1 x2).Inv ↔ s.Inv := inv_of_parts (by simp) (by simp)

@[simp] theorem State.stopToken_inv (s : State) : (State.stopToken s).Inv ↔ s.Inv := inv_of_parts (by simp) (by simp)

@[simp] theorem State.driveStop_inv (s : State) (x1 : ℕ) (h : s.Inv) : (State.driveStop s x1).Inv := by
  unfold State.driveStop
  simp (maxDischargeDepth := 100) [h]

@[simp] theorem State.sensorOpen_inv (s : State) (x1 : SenseCh) (h : s.Inv) : (State.sensorOpen s x1).Inv := by
  unfold State.sensorOpen
  simp (maxDischargeDepth := 100) [h]

@[simp] theorem State.movingPeriod_inv (s : State) (h : s.Inv) : (State.movingPeriod s).Inv := by
  unfold State.movingPeriod
  simp (maxDischargeDepth := 100) [h]

@[simp] theorem State.takePending_inv (s : State) (x1 : SenseCh) (h : s.Inv) : (State.takePending s x1).Inv := by
  unfold State.takePending
  dsimp only
  (repeat' (first | (split; rename_i heq; have h1 := congrArg Prod.fst heq; have h2 := congrArg Prod.snd heq; dsimp only at h1 h2; (try subst h1); (try subst h2)) | split)) <;> simp +contextual (maxDischargeDepth := 100) [h]

@[simp] theorem State.judgePeriod_inv (s : State) (x1 : SenseCh) (x2 : Bool) (h : s.Inv) : (State.judgePeriod s x1 x2).Inv := by
  unfold State.judgePeriod
  simp (maxDischargeDepth := 100) [h]

/-! ### Steering -/

@[simp] theorem State.tpLost_frame (s : State) (x1 : SenseCh) :
    (State.tpLost s x1).clk = s.clk ∧ (State.tpLost s x1).tofs = s.tofs ∧ (State.tpLost s x1).dev = s.dev ∧
    (State.tpLost s x1).mgmt = s.mgmt ∧ (State.tpLost s x1).seq = s.seq ∧ (State.tpLost s x1).rta = s.rta ∧
    (State.tpLost s x1).rpe = s.rpe ∧ (State.tpLost s x1).saf = s.saf ∧ (State.tpLost s x1).cap = s.cap ∧
    (State.tpLost s x1).fso = s.fso ∧ (State.tpLost s x1).cmp = s.cmp ∧ (State.tpLost s x1).mem = s.mem ∧
    (State.tpLost s x1).lnk = s.lnk ∧ (State.tpLost s x1).tbu = s.tbu ∧ (State.tpLost s x1).hk = s.hk ∧
    (State.tpLost s x1).boot = s.boot ∧ (State.tpLost s x1).out = s.out ∧ (State.tpLost s x1).goodAt = s.goodAt ∧
    (State.tpLost s x1).free = s.free ∧ (State.tpLost s x1).pending = s.pending := by
  unfold State.tpLost
  (repeat' (first | (split; rename_i heq; have h1 := congrArg Prod.fst heq; have h2 := congrArg Prod.snd heq; dsimp only at h1 h2; (try subst h1); (try subst h2)) | split)) <;> simp

@[simp] theorem State.issueTp_frame (s : State) (x1 : SenseCh) (x2 : TpEv) :
    (State.issueTp s x1 x2).clk = s.clk ∧ (State.issueTp s x1 x2).tofs = s.tofs ∧ (State.issueTp s x1 x2).dev = s.dev ∧
    (State.issueTp s x1 x2).regs = s.regs ∧ (State.issueTp s x1 x2).mgmt = s.mgmt ∧ (State.issueTp s x1 x2).edu = s.edu ∧
    (State.issueTp s x1 x2).rta = s.rta ∧ (State.issueTp s x1 x2).rpe = s.rpe ∧ (State.issueTp s x1 x2).saf = s.saf ∧
    (State.issueTp s x1 x2).cap = s.cap ∧ (State.issueTp s x1 x2).fso = s.fso ∧ (State.issueTp s x1 x2).cmp = s.cmp ∧
    (State.issueTp s x1 x2).mem = s.mem ∧ (State.issueTp s x1 x2).lnk = s.lnk ∧ (State.issueTp s x1 x2).tbu = s.tbu ∧
    (State.issueTp s x1 x2).hk = s.hk ∧ (State.issueTp s x1 x2).boot = s.boot ∧ (State.issueTp s x1 x2).out = s.out ∧
    (State.issueTp s x1 x2).goodAt = s.goodAt ∧ (State.issueTp s x1 x2).free = s.free ∧
    (State.issueTp s x1 x2).pending = s.pending := by
  unfold State.issueTp
  simp

@[simp] theorem State.noteTp_frame (s : State) (x1 : SenseCh) (x2 : Option ℤ) :
    (State.noteTp s x1 x2).clk = s.clk ∧ (State.noteTp s x1 x2).tofs = s.tofs ∧ (State.noteTp s x1 x2).dev = s.dev ∧
    (State.noteTp s x1 x2).mgmt = s.mgmt ∧ (State.noteTp s x1 x2).seq = s.seq ∧ (State.noteTp s x1 x2).edu = s.edu ∧
    (State.noteTp s x1 x2).rta = s.rta ∧ (State.noteTp s x1 x2).rpe = s.rpe ∧ (State.noteTp s x1 x2).stu = s.stu ∧
    (State.noteTp s x1 x2).saf = s.saf ∧ (State.noteTp s x1 x2).cap = s.cap ∧ (State.noteTp s x1 x2).fso = s.fso ∧
    (State.noteTp s x1 x2).cmp = s.cmp ∧ (State.noteTp s x1 x2).mem = s.mem ∧ (State.noteTp s x1 x2).lnk = s.lnk ∧
    (State.noteTp s x1 x2).tbu = s.tbu ∧ (State.noteTp s x1 x2).hk = s.hk ∧ (State.noteTp s x1 x2).boot = s.boot ∧
    (State.noteTp s x1 x2).out = s.out ∧ (State.noteTp s x1 x2).goodAt = s.goodAt ∧ (State.noteTp s x1 x2).free = s.free ∧
    (State.noteTp s x1 x2).pending = s.pending := by
  unfold State.noteTp
  (repeat' (first | (split; rename_i heq; have h1 := congrArg Prod.fst heq; have h2 := congrArg Prod.snd heq; dsimp only at h1 h2; (try subst h1); (try subst h2)) | split)) <;> simp

@[simp] theorem State.implausible_frame (s : State) (x1 : ℕ) :
    (State.implausible s x1).clk = s.clk ∧ (State.implausible s x1).tofs = s.tofs ∧ (State.implausible s x1).dev = s.dev ∧
    (State.implausible s x1).seq = s.seq ∧ (State.implausible s x1).rta = s.rta ∧ (State.implausible s x1).rpe = s.rpe ∧
    (State.implausible s x1).fso = s.fso ∧ (State.implausible s x1).cmp = s.cmp ∧ (State.implausible s x1).mem = s.mem ∧
    (State.implausible s x1).tbu = s.tbu ∧ (State.implausible s x1).hk = s.hk ∧ (State.implausible s x1).boot = s.boot ∧
    (State.implausible s x1).goodAt = s.goodAt ∧ (State.implausible s x1).free = s.free ∧
    (State.implausible s x1).pending = s.pending := by
  unfold State.implausible
  simp

@[simp] theorem State.judgeMirror_frame (s : State) (x1 : ℤ) (x2 : ℤ) (x3 : ℕ) (x4 : ℕ) :
    (State.judgeMirror s x1 x2 x3 x4).clk = s.clk ∧ (State.judgeMirror s x1 x2 x3 x4).tofs = s.tofs ∧
    (State.judgeMirror s x1 x2 x3 x4).dev = s.dev ∧ (State.judgeMirror s x1 x2 x3 x4).seq = s.seq ∧
    (State.judgeMirror s x1 x2 x3 x4).rta = s.rta ∧ (State.judgeMirror s x1 x2 x3 x4).rpe = s.rpe ∧
    (State.judgeMirror s x1 x2 x3 x4).fso = s.fso ∧ (State.judgeMirror s x1 x2 x3 x4).cmp = s.cmp ∧
    (State.judgeMirror s x1 x2 x3 x4).mem = s.mem ∧ (State.judgeMirror s x1 x2 x3 x4).tbu = s.tbu ∧
    (State.judgeMirror s x1 x2 x3 x4).hk = s.hk ∧ (State.judgeMirror s x1 x2 x3 x4).boot = s.boot ∧
    (State.judgeMirror s x1 x2 x3 x4).goodAt = s.goodAt ∧ (State.judgeMirror s x1 x2 x3 x4).free = s.free ∧
    (State.judgeMirror s x1 x2 x3 x4).pending = s.pending := by
  unfold State.judgeMirror
  (repeat' (first | (split; rename_i heq; have h1 := congrArg Prod.fst heq; have h2 := congrArg Prod.snd heq; dsimp only at h1 h2; (try subst h1); (try subst h2)) | split)) <;> simp

@[simp] theorem State.l0Sample_frame (s : State) (x1 : ℤ) (x2 : ℤ) (x3 : ℕ) (x4 : ℕ) (x5 : Bool) :
    (State.l0Sample s x1 x2 x3 x4 x5).clk = s.clk ∧ (State.l0Sample s x1 x2 x3 x4 x5).tofs = s.tofs ∧
    (State.l0Sample s x1 x2 x3 x4 x5).dev = s.dev ∧ (State.l0Sample s x1 x2 x3 x4 x5).seq = s.seq ∧
    (State.l0Sample s x1 x2 x3 x4 x5).rta = s.rta ∧ (State.l0Sample s x1 x2 x3 x4 x5).rpe = s.rpe ∧
    (State.l0Sample s x1 x2 x3 x4 x5).fso = s.fso ∧ (State.l0Sample s x1 x2 x3 x4 x5).cmp = s.cmp ∧
    (State.l0Sample s x1 x2 x3 x4 x5).mem = s.mem ∧ (State.l0Sample s x1 x2 x3 x4 x5).tbu = s.tbu ∧
    (State.l0Sample s x1 x2 x3 x4 x5).hk = s.hk ∧ (State.l0Sample s x1 x2 x3 x4 x5).boot = s.boot ∧
    (State.l0Sample s x1 x2 x3 x4 x5).goodAt = s.goodAt ∧ (State.l0Sample s x1 x2 x3 x4 x5).free = s.free ∧
    (State.l0Sample s x1 x2 x3 x4 x5).pending = s.pending := by
  unfold State.l0Sample
  dsimp only
  (repeat' (first | (split; rename_i heq; have h1 := congrArg Prod.fst heq; have h2 := congrArg Prod.snd heq; dsimp only at h1 h2; (try subst h1); (try subst h2)) | split)) <;> simp

@[simp] theorem State.measureTp_frame (s : State) (x1 : SenseCh) (x2 : TpEv) (x3 : ℕ) (x4 : ℤ) (x5 : ℕ) :
    (State.measureTp s x1 x2 x3 x4 x5).clk = s.clk ∧ (State.measureTp s x1 x2 x3 x4 x5).tofs = s.tofs ∧
    (State.measureTp s x1 x2 x3 x4 x5).dev = s.dev ∧ (State.measureTp s x1 x2 x3 x4 x5).rta = s.rta ∧
    (State.measureTp s x1 x2 x3 x4 x5).rpe = s.rpe ∧ (State.measureTp s x1 x2 x3 x4 x5).fso = s.fso ∧
    (State.measureTp s x1 x2 x3 x4 x5).cmp = s.cmp ∧ (State.measureTp s x1 x2 x3 x4 x5).mem = s.mem ∧
    (State.measureTp s x1 x2 x3 x4 x5).tbu = s.tbu ∧ (State.measureTp s x1 x2 x3 x4 x5).hk = s.hk ∧
    (State.measureTp s x1 x2 x3 x4 x5).boot = s.boot ∧ (State.measureTp s x1 x2 x3 x4 x5).goodAt = s.goodAt ∧
    (State.measureTp s x1 x2 x3 x4 x5).free = s.free ∧ (State.measureTp s x1 x2 x3 x4 x5).pending = s.pending := by
  unfold State.measureTp
  simp

@[simp] theorem State.detectTp_frame (s : State) (x1 : SenseCh) :
    (State.detectTp s x1).clk = s.clk ∧ (State.detectTp s x1).tofs = s.tofs ∧ (State.detectTp s x1).dev = s.dev ∧
    (State.detectTp s x1).rta = s.rta ∧ (State.detectTp s x1).rpe = s.rpe ∧ (State.detectTp s x1).fso = s.fso ∧
    (State.detectTp s x1).cmp = s.cmp ∧ (State.detectTp s x1).mem = s.mem ∧ (State.detectTp s x1).tbu = s.tbu ∧
    (State.detectTp s x1).hk = s.hk ∧ (State.detectTp s x1).boot = s.boot ∧ (State.detectTp s x1).goodAt = s.goodAt ∧
    (State.detectTp s x1).free = s.free ∧ (State.detectTp s x1).pending = s.pending := by
  unfold State.detectTp
  (repeat' (first | (split; rename_i heq; have h1 := congrArg Prod.fst heq; have h2 := congrArg Prod.snd heq; dsimp only at h1 h2; (try subst h1); (try subst h2)) | split)) <;> simp

@[simp] theorem State.startL0_frame (s : State) :
    (State.startL0 s).clk = s.clk ∧ (State.startL0 s).tofs = s.tofs ∧ (State.startL0 s).dev = s.dev ∧
    (State.startL0 s).mgmt = s.mgmt ∧ (State.startL0 s).seq = s.seq ∧ (State.startL0 s).edu = s.edu ∧
    (State.startL0 s).rta = s.rta ∧ (State.startL0 s).rpe = s.rpe ∧ (State.startL0 s).saf = s.saf ∧
    (State.startL0 s).cap = s.cap ∧ (State.startL0 s).fso = s.fso ∧ (State.startL0 s).cmp = s.cmp ∧
    (State.startL0 s).mem = s.mem ∧ (State.startL0 s).lnk = s.lnk ∧ (State.startL0 s).tbu = s.tbu ∧
    (State.startL0 s).hk = s.hk ∧ (State.startL0 s).boot = s.boot ∧ (State.startL0 s).out = s.out ∧
    (State.startL0 s).goodAt = s.goodAt ∧ (State.startL0 s).free = s.free ∧ (State.startL0 s).pending = s.pending := by
  unfold State.startL0
  simp

@[simp] theorem State.startMirror_frame (s : State) :
    (State.startMirror s).clk = s.clk ∧ (State.startMirror s).tofs = s.tofs ∧ (State.startMirror s).dev = s.dev ∧
    (State.startMirror s).mgmt = s.mgmt ∧ (State.startMirror s).seq = s.seq ∧ (State.startMirror s).edu = s.edu ∧
    (State.startMirror s).rta = s.rta ∧ (State.startMirror s).rpe = s.rpe ∧ (State.startMirror s).saf = s.saf ∧
    (State.startMirror s).cap = s.cap ∧ (State.startMirror s).fso = s.fso ∧ (State.startMirror s).cmp = s.cmp ∧
    (State.startMirror s).mem = s.mem ∧ (State.startMirror s).lnk = s.lnk ∧ (State.startMirror s).tbu = s.tbu ∧
    (State.startMirror s).hk = s.hk ∧ (State.startMirror s).boot = s.boot ∧ (State.startMirror s).out = s.out ∧
    (State.startMirror s).goodAt = s.goodAt ∧ (State.startMirror s).free = s.free ∧
    (State.startMirror s).pending = s.pending := by
  unfold State.startMirror
  simp

@[simp] theorem State.stuFaultCleared_frame (s : State) (x1 : Word) :
    (State.stuFaultCleared s x1).clk = s.clk ∧ (State.stuFaultCleared s x1).tofs = s.tofs ∧
    (State.stuFaultCleared s x1).dev = s.dev ∧ (State.stuFaultCleared s x1).seq = s.seq ∧
    (State.stuFaultCleared s x1).edu = s.edu ∧ (State.stuFaultCleared s x1).rta = s.rta ∧
    (State.stuFaultCleared s x1).rpe = s.rpe ∧ (State.stuFaultCleared s x1).fso = s.fso ∧
    (State.stuFaultCleared s x1).cmp = s.cmp ∧ (State.stuFaultCleared s x1).mem = s.mem ∧
    (State.stuFaultCleared s x1).tbu = s.tbu ∧ (State.stuFaultCleared s x1).hk = s.hk ∧
    (State.stuFaultCleared s x1).boot = s.boot ∧ (State.stuFaultCleared s x1).goodAt = s.goodAt ∧
    (State.stuFaultCleared s x1).free = s.free ∧ (State.stuFaultCleared s x1).pending = s.pending := by
  unfold State.stuFaultCleared
  simp

@[simp] theorem State.writeSns_frame (s : State) (x1 : SenseCh) (x2 : Word) :
    (State.writeSns s x1 x2).2.clk = s.clk ∧ (State.writeSns s x1 x2).2.tofs = s.tofs ∧
    (State.writeSns s x1 x2).2.dev = s.dev ∧ (State.writeSns s x1 x2).2.mgmt = s.mgmt ∧
    (State.writeSns s x1 x2).2.seq = s.seq ∧ (State.writeSns s x1 x2).2.edu = s.edu ∧
    (State.writeSns s x1 x2).2.rta = s.rta ∧ (State.writeSns s x1 x2).2.rpe = s.rpe ∧
    (State.writeSns s x1 x2).2.saf = s.saf ∧ (State.writeSns s x1 x2).2.cap = s.cap ∧
    (State.writeSns s x1 x2).2.fso = s.fso ∧ (State.writeSns s x1 x2).2.cmp = s.cmp ∧
    (State.writeSns s x1 x2).2.mem = s.mem ∧ (State.writeSns s x1 x2).2.lnk = s.lnk ∧
    (State.writeSns s x1 x2).2.tbu = s.tbu ∧ (State.writeSns s x1 x2).2.hk = s.hk ∧
    (State.writeSns s x1 x2).2.boot = s.boot ∧ (State.writeSns s x1 x2).2.out = s.out ∧
    (State.writeSns s x1 x2).2.goodAt = s.goodAt ∧ (State.writeSns s x1 x2).2.free = s.free ∧
    (State.writeSns s x1 x2).2.pending = s.pending := by
  unfold State.writeSns
  simp

@[simp] theorem State.setLoop_frame (s : State) (x1 : ℕ) (x2 : Loop) :
    (State.setLoop s x1 x2).clk = s.clk ∧ (State.setLoop s x1 x2).tofs = s.tofs ∧ (State.setLoop s x1 x2).dev = s.dev ∧
    (State.setLoop s x1 x2).regs = s.regs ∧ (State.setLoop s x1 x2).mgmt = s.mgmt ∧ (State.setLoop s x1 x2).seq = s.seq ∧
    (State.setLoop s x1 x2).edu = s.edu ∧ (State.setLoop s x1 x2).rta = s.rta ∧ (State.setLoop s x1 x2).rpe = s.rpe ∧
    (State.setLoop s x1 x2).saf = s.saf ∧ (State.setLoop s x1 x2).cap = s.cap ∧ (State.setLoop s x1 x2).fso = s.fso ∧
    (State.setLoop s x1 x2).cmp = s.cmp ∧ (State.setLoop s x1 x2).mem = s.mem ∧ (State.setLoop s x1 x2).lnk = s.lnk ∧
    (State.setLoop s x1 x2).tbu = s.tbu ∧ (State.setLoop s x1 x2).hk = s.hk ∧ (State.setLoop s x1 x2).boot = s.boot ∧
    (State.setLoop s x1 x2).out = s.out ∧ (State.setLoop s x1 x2).goodAt = s.goodAt ∧
    (State.setLoop s x1 x2).free = s.free ∧ (State.setLoop s x1 x2).pending = s.pending := by
  unfold State.setLoop
  simp

@[simp] theorem State.writeCenCtl_frame (s : State) (x1 : ℕ) (x2 : Word) :
    (State.writeCenCtl s x1 x2).clk = s.clk ∧ (State.writeCenCtl s x1 x2).tofs = s.tofs ∧
    (State.writeCenCtl s x1 x2).dev = s.dev ∧ (State.writeCenCtl s x1 x2).mgmt = s.mgmt ∧
    (State.writeCenCtl s x1 x2).seq = s.seq ∧ (State.writeCenCtl s x1 x2).edu = s.edu ∧
    (State.writeCenCtl s x1 x2).rta = s.rta ∧ (State.writeCenCtl s x1 x2).rpe = s.rpe ∧
    (State.writeCenCtl s x1 x2).saf = s.saf ∧ (State.writeCenCtl s x1 x2).cap = s.cap ∧
    (State.writeCenCtl s x1 x2).fso = s.fso ∧ (State.writeCenCtl s x1 x2).cmp = s.cmp ∧
    (State.writeCenCtl s x1 x2).mem = s.mem ∧ (State.writeCenCtl s x1 x2).lnk = s.lnk ∧
    (State.writeCenCtl s x1 x2).tbu = s.tbu ∧ (State.writeCenCtl s x1 x2).hk = s.hk ∧
    (State.writeCenCtl s x1 x2).boot = s.boot ∧ (State.writeCenCtl s x1 x2).out = s.out ∧
    (State.writeCenCtl s x1 x2).goodAt = s.goodAt ∧ (State.writeCenCtl s x1 x2).free = s.free ∧
    (State.writeCenCtl s x1 x2).pending = s.pending := by
  unfold State.writeCenCtl
  simp

@[simp] theorem State.writeTgt_frame (s : State) (x1 : Word) :
    (State.writeTgt s x1).clk = s.clk ∧ (State.writeTgt s x1).tofs = s.tofs ∧ (State.writeTgt s x1).dev = s.dev ∧
    (State.writeTgt s x1).mgmt = s.mgmt ∧ (State.writeTgt s x1).seq = s.seq ∧ (State.writeTgt s x1).edu = s.edu ∧
    (State.writeTgt s x1).rta = s.rta ∧ (State.writeTgt s x1).rpe = s.rpe ∧ (State.writeTgt s x1).saf = s.saf ∧
    (State.writeTgt s x1).cap = s.cap ∧ (State.writeTgt s x1).fso = s.fso ∧ (State.writeTgt s x1).cmp = s.cmp ∧
    (State.writeTgt s x1).mem = s.mem ∧ (State.writeTgt s x1).lnk = s.lnk ∧ (State.writeTgt s x1).tbu = s.tbu ∧
    (State.writeTgt s x1).hk = s.hk ∧ (State.writeTgt s x1).boot = s.boot ∧ (State.writeTgt s x1).out = s.out ∧
    (State.writeTgt s x1).goodAt = s.goodAt ∧ (State.writeTgt s x1).free = s.free ∧
    (State.writeTgt s x1).pending = s.pending := by
  unfold State.writeTgt
  simp

@[simp] theorem State.tpLost_inv (s : State) (x1 : SenseCh) (h : s.Inv) : (State.tpLost s x1).Inv := by
  unfold State.tpLost
  (repeat' (first | (split; rename_i heq; have h1 := congrArg Prod.fst heq; have h2 := congrArg Prod.snd heq; dsimp only at h1 h2; (try subst h1); (try subst h2)) | split)) <;> simp +contextual (maxDischargeDepth := 100) [h]

@[simp] theorem State.issueTp_inv (s : State) (x1 : SenseCh) (x2 : TpEv) : (State.issueTp s x1 x2).Inv ↔ s.Inv := inv_of_parts (by simp) (by simp)

@[simp] theorem State.noteTp_inv (s : State) (x1 : SenseCh) (x2 : Option ℤ) (h : s.Inv) : (State.noteTp s x1 x2).Inv := by
  unfold State.noteTp
  (repeat' (first | (split; rename_i heq; have h1 := congrArg Prod.fst heq; have h2 := congrArg Prod.snd heq; dsimp only at h1 h2; (try subst h1); (try subst h2)) | split)) <;> simp +contextual (maxDischargeDepth := 100) [h]

@[simp] theorem State.implausible_inv (s : State) (x1 : ℕ) (h : s.Inv) : (State.implausible s x1).Inv := by
  unfold State.implausible
  simp (maxDischargeDepth := 100) [h]

@[simp] theorem State.judgeMirror_inv (s : State) (x1 : ℤ) (x2 : ℤ) (x3 : ℕ) (x4 : ℕ) (h : s.Inv) : (State.judgeMirror s x1 x2 x3 x4).Inv := by
  unfold State.judgeMirror
  (repeat' (first | (split; rename_i heq; have h1 := congrArg Prod.fst heq; have h2 := congrArg Prod.snd heq; dsimp only at h1 h2; (try subst h1); (try subst h2)) | split)) <;> simp +contextual (maxDischargeDepth := 100) [h]

@[simp] theorem State.l0Sample_inv (s : State) (x1 : ℤ) (x2 : ℤ) (x3 : ℕ) (x4 : ℕ) (x5 : Bool) (h : s.Inv) : (State.l0Sample s x1 x2 x3 x4 x5).Inv := by
  unfold State.l0Sample
  dsimp only
  (repeat' (first | (split; rename_i heq; have h1 := congrArg Prod.fst heq; have h2 := congrArg Prod.snd heq; dsimp only at h1 h2; (try subst h1); (try subst h2)) | split)) <;> simp +contextual (maxDischargeDepth := 100) [h]

@[simp] theorem State.measureTp_inv (s : State) (x1 : SenseCh) (x2 : TpEv) (x3 : ℕ) (x4 : ℤ) (x5 : ℕ) (h : s.Inv) : (State.measureTp s x1 x2 x3 x4 x5).Inv := by
  unfold State.measureTp
  simp (maxDischargeDepth := 100) [h]

@[simp] theorem State.detectTp_inv (s : State) (x1 : SenseCh) (h : s.Inv) : (State.detectTp s x1).Inv := by
  unfold State.detectTp
  (repeat' (first | (split; rename_i heq; have h1 := congrArg Prod.fst heq; have h2 := congrArg Prod.snd heq; dsimp only at h1 h2; (try subst h1); (try subst h2)) | split)) <;> simp +contextual (maxDischargeDepth := 100) [h]

@[simp] theorem State.startL0_inv (s : State) (h : s.Inv) : (State.startL0 s).Inv := by
  unfold State.startL0
  simp (maxDischargeDepth := 100) [h]

@[simp] theorem State.startMirror_inv (s : State) (h : s.Inv) : (State.startMirror s).Inv := by
  unfold State.startMirror
  simp (maxDischargeDepth := 100) [h]

@[simp] theorem State.stuFaultCleared_inv (s : State) (x1 : Word) (h : s.Inv) : (State.stuFaultCleared s x1).Inv := by
  unfold State.stuFaultCleared
  simp (maxDischargeDepth := 100) [h]

@[simp] theorem State.writeSns_inv (s : State) (x1 : SenseCh) (x2 : Word) (h : s.Inv) : (State.writeSns s x1 x2).2.Inv := by
  unfold State.writeSns
  simp (maxDischargeDepth := 100) [h]

@[simp] theorem State.setLoop_inv (s : State) (x1 : ℕ) (x2 : Loop) : (State.setLoop s x1 x2).Inv ↔ s.Inv := inv_of_parts (by simp) (by simp)

@[simp] theorem State.writeCenCtl_inv (s : State) (x1 : ℕ) (x2 : Word) (h : s.Inv) : (State.writeCenCtl s x1 x2).Inv := by
  unfold State.writeCenCtl
  simp (maxDischargeDepth := 100) [h]

@[simp] theorem State.writeTgt_inv (s : State) (x1 : Word) (h : s.Inv) : (State.writeTgt s x1).Inv := by
  unfold State.writeTgt
  simp (maxDischargeDepth := 100) [h]

/-! ### Compress -/

@[simp] theorem State.setCtx_frame (s : State) (x1 : ℕ) (x2 : Ctx) :
    (State.setCtx s x1 x2).clk = s.clk ∧ (State.setCtx s x1 x2).tofs = s.tofs ∧ (State.setCtx s x1 x2).dev = s.dev ∧
    (State.setCtx s x1 x2).regs = s.regs ∧ (State.setCtx s x1 x2).mgmt = s.mgmt ∧ (State.setCtx s x1 x2).seq = s.seq ∧
    (State.setCtx s x1 x2).edu = s.edu ∧ (State.setCtx s x1 x2).rta = s.rta ∧ (State.setCtx s x1 x2).rpe = s.rpe ∧
    (State.setCtx s x1 x2).stu = s.stu ∧ (State.setCtx s x1 x2).saf = s.saf ∧ (State.setCtx s x1 x2).cap = s.cap ∧
    (State.setCtx s x1 x2).fso = s.fso ∧ (State.setCtx s x1 x2).mem = s.mem ∧ (State.setCtx s x1 x2).lnk = s.lnk ∧
    (State.setCtx s x1 x2).tbu = s.tbu ∧ (State.setCtx s x1 x2).hk = s.hk ∧ (State.setCtx s x1 x2).boot = s.boot ∧
    (State.setCtx s x1 x2).out = s.out ∧ (State.setCtx s x1 x2).goodAt = s.goodAt ∧ (State.setCtx s x1 x2).free = s.free ∧
    (State.setCtx s x1 x2).pending = s.pending := by
  unfold State.setCtx
  simp

@[simp] theorem State.freeCtx_frame (s : State) (x1 : ℕ) :
    (State.freeCtx s x1).clk = s.clk ∧ (State.freeCtx s x1).tofs = s.tofs ∧ (State.freeCtx s x1).dev = s.dev ∧
    (State.freeCtx s x1).regs = s.regs ∧ (State.freeCtx s x1).mgmt = s.mgmt ∧ (State.freeCtx s x1).seq = s.seq ∧
    (State.freeCtx s x1).edu = s.edu ∧ (State.freeCtx s x1).rta = s.rta ∧ (State.freeCtx s x1).rpe = s.rpe ∧
    (State.freeCtx s x1).stu = s.stu ∧ (State.freeCtx s x1).saf = s.saf ∧ (State.freeCtx s x1).cap = s.cap ∧
    (State.freeCtx s x1).fso = s.fso ∧ (State.freeCtx s x1).mem = s.mem ∧ (State.freeCtx s x1).lnk = s.lnk ∧
    (State.freeCtx s x1).tbu = s.tbu ∧ (State.freeCtx s x1).hk = s.hk ∧ (State.freeCtx s x1).boot = s.boot ∧
    (State.freeCtx s x1).out = s.out ∧ (State.freeCtx s x1).goodAt = s.goodAt ∧ (State.freeCtx s x1).free = s.free ∧
    (State.freeCtx s x1).pending = s.pending := by
  unfold State.freeCtx
  simp

@[simp] theorem State.cmpBlock_frame (s : State) (x1 : ℕ) (x2 : Bool) (x3 : List Word) :
    (State.cmpBlock s x1 x2 x3).2.clk = s.clk ∧ (State.cmpBlock s x1 x2 x3).2.tofs = s.tofs ∧
    (State.cmpBlock s x1 x2 x3).2.dev = s.dev ∧ (State.cmpBlock s x1 x2 x3).2.mgmt = s.mgmt ∧
    (State.cmpBlock s x1 x2 x3).2.seq = s.seq ∧ (State.cmpBlock s x1 x2 x3).2.edu = s.edu ∧
    (State.cmpBlock s x1 x2 x3).2.rta = s.rta ∧ (State.cmpBlock s x1 x2 x3).2.rpe = s.rpe ∧
    (State.cmpBlock s x1 x2 x3).2.stu = s.stu ∧ (State.cmpBlock s x1 x2 x3).2.saf = s.saf ∧
    (State.cmpBlock s x1 x2 x3).2.cap = s.cap ∧ (State.cmpBlock s x1 x2 x3).2.fso = s.fso ∧
    (State.cmpBlock s x1 x2 x3).2.mem = s.mem ∧ (State.cmpBlock s x1 x2 x3).2.lnk = s.lnk ∧
    (State.cmpBlock s x1 x2 x3).2.tbu = s.tbu ∧ (State.cmpBlock s x1 x2 x3).2.hk = s.hk ∧
    (State.cmpBlock s x1 x2 x3).2.boot = s.boot ∧ (State.cmpBlock s x1 x2 x3).2.out = s.out ∧
    (State.cmpBlock s x1 x2 x3).2.goodAt = s.goodAt ∧ (State.cmpBlock s x1 x2 x3).2.free = s.free ∧
    (State.cmpBlock s x1 x2 x3).2.pending = s.pending := by
  unfold State.cmpBlock
  simp

@[simp] theorem State.storeExport_frame (s : State) (x1 : List Word) :
    (State.storeExport s x1).clk = s.clk ∧ (State.storeExport s x1).tofs = s.tofs ∧ (State.storeExport s x1).dev = s.dev ∧
    (State.storeExport s x1).regs = s.regs ∧ (State.storeExport s x1).mgmt = s.mgmt ∧ (State.storeExport s x1).seq = s.seq ∧
    (State.storeExport s x1).edu = s.edu ∧ (State.storeExport s x1).rta = s.rta ∧ (State.storeExport s x1).rpe = s.rpe ∧
    (State.storeExport s x1).stu = s.stu ∧ (State.storeExport s x1).saf = s.saf ∧ (State.storeExport s x1).cap = s.cap ∧
    (State.storeExport s x1).fso = s.fso ∧ (State.storeExport s x1).lnk = s.lnk ∧ (State.storeExport s x1).tbu = s.tbu ∧
    (State.storeExport s x1).hk = s.hk ∧ (State.storeExport s x1).boot = s.boot ∧ (State.storeExport s x1).out = s.out ∧
    (State.storeExport s x1).goodAt = s.goodAt ∧ (State.storeExport s x1).free = s.free ∧
    (State.storeExport s x1).pending = s.pending := by
  unfold State.storeExport
  simp

@[simp] theorem State.startExport_frame (s : State) (x1 : Word) :
    (State.startExport s x1).clk = s.clk ∧ (State.startExport s x1).tofs = s.tofs ∧ (State.startExport s x1).dev = s.dev ∧
    (State.startExport s x1).mgmt = s.mgmt ∧ (State.startExport s x1).seq = s.seq ∧ (State.startExport s x1).edu = s.edu ∧
    (State.startExport s x1).rta = s.rta ∧ (State.startExport s x1).rpe = s.rpe ∧ (State.startExport s x1).stu = s.stu ∧
    (State.startExport s x1).saf = s.saf ∧ (State.startExport s x1).fso = s.fso ∧ (State.startExport s x1).mem = s.mem ∧
    (State.startExport s x1).lnk = s.lnk ∧ (State.startExport s x1).tbu = s.tbu ∧ (State.startExport s x1).hk = s.hk ∧
    (State.startExport s x1).boot = s.boot ∧ (State.startExport s x1).out = s.out ∧
    (State.startExport s x1).goodAt = s.goodAt ∧ (State.startExport s x1).free = s.free ∧
    (State.startExport s x1).pending = s.pending := by
  unfold State.startExport State.openCtx
  split
  · simp
  · rename_i n u h
    split at h
    · cases h
    · simp only [Option.some.injEq, Prod.mk.injEq] at h
      obtain ⟨rfl, rfl⟩ := h
      simp

@[simp] theorem State.writeExpCtl_frame (s : State) (x1 : Word) :
    (State.writeExpCtl s x1).2.clk = s.clk ∧ (State.writeExpCtl s x1).2.tofs = s.tofs ∧
    (State.writeExpCtl s x1).2.dev = s.dev ∧ (State.writeExpCtl s x1).2.mgmt = s.mgmt ∧
    (State.writeExpCtl s x1).2.seq = s.seq ∧ (State.writeExpCtl s x1).2.edu = s.edu ∧
    (State.writeExpCtl s x1).2.rta = s.rta ∧ (State.writeExpCtl s x1).2.rpe = s.rpe ∧
    (State.writeExpCtl s x1).2.stu = s.stu ∧ (State.writeExpCtl s x1).2.saf = s.saf ∧
    (State.writeExpCtl s x1).2.fso = s.fso ∧ (State.writeExpCtl s x1).2.mem = s.mem ∧
    (State.writeExpCtl s x1).2.lnk = s.lnk ∧ (State.writeExpCtl s x1).2.tbu = s.tbu ∧ (State.writeExpCtl s x1).2.hk = s.hk ∧
    (State.writeExpCtl s x1).2.boot = s.boot ∧ (State.writeExpCtl s x1).2.out = s.out ∧
    (State.writeExpCtl s x1).2.goodAt = s.goodAt ∧ (State.writeExpCtl s x1).2.free = s.free ∧
    (State.writeExpCtl s x1).2.pending = s.pending := by
  unfold State.writeExpCtl
  (repeat' (first | (split; rename_i heq; have h1 := congrArg Prod.fst heq; have h2 := congrArg Prod.snd heq; dsimp only at h1 h2; (try subst h1); (try subst h2)) | split)) <;> simp

@[simp] theorem State.sendExport_frame (s : State) (x1 : ExpJob) :
    (State.sendExport s x1).clk = s.clk ∧ (State.sendExport s x1).tofs = s.tofs ∧ (State.sendExport s x1).dev = s.dev ∧
    (State.sendExport s x1).seq = s.seq ∧ (State.sendExport s x1).edu = s.edu ∧ (State.sendExport s x1).rta = s.rta ∧
    (State.sendExport s x1).rpe = s.rpe ∧ (State.sendExport s x1).stu = s.stu ∧ (State.sendExport s x1).cap = s.cap ∧
    (State.sendExport s x1).fso = s.fso ∧ (State.sendExport s x1).cmp = s.cmp ∧ (State.sendExport s x1).mem = s.mem ∧
    (State.sendExport s x1).tbu = s.tbu ∧ (State.sendExport s x1).hk = s.hk ∧ (State.sendExport s x1).boot = s.boot ∧
    (State.sendExport s x1).goodAt = s.goodAt ∧ (State.sendExport s x1).free = s.free ∧
    (State.sendExport s x1).pending = s.pending := by
  unfold State.sendExport
  simp

@[simp] theorem State.setCtx_inv (s : State) (x1 : ℕ) (x2 : Ctx) : (State.setCtx s x1 x2).Inv ↔ s.Inv := inv_of_parts (by simp) (by simp)

@[simp] theorem State.freeCtx_inv (s : State) (x1 : ℕ) : (State.freeCtx s x1).Inv ↔ s.Inv := inv_of_parts (by simp) (by simp)

@[simp] theorem State.cmpBlock_inv (s : State) (x1 : ℕ) (x2 : Bool) (x3 : List Word) (h : s.Inv) : (State.cmpBlock s x1 x2 x3).2.Inv := by
  unfold State.cmpBlock
  simp (maxDischargeDepth := 100) [h]

@[simp] theorem State.storeExport_inv (s : State) (x1 : List Word) : (State.storeExport s x1).Inv ↔ s.Inv := inv_of_parts (by simp) (by simp)

@[simp] theorem State.startExport_inv (s : State) (x1 : Word) (h : s.Inv) : (State.startExport s x1).Inv := by
  unfold State.startExport State.openCtx
  split
  · exact h
  · rename_i n u hu
    split at hu
    · cases hu
    · simp only [Option.some.injEq, Prod.mk.injEq] at hu
      obtain ⟨rfl, rfl⟩ := hu
      simp (maxDischargeDepth := 100) [h]

@[simp] theorem State.writeExpCtl_inv (s : State) (x1 : Word) (h : s.Inv) : (State.writeExpCtl s x1).2.Inv := by
  unfold State.writeExpCtl
  (repeat' (first | (split; rename_i heq; have h1 := congrArg Prod.fst heq; have h2 := congrArg Prod.snd heq; dsimp only at h1 h2; (try subst h1); (try subst h2)) | split)) <;> simp +contextual (maxDischargeDepth := 100) [h]

@[simp] theorem State.sendExport_inv (s : State) (x1 : ExpJob) (h : s.Inv) : (State.sendExport s x1).Inv := by
  unfold State.sendExport
  simp (maxDischargeDepth := 100) [h]

end Sys2Proof.Machine
end

