-- ==== Sys2Proof/Laws/Links.lean ====
section
/-! SUPPORT. Partners, frames, lanes, timebase, chain and network: for every operation on the state, the parts that it leaves unchanged (`_frame`) and that it keeps the form of
every state (`_inv`). A lemma of an operation that chooses between two states has a premise for the second. -/

namespace Sys2Proof.Machine

/-! ### Partners -/

@[simp] theorem State.setStream_frame (s : State) (x1 : ℕ) (x2 : Stream) :
    (State.setStream s x1 x2).clk = s.clk ∧ (State.setStream s x1 x2).tofs = s.tofs ∧
    (State.setStream s x1 x2).dev = s.dev ∧ (State.setStream s x1 x2).regs = s.regs ∧
    (State.setStream s x1 x2).mgmt = s.mgmt ∧ (State.setStream s x1 x2).seq = s.seq ∧
    (State.setStream s x1 x2).edu = s.edu ∧ (State.setStream s x1 x2).rta = s.rta ∧ (State.setStream s x1 x2).rpe = s.rpe ∧
    (State.setStream s x1 x2).stu = s.stu ∧ (State.setStream s x1 x2).saf = s.saf ∧ (State.setStream s x1 x2).cap = s.cap ∧
    (State.setStream s x1 x2).cmp = s.cmp ∧ (State.setStream s x1 x2).mem = s.mem ∧ (State.setStream s x1 x2).lnk = s.lnk ∧
    (State.setStream s x1 x2).tbu = s.tbu ∧ (State.setStream s x1 x2).hk = s.hk ∧ (State.setStream s x1 x2).boot = s.boot ∧
    (State.setStream s x1 x2).out = s.out ∧ (State.setStream s x1 x2).goodAt = s.goodAt ∧
    (State.setStream s x1 x2).free = s.free ∧ (State.setStream s x1 x2).pending = s.pending := by
  unfold State.setStream
  simp

@[simp] theorem State.resolve_frame (s : State) (x1 : ℕ) (x2 : BitVec 32) :
    (State.resolve s x1 x2).clk = s.clk ∧ (State.resolve s x1 x2).tofs = s.tofs ∧ (State.resolve s x1 x2).dev = s.dev ∧
    (State.resolve s x1 x2).regs = s.regs ∧ (State.resolve s x1 x2).mgmt = s.mgmt ∧ (State.resolve s x1 x2).seq = s.seq ∧
    (State.resolve s x1 x2).edu = s.edu ∧ (State.resolve s x1 x2).rta = s.rta ∧ (State.resolve s x1 x2).rpe = s.rpe ∧
    (State.resolve s x1 x2).stu = s.stu ∧ (State.resolve s x1 x2).saf = s.saf ∧ (State.resolve s x1 x2).cap = s.cap ∧
    (State.resolve s x1 x2).fso = s.fso ∧ (State.resolve s x1 x2).cmp = s.cmp ∧ (State.resolve s x1 x2).mem = s.mem ∧
    (State.resolve s x1 x2).tbu = s.tbu ∧ (State.resolve s x1 x2).hk = s.hk ∧ (State.resolve s x1 x2).boot = s.boot ∧
    (State.resolve s x1 x2).goodAt = s.goodAt ∧ (State.resolve s x1 x2).free = s.free ∧
    (State.resolve s x1 x2).pending = s.pending := by
  unfold State.resolve
  simp

@[simp] theorem State.rxDlp_frame (s : State) (x1 : ℕ) (x2 : EthSrc) (x3 : ℕ) (x4 : List Word) :
    (State.rxDlp s x1 x2 x3 x4).2.clk = s.clk ∧ (State.rxDlp s x1 x2 x3 x4).2.tofs = s.tofs ∧
    (State.rxDlp s x1 x2 x3 x4).2.dev = s.dev ∧ (State.rxDlp s x1 x2 x3 x4).2.mgmt = s.mgmt ∧
    (State.rxDlp s x1 x2 x3 x4).2.seq = s.seq ∧ (State.rxDlp s x1 x2 x3 x4).2.edu = s.edu ∧
    (State.rxDlp s x1 x2 x3 x4).2.rta = s.rta ∧ (State.rxDlp s x1 x2 x3 x4).2.rpe = s.rpe ∧
    (State.rxDlp s x1 x2 x3 x4).2.stu = s.stu ∧ (State.rxDlp s x1 x2 x3 x4).2.saf = s.saf ∧
    (State.rxDlp s x1 x2 x3 x4).2.cap = s.cap ∧ (State.rxDlp s x1 x2 x3 x4).2.fso = s.fso ∧
    (State.rxDlp s x1 x2 x3 x4).2.cmp = s.cmp ∧ (State.rxDlp s x1 x2 x3 x4).2.mem = s.mem ∧
    (State.rxDlp s x1 x2 x3 x4).2.tbu = s.tbu ∧ (State.rxDlp s x1 x2 x3 x4).2.hk = s.hk ∧
    (State.rxDlp s x1 x2 x3 x4).2.boot = s.boot ∧ (State.rxDlp s x1 x2 x3 x4).2.out = s.out ∧
    (State.rxDlp s x1 x2 x3 x4).2.goodAt = s.goodAt ∧ (State.rxDlp s x1 x2 x3 x4).2.free = s.free ∧
    (State.rxDlp s x1 x2 x3 x4).2.pending = s.pending := by
  unfold State.rxDlp
  (repeat' (first | (split; rename_i heq; have h1 := congrArg Prod.fst heq; have h2 := congrArg Prod.snd heq; dsimp only at h1 h2; (try subst h1); (try subst h2)) | split)) <;> simp

@[simp] theorem State.closeStreamCtx_frame (s : State) (x1 : ℕ) :
    (State.closeStreamCtx s x1).clk = s.clk ∧ (State.closeStreamCtx s x1).tofs = s.tofs ∧
    (State.closeStreamCtx s x1).dev = s.dev ∧ (State.closeStreamCtx s x1).regs = s.regs ∧
    (State.closeStreamCtx s x1).mgmt = s.mgmt ∧ (State.closeStreamCtx s x1).seq = s.seq ∧
    (State.closeStreamCtx s x1).edu = s.edu ∧ (State.closeStreamCtx s x1).rta = s.rta ∧
    (State.closeStreamCtx s x1).rpe = s.rpe ∧ (State.closeStreamCtx s x1).stu = s.stu ∧
    (State.closeStreamCtx s x1).saf = s.saf ∧ (State.closeStreamCtx s x1).cap = s.cap ∧
    (State.closeStreamCtx s x1).fso = s.fso ∧ (State.closeStreamCtx s x1).mem = s.mem ∧
    (State.closeStreamCtx s x1).lnk = s.lnk ∧ (State.closeStreamCtx s x1).tbu = s.tbu ∧
    (State.closeStreamCtx s x1).hk = s.hk ∧ (State.closeStreamCtx s x1).boot = s.boot ∧
    (State.closeStreamCtx s x1).out = s.out ∧ (State.closeStreamCtx s x1).goodAt = s.goodAt ∧
    (State.closeStreamCtx s x1).free = s.free ∧ (State.closeStreamCtx s x1).pending = s.pending := by
  unfold State.closeStreamCtx
  (repeat' (first | (split; rename_i heq; have h1 := congrArg Prod.fst heq; have h2 := congrArg Prod.snd heq; dsimp only at h1 h2; (try subst h1); (try subst h2)) | split)) <;> simp

@[simp] theorem State.closeCtxs_frame (s : State) :
    (State.closeCtxs s).clk = s.clk ∧ (State.closeCtxs s).tofs = s.tofs ∧ (State.closeCtxs s).dev = s.dev ∧
    (State.closeCtxs s).regs = s.regs ∧ (State.closeCtxs s).mgmt = s.mgmt ∧ (State.closeCtxs s).seq = s.seq ∧
    (State.closeCtxs s).edu = s.edu ∧ (State.closeCtxs s).rta = s.rta ∧ (State.closeCtxs s).rpe = s.rpe ∧
    (State.closeCtxs s).stu = s.stu ∧ (State.closeCtxs s).saf = s.saf ∧ (State.closeCtxs s).cap = s.cap ∧
    (State.closeCtxs s).fso = s.fso ∧ (State.closeCtxs s).mem = s.mem ∧ (State.closeCtxs s).lnk = s.lnk ∧
    (State.closeCtxs s).tbu = s.tbu ∧ (State.closeCtxs s).hk = s.hk ∧ (State.closeCtxs s).boot = s.boot ∧
    (State.closeCtxs s).out = s.out ∧ (State.closeCtxs s).goodAt = s.goodAt ∧ (State.closeCtxs s).free = s.free ∧
    (State.closeCtxs s).pending = s.pending := by
  unfold State.closeCtxs
  simp

@[simp] theorem State.freePtn_frame (s : State) (x1 : ℕ) :
    (State.freePtn s x1).clk = s.clk ∧ (State.freePtn s x1).tofs = s.tofs ∧ (State.freePtn s x1).dev = s.dev ∧
    (State.freePtn s x1).seq = s.seq ∧ (State.freePtn s x1).edu = s.edu ∧ (State.freePtn s x1).rta = s.rta ∧
    (State.freePtn s x1).rpe = s.rpe ∧ (State.freePtn s x1).stu = s.stu ∧ (State.freePtn s x1).cap = s.cap ∧
    (State.freePtn s x1).fso = s.fso ∧ (State.freePtn s x1).cmp = s.cmp ∧ (State.freePtn s x1).mem = s.mem ∧
    (State.freePtn s x1).tbu = s.tbu ∧ (State.freePtn s x1).hk = s.hk ∧ (State.freePtn s x1).boot = s.boot ∧
    (State.freePtn s x1).goodAt = s.goodAt ∧ (State.freePtn s x1).free = s.free ∧
    (State.freePtn s x1).pending = s.pending := by
  unfold State.freePtn
  simp

@[simp] theorem State.dropAccs_frame (s : State) (x1 : ℕ) :
    (State.dropAccs s x1).clk = s.clk ∧ (State.dropAccs s x1).tofs = s.tofs ∧ (State.dropAccs s x1).dev = s.dev ∧
    (State.dropAccs s x1).regs = s.regs ∧ (State.dropAccs s x1).mgmt = s.mgmt ∧ (State.dropAccs s x1).seq = s.seq ∧
    (State.dropAccs s x1).edu = s.edu ∧ (State.dropAccs s x1).rta = s.rta ∧ (State.dropAccs s x1).rpe = s.rpe ∧
    (State.dropAccs s x1).stu = s.stu ∧ (State.dropAccs s x1).saf = s.saf ∧ (State.dropAccs s x1).cap = s.cap ∧
    (State.dropAccs s x1).cmp = s.cmp ∧ (State.dropAccs s x1).mem = s.mem ∧ (State.dropAccs s x1).lnk = s.lnk ∧
    (State.dropAccs s x1).tbu = s.tbu ∧ (State.dropAccs s x1).hk = s.hk ∧ (State.dropAccs s x1).boot = s.boot ∧
    (State.dropAccs s x1).out = s.out ∧ (State.dropAccs s x1).goodAt = s.goodAt ∧ (State.dropAccs s x1).free = s.free ∧
    (State.dropAccs s x1).pending = s.pending := by
  unfold State.dropAccs
  simp

@[simp] theorem State.closePtn_frame (s : State) (x1 : ℕ) :
    (State.closePtn s x1).clk = s.clk ∧ (State.closePtn s x1).tofs = s.tofs ∧ (State.closePtn s x1).dev = s.dev ∧
    (State.closePtn s x1).seq = s.seq ∧ (State.closePtn s x1).edu = s.edu ∧ (State.closePtn s x1).rta = s.rta ∧
    (State.closePtn s x1).rpe = s.rpe ∧ (State.closePtn s x1).stu = s.stu ∧ (State.closePtn s x1).cap = s.cap ∧
    (State.closePtn s x1).mem = s.mem ∧ (State.closePtn s x1).tbu = s.tbu ∧ (State.closePtn s x1).hk = s.hk ∧
    (State.closePtn s x1).boot = s.boot ∧ (State.closePtn s x1).goodAt = s.goodAt ∧ (State.closePtn s x1).free = s.free ∧
    (State.closePtn s x1).pending = s.pending := by
  unfold State.closePtn
  simp

@[simp] theorem State.settleClosing_frame (s : State) :
    (State.settleClosing s).clk = s.clk ∧ (State.settleClosing s).tofs = s.tofs ∧ (State.settleClosing s).dev = s.dev ∧
    (State.settleClosing s).seq = s.seq ∧ (State.settleClosing s).edu = s.edu ∧ (State.settleClosing s).rta = s.rta ∧
    (State.settleClosing s).rpe = s.rpe ∧ (State.settleClosing s).stu = s.stu ∧ (State.settleClosing s).cap = s.cap ∧
    (State.settleClosing s).fso = s.fso ∧ (State.settleClosing s).cmp = s.cmp ∧ (State.settleClosing s).mem = s.mem ∧
    (State.settleClosing s).tbu = s.tbu ∧ (State.settleClosing s).hk = s.hk ∧ (State.settleClosing s).boot = s.boot ∧
    (State.settleClosing s).goodAt = s.goodAt ∧ (State.settleClosing s).free = s.free ∧
    (State.settleClosing s).pending = s.pending := by
  unfold State.settleClosing
  simp

@[simp] theorem State.cutFrames_frame (s : State) (x1 : ℕ) :
    (State.cutFrames s x1).clk = s.clk ∧ (State.cutFrames s x1).tofs = s.tofs ∧ (State.cutFrames s x1).dev = s.dev ∧
    (State.cutFrames s x1).regs = s.regs ∧ (State.cutFrames s x1).mgmt = s.mgmt ∧ (State.cutFrames s x1).seq = s.seq ∧
    (State.cutFrames s x1).edu = s.edu ∧ (State.cutFrames s x1).rta = s.rta ∧ (State.cutFrames s x1).rpe = s.rpe ∧
    (State.cutFrames s x1).stu = s.stu ∧ (State.cutFrames s x1).saf = s.saf ∧ (State.cutFrames s x1).cap = s.cap ∧
    (State.cutFrames s x1).cmp = s.cmp ∧ (State.cutFrames s x1).mem = s.mem ∧ (State.cutFrames s x1).lnk = s.lnk ∧
    (State.cutFrames s x1).tbu = s.tbu ∧ (State.cutFrames s x1).hk = s.hk ∧ (State.cutFrames s x1).boot = s.boot ∧
    (State.cutFrames s x1).out = s.out ∧ (State.cutFrames s x1).goodAt = s.goodAt ∧ (State.cutFrames s x1).free = s.free ∧
    (State.cutFrames s x1).pending = s.pending := by
  unfold State.cutFrames
  simp

@[simp] theorem State.flushEvents_frame (x0 : ℕ) (x1 : ℕ) (s : State) :
    (State.flushEvents x0 x1 s).clk = s.clk ∧ (State.flushEvents x0 x1 s).tofs = s.tofs ∧
    (State.flushEvents x0 x1 s).dev = s.dev ∧ (State.flushEvents x0 x1 s).regs = s.regs ∧
    (State.flushEvents x0 x1 s).mgmt = s.mgmt ∧ (State.flushEvents x0 x1 s).seq = s.seq ∧
    (State.flushEvents x0 x1 s).edu = s.edu ∧ (State.flushEvents x0 x1 s).rta = s.rta ∧
    (State.flushEvents x0 x1 s).rpe = s.rpe ∧ (State.flushEvents x0 x1 s).stu = s.stu ∧
    (State.flushEvents x0 x1 s).saf = s.saf ∧ (State.flushEvents x0 x1 s).cap = s.cap ∧
    (State.flushEvents x0 x1 s).fso = s.fso ∧ (State.flushEvents x0 x1 s).cmp = s.cmp ∧
    (State.flushEvents x0 x1 s).mem = s.mem ∧ (State.flushEvents x0 x1 s).tbu = s.tbu ∧
    (State.flushEvents x0 x1 s).hk = s.hk ∧ (State.flushEvents x0 x1 s).boot = s.boot ∧
    (State.flushEvents x0 x1 s).goodAt = s.goodAt ∧ (State.flushEvents x0 x1 s).free = s.free ∧
    (State.flushEvents x0 x1 s).pending = s.pending := by
  induction x0 generalizing s with
  | zero => simp [State.flushEvents]
  | succ n ih => unfold State.flushEvents; (repeat' (first | (split; rename_i heq; have h1 := congrArg Prod.fst heq; have h2 := congrArg Prod.snd heq; dsimp only at h1 h2; (try subst h1); (try subst h2)) | split)) <;> simp [ih]

@[simp] theorem State.sendAgain_frame (s : State) (x1 : ℕ) (x2 : ℕ) (x3 : List Sent) :
    (State.sendAgain s x1 x2 x3).clk = s.clk ∧ (State.sendAgain s x1 x2 x3).tofs = s.tofs ∧
    (State.sendAgain s x1 x2 x3).dev = s.dev ∧ (State.sendAgain s x1 x2 x3).regs = s.regs ∧
    (State.sendAgain s x1 x2 x3).mgmt = s.mgmt ∧ (State.sendAgain s x1 x2 x3).seq = s.seq ∧
    (State.sendAgain s x1 x2 x3).edu = s.edu ∧ (State.sendAgain s x1 x2 x3).rta = s.rta ∧
    (State.sendAgain s x1 x2 x3).rpe = s.rpe ∧ (State.sendAgain s x1 x2 x3).stu = s.stu ∧
    (State.sendAgain s x1 x2 x3).saf = s.saf ∧ (State.sendAgain s x1 x2 x3).cap = s.cap ∧
    (State.sendAgain s x1 x2 x3).fso = s.fso ∧ (State.sendAgain s x1 x2 x3).cmp = s.cmp ∧
    (State.sendAgain s x1 x2 x3).mem = s.mem ∧ (State.sendAgain s x1 x2 x3).lnk = s.lnk ∧
    (State.sendAgain s x1 x2 x3).tbu = s.tbu ∧ (State.sendAgain s x1 x2 x3).hk = s.hk ∧
    (State.sendAgain s x1 x2 x3).boot = s.boot ∧ (State.sendAgain s x1 x2 x3).goodAt = s.goodAt ∧
    (State.sendAgain s x1 x2 x3).free = s.free ∧ (State.sendAgain s x1 x2 x3).pending = s.pending := by
  have h : Only [.out] s (State.sendAgain s x1 x2 x3) := by
    unfold State.sendAgain
    refine Only.fold _ (fun u a => ?_) _ _
    show Only _ u (u.send _)
    refine ⟨by simp, by simp, fun p hp => ?_⟩
    cases p <;> simp_all [Part.same]
  exact ⟨h.1, h.2.2 .tofs (by decide), h.2.2 .dev (by decide), h.2.2 .regs (by decide), h.2.2 .mgmt (by decide), h.2.2 .seq (by decide), h.2.2 .edu (by decide), h.2.2 .rta (by decide), h.2.2 .rpe (by decide), h.2.2 .stu (by decide), h.2.2 .saf (by decide), h.2.2 .cap (by decide), h.2.2 .fso (by decide), h.2.2 .cmp (by decide), h.2.2 .mem (by decide), h.2.2 .lnk (by decide), h.2.2 .tbu (by decide), h.2.2 .hk (by decide), h.2.2 .boot (by decide), h.2.2 .goodAt (by decide), h.2.2 .free (by decide), h.2.1⟩

@[simp] theorem State.rehome_frame (s : State) (x1 : Bool) (x2 : ℕ) :
    (State.rehome s x1 x2).clk = s.clk ∧ (State.rehome s x1 x2).tofs = s.tofs ∧ (State.rehome s x1 x2).dev = s.dev ∧
    (State.rehome s x1 x2).mgmt = s.mgmt ∧ (State.rehome s x1 x2).seq = s.seq ∧ (State.rehome s x1 x2).edu = s.edu ∧
    (State.rehome s x1 x2).rta = s.rta ∧ (State.rehome s x1 x2).rpe = s.rpe ∧ (State.rehome s x1 x2).stu = s.stu ∧
    (State.rehome s x1 x2).saf = s.saf ∧ (State.rehome s x1 x2).cap = s.cap ∧ (State.rehome s x1 x2).fso = s.fso ∧
    (State.rehome s x1 x2).cmp = s.cmp ∧ (State.rehome s x1 x2).mem = s.mem ∧ (State.rehome s x1 x2).tbu = s.tbu ∧
    (State.rehome s x1 x2).hk = s.hk ∧ (State.rehome s x1 x2).boot = s.boot ∧ (State.rehome s x1 x2).goodAt = s.goodAt ∧
    (State.rehome s x1 x2).free = s.free ∧ (State.rehome s x1 x2).pending = s.pending := by
  unfold State.rehome
  dsimp only
  split
  · simp
  · split_ifs <;> simp

@[simp] theorem State.resume_frame (s : State) (x1 : ℕ) :
    (State.resume s x1).clk = s.clk ∧ (State.resume s x1).tofs = s.tofs ∧ (State.resume s x1).dev = s.dev ∧
    (State.resume s x1).mgmt = s.mgmt ∧ (State.resume s x1).seq = s.seq ∧ (State.resume s x1).edu = s.edu ∧
    (State.resume s x1).rta = s.rta ∧ (State.resume s x1).rpe = s.rpe ∧ (State.resume s x1).stu = s.stu ∧
    (State.resume s x1).saf = s.saf ∧ (State.resume s x1).cap = s.cap ∧ (State.resume s x1).fso = s.fso ∧
    (State.resume s x1).cmp = s.cmp ∧ (State.resume s x1).mem = s.mem ∧ (State.resume s x1).tbu = s.tbu ∧
    (State.resume s x1).hk = s.hk ∧ (State.resume s x1).boot = s.boot ∧ (State.resume s x1).goodAt = s.goodAt ∧
    (State.resume s x1).free = s.free ∧ (State.resume s x1).pending = s.pending := by
  unfold State.resume
  simp

@[simp] theorem State.setStream_inv (s : State) (x1 : ℕ) (x2 : Stream) : (State.setStream s x1 x2).Inv ↔ s.Inv := inv_of_parts (by simp) (by simp)

@[simp] theorem State.resolve_inv (s : State) (x1 : ℕ) (x2 : BitVec 32) : (State.resolve s x1 x2).Inv ↔ s.Inv := inv_of_parts (by simp) (by simp)

@[simp] theorem State.rxDlp_inv (s : State) (x1 : ℕ) (x2 : EthSrc) (x3 : ℕ) (x4 : List Word) (h : s.Inv) : (State.rxDlp s x1 x2 x3 x4).2.Inv := by
  unfold State.rxDlp
  (repeat' (first | (split; rename_i heq; have h1 := congrArg Prod.fst heq; have h2 := congrArg Prod.snd heq; dsimp only at h1 h2; (try subst h1); (try subst h2)) | split)) <;> simp +contextual (maxDischargeDepth := 100) [h]

@[simp] theorem State.closeStreamCtx_inv (s : State) (x1 : ℕ) : (State.closeStreamCtx s x1).Inv ↔ s.Inv := inv_of_parts (by simp) (by simp)

@[simp] theorem State.closeCtxs_inv (s : State) : (State.closeCtxs s).Inv ↔ s.Inv := inv_of_parts (by simp) (by simp)

@[simp] theorem State.freePtn_inv (s : State) (x1 : ℕ) (h : s.Inv) : (State.freePtn s x1).Inv := by
  unfold State.freePtn
  simp (maxDischargeDepth := 100) [h]

@[simp] theorem State.dropAccs_inv (s : State) (x1 : ℕ) : (State.dropAccs s x1).Inv ↔ s.Inv := inv_of_parts (by simp) (by simp)

@[simp] theorem State.closePtn_inv (s : State) (x1 : ℕ) (h : s.Inv) : (State.closePtn s x1).Inv := by
  unfold State.closePtn
  simp (maxDischargeDepth := 100) [h]

@[simp] theorem State.settleClosing_inv (s : State) (h : s.Inv) : (State.settleClosing s).Inv := by
  unfold State.settleClosing
  simp +contextual (maxDischargeDepth := 100) [h]

@[simp] theorem State.cutFrames_inv (s : State) (x1 : ℕ) : (State.cutFrames s x1).Inv ↔ s.Inv := inv_of_parts (by simp) (by simp)

@[simp] theorem State.flushEvents_inv (x0 : ℕ) (x1 : ℕ) (s : State) : (State.flushEvents x0 x1 s).Inv ↔ s.Inv := inv_of_parts (by simp) (by simp)

@[simp] theorem State.sendAgain_inv (s : State) (x1 : ℕ) (x2 : ℕ) (x3 : List Sent) : (State.sendAgain s x1 x2 x3).Inv ↔ s.Inv := inv_of_parts (by simp) (by simp)

@[simp] theorem State.rehome_inv (s : State) (x1 : Bool) (x2 : ℕ) (h : s.Inv) : (State.rehome s x1 x2).Inv := by
  unfold State.rehome
  dsimp only
  (repeat' (first | (split; rename_i heq; have h1 := congrArg Prod.fst heq; have h2 := congrArg Prod.snd heq; dsimp only at h1 h2; (try subst h1); (try subst h2)) | split)) <;> simp +contextual (maxDischargeDepth := 100) [h]

@[simp] theorem State.resume_inv (s : State) (x1 : ℕ) (h : s.Inv) : (State.resume s x1).Inv := by
  unfold State.resume
  simp +contextual (maxDischargeDepth := 100) [h]

/-! ### Frames -/

@[simp] theorem State.commitDef_frame (s : State) (x1 : ℕ) (x2 : List Word) (x3 : Bool) :
    (State.commitDef s x1 x2 x3).clk = s.clk ∧ (State.commitDef s x1 x2 x3).tofs = s.tofs ∧
    (State.commitDef s x1 x2 x3).dev = s.dev ∧ (State.commitDef s x1 x2 x3).regs = s.regs ∧
    (State.commitDef s x1 x2 x3).mgmt = s.mgmt ∧ (State.commitDef s x1 x2 x3).seq = s.seq ∧
    (State.commitDef s x1 x2 x3).edu = s.edu ∧ (State.commitDef s x1 x2 x3).rta = s.rta ∧
    (State.commitDef s x1 x2 x3).rpe = s.rpe ∧ (State.commitDef s x1 x2 x3).stu = s.stu ∧
    (State.commitDef s x1 x2 x3).saf = s.saf ∧ (State.commitDef s x1 x2 x3).cap = s.cap ∧
    (State.commitDef s x1 x2 x3).cmp = s.cmp ∧ (State.commitDef s x1 x2 x3).mem = s.mem ∧
    (State.commitDef s x1 x2 x3).lnk = s.lnk ∧ (State.commitDef s x1 x2 x3).tbu = s.tbu ∧
    (State.commitDef s x1 x2 x3).hk = s.hk ∧ (State.commitDef s x1 x2 x3).boot = s.boot ∧
    (State.commitDef s x1 x2 x3).out = s.out ∧ (State.commitDef s x1 x2 x3).goodAt = s.goodAt ∧
    (State.commitDef s x1 x2 x3).free = s.free ∧ (State.commitDef s x1 x2 x3).pending = s.pending := by
  unfold State.commitDef
  simp

@[simp] theorem State.latchSnap_frame (s : State) :
    (State.latchSnap s).clk = s.clk ∧ (State.latchSnap s).tofs = s.tofs ∧ (State.latchSnap s).dev = s.dev ∧
    (State.latchSnap s).mgmt = s.mgmt ∧ (State.latchSnap s).seq = s.seq ∧ (State.latchSnap s).edu = s.edu ∧
    (State.latchSnap s).rta = s.rta ∧ (State.latchSnap s).rpe = s.rpe ∧ (State.latchSnap s).stu = s.stu ∧
    (State.latchSnap s).saf = s.saf ∧ (State.latchSnap s).cap = s.cap ∧ (State.latchSnap s).fso = s.fso ∧
    (State.latchSnap s).cmp = s.cmp ∧ (State.latchSnap s).mem = s.mem ∧ (State.latchSnap s).hk = s.hk ∧
    (State.latchSnap s).boot = s.boot ∧ (State.latchSnap s).goodAt = s.goodAt ∧ (State.latchSnap s).free = s.free ∧
    (State.latchSnap s).pending = s.pending := by
  unfold State.latchSnap
  (repeat' (first | (split; rename_i heq; have h1 := congrArg Prod.fst heq; have h2 := congrArg Prod.snd heq; dsimp only at h1 h2; (try subst h1); (try subst h2)) | split)) <;> simp

@[simp] theorem State.latchDef_frame (s : State) (x1 : ℕ) (x2 : ℕ) :
    (State.latchDef s x1 x2).clk = s.clk ∧ (State.latchDef s x1 x2).tofs = s.tofs ∧ (State.latchDef s x1 x2).dev = s.dev ∧
    (State.latchDef s x1 x2).mgmt = s.mgmt ∧ (State.latchDef s x1 x2).seq = s.seq ∧ (State.latchDef s x1 x2).edu = s.edu ∧
    (State.latchDef s x1 x2).rta = s.rta ∧ (State.latchDef s x1 x2).rpe = s.rpe ∧ (State.latchDef s x1 x2).stu = s.stu ∧
    (State.latchDef s x1 x2).saf = s.saf ∧ (State.latchDef s x1 x2).cap = s.cap ∧ (State.latchDef s x1 x2).cmp = s.cmp ∧
    (State.latchDef s x1 x2).mem = s.mem ∧ (State.latchDef s x1 x2).lnk = s.lnk ∧ (State.latchDef s x1 x2).tbu = s.tbu ∧
    (State.latchDef s x1 x2).hk = s.hk ∧ (State.latchDef s x1 x2).boot = s.boot ∧ (State.latchDef s x1 x2).out = s.out ∧
    (State.latchDef s x1 x2).goodAt = s.goodAt ∧ (State.latchDef s x1 x2).free = s.free ∧
    (State.latchDef s x1 x2).pending = s.pending := by
  unfold State.latchDef
  dsimp only
  (repeat' (first | (split; rename_i heq; have h1 := congrArg Prod.fst heq; have h2 := congrArg Prod.snd heq; dsimp only at h1 h2; (try subst h1); (try subst h2)) | split)) <;> simp

@[simp] theorem State.latchDefs_frame (s : State) :
    (State.latchDefs s).clk = s.clk ∧ (State.latchDefs s).tofs = s.tofs ∧ (State.latchDefs s).dev = s.dev ∧
    (State.latchDefs s).mgmt = s.mgmt ∧ (State.latchDefs s).seq = s.seq ∧ (State.latchDefs s).edu = s.edu ∧
    (State.latchDefs s).rta = s.rta ∧ (State.latchDefs s).rpe = s.rpe ∧ (State.latchDefs s).stu = s.stu ∧
    (State.latchDefs s).saf = s.saf ∧ (State.latchDefs s).cap = s.cap ∧ (State.latchDefs s).cmp = s.cmp ∧
    (State.latchDefs s).mem = s.mem ∧ (State.latchDefs s).hk = s.hk ∧ (State.latchDefs s).boot = s.boot ∧
    (State.latchDefs s).goodAt = s.goodAt ∧ (State.latchDefs s).free = s.free ∧
    (State.latchDefs s).pending = s.pending := by
  unfold State.latchDefs
  simp

@[simp] theorem State.dropFrame_frame (s : State) (x1 : ℕ) (x2 : ℕ) :
    (State.dropFrame s x1 x2).clk = s.clk ∧ (State.dropFrame s x1 x2).tofs = s.tofs ∧
    (State.dropFrame s x1 x2).dev = s.dev ∧ (State.dropFrame s x1 x2).mgmt = s.mgmt ∧
    (State.dropFrame s x1 x2).seq = s.seq ∧ (State.dropFrame s x1 x2).edu = s.edu ∧ (State.dropFrame s x1 x2).rta = s.rta ∧
    (State.dropFrame s x1 x2).rpe = s.rpe ∧ (State.dropFrame s x1 x2).stu = s.stu ∧ (State.dropFrame s x1 x2).saf = s.saf ∧
    (State.dropFrame s x1 x2).cap = s.cap ∧ (State.dropFrame s x1 x2).cmp = s.cmp ∧ (State.dropFrame s x1 x2).mem = s.mem ∧
    (State.dropFrame s x1 x2).lnk = s.lnk ∧ (State.dropFrame s x1 x2).tbu = s.tbu ∧ (State.dropFrame s x1 x2).hk = s.hk ∧
    (State.dropFrame s x1 x2).boot = s.boot ∧ (State.dropFrame s x1 x2).out = s.out ∧
    (State.dropFrame s x1 x2).goodAt = s.goodAt ∧ (State.dropFrame s x1 x2).free = s.free ∧
    (State.dropFrame s x1 x2).pending = s.pending := by
  unfold State.dropFrame
  simp

@[simp] theorem State.takeSlot_frame (s : State) (x1 : ℕ) (x2 : ℕ) (x3 : Bool) :
    (State.takeSlot s x1 x2 x3).clk = s.clk ∧ (State.takeSlot s x1 x2 x3).tofs = s.tofs ∧
    (State.takeSlot s x1 x2 x3).dev = s.dev ∧ (State.takeSlot s x1 x2 x3).regs = s.regs ∧
    (State.takeSlot s x1 x2 x3).mgmt = s.mgmt ∧ (State.takeSlot s x1 x2 x3).seq = s.seq ∧
    (State.takeSlot s x1 x2 x3).edu = s.edu ∧ (State.takeSlot s x1 x2 x3).rta = s.rta ∧
    (State.takeSlot s x1 x2 x3).rpe = s.rpe ∧ (State.takeSlot s x1 x2 x3).stu = s.stu ∧
    (State.takeSlot s x1 x2 x3).saf = s.saf ∧ (State.takeSlot s x1 x2 x3).cap = s.cap ∧
    (State.takeSlot s x1 x2 x3).cmp = s.cmp ∧ (State.takeSlot s x1 x2 x3).mem = s.mem ∧
    (State.takeSlot s x1 x2 x3).lnk = s.lnk ∧ (State.takeSlot s x1 x2 x3).tbu = s.tbu ∧
    (State.takeSlot s x1 x2 x3).hk = s.hk ∧ (State.takeSlot s x1 x2 x3).boot = s.boot ∧
    (State.takeSlot s x1 x2 x3).out = s.out ∧ (State.takeSlot s x1 x2 x3).goodAt = s.goodAt ∧
    (State.takeSlot s x1 x2 x3).free = s.free ∧ (State.takeSlot s x1 x2 x3).pending = s.pending := by
  unfold State.takeSlot
  simp

@[simp] theorem State.writeLine_frame (s : State) (x1 : ℕ) (x2 : ℕ) (x3 : List Word) (x4 : ℕ) :
    (State.writeLine s x1 x2 x3 x4).clk = s.clk ∧ (State.writeLine s x1 x2 x3 x4).tofs = s.tofs ∧
    (State.writeLine s x1 x2 x3 x4).dev = s.dev ∧ (State.writeLine s x1 x2 x3 x4).regs = s.regs ∧
    (State.writeLine s x1 x2 x3 x4).mgmt = s.mgmt ∧ (State.writeLine s x1 x2 x3 x4).seq = s.seq ∧
    (State.writeLine s x1 x2 x3 x4).edu = s.edu ∧ (State.writeLine s x1 x2 x3 x4).rta = s.rta ∧
    (State.writeLine s x1 x2 x3 x4).rpe = s.rpe ∧ (State.writeLine s x1 x2 x3 x4).stu = s.stu ∧
    (State.writeLine s x1 x2 x3 x4).saf = s.saf ∧ (State.writeLine s x1 x2 x3 x4).cap = s.cap ∧
    (State.writeLine s x1 x2 x3 x4).fso = s.fso ∧ (State.writeLine s x1 x2 x3 x4).cmp = s.cmp ∧
    (State.writeLine s x1 x2 x3 x4).lnk = s.lnk ∧ (State.writeLine s x1 x2 x3 x4).tbu = s.tbu ∧
    (State.writeLine s x1 x2 x3 x4).hk = s.hk ∧ (State.writeLine s x1 x2 x3 x4).boot = s.boot ∧
    (State.writeLine s x1 x2 x3 x4).out = s.out ∧ (State.writeLine s x1 x2 x3 x4).goodAt = s.goodAt ∧
    (State.writeLine s x1 x2 x3 x4).free = s.free ∧ (State.writeLine s x1 x2 x3 x4).pending = s.pending := by
  unfold State.writeLine
  simp

@[simp] theorem State.openIn_frame (s : State) (x1 : Bool) (x2 : ℕ) :
    (State.openIn s x1 x2).clk = s.clk ∧ (State.openIn s x1 x2).tofs = s.tofs ∧ (State.openIn s x1 x2).dev = s.dev ∧
    (State.openIn s x1 x2).mgmt = s.mgmt ∧ (State.openIn s x1 x2).seq = s.seq ∧ (State.openIn s x1 x2).edu = s.edu ∧
    (State.openIn s x1 x2).rta = s.rta ∧ (State.openIn s x1 x2).rpe = s.rpe ∧ (State.openIn s x1 x2).stu = s.stu ∧
    (State.openIn s x1 x2).saf = s.saf ∧ (State.openIn s x1 x2).cap = s.cap ∧ (State.openIn s x1 x2).cmp = s.cmp ∧
    (State.openIn s x1 x2).mem = s.mem ∧ (State.openIn s x1 x2).lnk = s.lnk ∧ (State.openIn s x1 x2).tbu = s.tbu ∧
    (State.openIn s x1 x2).hk = s.hk ∧ (State.openIn s x1 x2).boot = s.boot ∧ (State.openIn s x1 x2).out = s.out ∧
    (State.openIn s x1 x2).goodAt = s.goodAt ∧ (State.openIn s x1 x2).free = s.free ∧
    (State.openIn s x1 x2).pending = s.pending := by
  unfold State.openIn
  dsimp only
  (repeat' (first | (split; rename_i heq; have h1 := congrArg Prod.fst heq; have h2 := congrArg Prod.snd heq; dsimp only at h1 h2; (try subst h1); (try subst h2)) | split)) <;> simp

@[simp] theorem State.openFrame_frame (s : State) :
    (State.openFrame s).clk = s.clk ∧ (State.openFrame s).tofs = s.tofs ∧ (State.openFrame s).dev = s.dev ∧
    (State.openFrame s).mgmt = s.mgmt ∧ (State.openFrame s).seq = s.seq ∧ (State.openFrame s).edu = s.edu ∧
    (State.openFrame s).rta = s.rta ∧ (State.openFrame s).rpe = s.rpe ∧ (State.openFrame s).stu = s.stu ∧
    (State.openFrame s).saf = s.saf ∧ (State.openFrame s).cap = s.cap ∧ (State.openFrame s).cmp = s.cmp ∧
    (State.openFrame s).mem = s.mem ∧ (State.openFrame s).lnk = s.lnk ∧ (State.openFrame s).tbu = s.tbu ∧
    (State.openFrame s).hk = s.hk ∧ (State.openFrame s).boot = s.boot ∧ (State.openFrame s).out = s.out ∧
    (State.openFrame s).goodAt = s.goodAt ∧ (State.openFrame s).free = s.free ∧
    (State.openFrame s).pending = s.pending := by
  unfold State.openFrame
  simp

@[simp] theorem State.closeIn_frame (s : State) (x1 : ℕ) :
    (State.closeIn s x1).clk = s.clk ∧ (State.closeIn s x1).tofs = s.tofs ∧ (State.closeIn s x1).dev = s.dev ∧
    (State.closeIn s x1).mgmt = s.mgmt ∧ (State.closeIn s x1).seq = s.seq ∧ (State.closeIn s x1).edu = s.edu ∧
    (State.closeIn s x1).rta = s.rta ∧ (State.closeIn s x1).rpe = s.rpe ∧ (State.closeIn s x1).stu = s.stu ∧
    (State.closeIn s x1).saf = s.saf ∧ (State.closeIn s x1).cap = s.cap ∧ (State.closeIn s x1).cmp = s.cmp ∧
    (State.closeIn s x1).lnk = s.lnk ∧ (State.closeIn s x1).tbu = s.tbu ∧ (State.closeIn s x1).hk = s.hk ∧
    (State.closeIn s x1).boot = s.boot ∧ (State.closeIn s x1).out = s.out ∧ (State.closeIn s x1).goodAt = s.goodAt ∧
    (State.closeIn s x1).free = s.free ∧ (State.closeIn s x1).pending = s.pending := by
  unfold State.closeIn
  dsimp only
  (repeat' (first | (split; rename_i heq; have h1 := congrArg Prod.fst heq; have h2 := congrArg Prod.snd heq; dsimp only at h1 h2; (try subst h1); (try subst h2)) | split)) <;> simp

@[simp] theorem State.passFirst_frame (s : State) (x1 : Mark → Bool) :
    (State.passFirst s x1).clk = s.clk ∧ (State.passFirst s x1).tofs = s.tofs ∧ (State.passFirst s x1).dev = s.dev ∧
    (State.passFirst s x1).edu = s.edu ∧ (State.passFirst s x1).stu = s.stu ∧ (State.passFirst s x1).fso = s.fso ∧
    (State.passFirst s x1).cmp = s.cmp ∧ (State.passFirst s x1).mem = s.mem ∧ (State.passFirst s x1).tbu = s.tbu ∧
    (State.passFirst s x1).hk = s.hk ∧ (State.passFirst s x1).boot = s.boot ∧ (State.passFirst s x1).goodAt = s.goodAt ∧
    (State.passFirst s x1).free = s.free ∧ (State.passFirst s x1).pending = s.pending := by
  unfold State.passFirst
  (repeat' (first | (split; rename_i heq; have h1 := congrArg Prod.fst heq; have h2 := congrArg Prod.snd heq; dsimp only at h1 h2; (try subst h1); (try subst h2)) | split)) <;> simp

@[simp] theorem State.setHead_frame (s : State) (x1 : Mark) :
    (State.setHead s x1).clk = s.clk ∧ (State.setHead s x1).tofs = s.tofs ∧ (State.setHead s x1).dev = s.dev ∧
    (State.setHead s x1).regs = s.regs ∧ (State.setHead s x1).mgmt = s.mgmt ∧ (State.setHead s x1).edu = s.edu ∧
    (State.setHead s x1).rta = s.rta ∧ (State.setHead s x1).rpe = s.rpe ∧ (State.setHead s x1).stu = s.stu ∧
    (State.setHead s x1).saf = s.saf ∧ (State.setHead s x1).cap = s.cap ∧ (State.setHead s x1).fso = s.fso ∧
    (State.setHead s x1).cmp = s.cmp ∧ (State.setHead s x1).mem = s.mem ∧ (State.setHead s x1).lnk = s.lnk ∧
    (State.setHead s x1).tbu = s.tbu ∧ (State.setHead s x1).hk = s.hk ∧ (State.setHead s x1).boot = s.boot ∧
    (State.setHead s x1).out = s.out ∧ (State.setHead s x1).goodAt = s.goodAt ∧ (State.setHead s x1).free = s.free ∧
    (State.setHead s x1).pending = s.pending := by
  unfold State.setHead
  simp

@[simp] theorem State.settleEol_frame (s : State) :
    (State.settleEol s).clk = s.clk ∧ (State.settleEol s).tofs = s.tofs ∧ (State.settleEol s).dev = s.dev ∧
    (State.settleEol s).regs = s.regs ∧ (State.settleEol s).mgmt = s.mgmt ∧ (State.settleEol s).edu = s.edu ∧
    (State.settleEol s).rta = s.rta ∧ (State.settleEol s).rpe = s.rpe ∧ (State.settleEol s).stu = s.stu ∧
    (State.settleEol s).saf = s.saf ∧ (State.settleEol s).cap = s.cap ∧ (State.settleEol s).fso = s.fso ∧
    (State.settleEol s).cmp = s.cmp ∧ (State.settleEol s).mem = s.mem ∧ (State.settleEol s).lnk = s.lnk ∧
    (State.settleEol s).tbu = s.tbu ∧ (State.settleEol s).hk = s.hk ∧ (State.settleEol s).boot = s.boot ∧
    (State.settleEol s).out = s.out ∧ (State.settleEol s).goodAt = s.goodAt ∧ (State.settleEol s).free = s.free ∧
    (State.settleEol s).pending = s.pending := by
  unfold State.settleEol
  (repeat' (first | (split; rename_i heq; have h1 := congrArg Prod.fst heq; have h2 := congrArg Prod.snd heq; dsimp only at h1 h2; (try subst h1); (try subst h2)) | split)) <;> simp

@[simp] theorem State.placeIn_frame (s : State) (x1 : ℕ) (x2 : Point) :
    (State.placeIn s x1 x2).clk = s.clk ∧ (State.placeIn s x1 x2).tofs = s.tofs ∧ (State.placeIn s x1 x2).dev = s.dev ∧
    (State.placeIn s x1 x2).regs = s.regs ∧ (State.placeIn s x1 x2).mgmt = s.mgmt ∧ (State.placeIn s x1 x2).seq = s.seq ∧
    (State.placeIn s x1 x2).edu = s.edu ∧ (State.placeIn s x1 x2).rta = s.rta ∧ (State.placeIn s x1 x2).rpe = s.rpe ∧
    (State.placeIn s x1 x2).stu = s.stu ∧ (State.placeIn s x1 x2).saf = s.saf ∧ (State.placeIn s x1 x2).cap = s.cap ∧
    (State.placeIn s x1 x2).cmp = s.cmp ∧ (State.placeIn s x1 x2).lnk = s.lnk ∧ (State.placeIn s x1 x2).tbu = s.tbu ∧
    (State.placeIn s x1 x2).hk = s.hk ∧ (State.placeIn s x1 x2).boot = s.boot ∧ (State.placeIn s x1 x2).out = s.out ∧
    (State.placeIn s x1 x2).goodAt = s.goodAt ∧ (State.placeIn s x1 x2).free = s.free ∧
    (State.placeIn s x1 x2).pending = s.pending := by
  unfold State.placeIn
  dsimp only
  (repeat' (first | (split; rename_i heq; have h1 := congrArg Prod.fst heq; have h2 := congrArg Prod.snd heq; dsimp only at h1 h2; (try subst h1); (try subst h2)) | split)) <;> simp

@[simp] theorem State.sendDove_frame (s : State) (x1 : Point) :
    (State.sendDove s x1).clk = s.clk ∧ (State.sendDove s x1).tofs = s.tofs ∧ (State.sendDove s x1).dev = s.dev ∧
    (State.sendDove s x1).regs = s.regs ∧ (State.sendDove s x1).mgmt = s.mgmt ∧ (State.sendDove s x1).seq = s.seq ∧
    (State.sendDove s x1).edu = s.edu ∧ (State.sendDove s x1).rta = s.rta ∧ (State.sendDove s x1).rpe = s.rpe ∧
    (State.sendDove s x1).stu = s.stu ∧ (State.sendDove s x1).saf = s.saf ∧ (State.sendDove s x1).cap = s.cap ∧
    (State.sendDove s x1).fso = s.fso ∧ (State.sendDove s x1).cmp = s.cmp ∧ (State.sendDove s x1).mem = s.mem ∧
    (State.sendDove s x1).tbu = s.tbu ∧ (State.sendDove s x1).hk = s.hk ∧ (State.sendDove s x1).boot = s.boot ∧
    (State.sendDove s x1).goodAt = s.goodAt ∧ (State.sendDove s x1).free = s.free ∧
    (State.sendDove s x1).pending = s.pending := by
  unfold State.sendDove
  simp

@[simp] theorem State.neighbourIn_frame (s : State) (x1 : ℕ) (x2 : ℕ) (x3 : Option Word) (x4 : Option Word) (x5 : ℕ) :
    (State.neighbourIn s x1 x2 x3 x4 x5).clk = s.clk ∧ (State.neighbourIn s x1 x2 x3 x4 x5).tofs = s.tofs ∧
    (State.neighbourIn s x1 x2 x3 x4 x5).dev = s.dev ∧ (State.neighbourIn s x1 x2 x3 x4 x5).regs = s.regs ∧
    (State.neighbourIn s x1 x2 x3 x4 x5).mgmt = s.mgmt ∧ (State.neighbourIn s x1 x2 x3 x4 x5).seq = s.seq ∧
    (State.neighbourIn s x1 x2 x3 x4 x5).edu = s.edu ∧ (State.neighbourIn s x1 x2 x3 x4 x5).rta = s.rta ∧
    (State.neighbourIn s x1 x2 x3 x4 x5).rpe = s.rpe ∧ (State.neighbourIn s x1 x2 x3 x4 x5).stu = s.stu ∧
    (State.neighbourIn s x1 x2 x3 x4 x5).saf = s.saf ∧ (State.neighbourIn s x1 x2 x3 x4 x5).cap = s.cap ∧
    (State.neighbourIn s x1 x2 x3 x4 x5).cmp = s.cmp ∧ (State.neighbourIn s x1 x2 x3 x4 x5).mem = s.mem ∧
    (State.neighbourIn s x1 x2 x3 x4 x5).lnk = s.lnk ∧ (State.neighbourIn s x1 x2 x3 x4 x5).tbu = s.tbu ∧
    (State.neighbourIn s x1 x2 x3 x4 x5).hk = s.hk ∧ (State.neighbourIn s x1 x2 x3 x4 x5).boot = s.boot ∧
    (State.neighbourIn s x1 x2 x3 x4 x5).out = s.out ∧ (State.neighbourIn s x1 x2 x3 x4 x5).goodAt = s.goodAt ∧
    (State.neighbourIn s x1 x2 x3 x4 x5).free = s.free ∧ (State.neighbourIn s x1 x2 x3 x4 x5).pending = s.pending := by
  unfold State.neighbourIn
  dsimp only
  (repeat' (first | (split; rename_i heq; have h1 := congrArg Prod.fst heq; have h2 := congrArg Prod.snd heq; dsimp only at h1 h2; (try subst h1); (try subst h2)) | split)) <;> simp

@[simp] theorem State.placeNeighbour_frame (s : State) (x1 : ℕ) (x2 : ℕ) (x3 : ℕ → Option Word) (x4 : ℕ → Option Word) (x5 : ℕ) :
    (State.placeNeighbour s x1 x2 x3 x4 x5).clk = s.clk ∧ (State.placeNeighbour s x1 x2 x3 x4 x5).tofs = s.tofs ∧
    (State.placeNeighbour s x1 x2 x3 x4 x5).dev = s.dev ∧ (State.placeNeighbour s x1 x2 x3 x4 x5).mgmt = s.mgmt ∧
    (State.placeNeighbour s x1 x2 x3 x4 x5).seq = s.seq ∧ (State.placeNeighbour s x1 x2 x3 x4 x5).edu = s.edu ∧
    (State.placeNeighbour s x1 x2 x3 x4 x5).rta = s.rta ∧ (State.placeNeighbour s x1 x2 x3 x4 x5).rpe = s.rpe ∧
    (State.placeNeighbour s x1 x2 x3 x4 x5).stu = s.stu ∧ (State.placeNeighbour s x1 x2 x3 x4 x5).saf = s.saf ∧
    (State.placeNeighbour s x1 x2 x3 x4 x5).cap = s.cap ∧ (State.placeNeighbour s x1 x2 x3 x4 x5).cmp = s.cmp ∧
    (State.placeNeighbour s x1 x2 x3 x4 x5).mem = s.mem ∧ (State.placeNeighbour s x1 x2 x3 x4 x5).lnk = s.lnk ∧
    (State.placeNeighbour s x1 x2 x3 x4 x5).tbu = s.tbu ∧ (State.placeNeighbour s x1 x2 x3 x4 x5).hk = s.hk ∧
    (State.placeNeighbour s x1 x2 x3 x4 x5).boot = s.boot ∧ (State.placeNeighbour s x1 x2 x3 x4 x5).out = s.out ∧
    (State.placeNeighbour s x1 x2 x3 x4 x5).goodAt = s.goodAt ∧ (State.placeNeighbour s x1 x2 x3 x4 x5).free = s.free ∧
    (State.placeNeighbour s x1 x2 x3 x4 x5).pending = s.pending := by
  unfold State.placeNeighbour
  simp

@[simp] theorem State.sendTo_frame (s : State) (x1 : ℕ) (x2 : ℕ) (x3 : Partner → Option (List Word)) (x4 : List Word) (x5 : ℕ) :
    (State.sendTo s x1 x2 x3 x4 x5).clk = s.clk ∧ (State.sendTo s x1 x2 x3 x4 x5).tofs = s.tofs ∧
    (State.sendTo s x1 x2 x3 x4 x5).dev = s.dev ∧ (State.sendTo s x1 x2 x3 x4 x5).regs = s.regs ∧
    (State.sendTo s x1 x2 x3 x4 x5).mgmt = s.mgmt ∧ (State.sendTo s x1 x2 x3 x4 x5).seq = s.seq ∧
    (State.sendTo s x1 x2 x3 x4 x5).edu = s.edu ∧ (State.sendTo s x1 x2 x3 x4 x5).rta = s.rta ∧
    (State.sendTo s x1 x2 x3 x4 x5).rpe = s.rpe ∧ (State.sendTo s x1 x2 x3 x4 x5).stu = s.stu ∧
    (State.sendTo s x1 x2 x3 x4 x5).saf = s.saf ∧ (State.sendTo s x1 x2 x3 x4 x5).cap = s.cap ∧
    (State.sendTo s x1 x2 x3 x4 x5).fso = s.fso ∧ (State.sendTo s x1 x2 x3 x4 x5).cmp = s.cmp ∧
    (State.sendTo s x1 x2 x3 x4 x5).mem = s.mem ∧ (State.sendTo s x1 x2 x3 x4 x5).tbu = s.tbu ∧
    (State.sendTo s x1 x2 x3 x4 x5).hk = s.hk ∧ (State.sendTo s x1 x2 x3 x4 x5).boot = s.boot ∧
    (State.sendTo s x1 x2 x3 x4 x5).goodAt = s.goodAt ∧ (State.sendTo s x1 x2 x3 x4 x5).free = s.free ∧
    (State.sendTo s x1 x2 x3 x4 x5).pending = s.pending := by
  unfold State.sendTo
  dsimp only
  (repeat' (first | (split; rename_i heq; have h1 := congrArg Prod.fst heq; have h2 := congrArg Prod.snd heq; dsimp only at h1 h2; (try subst h1); (try subst h2)) | split)) <;> simp

@[simp] theorem State.sendRecord_frame (s : State) (x1 : ℕ) (x2 : Scan) (x3 : ℕ) (x4 : Bool) (x5 : Partner → Option (List Word)) :
    (State.sendRecord s x1 x2 x3 x4 x5).clk = s.clk ∧ (State.sendRecord s x1 x2 x3 x4 x5).tofs = s.tofs ∧
    (State.sendRecord s x1 x2 x3 x4 x5).dev = s.dev ∧ (State.sendRecord s x1 x2 x3 x4 x5).mgmt = s.mgmt ∧
    (State.sendRecord s x1 x2 x3 x4 x5).seq = s.seq ∧ (State.sendRecord s x1 x2 x3 x4 x5).edu = s.edu ∧
    (State.sendRecord s x1 x2 x3 x4 x5).rta = s.rta ∧ (State.sendRecord s x1 x2 x3 x4 x5).rpe = s.rpe ∧
    (State.sendRecord s x1 x2 x3 x4 x5).stu = s.stu ∧ (State.sendRecord s x1 x2 x3 x4 x5).saf = s.saf ∧
    (State.sendRecord s x1 x2 x3 x4 x5).cap = s.cap ∧ (State.sendRecord s x1 x2 x3 x4 x5).fso = s.fso ∧
    (State.sendRecord s x1 x2 x3 x4 x5).mem = s.mem ∧ (State.sendRecord s x1 x2 x3 x4 x5).tbu = s.tbu ∧
    (State.sendRecord s x1 x2 x3 x4 x5).hk = s.hk ∧ (State.sendRecord s x1 x2 x3 x4 x5).boot = s.boot ∧
    (State.sendRecord s x1 x2 x3 x4 x5).goodAt = s.goodAt ∧ (State.sendRecord s x1 x2 x3 x4 x5).free = s.free ∧
    (State.sendRecord s x1 x2 x3 x4 x5).pending = s.pending := by
  unfold State.sendRecord
  (repeat' (first | (split; rename_i heq; have h1 := congrArg Prod.fst heq; have h2 := congrArg Prod.snd heq; dsimp only at h1 h2; (try subst h1); (try subst h2)) | split)) <;> simp

@[simp] theorem State.sendHeader_frame (s : State) (x1 : ℕ) (x2 : Scan) (x3 : ℕ) (x4 : ℕ) :
    (State.sendHeader s x1 x2 x3 x4).clk = s.clk ∧ (State.sendHeader s x1 x2 x3 x4).tofs = s.tofs ∧
    (State.sendHeader s x1 x2 x3 x4).dev = s.dev ∧ (State.sendHeader s x1 x2 x3 x4).mgmt = s.mgmt ∧
    (State.sendHeader s x1 x2 x3 x4).seq = s.seq ∧ (State.sendHeader s x1 x2 x3 x4).edu = s.edu ∧
    (State.sendHeader s x1 x2 x3 x4).rta = s.rta ∧ (State.sendHeader s x1 x2 x3 x4).rpe = s.rpe ∧
    (State.sendHeader s x1 x2 x3 x4).stu = s.stu ∧ (State.sendHeader s x1 x2 x3 x4).saf = s.saf ∧
    (State.sendHeader s x1 x2 x3 x4).cap = s.cap ∧ (State.sendHeader s x1 x2 x3 x4).fso = s.fso ∧
    (State.sendHeader s x1 x2 x3 x4).mem = s.mem ∧ (State.sendHeader s x1 x2 x3 x4).tbu = s.tbu ∧
    (State.sendHeader s x1 x2 x3 x4).hk = s.hk ∧ (State.sendHeader s x1 x2 x3 x4).boot = s.boot ∧
    (State.sendHeader s x1 x2 x3 x4).goodAt = s.goodAt ∧ (State.sendHeader s x1 x2 x3 x4).free = s.free ∧
    (State.sendHeader s x1 x2 x3 x4).pending = s.pending := by
  unfold State.sendHeader
  simp

@[simp] theorem State.sendFlip_frame (s : State) (x1 : ℕ) (x2 : FrmSlot) (x3 : ℕ) :
    (State.sendFlip s x1 x2 x3).clk = s.clk ∧ (State.sendFlip s x1 x2 x3).tofs = s.tofs ∧
    (State.sendFlip s x1 x2 x3).dev = s.dev ∧ (State.sendFlip s x1 x2 x3).regs = s.regs ∧
    (State.sendFlip s x1 x2 x3).mgmt = s.mgmt ∧ (State.sendFlip s x1 x2 x3).seq = s.seq ∧
    (State.sendFlip s x1 x2 x3).edu = s.edu ∧ (State.sendFlip s x1 x2 x3).rta = s.rta ∧
    (State.sendFlip s x1 x2 x3).rpe = s.rpe ∧ (State.sendFlip s x1 x2 x3).stu = s.stu ∧
    (State.sendFlip s x1 x2 x3).saf = s.saf ∧ (State.sendFlip s x1 x2 x3).cap = s.cap ∧
    (State.sendFlip s x1 x2 x3).fso = s.fso ∧ (State.sendFlip s x1 x2 x3).cmp = s.cmp ∧
    (State.sendFlip s x1 x2 x3).mem = s.mem ∧ (State.sendFlip s x1 x2 x3).tbu = s.tbu ∧
    (State.sendFlip s x1 x2 x3).hk = s.hk ∧ (State.sendFlip s x1 x2 x3).boot = s.boot ∧
    (State.sendFlip s x1 x2 x3).goodAt = s.goodAt ∧ (State.sendFlip s x1 x2 x3).free = s.free ∧
    (State.sendFlip s x1 x2 x3).pending = s.pending := by
  unfold State.sendFlip
  simp

@[simp] theorem State.flip_frame (s : State) (x1 : ℕ) (x2 : List ℕ) :
    (State.flip s x1 x2).clk = s.clk ∧ (State.flip s x1 x2).tofs = s.tofs ∧ (State.flip s x1 x2).dev = s.dev ∧
    (State.flip s x1 x2).mgmt = s.mgmt ∧ (State.flip s x1 x2).seq = s.seq ∧ (State.flip s x1 x2).edu = s.edu ∧
    (State.flip s x1 x2).rta = s.rta ∧ (State.flip s x1 x2).rpe = s.rpe ∧ (State.flip s x1 x2).stu = s.stu ∧
    (State.flip s x1 x2).saf = s.saf ∧ (State.flip s x1 x2).cap = s.cap ∧ (State.flip s x1 x2).mem = s.mem ∧
    (State.flip s x1 x2).tbu = s.tbu ∧ (State.flip s x1 x2).hk = s.hk ∧ (State.flip s x1 x2).boot = s.boot ∧
    (State.flip s x1 x2).goodAt = s.goodAt ∧ (State.flip s x1 x2).free = s.free ∧
    (State.flip s x1 x2).pending = s.pending := by
  unfold State.flip
  dsimp only
  (repeat' (first | (split; rename_i heq; have h1 := congrArg Prod.fst heq; have h2 := congrArg Prod.snd heq; dsimp only at h1 h2; (try subst h1); (try subst h2)) | split)) <;> simp

@[simp] theorem State.eventAt_frame (s : State) (x1 : ℕ) (x2 : ℕ) :
    (State.eventAt s x1 x2).clk = s.clk ∧ (State.eventAt s x1 x2).tofs = s.tofs ∧ (State.eventAt s x1 x2).dev = s.dev ∧
    (State.eventAt s x1 x2).mgmt = s.mgmt ∧ (State.eventAt s x1 x2).seq = s.seq ∧ (State.eventAt s x1 x2).edu = s.edu ∧
    (State.eventAt s x1 x2).rta = s.rta ∧ (State.eventAt s x1 x2).rpe = s.rpe ∧ (State.eventAt s x1 x2).stu = s.stu ∧
    (State.eventAt s x1 x2).saf = s.saf ∧ (State.eventAt s x1 x2).cap = s.cap ∧ (State.eventAt s x1 x2).mem = s.mem ∧
    (State.eventAt s x1 x2).tbu = s.tbu ∧ (State.eventAt s x1 x2).hk = s.hk ∧ (State.eventAt s x1 x2).boot = s.boot ∧
    (State.eventAt s x1 x2).goodAt = s.goodAt ∧ (State.eventAt s x1 x2).free = s.free ∧
    (State.eventAt s x1 x2).pending = s.pending := by
  unfold State.eventAt
  simp

@[simp] theorem State.eventAgain_frame (s : State) (x1 : ℕ) :
    (State.eventAgain s x1).clk = s.clk ∧ (State.eventAgain s x1).tofs = s.tofs ∧ (State.eventAgain s x1).dev = s.dev ∧
    (State.eventAgain s x1).mgmt = s.mgmt ∧ (State.eventAgain s x1).seq = s.seq ∧ (State.eventAgain s x1).edu = s.edu ∧
    (State.eventAgain s x1).rta = s.rta ∧ (State.eventAgain s x1).rpe = s.rpe ∧ (State.eventAgain s x1).stu = s.stu ∧
    (State.eventAgain s x1).saf = s.saf ∧ (State.eventAgain s x1).cap = s.cap ∧ (State.eventAgain s x1).mem = s.mem ∧
    (State.eventAgain s x1).tbu = s.tbu ∧ (State.eventAgain s x1).hk = s.hk ∧ (State.eventAgain s x1).boot = s.boot ∧
    (State.eventAgain s x1).goodAt = s.goodAt ∧ (State.eventAgain s x1).free = s.free ∧
    (State.eventAgain s x1).pending = s.pending := by
  unfold State.eventAgain
  (repeat' (first | (split; rename_i heq; have h1 := congrArg Prod.fst heq; have h2 := congrArg Prod.snd heq; dsimp only at h1 h2; (try subst h1); (try subst h2)) | split)) <;> simp

@[simp] theorem State.closeFrame_frame (s : State) :
    (State.closeFrame s).clk = s.clk ∧ (State.closeFrame s).tofs = s.tofs ∧ (State.closeFrame s).dev = s.dev ∧
    (State.closeFrame s).mgmt = s.mgmt ∧ (State.closeFrame s).seq = s.seq ∧ (State.closeFrame s).edu = s.edu ∧
    (State.closeFrame s).rta = s.rta ∧ (State.closeFrame s).rpe = s.rpe ∧ (State.closeFrame s).stu = s.stu ∧
    (State.closeFrame s).saf = s.saf ∧ (State.closeFrame s).cap = s.cap ∧ (State.closeFrame s).hk = s.hk ∧
    (State.closeFrame s).boot = s.boot ∧ (State.closeFrame s).goodAt = s.goodAt ∧ (State.closeFrame s).free = s.free ∧
    (State.closeFrame s).pending = s.pending := by
  unfold State.closeFrame
  simp

@[simp] theorem State.sofAtFso_frame (s : State) :
    (State.sofAtFso s).clk = s.clk ∧ (State.sofAtFso s).tofs = s.tofs ∧ (State.sofAtFso s).dev = s.dev ∧
    (State.sofAtFso s).mgmt = s.mgmt ∧ (State.sofAtFso s).seq = s.seq ∧ (State.sofAtFso s).edu = s.edu ∧
    (State.sofAtFso s).rta = s.rta ∧ (State.sofAtFso s).rpe = s.rpe ∧ (State.sofAtFso s).stu = s.stu ∧
    (State.sofAtFso s).saf = s.saf ∧ (State.sofAtFso s).cap = s.cap ∧ (State.sofAtFso s).hk = s.hk ∧
    (State.sofAtFso s).boot = s.boot ∧ (State.sofAtFso s).goodAt = s.goodAt ∧ (State.sofAtFso s).free = s.free ∧
    (State.sofAtFso s).pending = s.pending := by
  unfold State.sofAtFso
  simp

@[simp] theorem State.frameEvent_frame (s : State) (x1 : ℕ) :
    (State.frameEvent s x1).clk = s.clk ∧ (State.frameEvent s x1).tofs = s.tofs ∧ (State.frameEvent s x1).dev = s.dev ∧
    (State.frameEvent s x1).mgmt = s.mgmt ∧ (State.frameEvent s x1).seq = s.seq ∧ (State.frameEvent s x1).edu = s.edu ∧
    (State.frameEvent s x1).rta = s.rta ∧ (State.frameEvent s x1).rpe = s.rpe ∧ (State.frameEvent s x1).stu = s.stu ∧
    (State.frameEvent s x1).saf = s.saf ∧ (State.frameEvent s x1).cap = s.cap ∧ (State.frameEvent s x1).mem = s.mem ∧
    (State.frameEvent s x1).tbu = s.tbu ∧ (State.frameEvent s x1).hk = s.hk ∧ (State.frameEvent s x1).boot = s.boot ∧
    (State.frameEvent s x1).goodAt = s.goodAt ∧ (State.frameEvent s x1).free = s.free ∧
    (State.frameEvent s x1).pending = s.pending := by
  unfold State.frameEvent
  simp

@[simp] theorem State.encTick_frame (s : State) (x1 : ℕ) :
    (State.encTick s x1).clk = s.clk ∧ (State.encTick s x1).tofs = s.tofs ∧ (State.encTick s x1).dev = s.dev ∧
    (State.encTick s x1).mgmt = s.mgmt ∧ (State.encTick s x1).seq = s.seq ∧ (State.encTick s x1).edu = s.edu ∧
    (State.encTick s x1).rta = s.rta ∧ (State.encTick s x1).rpe = s.rpe ∧ (State.encTick s x1).stu = s.stu ∧
    (State.encTick s x1).saf = s.saf ∧ (State.encTick s x1).cap = s.cap ∧ (State.encTick s x1).cmp = s.cmp ∧
    (State.encTick s x1).mem = s.mem ∧ (State.encTick s x1).lnk = s.lnk ∧ (State.encTick s x1).tbu = s.tbu ∧
    (State.encTick s x1).hk = s.hk ∧ (State.encTick s x1).boot = s.boot ∧ (State.encTick s x1).out = s.out ∧
    (State.encTick s x1).goodAt = s.goodAt ∧ (State.encTick s x1).free = s.free ∧
    (State.encTick s x1).pending = s.pending := by
  unfold State.encTick
  simp

@[simp] theorem State.fsyncFrame_frame (s : State) (x1 : ℕ) :
    (State.fsyncFrame s x1).clk = s.clk ∧ (State.fsyncFrame s x1).tofs = s.tofs ∧ (State.fsyncFrame s x1).dev = s.dev ∧
    (State.fsyncFrame s x1).mgmt = s.mgmt ∧ (State.fsyncFrame s x1).seq = s.seq ∧ (State.fsyncFrame s x1).edu = s.edu ∧
    (State.fsyncFrame s x1).rta = s.rta ∧ (State.fsyncFrame s x1).rpe = s.rpe ∧ (State.fsyncFrame s x1).stu = s.stu ∧
    (State.fsyncFrame s x1).saf = s.saf ∧ (State.fsyncFrame s x1).cap = s.cap ∧ (State.fsyncFrame s x1).mem = s.mem ∧
    (State.fsyncFrame s x1).tbu = s.tbu ∧ (State.fsyncFrame s x1).hk = s.hk ∧ (State.fsyncFrame s x1).boot = s.boot ∧
    (State.fsyncFrame s x1).goodAt = s.goodAt ∧ (State.fsyncFrame s x1).free = s.free ∧
    (State.fsyncFrame s x1).pending = s.pending := by
  unfold State.fsyncFrame
  simp

@[simp] theorem State.tryFlip_frame (s : State) (x1 : ℕ) :
    (State.tryFlip s x1).clk = s.clk ∧ (State.tryFlip s x1).tofs = s.tofs ∧ (State.tryFlip s x1).dev = s.dev ∧
    (State.tryFlip s x1).mgmt = s.mgmt ∧ (State.tryFlip s x1).seq = s.seq ∧ (State.tryFlip s x1).edu = s.edu ∧
    (State.tryFlip s x1).rta = s.rta ∧ (State.tryFlip s x1).rpe = s.rpe ∧ (State.tryFlip s x1).stu = s.stu ∧
    (State.tryFlip s x1).saf = s.saf ∧ (State.tryFlip s x1).cap = s.cap ∧ (State.tryFlip s x1).mem = s.mem ∧
    (State.tryFlip s x1).tbu = s.tbu ∧ (State.tryFlip s x1).hk = s.hk ∧ (State.tryFlip s x1).boot = s.boot ∧
    (State.tryFlip s x1).goodAt = s.goodAt ∧ (State.tryFlip s x1).free = s.free ∧
    (State.tryFlip s x1).pending = s.pending := by
  unfold State.tryFlip
  simp

@[simp] theorem State.endScan_frame (s : State) (x1 : ℕ) (x2 : Scan) :
    (State.endScan s x1 x2).clk = s.clk ∧ (State.endScan s x1 x2).tofs = s.tofs ∧ (State.endScan s x1 x2).dev = s.dev ∧
    (State.endScan s x1 x2).seq = s.seq ∧ (State.endScan s x1 x2).edu = s.edu ∧ (State.endScan s x1 x2).rta = s.rta ∧
    (State.endScan s x1 x2).rpe = s.rpe ∧ (State.endScan s x1 x2).stu = s.stu ∧ (State.endScan s x1 x2).cap = s.cap ∧
    (State.endScan s x1 x2).mem = s.mem ∧ (State.endScan s x1 x2).tbu = s.tbu ∧ (State.endScan s x1 x2).hk = s.hk ∧
    (State.endScan s x1 x2).boot = s.boot ∧ (State.endScan s x1 x2).goodAt = s.goodAt ∧
    (State.endScan s x1 x2).free = s.free ∧ (State.endScan s x1 x2).pending = s.pending := by
  unfold State.endScan
  simp

@[simp] theorem State.endResend_frame (s : State) (x1 : ℕ) :
    (State.endResend s x1).clk = s.clk ∧ (State.endResend s x1).tofs = s.tofs ∧ (State.endResend s x1).dev = s.dev ∧
    (State.endResend s x1).seq = s.seq ∧ (State.endResend s x1).edu = s.edu ∧ (State.endResend s x1).rta = s.rta ∧
    (State.endResend s x1).rpe = s.rpe ∧ (State.endResend s x1).stu = s.stu ∧ (State.endResend s x1).cap = s.cap ∧
    (State.endResend s x1).cmp = s.cmp ∧ (State.endResend s x1).mem = s.mem ∧ (State.endResend s x1).tbu = s.tbu ∧
    (State.endResend s x1).hk = s.hk ∧ (State.endResend s x1).boot = s.boot ∧ (State.endResend s x1).goodAt = s.goodAt ∧
    (State.endResend s x1).free = s.free ∧ (State.endResend s x1).pending = s.pending := by
  unfold State.endResend
  simp

@[simp] theorem State.fetchLine_frame (s : State) (x1 : ℕ) (x2 : Scan) (x3 : List MemHit) (x4 : Bool) :
    (State.fetchLine s x1 x2 x3 x4).clk = s.clk ∧ (State.fetchLine s x1 x2 x3 x4).tofs = s.tofs ∧
    (State.fetchLine s x1 x2 x3 x4).dev = s.dev ∧ (State.fetchLine s x1 x2 x3 x4).seq = s.seq ∧
    (State.fetchLine s x1 x2 x3 x4).edu = s.edu ∧ (State.fetchLine s x1 x2 x3 x4).rta = s.rta ∧
    (State.fetchLine s x1 x2 x3 x4).rpe = s.rpe ∧ (State.fetchLine s x1 x2 x3 x4).stu = s.stu ∧
    (State.fetchLine s x1 x2 x3 x4).tbu = s.tbu ∧ (State.fetchLine s x1 x2 x3 x4).hk = s.hk ∧
    (State.fetchLine s x1 x2 x3 x4).boot = s.boot ∧ (State.fetchLine s x1 x2 x3 x4).goodAt = s.goodAt ∧
    (State.fetchLine s x1 x2 x3 x4).free = s.free ∧ (State.fetchLine s x1 x2 x3 x4).pending = s.pending := by
  unfold State.fetchLine
  simp

@[simp] theorem State.writePin_frame (s : State) (x1 : Word) :
    (State.writePin s x1).2.clk = s.clk ∧ (State.writePin s x1).2.tofs = s.tofs ∧ (State.writePin s x1).2.dev = s.dev ∧
    (State.writePin s x1).2.mgmt = s.mgmt ∧ (State.writePin s x1).2.seq = s.seq ∧ (State.writePin s x1).2.edu = s.edu ∧
    (State.writePin s x1).2.rta = s.rta ∧ (State.writePin s x1).2.rpe = s.rpe ∧ (State.writePin s x1).2.stu = s.stu ∧
    (State.writePin s x1).2.saf = s.saf ∧ (State.writePin s x1).2.cap = s.cap ∧ (State.writePin s x1).2.cmp = s.cmp ∧
    (State.writePin s x1).2.mem = s.mem ∧ (State.writePin s x1).2.lnk = s.lnk ∧ (State.writePin s x1).2.tbu = s.tbu ∧
    (State.writePin s x1).2.hk = s.hk ∧ (State.writePin s x1).2.boot = s.boot ∧ (State.writePin s x1).2.out = s.out ∧
    (State.writePin s x1).2.goodAt = s.goodAt ∧ (State.writePin s x1).2.free = s.free ∧
    (State.writePin s x1).2.pending = s.pending := by
  unfold State.writePin
  dsimp only
  (repeat' (first | (split; rename_i heq; have h1 := congrArg Prod.fst heq; have h2 := congrArg Prod.snd heq; dsimp only at h1 h2; (try subst h1); (try subst h2)) | split)) <;> simp

@[simp] theorem State.writeRel_frame (s : State) (x1 : Word) :
    (State.writeRel s x1).2.clk = s.clk ∧ (State.writeRel s x1).2.tofs = s.tofs ∧ (State.writeRel s x1).2.dev = s.dev ∧
    (State.writeRel s x1).2.regs = s.regs ∧ (State.writeRel s x1).2.mgmt = s.mgmt ∧ (State.writeRel s x1).2.seq = s.seq ∧
    (State.writeRel s x1).2.edu = s.edu ∧ (State.writeRel s x1).2.rta = s.rta ∧ (State.writeRel s x1).2.rpe = s.rpe ∧
    (State.writeRel s x1).2.stu = s.stu ∧ (State.writeRel s x1).2.saf = s.saf ∧ (State.writeRel s x1).2.cap = s.cap ∧
    (State.writeRel s x1).2.cmp = s.cmp ∧ (State.writeRel s x1).2.mem = s.mem ∧ (State.writeRel s x1).2.lnk = s.lnk ∧
    (State.writeRel s x1).2.tbu = s.tbu ∧ (State.writeRel s x1).2.hk = s.hk ∧ (State.writeRel s x1).2.boot = s.boot ∧
    (State.writeRel s x1).2.out = s.out ∧ (State.writeRel s x1).2.goodAt = s.goodAt ∧
    (State.writeRel s x1).2.free = s.free ∧ (State.writeRel s x1).2.pending = s.pending := by
  unfold State.writeRel
  dsimp only
  (repeat' (first | (split; rename_i heq; have h1 := congrArg Prod.fst heq; have h2 := congrArg Prod.snd heq; dsimp only at h1 h2; (try subst h1); (try subst h2)) | split)) <;> simp

@[simp] theorem State.writeResend_frame (s : State) (x1 : Word) :
    (State.writeResend s x1).2.clk = s.clk ∧ (State.writeResend s x1).2.tofs = s.tofs ∧
    (State.writeResend s x1).2.dev = s.dev ∧ (State.writeResend s x1).2.mgmt = s.mgmt ∧
    (State.writeResend s x1).2.seq = s.seq ∧ (State.writeResend s x1).2.edu = s.edu ∧
    (State.writeResend s x1).2.rta = s.rta ∧ (State.writeResend s x1).2.rpe = s.rpe ∧
    (State.writeResend s x1).2.stu = s.stu ∧ (State.writeResend s x1).2.saf = s.saf ∧
    (State.writeResend s x1).2.cap = s.cap ∧ (State.writeResend s x1).2.mem = s.mem ∧
    (State.writeResend s x1).2.tbu = s.tbu ∧ (State.writeResend s x1).2.hk = s.hk ∧
    (State.writeResend s x1).2.boot = s.boot ∧ (State.writeResend s x1).2.goodAt = s.goodAt ∧
    (State.writeResend s x1).2.free = s.free ∧ (State.writeResend s x1).2.pending = s.pending := by
  unfold State.writeResend
  dsimp only
  (repeat' (first | (split; rename_i heq; have h1 := congrArg Prod.fst heq; have h2 := congrArg Prod.snd heq; dsimp only at h1 h2; (try subst h1); (try subst h2)) | split)) <;> simp

@[simp] theorem State.readRdata_frame (s : State) (x1 : List MemHit) :
    (State.readRdata s x1).2.clk = s.clk ∧ (State.readRdata s x1).2.tofs = s.tofs ∧ (State.readRdata s x1).2.dev = s.dev ∧
    (State.readRdata s x1).2.seq = s.seq ∧ (State.readRdata s x1).2.edu = s.edu ∧ (State.readRdata s x1).2.rta = s.rta ∧
    (State.readRdata s x1).2.rpe = s.rpe ∧ (State.readRdata s x1).2.stu = s.stu ∧ (State.readRdata s x1).2.fso = s.fso ∧
    (State.readRdata s x1).2.cmp = s.cmp ∧ (State.readRdata s x1).2.tbu = s.tbu ∧ (State.readRdata s x1).2.hk = s.hk ∧
    (State.readRdata s x1).2.boot = s.boot ∧ (State.readRdata s x1).2.goodAt = s.goodAt ∧
    (State.readRdata s x1).2.pending = s.pending := by
  unfold State.readRdata
  dsimp only
  (repeat' (first | (split; rename_i heq; have h1 := congrArg Prod.fst heq; have h2 := congrArg Prod.snd heq; dsimp only at h1 h2; (try subst h1); (try subst h2)) | split)) <;> simp

@[simp] theorem State.writeCommit_frame (s : State) (x1 : ℕ) (x2 : Word) :
    (State.writeCommit s x1 x2).2.clk = s.clk ∧ (State.writeCommit s x1 x2).2.tofs = s.tofs ∧
    (State.writeCommit s x1 x2).2.dev = s.dev ∧ (State.writeCommit s x1 x2).2.regs = s.regs ∧
    (State.writeCommit s x1 x2).2.mgmt = s.mgmt ∧ (State.writeCommit s x1 x2).2.seq = s.seq ∧
    (State.writeCommit s x1 x2).2.edu = s.edu ∧ (State.writeCommit s x1 x2).2.rta = s.rta ∧
    (State.writeCommit s x1 x2).2.rpe = s.rpe ∧ (State.writeCommit s x1 x2).2.stu = s.stu ∧
    (State.writeCommit s x1 x2).2.saf = s.saf ∧ (State.writeCommit s x1 x2).2.cap = s.cap ∧
    (State.writeCommit s x1 x2).2.cmp = s.cmp ∧ (State.writeCommit s x1 x2).2.mem = s.mem ∧
    (State.writeCommit s x1 x2).2.lnk = s.lnk ∧ (State.writeCommit s x1 x2).2.tbu = s.tbu ∧
    (State.writeCommit s x1 x2).2.hk = s.hk ∧ (State.writeCommit s x1 x2).2.boot = s.boot ∧
    (State.writeCommit s x1 x2).2.out = s.out ∧ (State.writeCommit s x1 x2).2.goodAt = s.goodAt ∧
    (State.writeCommit s x1 x2).2.free = s.free ∧ (State.writeCommit s x1 x2).2.pending = s.pending := by
  unfold State.writeCommit
  (repeat' (first | (split; rename_i heq; have h1 := congrArg Prod.fst heq; have h2 := congrArg Prod.snd heq; dsimp only at h1 h2; (try subst h1); (try subst h2)) | split)) <;> simp

@[simp] theorem State.writeFso_frame (s : State) (x1 : State) (x2 : ℕ) (x3 : Word) :
    (x1.clk = s.clk → (State.writeFso s x1 x2 x3).2.clk = s.clk) ∧
    (x1.tofs = s.tofs → (State.writeFso s x1 x2 x3).2.tofs = s.tofs) ∧
    (x1.dev = s.dev → (State.writeFso s x1 x2 x3).2.dev = s.dev) ∧
    (x1.mgmt = s.mgmt → (State.writeFso s x1 x2 x3).2.mgmt = s.mgmt) ∧
    (x1.seq = s.seq → (State.writeFso s x1 x2 x3).2.seq = s.seq) ∧
    (x1.edu = s.edu → (State.writeFso s x1 x2 x3).2.edu = s.edu) ∧
    (x1.rta = s.rta → (State.writeFso s x1 x2 x3).2.rta = s.rta) ∧
    (x1.rpe = s.rpe → (State.writeFso s x1 x2 x3).2.rpe = s.rpe) ∧
    (x1.stu = s.stu → (State.writeFso s x1 x2 x3).2.stu = s.stu) ∧
    (x1.saf = s.saf → (State.writeFso s x1 x2 x3).2.saf = s.saf) ∧
    (x1.cap = s.cap → (State.writeFso s x1 x2 x3).2.cap = s.cap) ∧
    (x1.mem = s.mem → (State.writeFso s x1 x2 x3).2.mem = s.mem) ∧
    (x1.tbu = s.tbu → (State.writeFso s x1 x2 x3).2.tbu = s.tbu) ∧
    (x1.hk = s.hk → (State.writeFso s x1 x2 x3).2.hk = s.hk) ∧
    (x1.boot = s.boot → (State.writeFso s x1 x2 x3).2.boot = s.boot) ∧
    (x1.goodAt = s.goodAt → (State.writeFso s x1 x2 x3).2.goodAt = s.goodAt) ∧
    (x1.free = s.free → (State.writeFso s x1 x2 x3).2.free = s.free) ∧
    (x1.pending = s.pending → (State.writeFso s x1 x2 x3).2.pending = s.pending) := by
  unfold State.writeFso
  (repeat' (first | (split; rename_i heq; have h1 := congrArg Prod.fst heq; have h2 := congrArg Prod.snd heq; dsimp only at h1 h2; (try subst h1); (try subst h2)) | split)) <;> simp +contextual

@[simp] theorem State.commitDef_inv (s : State) (x1 : ℕ) (x2 : List Word) (x3 : Bool) : (State.commitDef s x1 x2 x3).Inv ↔ s.Inv := inv_of_parts (by simp) (by simp)

@[simp] theorem State.latchSnap_inv (s : State) (h : s.Inv) : (State.latchSnap s).Inv := by
  unfold State.latchSnap
  (repeat' (first | (split; rename_i heq; have h1 := congrArg Prod.fst heq; have h2 := congrArg Prod.snd heq; dsimp only at h1 h2; (try subst h1); (try subst h2)) | split)) <;> simp +contextual (maxDischargeDepth := 100) [h]

@[simp] theorem State.latchDef_inv (s : State) (x1 : ℕ) (x2 : ℕ) (h : s.Inv) : (State.latchDef s x1 x2).Inv := by
  unfold State.latchDef
  dsimp only
  (repeat' (first | (split; rename_i heq; have h1 := congrArg Prod.fst heq; have h2 := congrArg Prod.snd heq; dsimp only at h1 h2; (try subst h1); (try subst h2)) | split)) <;> simp +contextual (maxDischargeDepth := 100) [h]

@[simp] theorem State.latchDefs_inv (s : State) (h : s.Inv) : (State.latchDefs s).Inv := by
  unfold State.latchDefs
  simp +contextual (maxDischargeDepth := 100) [h]

@[simp] theorem State.dropFrame_inv (s : State) (x1 : ℕ) (x2 : ℕ) (h : s.Inv) : (State.dropFrame s x1 x2).Inv := by
  unfold State.dropFrame
  simp (maxDischargeDepth := 100) [h]

@[simp] theorem State.takeSlot_inv (s : State) (x1 : ℕ) (x2 : ℕ) (x3 : Bool) : (State.takeSlot s x1 x2 x3).Inv ↔ s.Inv := inv_of_parts (by simp) (by simp)

@[simp] theorem State.writeLine_inv (s : State) (x1 : ℕ) (x2 : ℕ) (x3 : List Word) (x4 : ℕ) : (State.writeLine s x1 x2 x3 x4).Inv ↔ s.Inv := inv_of_parts (by simp) (by simp)

@[simp] theorem State.openIn_inv (s : State) (x1 : Bool) (x2 : ℕ) (h : s.Inv) : (State.openIn s x1 x2).Inv := by
  unfold State.openIn
  dsimp only
  (repeat' (first | (split; rename_i heq; have h1 := congrArg Prod.fst heq; have h2 := congrArg Prod.snd heq; dsimp only at h1 h2; (try subst h1); (try subst h2)) | split)) <;> simp +contextual (maxDischargeDepth := 100) [h]

@[simp] theorem State.openFrame_inv (s : State) (h : s.Inv) : (State.openFrame s).Inv := by
  unfold State.openFrame
  simp +contextual (maxDischargeDepth := 100) [h]

@[simp] theorem State.closeIn_inv (s : State) (x1 : ℕ) (h : s.Inv) : (State.closeIn s x1).Inv := by
  unfold State.closeIn
  dsimp only
  (repeat' (first | (split; rename_i heq; have h1 := congrArg Prod.fst heq; have h2 := congrArg Prod.snd heq; dsimp only at h1 h2; (try subst h1); (try subst h2)) | split)) <;> simp +contextual (maxDischargeDepth := 100) [h]

@[simp] theorem State.passFirst_inv (s : State) (x1 : Mark → Bool) (h : s.Inv) : (State.passFirst s x1).Inv := by
  unfold State.passFirst
  (repeat' (first | (split; rename_i heq; have h1 := congrArg Prod.fst heq; have h2 := congrArg Prod.snd heq; dsimp only at h1 h2; (try subst h1); (try subst h2)) | split)) <;> simp +contextual (maxDischargeDepth := 100) [h]

@[simp] theorem State.setHead_inv (s : State) (x1 : Mark) : (State.setHead s x1).Inv ↔ s.Inv := inv_of_parts (by simp) (by simp)

@[simp] theorem State.settleEol_inv (s : State) : (State.settleEol s).Inv ↔ s.Inv := inv_of_parts (by simp) (by simp)

@[simp] theorem State.placeIn_inv (s : State) (x1 : ℕ) (x2 : Point) : (State.placeIn s x1 x2).Inv ↔ s.Inv := inv_of_parts (by simp) (by simp)

@[simp] theorem State.sendDove_inv (s : State) (x1 : Point) : (State.sendDove s x1).Inv ↔ s.Inv := inv_of_parts (by simp) (by simp)

@[simp] theorem State.neighbourIn_inv (s : State) (x1 : ℕ) (x2 : ℕ) (x3 : Option Word) (x4 : Option Word) (x5 : ℕ) : (State.neighbourIn s x1 x2 x3 x4 x5).Inv ↔ s.Inv := inv_of_parts (by simp) (by simp)

@[simp] theorem State.placeNeighbour_inv (s : State) (x1 : ℕ) (x2 : ℕ) (x3 : ℕ → Option Word) (x4 : ℕ → Option Word) (x5 : ℕ) (h : s.Inv) : (State.placeNeighbour s x1 x2 x3 x4 x5).Inv := by
  unfold State.placeNeighbour
  simp (maxDischargeDepth := 100) [h]

@[simp] theorem State.sendTo_inv (s : State) (x1 : ℕ) (x2 : ℕ) (x3 : Partner → Option (List Word)) (x4 : List Word) (x5 : ℕ) : (State.sendTo s x1 x2 x3 x4 x5).Inv ↔ s.Inv := inv_of_parts (by simp) (by simp)

@[simp] theorem State.sendRecord_inv (s : State) (x1 : ℕ) (x2 : Scan) (x3 : ℕ) (x4 : Bool) (x5 : Partner → Option (List Word)) (h : s.Inv) : (State.sendRecord s x1 x2 x3 x4 x5).Inv := by
  unfold State.sendRecord
  (repeat' (first | (split; rename_i heq; have h1 := congrArg Prod.fst heq; have h2 := congrArg Prod.snd heq; dsimp only at h1 h2; (try subst h1); (try subst h2)) | split)) <;> simp +contextual (maxDischargeDepth := 100) [h]

@[simp] theorem State.sendHeader_inv (s : State) (x1 : ℕ) (x2 : Scan) (x3 : ℕ) (x4 : ℕ) (h : s.Inv) : (State.sendHeader s x1 x2 x3 x4).Inv := by
  unfold State.sendHeader
  simp (maxDischargeDepth := 100) [h]

@[simp] theorem State.sendFlip_inv (s : State) (x1 : ℕ) (x2 : FrmSlot) (x3 : ℕ) : (State.sendFlip s x1 x2 x3).Inv ↔ s.Inv := inv_of_parts (by simp) (by simp)

@[simp] theorem State.flip_inv (s : State) (x1 : ℕ) (x2 : List ℕ) (h : s.Inv) : (State.flip s x1 x2).Inv := by
  unfold State.flip
  dsimp only
  (repeat' (first | (split; rename_i heq; have h1 := congrArg Prod.fst heq; have h2 := congrArg Prod.snd heq; dsimp only at h1 h2; (try subst h1); (try subst h2)) | split)) <;> simp +contextual (maxDischargeDepth := 100) [h]

@[simp] theorem State.eventAt_inv (s : State) (x1 : ℕ) (x2 : ℕ) (h : s.Inv) : (State.eventAt s x1 x2).Inv := by
  unfold State.eventAt
  simp (maxDischargeDepth := 100) [h]

@[simp] theorem State.eventAgain_inv (s : State) (x1 : ℕ) (h : s.Inv) : (State.eventAgain s x1).Inv := by
  unfold State.eventAgain
  (repeat' (first | (split; rename_i heq; have h1 := congrArg Prod.fst heq; have h2 := congrArg Prod.snd heq; dsimp only at h1 h2; (try subst h1); (try subst h2)) | split)) <;> simp +contextual (maxDischargeDepth := 100) [h]

@[simp] theorem State.closeFrame_inv (s : State) (h : s.Inv) : (State.closeFrame s).Inv := by
  unfold State.closeFrame
  simp +contextual (maxDischargeDepth := 100) [h]

@[simp] theorem State.sofAtFso_inv (s : State) (h : s.Inv) : (State.sofAtFso s).Inv := by
  unfold State.sofAtFso
  simp (maxDischargeDepth := 100) [h]

@[simp] theorem State.frameEvent_inv (s : State) (x1 : ℕ) (h : s.Inv) : (State.frameEvent s x1).Inv := by
  unfold State.frameEvent
  simp +contextual (maxDischargeDepth := 100) [h]

@[simp] theorem State.encTick_inv (s : State) (x1 : ℕ) (h : s.Inv) : (State.encTick s x1).Inv := by
  unfold State.encTick
  simp (maxDischargeDepth := 100) [h]

@[simp] theorem State.fsyncFrame_inv (s : State) (x1 : ℕ) (h : s.Inv) : (State.fsyncFrame s x1).Inv := by
  unfold State.fsyncFrame
  simp (maxDischargeDepth := 100) [h]

@[simp] theorem State.tryFlip_inv (s : State) (x1 : ℕ) (h : s.Inv) : (State.tryFlip s x1).Inv := by
  unfold State.tryFlip
  simp (maxDischargeDepth := 100) [h]

@[simp] theorem State.endScan_inv (s : State) (x1 : ℕ) (x2 : Scan) (h : s.Inv) : (State.endScan s x1 x2).Inv := by
  unfold State.endScan
  simp (maxDischargeDepth := 100) [h]

@[simp] theorem State.endResend_inv (s : State) (x1 : ℕ) (h : s.Inv) : (State.endResend s x1).Inv := by
  unfold State.endResend
  simp (maxDischargeDepth := 100) [h]

@[simp] theorem State.fetchLine_inv (s : State) (x1 : ℕ) (x2 : Scan) (x3 : List MemHit) (x4 : Bool) (h : s.Inv) : (State.fetchLine s x1 x2 x3 x4).Inv := by
  unfold State.fetchLine
  simp (maxDischargeDepth := 100) [h]

@[simp] theorem State.writePin_inv (s : State) (x1 : Word) (h : s.Inv) : (State.writePin s x1).2.Inv := by
  unfold State.writePin
  dsimp only
  (repeat' (first | (split; rename_i heq; have h1 := congrArg Prod.fst heq; have h2 := congrArg Prod.snd heq; dsimp only at h1 h2; (try subst h1); (try subst h2)) | split)) <;> simp +contextual (maxDischargeDepth := 100) [h]

@[simp] theorem State.writeRel_inv (s : State) (x1 : Word) : (State.writeRel s x1).2.Inv ↔ s.Inv := inv_of_parts (by simp) (by simp)

@[simp] theorem State.writeResend_inv (s : State) (x1 : Word) (h : s.Inv) : (State.writeResend s x1).2.Inv := by
  unfold State.writeResend
  dsimp only
  (repeat' (first | (split; rename_i heq; have h1 := congrArg Prod.fst heq; have h2 := congrArg Prod.snd heq; dsimp only at h1 h2; (try subst h1); (try subst h2)) | split)) <;> simp +contextual (maxDischargeDepth := 100) [h]

@[simp] theorem State.readRdata_inv (s : State) (x1 : List MemHit) (h : s.Inv) : (State.readRdata s x1).2.Inv := by
  unfold State.readRdata
  dsimp only
  (repeat' (first | (split; rename_i heq; have h1 := congrArg Prod.fst heq; have h2 := congrArg Prod.snd heq; dsimp only at h1 h2; (try subst h1); (try subst h2)) | split)) <;> simp +contextual (maxDischargeDepth := 100) [h]

@[simp] theorem State.writeCommit_inv (s : State) (x1 : ℕ) (x2 : Word) : (State.writeCommit s x1 x2).2.Inv ↔ s.Inv := inv_of_parts (by simp) (by simp)

@[simp] theorem State.writeFso_inv (s : State) (x1 : State) (x2 : ℕ) (x3 : Word) (h : s.Inv) (hx1 : x1.Inv) : (State.writeFso s x1 x2 x3).2.Inv := by
  unfold State.writeFso
  simp (maxDischargeDepth := 100) [h, hx1]

/-! ### Lanes -/

@[simp] theorem State.adapt_frame (s : State) (x1 : ℕ) :
    (State.adapt s x1).clk = s.clk ∧ (State.adapt s x1).tofs = s.tofs ∧ (State.adapt s x1).dev = s.dev ∧
    (State.adapt s x1).mgmt = s.mgmt ∧ (State.adapt s x1).seq = s.seq ∧ (State.adapt s x1).edu = s.edu ∧
    (State.adapt s x1).rta = s.rta ∧ (State.adapt s x1).rpe = s.rpe ∧ (State.adapt s x1).stu = s.stu ∧
    (State.adapt s x1).saf = s.saf ∧ (State.adapt s x1).cap = s.cap ∧ (State.adapt s x1).fso = s.fso ∧
    (State.adapt s x1).cmp = s.cmp ∧ (State.adapt s x1).mem = s.mem ∧ (State.adapt s x1).lnk = s.lnk ∧
    (State.adapt s x1).tbu = s.tbu ∧ (State.adapt s x1).hk = s.hk ∧ (State.adapt s x1).boot = s.boot ∧
    (State.adapt s x1).out = s.out ∧ (State.adapt s x1).goodAt = s.goodAt ∧ (State.adapt s x1).pending = s.pending := by
  unfold State.adapt
  simp

@[simp] theorem State.lineErrors_frame (s : State) (x1 : Bool) (x2 : Fld) :
    (State.lineErrors s x1 x2).clk = s.clk ∧ (State.lineErrors s x1 x2).tofs = s.tofs ∧
    (State.lineErrors s x1 x2).dev = s.dev ∧ (State.lineErrors s x1 x2).mgmt = s.mgmt ∧
    (State.lineErrors s x1 x2).seq = s.seq ∧ (State.lineErrors s x1 x2).edu = s.edu ∧
    (State.lineErrors s x1 x2).rta = s.rta ∧ (State.lineErrors s x1 x2).rpe = s.rpe ∧
    (State.lineErrors s x1 x2).stu = s.stu ∧ (State.lineErrors s x1 x2).saf = s.saf ∧
    (State.lineErrors s x1 x2).cap = s.cap ∧ (State.lineErrors s x1 x2).fso = s.fso ∧
    (State.lineErrors s x1 x2).cmp = s.cmp ∧ (State.lineErrors s x1 x2).mem = s.mem ∧
    (State.lineErrors s x1 x2).lnk = s.lnk ∧ (State.lineErrors s x1 x2).tbu = s.tbu ∧ (State.lineErrors s x1 x2).hk = s.hk ∧
    (State.lineErrors s x1 x2).boot = s.boot ∧ (State.lineErrors s x1 x2).out = s.out ∧
    (State.lineErrors s x1 x2).goodAt = s.goodAt ∧ (State.lineErrors s x1 x2).pending = s.pending := by
  unfold State.lineErrors
  simp

@[simp] theorem State.runLane_frame (s : State) (x1 : ℕ) :
    (State.runLane s x1).clk = s.clk ∧ (State.runLane s x1).tofs = s.tofs ∧ (State.runLane s x1).dev = s.dev ∧
    (State.runLane s x1).mgmt = s.mgmt ∧ (State.runLane s x1).seq = s.seq ∧ (State.runLane s x1).edu = s.edu ∧
    (State.runLane s x1).rta = s.rta ∧ (State.runLane s x1).rpe = s.rpe ∧ (State.runLane s x1).stu = s.stu ∧
    (State.runLane s x1).saf = s.saf ∧ (State.runLane s x1).cap = s.cap ∧ (State.runLane s x1).fso = s.fso ∧
    (State.runLane s x1).cmp = s.cmp ∧ (State.runLane s x1).mem = s.mem ∧ (State.runLane s x1).lnk = s.lnk ∧
    (State.runLane s x1).tbu = s.tbu ∧ (State.runLane s x1).hk = s.hk ∧ (State.runLane s x1).boot = s.boot ∧
    (State.runLane s x1).out = s.out ∧ (State.runLane s x1).goodAt = s.goodAt ∧
    (State.runLane s x1).pending = s.pending := by
  unfold State.runLane
  simp

@[simp] theorem State.senseLane_frame (s : State) (x1 : ℕ) :
    (State.senseLane s x1).clk = s.clk ∧ (State.senseLane s x1).tofs = s.tofs ∧ (State.senseLane s x1).dev = s.dev ∧
    (State.senseLane s x1).regs = s.regs ∧ (State.senseLane s x1).mgmt = s.mgmt ∧ (State.senseLane s x1).seq = s.seq ∧
    (State.senseLane s x1).edu = s.edu ∧ (State.senseLane s x1).rta = s.rta ∧ (State.senseLane s x1).rpe = s.rpe ∧
    (State.senseLane s x1).stu = s.stu ∧ (State.senseLane s x1).saf = s.saf ∧ (State.senseLane s x1).cap = s.cap ∧
    (State.senseLane s x1).fso = s.fso ∧ (State.senseLane s x1).cmp = s.cmp ∧ (State.senseLane s x1).mem = s.mem ∧
    (State.senseLane s x1).tbu = s.tbu ∧ (State.senseLane s x1).hk = s.hk ∧ (State.senseLane s x1).boot = s.boot ∧
    (State.senseLane s x1).out = s.out ∧ (State.senseLane s x1).goodAt = s.goodAt ∧
    (State.senseLane s x1).pending = s.pending := by
  unfold State.senseLane
  simp

@[simp] theorem State.lookAt_frame (s : State) (x1 : ℕ) :
    (State.lookAt s x1).clk = s.clk ∧ (State.lookAt s x1).tofs = s.tofs ∧ (State.lookAt s x1).dev = s.dev ∧
    (State.lookAt s x1).mgmt = s.mgmt ∧ (State.lookAt s x1).seq = s.seq ∧ (State.lookAt s x1).edu = s.edu ∧
    (State.lookAt s x1).rta = s.rta ∧ (State.lookAt s x1).rpe = s.rpe ∧ (State.lookAt s x1).stu = s.stu ∧
    (State.lookAt s x1).saf = s.saf ∧ (State.lookAt s x1).cap = s.cap ∧ (State.lookAt s x1).fso = s.fso ∧
    (State.lookAt s x1).cmp = s.cmp ∧ (State.lookAt s x1).mem = s.mem ∧ (State.lookAt s x1).tbu = s.tbu ∧
    (State.lookAt s x1).hk = s.hk ∧ (State.lookAt s x1).boot = s.boot ∧ (State.lookAt s x1).out = s.out ∧
    (State.lookAt s x1).goodAt = s.goodAt ∧ (State.lookAt s x1).pending = s.pending := by
  unfold State.lookAt
  simp

@[simp] theorem State.setStage_frame (s : State) (x1 : ℕ) (x2 : Stage) :
    (State.setStage s x1 x2).clk = s.clk ∧ (State.setStage s x1 x2).tofs = s.tofs ∧ (State.setStage s x1 x2).dev = s.dev ∧
    (State.setStage s x1 x2).mgmt = s.mgmt ∧ (State.setStage s x1 x2).seq = s.seq ∧ (State.setStage s x1 x2).edu = s.edu ∧
    (State.setStage s x1 x2).rta = s.rta ∧ (State.setStage s x1 x2).rpe = s.rpe ∧ (State.setStage s x1 x2).stu = s.stu ∧
    (State.setStage s x1 x2).saf = s.saf ∧ (State.setStage s x1 x2).cap = s.cap ∧ (State.setStage s x1 x2).fso = s.fso ∧
    (State.setStage s x1 x2).cmp = s.cmp ∧ (State.setStage s x1 x2).mem = s.mem ∧ (State.setStage s x1 x2).tbu = s.tbu ∧
    (State.setStage s x1 x2).hk = s.hk ∧ (State.setStage s x1 x2).boot = s.boot ∧ (State.setStage s x1 x2).out = s.out ∧
    (State.setStage s x1 x2).goodAt = s.goodAt ∧ (State.setStage s x1 x2).pending = s.pending := by
  unfold State.setStage
  simp

@[simp] theorem State.startLane_frame (s : State) (x1 : ℕ) :
    (State.startLane s x1).clk = s.clk ∧ (State.startLane s x1).tofs = s.tofs ∧ (State.startLane s x1).dev = s.dev ∧
    (State.startLane s x1).mgmt = s.mgmt ∧ (State.startLane s x1).seq = s.seq ∧ (State.startLane s x1).edu = s.edu ∧
    (State.startLane s x1).rta = s.rta ∧ (State.startLane s x1).rpe = s.rpe ∧ (State.startLane s x1).stu = s.stu ∧
    (State.startLane s x1).saf = s.saf ∧ (State.startLane s x1).cap = s.cap ∧ (State.startLane s x1).fso = s.fso ∧
    (State.startLane s x1).cmp = s.cmp ∧ (State.startLane s x1).mem = s.mem ∧ (State.startLane s x1).tbu = s.tbu ∧
    (State.startLane s x1).hk = s.hk ∧ (State.startLane s x1).boot = s.boot ∧ (State.startLane s x1).out = s.out ∧
    (State.startLane s x1).goodAt = s.goodAt ∧ (State.startLane s x1).pending = s.pending := by
  unfold State.startLane
  simp

@[simp] theorem State.startLanes_frame (s : State) :
    (State.startLanes s).clk = s.clk ∧ (State.startLanes s).tofs = s.tofs ∧ (State.startLanes s).dev = s.dev ∧
    (State.startLanes s).mgmt = s.mgmt ∧ (State.startLanes s).seq = s.seq ∧ (State.startLanes s).edu = s.edu ∧
    (State.startLanes s).rta = s.rta ∧ (State.startLanes s).rpe = s.rpe ∧ (State.startLanes s).stu = s.stu ∧
    (State.startLanes s).saf = s.saf ∧ (State.startLanes s).cap = s.cap ∧ (State.startLanes s).fso = s.fso ∧
    (State.startLanes s).cmp = s.cmp ∧ (State.startLanes s).mem = s.mem ∧ (State.startLanes s).tbu = s.tbu ∧
    (State.startLanes s).hk = s.hk ∧ (State.startLanes s).boot = s.boot ∧ (State.startLanes s).out = s.out ∧
    (State.startLanes s).goodAt = s.goodAt ∧ (State.startLanes s).pending = s.pending := by
  unfold State.startLanes
  simp

@[simp] theorem State.sendParams_frame (s : State) :
    (State.sendParams s).clk = s.clk ∧ (State.sendParams s).tofs = s.tofs ∧ (State.sendParams s).dev = s.dev ∧
    (State.sendParams s).regs = s.regs ∧ (State.sendParams s).mgmt = s.mgmt ∧ (State.sendParams s).seq = s.seq ∧
    (State.sendParams s).edu = s.edu ∧ (State.sendParams s).rta = s.rta ∧ (State.sendParams s).rpe = s.rpe ∧
    (State.sendParams s).stu = s.stu ∧ (State.sendParams s).saf = s.saf ∧ (State.sendParams s).cap = s.cap ∧
    (State.sendParams s).fso = s.fso ∧ (State.sendParams s).cmp = s.cmp ∧ (State.sendParams s).mem = s.mem ∧
    (State.sendParams s).tbu = s.tbu ∧ (State.sendParams s).hk = s.hk ∧ (State.sendParams s).boot = s.boot ∧
    (State.sendParams s).goodAt = s.goodAt ∧ (State.sendParams s).free = s.free ∧
    (State.sendParams s).pending = s.pending := by
  unfold State.sendParams
  simp

@[simp] theorem State.leaveChain_frame (s : State) :
    (State.leaveChain s).clk = s.clk ∧ (State.leaveChain s).tofs = s.tofs ∧ (State.leaveChain s).dev = s.dev ∧
    (State.leaveChain s).seq = s.seq ∧ (State.leaveChain s).edu = s.edu ∧ (State.leaveChain s).rta = s.rta ∧
    (State.leaveChain s).rpe = s.rpe ∧ (State.leaveChain s).stu = s.stu ∧ (State.leaveChain s).cap = s.cap ∧
    (State.leaveChain s).fso = s.fso ∧ (State.leaveChain s).cmp = s.cmp ∧ (State.leaveChain s).mem = s.mem ∧
    (State.leaveChain s).hk = s.hk ∧ (State.leaveChain s).boot = s.boot ∧ (State.leaveChain s).goodAt = s.goodAt ∧
    (State.leaveChain s).free = s.free ∧ (State.leaveChain s).pending = s.pending := by
  unfold State.leaveChain
  simp

@[simp] theorem State.portDown_frame (s : State) (x1 : ChainSide) :
    (State.portDown s x1).clk = s.clk ∧ (State.portDown s x1).tofs = s.tofs ∧ (State.portDown s x1).dev = s.dev ∧
    (State.portDown s x1).seq = s.seq ∧ (State.portDown s x1).edu = s.edu ∧ (State.portDown s x1).rta = s.rta ∧
    (State.portDown s x1).rpe = s.rpe ∧ (State.portDown s x1).stu = s.stu ∧ (State.portDown s x1).cap = s.cap ∧
    (State.portDown s x1).fso = s.fso ∧ (State.portDown s x1).cmp = s.cmp ∧ (State.portDown s x1).mem = s.mem ∧
    (State.portDown s x1).hk = s.hk ∧ (State.portDown s x1).boot = s.boot ∧ (State.portDown s x1).goodAt = s.goodAt ∧
    (State.portDown s x1).free = s.free ∧ (State.portDown s x1).pending = s.pending := by
  unfold State.portDown
  simp

@[simp] theorem State.loseLane_frame (s : State) (x1 : ℕ) :
    (State.loseLane s x1).clk = s.clk ∧ (State.loseLane s x1).tofs = s.tofs ∧ (State.loseLane s x1).dev = s.dev ∧
    (State.loseLane s x1).seq = s.seq ∧ (State.loseLane s x1).edu = s.edu ∧ (State.loseLane s x1).rta = s.rta ∧
    (State.loseLane s x1).rpe = s.rpe ∧ (State.loseLane s x1).stu = s.stu ∧ (State.loseLane s x1).cap = s.cap ∧
    (State.loseLane s x1).fso = s.fso ∧ (State.loseLane s x1).cmp = s.cmp ∧ (State.loseLane s x1).mem = s.mem ∧
    (State.loseLane s x1).hk = s.hk ∧ (State.loseLane s x1).boot = s.boot ∧ (State.loseLane s x1).goodAt = s.goodAt ∧
    (State.loseLane s x1).pending = s.pending := by
  unfold State.loseLane
  simp

@[simp] theorem State.idleLane_frame (s : State) (x1 : ℕ) :
    (State.idleLane s x1).clk = s.clk ∧ (State.idleLane s x1).tofs = s.tofs ∧ (State.idleLane s x1).dev = s.dev ∧
    (State.idleLane s x1).mgmt = s.mgmt ∧ (State.idleLane s x1).seq = s.seq ∧ (State.idleLane s x1).edu = s.edu ∧
    (State.idleLane s x1).rta = s.rta ∧ (State.idleLane s x1).rpe = s.rpe ∧ (State.idleLane s x1).stu = s.stu ∧
    (State.idleLane s x1).saf = s.saf ∧ (State.idleLane s x1).cap = s.cap ∧ (State.idleLane s x1).fso = s.fso ∧
    (State.idleLane s x1).cmp = s.cmp ∧ (State.idleLane s x1).mem = s.mem ∧ (State.idleLane s x1).tbu = s.tbu ∧
    (State.idleLane s x1).hk = s.hk ∧ (State.idleLane s x1).boot = s.boot ∧ (State.idleLane s x1).out = s.out ∧
    (State.idleLane s x1).goodAt = s.goodAt ∧ (State.idleLane s x1).pending = s.pending := by
  unfold State.idleLane
  simp

@[simp] theorem State.idleLanes_frame (s : State) :
    (State.idleLanes s).clk = s.clk ∧ (State.idleLanes s).tofs = s.tofs ∧ (State.idleLanes s).dev = s.dev ∧
    (State.idleLanes s).seq = s.seq ∧ (State.idleLanes s).edu = s.edu ∧ (State.idleLanes s).rta = s.rta ∧
    (State.idleLanes s).rpe = s.rpe ∧ (State.idleLanes s).stu = s.stu ∧ (State.idleLanes s).cap = s.cap ∧
    (State.idleLanes s).fso = s.fso ∧ (State.idleLanes s).cmp = s.cmp ∧ (State.idleLanes s).mem = s.mem ∧
    (State.idleLanes s).hk = s.hk ∧ (State.idleLanes s).boot = s.boot ∧ (State.idleLanes s).goodAt = s.goodAt ∧
    (State.idleLanes s).pending = s.pending := by
  unfold State.idleLanes
  simp

@[simp] theorem State.reachCaps_frame (s : State) (x1 : ℕ) :
    (State.reachCaps s x1).clk = s.clk ∧ (State.reachCaps s x1).tofs = s.tofs ∧ (State.reachCaps s x1).dev = s.dev ∧
    (State.reachCaps s x1).mgmt = s.mgmt ∧ (State.reachCaps s x1).seq = s.seq ∧ (State.reachCaps s x1).edu = s.edu ∧
    (State.reachCaps s x1).rta = s.rta ∧ (State.reachCaps s x1).rpe = s.rpe ∧ (State.reachCaps s x1).stu = s.stu ∧
    (State.reachCaps s x1).saf = s.saf ∧ (State.reachCaps s x1).cap = s.cap ∧ (State.reachCaps s x1).fso = s.fso ∧
    (State.reachCaps s x1).cmp = s.cmp ∧ (State.reachCaps s x1).mem = s.mem ∧ (State.reachCaps s x1).tbu = s.tbu ∧
    (State.reachCaps s x1).hk = s.hk ∧ (State.reachCaps s x1).boot = s.boot ∧ (State.reachCaps s x1).goodAt = s.goodAt ∧
    (State.reachCaps s x1).pending = s.pending := by
  unfold State.reachCaps
  simp

@[simp] theorem State.reachActive_frame (s : State) (x1 : ℕ) :
    (State.reachActive s x1).clk = s.clk ∧ (State.reachActive s x1).tofs = s.tofs ∧ (State.reachActive s x1).dev = s.dev ∧
    (State.reachActive s x1).mgmt = s.mgmt ∧ (State.reachActive s x1).seq = s.seq ∧ (State.reachActive s x1).edu = s.edu ∧
    (State.reachActive s x1).rta = s.rta ∧ (State.reachActive s x1).rpe = s.rpe ∧ (State.reachActive s x1).stu = s.stu ∧
    (State.reachActive s x1).saf = s.saf ∧ (State.reachActive s x1).cap = s.cap ∧ (State.reachActive s x1).fso = s.fso ∧
    (State.reachActive s x1).cmp = s.cmp ∧ (State.reachActive s x1).mem = s.mem ∧ (State.reachActive s x1).tbu = s.tbu ∧
    (State.reachActive s x1).hk = s.hk ∧ (State.reachActive s x1).boot = s.boot ∧ (State.reachActive s x1).out = s.out ∧
    (State.reachActive s x1).goodAt = s.goodAt ∧ (State.reachActive s x1).pending = s.pending := by
  unfold State.reachActive
  simp

@[simp] theorem State.stepFir_frame (s : State) (x1 : ℕ) (x2 : ℕ) :
    (State.stepFir s x1 x2).2.clk = s.clk ∧ (State.stepFir s x1 x2).2.tofs = s.tofs ∧
    (State.stepFir s x1 x2).2.dev = s.dev ∧ (State.stepFir s x1 x2).2.mgmt = s.mgmt ∧
    (State.stepFir s x1 x2).2.seq = s.seq ∧ (State.stepFir s x1 x2).2.edu = s.edu ∧ (State.stepFir s x1 x2).2.rta = s.rta ∧
    (State.stepFir s x1 x2).2.rpe = s.rpe ∧ (State.stepFir s x1 x2).2.stu = s.stu ∧ (State.stepFir s x1 x2).2.saf = s.saf ∧
    (State.stepFir s x1 x2).2.cap = s.cap ∧ (State.stepFir s x1 x2).2.fso = s.fso ∧ (State.stepFir s x1 x2).2.cmp = s.cmp ∧
    (State.stepFir s x1 x2).2.mem = s.mem ∧ (State.stepFir s x1 x2).2.lnk = s.lnk ∧ (State.stepFir s x1 x2).2.tbu = s.tbu ∧
    (State.stepFir s x1 x2).2.hk = s.hk ∧ (State.stepFir s x1 x2).2.boot = s.boot ∧ (State.stepFir s x1 x2).2.out = s.out ∧
    (State.stepFir s x1 x2).2.goodAt = s.goodAt ∧ (State.stepFir s x1 x2).2.free = s.free ∧
    (State.stepFir s x1 x2).2.pending = s.pending := by
  unfold State.stepFir
  simp

@[simp] theorem State.writeLcfg_frame (s : State) (x1 : State) (x2 : ℕ) (x3 : Word) :
    (x1.clk = s.clk → (State.writeLcfg s x1 x2 x3).2.clk = s.clk) ∧
    (x1.tofs = s.tofs → (State.writeLcfg s x1 x2 x3).2.tofs = s.tofs) ∧
    (x1.dev = s.dev → (State.writeLcfg s x1 x2 x3).2.dev = s.dev) ∧
    (x1.seq = s.seq → (State.writeLcfg s x1 x2 x3).2.seq = s.seq) ∧
    (x1.edu = s.edu → (State.writeLcfg s x1 x2 x3).2.edu = s.edu) ∧
    (x1.rta = s.rta → (State.writeLcfg s x1 x2 x3).2.rta = s.rta) ∧
    (x1.rpe = s.rpe → (State.writeLcfg s x1 x2 x3).2.rpe = s.rpe) ∧
    (x1.stu = s.stu → (State.writeLcfg s x1 x2 x3).2.stu = s.stu) ∧
    (x1.cap = s.cap → (State.writeLcfg s x1 x2 x3).2.cap = s.cap) ∧
    (x1.fso = s.fso → (State.writeLcfg s x1 x2 x3).2.fso = s.fso) ∧
    (x1.cmp = s.cmp → (State.writeLcfg s x1 x2 x3).2.cmp = s.cmp) ∧
    (x1.mem = s.mem → (State.writeLcfg s x1 x2 x3).2.mem = s.mem) ∧
    (x1.hk = s.hk → (State.writeLcfg s x1 x2 x3).2.hk = s.hk) ∧
    (x1.boot = s.boot → (State.writeLcfg s x1 x2 x3).2.boot = s.boot) ∧
    (x1.goodAt = s.goodAt → (State.writeLcfg s x1 x2 x3).2.goodAt = s.goodAt) ∧
    (x1.pending = s.pending → (State.writeLcfg s x1 x2 x3).2.pending = s.pending) := by
  unfold State.writeLcfg
  dsimp only
  (repeat' (first | (split; rename_i heq; have h1 := congrArg Prod.fst heq; have h2 := congrArg Prod.snd heq; dsimp only at h1 h2; (try subst h1); (try subst h2)) | split)) <;> simp +contextual

@[simp] theorem State.writeTxfir_frame (s : State) (x1 : State) (x2 : Word) :
    (x1.clk = s.clk → (State.writeTxfir s x1 x2).2.clk = s.clk) ∧
    (x1.tofs = s.tofs → (State.writeTxfir s x1 x2).2.tofs = s.tofs) ∧
    (x1.dev = s.dev → (State.writeTxfir s x1 x2).2.dev = s.dev) ∧
    (x1.regs = s.regs → (State.writeTxfir s x1 x2).2.regs = s.regs) ∧
    (x1.mgmt = s.mgmt → (State.writeTxfir s x1 x2).2.mgmt = s.mgmt) ∧
    (x1.seq = s.seq → (State.writeTxfir s x1 x2).2.seq = s.seq) ∧
    (x1.edu = s.edu → (State.writeTxfir s x1 x2).2.edu = s.edu) ∧
    (x1.rta = s.rta → (State.writeTxfir s x1 x2).2.rta = s.rta) ∧
    (x1.rpe = s.rpe → (State.writeTxfir s x1 x2).2.rpe = s.rpe) ∧
    (x1.stu = s.stu → (State.writeTxfir s x1 x2).2.stu = s.stu) ∧
    (x1.saf = s.saf → (State.writeTxfir s x1 x2).2.saf = s.saf) ∧
    (x1.cap = s.cap → (State.writeTxfir s x1 x2).2.cap = s.cap) ∧
    (x1.fso = s.fso → (State.writeTxfir s x1 x2).2.fso = s.fso) ∧
    (x1.cmp = s.cmp → (State.writeTxfir s x1 x2).2.cmp = s.cmp) ∧
    (x1.mem = s.mem → (State.writeTxfir s x1 x2).2.mem = s.mem) ∧
    (x1.lnk = s.lnk → (State.writeTxfir s x1 x2).2.lnk = s.lnk) ∧
    (x1.tbu = s.tbu → (State.writeTxfir s x1 x2).2.tbu = s.tbu) ∧ (x1.hk = s.hk → (State.writeTxfir s x1 x2).2.hk = s.hk) ∧
    (x1.boot = s.boot → (State.writeTxfir s x1 x2).2.boot = s.boot) ∧
    (x1.out = s.out → (State.writeTxfir s x1 x2).2.out = s.out) ∧
    (x1.goodAt = s.goodAt → (State.writeTxfir s x1 x2).2.goodAt = s.goodAt) ∧
    (x1.free = s.free → (State.writeTxfir s x1 x2).2.free = s.free) ∧
    (x1.pending = s.pending → (State.writeTxfir s x1 x2).2.pending = s.pending) := by
  unfold State.writeTxfir
  (repeat' (first | (split; rename_i heq; have h1 := congrArg Prod.fst heq; have h2 := congrArg Prod.snd heq; dsimp only at h1 h2; (try subst h1); (try subst h2)) | split)) <;> simp +contextual

@[simp] theorem State.adapt_inv (s : State) (x1 : ℕ) (h : s.Inv) : (State.adapt s x1).Inv := by
  unfold State.adapt
  simp (maxDischargeDepth := 100) [h]

@[simp] theorem State.lineErrors_inv (s : State) (x1 : Bool) (x2 : Fld) (h : s.Inv) : (State.lineErrors s x1 x2).Inv := by
  unfold State.lineErrors
  simp (maxDischargeDepth := 100) [h]

@[simp] theorem State.runLane_inv (s : State) (x1 : ℕ) (h : s.Inv) : (State.runLane s x1).Inv := by
  unfold State.runLane
  simp (maxDischargeDepth := 100) [h]

@[simp] theorem State.senseLane_inv (s : State) (x1 : ℕ) : (State.senseLane s x1).Inv ↔ s.Inv := inv_of_parts (by simp) (by simp)

@[simp] theorem State.lookAt_inv (s : State) (x1 : ℕ) (h : s.Inv) : (State.lookAt s x1).Inv := by
  unfold State.lookAt
  simp (maxDischargeDepth := 100) [h]

@[simp] theorem State.setStage_inv (s : State) (x1 : ℕ) (x2 : Stage) (h : s.Inv) : (State.setStage s x1 x2).Inv := by
  unfold State.setStage
  simp (maxDischargeDepth := 100) [h]

@[simp] theorem State.startLane_inv (s : State) (x1 : ℕ) (h : s.Inv) : (State.startLane s x1).Inv := by
  unfold State.startLane
  simp (maxDischargeDepth := 100) [h]

@[simp] theorem State.startLanes_inv (s : State) (h : s.Inv) : (State.startLanes s).Inv := by
  unfold State.startLanes
  simp +contextual (maxDischargeDepth := 100) [h]

@[simp] theorem State.sendParams_inv (s : State) : (State.sendParams s).Inv ↔ s.Inv := inv_of_parts (by simp) (by simp)

@[simp] theorem State.leaveChain_inv (s : State) (h : s.Inv) : (State.leaveChain s).Inv := by
  unfold State.leaveChain
  simp (maxDischargeDepth := 100) [h]

@[simp] theorem State.portDown_inv (s : State) (x1 : ChainSide) (h : s.Inv) : (State.portDown s x1).Inv := by
  unfold State.portDown
  simp (maxDischargeDepth := 100) [h]

@[simp] theorem State.loseLane_inv (s : State) (x1 : ℕ) (h : s.Inv) : (State.loseLane s x1).Inv := by
  unfold State.loseLane
  simp +contextual (maxDischargeDepth := 100) [h]

@[simp] theorem State.idleLane_inv (s : State) (x1 : ℕ) (h : s.Inv) : (State.idleLane s x1).Inv := by
  unfold State.idleLane
  simp (maxDischargeDepth := 100) [h]

@[simp] theorem State.idleLanes_inv (s : State) (h : s.Inv) : (State.idleLanes s).Inv := by
  unfold State.idleLanes
  simp +contextual (maxDischargeDepth := 100) [h]

@[simp] theorem State.reachCaps_inv (s : State) (x1 : ℕ) (h : s.Inv) : (State.reachCaps s x1).Inv := by
  unfold State.reachCaps
  simp (maxDischargeDepth := 100) [h]

@[simp] theorem State.reachActive_inv (s : State) (x1 : ℕ) (h : s.Inv) : (State.reachActive s x1).Inv := by
  unfold State.reachActive
  simp (maxDischargeDepth := 100) [h]

@[simp] theorem State.stepFir_inv (s : State) (x1 : ℕ) (x2 : ℕ) (h : s.Inv) : (State.stepFir s x1 x2).2.Inv := by
  unfold State.stepFir
  simp (maxDischargeDepth := 100) [h]

@[simp] theorem State.writeLcfg_inv (s : State) (x1 : State) (x2 : ℕ) (x3 : Word) (h : s.Inv) (hx1 : x1.Inv) : (State.writeLcfg s x1 x2 x3).2.Inv := by
  unfold State.writeLcfg
  simp (maxDischargeDepth := 100) [h, hx1]

@[simp] theorem State.writeTxfir_inv (s : State) (x1 : State) (x2 : Word) (h : s.Inv) (hx1 : x1.Inv) : (State.writeTxfir s x1 x2).2.Inv := by
  unfold State.writeTxfir
  simp (maxDischargeDepth := 100) [h, hx1]

/-! ### Timebase -/

@[simp] theorem State.slewOff_frame (s : State) (x1 : ℤ) :
    (State.slewOff s x1).clk = s.clk ∧ (State.slewOff s x1).tofs = s.tofs ∧ (State.slewOff s x1).dev = s.dev ∧
    (State.slewOff s x1).mgmt = s.mgmt ∧ (State.slewOff s x1).seq = s.seq ∧ (State.slewOff s x1).edu = s.edu ∧
    (State.slewOff s x1).rta = s.rta ∧ (State.slewOff s x1).rpe = s.rpe ∧ (State.slewOff s x1).stu = s.stu ∧
    (State.slewOff s x1).saf = s.saf ∧ (State.slewOff s x1).cap = s.cap ∧ (State.slewOff s x1).fso = s.fso ∧
    (State.slewOff s x1).cmp = s.cmp ∧ (State.slewOff s x1).mem = s.mem ∧ (State.slewOff s x1).lnk = s.lnk ∧
    (State.slewOff s x1).hk = s.hk ∧ (State.slewOff s x1).boot = s.boot ∧ (State.slewOff s x1).out = s.out ∧
    (State.slewOff s x1).goodAt = s.goodAt ∧ (State.slewOff s x1).free = s.free ∧
    (State.slewOff s x1).pending = s.pending := by
  unfold State.slewOff
  simp

@[simp] theorem State.slewOn_frame (s : State) (x1 : ℕ) :
    (State.slewOn s x1).clk = s.clk ∧ (State.slewOn s x1).tofs = s.tofs ∧ (State.slewOn s x1).dev = s.dev ∧
    (State.slewOn s x1).mgmt = s.mgmt ∧ (State.slewOn s x1).seq = s.seq ∧ (State.slewOn s x1).edu = s.edu ∧
    (State.slewOn s x1).rta = s.rta ∧ (State.slewOn s x1).rpe = s.rpe ∧ (State.slewOn s x1).stu = s.stu ∧
    (State.slewOn s x1).saf = s.saf ∧ (State.slewOn s x1).cap = s.cap ∧ (State.slewOn s x1).fso = s.fso ∧
    (State.slewOn s x1).cmp = s.cmp ∧ (State.slewOn s x1).mem = s.mem ∧ (State.slewOn s x1).lnk = s.lnk ∧
    (State.slewOn s x1).hk = s.hk ∧ (State.slewOn s x1).boot = s.boot ∧ (State.slewOn s x1).out = s.out ∧
    (State.slewOn s x1).goodAt = s.goodAt ∧ (State.slewOn s x1).free = s.free ∧
    (State.slewOn s x1).pending = s.pending := by
  unfold State.slewOn
  simp

@[simp] theorem State.noteErr_frame (s : State) (x1 : ℤ) :
    (State.noteErr s x1).clk = s.clk ∧ (State.noteErr s x1).tofs = s.tofs ∧ (State.noteErr s x1).dev = s.dev ∧
    (State.noteErr s x1).mgmt = s.mgmt ∧ (State.noteErr s x1).seq = s.seq ∧ (State.noteErr s x1).edu = s.edu ∧
    (State.noteErr s x1).rta = s.rta ∧ (State.noteErr s x1).rpe = s.rpe ∧ (State.noteErr s x1).stu = s.stu ∧
    (State.noteErr s x1).saf = s.saf ∧ (State.noteErr s x1).cap = s.cap ∧ (State.noteErr s x1).fso = s.fso ∧
    (State.noteErr s x1).cmp = s.cmp ∧ (State.noteErr s x1).mem = s.mem ∧ (State.noteErr s x1).lnk = s.lnk ∧
    (State.noteErr s x1).tbu = s.tbu ∧ (State.noteErr s x1).hk = s.hk ∧ (State.noteErr s x1).boot = s.boot ∧
    (State.noteErr s x1).out = s.out ∧ (State.noteErr s x1).goodAt = s.goodAt ∧ (State.noteErr s x1).free = s.free ∧
    (State.noteErr s x1).pending = s.pending := by
  unfold State.noteErr
  simp

@[simp] theorem State.judgeErr_frame (s : State) (x1 : ℤ) :
    (State.judgeErr s x1).clk = s.clk ∧ (State.judgeErr s x1).tofs = s.tofs ∧ (State.judgeErr s x1).dev = s.dev ∧
    (State.judgeErr s x1).mgmt = s.mgmt ∧ (State.judgeErr s x1).seq = s.seq ∧ (State.judgeErr s x1).edu = s.edu ∧
    (State.judgeErr s x1).rta = s.rta ∧ (State.judgeErr s x1).rpe = s.rpe ∧ (State.judgeErr s x1).stu = s.stu ∧
    (State.judgeErr s x1).saf = s.saf ∧ (State.judgeErr s x1).cap = s.cap ∧ (State.judgeErr s x1).fso = s.fso ∧
    (State.judgeErr s x1).cmp = s.cmp ∧ (State.judgeErr s x1).mem = s.mem ∧ (State.judgeErr s x1).lnk = s.lnk ∧
    (State.judgeErr s x1).hk = s.hk ∧ (State.judgeErr s x1).boot = s.boot ∧ (State.judgeErr s x1).out = s.out ∧
    (State.judgeErr s x1).goodAt = s.goodAt ∧ (State.judgeErr s x1).free = s.free ∧
    (State.judgeErr s x1).pending = s.pending := by
  unfold State.judgeErr
  simp

@[simp] theorem State.judgeNext_frame (s : State) :
    (State.judgeNext s).clk = s.clk ∧ (State.judgeNext s).tofs = s.tofs ∧ (State.judgeNext s).dev = s.dev ∧
    (State.judgeNext s).mgmt = s.mgmt ∧ (State.judgeNext s).seq = s.seq ∧ (State.judgeNext s).edu = s.edu ∧
    (State.judgeNext s).rta = s.rta ∧ (State.judgeNext s).rpe = s.rpe ∧ (State.judgeNext s).stu = s.stu ∧
    (State.judgeNext s).saf = s.saf ∧ (State.judgeNext s).cap = s.cap ∧ (State.judgeNext s).fso = s.fso ∧
    (State.judgeNext s).cmp = s.cmp ∧ (State.judgeNext s).mem = s.mem ∧ (State.judgeNext s).lnk = s.lnk ∧
    (State.judgeNext s).hk = s.hk ∧ (State.judgeNext s).boot = s.boot ∧ (State.judgeNext s).out = s.out ∧
    (State.judgeNext s).goodAt = s.goodAt ∧ (State.judgeNext s).free = s.free ∧
    (State.judgeNext s).pending = s.pending := by
  unfold State.judgeNext
  (repeat' (first | (split; rename_i heq; have h1 := congrArg Prod.fst heq; have h2 := congrArg Prod.snd heq; dsimp only at h1 h2; (try subst h1); (try subst h2)) | split)) <;> simp

@[simp] theorem State.timeLoop_frame (s : State) (x1 : ℤ) :
    (State.timeLoop s x1).clk = s.clk ∧ (State.timeLoop s x1).tofs = s.tofs ∧ (State.timeLoop s x1).dev = s.dev ∧
    (State.timeLoop s x1).mgmt = s.mgmt ∧ (State.timeLoop s x1).seq = s.seq ∧ (State.timeLoop s x1).edu = s.edu ∧
    (State.timeLoop s x1).rta = s.rta ∧ (State.timeLoop s x1).rpe = s.rpe ∧ (State.timeLoop s x1).stu = s.stu ∧
    (State.timeLoop s x1).saf = s.saf ∧ (State.timeLoop s x1).cap = s.cap ∧ (State.timeLoop s x1).fso = s.fso ∧
    (State.timeLoop s x1).cmp = s.cmp ∧ (State.timeLoop s x1).mem = s.mem ∧ (State.timeLoop s x1).lnk = s.lnk ∧
    (State.timeLoop s x1).tbu = s.tbu ∧ (State.timeLoop s x1).hk = s.hk ∧ (State.timeLoop s x1).boot = s.boot ∧
    (State.timeLoop s x1).out = s.out ∧ (State.timeLoop s x1).goodAt = s.goodAt ∧
    (State.timeLoop s x1).pending = s.pending := by
  unfold State.timeLoop
  simp

@[simp] theorem State.stepTime_frame (s : State) (x1 : ℤ) :
    (State.stepTime s x1).clk = s.clk ∧ (State.stepTime s x1).dev = s.dev ∧ (State.stepTime s x1).regs = s.regs ∧
    (State.stepTime s x1).mgmt = s.mgmt ∧ (State.stepTime s x1).edu = s.edu ∧ (State.stepTime s x1).rta = s.rta ∧
    (State.stepTime s x1).rpe = s.rpe ∧ (State.stepTime s x1).cmp = s.cmp ∧ (State.stepTime s x1).mem = s.mem ∧
    (State.stepTime s x1).hk = s.hk ∧ (State.stepTime s x1).boot = s.boot ∧ (State.stepTime s x1).out = s.out ∧
    (State.stepTime s x1).goodAt = s.goodAt ∧ (State.stepTime s x1).free = s.free ∧
    (State.stepTime s x1).pending = s.pending := by
  unfold State.stepTime
  simp

@[simp] theorem State.setTime_frame (s : State) (x1 : ℤ) :
    (State.setTime s x1).clk = s.clk ∧ (State.setTime s x1).dev = s.dev ∧ (State.setTime s x1).mgmt = s.mgmt ∧
    (State.setTime s x1).edu = s.edu ∧ (State.setTime s x1).rta = s.rta ∧ (State.setTime s x1).rpe = s.rpe ∧
    (State.setTime s x1).cmp = s.cmp ∧ (State.setTime s x1).mem = s.mem ∧ (State.setTime s x1).hk = s.hk ∧
    (State.setTime s x1).boot = s.boot ∧ (State.setTime s x1).out = s.out ∧ (State.setTime s x1).goodAt = s.goodAt ∧
    (State.setTime s x1).free = s.free ∧ (State.setTime s x1).pending = s.pending := by
  unfold State.setTime
  simp

@[simp] theorem State.applySnap_frame (s : State) (x1 : Snap) :
    (State.applySnap s x1).clk = s.clk ∧ (State.applySnap s x1).dev = s.dev ∧ (State.applySnap s x1).edu = s.edu ∧
    (State.applySnap s x1).rta = s.rta ∧ (State.applySnap s x1).rpe = s.rpe ∧ (State.applySnap s x1).cmp = s.cmp ∧
    (State.applySnap s x1).mem = s.mem ∧ (State.applySnap s x1).hk = s.hk ∧ (State.applySnap s x1).boot = s.boot ∧
    (State.applySnap s x1).goodAt = s.goodAt ∧ (State.applySnap s x1).free = s.free ∧
    (State.applySnap s x1).pending = s.pending := by
  unfold State.applySnap
  simp

@[simp] theorem State.applyClocks_frame (s : State) :
    (State.applyClocks s).clk = s.clk ∧ (State.applyClocks s).tofs = s.tofs ∧ (State.applyClocks s).dev = s.dev ∧
    (State.applyClocks s).mgmt = s.mgmt ∧ (State.applyClocks s).seq = s.seq ∧ (State.applyClocks s).edu = s.edu ∧
    (State.applyClocks s).rta = s.rta ∧ (State.applyClocks s).rpe = s.rpe ∧ (State.applyClocks s).stu = s.stu ∧
    (State.applyClocks s).saf = s.saf ∧ (State.applyClocks s).cap = s.cap ∧ (State.applyClocks s).fso = s.fso ∧
    (State.applyClocks s).cmp = s.cmp ∧ (State.applyClocks s).mem = s.mem ∧ (State.applyClocks s).lnk = s.lnk ∧
    (State.applyClocks s).hk = s.hk ∧ (State.applyClocks s).boot = s.boot ∧ (State.applyClocks s).out = s.out ∧
    (State.applyClocks s).goodAt = s.goodAt ∧ (State.applyClocks s).free = s.free ∧
    (State.applyClocks s).pending = s.pending := by
  unfold State.applyClocks
  simp

@[simp] theorem State.freeze_frame (s : State) :
    (State.freeze s).clk = s.clk ∧ (State.freeze s).tofs = s.tofs ∧ (State.freeze s).dev = s.dev ∧
    (State.freeze s).regs = s.regs ∧ (State.freeze s).mgmt = s.mgmt ∧ (State.freeze s).seq = s.seq ∧
    (State.freeze s).edu = s.edu ∧ (State.freeze s).rta = s.rta ∧ (State.freeze s).rpe = s.rpe ∧
    (State.freeze s).stu = s.stu ∧ (State.freeze s).saf = s.saf ∧ (State.freeze s).cap = s.cap ∧
    (State.freeze s).fso = s.fso ∧ (State.freeze s).cmp = s.cmp ∧ (State.freeze s).mem = s.mem ∧
    (State.freeze s).lnk = s.lnk ∧ (State.freeze s).hk = s.hk ∧ (State.freeze s).boot = s.boot ∧
    (State.freeze s).out = s.out ∧ (State.freeze s).goodAt = s.goodAt ∧ (State.freeze s).free = s.free ∧
    (State.freeze s).pending = s.pending := by
  unfold State.freeze
  simp

@[simp] theorem State.thaw_frame (s : State) :
    (State.thaw s).clk = s.clk ∧ (State.thaw s).tofs = s.tofs ∧ (State.thaw s).dev = s.dev ∧ (State.thaw s).mgmt = s.mgmt ∧
    (State.thaw s).seq = s.seq ∧ (State.thaw s).edu = s.edu ∧ (State.thaw s).rta = s.rta ∧ (State.thaw s).rpe = s.rpe ∧
    (State.thaw s).stu = s.stu ∧ (State.thaw s).saf = s.saf ∧ (State.thaw s).cap = s.cap ∧ (State.thaw s).fso = s.fso ∧
    (State.thaw s).cmp = s.cmp ∧ (State.thaw s).mem = s.mem ∧ (State.thaw s).lnk = s.lnk ∧ (State.thaw s).hk = s.hk ∧
    (State.thaw s).boot = s.boot ∧ (State.thaw s).out = s.out ∧ (State.thaw s).goodAt = s.goodAt ∧
    (State.thaw s).free = s.free ∧ (State.thaw s).pending = s.pending := by
  unfold State.thaw
  simp

@[simp] theorem State.refLost_frame (s : State) :
    (State.refLost s).clk = s.clk ∧ (State.refLost s).tofs = s.tofs ∧ (State.refLost s).dev = s.dev ∧
    (State.refLost s).seq = s.seq ∧ (State.refLost s).edu = s.edu ∧ (State.refLost s).rta = s.rta ∧
    (State.refLost s).rpe = s.rpe ∧ (State.refLost s).stu = s.stu ∧ (State.refLost s).cap = s.cap ∧
    (State.refLost s).fso = s.fso ∧ (State.refLost s).cmp = s.cmp ∧ (State.refLost s).mem = s.mem ∧
    (State.refLost s).hk = s.hk ∧ (State.refLost s).boot = s.boot ∧ (State.refLost s).goodAt = s.goodAt ∧
    (State.refLost s).free = s.free ∧ (State.refLost s).pending = s.pending := by
  unfold State.refLost
  simp

@[simp] theorem State.bootStep_frame (s : State) (x1 : ℕ) :
    (State.bootStep s x1).clk = s.clk ∧ (State.bootStep s x1).tofs = s.tofs ∧ (State.bootStep s x1).dev = s.dev ∧
    (State.bootStep s x1).mgmt = s.mgmt ∧ (State.bootStep s x1).seq = s.seq ∧ (State.bootStep s x1).edu = s.edu ∧
    (State.bootStep s x1).rta = s.rta ∧ (State.bootStep s x1).rpe = s.rpe ∧ (State.bootStep s x1).stu = s.stu ∧
    (State.bootStep s x1).saf = s.saf ∧ (State.bootStep s x1).cap = s.cap ∧ (State.bootStep s x1).fso = s.fso ∧
    (State.bootStep s x1).cmp = s.cmp ∧ (State.bootStep s x1).mem = s.mem ∧ (State.bootStep s x1).lnk = s.lnk ∧
    (State.bootStep s x1).tbu = s.tbu ∧ (State.bootStep s x1).hk = s.hk ∧ (State.bootStep s x1).boot = s.boot ∧
    (State.bootStep s x1).out = s.out ∧ (State.bootStep s x1).goodAt = s.goodAt ∧ (State.bootStep s x1).free = s.free ∧
    (State.bootStep s x1).pending = s.pending := by
  unfold State.bootStep
  simp

@[simp] theorem State.afterLock_frame (s : State) :
    (State.afterLock s).clk = s.clk ∧ (State.afterLock s).tofs = s.tofs ∧ (State.afterLock s).dev = s.dev ∧
    (State.afterLock s).mgmt = s.mgmt ∧ (State.afterLock s).seq = s.seq ∧ (State.afterLock s).edu = s.edu ∧
    (State.afterLock s).rta = s.rta ∧ (State.afterLock s).rpe = s.rpe ∧ (State.afterLock s).stu = s.stu ∧
    (State.afterLock s).saf = s.saf ∧ (State.afterLock s).cap = s.cap ∧ (State.afterLock s).fso = s.fso ∧
    (State.afterLock s).cmp = s.cmp ∧ (State.afterLock s).mem = s.mem ∧ (State.afterLock s).tbu = s.tbu ∧
    (State.afterLock s).hk = s.hk ∧ (State.afterLock s).out = s.out ∧ (State.afterLock s).goodAt = s.goodAt ∧
    (State.afterLock s).pending = s.pending := by
  unfold State.afterLock
  simp

@[simp] theorem State.timingLocked_frame (s : State) :
    (State.timingLocked s).clk = s.clk ∧ (State.timingLocked s).dev = s.dev ∧ (State.timingLocked s).mgmt = s.mgmt ∧
    (State.timingLocked s).seq = s.seq ∧ (State.timingLocked s).edu = s.edu ∧ (State.timingLocked s).rta = s.rta ∧
    (State.timingLocked s).rpe = s.rpe ∧ (State.timingLocked s).stu = s.stu ∧ (State.timingLocked s).saf = s.saf ∧
    (State.timingLocked s).cap = s.cap ∧ (State.timingLocked s).fso = s.fso ∧ (State.timingLocked s).cmp = s.cmp ∧
    (State.timingLocked s).mem = s.mem ∧ (State.timingLocked s).lnk = s.lnk ∧ (State.timingLocked s).hk = s.hk ∧
    (State.timingLocked s).boot = s.boot ∧ (State.timingLocked s).out = s.out ∧ (State.timingLocked s).goodAt = s.goodAt ∧
    (State.timingLocked s).free = s.free ∧ (State.timingLocked s).pending = s.pending := by
  unfold State.timingLocked
  simp

@[simp] theorem State.unlocked_frame (s : State) (x1 : ℕ) :
    (State.unlocked s x1).clk = s.clk ∧ (State.unlocked s x1).tofs = s.tofs ∧ (State.unlocked s x1).dev = s.dev ∧
    (State.unlocked s x1).seq = s.seq ∧ (State.unlocked s x1).edu = s.edu ∧ (State.unlocked s x1).rta = s.rta ∧
    (State.unlocked s x1).rpe = s.rpe ∧ (State.unlocked s x1).stu = s.stu ∧ (State.unlocked s x1).cap = s.cap ∧
    (State.unlocked s x1).fso = s.fso ∧ (State.unlocked s x1).cmp = s.cmp ∧ (State.unlocked s x1).mem = s.mem ∧
    (State.unlocked s x1).hk = s.hk ∧ (State.unlocked s x1).boot = s.boot ∧ (State.unlocked s x1).goodAt = s.goodAt ∧
    (State.unlocked s x1).pending = s.pending := by
  unfold State.unlocked
  simp

@[simp] theorem State.qualify_frame (s : State) (x1 : ℕ) (x2 : Bool) :
    (State.qualify s x1 x2).clk = s.clk ∧ (State.qualify s x1 x2).tofs = s.tofs ∧ (State.qualify s x1 x2).dev = s.dev ∧
    (State.qualify s x1 x2).seq = s.seq ∧ (State.qualify s x1 x2).edu = s.edu ∧ (State.qualify s x1 x2).rta = s.rta ∧
    (State.qualify s x1 x2).rpe = s.rpe ∧ (State.qualify s x1 x2).stu = s.stu ∧ (State.qualify s x1 x2).cap = s.cap ∧
    (State.qualify s x1 x2).fso = s.fso ∧ (State.qualify s x1 x2).cmp = s.cmp ∧ (State.qualify s x1 x2).mem = s.mem ∧
    (State.qualify s x1 x2).hk = s.hk ∧ (State.qualify s x1 x2).boot = s.boot ∧ (State.qualify s x1 x2).goodAt = s.goodAt ∧
    (State.qualify s x1 x2).free = s.free ∧ (State.qualify s x1 x2).pending = s.pending := by
  unfold State.qualify
  simp

@[simp] theorem State.timingWindow_frame (s : State) (x1 : ℕ) (x2 : Bool) (x3 : ℤ) :
    (State.timingWindow s x1 x2 x3).clk = s.clk ∧ (State.timingWindow s x1 x2 x3).dev = s.dev ∧
    (State.timingWindow s x1 x2 x3).seq = s.seq ∧ (State.timingWindow s x1 x2 x3).edu = s.edu ∧
    (State.timingWindow s x1 x2 x3).rta = s.rta ∧ (State.timingWindow s x1 x2 x3).rpe = s.rpe ∧
    (State.timingWindow s x1 x2 x3).stu = s.stu ∧ (State.timingWindow s x1 x2 x3).cap = s.cap ∧
    (State.timingWindow s x1 x2 x3).fso = s.fso ∧ (State.timingWindow s x1 x2 x3).cmp = s.cmp ∧
    (State.timingWindow s x1 x2 x3).mem = s.mem ∧ (State.timingWindow s x1 x2 x3).hk = s.hk ∧
    (State.timingWindow s x1 x2 x3).goodAt = s.goodAt ∧ (State.timingWindow s x1 x2 x3).pending = s.pending := by
  unfold State.timingWindow
  simp

@[simp] theorem State.systemWindow_frame (s : State) (x1 : ℕ) (x2 : Bool) :
    (State.systemWindow s x1 x2).clk = s.clk ∧ (State.systemWindow s x1 x2).tofs = s.tofs ∧
    (State.systemWindow s x1 x2).dev = s.dev ∧ (State.systemWindow s x1 x2).seq = s.seq ∧
    (State.systemWindow s x1 x2).edu = s.edu ∧ (State.systemWindow s x1 x2).rta = s.rta ∧
    (State.systemWindow s x1 x2).rpe = s.rpe ∧ (State.systemWindow s x1 x2).stu = s.stu ∧
    (State.systemWindow s x1 x2).cap = s.cap ∧ (State.systemWindow s x1 x2).fso = s.fso ∧
    (State.systemWindow s x1 x2).cmp = s.cmp ∧ (State.systemWindow s x1 x2).mem = s.mem ∧
    (State.systemWindow s x1 x2).hk = s.hk ∧ (State.systemWindow s x1 x2).goodAt = s.goodAt ∧
    (State.systemWindow s x1 x2).pending = s.pending := by
  unfold State.systemWindow
  simp

@[simp] theorem State.memRetrain_frame (s : State) :
    (State.memRetrain s).clk = s.clk ∧ (State.memRetrain s).tofs = s.tofs ∧ (State.memRetrain s).dev = s.dev ∧
    (State.memRetrain s).regs = s.regs ∧ (State.memRetrain s).mgmt = s.mgmt ∧ (State.memRetrain s).seq = s.seq ∧
    (State.memRetrain s).edu = s.edu ∧ (State.memRetrain s).rta = s.rta ∧ (State.memRetrain s).rpe = s.rpe ∧
    (State.memRetrain s).stu = s.stu ∧ (State.memRetrain s).saf = s.saf ∧ (State.memRetrain s).cap = s.cap ∧
    (State.memRetrain s).fso = s.fso ∧ (State.memRetrain s).cmp = s.cmp ∧ (State.memRetrain s).lnk = s.lnk ∧
    (State.memRetrain s).tbu = s.tbu ∧ (State.memRetrain s).hk = s.hk ∧ (State.memRetrain s).boot = s.boot ∧
    (State.memRetrain s).out = s.out ∧ (State.memRetrain s).goodAt = s.goodAt ∧ (State.memRetrain s).free = s.free ∧
    (State.memRetrain s).pending = s.pending := by
  unfold State.memRetrain
  simp

@[simp] theorem State.retuneStart_frame (s : State) :
    (State.retuneStart s).2.clk = s.clk ∧ (State.retuneStart s).2.tofs = s.tofs ∧ (State.retuneStart s).2.dev = s.dev ∧
    (State.retuneStart s).2.seq = s.seq ∧ (State.retuneStart s).2.edu = s.edu ∧ (State.retuneStart s).2.rta = s.rta ∧
    (State.retuneStart s).2.rpe = s.rpe ∧ (State.retuneStart s).2.stu = s.stu ∧ (State.retuneStart s).2.cap = s.cap ∧
    (State.retuneStart s).2.fso = s.fso ∧ (State.retuneStart s).2.cmp = s.cmp ∧ (State.retuneStart s).2.hk = s.hk ∧
    (State.retuneStart s).2.boot = s.boot ∧ (State.retuneStart s).2.goodAt = s.goodAt ∧
    (State.retuneStart s).2.pending = s.pending := by
  unfold State.retuneStart
  simp

@[simp] theorem State.retuneEnd_frame (s : State) :
    (State.retuneEnd s).clk = s.clk ∧ (State.retuneEnd s).tofs = s.tofs ∧ (State.retuneEnd s).dev = s.dev ∧
    (State.retuneEnd s).mgmt = s.mgmt ∧ (State.retuneEnd s).seq = s.seq ∧ (State.retuneEnd s).edu = s.edu ∧
    (State.retuneEnd s).rta = s.rta ∧ (State.retuneEnd s).rpe = s.rpe ∧ (State.retuneEnd s).stu = s.stu ∧
    (State.retuneEnd s).saf = s.saf ∧ (State.retuneEnd s).cap = s.cap ∧ (State.retuneEnd s).fso = s.fso ∧
    (State.retuneEnd s).cmp = s.cmp ∧ (State.retuneEnd s).hk = s.hk ∧ (State.retuneEnd s).boot = s.boot ∧
    (State.retuneEnd s).out = s.out ∧ (State.retuneEnd s).goodAt = s.goodAt ∧ (State.retuneEnd s).pending = s.pending := by
  unfold State.retuneEnd
  simp

@[simp] theorem State.writeTbu_frame (s : State) (x1 : State) (x2 : ℕ) (x3 : Word) :
    (x1.clk = s.clk → (State.writeTbu s x1 x2 x3).2.clk = s.clk) ∧
    (x1.tofs = s.tofs → (State.writeTbu s x1 x2 x3).2.tofs = s.tofs) ∧
    (x1.dev = s.dev → (State.writeTbu s x1 x2 x3).2.dev = s.dev) ∧
    (x1.mgmt = s.mgmt → (State.writeTbu s x1 x2 x3).2.mgmt = s.mgmt) ∧
    (x1.seq = s.seq → (State.writeTbu s x1 x2 x3).2.seq = s.seq) ∧
    (x1.edu = s.edu → (State.writeTbu s x1 x2 x3).2.edu = s.edu) ∧
    (x1.rta = s.rta → (State.writeTbu s x1 x2 x3).2.rta = s.rta) ∧
    (x1.rpe = s.rpe → (State.writeTbu s x1 x2 x3).2.rpe = s.rpe) ∧
    (x1.stu = s.stu → (State.writeTbu s x1 x2 x3).2.stu = s.stu) ∧
    (x1.saf = s.saf → (State.writeTbu s x1 x2 x3).2.saf = s.saf) ∧
    (x1.cap = s.cap → (State.writeTbu s x1 x2 x3).2.cap = s.cap) ∧
    (x1.fso = s.fso → (State.writeTbu s x1 x2 x3).2.fso = s.fso) ∧
    (x1.cmp = s.cmp → (State.writeTbu s x1 x2 x3).2.cmp = s.cmp) ∧
    (x1.mem = s.mem → (State.writeTbu s x1 x2 x3).2.mem = s.mem) ∧
    (x1.lnk = s.lnk → (State.writeTbu s x1 x2 x3).2.lnk = s.lnk) ∧
    (x1.hk = s.hk → (State.writeTbu s x1 x2 x3).2.hk = s.hk) ∧
    (x1.boot = s.boot → (State.writeTbu s x1 x2 x3).2.boot = s.boot) ∧
    (x1.out = s.out → (State.writeTbu s x1 x2 x3).2.out = s.out) ∧
    (x1.goodAt = s.goodAt → (State.writeTbu s x1 x2 x3).2.goodAt = s.goodAt) ∧
    (x1.free = s.free → (State.writeTbu s x1 x2 x3).2.free = s.free) ∧
    (x1.pending = s.pending → (State.writeTbu s x1 x2 x3).2.pending = s.pending) := by
  unfold State.writeTbu
  (repeat' (first | (split; rename_i heq; have h1 := congrArg Prod.fst heq; have h2 := congrArg Prod.snd heq; dsimp only at h1 h2; (try subst h1); (try subst h2)) | split)) <;> simp +contextual

@[simp] theorem State.slewOff_inv (s : State) (x1 : ℤ) (h : s.Inv) : (State.slewOff s x1).Inv := by
  unfold State.slewOff
  simp (maxDischargeDepth := 100) [h]

@[simp] theorem State.slewOn_inv (s : State) (x1 : ℕ) (h : s.Inv) : (State.slewOn s x1).Inv := by
  unfold State.slewOn
  simp (maxDischargeDepth := 100) [h]

@[simp] theorem State.noteErr_inv (s : State) (x1 : ℤ) (h : s.Inv) : (State.noteErr s x1).Inv := by
  unfold State.noteErr
  simp (maxDischargeDepth := 100) [h]

@[simp] theorem State.judgeErr_inv (s : State) (x1 : ℤ) (h : s.Inv) : (State.judgeErr s x1).Inv := by
  unfold State.judgeErr
  simp (maxDischargeDepth := 100) [h]

@[simp] theorem State.judgeNext_inv (s : State) (h : s.Inv) : (State.judgeNext s).Inv := by
  unfold State.judgeNext
  (repeat' (first | (split; rename_i heq; have h1 := congrArg Prod.fst heq; have h2 := congrArg Prod.snd heq; dsimp only at h1 h2; (try subst h1); (try subst h2)) | split)) <;> simp +contextual (maxDischargeDepth := 100) [h]

@[simp] theorem State.timeLoop_inv (s : State) (x1 : ℤ) (h : s.Inv) : (State.timeLoop s x1).Inv := by
  unfold State.timeLoop
  simp (maxDischargeDepth := 100) [h]

@[simp] theorem State.stepTime_inv (s : State) (x1 : ℤ) : (State.stepTime s x1).Inv ↔ s.Inv := inv_of_parts (by simp) (by simp)

@[simp] theorem State.setTime_inv (s : State) (x1 : ℤ) (h : s.Inv) : (State.setTime s x1).Inv := by
  unfold State.setTime
  simp (maxDischargeDepth := 100) [h]

@[simp] theorem State.applySnap_inv (s : State) (x1 : Snap) (h : s.Inv) : (State.applySnap s x1).Inv := by
  unfold State.applySnap
  simp (maxDischargeDepth := 100) [h]

@[simp] theorem State.applyClocks_inv (s : State) (h : s.Inv) : (State.applyClocks s).Inv := by
  unfold State.applyClocks
  simp +contextual (maxDischargeDepth := 100) [h]

@[simp] theorem State.freeze_inv (s : State) : (State.freeze s).Inv ↔ s.Inv := inv_of_parts (by simp) (by simp)

@[simp] theorem State.thaw_inv (s : State) (h : s.Inv) : (State.thaw s).Inv := by
  unfold State.thaw
  simp (maxDischargeDepth := 100) [h]

@[simp] theorem State.refLost_inv (s : State) (h : s.Inv) : (State.refLost s).Inv := by
  unfold State.refLost
  simp (maxDischargeDepth := 100) [h]

@[simp] theorem State.bootStep_inv (s : State) (x1 : ℕ) (h : s.Inv) : (State.bootStep s x1).Inv := by
  unfold State.bootStep
  simp (maxDischargeDepth := 100) [h]

@[simp] theorem State.afterLock_inv (s : State) (h : s.Inv) : (State.afterLock s).Inv := by
  unfold State.afterLock
  simp (maxDischargeDepth := 100) [h]

@[simp] theorem State.timingLocked_inv (s : State) (h : s.Inv) : (State.timingLocked s).Inv := by
  unfold State.timingLocked
  simp (maxDischargeDepth := 100) [h]

@[simp] theorem State.unlocked_inv (s : State) (x1 : ℕ) (h : s.Inv) : (State.unlocked s x1).Inv := by
  unfold State.unlocked
  simp +contextual (maxDischargeDepth := 100) [h]

@[simp] theorem State.qualify_inv (s : State) (x1 : ℕ) (x2 : Bool) (h : s.Inv) : (State.qualify s x1 x2).Inv := by
  unfold State.qualify
  simp (maxDischargeDepth := 100) [h]

@[simp] theorem State.timingWindow_inv (s : State) (x1 : ℕ) (x2 : Bool) (x3 : ℤ) (h : s.Inv) : (State.timingWindow s x1 x2 x3).Inv := by
  unfold State.timingWindow
  simp (maxDischargeDepth := 100) [h]

@[simp] theorem State.systemWindow_inv (s : State) (x1 : ℕ) (x2 : Bool) (h : s.Inv) : (State.systemWindow s x1 x2).Inv := by
  unfold State.systemWindow
  simp (maxDischargeDepth := 100) [h]

@[simp] theorem State.memRetrain_inv (s : State) : (State.memRetrain s).Inv ↔ s.Inv := inv_of_parts (by simp) (by simp)

@[simp] theorem State.retuneStart_inv (s : State) (h : s.Inv) : (State.retuneStart s).2.Inv := by
  unfold State.retuneStart
  simp (maxDischargeDepth := 100) [h]

@[simp] theorem State.retuneEnd_inv (s : State) (h : s.Inv) : (State.retuneEnd s).Inv := by
  unfold State.retuneEnd
  simp (maxDischargeDepth := 100) [h]

@[simp] theorem State.writeTbu_inv (s : State) (x1 : State) (x2 : ℕ) (x3 : Word) (h : s.Inv) (hx1 : x1.Inv) : (State.writeTbu s x1 x2 x3).2.Inv := by
  unfold State.writeTbu
  simp (maxDischargeDepth := 100) [h, hx1]

/-! ### Chain -/

@[simp] theorem State.rxChain_frame (s : State) (x1 : ChainHdr) :
    (State.rxChain s x1).2.clk = s.clk ∧ (State.rxChain s x1).2.tofs = s.tofs ∧ (State.rxChain s x1).2.dev = s.dev ∧
    (State.rxChain s x1).2.mgmt = s.mgmt ∧ (State.rxChain s x1).2.seq = s.seq ∧ (State.rxChain s x1).2.edu = s.edu ∧
    (State.rxChain s x1).2.rta = s.rta ∧ (State.rxChain s x1).2.rpe = s.rpe ∧ (State.rxChain s x1).2.stu = s.stu ∧
    (State.rxChain s x1).2.saf = s.saf ∧ (State.rxChain s x1).2.cap = s.cap ∧ (State.rxChain s x1).2.fso = s.fso ∧
    (State.rxChain s x1).2.cmp = s.cmp ∧ (State.rxChain s x1).2.mem = s.mem ∧ (State.rxChain s x1).2.tbu = s.tbu ∧
    (State.rxChain s x1).2.hk = s.hk ∧ (State.rxChain s x1).2.boot = s.boot ∧ (State.rxChain s x1).2.out = s.out ∧
    (State.rxChain s x1).2.goodAt = s.goodAt ∧ (State.rxChain s x1).2.free = s.free ∧
    (State.rxChain s x1).2.pending = s.pending := by
  unfold State.rxChain
  simp

@[simp] theorem State.compareSlots_frame (s : State) :
    (State.compareSlots s).clk = s.clk ∧ (State.compareSlots s).tofs = s.tofs ∧ (State.compareSlots s).dev = s.dev ∧
    (State.compareSlots s).seq = s.seq ∧ (State.compareSlots s).edu = s.edu ∧ (State.compareSlots s).rta = s.rta ∧
    (State.compareSlots s).rpe = s.rpe ∧ (State.compareSlots s).stu = s.stu ∧ (State.compareSlots s).cap = s.cap ∧
    (State.compareSlots s).fso = s.fso ∧ (State.compareSlots s).cmp = s.cmp ∧ (State.compareSlots s).mem = s.mem ∧
    (State.compareSlots s).tbu = s.tbu ∧ (State.compareSlots s).hk = s.hk ∧ (State.compareSlots s).boot = s.boot ∧
    (State.compareSlots s).goodAt = s.goodAt ∧ (State.compareSlots s).free = s.free ∧
    (State.compareSlots s).pending = s.pending := by
  unfold State.compareSlots
  simp

@[simp] theorem State.compareDove_frame (s : State) :
    (State.compareDove s).clk = s.clk ∧ (State.compareDove s).tofs = s.tofs ∧ (State.compareDove s).dev = s.dev ∧
    (State.compareDove s).regs = s.regs ∧ (State.compareDove s).mgmt = s.mgmt ∧ (State.compareDove s).seq = s.seq ∧
    (State.compareDove s).edu = s.edu ∧ (State.compareDove s).rta = s.rta ∧ (State.compareDove s).rpe = s.rpe ∧
    (State.compareDove s).stu = s.stu ∧ (State.compareDove s).saf = s.saf ∧ (State.compareDove s).cap = s.cap ∧
    (State.compareDove s).fso = s.fso ∧ (State.compareDove s).cmp = s.cmp ∧ (State.compareDove s).mem = s.mem ∧
    (State.compareDove s).tbu = s.tbu ∧ (State.compareDove s).hk = s.hk ∧ (State.compareDove s).boot = s.boot ∧
    (State.compareDove s).out = s.out ∧ (State.compareDove s).goodAt = s.goodAt ∧ (State.compareDove s).free = s.free ∧
    (State.compareDove s).pending = s.pending := by
  unfold State.compareDove
  simp

@[simp] theorem State.compare_frame (s : State) :
    (State.compare s).clk = s.clk ∧ (State.compare s).tofs = s.tofs ∧ (State.compare s).dev = s.dev ∧
    (State.compare s).seq = s.seq ∧ (State.compare s).edu = s.edu ∧ (State.compare s).rta = s.rta ∧
    (State.compare s).rpe = s.rpe ∧ (State.compare s).stu = s.stu ∧ (State.compare s).cap = s.cap ∧
    (State.compare s).fso = s.fso ∧ (State.compare s).cmp = s.cmp ∧ (State.compare s).mem = s.mem ∧
    (State.compare s).tbu = s.tbu ∧ (State.compare s).hk = s.hk ∧ (State.compare s).boot = s.boot ∧
    (State.compare s).goodAt = s.goodAt ∧ (State.compare s).free = s.free ∧ (State.compare s).pending = s.pending := by
  unfold State.compare
  simp

@[simp] theorem State.takeChainTime_frame (s : State) (x1 : ℤ) :
    (State.takeChainTime s x1).clk = s.clk ∧ (State.takeChainTime s x1).dev = s.dev ∧
    (State.takeChainTime s x1).mgmt = s.mgmt ∧ (State.takeChainTime s x1).edu = s.edu ∧
    (State.takeChainTime s x1).rta = s.rta ∧ (State.takeChainTime s x1).rpe = s.rpe ∧
    (State.takeChainTime s x1).cmp = s.cmp ∧ (State.takeChainTime s x1).mem = s.mem ∧ (State.takeChainTime s x1).hk = s.hk ∧
    (State.takeChainTime s x1).boot = s.boot ∧ (State.takeChainTime s x1).out = s.out ∧
    (State.takeChainTime s x1).goodAt = s.goodAt ∧ (State.takeChainTime s x1).free = s.free ∧
    (State.takeChainTime s x1).pending = s.pending := by
  unfold State.takeChainTime
  simp

@[simp] theorem State.join_frame (s : State) (x1 : ℕ) :
    (State.join s x1).clk = s.clk ∧ (State.join s x1).dev = s.dev ∧ (State.join s x1).edu = s.edu ∧
    (State.join s x1).rta = s.rta ∧ (State.join s x1).rpe = s.rpe ∧ (State.join s x1).cmp = s.cmp ∧
    (State.join s x1).mem = s.mem ∧ (State.join s x1).hk = s.hk ∧ (State.join s x1).boot = s.boot ∧
    (State.join s x1).goodAt = s.goodAt ∧ (State.join s x1).free = s.free ∧ (State.join s x1).pending = s.pending := by
  unfold State.join
  dsimp only
  (repeat' (first | (split; rename_i heq; have h1 := congrArg Prod.fst heq; have h2 := congrArg Prod.snd heq; dsimp only at h1 h2; (try subst h1); (try subst h2)) | split)) <;> simp

@[simp] theorem State.setOuts_frame (s : State) :
    (State.setOuts s).clk = s.clk ∧ (State.setOuts s).tofs = s.tofs ∧ (State.setOuts s).dev = s.dev ∧
    (State.setOuts s).regs = s.regs ∧ (State.setOuts s).mgmt = s.mgmt ∧ (State.setOuts s).seq = s.seq ∧
    (State.setOuts s).edu = s.edu ∧ (State.setOuts s).rta = s.rta ∧ (State.setOuts s).rpe = s.rpe ∧
    (State.setOuts s).stu = s.stu ∧ (State.setOuts s).saf = s.saf ∧ (State.setOuts s).cap = s.cap ∧
    (State.setOuts s).fso = s.fso ∧ (State.setOuts s).cmp = s.cmp ∧ (State.setOuts s).mem = s.mem ∧
    (State.setOuts s).tbu = s.tbu ∧ (State.setOuts s).hk = s.hk ∧ (State.setOuts s).boot = s.boot ∧
    (State.setOuts s).out = s.out ∧ (State.setOuts s).goodAt = s.goodAt ∧ (State.setOuts s).free = s.free ∧
    (State.setOuts s).pending = s.pending := by
  unfold State.setOuts
  simp

@[simp] theorem State.applyEdge_frame (s : State) (x1 : BusEdge) :
    (State.applyEdge s x1).clk = s.clk ∧ (State.applyEdge s x1).tofs = s.tofs ∧ (State.applyEdge s x1).dev = s.dev ∧
    (State.applyEdge s x1).mgmt = s.mgmt ∧ (State.applyEdge s x1).edu = s.edu ∧ (State.applyEdge s x1).rta = s.rta ∧
    (State.applyEdge s x1).rpe = s.rpe ∧ (State.applyEdge s x1).stu = s.stu ∧ (State.applyEdge s x1).saf = s.saf ∧
    (State.applyEdge s x1).fso = s.fso ∧ (State.applyEdge s x1).cmp = s.cmp ∧ (State.applyEdge s x1).mem = s.mem ∧
    (State.applyEdge s x1).tbu = s.tbu ∧ (State.applyEdge s x1).hk = s.hk ∧ (State.applyEdge s x1).boot = s.boot ∧
    (State.applyEdge s x1).out = s.out ∧ (State.applyEdge s x1).goodAt = s.goodAt ∧ (State.applyEdge s x1).free = s.free ∧
    (State.applyEdge s x1).pending = s.pending := by
  unfold State.applyEdge
  simp

@[simp] theorem State.takeEdge_frame (s : State) (x1 : ℕ) (x2 : Bool) (x3 : ℕ) (x4 : ℕ) :
    (State.takeEdge s x1 x2 x3 x4).clk = s.clk ∧ (State.takeEdge s x1 x2 x3 x4).tofs = s.tofs ∧
    (State.takeEdge s x1 x2 x3 x4).dev = s.dev ∧ (State.takeEdge s x1 x2 x3 x4).edu = s.edu ∧
    (State.takeEdge s x1 x2 x3 x4).rta = s.rta ∧ (State.takeEdge s x1 x2 x3 x4).rpe = s.rpe ∧
    (State.takeEdge s x1 x2 x3 x4).stu = s.stu ∧ (State.takeEdge s x1 x2 x3 x4).fso = s.fso ∧
    (State.takeEdge s x1 x2 x3 x4).cmp = s.cmp ∧ (State.takeEdge s x1 x2 x3 x4).mem = s.mem ∧
    (State.takeEdge s x1 x2 x3 x4).tbu = s.tbu ∧ (State.takeEdge s x1 x2 x3 x4).hk = s.hk ∧
    (State.takeEdge s x1 x2 x3 x4).boot = s.boot ∧ (State.takeEdge s x1 x2 x3 x4).goodAt = s.goodAt ∧
    (State.takeEdge s x1 x2 x3 x4).free = s.free ∧ (State.takeEdge s x1 x2 x3 x4).pending = s.pending := by
  unfold State.takeEdge
  simp

@[simp] theorem State.driveLine_frame (s : State) (x1 : ℕ) (x2 : Bool) (x3 : ℕ) (x4 : ℕ) :
    (State.driveLine s x1 x2 x3 x4).clk = s.clk ∧ (State.driveLine s x1 x2 x3 x4).tofs = s.tofs ∧
    (State.driveLine s x1 x2 x3 x4).dev = s.dev ∧ (State.driveLine s x1 x2 x3 x4).edu = s.edu ∧
    (State.driveLine s x1 x2 x3 x4).rta = s.rta ∧ (State.driveLine s x1 x2 x3 x4).rpe = s.rpe ∧
    (State.driveLine s x1 x2 x3 x4).stu = s.stu ∧ (State.driveLine s x1 x2 x3 x4).fso = s.fso ∧
    (State.driveLine s x1 x2 x3 x4).cmp = s.cmp ∧ (State.driveLine s x1 x2 x3 x4).mem = s.mem ∧
    (State.driveLine s x1 x2 x3 x4).tbu = s.tbu ∧ (State.driveLine s x1 x2 x3 x4).hk = s.hk ∧
    (State.driveLine s x1 x2 x3 x4).boot = s.boot ∧ (State.driveLine s x1 x2 x3 x4).goodAt = s.goodAt ∧
    (State.driveLine s x1 x2 x3 x4).free = s.free ∧ (State.driveLine s x1 x2 x3 x4).pending = s.pending := by
  unfold State.driveLine
  simp

@[simp] theorem State.driveIf_frame (s : State) (x1 : ℕ) (x2 : Bool) (x3 : ℕ) (x4 : ℕ) (x5 : ℕ) :
    (State.driveIf s x1 x2 x3 x4 x5).clk = s.clk ∧ (State.driveIf s x1 x2 x3 x4 x5).tofs = s.tofs ∧
    (State.driveIf s x1 x2 x3 x4 x5).dev = s.dev ∧ (State.driveIf s x1 x2 x3 x4 x5).edu = s.edu ∧
    (State.driveIf s x1 x2 x3 x4 x5).rta = s.rta ∧ (State.driveIf s x1 x2 x3 x4 x5).rpe = s.rpe ∧
    (State.driveIf s x1 x2 x3 x4 x5).stu = s.stu ∧ (State.driveIf s x1 x2 x3 x4 x5).fso = s.fso ∧
    (State.driveIf s x1 x2 x3 x4 x5).cmp = s.cmp ∧ (State.driveIf s x1 x2 x3 x4 x5).mem = s.mem ∧
    (State.driveIf s x1 x2 x3 x4 x5).tbu = s.tbu ∧ (State.driveIf s x1 x2 x3 x4 x5).hk = s.hk ∧
    (State.driveIf s x1 x2 x3 x4 x5).boot = s.boot ∧ (State.driveIf s x1 x2 x3 x4 x5).goodAt = s.goodAt ∧
    (State.driveIf s x1 x2 x3 x4 x5).free = s.free ∧ (State.driveIf s x1 x2 x3 x4 x5).pending = s.pending := by
  unfold State.driveIf
  simp

@[simp] theorem State.driveFrom_frame (s : State) (x1 : ℕ) (x2 : Bool) (x3 : ℕ) (x4 : ℕ) :
    (State.driveFrom s x1 x2 x3 x4).clk = s.clk ∧ (State.driveFrom s x1 x2 x3 x4).tofs = s.tofs ∧
    (State.driveFrom s x1 x2 x3 x4).dev = s.dev ∧ (State.driveFrom s x1 x2 x3 x4).edu = s.edu ∧
    (State.driveFrom s x1 x2 x3 x4).rta = s.rta ∧ (State.driveFrom s x1 x2 x3 x4).rpe = s.rpe ∧
    (State.driveFrom s x1 x2 x3 x4).stu = s.stu ∧ (State.driveFrom s x1 x2 x3 x4).fso = s.fso ∧
    (State.driveFrom s x1 x2 x3 x4).cmp = s.cmp ∧ (State.driveFrom s x1 x2 x3 x4).mem = s.mem ∧
    (State.driveFrom s x1 x2 x3 x4).tbu = s.tbu ∧ (State.driveFrom s x1 x2 x3 x4).hk = s.hk ∧
    (State.driveFrom s x1 x2 x3 x4).boot = s.boot ∧ (State.driveFrom s x1 x2 x3 x4).goodAt = s.goodAt ∧
    (State.driveFrom s x1 x2 x3 x4).free = s.free ∧ (State.driveFrom s x1 x2 x3 x4).pending = s.pending := by
  unfold State.driveFrom
  simp

@[simp] theorem State.hostLines_frame (s : State) (x1 : Word) (x2 : Bool) :
    (State.hostLines s x1 x2).2.clk = s.clk ∧ (State.hostLines s x1 x2).2.tofs = s.tofs ∧
    (State.hostLines s x1 x2).2.dev = s.dev ∧ (State.hostLines s x1 x2).2.edu = s.edu ∧
    (State.hostLines s x1 x2).2.rta = s.rta ∧ (State.hostLines s x1 x2).2.rpe = s.rpe ∧
    (State.hostLines s x1 x2).2.stu = s.stu ∧ (State.hostLines s x1 x2).2.fso = s.fso ∧
    (State.hostLines s x1 x2).2.cmp = s.cmp ∧ (State.hostLines s x1 x2).2.mem = s.mem ∧
    (State.hostLines s x1 x2).2.tbu = s.tbu ∧ (State.hostLines s x1 x2).2.hk = s.hk ∧
    (State.hostLines s x1 x2).2.boot = s.boot ∧ (State.hostLines s x1 x2).2.goodAt = s.goodAt ∧
    (State.hostLines s x1 x2).2.free = s.free ∧ (State.hostLines s x1 x2).2.pending = s.pending := by
  unfold State.hostLines
  simp

@[simp] theorem State.trigFreq_frame (s : State) (x1 : ℕ) (x2 : ℕ) (x3 : Bool) :
    (State.trigFreq s x1 x2 x3).clk = s.clk ∧ (State.trigFreq s x1 x2 x3).tofs = s.tofs ∧
    (State.trigFreq s x1 x2 x3).dev = s.dev ∧ (State.trigFreq s x1 x2 x3).regs = s.regs ∧
    (State.trigFreq s x1 x2 x3).mgmt = s.mgmt ∧ (State.trigFreq s x1 x2 x3).seq = s.seq ∧
    (State.trigFreq s x1 x2 x3).edu = s.edu ∧ (State.trigFreq s x1 x2 x3).rpe = s.rpe ∧
    (State.trigFreq s x1 x2 x3).stu = s.stu ∧ (State.trigFreq s x1 x2 x3).saf = s.saf ∧
    (State.trigFreq s x1 x2 x3).cap = s.cap ∧ (State.trigFreq s x1 x2 x3).fso = s.fso ∧
    (State.trigFreq s x1 x2 x3).cmp = s.cmp ∧ (State.trigFreq s x1 x2 x3).mem = s.mem ∧
    (State.trigFreq s x1 x2 x3).lnk = s.lnk ∧ (State.trigFreq s x1 x2 x3).tbu = s.tbu ∧
    (State.trigFreq s x1 x2 x3).hk = s.hk ∧ (State.trigFreq s x1 x2 x3).boot = s.boot ∧
    (State.trigFreq s x1 x2 x3).out = s.out ∧ (State.trigFreq s x1 x2 x3).goodAt = s.goodAt ∧
    (State.trigFreq s x1 x2 x3).free = s.free ∧ (State.trigFreq s x1 x2 x3).pending = s.pending := by
  unfold State.trigFreq
  simp

@[simp] theorem State.rxChain_inv (s : State) (x1 : ChainHdr) (h : s.Inv) : (State.rxChain s x1).2.Inv := by
  unfold State.rxChain
  simp (maxDischargeDepth := 100) [h]

@[simp] theorem State.compareSlots_inv (s : State) (h : s.Inv) : (State.compareSlots s).Inv := by
  unfold State.compareSlots
  simp (maxDischargeDepth := 100) [h]

@[simp] theorem State.compareDove_inv (s : State) : (State.compareDove s).Inv ↔ s.Inv := inv_of_parts (by simp) (by simp)

@[simp] theorem State.compare_inv (s : State) (h : s.Inv) : (State.compare s).Inv := by
  unfold State.compare
  simp (maxDischargeDepth := 100) [h]

@[simp] theorem State.takeChainTime_inv (s : State) (x1 : ℤ) (h : s.Inv) : (State.takeChainTime s x1).Inv := by
  unfold State.takeChainTime
  simp (maxDischargeDepth := 100) [h]

@[simp] theorem State.join_inv (s : State) (x1 : ℕ) (h : s.Inv) : (State.join s x1).Inv := by
  unfold State.join
  dsimp only
  (repeat' (first | (split; rename_i heq; have h1 := congrArg Prod.fst heq; have h2 := congrArg Prod.snd heq; dsimp only at h1 h2; (try subst h1); (try subst h2)) | split)) <;> simp +contextual (maxDischargeDepth := 100) [h]

@[simp] theorem State.setOuts_inv (s : State) : (State.setOuts s).Inv ↔ s.Inv := inv_of_parts (by simp) (by simp)

@[simp] theorem State.applyEdge_inv (s : State) (x1 : BusEdge) (h : s.Inv) : (State.applyEdge s x1).Inv := by
  unfold State.applyEdge
  simp (maxDischargeDepth := 100) [h]

@[simp] theorem State.takeEdge_inv (s : State) (x1 : ℕ) (x2 : Bool) (x3 : ℕ) (x4 : ℕ) (h : s.Inv) : (State.takeEdge s x1 x2 x3 x4).Inv := by
  unfold State.takeEdge
  simp (maxDischargeDepth := 100) [h]

@[simp] theorem State.driveLine_inv (s : State) (x1 : ℕ) (x2 : Bool) (x3 : ℕ) (x4 : ℕ) (h : s.Inv) : (State.driveLine s x1 x2 x3 x4).Inv := by
  unfold State.driveLine
  simp (maxDischargeDepth := 100) [h]

@[simp] theorem State.driveIf_inv (s : State) (x1 : ℕ) (x2 : Bool) (x3 : ℕ) (x4 : ℕ) (x5 : ℕ) (h : s.Inv) : (State.driveIf s x1 x2 x3 x4 x5).Inv := by
  unfold State.driveIf
  simp (maxDischargeDepth := 100) [h]

@[simp] theorem State.driveFrom_inv (s : State) (x1 : ℕ) (x2 : Bool) (x3 : ℕ) (x4 : ℕ) (h : s.Inv) : (State.driveFrom s x1 x2 x3 x4).Inv := by
  unfold State.driveFrom
  simp +contextual (maxDischargeDepth := 100) [h]

@[simp] theorem State.hostLines_inv (s : State) (x1 : Word) (x2 : Bool) (h : s.Inv) : (State.hostLines s x1 x2).2.Inv := by
  unfold State.hostLines
  simp +contextual (maxDischargeDepth := 100) [h]

@[simp] theorem State.trigFreq_inv (s : State) (x1 : ℕ) (x2 : ℕ) (x3 : Bool) : (State.trigFreq s x1 x2 x3).Inv ↔ s.Inv := inv_of_parts (by simp) (by simp)

/-! ### Net -/

@[simp] theorem State.modPtp_frame (s : State) (x1 : Ptp → Ptp) :
    (State.modPtp s x1).clk = s.clk ∧ (State.modPtp s x1).tofs = s.tofs ∧ (State.modPtp s x1).dev = s.dev ∧
    (State.modPtp s x1).regs = s.regs ∧ (State.modPtp s x1).mgmt = s.mgmt ∧ (State.modPtp s x1).seq = s.seq ∧
    (State.modPtp s x1).edu = s.edu ∧ (State.modPtp s x1).rta = s.rta ∧ (State.modPtp s x1).rpe = s.rpe ∧
    (State.modPtp s x1).stu = s.stu ∧ (State.modPtp s x1).saf = s.saf ∧ (State.modPtp s x1).cap = s.cap ∧
    (State.modPtp s x1).fso = s.fso ∧ (State.modPtp s x1).cmp = s.cmp ∧ (State.modPtp s x1).mem = s.mem ∧
    (State.modPtp s x1).tbu = s.tbu ∧ (State.modPtp s x1).hk = s.hk ∧ (State.modPtp s x1).boot = s.boot ∧
    (State.modPtp s x1).out = s.out ∧ (State.modPtp s x1).goodAt = s.goodAt ∧ (State.modPtp s x1).free = s.free ∧
    (State.modPtp s x1).pending = s.pending := by
  unfold State.modPtp
  simp

@[simp] theorem State.ptpError_frame (s : State) (x1 : ℤ) :
    (State.ptpError s x1).clk = s.clk ∧ (State.ptpError s x1).dev = s.dev ∧ (State.ptpError s x1).mgmt = s.mgmt ∧
    (State.ptpError s x1).edu = s.edu ∧ (State.ptpError s x1).rta = s.rta ∧ (State.ptpError s x1).rpe = s.rpe ∧
    (State.ptpError s x1).cmp = s.cmp ∧ (State.ptpError s x1).mem = s.mem ∧ (State.ptpError s x1).hk = s.hk ∧
    (State.ptpError s x1).boot = s.boot ∧ (State.ptpError s x1).out = s.out ∧ (State.ptpError s x1).goodAt = s.goodAt ∧
    (State.ptpError s x1).pending = s.pending := by
  unfold State.ptpError
  simp

@[simp] theorem State.modPtp_inv (s : State) (x1 : Ptp → Ptp) : (State.modPtp s x1).Inv ↔ s.Inv := inv_of_parts (by simp) (by simp)

@[simp] theorem State.ptpError_inv (s : State) (x1 : ℤ) (h : s.Inv) : (State.ptpError s x1).Inv := by
  unfold State.ptpError
  simp (maxDischargeDepth := 100) [h]

end Sys2Proof.Machine
end

