-- ==== Sys2Proof/Laws/Device.lean ====
section
/-! SUPPORT. Reset, boot, calibration, housekeeping and the management port: for every operation on the state, the parts that it leaves unchanged (`_frame`) and that it keeps the form of
every state (`_inv`). A lemma of an operation that chooses between two states has a premise for the second. -/

namespace Sys2Proof.Machine

/-! ### Reset -/

@[simp] theorem State.abortOp_frame (s : State) :
    (State.abortOp s).clk = s.clk ∧ (State.abortOp s).tofs = s.tofs ∧ (State.abortOp s).dev = s.dev ∧
    (State.abortOp s).edu = s.edu ∧ (State.abortOp s).rta = s.rta ∧ (State.abortOp s).rpe = s.rpe ∧
    (State.abortOp s).stu = s.stu ∧ (State.abortOp s).saf = s.saf ∧ (State.abortOp s).cap = s.cap ∧
    (State.abortOp s).fso = s.fso ∧ (State.abortOp s).cmp = s.cmp ∧ (State.abortOp s).mem = s.mem ∧
    (State.abortOp s).lnk = s.lnk ∧ (State.abortOp s).hk = s.hk ∧ (State.abortOp s).boot = s.boot ∧
    (State.abortOp s).out = s.out ∧ (State.abortOp s).goodAt = s.goodAt ∧ (State.abortOp s).free = s.free ∧
    (State.abortOp s).pending = s.pending := by
  unfold State.abortOp
  (repeat' (first | (split; rename_i heq; have h1 := congrArg Prod.fst heq; have h2 := congrArg Prod.snd heq; dsimp only at h1 h2; (try subst h1); (try subst h2)) | split)) <;> simp

@[simp] theorem State.bootFail_frame (s : State) (x1 : ℕ) :
    (State.bootFail s x1).clk = s.clk ∧ (State.bootFail s x1).tofs = s.tofs ∧ (State.bootFail s x1).dev = s.dev ∧
    (State.bootFail s x1).seq = s.seq ∧ (State.bootFail s x1).edu = s.edu ∧ (State.bootFail s x1).rta = s.rta ∧
    (State.bootFail s x1).rpe = s.rpe ∧ (State.bootFail s x1).stu = s.stu ∧ (State.bootFail s x1).fso = s.fso ∧
    (State.bootFail s x1).cmp = s.cmp ∧ (State.bootFail s x1).mem = s.mem ∧ (State.bootFail s x1).hk = s.hk ∧
    (State.bootFail s x1).goodAt = s.goodAt ∧ (State.bootFail s x1).pending = s.pending := by
  unfold State.bootFail
  simp

@[simp] theorem State.abortOp_inv (s : State) (h : s.Inv) : (State.abortOp s).Inv := by
  unfold State.abortOp
  (repeat' (first | (split; rename_i heq; have h1 := congrArg Prod.fst heq; have h2 := congrArg Prod.snd heq; dsimp only at h1 h2; (try subst h1); (try subst h2)) | split)) <;> simp +contextual (maxDischargeDepth := 100) [h]

@[simp] theorem State.bootFail_inv (s : State) (x1 : ℕ) (h : s.Inv) : (State.bootFail s x1).Inv := by
  unfold State.bootFail
  simp (maxDischargeDepth := 100) [h]

theorem State.reset_inv : State.reset.Inv := by
  refine ⟨?_, ?_, ?_⟩ <;> decide

/-- RESET keeps the instant, the queue, the free values drawn and when the device was last held in reset. -/
@[simp] theorem State.resetTo_frame (s : State) (w : Word) : (s.resetTo w).clk = s.clk ∧ (s.resetTo w).pending = s.pending ∧
    (s.resetTo w).free = s.free ∧ (s.resetTo w).goodAt = s.goodAt := by
  simp [State.resetTo]

@[simp] theorem State.resetTo_inv (s : State) (w : Word) : (s.resetTo w).Inv := by
  unfold State.resetTo
  exact State.setWord_inv _ _ _ State.reset_inv

/-! ### Verify -/

@[simp] theorem State.loadWord_frame (s : State) (x1 : ℕ) (x2 : Word) :
    (State.loadWord s x1 x2).clk = s.clk ∧ (State.loadWord s x1 x2).tofs = s.tofs ∧ (State.loadWord s x1 x2).dev = s.dev ∧
    (State.loadWord s x1 x2).mgmt = s.mgmt ∧ (State.loadWord s x1 x2).seq = s.seq ∧ (State.loadWord s x1 x2).edu = s.edu ∧
    (State.loadWord s x1 x2).rta = s.rta ∧ (State.loadWord s x1 x2).rpe = s.rpe ∧ (State.loadWord s x1 x2).stu = s.stu ∧
    (State.loadWord s x1 x2).saf = s.saf ∧ (State.loadWord s x1 x2).cap = s.cap ∧ (State.loadWord s x1 x2).fso = s.fso ∧
    (State.loadWord s x1 x2).cmp = s.cmp ∧ (State.loadWord s x1 x2).mem = s.mem ∧ (State.loadWord s x1 x2).lnk = s.lnk ∧
    (State.loadWord s x1 x2).tbu = s.tbu ∧ (State.loadWord s x1 x2).hk = s.hk ∧ (State.loadWord s x1 x2).boot = s.boot ∧
    (State.loadWord s x1 x2).out = s.out ∧ (State.loadWord s x1 x2).goodAt = s.goodAt ∧
    (State.loadWord s x1 x2).free = s.free ∧ (State.loadWord s x1 x2).pending = s.pending := by
  unfold State.loadWord
  simp

@[simp] theorem State.loadImage_frame (s : State) (x1 : Image) :
    (State.loadImage s x1).clk = s.clk ∧ (State.loadImage s x1).tofs = s.tofs ∧ (State.loadImage s x1).dev = s.dev ∧
    (State.loadImage s x1).mgmt = s.mgmt ∧ (State.loadImage s x1).seq = s.seq ∧ (State.loadImage s x1).edu = s.edu ∧
    (State.loadImage s x1).rta = s.rta ∧ (State.loadImage s x1).rpe = s.rpe ∧ (State.loadImage s x1).stu = s.stu ∧
    (State.loadImage s x1).saf = s.saf ∧ (State.loadImage s x1).cap = s.cap ∧ (State.loadImage s x1).fso = s.fso ∧
    (State.loadImage s x1).cmp = s.cmp ∧ (State.loadImage s x1).mem = s.mem ∧ (State.loadImage s x1).lnk = s.lnk ∧
    (State.loadImage s x1).tbu = s.tbu ∧ (State.loadImage s x1).hk = s.hk ∧ (State.loadImage s x1).boot = s.boot ∧
    (State.loadImage s x1).out = s.out ∧ (State.loadImage s x1).goodAt = s.goodAt ∧ (State.loadImage s x1).free = s.free ∧
    (State.loadImage s x1).pending = s.pending := by
  unfold State.loadImage
  simp

@[simp] theorem State.fuse_frame (s : State) (x1 : Image) :
    (State.fuse s x1).clk = s.clk ∧ (State.fuse s x1).tofs = s.tofs ∧ (State.fuse s x1).dev = s.dev ∧
    (State.fuse s x1).mgmt = s.mgmt ∧ (State.fuse s x1).seq = s.seq ∧ (State.fuse s x1).edu = s.edu ∧
    (State.fuse s x1).rta = s.rta ∧ (State.fuse s x1).rpe = s.rpe ∧ (State.fuse s x1).stu = s.stu ∧
    (State.fuse s x1).saf = s.saf ∧ (State.fuse s x1).cap = s.cap ∧ (State.fuse s x1).fso = s.fso ∧
    (State.fuse s x1).cmp = s.cmp ∧ (State.fuse s x1).mem = s.mem ∧ (State.fuse s x1).lnk = s.lnk ∧
    (State.fuse s x1).tbu = s.tbu ∧ (State.fuse s x1).hk = s.hk ∧ (State.fuse s x1).out = s.out ∧
    (State.fuse s x1).goodAt = s.goodAt ∧ (State.fuse s x1).free = s.free ∧ (State.fuse s x1).pending = s.pending := by
  unfold State.fuse
  simp

@[simp] theorem State.noteKey_frame (s : State) :
    (State.noteKey s).clk = s.clk ∧ (State.noteKey s).tofs = s.tofs ∧ (State.noteKey s).dev = s.dev ∧
    (State.noteKey s).mgmt = s.mgmt ∧ (State.noteKey s).seq = s.seq ∧ (State.noteKey s).edu = s.edu ∧
    (State.noteKey s).rta = s.rta ∧ (State.noteKey s).rpe = s.rpe ∧ (State.noteKey s).stu = s.stu ∧
    (State.noteKey s).saf = s.saf ∧ (State.noteKey s).cap = s.cap ∧ (State.noteKey s).fso = s.fso ∧
    (State.noteKey s).cmp = s.cmp ∧ (State.noteKey s).mem = s.mem ∧ (State.noteKey s).lnk = s.lnk ∧
    (State.noteKey s).tbu = s.tbu ∧ (State.noteKey s).hk = s.hk ∧ (State.noteKey s).boot = s.boot ∧
    (State.noteKey s).out = s.out ∧ (State.noteKey s).goodAt = s.goodAt ∧ (State.noteKey s).free = s.free ∧
    (State.noteKey s).pending = s.pending := by
  unfold State.noteKey
  simp

@[simp] theorem State.takeShims_frame (s : State) (x1 : Image) :
    (State.takeShims s x1).clk = s.clk ∧ (State.takeShims s x1).tofs = s.tofs ∧ (State.takeShims s x1).dev = s.dev ∧
    (State.takeShims s x1).seq = s.seq ∧ (State.takeShims s x1).edu = s.edu ∧ (State.takeShims s x1).rta = s.rta ∧
    (State.takeShims s x1).rpe = s.rpe ∧ (State.takeShims s x1).stu = s.stu ∧ (State.takeShims s x1).cap = s.cap ∧
    (State.takeShims s x1).fso = s.fso ∧ (State.takeShims s x1).cmp = s.cmp ∧ (State.takeShims s x1).mem = s.mem ∧
    (State.takeShims s x1).tbu = s.tbu ∧ (State.takeShims s x1).hk = s.hk ∧ (State.takeShims s x1).goodAt = s.goodAt ∧
    (State.takeShims s x1).free = s.free ∧ (State.takeShims s x1).pending = s.pending := by
  unfold State.takeShims
  simp

@[simp] theorem State.noteDigest_frame (s : State) (x1 : ℕ) (x2 : Bool) (x3 : BitVec 256) :
    (State.noteDigest s x1 x2 x3).clk = s.clk ∧ (State.noteDigest s x1 x2 x3).tofs = s.tofs ∧
    (State.noteDigest s x1 x2 x3).dev = s.dev ∧ (State.noteDigest s x1 x2 x3).mgmt = s.mgmt ∧
    (State.noteDigest s x1 x2 x3).seq = s.seq ∧ (State.noteDigest s x1 x2 x3).edu = s.edu ∧
    (State.noteDigest s x1 x2 x3).rta = s.rta ∧ (State.noteDigest s x1 x2 x3).rpe = s.rpe ∧
    (State.noteDigest s x1 x2 x3).stu = s.stu ∧ (State.noteDigest s x1 x2 x3).saf = s.saf ∧
    (State.noteDigest s x1 x2 x3).cap = s.cap ∧ (State.noteDigest s x1 x2 x3).fso = s.fso ∧
    (State.noteDigest s x1 x2 x3).cmp = s.cmp ∧ (State.noteDigest s x1 x2 x3).mem = s.mem ∧
    (State.noteDigest s x1 x2 x3).lnk = s.lnk ∧ (State.noteDigest s x1 x2 x3).tbu = s.tbu ∧
    (State.noteDigest s x1 x2 x3).hk = s.hk ∧ (State.noteDigest s x1 x2 x3).boot = s.boot ∧
    (State.noteDigest s x1 x2 x3).out = s.out ∧ (State.noteDigest s x1 x2 x3).goodAt = s.goodAt ∧
    (State.noteDigest s x1 x2 x3).pending = s.pending := by
  unfold State.noteDigest
  simp

@[simp] theorem State.takeSafety_frame (s : State) (x1 : Image) :
    (State.takeSafety s x1).clk = s.clk ∧ (State.takeSafety s x1).tofs = s.tofs ∧ (State.takeSafety s x1).dev = s.dev ∧
    (State.takeSafety s x1).seq = s.seq ∧ (State.takeSafety s x1).edu = s.edu ∧ (State.takeSafety s x1).rta = s.rta ∧
    (State.takeSafety s x1).rpe = s.rpe ∧ (State.takeSafety s x1).stu = s.stu ∧ (State.takeSafety s x1).fso = s.fso ∧
    (State.takeSafety s x1).cmp = s.cmp ∧ (State.takeSafety s x1).mem = s.mem ∧ (State.takeSafety s x1).tbu = s.tbu ∧
    (State.takeSafety s x1).hk = s.hk ∧ (State.takeSafety s x1).boot = s.boot ∧ (State.takeSafety s x1).goodAt = s.goodAt ∧
    (State.takeSafety s x1).pending = s.pending := by
  unfold State.takeSafety
  simp

@[simp] theorem State.noteImage_frame (s : State) (x1 : Image) :
    (State.noteImage s x1).clk = s.clk ∧ (State.noteImage s x1).tofs = s.tofs ∧ (State.noteImage s x1).dev = s.dev ∧
    (State.noteImage s x1).mgmt = s.mgmt ∧ (State.noteImage s x1).seq = s.seq ∧ (State.noteImage s x1).edu = s.edu ∧
    (State.noteImage s x1).rta = s.rta ∧ (State.noteImage s x1).rpe = s.rpe ∧ (State.noteImage s x1).stu = s.stu ∧
    (State.noteImage s x1).saf = s.saf ∧ (State.noteImage s x1).cap = s.cap ∧ (State.noteImage s x1).fso = s.fso ∧
    (State.noteImage s x1).cmp = s.cmp ∧ (State.noteImage s x1).mem = s.mem ∧ (State.noteImage s x1).lnk = s.lnk ∧
    (State.noteImage s x1).tbu = s.tbu ∧ (State.noteImage s x1).hk = s.hk ∧ (State.noteImage s x1).out = s.out ∧
    (State.noteImage s x1).goodAt = s.goodAt ∧ (State.noteImage s x1).free = s.free ∧
    (State.noteImage s x1).pending = s.pending := by
  unfold State.noteImage
  simp

@[simp] theorem State.stageImage_frame (s : State) (x1 : Image) :
    (State.stageImage s x1).clk = s.clk ∧ (State.stageImage s x1).tofs = s.tofs ∧ (State.stageImage s x1).dev = s.dev ∧
    (State.stageImage s x1).regs = s.regs ∧ (State.stageImage s x1).mgmt = s.mgmt ∧ (State.stageImage s x1).edu = s.edu ∧
    (State.stageImage s x1).rpe = s.rpe ∧ (State.stageImage s x1).stu = s.stu ∧ (State.stageImage s x1).saf = s.saf ∧
    (State.stageImage s x1).cap = s.cap ∧ (State.stageImage s x1).cmp = s.cmp ∧ (State.stageImage s x1).lnk = s.lnk ∧
    (State.stageImage s x1).tbu = s.tbu ∧ (State.stageImage s x1).hk = s.hk ∧ (State.stageImage s x1).out = s.out ∧
    (State.stageImage s x1).goodAt = s.goodAt ∧ (State.stageImage s x1).free = s.free ∧
    (State.stageImage s x1).pending = s.pending := by
  unfold State.stageImage
  simp

@[simp] theorem State.takeDefs_frame (s : State) :
    (State.takeDefs s).clk = s.clk ∧ (State.takeDefs s).tofs = s.tofs ∧ (State.takeDefs s).dev = s.dev ∧
    (State.takeDefs s).mgmt = s.mgmt ∧ (State.takeDefs s).seq = s.seq ∧ (State.takeDefs s).edu = s.edu ∧
    (State.takeDefs s).rta = s.rta ∧ (State.takeDefs s).rpe = s.rpe ∧ (State.takeDefs s).stu = s.stu ∧
    (State.takeDefs s).saf = s.saf ∧ (State.takeDefs s).cap = s.cap ∧ (State.takeDefs s).fso = s.fso ∧
    (State.takeDefs s).cmp = s.cmp ∧ (State.takeDefs s).mem = s.mem ∧ (State.takeDefs s).lnk = s.lnk ∧
    (State.takeDefs s).tbu = s.tbu ∧ (State.takeDefs s).hk = s.hk ∧ (State.takeDefs s).boot = s.boot ∧
    (State.takeDefs s).out = s.out ∧ (State.takeDefs s).goodAt = s.goodAt ∧ (State.takeDefs s).free = s.free ∧
    (State.takeDefs s).pending = s.pending := by
  unfold State.takeDefs
  simp

@[simp] theorem State.takeConfig_frame (s : State) :
    (State.takeConfig s).clk = s.clk ∧ (State.takeConfig s).tofs = s.tofs ∧ (State.takeConfig s).dev = s.dev ∧
    (State.takeConfig s).mgmt = s.mgmt ∧ (State.takeConfig s).seq = s.seq ∧ (State.takeConfig s).edu = s.edu ∧
    (State.takeConfig s).rta = s.rta ∧ (State.takeConfig s).rpe = s.rpe ∧ (State.takeConfig s).saf = s.saf ∧
    (State.takeConfig s).cap = s.cap ∧ (State.takeConfig s).fso = s.fso ∧ (State.takeConfig s).cmp = s.cmp ∧
    (State.takeConfig s).mem = s.mem ∧ (State.takeConfig s).hk = s.hk ∧ (State.takeConfig s).boot = s.boot ∧
    (State.takeConfig s).out = s.out ∧ (State.takeConfig s).goodAt = s.goodAt ∧
    (State.takeConfig s).pending = s.pending := by
  unfold State.takeConfig
  simp

@[simp] theorem State.takeImage_frame (s : State) (x1 : Image) :
    (State.takeImage s x1).clk = s.clk ∧ (State.takeImage s x1).tofs = s.tofs ∧ (State.takeImage s x1).dev = s.dev ∧
    (State.takeImage s x1).edu = s.edu ∧ (State.takeImage s x1).rpe = s.rpe ∧ (State.takeImage s x1).cmp = s.cmp ∧
    (State.takeImage s x1).hk = s.hk ∧ (State.takeImage s x1).goodAt = s.goodAt ∧
    (State.takeImage s x1).pending = s.pending := by
  unfold State.takeImage
  simp

@[simp] theorem State.countDec_frame (s : State) (x1 : ℕ) :
    (State.countDec s x1).clk = s.clk ∧ (State.countDec s x1).tofs = s.tofs ∧ (State.countDec s x1).dev = s.dev ∧
    (State.countDec s x1).mgmt = s.mgmt ∧ (State.countDec s x1).seq = s.seq ∧ (State.countDec s x1).edu = s.edu ∧
    (State.countDec s x1).rta = s.rta ∧ (State.countDec s x1).rpe = s.rpe ∧ (State.countDec s x1).stu = s.stu ∧
    (State.countDec s x1).saf = s.saf ∧ (State.countDec s x1).cap = s.cap ∧ (State.countDec s x1).fso = s.fso ∧
    (State.countDec s x1).cmp = s.cmp ∧ (State.countDec s x1).mem = s.mem ∧ (State.countDec s x1).lnk = s.lnk ∧
    (State.countDec s x1).tbu = s.tbu ∧ (State.countDec s x1).hk = s.hk ∧ (State.countDec s x1).boot = s.boot ∧
    (State.countDec s x1).out = s.out ∧ (State.countDec s x1).goodAt = s.goodAt ∧ (State.countDec s x1).free = s.free ∧
    (State.countDec s x1).pending = s.pending := by
  unfold State.countDec
  simp

@[simp] theorem State.loadWord_inv (s : State) (x1 : ℕ) (x2 : Word) (h : s.Inv) : (State.loadWord s x1 x2).Inv := by
  unfold State.loadWord
  simp (maxDischargeDepth := 100) [h]

@[simp] theorem State.loadImage_inv (s : State) (x1 : Image) (h : s.Inv) : (State.loadImage s x1).Inv := by
  unfold State.loadImage
  simp +contextual (maxDischargeDepth := 100) [h]

@[simp] theorem State.fuse_inv (s : State) (x1 : Image) (h : s.Inv) : (State.fuse s x1).Inv := by
  unfold State.fuse
  simp (maxDischargeDepth := 100) [h]

@[simp] theorem State.noteKey_inv (s : State) (h : s.Inv) : (State.noteKey s).Inv := by
  unfold State.noteKey
  simp (maxDischargeDepth := 100) [h]

@[simp] theorem State.takeShims_inv (s : State) (x1 : Image) (h : s.Inv) : (State.takeShims s x1).Inv := by
  unfold State.takeShims
  simp (maxDischargeDepth := 100) [h]

@[simp] theorem State.noteDigest_inv (s : State) (x1 : ℕ) (x2 : Bool) (x3 : BitVec 256) (h : s.Inv) : (State.noteDigest s x1 x2 x3).Inv := by
  unfold State.noteDigest
  simp (maxDischargeDepth := 100) [h]

@[simp] theorem State.takeSafety_inv (s : State) (x1 : Image) (h : s.Inv) : (State.takeSafety s x1).Inv := by
  unfold State.takeSafety
  simp (maxDischargeDepth := 100) [h]

@[simp] theorem State.noteImage_inv (s : State) (x1 : Image) (h : s.Inv) : (State.noteImage s x1).Inv := by
  unfold State.noteImage
  simp (maxDischargeDepth := 100) [h]

@[simp] theorem State.stageImage_inv (s : State) (x1 : Image) : (State.stageImage s x1).Inv ↔ s.Inv := inv_of_parts (by simp) (by simp)

@[simp] theorem State.takeDefs_inv (s : State) (h : s.Inv) : (State.takeDefs s).Inv := by
  unfold State.takeDefs
  simp +contextual (maxDischargeDepth := 100) [h]

@[simp] theorem State.takeConfig_inv (s : State) (h : s.Inv) : (State.takeConfig s).Inv := by
  unfold State.takeConfig
  simp +contextual (maxDischargeDepth := 100) [h]

@[simp] theorem State.takeImage_inv (s : State) (x1 : Image) (h : s.Inv) : (State.takeImage s x1).Inv := by
  unfold State.takeImage
  simp (maxDischargeDepth := 100) [h]

@[simp] theorem State.countDec_inv (s : State) (x1 : ℕ) (h : s.Inv) : (State.countDec s x1).Inv := by
  unfold State.countDec
  simp (maxDischargeDepth := 100) [h]

/-! ### Shims -/

@[simp] theorem State.setShimWord_frame (s : State) (x1 : ℕ) (x2 : ℕ) (x3 : ℕ) (x4 : ℤ) :
    (State.setShimWord s x1 x2 x3 x4).clk = s.clk ∧ (State.setShimWord s x1 x2 x3 x4).tofs = s.tofs ∧
    (State.setShimWord s x1 x2 x3 x4).dev = s.dev ∧ (State.setShimWord s x1 x2 x3 x4).mgmt = s.mgmt ∧
    (State.setShimWord s x1 x2 x3 x4).seq = s.seq ∧ (State.setShimWord s x1 x2 x3 x4).edu = s.edu ∧
    (State.setShimWord s x1 x2 x3 x4).rpe = s.rpe ∧ (State.setShimWord s x1 x2 x3 x4).stu = s.stu ∧
    (State.setShimWord s x1 x2 x3 x4).cap = s.cap ∧ (State.setShimWord s x1 x2 x3 x4).fso = s.fso ∧
    (State.setShimWord s x1 x2 x3 x4).cmp = s.cmp ∧ (State.setShimWord s x1 x2 x3 x4).mem = s.mem ∧
    (State.setShimWord s x1 x2 x3 x4).lnk = s.lnk ∧ (State.setShimWord s x1 x2 x3 x4).tbu = s.tbu ∧
    (State.setShimWord s x1 x2 x3 x4).hk = s.hk ∧ (State.setShimWord s x1 x2 x3 x4).boot = s.boot ∧
    (State.setShimWord s x1 x2 x3 x4).out = s.out ∧ (State.setShimWord s x1 x2 x3 x4).goodAt = s.goodAt ∧
    (State.setShimWord s x1 x2 x3 x4).free = s.free ∧ (State.setShimWord s x1 x2 x3 x4).pending = s.pending := by
  unfold State.setShimWord
  simp

@[simp] theorem State.setShim_frame (s : State) (x1 : ℕ) (x2 : ℕ) (x3 : List Word) :
    (State.setShim s x1 x2 x3).clk = s.clk ∧ (State.setShim s x1 x2 x3).tofs = s.tofs ∧
    (State.setShim s x1 x2 x3).dev = s.dev ∧ (State.setShim s x1 x2 x3).mgmt = s.mgmt ∧
    (State.setShim s x1 x2 x3).seq = s.seq ∧ (State.setShim s x1 x2 x3).edu = s.edu ∧
    (State.setShim s x1 x2 x3).rpe = s.rpe ∧ (State.setShim s x1 x2 x3).stu = s.stu ∧
    (State.setShim s x1 x2 x3).cap = s.cap ∧ (State.setShim s x1 x2 x3).fso = s.fso ∧
    (State.setShim s x1 x2 x3).cmp = s.cmp ∧ (State.setShim s x1 x2 x3).mem = s.mem ∧
    (State.setShim s x1 x2 x3).lnk = s.lnk ∧ (State.setShim s x1 x2 x3).tbu = s.tbu ∧ (State.setShim s x1 x2 x3).hk = s.hk ∧
    (State.setShim s x1 x2 x3).out = s.out ∧ (State.setShim s x1 x2 x3).goodAt = s.goodAt ∧
    (State.setShim s x1 x2 x3).free = s.free ∧ (State.setShim s x1 x2 x3).pending = s.pending := by
  unfold State.setShim
  (repeat' (first | (split; rename_i heq; have h1 := congrArg Prod.fst heq; have h2 := congrArg Prod.snd heq; dsimp only at h1 h2; (try subst h1); (try subst h2)) | split)) <;> simp

@[simp] theorem State.snapShims_frame (s : State) :
    (State.snapShims s).clk = s.clk ∧ (State.snapShims s).tofs = s.tofs ∧ (State.snapShims s).dev = s.dev ∧
    (State.snapShims s).regs = s.regs ∧ (State.snapShims s).mgmt = s.mgmt ∧ (State.snapShims s).seq = s.seq ∧
    (State.snapShims s).edu = s.edu ∧ (State.snapShims s).rta = s.rta ∧ (State.snapShims s).rpe = s.rpe ∧
    (State.snapShims s).stu = s.stu ∧ (State.snapShims s).saf = s.saf ∧ (State.snapShims s).cap = s.cap ∧
    (State.snapShims s).fso = s.fso ∧ (State.snapShims s).cmp = s.cmp ∧ (State.snapShims s).mem = s.mem ∧
    (State.snapShims s).lnk = s.lnk ∧ (State.snapShims s).tbu = s.tbu ∧ (State.snapShims s).hk = s.hk ∧
    (State.snapShims s).out = s.out ∧ (State.snapShims s).goodAt = s.goodAt ∧ (State.snapShims s).free = s.free ∧
    (State.snapShims s).pending = s.pending := by
  unfold State.snapShims
  simp

@[simp] theorem State.writeShm_frame (s : State) (x1 : ℕ) (x2 : Word) :
    (State.writeShm s x1 x2).2.clk = s.clk ∧ (State.writeShm s x1 x2).2.tofs = s.tofs ∧
    (State.writeShm s x1 x2).2.dev = s.dev ∧ (State.writeShm s x1 x2).2.regs = s.regs ∧
    (State.writeShm s x1 x2).2.mgmt = s.mgmt ∧ (State.writeShm s x1 x2).2.seq = s.seq ∧
    (State.writeShm s x1 x2).2.edu = s.edu ∧ (State.writeShm s x1 x2).2.rta = s.rta ∧
    (State.writeShm s x1 x2).2.rpe = s.rpe ∧ (State.writeShm s x1 x2).2.stu = s.stu ∧
    (State.writeShm s x1 x2).2.saf = s.saf ∧ (State.writeShm s x1 x2).2.cap = s.cap ∧
    (State.writeShm s x1 x2).2.fso = s.fso ∧ (State.writeShm s x1 x2).2.cmp = s.cmp ∧
    (State.writeShm s x1 x2).2.mem = s.mem ∧ (State.writeShm s x1 x2).2.lnk = s.lnk ∧
    (State.writeShm s x1 x2).2.tbu = s.tbu ∧ (State.writeShm s x1 x2).2.hk = s.hk ∧ (State.writeShm s x1 x2).2.out = s.out ∧
    (State.writeShm s x1 x2).2.goodAt = s.goodAt ∧ (State.writeShm s x1 x2).2.free = s.free ∧
    (State.writeShm s x1 x2).2.pending = s.pending := by
  unfold State.writeShm
  simp

@[simp] theorem State.setShimWord_inv (s : State) (x1 : ℕ) (x2 : ℕ) (x3 : ℕ) (x4 : ℤ) (h : s.Inv) : (State.setShimWord s x1 x2 x3 x4).Inv := by
  unfold State.setShimWord
  simp (maxDischargeDepth := 100) [h]

@[simp] theorem State.setShim_inv (s : State) (x1 : ℕ) (x2 : ℕ) (x3 : List Word) (h : s.Inv) : (State.setShim s x1 x2 x3).Inv := by
  unfold State.setShim
  (repeat' (first | (split; rename_i heq; have h1 := congrArg Prod.fst heq; have h2 := congrArg Prod.snd heq; dsimp only at h1 h2; (try subst h1); (try subst h2)) | split)) <;> simp +contextual (maxDischargeDepth := 100) [h]

@[simp] theorem State.snapShims_inv (s : State) : (State.snapShims s).Inv ↔ s.Inv := inv_of_parts (by simp) (by simp)

@[simp] theorem State.writeShm_inv (s : State) (x1 : ℕ) (x2 : Word) : (State.writeShm s x1 x2).2.Inv ↔ s.Inv := inv_of_parts (by simp) (by simp)

/-! ### Calibrate -/

@[simp] theorem State.setElem_frame (s : State) (x1 : CalElem) (x2 : List ℤ) (x3 : List ℤ) :
    (State.setElem s x1 x2 x3).clk = s.clk ∧ (State.setElem s x1 x2 x3).tofs = s.tofs ∧
    (State.setElem s x1 x2 x3).dev = s.dev ∧ (State.setElem s x1 x2 x3).mgmt = s.mgmt ∧
    (State.setElem s x1 x2 x3).seq = s.seq ∧ (State.setElem s x1 x2 x3).edu = s.edu ∧
    (State.setElem s x1 x2 x3).rpe = s.rpe ∧ (State.setElem s x1 x2 x3).stu = s.stu ∧
    (State.setElem s x1 x2 x3).cap = s.cap ∧ (State.setElem s x1 x2 x3).fso = s.fso ∧
    (State.setElem s x1 x2 x3).cmp = s.cmp ∧ (State.setElem s x1 x2 x3).mem = s.mem ∧
    (State.setElem s x1 x2 x3).lnk = s.lnk ∧ (State.setElem s x1 x2 x3).tbu = s.tbu ∧ (State.setElem s x1 x2 x3).hk = s.hk ∧
    (State.setElem s x1 x2 x3).out = s.out ∧ (State.setElem s x1 x2 x3).goodAt = s.goodAt ∧
    (State.setElem s x1 x2 x3).free = s.free ∧ (State.setElem s x1 x2 x3).pending = s.pending := by
  unfold State.setElem
  (repeat' (first | (split; rename_i heq; have h1 := congrArg Prod.fst heq; have h2 := congrArg Prod.snd heq; dsimp only at h1 h2; (try subst h1); (try subst h2)) | split)) <;> simp

@[simp] theorem State.noteSub_frame (s : State) (x1 : CalElem) (x2 : Bool) :
    (State.noteSub s x1 x2).clk = s.clk ∧ (State.noteSub s x1 x2).tofs = s.tofs ∧ (State.noteSub s x1 x2).dev = s.dev ∧
    (State.noteSub s x1 x2).mgmt = s.mgmt ∧ (State.noteSub s x1 x2).seq = s.seq ∧ (State.noteSub s x1 x2).edu = s.edu ∧
    (State.noteSub s x1 x2).rta = s.rta ∧ (State.noteSub s x1 x2).rpe = s.rpe ∧ (State.noteSub s x1 x2).stu = s.stu ∧
    (State.noteSub s x1 x2).saf = s.saf ∧ (State.noteSub s x1 x2).cap = s.cap ∧ (State.noteSub s x1 x2).fso = s.fso ∧
    (State.noteSub s x1 x2).cmp = s.cmp ∧ (State.noteSub s x1 x2).mem = s.mem ∧ (State.noteSub s x1 x2).lnk = s.lnk ∧
    (State.noteSub s x1 x2).tbu = s.tbu ∧ (State.noteSub s x1 x2).hk = s.hk ∧ (State.noteSub s x1 x2).boot = s.boot ∧
    (State.noteSub s x1 x2).out = s.out ∧ (State.noteSub s x1 x2).goodAt = s.goodAt ∧
    (State.noteSub s x1 x2).free = s.free ∧ (State.noteSub s x1 x2).pending = s.pending := by
  unfold State.noteSub
  simp

@[simp] theorem State.runElem_frame (x0 : Nat → Nat → Option (List Word)) (x1 : State × List CalElem × Nat) (x2 : CalElem) :
    (State.runElem x0 x1 x2).1.clk = x1.1.clk ∧ (State.runElem x0 x1 x2).1.tofs = x1.1.tofs ∧
    (State.runElem x0 x1 x2).1.dev = x1.1.dev ∧ (State.runElem x0 x1 x2).1.mgmt = x1.1.mgmt ∧
    (State.runElem x0 x1 x2).1.seq = x1.1.seq ∧ (State.runElem x0 x1 x2).1.edu = x1.1.edu ∧
    (State.runElem x0 x1 x2).1.rpe = x1.1.rpe ∧ (State.runElem x0 x1 x2).1.stu = x1.1.stu ∧
    (State.runElem x0 x1 x2).1.cap = x1.1.cap ∧ (State.runElem x0 x1 x2).1.fso = x1.1.fso ∧
    (State.runElem x0 x1 x2).1.cmp = x1.1.cmp ∧ (State.runElem x0 x1 x2).1.mem = x1.1.mem ∧
    (State.runElem x0 x1 x2).1.lnk = x1.1.lnk ∧ (State.runElem x0 x1 x2).1.tbu = x1.1.tbu ∧
    (State.runElem x0 x1 x2).1.hk = x1.1.hk ∧ (State.runElem x0 x1 x2).1.out = x1.1.out ∧
    (State.runElem x0 x1 x2).1.goodAt = x1.1.goodAt ∧ (State.runElem x0 x1 x2).1.free = x1.1.free ∧
    (State.runElem x0 x1 x2).1.pending = x1.1.pending := by
  unfold State.runElem
  dsimp only
  split <;> simp

@[simp] theorem State.calibrate_frame (s : State) (x1 : List CalElem) (x2 : ℕ → ℕ → Option (List Word)) :
    (State.calibrate s x1 x2).1.clk = s.clk ∧ (State.calibrate s x1 x2).1.tofs = s.tofs ∧
    (State.calibrate s x1 x2).1.dev = s.dev ∧ (State.calibrate s x1 x2).1.mgmt = s.mgmt ∧
    (State.calibrate s x1 x2).1.seq = s.seq ∧ (State.calibrate s x1 x2).1.edu = s.edu ∧
    (State.calibrate s x1 x2).1.rpe = s.rpe ∧ (State.calibrate s x1 x2).1.stu = s.stu ∧
    (State.calibrate s x1 x2).1.cap = s.cap ∧ (State.calibrate s x1 x2).1.fso = s.fso ∧
    (State.calibrate s x1 x2).1.cmp = s.cmp ∧ (State.calibrate s x1 x2).1.mem = s.mem ∧
    (State.calibrate s x1 x2).1.lnk = s.lnk ∧ (State.calibrate s x1 x2).1.tbu = s.tbu ∧
    (State.calibrate s x1 x2).1.hk = s.hk ∧ (State.calibrate s x1 x2).1.out = s.out ∧
    (State.calibrate s x1 x2).1.goodAt = s.goodAt ∧ (State.calibrate s x1 x2).1.free = s.free ∧
    (State.calibrate s x1 x2).1.pending = s.pending := by
  unfold State.calibrate
  simp

@[simp] theorem State.calOff_frame (s : State) (x1 : ℕ) :
    (State.calOff s x1).clk = s.clk ∧ (State.calOff s x1).tofs = s.tofs ∧ (State.calOff s x1).mgmt = s.mgmt ∧
    (State.calOff s x1).seq = s.seq ∧ (State.calOff s x1).edu = s.edu ∧ (State.calOff s x1).rta = s.rta ∧
    (State.calOff s x1).stu = s.stu ∧ (State.calOff s x1).saf = s.saf ∧ (State.calOff s x1).cap = s.cap ∧
    (State.calOff s x1).fso = s.fso ∧ (State.calOff s x1).cmp = s.cmp ∧ (State.calOff s x1).mem = s.mem ∧
    (State.calOff s x1).lnk = s.lnk ∧ (State.calOff s x1).tbu = s.tbu ∧ (State.calOff s x1).hk = s.hk ∧
    (State.calOff s x1).boot = s.boot ∧ (State.calOff s x1).out = s.out ∧ (State.calOff s x1).goodAt = s.goodAt ∧
    (State.calOff s x1).free = s.free ∧ (State.calOff s x1).pending = s.pending := by
  unfold State.calOff
  simp

@[simp] theorem State.calPortFails_frame (s : State) (x1 : ℕ) :
    (State.calPortFails s x1).clk = s.clk ∧ (State.calPortFails s x1).tofs = s.tofs ∧
    (State.calPortFails s x1).mgmt = s.mgmt ∧ (State.calPortFails s x1).seq = s.seq ∧
    (State.calPortFails s x1).edu = s.edu ∧ (State.calPortFails s x1).stu = s.stu ∧ (State.calPortFails s x1).saf = s.saf ∧
    (State.calPortFails s x1).cap = s.cap ∧ (State.calPortFails s x1).fso = s.fso ∧ (State.calPortFails s x1).cmp = s.cmp ∧
    (State.calPortFails s x1).mem = s.mem ∧ (State.calPortFails s x1).lnk = s.lnk ∧ (State.calPortFails s x1).tbu = s.tbu ∧
    (State.calPortFails s x1).hk = s.hk ∧ (State.calPortFails s x1).boot = s.boot ∧ (State.calPortFails s x1).out = s.out ∧
    (State.calPortFails s x1).goodAt = s.goodAt ∧ (State.calPortFails s x1).free = s.free ∧
    (State.calPortFails s x1).pending = s.pending := by
  unfold State.calPortFails
  simp

@[simp] theorem State.calSpareFails_frame (s : State) (x1 : ℕ) :
    (State.calSpareFails s x1).clk = s.clk ∧ (State.calSpareFails s x1).tofs = s.tofs ∧
    (State.calSpareFails s x1).mgmt = s.mgmt ∧ (State.calSpareFails s x1).seq = s.seq ∧
    (State.calSpareFails s x1).edu = s.edu ∧ (State.calSpareFails s x1).rta = s.rta ∧
    (State.calSpareFails s x1).stu = s.stu ∧ (State.calSpareFails s x1).saf = s.saf ∧
    (State.calSpareFails s x1).cap = s.cap ∧ (State.calSpareFails s x1).fso = s.fso ∧
    (State.calSpareFails s x1).cmp = s.cmp ∧ (State.calSpareFails s x1).mem = s.mem ∧
    (State.calSpareFails s x1).lnk = s.lnk ∧ (State.calSpareFails s x1).tbu = s.tbu ∧ (State.calSpareFails s x1).hk = s.hk ∧
    (State.calSpareFails s x1).boot = s.boot ∧ (State.calSpareFails s x1).out = s.out ∧
    (State.calSpareFails s x1).goodAt = s.goodAt ∧ (State.calSpareFails s x1).free = s.free ∧
    (State.calSpareFails s x1).pending = s.pending := by
  unfold State.calSpareFails
  simp

@[simp] theorem State.calOther_frame (s : State) (x1 : CalElem) :
    (State.calOther s x1).clk = s.clk ∧ (State.calOther s x1).tofs = s.tofs ∧ (State.calOther s x1).dev = s.dev ∧
    (State.calOther s x1).seq = s.seq ∧ (State.calOther s x1).edu = s.edu ∧ (State.calOther s x1).rpe = s.rpe ∧
    (State.calOther s x1).stu = s.stu ∧ (State.calOther s x1).fso = s.fso ∧ (State.calOther s x1).cmp = s.cmp ∧
    (State.calOther s x1).mem = s.mem ∧ (State.calOther s x1).tbu = s.tbu ∧ (State.calOther s x1).hk = s.hk ∧
    (State.calOther s x1).boot = s.boot ∧ (State.calOther s x1).goodAt = s.goodAt ∧ (State.calOther s x1).free = s.free ∧
    (State.calOther s x1).pending = s.pending := by
  unfold State.calOther
  (repeat' (first | (split; rename_i heq; have h1 := congrArg Prod.fst heq; have h2 := congrArg Prod.snd heq; dsimp only at h1 h2; (try subst h1); (try subst h2)) | split)) <;> simp

theorem calOther_only (s : State) (a : CalElem) : Only [.cap, .dev, .lnk, .mgmt, .out, .regs, .rpe, .rta, .saf] s (State.calOther s a) := by
  refine ⟨by simp, by simp, fun p hp => ?_⟩
  cases p <;> simp_all [Part.same]

theorem calSpareFails_only (s : State) (a : Nat) : Only [.cap, .dev, .lnk, .mgmt, .out, .regs, .rpe, .rta, .saf] s (State.calSpareFails s a) := by
  refine ⟨by simp, by simp, fun p hp => ?_⟩
  cases p <;> simp_all [Part.same]

theorem calPortFails_only (s : State) (a : Nat) : Only [.cap, .dev, .lnk, .mgmt, .out, .regs, .rpe, .rta, .saf] s (State.calPortFails s a) := by
  refine ⟨by simp, by simp, fun p hp => ?_⟩
  cases p <;> simp_all [Part.same]

theorem portEvents_only (z s : State) (p : Nat) : Only [.cap, .dev, .lnk, .mgmt, .out, .regs, .rpe, .rta, .saf] s (z.portEvents s p) := by
  refine ⟨?_, ?_, fun q hq => ?_⟩
  · unfold State.portEvents; simp
  · unfold State.portEvents; simp
  · cases q <;> simp_all [Part.same, State.portEvents]

@[simp] theorem State.calFailures_frame (s : State) (x1 : List CalElem) :
    (State.calFailures s x1).clk = s.clk ∧ (State.calFailures s x1).tofs = s.tofs ∧ (State.calFailures s x1).seq = s.seq ∧
    (State.calFailures s x1).edu = s.edu ∧ (State.calFailures s x1).stu = s.stu ∧ (State.calFailures s x1).fso = s.fso ∧
    (State.calFailures s x1).cmp = s.cmp ∧ (State.calFailures s x1).mem = s.mem ∧ (State.calFailures s x1).tbu = s.tbu ∧
    (State.calFailures s x1).hk = s.hk ∧ (State.calFailures s x1).boot = s.boot ∧
    (State.calFailures s x1).goodAt = s.goodAt ∧ (State.calFailures s x1).free = s.free ∧
    (State.calFailures s x1).pending = s.pending := by
  have h : Only [.cap, .dev, .lnk, .mgmt, .out, .regs, .rpe, .rta, .saf] s (State.calFailures s x1) := by
    unfold State.calFailures
    exact (((Only.fold _ calOther_only _ s).trans (Only.fold _ calSpareFails_only _ _)).trans
      (Only.fold _ calPortFails_only _ _)).trans (Only.fold _ (fun u p => portEvents_only s u p) _ _)
  exact ⟨h.1, h.2.2 .tofs (by decide), h.2.2 .seq (by decide), h.2.2 .edu (by decide), h.2.2 .stu (by decide), h.2.2 .fso (by decide), h.2.2 .cmp (by decide), h.2.2 .mem (by decide), h.2.2 .tbu (by decide), h.2.2 .hk (by decide), h.2.2 .boot (by decide), h.2.2 .goodAt (by decide), h.2.2 .free (by decide), h.2.1⟩

@[simp] theorem State.dieTemp_frame (s : State) :
    (State.dieTemp s).2.clk = s.clk ∧ (State.dieTemp s).2.tofs = s.tofs ∧ (State.dieTemp s).2.dev = s.dev ∧
    (State.dieTemp s).2.regs = s.regs ∧ (State.dieTemp s).2.mgmt = s.mgmt ∧ (State.dieTemp s).2.seq = s.seq ∧
    (State.dieTemp s).2.edu = s.edu ∧ (State.dieTemp s).2.rta = s.rta ∧ (State.dieTemp s).2.rpe = s.rpe ∧
    (State.dieTemp s).2.stu = s.stu ∧ (State.dieTemp s).2.saf = s.saf ∧ (State.dieTemp s).2.cap = s.cap ∧
    (State.dieTemp s).2.fso = s.fso ∧ (State.dieTemp s).2.cmp = s.cmp ∧ (State.dieTemp s).2.mem = s.mem ∧
    (State.dieTemp s).2.lnk = s.lnk ∧ (State.dieTemp s).2.tbu = s.tbu ∧ (State.dieTemp s).2.hk = s.hk ∧
    (State.dieTemp s).2.boot = s.boot ∧ (State.dieTemp s).2.out = s.out ∧ (State.dieTemp s).2.goodAt = s.goodAt ∧
    (State.dieTemp s).2.pending = s.pending := by
  unfold State.dieTemp
  (repeat' (first | (split; rename_i heq; have h1 := congrArg Prod.fst heq; have h2 := congrArg Prod.snd heq; dsimp only at h1 h2; (try subst h1); (try subst h2)) | split)) <;> simp

@[simp] theorem State.noteMeta_frame (s : State) (x1 : ℕ) :
    (State.noteMeta s x1).clk = s.clk ∧ (State.noteMeta s x1).tofs = s.tofs ∧ (State.noteMeta s x1).dev = s.dev ∧
    (State.noteMeta s x1).mgmt = s.mgmt ∧ (State.noteMeta s x1).seq = s.seq ∧ (State.noteMeta s x1).edu = s.edu ∧
    (State.noteMeta s x1).rpe = s.rpe ∧ (State.noteMeta s x1).stu = s.stu ∧ (State.noteMeta s x1).cap = s.cap ∧
    (State.noteMeta s x1).fso = s.fso ∧ (State.noteMeta s x1).cmp = s.cmp ∧ (State.noteMeta s x1).mem = s.mem ∧
    (State.noteMeta s x1).lnk = s.lnk ∧ (State.noteMeta s x1).tbu = s.tbu ∧ (State.noteMeta s x1).hk = s.hk ∧
    (State.noteMeta s x1).out = s.out ∧ (State.noteMeta s x1).goodAt = s.goodAt ∧
    (State.noteMeta s x1).pending = s.pending := by
  unfold State.noteMeta
  simp

@[simp] theorem State.takeSet_frame (s : State) (x1 : ℕ) (x2 : ℕ × ℕ × List Word) :
    (State.takeSet s x1 x2).clk = s.clk ∧ (State.takeSet s x1 x2).tofs = s.tofs ∧ (State.takeSet s x1 x2).dev = s.dev ∧
    (State.takeSet s x1 x2).mgmt = s.mgmt ∧ (State.takeSet s x1 x2).seq = s.seq ∧ (State.takeSet s x1 x2).edu = s.edu ∧
    (State.takeSet s x1 x2).rpe = s.rpe ∧ (State.takeSet s x1 x2).stu = s.stu ∧ (State.takeSet s x1 x2).cap = s.cap ∧
    (State.takeSet s x1 x2).fso = s.fso ∧ (State.takeSet s x1 x2).cmp = s.cmp ∧ (State.takeSet s x1 x2).mem = s.mem ∧
    (State.takeSet s x1 x2).lnk = s.lnk ∧ (State.takeSet s x1 x2).tbu = s.tbu ∧ (State.takeSet s x1 x2).hk = s.hk ∧
    (State.takeSet s x1 x2).out = s.out ∧ (State.takeSet s x1 x2).goodAt = s.goodAt ∧
    (State.takeSet s x1 x2).free = s.free ∧ (State.takeSet s x1 x2).pending = s.pending := by
  unfold State.takeSet
  simp

@[simp] theorem State.takeSets_frame (s : State) (x1 : ℕ) (x2 : List (ℕ × ℕ × List Word)) :
    (State.takeSets s x1 x2).clk = s.clk ∧ (State.takeSets s x1 x2).tofs = s.tofs ∧ (State.takeSets s x1 x2).dev = s.dev ∧
    (State.takeSets s x1 x2).mgmt = s.mgmt ∧ (State.takeSets s x1 x2).seq = s.seq ∧ (State.takeSets s x1 x2).edu = s.edu ∧
    (State.takeSets s x1 x2).rpe = s.rpe ∧ (State.takeSets s x1 x2).stu = s.stu ∧ (State.takeSets s x1 x2).cap = s.cap ∧
    (State.takeSets s x1 x2).fso = s.fso ∧ (State.takeSets s x1 x2).cmp = s.cmp ∧ (State.takeSets s x1 x2).mem = s.mem ∧
    (State.takeSets s x1 x2).lnk = s.lnk ∧ (State.takeSets s x1 x2).tbu = s.tbu ∧ (State.takeSets s x1 x2).hk = s.hk ∧
    (State.takeSets s x1 x2).out = s.out ∧ (State.takeSets s x1 x2).goodAt = s.goodAt ∧
    (State.takeSets s x1 x2).free = s.free ∧ (State.takeSets s x1 x2).pending = s.pending := by
  unfold State.takeSets
  simp

@[simp] theorem State.recalStart_frame (s : State) :
    (State.recalStart s).2.clk = s.clk ∧ (State.recalStart s).2.tofs = s.tofs ∧ (State.recalStart s).2.dev = s.dev ∧
    (State.recalStart s).2.seq = s.seq ∧ (State.recalStart s).2.edu = s.edu ∧ (State.recalStart s).2.rta = s.rta ∧
    (State.recalStart s).2.rpe = s.rpe ∧ (State.recalStart s).2.stu = s.stu ∧ (State.recalStart s).2.saf = s.saf ∧
    (State.recalStart s).2.cap = s.cap ∧ (State.recalStart s).2.fso = s.fso ∧ (State.recalStart s).2.cmp = s.cmp ∧
    (State.recalStart s).2.mem = s.mem ∧ (State.recalStart s).2.lnk = s.lnk ∧ (State.recalStart s).2.tbu = s.tbu ∧
    (State.recalStart s).2.hk = s.hk ∧ (State.recalStart s).2.boot = s.boot ∧ (State.recalStart s).2.out = s.out ∧
    (State.recalStart s).2.goodAt = s.goodAt ∧ (State.recalStart s).2.free = s.free ∧
    (State.recalStart s).2.pending = s.pending := by
  unfold State.recalStart
  simp

@[simp] theorem State.recalHalt_frame (s : State) (x1 : ℕ) (x2 : ℕ) :
    (State.recalHalt s x1 x2).clk = s.clk ∧ (State.recalHalt s x1 x2).tofs = s.tofs ∧
    (State.recalHalt s x1 x2).dev = s.dev ∧ (State.recalHalt s x1 x2).rta = s.rta ∧ (State.recalHalt s x1 x2).rpe = s.rpe ∧
    (State.recalHalt s x1 x2).stu = s.stu ∧ (State.recalHalt s x1 x2).fso = s.fso ∧ (State.recalHalt s x1 x2).cmp = s.cmp ∧
    (State.recalHalt s x1 x2).mem = s.mem ∧ (State.recalHalt s x1 x2).tbu = s.tbu ∧ (State.recalHalt s x1 x2).hk = s.hk ∧
    (State.recalHalt s x1 x2).boot = s.boot ∧ (State.recalHalt s x1 x2).goodAt = s.goodAt ∧
    (State.recalHalt s x1 x2).free = s.free ∧ (State.recalHalt s x1 x2).pending = s.pending := by
  unfold State.recalHalt
  simp

@[simp] theorem State.startPage_frame (s : State) :
    (State.startPage s).clk = s.clk ∧ (State.startPage s).tofs = s.tofs ∧ (State.startPage s).dev = s.dev ∧
    (State.startPage s).regs = s.regs ∧ (State.startPage s).mgmt = s.mgmt ∧ (State.startPage s).edu = s.edu ∧
    (State.startPage s).rta = s.rta ∧ (State.startPage s).rpe = s.rpe ∧ (State.startPage s).stu = s.stu ∧
    (State.startPage s).saf = s.saf ∧ (State.startPage s).cap = s.cap ∧ (State.startPage s).fso = s.fso ∧
    (State.startPage s).cmp = s.cmp ∧ (State.startPage s).mem = s.mem ∧ (State.startPage s).lnk = s.lnk ∧
    (State.startPage s).tbu = s.tbu ∧ (State.startPage s).hk = s.hk ∧ (State.startPage s).boot = s.boot ∧
    (State.startPage s).out = s.out ∧ (State.startPage s).goodAt = s.goodAt ∧ (State.startPage s).free = s.free ∧
    (State.startPage s).pending = s.pending := by
  unfold State.startPage
  (repeat' (first | (split; rename_i heq; have h1 := congrArg Prod.fst heq; have h2 := congrArg Prod.snd heq; dsimp only at h1 h2; (try subst h1); (try subst h2)) | split)) <;> simp

@[simp] theorem State.setElem_inv (s : State) (x1 : CalElem) (x2 : List ℤ) (x3 : List ℤ) (h : s.Inv) : (State.setElem s x1 x2 x3).Inv := by
  unfold State.setElem
  (repeat' (first | (split; rename_i heq; have h1 := congrArg Prod.fst heq; have h2 := congrArg Prod.snd heq; dsimp only at h1 h2; (try subst h1); (try subst h2)) | split)) <;> simp +contextual (maxDischargeDepth := 100) [h]

@[simp] theorem State.noteSub_inv (s : State) (x1 : CalElem) (x2 : Bool) (h : s.Inv) : (State.noteSub s x1 x2).Inv := by
  unfold State.noteSub
  simp +contextual (maxDischargeDepth := 100) [h]

@[simp] theorem State.runElem_inv (x0 : Nat → Nat → Option (List Word)) (x1 : State × List CalElem × Nat) (x2 : CalElem)
    (h : x1.1.Inv) : (State.runElem x0 x1 x2).1.Inv := by
  unfold State.runElem
  dsimp only
  split <;> simp (maxDischargeDepth := 100) [h]

@[simp] theorem State.calibrate_inv (s : State) (x1 : List CalElem) (x2 : ℕ → ℕ → Option (List Word)) (h : s.Inv) : (State.calibrate s x1 x2).1.Inv := by
  unfold State.calibrate
  exact fold1_inv _ (fun u a hu => State.runElem_inv _ u a hu) _ _ h

@[simp] theorem State.calOff_inv (s : State) (x1 : ℕ) (h : s.Inv) : (State.calOff s x1).Inv := by
  unfold State.calOff
  simp (maxDischargeDepth := 100) [h]

@[simp] theorem State.calPortFails_inv (s : State) (x1 : ℕ) (h : s.Inv) : (State.calPortFails s x1).Inv := by
  unfold State.calPortFails
  simp (maxDischargeDepth := 100) [h]

@[simp] theorem State.calSpareFails_inv (s : State) (x1 : ℕ) (h : s.Inv) : (State.calSpareFails s x1).Inv := by
  unfold State.calSpareFails
  simp (maxDischargeDepth := 100) [h]

@[simp] theorem State.calOther_inv (s : State) (x1 : CalElem) (h : s.Inv) : (State.calOther s x1).Inv := by
  unfold State.calOther
  (repeat' (first | (split; rename_i heq; have h1 := congrArg Prod.fst heq; have h2 := congrArg Prod.snd heq; dsimp only at h1 h2; (try subst h1); (try subst h2)) | split)) <;> simp +contextual (maxDischargeDepth := 100) [h]

@[simp] theorem State.portEvents_inv (s : State) (x1 : State) (x2 : ℕ) (h : s.Inv) (hx1 : x1.Inv) : (State.portEvents s x1 x2).Inv := by
  unfold State.portEvents
  simp (maxDischargeDepth := 100) [h, hx1]

@[simp] theorem State.calFailures_inv (s : State) (x1 : List CalElem) (h : s.Inv) : (State.calFailures s x1).Inv := by
  unfold State.calFailures
  simp +contextual (maxDischargeDepth := 100) [h]

@[simp] theorem State.dieTemp_inv (s : State) : (State.dieTemp s).2.Inv ↔ s.Inv := inv_of_parts (by simp) (by simp)

@[simp] theorem State.noteMeta_inv (s : State) (x1 : ℕ) (h : s.Inv) : (State.noteMeta s x1).Inv := by
  unfold State.noteMeta
  simp (maxDischargeDepth := 100) [h]

@[simp] theorem State.takeSet_inv (s : State) (x1 : ℕ) (x2 : ℕ × ℕ × List Word) (h : s.Inv) : (State.takeSet s x1 x2).Inv := by
  unfold State.takeSet
  simp (maxDischargeDepth := 100) [h]

@[simp] theorem State.takeSets_inv (s : State) (x1 : ℕ) (x2 : List (ℕ × ℕ × List Word)) (h : s.Inv) : (State.takeSets s x1 x2).Inv := by
  unfold State.takeSets
  simp +contextual (maxDischargeDepth := 100) [h]

@[simp] theorem State.recalStart_inv (s : State) (h : s.Inv) : (State.recalStart s).2.Inv := by
  unfold State.recalStart
  simp (maxDischargeDepth := 100) [h]

@[simp] theorem State.recalHalt_inv (s : State) (x1 : ℕ) (x2 : ℕ) (h : s.Inv) : (State.recalHalt s x1 x2).Inv := by
  unfold State.recalHalt
  simp (maxDischargeDepth := 100) [h]

@[simp] theorem State.startPage_inv (s : State) : (State.startPage s).Inv ↔ s.Inv := inv_of_parts (by simp) (by simp)

/-! ### Boot -/

@[simp] theorem State.takeProfile_frame (s : State) (x1 : ℕ) :
    (State.takeProfile s x1).clk = s.clk ∧ (State.takeProfile s x1).tofs = s.tofs ∧ (State.takeProfile s x1).dev = s.dev ∧
    (State.takeProfile s x1).mgmt = s.mgmt ∧ (State.takeProfile s x1).seq = s.seq ∧ (State.takeProfile s x1).edu = s.edu ∧
    (State.takeProfile s x1).rta = s.rta ∧ (State.takeProfile s x1).rpe = s.rpe ∧ (State.takeProfile s x1).stu = s.stu ∧
    (State.takeProfile s x1).saf = s.saf ∧ (State.takeProfile s x1).cap = s.cap ∧ (State.takeProfile s x1).fso = s.fso ∧
    (State.takeProfile s x1).cmp = s.cmp ∧ (State.takeProfile s x1).mem = s.mem ∧ (State.takeProfile s x1).lnk = s.lnk ∧
    (State.takeProfile s x1).tbu = s.tbu ∧ (State.takeProfile s x1).hk = s.hk ∧ (State.takeProfile s x1).boot = s.boot ∧
    (State.takeProfile s x1).out = s.out ∧ (State.takeProfile s x1).goodAt = s.goodAt ∧
    (State.takeProfile s x1).free = s.free ∧ (State.takeProfile s x1).pending = s.pending := by
  unfold State.takeProfile
  simp

@[simp] theorem State.seedRow_frame (s : State) (x1 : ℕ) :
    (State.seedRow s x1).clk = s.clk ∧ (State.seedRow s x1).tofs = s.tofs ∧ (State.seedRow s x1).dev = s.dev ∧
    (State.seedRow s x1).regs = s.regs ∧ (State.seedRow s x1).mgmt = s.mgmt ∧ (State.seedRow s x1).seq = s.seq ∧
    (State.seedRow s x1).edu = s.edu ∧ (State.seedRow s x1).rpe = s.rpe ∧ (State.seedRow s x1).stu = s.stu ∧
    (State.seedRow s x1).saf = s.saf ∧ (State.seedRow s x1).cap = s.cap ∧ (State.seedRow s x1).fso = s.fso ∧
    (State.seedRow s x1).cmp = s.cmp ∧ (State.seedRow s x1).mem = s.mem ∧ (State.seedRow s x1).lnk = s.lnk ∧
    (State.seedRow s x1).tbu = s.tbu ∧ (State.seedRow s x1).hk = s.hk ∧ (State.seedRow s x1).boot = s.boot ∧
    (State.seedRow s x1).out = s.out ∧ (State.seedRow s x1).goodAt = s.goodAt ∧ (State.seedRow s x1).free = s.free ∧
    (State.seedRow s x1).pending = s.pending := by
  unfold State.seedRow
  (repeat' (first | (split; rename_i heq; have h1 := congrArg Prod.fst heq; have h2 := congrArg Prod.snd heq; dsimp only at h1 h2; (try subst h1); (try subst h2)) | split)) <;> simp

@[simp] theorem State.seedOfs_frame (s : State) :
    (State.seedOfs s).clk = s.clk ∧ (State.seedOfs s).tofs = s.tofs ∧ (State.seedOfs s).dev = s.dev ∧
    (State.seedOfs s).regs = s.regs ∧ (State.seedOfs s).mgmt = s.mgmt ∧ (State.seedOfs s).seq = s.seq ∧
    (State.seedOfs s).edu = s.edu ∧ (State.seedOfs s).rpe = s.rpe ∧ (State.seedOfs s).stu = s.stu ∧
    (State.seedOfs s).saf = s.saf ∧ (State.seedOfs s).cap = s.cap ∧ (State.seedOfs s).fso = s.fso ∧
    (State.seedOfs s).cmp = s.cmp ∧ (State.seedOfs s).mem = s.mem ∧ (State.seedOfs s).lnk = s.lnk ∧
    (State.seedOfs s).tbu = s.tbu ∧ (State.seedOfs s).hk = s.hk ∧ (State.seedOfs s).boot = s.boot ∧
    (State.seedOfs s).out = s.out ∧ (State.seedOfs s).goodAt = s.goodAt ∧ (State.seedOfs s).free = s.free ∧
    (State.seedOfs s).pending = s.pending := by
  unfold State.seedOfs
  simp

@[simp] theorem State.riseReady_frame (s : State) :
    (State.riseReady s).clk = s.clk ∧ (State.riseReady s).tofs = s.tofs ∧ (State.riseReady s).seq = s.seq ∧
    (State.riseReady s).edu = s.edu ∧ (State.riseReady s).rta = s.rta ∧ (State.riseReady s).rpe = s.rpe ∧
    (State.riseReady s).stu = s.stu ∧ (State.riseReady s).cmp = s.cmp ∧ (State.riseReady s).mem = s.mem ∧
    (State.riseReady s).hk = s.hk ∧ (State.riseReady s).goodAt = s.goodAt ∧ (State.riseReady s).free = s.free ∧
    (State.riseReady s).pending = s.pending := by
  unfold State.riseReady
  simp

@[simp] theorem State.takeProfile_inv (s : State) (x1 : ℕ) (h : s.Inv) : (State.takeProfile s x1).Inv := by
  unfold State.takeProfile
  simp +contextual (maxDischargeDepth := 100) [h]

@[simp] theorem State.seedRow_inv (s : State) (x1 : ℕ) : (State.seedRow s x1).Inv ↔ s.Inv := inv_of_parts (by simp) (by simp)

@[simp] theorem State.seedOfs_inv (s : State) : (State.seedOfs s).Inv ↔ s.Inv := inv_of_parts (by simp) (by simp)

@[simp] theorem State.riseReady_inv (s : State) (h : s.Inv) : (State.riseReady s).Inv := by
  unfold State.riseReady
  simp (maxDischargeDepth := 100) [h]

/-! ### Security -/

@[simp] theorem State.nvmStart_frame (s : State) :
    (State.nvmStart s).2.clk = s.clk ∧ (State.nvmStart s).2.tofs = s.tofs ∧ (State.nvmStart s).2.dev = s.dev ∧
    (State.nvmStart s).2.seq = s.seq ∧ (State.nvmStart s).2.edu = s.edu ∧ (State.nvmStart s).2.rta = s.rta ∧
    (State.nvmStart s).2.rpe = s.rpe ∧ (State.nvmStart s).2.stu = s.stu ∧ (State.nvmStart s).2.saf = s.saf ∧
    (State.nvmStart s).2.cap = s.cap ∧ (State.nvmStart s).2.fso = s.fso ∧ (State.nvmStart s).2.cmp = s.cmp ∧
    (State.nvmStart s).2.mem = s.mem ∧ (State.nvmStart s).2.lnk = s.lnk ∧ (State.nvmStart s).2.tbu = s.tbu ∧
    (State.nvmStart s).2.hk = s.hk ∧ (State.nvmStart s).2.boot = s.boot ∧ (State.nvmStart s).2.out = s.out ∧
    (State.nvmStart s).2.goodAt = s.goodAt ∧ (State.nvmStart s).2.free = s.free ∧
    (State.nvmStart s).2.pending = s.pending := by
  unfold State.nvmStart
  simp

@[simp] theorem State.setNvmByte_frame (s : State) (x1 : ℕ) (x2 : Byte) :
    (State.setNvmByte s x1 x2).clk = s.clk ∧ (State.setNvmByte s x1 x2).tofs = s.tofs ∧
    (State.setNvmByte s x1 x2).dev = s.dev ∧ (State.setNvmByte s x1 x2).mgmt = s.mgmt ∧
    (State.setNvmByte s x1 x2).seq = s.seq ∧ (State.setNvmByte s x1 x2).edu = s.edu ∧
    (State.setNvmByte s x1 x2).rta = s.rta ∧ (State.setNvmByte s x1 x2).rpe = s.rpe ∧
    (State.setNvmByte s x1 x2).stu = s.stu ∧ (State.setNvmByte s x1 x2).saf = s.saf ∧
    (State.setNvmByte s x1 x2).cap = s.cap ∧ (State.setNvmByte s x1 x2).fso = s.fso ∧
    (State.setNvmByte s x1 x2).cmp = s.cmp ∧ (State.setNvmByte s x1 x2).mem = s.mem ∧
    (State.setNvmByte s x1 x2).lnk = s.lnk ∧ (State.setNvmByte s x1 x2).tbu = s.tbu ∧ (State.setNvmByte s x1 x2).hk = s.hk ∧
    (State.setNvmByte s x1 x2).boot = s.boot ∧ (State.setNvmByte s x1 x2).out = s.out ∧
    (State.setNvmByte s x1 x2).goodAt = s.goodAt ∧ (State.setNvmByte s x1 x2).free = s.free ∧
    (State.setNvmByte s x1 x2).pending = s.pending := by
  unfold State.setNvmByte
  simp

@[simp] theorem State.attestStart_frame (s : State) :
    (State.attestStart s).2.clk = s.clk ∧ (State.attestStart s).2.tofs = s.tofs ∧ (State.attestStart s).2.dev = s.dev ∧
    (State.attestStart s).2.seq = s.seq ∧ (State.attestStart s).2.edu = s.edu ∧ (State.attestStart s).2.rta = s.rta ∧
    (State.attestStart s).2.rpe = s.rpe ∧ (State.attestStart s).2.stu = s.stu ∧ (State.attestStart s).2.saf = s.saf ∧
    (State.attestStart s).2.cap = s.cap ∧ (State.attestStart s).2.fso = s.fso ∧ (State.attestStart s).2.cmp = s.cmp ∧
    (State.attestStart s).2.mem = s.mem ∧ (State.attestStart s).2.lnk = s.lnk ∧ (State.attestStart s).2.tbu = s.tbu ∧
    (State.attestStart s).2.hk = s.hk ∧ (State.attestStart s).2.boot = s.boot ∧ (State.attestStart s).2.out = s.out ∧
    (State.attestStart s).2.goodAt = s.goodAt ∧ (State.attestStart s).2.free = s.free ∧
    (State.attestStart s).2.pending = s.pending := by
  unfold State.attestStart
  simp

@[simp] theorem State.certNext_frame (s : State) :
    (State.certNext s).clk = s.clk ∧ (State.certNext s).tofs = s.tofs ∧ (State.certNext s).dev = s.dev ∧
    (State.certNext s).mgmt = s.mgmt ∧ (State.certNext s).seq = s.seq ∧ (State.certNext s).edu = s.edu ∧
    (State.certNext s).rta = s.rta ∧ (State.certNext s).rpe = s.rpe ∧ (State.certNext s).stu = s.stu ∧
    (State.certNext s).saf = s.saf ∧ (State.certNext s).cap = s.cap ∧ (State.certNext s).fso = s.fso ∧
    (State.certNext s).cmp = s.cmp ∧ (State.certNext s).mem = s.mem ∧ (State.certNext s).lnk = s.lnk ∧
    (State.certNext s).tbu = s.tbu ∧ (State.certNext s).hk = s.hk ∧ (State.certNext s).boot = s.boot ∧
    (State.certNext s).out = s.out ∧ (State.certNext s).goodAt = s.goodAt ∧ (State.certNext s).free = s.free ∧
    (State.certNext s).pending = s.pending := by
  unfold State.certNext
  simp

@[simp] theorem State.nvmStart_inv (s : State) (h : s.Inv) : (State.nvmStart s).2.Inv := by
  unfold State.nvmStart
  simp (maxDischargeDepth := 100) [h]

@[simp] theorem State.setNvmByte_inv (s : State) (x1 : ℕ) (x2 : Byte) (h : s.Inv) : (State.setNvmByte s x1 x2).Inv := by
  unfold State.setNvmByte
  simp (maxDischargeDepth := 100) [h]

@[simp] theorem State.attestStart_inv (s : State) (h : s.Inv) : (State.attestStart s).2.Inv := by
  unfold State.attestStart
  simp (maxDischargeDepth := 100) [h]

@[simp] theorem State.certNext_inv (s : State) (h : s.Inv) : (State.certNext s).Inv := by
  unfold State.certNext
  simp (maxDischargeDepth := 100) [h]

/-! ### Housekeeping -/

@[simp] theorem State.valOf_frame (s : State) (x1 : ℕ) (x2 : ℕ) :
    (State.valOf s x1 x2).2.clk = s.clk ∧ (State.valOf s x1 x2).2.tofs = s.tofs ∧ (State.valOf s x1 x2).2.dev = s.dev ∧
    (State.valOf s x1 x2).2.regs = s.regs ∧ (State.valOf s x1 x2).2.mgmt = s.mgmt ∧ (State.valOf s x1 x2).2.seq = s.seq ∧
    (State.valOf s x1 x2).2.edu = s.edu ∧ (State.valOf s x1 x2).2.rta = s.rta ∧ (State.valOf s x1 x2).2.rpe = s.rpe ∧
    (State.valOf s x1 x2).2.stu = s.stu ∧ (State.valOf s x1 x2).2.saf = s.saf ∧ (State.valOf s x1 x2).2.cap = s.cap ∧
    (State.valOf s x1 x2).2.fso = s.fso ∧ (State.valOf s x1 x2).2.cmp = s.cmp ∧ (State.valOf s x1 x2).2.mem = s.mem ∧
    (State.valOf s x1 x2).2.lnk = s.lnk ∧ (State.valOf s x1 x2).2.tbu = s.tbu ∧ (State.valOf s x1 x2).2.hk = s.hk ∧
    (State.valOf s x1 x2).2.boot = s.boot ∧ (State.valOf s x1 x2).2.out = s.out ∧
    (State.valOf s x1 x2).2.goodAt = s.goodAt ∧ (State.valOf s x1 x2).2.pending = s.pending := by
  unfold State.valOf
  simp

@[simp] theorem State.latchHk_frame (s : State) (x1 : ℕ) (x2 : ℕ) (x3 : Bool) :
    (State.latchHk s x1 x2 x3).clk = s.clk ∧ (State.latchHk s x1 x2 x3).tofs = s.tofs ∧
    (State.latchHk s x1 x2 x3).dev = s.dev ∧ (State.latchHk s x1 x2 x3).mgmt = s.mgmt ∧
    (State.latchHk s x1 x2 x3).seq = s.seq ∧ (State.latchHk s x1 x2 x3).edu = s.edu ∧
    (State.latchHk s x1 x2 x3).rta = s.rta ∧ (State.latchHk s x1 x2 x3).rpe = s.rpe ∧
    (State.latchHk s x1 x2 x3).stu = s.stu ∧ (State.latchHk s x1 x2 x3).saf = s.saf ∧
    (State.latchHk s x1 x2 x3).cap = s.cap ∧ (State.latchHk s x1 x2 x3).fso = s.fso ∧
    (State.latchHk s x1 x2 x3).cmp = s.cmp ∧ (State.latchHk s x1 x2 x3).mem = s.mem ∧
    (State.latchHk s x1 x2 x3).lnk = s.lnk ∧ (State.latchHk s x1 x2 x3).tbu = s.tbu ∧ (State.latchHk s x1 x2 x3).hk = s.hk ∧
    (State.latchHk s x1 x2 x3).boot = s.boot ∧ (State.latchHk s x1 x2 x3).out = s.out ∧
    (State.latchHk s x1 x2 x3).goodAt = s.goodAt ∧ (State.latchHk s x1 x2 x3).pending = s.pending := by
  unfold State.latchHk
  simp

@[simp] theorem State.diodeRecover_frame (s : State) :
    (State.diodeRecover s).clk = s.clk ∧ (State.diodeRecover s).tofs = s.tofs ∧ (State.diodeRecover s).dev = s.dev ∧
    (State.diodeRecover s).seq = s.seq ∧ (State.diodeRecover s).rta = s.rta ∧ (State.diodeRecover s).rpe = s.rpe ∧
    (State.diodeRecover s).stu = s.stu ∧ (State.diodeRecover s).fso = s.fso ∧ (State.diodeRecover s).cmp = s.cmp ∧
    (State.diodeRecover s).mem = s.mem ∧ (State.diodeRecover s).tbu = s.tbu ∧ (State.diodeRecover s).hk = s.hk ∧
    (State.diodeRecover s).boot = s.boot ∧ (State.diodeRecover s).goodAt = s.goodAt ∧ (State.diodeRecover s).free = s.free ∧
    (State.diodeRecover s).pending = s.pending := by
  unfold State.diodeRecover
  simp

@[simp] theorem State.noteDiode_frame (s : State) (x1 : ℕ) (x2 : ℕ) :
    (State.noteDiode s x1 x2).clk = s.clk ∧ (State.noteDiode s x1 x2).tofs = s.tofs ∧
    (State.noteDiode s x1 x2).dev = s.dev ∧ (State.noteDiode s x1 x2).seq = s.seq ∧ (State.noteDiode s x1 x2).rta = s.rta ∧
    (State.noteDiode s x1 x2).rpe = s.rpe ∧ (State.noteDiode s x1 x2).stu = s.stu ∧ (State.noteDiode s x1 x2).fso = s.fso ∧
    (State.noteDiode s x1 x2).cmp = s.cmp ∧ (State.noteDiode s x1 x2).mem = s.mem ∧ (State.noteDiode s x1 x2).tbu = s.tbu ∧
    (State.noteDiode s x1 x2).hk = s.hk ∧ (State.noteDiode s x1 x2).boot = s.boot ∧
    (State.noteDiode s x1 x2).goodAt = s.goodAt ∧ (State.noteDiode s x1 x2).free = s.free ∧
    (State.noteDiode s x1 x2).pending = s.pending := by
  unfold State.noteDiode
  simp

@[simp] theorem State.roundCharge_frame (s : State) :
    (State.roundCharge s).clk = s.clk ∧ (State.roundCharge s).tofs = s.tofs ∧ (State.roundCharge s).dev = s.dev ∧
    (State.roundCharge s).seq = s.seq ∧ (State.roundCharge s).rta = s.rta ∧ (State.roundCharge s).rpe = s.rpe ∧
    (State.roundCharge s).stu = s.stu ∧ (State.roundCharge s).fso = s.fso ∧ (State.roundCharge s).cmp = s.cmp ∧
    (State.roundCharge s).mem = s.mem ∧ (State.roundCharge s).tbu = s.tbu ∧ (State.roundCharge s).hk = s.hk ∧
    (State.roundCharge s).boot = s.boot ∧ (State.roundCharge s).goodAt = s.goodAt ∧ (State.roundCharge s).free = s.free ∧
    (State.roundCharge s).pending = s.pending := by
  unfold State.roundCharge
  simp

@[simp] theorem State.roundTemp_frame (s : State) :
    (State.roundTemp s).clk = s.clk ∧ (State.roundTemp s).tofs = s.tofs ∧ (State.roundTemp s).dev = s.dev ∧
    (State.roundTemp s).seq = s.seq ∧ (State.roundTemp s).edu = s.edu ∧ (State.roundTemp s).rta = s.rta ∧
    (State.roundTemp s).rpe = s.rpe ∧ (State.roundTemp s).stu = s.stu ∧ (State.roundTemp s).cap = s.cap ∧
    (State.roundTemp s).fso = s.fso ∧ (State.roundTemp s).cmp = s.cmp ∧ (State.roundTemp s).mem = s.mem ∧
    (State.roundTemp s).tbu = s.tbu ∧ (State.roundTemp s).hk = s.hk ∧ (State.roundTemp s).boot = s.boot ∧
    (State.roundTemp s).goodAt = s.goodAt ∧ (State.roundTemp s).pending = s.pending := by
  unfold State.roundTemp
  simp

@[simp] theorem State.roundSupply_frame (s : State) (x1 : ℕ) :
    (State.roundSupply s x1).clk = s.clk ∧ (State.roundSupply s x1).tofs = s.tofs ∧ (State.roundSupply s x1).dev = s.dev ∧
    (State.roundSupply s x1).seq = s.seq ∧ (State.roundSupply s x1).edu = s.edu ∧ (State.roundSupply s x1).rta = s.rta ∧
    (State.roundSupply s x1).rpe = s.rpe ∧ (State.roundSupply s x1).stu = s.stu ∧ (State.roundSupply s x1).cap = s.cap ∧
    (State.roundSupply s x1).fso = s.fso ∧ (State.roundSupply s x1).cmp = s.cmp ∧ (State.roundSupply s x1).mem = s.mem ∧
    (State.roundSupply s x1).tbu = s.tbu ∧ (State.roundSupply s x1).boot = s.boot ∧
    (State.roundSupply s x1).goodAt = s.goodAt ∧ (State.roundSupply s x1).free = s.free ∧
    (State.roundSupply s x1).pending = s.pending := by
  unfold State.roundSupply
  simp

@[simp] theorem State.roundBias_frame (s : State) :
    (State.roundBias s).clk = s.clk ∧ (State.roundBias s).tofs = s.tofs ∧ (State.roundBias s).dev = s.dev ∧
    (State.roundBias s).mgmt = s.mgmt ∧ (State.roundBias s).seq = s.seq ∧ (State.roundBias s).edu = s.edu ∧
    (State.roundBias s).rta = s.rta ∧ (State.roundBias s).rpe = s.rpe ∧ (State.roundBias s).stu = s.stu ∧
    (State.roundBias s).saf = s.saf ∧ (State.roundBias s).cap = s.cap ∧ (State.roundBias s).fso = s.fso ∧
    (State.roundBias s).cmp = s.cmp ∧ (State.roundBias s).mem = s.mem ∧ (State.roundBias s).lnk = s.lnk ∧
    (State.roundBias s).tbu = s.tbu ∧ (State.roundBias s).hk = s.hk ∧ (State.roundBias s).boot = s.boot ∧
    (State.roundBias s).out = s.out ∧ (State.roundBias s).goodAt = s.goodAt ∧ (State.roundBias s).pending = s.pending := by
  unfold State.roundBias
  simp

@[simp] theorem State.roundEnd_frame (s : State) :
    (State.roundEnd s).clk = s.clk ∧ (State.roundEnd s).tofs = s.tofs ∧ (State.roundEnd s).dev = s.dev ∧
    (State.roundEnd s).seq = s.seq ∧ (State.roundEnd s).rta = s.rta ∧ (State.roundEnd s).rpe = s.rpe ∧
    (State.roundEnd s).stu = s.stu ∧ (State.roundEnd s).fso = s.fso ∧ (State.roundEnd s).cmp = s.cmp ∧
    (State.roundEnd s).mem = s.mem ∧ (State.roundEnd s).tbu = s.tbu ∧ (State.roundEnd s).boot = s.boot ∧
    (State.roundEnd s).goodAt = s.goodAt ∧ (State.roundEnd s).pending = s.pending := by
  unfold State.roundEnd
  simp

@[simp] theorem State.copyProfile_frame (s : State) (x1 : ℕ) :
    (State.copyProfile s x1).clk = s.clk ∧ (State.copyProfile s x1).tofs = s.tofs ∧ (State.copyProfile s x1).dev = s.dev ∧
    (State.copyProfile s x1).regs = s.regs ∧ (State.copyProfile s x1).mgmt = s.mgmt ∧ (State.copyProfile s x1).edu = s.edu ∧
    (State.copyProfile s x1).rta = s.rta ∧ (State.copyProfile s x1).rpe = s.rpe ∧ (State.copyProfile s x1).stu = s.stu ∧
    (State.copyProfile s x1).saf = s.saf ∧ (State.copyProfile s x1).cap = s.cap ∧ (State.copyProfile s x1).fso = s.fso ∧
    (State.copyProfile s x1).cmp = s.cmp ∧ (State.copyProfile s x1).mem = s.mem ∧ (State.copyProfile s x1).lnk = s.lnk ∧
    (State.copyProfile s x1).tbu = s.tbu ∧ (State.copyProfile s x1).hk = s.hk ∧ (State.copyProfile s x1).boot = s.boot ∧
    (State.copyProfile s x1).out = s.out ∧ (State.copyProfile s x1).goodAt = s.goodAt ∧
    (State.copyProfile s x1).free = s.free ∧ (State.copyProfile s x1).pending = s.pending := by
  unfold State.copyProfile
  (repeat' (first | (split; rename_i heq; have h1 := congrArg Prod.fst heq; have h2 := congrArg Prod.snd heq; dsimp only at h1 h2; (try subst h1); (try subst h2)) | split)) <;> simp

@[simp] theorem State.ungate_frame (s : State) (x1 : ℕ) :
    (State.ungate s x1).clk = s.clk ∧ (State.ungate s x1).tofs = s.tofs ∧ (State.ungate s x1).dev = s.dev ∧
    (State.ungate s x1).mgmt = s.mgmt ∧ (State.ungate s x1).seq = s.seq ∧ (State.ungate s x1).edu = s.edu ∧
    (State.ungate s x1).rta = s.rta ∧ (State.ungate s x1).rpe = s.rpe ∧ (State.ungate s x1).stu = s.stu ∧
    (State.ungate s x1).saf = s.saf ∧ (State.ungate s x1).cap = s.cap ∧ (State.ungate s x1).fso = s.fso ∧
    (State.ungate s x1).cmp = s.cmp ∧ (State.ungate s x1).mem = s.mem ∧ (State.ungate s x1).lnk = s.lnk ∧
    (State.ungate s x1).tbu = s.tbu ∧ (State.ungate s x1).hk = s.hk ∧ (State.ungate s x1).boot = s.boot ∧
    (State.ungate s x1).out = s.out ∧ (State.ungate s x1).goodAt = s.goodAt ∧ (State.ungate s x1).free = s.free ∧
    (State.ungate s x1).pending = s.pending := by
  unfold State.ungate
  simp

@[simp] theorem State.profileStart_frame (s : State) :
    (State.profileStart s).2.clk = s.clk ∧ (State.profileStart s).2.tofs = s.tofs ∧ (State.profileStart s).2.dev = s.dev ∧
    (State.profileStart s).2.edu = s.edu ∧ (State.profileStart s).2.rta = s.rta ∧ (State.profileStart s).2.rpe = s.rpe ∧
    (State.profileStart s).2.stu = s.stu ∧ (State.profileStart s).2.saf = s.saf ∧ (State.profileStart s).2.cap = s.cap ∧
    (State.profileStart s).2.fso = s.fso ∧ (State.profileStart s).2.cmp = s.cmp ∧ (State.profileStart s).2.mem = s.mem ∧
    (State.profileStart s).2.lnk = s.lnk ∧ (State.profileStart s).2.tbu = s.tbu ∧ (State.profileStart s).2.hk = s.hk ∧
    (State.profileStart s).2.boot = s.boot ∧ (State.profileStart s).2.out = s.out ∧
    (State.profileStart s).2.goodAt = s.goodAt ∧ (State.profileStart s).2.free = s.free ∧
    (State.profileStart s).2.pending = s.pending := by
  unfold State.profileStart
  simp

@[simp] theorem State.profileSwitch_frame (s : State) (x1 : ℕ) :
    (State.profileSwitch s x1).clk = s.clk ∧ (State.profileSwitch s x1).tofs = s.tofs ∧
    (State.profileSwitch s x1).dev = s.dev ∧ (State.profileSwitch s x1).stu = s.stu ∧
    (State.profileSwitch s x1).fso = s.fso ∧ (State.profileSwitch s x1).cmp = s.cmp ∧
    (State.profileSwitch s x1).mem = s.mem ∧ (State.profileSwitch s x1).tbu = s.tbu ∧ (State.profileSwitch s x1).hk = s.hk ∧
    (State.profileSwitch s x1).boot = s.boot ∧ (State.profileSwitch s x1).goodAt = s.goodAt ∧
    (State.profileSwitch s x1).free = s.free ∧ (State.profileSwitch s x1).pending = s.pending := by
  unfold State.profileSwitch
  simp

@[simp] theorem State.valOf_inv (s : State) (x1 : ℕ) (x2 : ℕ) : (State.valOf s x1 x2).2.Inv ↔ s.Inv := inv_of_parts (by simp) (by simp)

@[simp] theorem State.latchHk_inv (s : State) (x1 : ℕ) (x2 : ℕ) (x3 : Bool) (h : s.Inv) : (State.latchHk s x1 x2 x3).Inv := by
  unfold State.latchHk
  simp (maxDischargeDepth := 100) [h]

@[simp] theorem State.diodeRecover_inv (s : State) (h : s.Inv) : (State.diodeRecover s).Inv := by
  unfold State.diodeRecover
  simp (maxDischargeDepth := 100) [h]

@[simp] theorem State.noteDiode_inv (s : State) (x1 : ℕ) (x2 : ℕ) (h : s.Inv) : (State.noteDiode s x1 x2).Inv := by
  unfold State.noteDiode
  simp (maxDischargeDepth := 100) [h]

@[simp] theorem State.roundCharge_inv (s : State) (h : s.Inv) : (State.roundCharge s).Inv := by
  unfold State.roundCharge
  simp (maxDischargeDepth := 100) [h]

@[simp] theorem State.roundTemp_inv (s : State) (h : s.Inv) : (State.roundTemp s).Inv := by
  unfold State.roundTemp
  simp (maxDischargeDepth := 100) [h]

@[simp] theorem State.roundSupply_inv (s : State) (x1 : ℕ) (h : s.Inv) : (State.roundSupply s x1).Inv := by
  unfold State.roundSupply
  simp (maxDischargeDepth := 100) [h]

@[simp] theorem State.roundBias_inv (s : State) (h : s.Inv) : (State.roundBias s).Inv := by
  unfold State.roundBias
  simp (maxDischargeDepth := 100) [h]

@[simp] theorem State.roundEnd_inv (s : State) (h : s.Inv) : (State.roundEnd s).Inv := by
  unfold State.roundEnd
  simp +contextual (maxDischargeDepth := 100) [h]

@[simp] theorem State.copyProfile_inv (s : State) (x1 : ℕ) : (State.copyProfile s x1).Inv ↔ s.Inv := inv_of_parts (by simp) (by simp)

@[simp] theorem State.ungate_inv (s : State) (x1 : ℕ) (h : s.Inv) : (State.ungate s x1).Inv := by
  unfold State.ungate
  simp +contextual (maxDischargeDepth := 100) [h]

@[simp] theorem State.profileStart_inv (s : State) (h : s.Inv) : (State.profileStart s).2.Inv := by
  unfold State.profileStart
  simp (maxDischargeDepth := 100) [h]

@[simp] theorem State.profileSwitch_inv (s : State) (x1 : ℕ) (h : s.Inv) : (State.profileSwitch s x1).Inv := by
  unfold State.profileSwitch
  simp (maxDischargeDepth := 100) [h]

/-! ### HostPort -/

@[simp] theorem State.latchShadow_frame (s : State) (x1 : List (ℕ × Word)) :
    (State.latchShadow s x1).clk = s.clk ∧ (State.latchShadow s x1).tofs = s.tofs ∧ (State.latchShadow s x1).dev = s.dev ∧
    (State.latchShadow s x1).regs = s.regs ∧ (State.latchShadow s x1).seq = s.seq ∧ (State.latchShadow s x1).edu = s.edu ∧
    (State.latchShadow s x1).rta = s.rta ∧ (State.latchShadow s x1).rpe = s.rpe ∧ (State.latchShadow s x1).stu = s.stu ∧
    (State.latchShadow s x1).saf = s.saf ∧ (State.latchShadow s x1).cap = s.cap ∧ (State.latchShadow s x1).fso = s.fso ∧
    (State.latchShadow s x1).cmp = s.cmp ∧ (State.latchShadow s x1).mem = s.mem ∧ (State.latchShadow s x1).lnk = s.lnk ∧
    (State.latchShadow s x1).tbu = s.tbu ∧ (State.latchShadow s x1).hk = s.hk ∧ (State.latchShadow s x1).boot = s.boot ∧
    (State.latchShadow s x1).out = s.out ∧ (State.latchShadow s x1).goodAt = s.goodAt ∧
    (State.latchShadow s x1).free = s.free ∧ (State.latchShadow s x1).pending = s.pending := by
  unfold State.latchShadow
  simp

@[simp] theorem State.dropStaged_frame (s : State) (x1 : ℕ × ℕ) :
    (State.dropStaged s x1).clk = s.clk ∧ (State.dropStaged s x1).tofs = s.tofs ∧ (State.dropStaged s x1).dev = s.dev ∧
    (State.dropStaged s x1).regs = s.regs ∧ (State.dropStaged s x1).seq = s.seq ∧ (State.dropStaged s x1).edu = s.edu ∧
    (State.dropStaged s x1).rta = s.rta ∧ (State.dropStaged s x1).rpe = s.rpe ∧ (State.dropStaged s x1).stu = s.stu ∧
    (State.dropStaged s x1).saf = s.saf ∧ (State.dropStaged s x1).cap = s.cap ∧ (State.dropStaged s x1).fso = s.fso ∧
    (State.dropStaged s x1).cmp = s.cmp ∧ (State.dropStaged s x1).mem = s.mem ∧ (State.dropStaged s x1).lnk = s.lnk ∧
    (State.dropStaged s x1).tbu = s.tbu ∧ (State.dropStaged s x1).hk = s.hk ∧ (State.dropStaged s x1).boot = s.boot ∧
    (State.dropStaged s x1).out = s.out ∧ (State.dropStaged s x1).goodAt = s.goodAt ∧
    (State.dropStaged s x1).free = s.free ∧ (State.dropStaged s x1).pending = s.pending := by
  unfold State.dropStaged
  simp

@[simp] theorem State.readEvq_frame (s : State) :
    (State.readEvq s).2.clk = s.clk ∧ (State.readEvq s).2.tofs = s.tofs ∧ (State.readEvq s).2.dev = s.dev ∧
    (State.readEvq s).2.regs = s.regs ∧ (State.readEvq s).2.seq = s.seq ∧ (State.readEvq s).2.edu = s.edu ∧
    (State.readEvq s).2.rta = s.rta ∧ (State.readEvq s).2.rpe = s.rpe ∧ (State.readEvq s).2.stu = s.stu ∧
    (State.readEvq s).2.saf = s.saf ∧ (State.readEvq s).2.cap = s.cap ∧ (State.readEvq s).2.fso = s.fso ∧
    (State.readEvq s).2.cmp = s.cmp ∧ (State.readEvq s).2.mem = s.mem ∧ (State.readEvq s).2.lnk = s.lnk ∧
    (State.readEvq s).2.tbu = s.tbu ∧ (State.readEvq s).2.hk = s.hk ∧ (State.readEvq s).2.boot = s.boot ∧
    (State.readEvq s).2.out = s.out ∧ (State.readEvq s).2.goodAt = s.goodAt ∧ (State.readEvq s).2.free = s.free ∧
    (State.readEvq s).2.pending = s.pending := by
  unfold State.readEvq
  (repeat' (first | (split; rename_i heq; have h1 := congrArg Prod.fst heq; have h2 := congrArg Prod.snd heq; dsimp only at h1 h2; (try subst h1); (try subst h2)) | split)) <;> simp

@[simp] theorem State.readCap_frame (s : State) (x1 : List MemHit) :
    (State.readCap s x1).2.clk = s.clk ∧ (State.readCap s x1).2.tofs = s.tofs ∧ (State.readCap s x1).2.dev = s.dev ∧
    (State.readCap s x1).2.seq = s.seq ∧ (State.readCap s x1).2.edu = s.edu ∧ (State.readCap s x1).2.rta = s.rta ∧
    (State.readCap s x1).2.rpe = s.rpe ∧ (State.readCap s x1).2.stu = s.stu ∧ (State.readCap s x1).2.fso = s.fso ∧
    (State.readCap s x1).2.cmp = s.cmp ∧ (State.readCap s x1).2.tbu = s.tbu ∧ (State.readCap s x1).2.hk = s.hk ∧
    (State.readCap s x1).2.boot = s.boot ∧ (State.readCap s x1).2.goodAt = s.goodAt ∧
    (State.readCap s x1).2.pending = s.pending := by
  unfold State.readCap
  simp

@[simp] theorem State.clearRc_frame (s : State) (x1 : ℕ) (x2 : List FieldDesc) :
    (State.clearRc s x1 x2).clk = s.clk ∧ (State.clearRc s x1 x2).tofs = s.tofs ∧ (State.clearRc s x1 x2).dev = s.dev ∧
    (State.clearRc s x1 x2).mgmt = s.mgmt ∧ (State.clearRc s x1 x2).seq = s.seq ∧ (State.clearRc s x1 x2).edu = s.edu ∧
    (State.clearRc s x1 x2).rta = s.rta ∧ (State.clearRc s x1 x2).rpe = s.rpe ∧ (State.clearRc s x1 x2).stu = s.stu ∧
    (State.clearRc s x1 x2).saf = s.saf ∧ (State.clearRc s x1 x2).cap = s.cap ∧ (State.clearRc s x1 x2).fso = s.fso ∧
    (State.clearRc s x1 x2).cmp = s.cmp ∧ (State.clearRc s x1 x2).mem = s.mem ∧ (State.clearRc s x1 x2).lnk = s.lnk ∧
    (State.clearRc s x1 x2).tbu = s.tbu ∧ (State.clearRc s x1 x2).hk = s.hk ∧ (State.clearRc s x1 x2).boot = s.boot ∧
    (State.clearRc s x1 x2).out = s.out ∧ (State.clearRc s x1 x2).goodAt = s.goodAt ∧
    (State.clearRc s x1 x2).free = s.free ∧ (State.clearRc s x1 x2).pending = s.pending := by
  unfold State.clearRc
  simp

@[simp] theorem State.readReg_frame (s : State) (x1 : ℕ) (x2 : List FieldDesc) (x3 : List MemHit) :
    (State.readReg s x1 x2 x3).2.clk = s.clk ∧ (State.readReg s x1 x2 x3).2.tofs = s.tofs ∧
    (State.readReg s x1 x2 x3).2.dev = s.dev ∧ (State.readReg s x1 x2 x3).2.seq = s.seq ∧
    (State.readReg s x1 x2 x3).2.edu = s.edu ∧ (State.readReg s x1 x2 x3).2.rta = s.rta ∧
    (State.readReg s x1 x2 x3).2.rpe = s.rpe ∧ (State.readReg s x1 x2 x3).2.stu = s.stu ∧
    (State.readReg s x1 x2 x3).2.fso = s.fso ∧ (State.readReg s x1 x2 x3).2.cmp = s.cmp ∧
    (State.readReg s x1 x2 x3).2.tbu = s.tbu ∧ (State.readReg s x1 x2 x3).2.hk = s.hk ∧
    (State.readReg s x1 x2 x3).2.boot = s.boot ∧ (State.readReg s x1 x2 x3).2.goodAt = s.goodAt ∧
    (State.readReg s x1 x2 x3).2.pending = s.pending := by
  unfold State.readReg
  (repeat' (first | (split; rename_i heq; have h1 := congrArg Prod.fst heq; have h2 := congrArg Prod.snd heq; dsimp only at h1 h2; (try subst h1); (try subst h2)) | split)) <;> simp

@[simp] theorem State.poke_frame (s : State) (x1 : ℕ) (x2 : Word) :
    (State.poke s x1 x2).clk = s.clk ∧ (State.poke s x1 x2).tofs = s.tofs ∧ (State.poke s x1 x2).dev = s.dev ∧
    (State.poke s x1 x2).seq = s.seq ∧ (State.poke s x1 x2).edu = s.edu ∧ (State.poke s x1 x2).rta = s.rta ∧
    (State.poke s x1 x2).rpe = s.rpe ∧ (State.poke s x1 x2).stu = s.stu ∧ (State.poke s x1 x2).saf = s.saf ∧
    (State.poke s x1 x2).cap = s.cap ∧ (State.poke s x1 x2).fso = s.fso ∧ (State.poke s x1 x2).cmp = s.cmp ∧
    (State.poke s x1 x2).mem = s.mem ∧ (State.poke s x1 x2).lnk = s.lnk ∧ (State.poke s x1 x2).tbu = s.tbu ∧
    (State.poke s x1 x2).hk = s.hk ∧ (State.poke s x1 x2).boot = s.boot ∧ (State.poke s x1 x2).out = s.out ∧
    (State.poke s x1 x2).goodAt = s.goodAt ∧ (State.poke s x1 x2).free = s.free ∧
    (State.poke s x1 x2).pending = s.pending := by
  unfold State.poke
  (repeat' (first | (split; rename_i heq; have h1 := congrArg Prod.fst heq; have h2 := congrArg Prod.snd heq; dsimp only at h1 h2; (try subst h1); (try subst h2)) | split)) <;> simp

@[simp] theorem State.writePcfg_frame (s : State) (x1 : State) (x2 : ℕ) (x3 : ℕ) :
    (x1.clk = s.clk → (State.writePcfg s x1 x2 x3).2.clk = s.clk) ∧
    (x1.tofs = s.tofs → (State.writePcfg s x1 x2 x3).2.tofs = s.tofs) ∧
    (x1.dev = s.dev → (State.writePcfg s x1 x2 x3).2.dev = s.dev) ∧
    (x1.mgmt = s.mgmt → (State.writePcfg s x1 x2 x3).2.mgmt = s.mgmt) ∧
    (x1.seq = s.seq → (State.writePcfg s x1 x2 x3).2.seq = s.seq) ∧
    (x1.edu = s.edu → (State.writePcfg s x1 x2 x3).2.edu = s.edu) ∧
    (x1.rpe = s.rpe → (State.writePcfg s x1 x2 x3).2.rpe = s.rpe) ∧
    (x1.stu = s.stu → (State.writePcfg s x1 x2 x3).2.stu = s.stu) ∧
    (x1.saf = s.saf → (State.writePcfg s x1 x2 x3).2.saf = s.saf) ∧
    (x1.cap = s.cap → (State.writePcfg s x1 x2 x3).2.cap = s.cap) ∧
    (x1.fso = s.fso → (State.writePcfg s x1 x2 x3).2.fso = s.fso) ∧
    (x1.cmp = s.cmp → (State.writePcfg s x1 x2 x3).2.cmp = s.cmp) ∧
    (x1.mem = s.mem → (State.writePcfg s x1 x2 x3).2.mem = s.mem) ∧
    (x1.lnk = s.lnk → (State.writePcfg s x1 x2 x3).2.lnk = s.lnk) ∧
    (x1.tbu = s.tbu → (State.writePcfg s x1 x2 x3).2.tbu = s.tbu) ∧
    (x1.hk = s.hk → (State.writePcfg s x1 x2 x3).2.hk = s.hk) ∧
    (x1.boot = s.boot → (State.writePcfg s x1 x2 x3).2.boot = s.boot) ∧
    (x1.out = s.out → (State.writePcfg s x1 x2 x3).2.out = s.out) ∧
    (x1.goodAt = s.goodAt → (State.writePcfg s x1 x2 x3).2.goodAt = s.goodAt) ∧
    (x1.free = s.free → (State.writePcfg s x1 x2 x3).2.free = s.free) ∧
    (x1.pending = s.pending → (State.writePcfg s x1 x2 x3).2.pending = s.pending) := by
  unfold State.writePcfg
  (repeat' (first | (split; rename_i heq; have h1 := congrArg Prod.fst heq; have h2 := congrArg Prod.snd heq; dsimp only at h1 h2; (try subst h1); (try subst h2)) | split)) <;> simp +contextual

@[simp] theorem State.writeSpare_frame (s : State) (x1 : ℕ) (x2 : Word) :
    (State.writeSpare s x1 x2).2.clk = s.clk ∧ (State.writeSpare s x1 x2).2.tofs = s.tofs ∧
    (State.writeSpare s x1 x2).2.dev = s.dev ∧ (State.writeSpare s x1 x2).2.seq = s.seq ∧
    (State.writeSpare s x1 x2).2.edu = s.edu ∧ (State.writeSpare s x1 x2).2.stu = s.stu ∧
    (State.writeSpare s x1 x2).2.fso = s.fso ∧ (State.writeSpare s x1 x2).2.cmp = s.cmp ∧
    (State.writeSpare s x1 x2).2.mem = s.mem ∧ (State.writeSpare s x1 x2).2.tbu = s.tbu ∧
    (State.writeSpare s x1 x2).2.hk = s.hk ∧ (State.writeSpare s x1 x2).2.boot = s.boot ∧
    (State.writeSpare s x1 x2).2.goodAt = s.goodAt ∧ (State.writeSpare s x1 x2).2.free = s.free ∧
    (State.writeSpare s x1 x2).2.pending = s.pending := by
  unfold State.writeSpare
  simp

@[simp] theorem State.writeAir_frame (s : State) (x1 : State) :
    (x1.clk = s.clk → (State.writeAir s x1).2.clk = s.clk) ∧ (x1.tofs = s.tofs → (State.writeAir s x1).2.tofs = s.tofs) ∧
    (x1.dev = s.dev → (State.writeAir s x1).2.dev = s.dev) ∧ (x1.mgmt = s.mgmt → (State.writeAir s x1).2.mgmt = s.mgmt) ∧
    (x1.seq = s.seq → (State.writeAir s x1).2.seq = s.seq) ∧ (x1.edu = s.edu → (State.writeAir s x1).2.edu = s.edu) ∧
    (x1.rta = s.rta → (State.writeAir s x1).2.rta = s.rta) ∧ (x1.rpe = s.rpe → (State.writeAir s x1).2.rpe = s.rpe) ∧
    (x1.stu = s.stu → (State.writeAir s x1).2.stu = s.stu) ∧ (x1.saf = s.saf → (State.writeAir s x1).2.saf = s.saf) ∧
    (x1.cap = s.cap → (State.writeAir s x1).2.cap = s.cap) ∧ (x1.fso = s.fso → (State.writeAir s x1).2.fso = s.fso) ∧
    (x1.cmp = s.cmp → (State.writeAir s x1).2.cmp = s.cmp) ∧ (x1.mem = s.mem → (State.writeAir s x1).2.mem = s.mem) ∧
    (x1.lnk = s.lnk → (State.writeAir s x1).2.lnk = s.lnk) ∧ (x1.tbu = s.tbu → (State.writeAir s x1).2.tbu = s.tbu) ∧
    (x1.hk = s.hk → (State.writeAir s x1).2.hk = s.hk) ∧ (x1.boot = s.boot → (State.writeAir s x1).2.boot = s.boot) ∧
    (x1.out = s.out → (State.writeAir s x1).2.out = s.out) ∧
    (x1.goodAt = s.goodAt → (State.writeAir s x1).2.goodAt = s.goodAt) ∧
    (x1.free = s.free → (State.writeAir s x1).2.free = s.free) ∧
    (x1.pending = s.pending → (State.writeAir s x1).2.pending = s.pending) := by
  unfold State.writeAir
  (repeat' (first | (split; rename_i heq; have h1 := congrArg Prod.fst heq; have h2 := congrArg Prod.snd heq; dsimp only at h1 h2; (try subst h1); (try subst h2)) | split)) <;> simp +contextual

@[simp] theorem State.writeFcfg_frame (s : State) (x1 : State) (x2 : ℕ) :
    (x1.clk = s.clk → (State.writeFcfg s x1 x2).2.clk = s.clk) ∧
    (x1.tofs = s.tofs → (State.writeFcfg s x1 x2).2.tofs = s.tofs) ∧
    (x1.dev = s.dev → (State.writeFcfg s x1 x2).2.dev = s.dev) ∧
    (x1.regs = s.regs → (State.writeFcfg s x1 x2).2.regs = s.regs) ∧
    (x1.mgmt = s.mgmt → (State.writeFcfg s x1 x2).2.mgmt = s.mgmt) ∧
    (x1.seq = s.seq → (State.writeFcfg s x1 x2).2.seq = s.seq) ∧
    (x1.edu = s.edu → (State.writeFcfg s x1 x2).2.edu = s.edu) ∧
    (x1.rpe = s.rpe → (State.writeFcfg s x1 x2).2.rpe = s.rpe) ∧
    (x1.stu = s.stu → (State.writeFcfg s x1 x2).2.stu = s.stu) ∧
    (x1.saf = s.saf → (State.writeFcfg s x1 x2).2.saf = s.saf) ∧
    (x1.cap = s.cap → (State.writeFcfg s x1 x2).2.cap = s.cap) ∧
    (x1.fso = s.fso → (State.writeFcfg s x1 x2).2.fso = s.fso) ∧
    (x1.cmp = s.cmp → (State.writeFcfg s x1 x2).2.cmp = s.cmp) ∧
    (x1.mem = s.mem → (State.writeFcfg s x1 x2).2.mem = s.mem) ∧
    (x1.lnk = s.lnk → (State.writeFcfg s x1 x2).2.lnk = s.lnk) ∧
    (x1.tbu = s.tbu → (State.writeFcfg s x1 x2).2.tbu = s.tbu) ∧ (x1.hk = s.hk → (State.writeFcfg s x1 x2).2.hk = s.hk) ∧
    (x1.boot = s.boot → (State.writeFcfg s x1 x2).2.boot = s.boot) ∧
    (x1.out = s.out → (State.writeFcfg s x1 x2).2.out = s.out) ∧
    (x1.goodAt = s.goodAt → (State.writeFcfg s x1 x2).2.goodAt = s.goodAt) ∧
    (x1.free = s.free → (State.writeFcfg s x1 x2).2.free = s.free) ∧
    (x1.pending = s.pending → (State.writeFcfg s x1 x2).2.pending = s.pending) := by
  unfold State.writeFcfg
  (repeat' (first | (split; rename_i heq; have h1 := congrArg Prod.fst heq; have h2 := congrArg Prod.snd heq; dsimp only at h1 h2; (try subst h1); (try subst h2)) | split)) <;> simp +contextual

@[simp] theorem State.writeRta_frame (s : State) (x1 : State) (x2 : ℕ) (x3 : Word) :
    (x1.clk = s.clk → (State.writeRta s x1 x2 x3).2.clk = s.clk) ∧
    (x1.tofs = s.tofs → (State.writeRta s x1 x2 x3).2.tofs = s.tofs) ∧
    (x1.dev = s.dev → (State.writeRta s x1 x2 x3).2.dev = s.dev) ∧
    (x1.seq = s.seq → (State.writeRta s x1 x2 x3).2.seq = s.seq) ∧
    (x1.edu = s.edu → (State.writeRta s x1 x2 x3).2.edu = s.edu) ∧
    (x1.stu = s.stu → (State.writeRta s x1 x2 x3).2.stu = s.stu) ∧
    (x1.fso = s.fso → (State.writeRta s x1 x2 x3).2.fso = s.fso) ∧
    (x1.cmp = s.cmp → (State.writeRta s x1 x2 x3).2.cmp = s.cmp) ∧
    (x1.mem = s.mem → (State.writeRta s x1 x2 x3).2.mem = s.mem) ∧
    (x1.tbu = s.tbu → (State.writeRta s x1 x2 x3).2.tbu = s.tbu) ∧
    (x1.hk = s.hk → (State.writeRta s x1 x2 x3).2.hk = s.hk) ∧
    (x1.boot = s.boot → (State.writeRta s x1 x2 x3).2.boot = s.boot) ∧
    (x1.goodAt = s.goodAt → (State.writeRta s x1 x2 x3).2.goodAt = s.goodAt) ∧
    (x1.free = s.free → (State.writeRta s x1 x2 x3).2.free = s.free) ∧
    (x1.pending = s.pending → (State.writeRta s x1 x2 x3).2.pending = s.pending) := by
  unfold State.writeRta
  (repeat' (first | (split; rename_i heq; have h1 := congrArg Prod.fst heq; have h2 := congrArg Prod.snd heq; dsimp only at h1 h2; (try subst h1); (try subst h2)) | split)) <;> simp +contextual

@[simp] theorem State.disarmCap_frame (s : State) :
    (State.disarmCap s).clk = s.clk ∧ (State.disarmCap s).tofs = s.tofs ∧ (State.disarmCap s).dev = s.dev ∧
    (State.disarmCap s).mgmt = s.mgmt ∧ (State.disarmCap s).seq = s.seq ∧ (State.disarmCap s).edu = s.edu ∧
    (State.disarmCap s).rta = s.rta ∧ (State.disarmCap s).rpe = s.rpe ∧ (State.disarmCap s).stu = s.stu ∧
    (State.disarmCap s).saf = s.saf ∧ (State.disarmCap s).fso = s.fso ∧ (State.disarmCap s).cmp = s.cmp ∧
    (State.disarmCap s).mem = s.mem ∧ (State.disarmCap s).lnk = s.lnk ∧ (State.disarmCap s).tbu = s.tbu ∧
    (State.disarmCap s).hk = s.hk ∧ (State.disarmCap s).boot = s.boot ∧ (State.disarmCap s).out = s.out ∧
    (State.disarmCap s).goodAt = s.goodAt ∧ (State.disarmCap s).free = s.free ∧
    (State.disarmCap s).pending = s.pending := by
  unfold State.disarmCap
  dsimp only
  (repeat' (first | (split; rename_i heq; have h1 := congrArg Prod.fst heq; have h2 := congrArg Prod.snd heq; dsimp only at h1 h2; (try subst h1); (try subst h2)) | split)) <;> simp

@[simp] theorem State.leaveFull_frame (s : State) :
    (State.leaveFull s).clk = s.clk ∧ (State.leaveFull s).tofs = s.tofs ∧ (State.leaveFull s).dev = s.dev ∧
    (State.leaveFull s).regs = s.regs ∧ (State.leaveFull s).mgmt = s.mgmt ∧ (State.leaveFull s).seq = s.seq ∧
    (State.leaveFull s).edu = s.edu ∧ (State.leaveFull s).rta = s.rta ∧ (State.leaveFull s).rpe = s.rpe ∧
    (State.leaveFull s).stu = s.stu ∧ (State.leaveFull s).saf = s.saf ∧ (State.leaveFull s).fso = s.fso ∧
    (State.leaveFull s).cmp = s.cmp ∧ (State.leaveFull s).mem = s.mem ∧ (State.leaveFull s).lnk = s.lnk ∧
    (State.leaveFull s).tbu = s.tbu ∧ (State.leaveFull s).hk = s.hk ∧ (State.leaveFull s).boot = s.boot ∧
    (State.leaveFull s).out = s.out ∧ (State.leaveFull s).goodAt = s.goodAt ∧ (State.leaveFull s).free = s.free ∧
    (State.leaveFull s).pending = s.pending := by
  unfold State.leaveFull
  simp

@[simp] theorem State.writeCapCtl_frame (s : State) (x1 : Word) :
    (State.writeCapCtl s x1).2.clk = s.clk ∧ (State.writeCapCtl s x1).2.tofs = s.tofs ∧
    (State.writeCapCtl s x1).2.dev = s.dev ∧ (State.writeCapCtl s x1).2.mgmt = s.mgmt ∧
    (State.writeCapCtl s x1).2.seq = s.seq ∧ (State.writeCapCtl s x1).2.edu = s.edu ∧
    (State.writeCapCtl s x1).2.rta = s.rta ∧ (State.writeCapCtl s x1).2.rpe = s.rpe ∧
    (State.writeCapCtl s x1).2.stu = s.stu ∧ (State.writeCapCtl s x1).2.saf = s.saf ∧
    (State.writeCapCtl s x1).2.fso = s.fso ∧ (State.writeCapCtl s x1).2.cmp = s.cmp ∧
    (State.writeCapCtl s x1).2.mem = s.mem ∧ (State.writeCapCtl s x1).2.lnk = s.lnk ∧
    (State.writeCapCtl s x1).2.tbu = s.tbu ∧ (State.writeCapCtl s x1).2.hk = s.hk ∧
    (State.writeCapCtl s x1).2.boot = s.boot ∧ (State.writeCapCtl s x1).2.out = s.out ∧
    (State.writeCapCtl s x1).2.goodAt = s.goodAt ∧ (State.writeCapCtl s x1).2.free = s.free ∧
    (State.writeCapCtl s x1).2.pending = s.pending := by
  unfold State.writeCapCtl
  simp

@[simp] theorem State.writeSetup_frame (s : State) (x1 : Word) :
    (State.writeSetup s x1).2.clk = s.clk ∧ (State.writeSetup s x1).2.tofs = s.tofs ∧
    (State.writeSetup s x1).2.dev = s.dev ∧ (State.writeSetup s x1).2.mgmt = s.mgmt ∧
    (State.writeSetup s x1).2.seq = s.seq ∧ (State.writeSetup s x1).2.edu = s.edu ∧ (State.writeSetup s x1).2.rta = s.rta ∧
    (State.writeSetup s x1).2.rpe = s.rpe ∧ (State.writeSetup s x1).2.stu = s.stu ∧ (State.writeSetup s x1).2.saf = s.saf ∧
    (State.writeSetup s x1).2.fso = s.fso ∧ (State.writeSetup s x1).2.cmp = s.cmp ∧ (State.writeSetup s x1).2.mem = s.mem ∧
    (State.writeSetup s x1).2.lnk = s.lnk ∧ (State.writeSetup s x1).2.tbu = s.tbu ∧ (State.writeSetup s x1).2.hk = s.hk ∧
    (State.writeSetup s x1).2.boot = s.boot ∧ (State.writeSetup s x1).2.out = s.out ∧
    (State.writeSetup s x1).2.goodAt = s.goodAt ∧ (State.writeSetup s x1).2.free = s.free ∧
    (State.writeSetup s x1).2.pending = s.pending := by
  unfold State.writeSetup
  (repeat' (first | (split; rename_i heq; have h1 := congrArg Prod.fst heq; have h2 := congrArg Prod.snd heq; dsimp only at h1 h2; (try subst h1); (try subst h2)) | split)) <;> simp

@[simp] theorem State.writeSeglock_frame (s : State) (x1 : State) (x2 : Word) :
    (x1.clk = s.clk → (State.writeSeglock s x1 x2).2.clk = s.clk) ∧
    (x1.tofs = s.tofs → (State.writeSeglock s x1 x2).2.tofs = s.tofs) ∧
    (x1.dev = s.dev → (State.writeSeglock s x1 x2).2.dev = s.dev) ∧
    (x1.regs = s.regs → (State.writeSeglock s x1 x2).2.regs = s.regs) ∧
    (x1.mgmt = s.mgmt → (State.writeSeglock s x1 x2).2.mgmt = s.mgmt) ∧
    (x1.seq = s.seq → (State.writeSeglock s x1 x2).2.seq = s.seq) ∧
    (x1.edu = s.edu → (State.writeSeglock s x1 x2).2.edu = s.edu) ∧
    (x1.rta = s.rta → (State.writeSeglock s x1 x2).2.rta = s.rta) ∧
    (x1.rpe = s.rpe → (State.writeSeglock s x1 x2).2.rpe = s.rpe) ∧
    (x1.stu = s.stu → (State.writeSeglock s x1 x2).2.stu = s.stu) ∧
    (x1.saf = s.saf → (State.writeSeglock s x1 x2).2.saf = s.saf) ∧
    (x1.fso = s.fso → (State.writeSeglock s x1 x2).2.fso = s.fso) ∧
    (x1.cmp = s.cmp → (State.writeSeglock s x1 x2).2.cmp = s.cmp) ∧
    (x1.mem = s.mem → (State.writeSeglock s x1 x2).2.mem = s.mem) ∧
    (x1.lnk = s.lnk → (State.writeSeglock s x1 x2).2.lnk = s.lnk) ∧
    (x1.tbu = s.tbu → (State.writeSeglock s x1 x2).2.tbu = s.tbu) ∧
    (x1.hk = s.hk → (State.writeSeglock s x1 x2).2.hk = s.hk) ∧
    (x1.boot = s.boot → (State.writeSeglock s x1 x2).2.boot = s.boot) ∧
    (x1.out = s.out → (State.writeSeglock s x1 x2).2.out = s.out) ∧
    (x1.goodAt = s.goodAt → (State.writeSeglock s x1 x2).2.goodAt = s.goodAt) ∧
    (x1.free = s.free → (State.writeSeglock s x1 x2).2.free = s.free) ∧
    (x1.pending = s.pending → (State.writeSeglock s x1 x2).2.pending = s.pending) := by
  unfold State.writeSeglock
  (repeat' (first | (split; rename_i heq; have h1 := congrArg Prod.fst heq; have h2 := congrArg Prod.snd heq; dsimp only at h1 h2; (try subst h1); (try subst h2)) | split)) <;> simp +contextual

@[simp] theorem State.writeCap_frame (s : State) (x1 : State) (x2 : ℕ) (x3 : Word) :
    (x1.clk = s.clk → (State.writeCap s x1 x2 x3).2.clk = s.clk) ∧
    (x1.tofs = s.tofs → (State.writeCap s x1 x2 x3).2.tofs = s.tofs) ∧
    (x1.dev = s.dev → (State.writeCap s x1 x2 x3).2.dev = s.dev) ∧
    (x1.mgmt = s.mgmt → (State.writeCap s x1 x2 x3).2.mgmt = s.mgmt) ∧
    (x1.seq = s.seq → (State.writeCap s x1 x2 x3).2.seq = s.seq) ∧
    (x1.edu = s.edu → (State.writeCap s x1 x2 x3).2.edu = s.edu) ∧
    (x1.rta = s.rta → (State.writeCap s x1 x2 x3).2.rta = s.rta) ∧
    (x1.rpe = s.rpe → (State.writeCap s x1 x2 x3).2.rpe = s.rpe) ∧
    (x1.stu = s.stu → (State.writeCap s x1 x2 x3).2.stu = s.stu) ∧
    (x1.saf = s.saf → (State.writeCap s x1 x2 x3).2.saf = s.saf) ∧
    (x1.fso = s.fso → (State.writeCap s x1 x2 x3).2.fso = s.fso) ∧
    (x1.cmp = s.cmp → (State.writeCap s x1 x2 x3).2.cmp = s.cmp) ∧
    (x1.mem = s.mem → (State.writeCap s x1 x2 x3).2.mem = s.mem) ∧
    (x1.lnk = s.lnk → (State.writeCap s x1 x2 x3).2.lnk = s.lnk) ∧
    (x1.tbu = s.tbu → (State.writeCap s x1 x2 x3).2.tbu = s.tbu) ∧
    (x1.hk = s.hk → (State.writeCap s x1 x2 x3).2.hk = s.hk) ∧
    (x1.boot = s.boot → (State.writeCap s x1 x2 x3).2.boot = s.boot) ∧
    (x1.out = s.out → (State.writeCap s x1 x2 x3).2.out = s.out) ∧
    (x1.goodAt = s.goodAt → (State.writeCap s x1 x2 x3).2.goodAt = s.goodAt) ∧
    (x1.free = s.free → (State.writeCap s x1 x2 x3).2.free = s.free) ∧
    (x1.pending = s.pending → (State.writeCap s x1 x2 x3).2.pending = s.pending) := by
  unfold State.writeCap
  (repeat' (first | (split; rename_i heq; have h1 := congrArg Prod.fst heq; have h2 := congrArg Prod.snd heq; dsimp only at h1 h2; (try subst h1); (try subst h2)) | split)) <;> simp +contextual

@[simp] theorem State.writeBatten_frame (s : State) (x1 : Word) :
    (State.writeBatten s x1).2.clk = s.clk ∧ (State.writeBatten s x1).2.tofs = s.tofs ∧
    (State.writeBatten s x1).2.dev = s.dev ∧ (State.writeBatten s x1).2.edu = s.edu ∧
    (State.writeBatten s x1).2.rta = s.rta ∧ (State.writeBatten s x1).2.rpe = s.rpe ∧
    (State.writeBatten s x1).2.stu = s.stu ∧ (State.writeBatten s x1).2.cap = s.cap ∧
    (State.writeBatten s x1).2.fso = s.fso ∧ (State.writeBatten s x1).2.cmp = s.cmp ∧
    (State.writeBatten s x1).2.mem = s.mem ∧ (State.writeBatten s x1).2.tbu = s.tbu ∧ (State.writeBatten s x1).2.hk = s.hk ∧
    (State.writeBatten s x1).2.boot = s.boot ∧ (State.writeBatten s x1).2.goodAt = s.goodAt ∧
    (State.writeBatten s x1).2.free = s.free ∧ (State.writeBatten s x1).2.pending = s.pending := by
  unfold State.writeBatten
  simp

@[simp] theorem State.writeStu_frame (s : State) (x1 : State) (x2 : ℕ) (x3 : Word) :
    (x1.clk = s.clk → (State.writeStu s x1 x2 x3).2.clk = s.clk) ∧
    (x1.tofs = s.tofs → (State.writeStu s x1 x2 x3).2.tofs = s.tofs) ∧
    (x1.dev = s.dev → (State.writeStu s x1 x2 x3).2.dev = s.dev) ∧
    (x1.seq = s.seq → (State.writeStu s x1 x2 x3).2.seq = s.seq) ∧
    (x1.edu = s.edu → (State.writeStu s x1 x2 x3).2.edu = s.edu) ∧
    (x1.rta = s.rta → (State.writeStu s x1 x2 x3).2.rta = s.rta) ∧
    (x1.rpe = s.rpe → (State.writeStu s x1 x2 x3).2.rpe = s.rpe) ∧
    (x1.fso = s.fso → (State.writeStu s x1 x2 x3).2.fso = s.fso) ∧
    (x1.cmp = s.cmp → (State.writeStu s x1 x2 x3).2.cmp = s.cmp) ∧
    (x1.mem = s.mem → (State.writeStu s x1 x2 x3).2.mem = s.mem) ∧
    (x1.tbu = s.tbu → (State.writeStu s x1 x2 x3).2.tbu = s.tbu) ∧
    (x1.hk = s.hk → (State.writeStu s x1 x2 x3).2.hk = s.hk) ∧
    (x1.boot = s.boot → (State.writeStu s x1 x2 x3).2.boot = s.boot) ∧
    (x1.goodAt = s.goodAt → (State.writeStu s x1 x2 x3).2.goodAt = s.goodAt) ∧
    (x1.free = s.free → (State.writeStu s x1 x2 x3).2.free = s.free) ∧
    (x1.pending = s.pending → (State.writeStu s x1 x2 x3).2.pending = s.pending) := by
  unfold State.writeStu
  (repeat' (first | (split; rename_i heq; have h1 := congrArg Prod.fst heq; have h2 := congrArg Prod.snd heq; dsimp only at h1 h2; (try subst h1); (try subst h2)) | split)) <;> simp +contextual

@[simp] theorem State.writeEdu_frame (s : State) (x1 : State) (x2 : ℕ) :
    (x1.clk = s.clk → (State.writeEdu s x1 x2).2.clk = s.clk) ∧
    (x1.tofs = s.tofs → (State.writeEdu s x1 x2).2.tofs = s.tofs) ∧
    (x1.dev = s.dev → (State.writeEdu s x1 x2).2.dev = s.dev) ∧ (x1.seq = s.seq → (State.writeEdu s x1 x2).2.seq = s.seq) ∧
    (x1.rta = s.rta → (State.writeEdu s x1 x2).2.rta = s.rta) ∧ (x1.rpe = s.rpe → (State.writeEdu s x1 x2).2.rpe = s.rpe) ∧
    (x1.fso = s.fso → (State.writeEdu s x1 x2).2.fso = s.fso) ∧ (x1.cmp = s.cmp → (State.writeEdu s x1 x2).2.cmp = s.cmp) ∧
    (x1.mem = s.mem → (State.writeEdu s x1 x2).2.mem = s.mem) ∧ (x1.tbu = s.tbu → (State.writeEdu s x1 x2).2.tbu = s.tbu) ∧
    (x1.hk = s.hk → (State.writeEdu s x1 x2).2.hk = s.hk) ∧ (x1.boot = s.boot → (State.writeEdu s x1 x2).2.boot = s.boot) ∧
    (x1.goodAt = s.goodAt → (State.writeEdu s x1 x2).2.goodAt = s.goodAt) ∧
    (x1.free = s.free → (State.writeEdu s x1 x2).2.free = s.free) ∧
    (x1.pending = s.pending → (State.writeEdu s x1 x2).2.pending = s.pending) := by
  unfold State.writeEdu
  (repeat' (first | (split; rename_i heq; have h1 := congrArg Prod.fst heq; have h2 := congrArg Prod.snd heq; dsimp only at h1 h2; (try subst h1); (try subst h2)) | split)) <;> simp +contextual

@[simp] theorem State.writeLnk_frame (s : State) (x1 : State) (x2 : ℕ) (x3 : Word) :
    (x1.clk = s.clk → (State.writeLnk s x1 x2 x3).2.clk = s.clk) ∧
    (x1.tofs = s.tofs → (State.writeLnk s x1 x2 x3).2.tofs = s.tofs) ∧
    (x1.dev = s.dev → (State.writeLnk s x1 x2 x3).2.dev = s.dev) ∧
    (x1.edu = s.edu → (State.writeLnk s x1 x2 x3).2.edu = s.edu) ∧
    (x1.rta = s.rta → (State.writeLnk s x1 x2 x3).2.rta = s.rta) ∧
    (x1.rpe = s.rpe → (State.writeLnk s x1 x2 x3).2.rpe = s.rpe) ∧
    (x1.stu = s.stu → (State.writeLnk s x1 x2 x3).2.stu = s.stu) ∧
    (x1.fso = s.fso → (State.writeLnk s x1 x2 x3).2.fso = s.fso) ∧
    (x1.cmp = s.cmp → (State.writeLnk s x1 x2 x3).2.cmp = s.cmp) ∧
    (x1.mem = s.mem → (State.writeLnk s x1 x2 x3).2.mem = s.mem) ∧
    (x1.hk = s.hk → (State.writeLnk s x1 x2 x3).2.hk = s.hk) ∧
    (x1.boot = s.boot → (State.writeLnk s x1 x2 x3).2.boot = s.boot) ∧
    (x1.goodAt = s.goodAt → (State.writeLnk s x1 x2 x3).2.goodAt = s.goodAt) ∧
    (x1.pending = s.pending → (State.writeLnk s x1 x2 x3).2.pending = s.pending) := by
  unfold State.writeLnk
  (repeat' (first | (split; rename_i heq; have h1 := congrArg Prod.fst heq; have h2 := congrArg Prod.snd heq; dsimp only at h1 h2; (try subst h1); (try subst h2)) | split)) <;> simp +contextual

@[simp] theorem State.writeShim_frame (s : State) (x1 : State) (x2 : ℕ) (x3 : Word) :
    (x1.clk = s.clk → (State.writeShim s x1 x2 x3).2.clk = s.clk) ∧
    (x1.tofs = s.tofs → (State.writeShim s x1 x2 x3).2.tofs = s.tofs) ∧
    (x1.dev = s.dev → (State.writeShim s x1 x2 x3).2.dev = s.dev) ∧
    (x1.regs = s.regs → (State.writeShim s x1 x2 x3).2.regs = s.regs) ∧
    (x1.mgmt = s.mgmt → (State.writeShim s x1 x2 x3).2.mgmt = s.mgmt) ∧
    (x1.seq = s.seq → (State.writeShim s x1 x2 x3).2.seq = s.seq) ∧
    (x1.edu = s.edu → (State.writeShim s x1 x2 x3).2.edu = s.edu) ∧
    (x1.rta = s.rta → (State.writeShim s x1 x2 x3).2.rta = s.rta) ∧
    (x1.rpe = s.rpe → (State.writeShim s x1 x2 x3).2.rpe = s.rpe) ∧
    (x1.stu = s.stu → (State.writeShim s x1 x2 x3).2.stu = s.stu) ∧
    (x1.saf = s.saf → (State.writeShim s x1 x2 x3).2.saf = s.saf) ∧
    (x1.cap = s.cap → (State.writeShim s x1 x2 x3).2.cap = s.cap) ∧
    (x1.fso = s.fso → (State.writeShim s x1 x2 x3).2.fso = s.fso) ∧
    (x1.cmp = s.cmp → (State.writeShim s x1 x2 x3).2.cmp = s.cmp) ∧
    (x1.mem = s.mem → (State.writeShim s x1 x2 x3).2.mem = s.mem) ∧
    (x1.lnk = s.lnk → (State.writeShim s x1 x2 x3).2.lnk = s.lnk) ∧
    (x1.tbu = s.tbu → (State.writeShim s x1 x2 x3).2.tbu = s.tbu) ∧
    (x1.hk = s.hk → (State.writeShim s x1 x2 x3).2.hk = s.hk) ∧
    (x1.out = s.out → (State.writeShim s x1 x2 x3).2.out = s.out) ∧
    (x1.goodAt = s.goodAt → (State.writeShim s x1 x2 x3).2.goodAt = s.goodAt) ∧
    (x1.free = s.free → (State.writeShim s x1 x2 x3).2.free = s.free) ∧
    (x1.pending = s.pending → (State.writeShim s x1 x2 x3).2.pending = s.pending) := by
  unfold State.writeShim
  (repeat' (first | (split; rename_i heq; have h1 := congrArg Prod.fst heq; have h2 := congrArg Prod.snd heq; dsimp only at h1 h2; (try subst h1); (try subst h2)) | split)) <;> simp +contextual

@[simp] theorem State.ruleOf_frame (s : State) (x1 : State) (x2 : ℕ) (x3 : Word) :
    (x1.clk = s.clk → (State.ruleOf s x1 x2 x3).2.clk = s.clk) ∧
    (x1.tofs = s.tofs → (State.ruleOf s x1 x2 x3).2.tofs = s.tofs) ∧
    (x1.dev = s.dev → (State.ruleOf s x1 x2 x3).2.dev = s.dev) ∧
    (x1.mem = s.mem → (State.ruleOf s x1 x2 x3).2.mem = s.mem) ∧ (x1.hk = s.hk → (State.ruleOf s x1 x2 x3).2.hk = s.hk) ∧
    (x1.goodAt = s.goodAt → (State.ruleOf s x1 x2 x3).2.goodAt = s.goodAt) ∧
    (x1.pending = s.pending → (State.ruleOf s x1 x2 x3).2.pending = s.pending) := by
  unfold State.ruleOf
  (repeat' (first | (split; rename_i heq; have h1 := congrArg Prod.fst heq; have h2 := congrArg Prod.snd heq; dsimp only at h1 h2; (try subst h1); (try subst h2)) | split)) <;> simp +contextual

@[simp] theorem State.writeReg_frame (s : State) (x1 : ℕ) (x2 : Word) :
    (State.writeReg s x1 x2).2.clk = s.clk ∧ (State.writeReg s x1 x2).2.tofs = s.tofs ∧
    (State.writeReg s x1 x2).2.dev = s.dev ∧ (State.writeReg s x1 x2).2.mem = s.mem ∧ (State.writeReg s x1 x2).2.hk = s.hk ∧
    (State.writeReg s x1 x2).2.goodAt = s.goodAt ∧ (State.writeReg s x1 x2).2.pending = s.pending := by
  unfold State.writeReg
  (repeat' (first | (split; rename_i heq; have h1 := congrArg Prod.fst heq; have h2 := congrArg Prod.snd heq; dsimp only at h1 h2; (try subst h1); (try subst h2)) | split)) <;> simp

@[simp] theorem State.pageLoadStart_frame (s : State) :
    (State.pageLoadStart s).2.clk = s.clk ∧ (State.pageLoadStart s).2.tofs = s.tofs ∧
    (State.pageLoadStart s).2.dev = s.dev ∧ (State.pageLoadStart s).2.edu = s.edu ∧ (State.pageLoadStart s).2.rta = s.rta ∧
    (State.pageLoadStart s).2.rpe = s.rpe ∧ (State.pageLoadStart s).2.stu = s.stu ∧ (State.pageLoadStart s).2.saf = s.saf ∧
    (State.pageLoadStart s).2.cap = s.cap ∧ (State.pageLoadStart s).2.fso = s.fso ∧ (State.pageLoadStart s).2.cmp = s.cmp ∧
    (State.pageLoadStart s).2.mem = s.mem ∧ (State.pageLoadStart s).2.lnk = s.lnk ∧ (State.pageLoadStart s).2.tbu = s.tbu ∧
    (State.pageLoadStart s).2.hk = s.hk ∧ (State.pageLoadStart s).2.boot = s.boot ∧ (State.pageLoadStart s).2.out = s.out ∧
    (State.pageLoadStart s).2.goodAt = s.goodAt ∧ (State.pageLoadStart s).2.free = s.free ∧
    (State.pageLoadStart s).2.pending = s.pending := by
  unfold State.pageLoadStart
  simp

@[simp] theorem State.scrubStart_frame (s : State) :
    (State.scrubStart s).2.clk = s.clk ∧ (State.scrubStart s).2.tofs = s.tofs ∧ (State.scrubStart s).2.dev = s.dev ∧
    (State.scrubStart s).2.seq = s.seq ∧ (State.scrubStart s).2.edu = s.edu ∧ (State.scrubStart s).2.rta = s.rta ∧
    (State.scrubStart s).2.rpe = s.rpe ∧ (State.scrubStart s).2.stu = s.stu ∧ (State.scrubStart s).2.saf = s.saf ∧
    (State.scrubStart s).2.cap = s.cap ∧ (State.scrubStart s).2.fso = s.fso ∧ (State.scrubStart s).2.cmp = s.cmp ∧
    (State.scrubStart s).2.mem = s.mem ∧ (State.scrubStart s).2.lnk = s.lnk ∧ (State.scrubStart s).2.tbu = s.tbu ∧
    (State.scrubStart s).2.hk = s.hk ∧ (State.scrubStart s).2.boot = s.boot ∧ (State.scrubStart s).2.out = s.out ∧
    (State.scrubStart s).2.goodAt = s.goodAt ∧ (State.scrubStart s).2.free = s.free ∧
    (State.scrubStart s).2.pending = s.pending := by
  unfold State.scrubStart
  simp

@[simp] theorem State.latchShadow_inv (s : State) (x1 : List (ℕ × Word)) (h : s.Inv) : (State.latchShadow s x1).Inv := by
  refine ⟨h.1, ?_, h.2.2⟩
  show SMap.wf _ (x1.foldl _ s.mgmt.shadow) = true
  have hw := h.2.1
  generalize s.mgmt.shadow = m at hw
  induction x1 generalizing m with
  | nil => exact hw
  | cons e l ih => exact ih _ (SMap.wf_put _ _ _ _ hw)

@[simp] theorem State.dropStaged_inv (s : State) (x1 : ℕ × ℕ) (h : s.Inv) : (State.dropStaged s x1).Inv := by
  unfold State.dropStaged
  simp (maxDischargeDepth := 100) [h]

@[simp] theorem State.readEvq_inv (s : State) (h : s.Inv) : (State.readEvq s).2.Inv := by
  unfold State.readEvq
  split
  · exact State.latchShadow_inv _ _ h
  · rename_i e q hq
    dsimp only
    have hl := State.latchShadow_inv s [(0x0009, e.words.getD 1 0), (0x000A, e.words.getD 2 0), (0x000B, e.words.getD 3 0)] h
    refine ⟨hl.1, hl.2.1, ?_⟩
    have hn : q.length + 1 ≤ 256 := by have := h.2.2; rw [hq] at this; simpa using this
    show (if _ then q else insertEv _ q).length ≤ 256
    split
    · omega
    · rw [insertEv_length]; exact hn

@[simp] theorem State.readCap_inv (s : State) (x1 : List MemHit) (h : s.Inv) : (State.readCap s x1).2.Inv := by
  unfold State.readCap
  simp (maxDischargeDepth := 100) [h]

@[simp] theorem State.clearRc_inv (s : State) (x1 : ℕ) (x2 : List FieldDesc) (h : s.Inv) : (State.clearRc s x1 x2).Inv := by
  unfold State.clearRc
  simp (maxDischargeDepth := 100) [h]

@[simp] theorem State.readReg_inv (s : State) (x1 : ℕ) (x2 : List FieldDesc) (x3 : List MemHit) (h : s.Inv) : (State.readReg s x1 x2 x3).2.Inv := by
  unfold State.readReg
  (repeat' (first | (split; rename_i heq; have h1 := congrArg Prod.fst heq; have h2 := congrArg Prod.snd heq; dsimp only at h1 h2; (try subst h1); (try subst h2)) | split)) <;> simp +contextual (maxDischargeDepth := 100) [h]

@[simp] theorem State.poke_inv (s : State) (x1 : ℕ) (x2 : Word) (h : s.Inv) : (State.poke s x1 x2).Inv := by
  unfold State.poke
  (repeat' (first | (split; rename_i heq; have h1 := congrArg Prod.fst heq; have h2 := congrArg Prod.snd heq; dsimp only at h1 h2; (try subst h1); (try subst h2)) | split)) <;> simp +contextual (maxDischargeDepth := 100) [h]

@[simp] theorem State.writePcfg_inv (s : State) (x1 : State) (x2 : ℕ) (x3 : ℕ) (h : s.Inv) (hx1 : x1.Inv) : (State.writePcfg s x1 x2 x3).2.Inv := by
  unfold State.writePcfg
  simp (maxDischargeDepth := 100) [h, hx1]

@[simp] theorem State.writeSpare_inv (s : State) (x1 : ℕ) (x2 : Word) (h : s.Inv) : (State.writeSpare s x1 x2).2.Inv := by
  unfold State.writeSpare
  simp (maxDischargeDepth := 100) [h]

@[simp] theorem State.writeAir_inv (s : State) (x1 : State) (h : s.Inv) (hx1 : x1.Inv) : (State.writeAir s x1).2.Inv := by
  unfold State.writeAir
  simp (maxDischargeDepth := 100) [h, hx1]

@[simp] theorem State.writeFcfg_inv (s : State) (x1 : State) (x2 : ℕ) (h : s.Inv) (hx1 : x1.Inv) : (State.writeFcfg s x1 x2).2.Inv := by
  unfold State.writeFcfg
  simp (maxDischargeDepth := 100) [h, hx1]

@[simp] theorem State.writeRta_inv (s : State) (x1 : State) (x2 : ℕ) (x3 : Word) (h : s.Inv) (hx1 : x1.Inv) : (State.writeRta s x1 x2 x3).2.Inv := by
  unfold State.writeRta
  simp (maxDischargeDepth := 100) [h, hx1]

@[simp] theorem State.disarmCap_inv (s : State) (h : s.Inv) : (State.disarmCap s).Inv := by
  unfold State.disarmCap
  dsimp only
  (repeat' (first | (split; rename_i heq; have h1 := congrArg Prod.fst heq; have h2 := congrArg Prod.snd heq; dsimp only at h1 h2; (try subst h1); (try subst h2)) | split)) <;> simp +contextual (maxDischargeDepth := 100) [h]

@[simp] theorem State.leaveFull_inv (s : State) : (State.leaveFull s).Inv ↔ s.Inv := inv_of_parts (by simp) (by simp)

@[simp] theorem State.writeCapCtl_inv (s : State) (x1 : Word) (h : s.Inv) : (State.writeCapCtl s x1).2.Inv := by
  unfold State.writeCapCtl
  simp (maxDischargeDepth := 100) [h]

@[simp] theorem State.writeSetup_inv (s : State) (x1 : Word) (h : s.Inv) : (State.writeSetup s x1).2.Inv := by
  unfold State.writeSetup
  (repeat' (first | (split; rename_i heq; have h1 := congrArg Prod.fst heq; have h2 := congrArg Prod.snd heq; dsimp only at h1 h2; (try subst h1); (try subst h2)) | split)) <;> simp +contextual (maxDischargeDepth := 100) [h]

@[simp] theorem State.writeSeglock_inv (s : State) (x1 : State) (x2 : Word) (h : s.Inv) (hx1 : x1.Inv) : (State.writeSeglock s x1 x2).2.Inv := by
  unfold State.writeSeglock
  simp (maxDischargeDepth := 100) [h, hx1]

@[simp] theorem State.writeCap_inv (s : State) (x1 : State) (x2 : ℕ) (x3 : Word) (h : s.Inv) (hx1 : x1.Inv) : (State.writeCap s x1 x2 x3).2.Inv := by
  unfold State.writeCap
  simp (maxDischargeDepth := 100) [h, hx1]

@[simp] theorem State.writeBatten_inv (s : State) (x1 : Word) (h : s.Inv) : (State.writeBatten s x1).2.Inv := by
  unfold State.writeBatten
  simp (maxDischargeDepth := 100) [h]

@[simp] theorem State.writeStu_inv (s : State) (x1 : State) (x2 : ℕ) (x3 : Word) (h : s.Inv) (hx1 : x1.Inv) : (State.writeStu s x1 x2 x3).2.Inv := by
  unfold State.writeStu
  simp (maxDischargeDepth := 100) [h, hx1]

@[simp] theorem State.writeEdu_inv (s : State) (x1 : State) (x2 : ℕ) (h : s.Inv) (hx1 : x1.Inv) : (State.writeEdu s x1 x2).2.Inv := by
  unfold State.writeEdu
  simp (maxDischargeDepth := 100) [h, hx1]

@[simp] theorem State.writeLnk_inv (s : State) (x1 : State) (x2 : ℕ) (x3 : Word) (h : s.Inv) (hx1 : x1.Inv) : (State.writeLnk s x1 x2 x3).2.Inv := by
  unfold State.writeLnk
  simp (maxDischargeDepth := 100) [h, hx1]

@[simp] theorem State.writeShim_inv (s : State) (x1 : State) (x2 : ℕ) (x3 : Word) (h : s.Inv) (hx1 : x1.Inv) : (State.writeShim s x1 x2 x3).2.Inv := by
  unfold State.writeShim
  simp (maxDischargeDepth := 100) [h, hx1]

@[simp] theorem State.ruleOf_inv (s : State) (x1 : State) (x2 : ℕ) (x3 : Word) (h : s.Inv) (hx1 : x1.Inv) : (State.ruleOf s x1 x2 x3).2.Inv := by
  unfold State.ruleOf
  (repeat' (first | (split; rename_i heq; have h1 := congrArg Prod.fst heq; have h2 := congrArg Prod.snd heq; dsimp only at h1 h2; (try subst h1); (try subst h2)) | split)) <;> simp +contextual (maxDischargeDepth := 100) [h, hx1]

@[simp] theorem State.writeReg_inv (s : State) (x1 : ℕ) (x2 : Word) (h : s.Inv) : (State.writeReg s x1 x2).2.Inv := by
  unfold State.writeReg
  (repeat' (first | (split; rename_i heq; have h1 := congrArg Prod.fst heq; have h2 := congrArg Prod.snd heq; dsimp only at h1 h2; (try subst h1); (try subst h2)) | split)) <;> simp +contextual (maxDischargeDepth := 100) [h]

@[simp] theorem State.pageLoadStart_inv (s : State) (h : s.Inv) : (State.pageLoadStart s).2.Inv := by
  unfold State.pageLoadStart
  simp (maxDischargeDepth := 100) [h]

@[simp] theorem State.scrubStart_inv (s : State) (h : s.Inv) : (State.scrubStart s).2.Inv := by
  unfold State.scrubStart
  simp (maxDischargeDepth := 100) [h]

end Sys2Proof.Machine
end

