-- ==== Sys2Proof/Laws/Events.lean ====
section
/-! SUPPORT. What raising an event and ending a long operation do: which register words stay, and what CTL_EVQ holds. -/

namespace Sys2Proof.Machine

/-- A relation between a state and what a list of updates makes of it. -/
theorem State.fold_keeps {α β : Type} (v : State → β) (f : State → α → State) (h : ∀ s x, v (f s x) = v s) (l : List α) :
    ∀ s, v (l.foldl f s) = v s := by
  induction l with
  | nil => intro s; rfl
  | cons x l ih => intro s; rw [List.foldl_cons, ih, h]

theorem State.word_of_regs {s t : State} (h : t.regs = s.regs) (a : Nat) : t.word a = s.word a := by
  simp only [State.word, h]

theorem State.sendDlp_word (s : State) (n typ : Nat) (p : List Word) (a : Nat) : (s.sendDlp n typ p).word a = s.word a :=
  State.word_of_regs (by simp) a

theorem State.eventTo_word (s : State) (e : EvEntry) (n : Nat) {a : Nat} (h : a ∉ evWords) :
    (s.eventTo e n).word a = s.word a := by
  simp only [evWords, List.mem_cons, List.not_mem_nil, or_false, not_or] at h
  unfold State.eventTo
  dsimp only
  split
  · split
    · exact State.sendDlp_word ..
    · split
      · exact State.word_of_regs (by simp) a
      · rw [word_inc_ne _ _ _ h.2]
        exact State.word_of_regs (by simp) a
  · rfl

theorem State.queueEv_word (s : State) (e : EvEntry) {a : Nat} (h : a ∉ evWords) : (s.queueEv e).word a = s.word a := by
  simp only [evWords, List.mem_cons, List.not_mem_nil, or_false, not_or] at h
  unfold State.queueEv
  split
  · exact State.word_of_regs (by simp) a
  · rw [word_inc_ne _ _ _ h.1]
    exact State.word_of_regs (by simp) a

/-- Raising an event changes no register word but the two counters of lost events. -/
theorem State.raise_word (s : State) (code : Nat) (cls : EvClass) (arg : Nat) {a : Nat} (h : a ∉ evWords) :
    (s.raise code cls arg).word a = s.word a := by
  unfold State.raise
  dsimp only
  have hd : ∀ t : State, (t.noteDcode ⟨code, cls, arg % 1024, s.now⟩).word a = t.word a :=
    fun t => State.word_of_regs (by simp) a
  rw [hd]
  refine (State.fold_keeps (fun s => s.word a) _ (fun s n => State.eventTo_word s _ n h) _ _).trans ?_
  split
  · exact State.queueEv_word _ _ h
  · rfl

theorem State.eventTo_evq (s : State) (e : EvEntry) (n : Nat) : (s.eventTo e n).mgmt.evq = s.mgmt.evq := by
  simp

/-- Raising an event puts it into CTL_EVQ where its class is queued and an entry is free. -/
theorem State.raise_told (s : State) (code : Nat) (cls : EvClass) (arg : Nat) : s.told (s.raise code cls arg) code cls arg := by
  intro h
  unfold State.raise
  dsimp only
  have hn : ∀ t : State, (t.noteDcode ⟨code, cls, arg % 1024, s.now⟩).mgmt = t.mgmt := by intro t; simp
  rw [hn, State.fold_keeps (fun s => s.mgmt.evq) _ (fun s n => State.eventTo_evq s _ n)]
  split
  · simp [State.queueEv, h]
  · rfl

/-! ### The SAF -/

theorem State.drive_word (s : State) (on : Bool) (a : Nat) : (s.drive on).word a = s.word a := by
  unfold State.drive
  split
  · rfl
  · exact modSaf_word ..

theorem State.condition_word (s : State) (c : Cond) (a : Nat) : (s.condition c).word a = s.word a := by
  unfold State.condition
  split
  · rfl
  · split
    · exact State.word_of_regs rfl a
    · rfl

/-- A change of the SAF's state changes the counter of demands and those of lost events alone. -/
theorem State.safTo_word (s : State) (st : SafSt) {a : Nat} (h : a ∉ safWords) : (s.safTo st).word a = s.word a := by
  simp only [safWords, List.mem_cons, not_or] at h
  have hd : ∀ t : State, (if st == .stop then t.inc F.SAF_DEMCNT_COUNT else t).word a = t.word a := by
    intro t
    split
    · exact word_inc_ne _ _ _ h.1
    · rfl
  unfold State.safTo
  split
  · rfl
  · dsimp only
    rw [State.raise_word _ _ _ _ h.2]
    split
    · rw [State.condition_word, hd, State.drive_word, modSaf_word]
    · rw [hd, State.drive_word, modSaf_word]

/-- So does a demand. -/
theorem State.safEval_word (s : State) {a : Nat} (h : a ∉ safWords) : s.safEval.word a = s.word a := by
  have he : ∀ (t : State) (c : Bool), (if c then t.safTo .stop else t).word a = t.word a := by
    intro t c
    split
    · exact State.safTo_word _ _ h
    · rfl
  exact (he _ _).trans (modSaf_word ..)

/-- So does the judgement of the charging conditions. -/
theorem State.chgEval_word (s : State) {a : Nat} (h : a ∉ safWords) : s.chgEval.word a = s.word a := by
  unfold State.chgEval
  rw [State.safEval_word _ h]
  split
  · rfl
  · exact State.word_of_regs rfl a

/-- So does Clamp. -/
theorem State.clamp_word (s : State) (cause : Nat) {a : Nat} (h : a ∉ safWords) : (s.clamp cause).word a = s.word a := by
  unfold State.clamp
  split
  · rfl
  · rw [State.safTo_word _ _ h, modSaf_word]

/-! ### Long operations -/

theorem State.flag_of_word {s t : State} {f : Fld} (h : t.word f.addr = s.word f.addr) : t.flag f = s.flag f := by
  simp only [State.flag, State.rd, h]

theorem State.rd_of_word {s t : State} {f : Fld} (h : t.word f.addr = s.word f.addr) : t.rd f = s.rd f := by
  simp only [State.rd, h]

/-- Starting a long operation changes CTL_OPSTAT alone. -/
theorem State.startOp_word (s : State) (code : Nat) (op : LongOp) {a : Nat} (h : a ≠ 0x0004) :
    (s.startOp code op).word a = s.word a := by
  unfold State.startOp
  dsimp only
  rw [word_put_ne _ _ _ _ h, word_put_ne _ _ _ _ h, word_put_ne _ _ _ _ h, word_wr_ne _ _ _ _ h]
  exact State.word_of_regs (by simp) a

/-- CTL_OPSTAT names the operation that starts, as not done. -/
theorem State.startOp_stat (s : State) (op : LongOp) {code : Nat} (hc : code < 16) :
    (s.startOp code op).mgmt.op = some op ∧ (s.startOp code op).rd F.CTL_OPSTAT_CMD = code ∧
    (s.startOp code op).flag F.CTL_OPSTAT_DONE = false ∧ (s.startOp code op).flag F.CTL_OPSTAT_VALID = false ∧
    (s.startOp code op).flag F.CTL_OPSTAT_ABORT = false := by
  unfold State.startOp
  dsimp only
  refine ⟨by simp [State.modMgmt], ?_, ?_, ?_, ?_⟩
  · simp only [State.put]
    rw [rd_wr_other, rd_wr_other, rd_wr_other, rd_wr]
    · exact Nat.mod_eq_of_lt hc
    all_goals decide
  · simp only [State.put, State.flag]
    rw [rd_wr_other, rd_wr_other, rd_wr]
    · decide
    all_goals decide
  · simp only [State.put, State.flag]
    rw [rd_wr_other, rd_wr]
    · decide
    all_goals decide
  · exact flag_put _ _ _ rfl (by decide)

/-- Ending a long operation changes CTL_OPRESULT, CTL_OPSTAT and the counters of lost events alone. -/
theorem State.endOp_word (s : State) (r : Nat) {a : Nat} (h : a ∉ 0x0003 :: 0x0004 :: evWords) :
    (s.endOp r).word a = s.word a := by
  have h3 : a ≠ 0x0003 := fun e => h (e ▸ List.mem_cons_self)
  have h4 : a ≠ 0x0004 := fun e => h (e ▸ List.mem_cons_of_mem _ List.mem_cons_self)
  have he : a ∉ evWords := fun e => h (List.mem_cons_of_mem _ (List.mem_cons_of_mem _ e))
  unfold State.endOp
  split
  · rfl
  · dsimp only
    rw [modMgmt_word, State.raise_word _ _ _ _ he, word_put_ne _ _ _ _ h4, word_put_ne _ _ _ _ h4, word_wr_ne _ _ _ _ h3]

/-- What CTL_EVQ holds after an event depends on the queue, the classes queued and the instant alone. -/
theorem State.told_of {s s' t : State} {code : Nat} {cls : EvClass} {arg : Nat} (h : s'.told t code cls arg)
    (he : s'.mgmt.evq = s.mgmt.evq) (hq : s'.queues cls = s.queues cls) (hn : s'.now = s.now) : s.told t code cls arg := by
  intro hl
  have := h (he ▸ hl)
  rw [he, hq, hn] at this
  exact this

/-- The end of a long operation, step by step. -/
theorem State.endOp_eq (s : State) (op : LongOp) (r : Nat) (h : s.mgmt.op = some op) :
    s.endOp r = ((((s.wr F.CTL_OPRESULT_RESULT r).put F.CTL_OPSTAT_DONE true).put F.CTL_OPSTAT_VALID true).raise 0x01
      .info op.code).modMgmt fun m => { m with op := none } := by
  simp only [State.endOp, h]

/-- What the writes that end a long operation leave in the registers. -/
theorem State.endMarks (s : State) (r : Nat) (v : State)
    (hv : v = ((s.wr F.CTL_OPRESULT_RESULT r).put F.CTL_OPSTAT_DONE true).put F.CTL_OPSTAT_VALID true) :
    v.rd F.CTL_OPRESULT_RESULT = r % 2 ^ 20 ∧ v.flag F.CTL_OPSTAT_DONE = true ∧ v.flag F.CTL_OPSTAT_VALID = true ∧
    v.queues .info = s.queues .info := by
  subst hv
  refine ⟨?_, ?_, flag_put _ _ _ rfl (by decide), ?_⟩
  · simp only [State.put]
    rw [rd_wr_other, rd_wr_other, rd_wr]
    · rfl
    all_goals decide
  · simp only [State.put, State.flag]
    rw [rd_wr_other, rd_wr]
    all_goals decide
  · simp only [State.queues, State.put]
    rw [rd_wr_other, rd_wr_other, rd_wr_other]
    all_goals decide

/-- OP_DONE is raised and BUSY falls, once CTL_OPRESULT and CTL_OPSTAT say the end. -/
theorem State.endOp_of_marks (s v : State) (op : LongOp) (r : Nat) (hm : v.mgmt.evq = s.mgmt.evq) (hn : v.now = s.now)
    (vq : v.queues .info = s.queues .info) (v1 : v.rd F.CTL_OPRESULT_RESULT = r) (v2 : v.flag F.CTL_OPSTAT_DONE = true)
    (v3 : v.flag F.CTL_OPSTAT_VALID = true) :
    ((v.raise 0x01 .info op.code).modMgmt fun m => { m with op := none }).opEnded r ∧
    s.told ((v.raise 0x01 .info op.code).modMgmt fun m => { m with op := none }) 0x01 .info op.code := by
  have vt : s.told (v.raise 0x01 .info op.code) 0x01 .info op.code := State.told_of (State.raise_told v _ _ _) hm vq hn
  have hw : ∀ a, a ∉ evWords → (v.raise 0x01 .info op.code).word a = v.word a := fun a ha => State.raise_word v _ _ _ ha
  generalize v.raise 0x01 .info op.code = w at *
  refine ⟨⟨rfl, ?_, ?_, ?_⟩, vt⟩
  · rw [modMgmt_rd, State.rd_of_word (hw _ (by decide)), v1]
  · rw [modMgmt_flag, State.flag_of_word (hw _ (by decide)), v2]
  · rw [modMgmt_flag, State.flag_of_word (hw _ (by decide)), v3]

/-- The end of a long operation: its result, DONE and VALID, BUSY falls, and OP_DONE is raised. -/
theorem State.endOp_ended (s : State) (op : LongOp) (r : Nat) (h : s.mgmt.op = some op) :
    (s.endOp r).opEnded (r % 2 ^ 20) ∧ s.told (s.endOp r) 0x01 .info op.code := by
  rw [State.endOp_eq s op r h]
  have hm := State.endMarks s r _ rfl
  exact State.endOp_of_marks s _ op _ (by simp) (by simp [State.now]) hm.2.2.2 hm.1 hm.2.1 hm.2.2.1

end Sys2Proof.Machine
end

