-- ==== Sys2Proof/Laws/Lines.lean ====
section
/-! SUPPORT. The line coding of a lane: what a descrambler makes of a scrambled line. -/

namespace Sys2Proof.Machine

/-- The descrambler undoes the scrambler when both hold the same last 58 bits. -/
@[simp] theorem descramble_scramble (st b : List Bool) : descramble st (scramble st b) = b := by
  induction b generalizing st with
  | nil => rfl
  | cons x b ih => simp [scramble, descramble, ih]

/-- The scrambler keeps the number of bits. -/
@[simp] theorem scramble_length (st b : List Bool) : (scramble st b).length = b.length := by
  induction b generalizing st with
  | nil => rfl
  | cons x b ih => simp [scramble, ih]

end Sys2Proof.Machine
end

