-- ==== Sys2Proof/Machine/Package.lean ====
section
/-! DEFINITION. Balls, rails and output levels (R537 to R541). The manual's figures that only a measurement on the package shows are
out of the model (log entry 162). -/

namespace Sys2Proof

/-- Good level of a rail in mV (R540). -/
def Rail.goodAt : Rail → Nat
  | .vddCore => 720 | .vddTdc => 873 | .vddAfe => 1690 | .vddSaf => 768 | .vddLane => 864 | .vddaLane => 1130
  | .vddqMem => 1056 | .vddIo => 1690 | .vddIo33 => 3100

/-- Level in mV below which a rail fails (R540). -/
def Rail.failBelow : Rail → Nat
  | .vddCore => 705 | .vddTdc => 864 | .vddAfe => 1670 | .vddSaf => 760 | .vddLane => 855 | .vddaLane => 1110
  | .vddqMem => 1045 | .vddIo => 1670 | .vddIo33 => 3050

/-- A rail is good now (R540): it was good and has not stayed below its fail level for 1 µs, of which `below` ns have passed, or it
has reached its good level. -/
def Rail.good (r : Rail) (was : Bool) (mv below : Nat) : Bool := if was then Nat.blt below 1000 else Nat.ble r.goodAt mv

/-- How long a rail has been below its fail level, `dt` ns after it had been so for `below` ns (R540). -/
def Rail.below (r : Rail) (mv below dt : Nat) : Nat := if Nat.blt mv r.failBelow then below + dt else 0

namespace Machine

/-! ### The ball grid (R537 to R539) -/

/-- The letters of a grid's first nineteen rows. -/
def gridLetters : List String := ["A", "B", "C", "D", "E", "F", "G", "H", "J", "K", "L", "M", "N", "P", "T", "U", "V", "W", "Y"]

/-- The letters of row index 1 to 39 (R537). -/
def gridRows : List String := gridLetters ++ gridLetters.map ("A" ++ ·) ++ ["BA"]

/-- A ball by its row index and column, both from 1. -/
structure Ball where
  row : Nat
  col : Nat
  deriving DecidableEq, Repr

/-- The name of a ball. -/
def Ball.name (b : Ball) : String := gridRows.getD (b.row - 1) "" ++ toString b.col

/-- The P row of a port group (R538). -/
def portRow (r : Nat) : Nat := if r < 4 then 3 * r + 1 else 29 + 3 * (r - 4)

/-- The balls of PIXnnn_P and PIXnnn_N (R538). -/
def portP (ch : Nat) : Ball := ⟨portRow (ch / 32), 4 + ch % 32⟩
def portN (ch : Nat) : Ball := ⟨portRow (ch / 32) + 1, 4 + ch % 32⟩

/-- The ground rows C, F, J, M, AJ, AM, AT and AW (R538). -/
def groundRows : List Nat := [3, 6, 9, 12, 28, 31, 34, 37]

/-- The rows of the eight port groups. -/
def portRows : List Nat := (List.range 8).flatMap fun r => [portRow r, portRow r + 1]

/-- A name numbered from `a` on (R539). -/
def numbered (pre post : String) (a n : Nat) : List String := (List.range n).map fun k => pre ++ toString (a + k) ++ post

/-- Names numbered from 0 on, each with every one of some endings in turn. -/
def each (pre : String) (ends : List String) (n : Nat) : List String :=
  (List.range n).flatMap fun k => ends.map fun x => pre ++ toString k ++ x

/-- A subchannel's memory signals (R539). -/
def memSignals (sub : String) : List String :=
  numbered (sub ++ "_DQ") "" 0 32 ++ numbered (sub ++ "_CB") "" 0 8 ++ each (sub ++ "_DQS") ["_t", "_c"] 10 ++
  numbered (sub ++ "_DCA") "" 0 7 ++ ([ "_DPAR", "_DCS0_n", "_DCS1_n", "_DCK_t", "_DCK_c"].map (sub ++ ·))

/-- A supply's balls. -/
def supply (name : String) (n : Nat) : List String := List.replicate n name

/-- A region of the ball map: its rows, its columns and its balls in fill order (R539). -/
structure Region where
  rows  : List Nat
  cols  : List Nat
  balls : List String
  deriving DecidableEq, Repr

/-- The rows N to AH. -/
def midRows : List Nat := (List.range 15).map (13 + ·)

/-- The emitter and mirror edge. -/
def emitterEdge : Region :=
  ⟨portRows, [1, 2, 3], numbered "ROW_G" "" 0 8 ++ numbered "COL_DRV" "" 0 8 ++ numbered "COL_SNS" "" 0 8 ++
    ["HV_SW", "HV_FB", "TDIODE0", "TDIODE1", "TDIODE_RTN", "BIAS_SET", "MIR_PWM_A", "MIR_PWM_B", "MIR_EXC"] ++
    numbered "MIR_SNS" "" 0 4 ++ supply "VDD_AFE" 11⟩

/-- The monitor, press and safety edge. -/
def safetyEdge : Region :=
  ⟨portRows, [36, 37, 38, 39], each "MPD" ["_P", "_N"] 8 ++ ["FSYNC_IN"] ++ numbered "TRIG_IN" "" 0 4 ++ numbered "TRIG_OUT" "" 0 2 ++
    numbered "FACCEPT" "" 0 4 ++ ["OSSD_A", "OSSD_B", "OSSD_RB_A", "OSSD_RB_B", "EDM_A", "EDM_B"] ++ each "SAFE_IN" ["_A", "_B"] 4 ++
    ["SAFE_TX", "SAFE_RX", "SAF_XI", "SAF_XO"] ++ supply "VDD_AFE" 13 ++ supply "VSS" 6⟩

/-- Memory A. -/
def memoryA : Region :=
  ⟨midRows, (List.range 10).map (1 + ·), memSignals "A" ++ ["DRST_n", "ALERT_n", "HSCL", "HSDA", "MEM_ZQ"] ++
    supply "VDDQ_MEM" 12 ++ supply "VDD_IO" 6 ++ supply "VSS" 55⟩

/-- The centre. -/
def centre : Region :=
  let lane := fun (n : String) => ["_TXP", "_TXN", "_RXP", "_RXN"].map (n ++ ·)
  ⟨midRows, (List.range 19).map (11 + ·), ((numbered "LN" "" 0 8 ++ ["SCU0", "SCU1", "SCD0", "SCD1"]).flatMap lane) ++
    ["LANE_REXT", "REFCLK_P", "REFCLK_N"] ++ each "CLKOUT" ["_P", "_N"] 4 ++
    ["MGT_SCK", "MGT_CS_N", "MGT_MOSI", "MGT_MISO", "BUSY", "READY", "FAULT_N", "IRQ_N", "RESET_N", "FL_SCK", "FL_CS_N"] ++
    numbered "FL_DQ" "" 0 8 ++ ["FL_DQS", "TCK", "TMS", "TDI", "TDO", "TRST_N", "TEST_EN"] ++ numbered "HK_AIN" "" 0 13 ++ ["ADC_VREF"] ++
    supply "VDD_CORE" 96 ++ supply "VDD_TDC" 48 ++ supply "VDD_SAF" 6 ++ supply "VDD_LANE" 16 ++ supply "VDDA_LANE" 12 ++
    supply "VDD_IO33" 6 ++ supply "VSS" 2⟩

/-- Memory B. -/
def memoryB : Region :=
  ⟨midRows, (List.range 10).map (30 + ·), memSignals "B" ++ supply "VDDQ_MEM" 12 ++ supply "VDD_IO" 6 ++ supply "VSS" 60⟩

/-- The balls of a region in fill order: row by row, within a row by column (R539). -/
def Region.places (g : Region) : List Ball := g.rows.flatMap fun r => g.cols.map fun c => ⟨r, c⟩

/-- The signal on a ball of a region. -/
def Region.at (g : Region) (b : Ball) : Option String := (assoc (g.places.zip g.balls |>.map fun e => (40 * e.1.row + e.1.col, e.2)) (40 * b.row + b.col))

/-! ### Output levels (R530, R541) -/

/-- What an output pin shows where the state settles it. -/
structure Pins where
  ready    : Bool
  busy     : Bool
  /-- FAULT_N and IRQ_N are driven low; else released. -/
  faultLow : Bool
  irqLow   : Bool
  ossdA    : Bool
  ossdB    : Bool
  trigOut0 : Bool
  trigOut1 : Bool
  rowG     : List Bool
  sinks    : List Sink
  /-- The DAC codes of MIR_EXC and BIAS_SET. -/
  mirExc   : Int
  biasSet  : Nat
  /-- Data and chain transmitters in electrical idle, and outputs CLKOUT0 to 3 parked. -/
  idle     : List Bool
  parked   : List Bool
  deriving DecidableEq, Repr

/-- The outputs now; in RESET as R541 lists them. -/
def State.pins (s : State) : Pins where
  ready := s.ready
  busy := s.mgmt.op.isSome
  faultLow := s.faultLow
  irqLow := s.irqLow
  ossdA := s.saf.ossdA
  ossdB := s.saf.ossdB
  trigOut0 := s.lnk.tout0
  trigOut1 := s.lnk.tout1
  rowG := (List.range 8).map s.rowGate
  sinks := (List.range 8).map fun c => s.sinkAt c (4 * s.clk)
  mirExc := s.excCode s.now
  biasSet := s.rd F.CTL_HK_BIAS_BCODE
  idle := (List.range 12).map fun l => s.laneTx l == .electricalIdle
  parked := (List.range 4).map s.ckParked

end Machine

end Sys2Proof
end

