-- ==== Sys2Proof/WellFormed.lean ====
section
/-! DEFINITION. Well-formed commands: every index names one of the things that the device has, every code fits its converter.
A meaning does not rely on it: a command whose index names nothing has no effect. -/

namespace Sys2Proof

/-- A fine code is one of the 256 selected taps (R126). -/
def TdcCode.wf (c : TdcCode) : Bool := decide (c.p < 256)

/-- SEQ is a word (R413). -/
def ChainHdr.wf (h : ChainHdr) : Bool := decide (h.seq < 1048576)

/-- The items of PARAMS fit their fields (R430). -/
def ChainParams.wf (p : ChainParams) : Bool :=
  decide (p.member < 256) && decide (p.pos < 32) && decide (p.slotn < 64) && decide (p.slotlen < 1048576) &&
    decide (p.dl < 128) && decide (p.dr < 128) && decide (p.ncol < 512)

/-- A page holds at most 4,096 entries (R48). -/
def Page.wf (p : Page) : Bool := decide (p.entries.length ≤ 4096)

/-- The header has 256 bytes and each entry of the section table 48 (R468, R469); register words stand in ascending order of address;
pages fit. -/
def Image.wf (i : Image) : Bool :=
  i.header.length == 256 && ((i.values.zip (i.values.drop 1)).all fun e => decide (e.1.1 < e.2.1)) && i.table.length == 48 * i.sections.length && i.library.all fun e => e.2.wf

/-- A beat's rank is one of two (R386); a burst has 16 beats and a beat ten symbols (R392). -/
def MemHit.wf (h : MemHit) : Bool := decide (h.rank < 2) && decide (h.beat < 16) && h.errs.all fun e => decide (e.1 < 10)

/-- The command's operands are in range. -/
def Instr.wf (i : Instr) : Bool :=
  match i with
  | .nop _ _ _ => true
  | .read _ _ => true
  | .write _ _ _ => true
  | .malformedFrame _ => true
  | .evqRead _ => true
  | .profileSet _ => true
  | .profileSwitch _ => true
  | .profileEofTimeout _ => true
  | .recal _ => true
  | .recalEofTimeout _ => true
  | .recalRestart _ elems => elems.all fun e => !e.runs.isEmpty
  | .pageLoad _ => true
  | .pageLoadDone a => a.hits.all MemHit.wf
  | .attest _ => true
  | .attestDone _ => true
  | .nvmProgram _ => true
  | .nvmDone _ _ => true
  | .tbuRetune _ => true
  | .retuneRelock _ => true
  | .retuneTimeout _ => true
  | .scrubNow _ => true
  | .scrubNowDone _ hits => hits.all MemHit.wf
  | .pageSwitchBatten _ _ => true
  | .syncReleaseBatten _ _ => true
  | .arm _ _ => true
  | .disarm _ _ => true
  | .force _ _ => true
  | .capClear _ _ => true
  | .capSetupGo _ _ => true
  | .capSeglock _ n _ => decide (n < 2)
  | .capRdata _ hits => hits.all MemHit.wf
  | .fsoCommit _ stream _ => decide (stream < 4)
  | .fsoPin _ _ => true
  | .fsoRel _ _ => true
  | .fsoResend _ _ => true
  | .fsoRdata a => a.hits.all MemHit.wf
  | .exportGo _ _ => true
  | .exportAbort _ _ => true
  | .exportEnd _ hits => hits.all MemHit.wf
  | .contextSwap _ ctx hits => decide (ctx < 16) && hits.all MemHit.wf
  | .manualSubstitution _ row _ => decide (row < 8)
  | .portDisable _ port _ => decide (port < 256)
  | .portEnable _ port _ => decide (port < 256)
  | .airidxWrite _ _ => true
  | .rpeEhistWrite _ _ => true
  | .selWrite _ _ _ => true
  | .gainWrite _ _ _ => true
  | .driveStopClear _ _ => true
  | .laserFaultClear _ _ => true
  | .boostFaultClear _ _ => true
  | .modeRequest _ loop _ => decide (loop < 3)
  | .targetWrite _ _ => true
  | .jigWrite _ lane _ => decide (lane < 12)
  | .bitslip _ lane _ => decide (lane < 12)
  | .lnkTbusSet _ _ => true
  | .lnkTbusClr _ _ => true
  | .shimWindowWrite _ i _ => decide (i < 256)
  | .certDataRead _ => true
  | .fire _ => true
  | .listen _ => true
  | .cal _ => true
  | .wait _ => true
  | .mark _ => true
  | .sync _ => true
  | .syncEvent _ => true
  | .syncTo _ => true
  | .branch _ => true
  | .pageImmediate _ => true
  | .pageIssue _ => true
  | .battenExecute _ => true
  | .pageReload a => a.hits.all MemHit.wf
  | .fireCommand _ _ => true
  | .startEdge _ row code _ => decide (row < 8) && code.lead.wf && code.trail.all TdcCode.wf
  | .startDeadline _ row => decide (row < 8)
  | .mpdReading _ row _ => decide (row < 8)
  | .chargePwmEvent _ => true
  | .urgentConversion _ raw => decide (raw < 4096)
  | .hvOv _ => true
  | .boostFault _ => true
  | .stallMonitorTrip _ _ => true
  | .movingDrop _ _ => true
  | .comparatorEdge _ unit lead trail hi _ => decide (unit < 264) && lead.wf && trail.all TdcCode.wf && hi.all TdcCode.wf
  | .receiverClose _ unit => decide (unit < 264)
  | .spareSettled _ row => decide (row < 8)
  | .verificationDone _ row => decide (row < 8)
  | .backgroundTable _ port => decide (port < 264)
  | .skewUpdate _ unit => decide (unit < 272)
  | .gateEnd _ unit => decide (unit < 276)
  | .hitExpiry _ port => decide (port < 256)
  | .trigInEdge _ k _ _ => decide (k < 4)
  | .fsyncInEdge _ _ _ => true
  | .binning _ port => decide (port < 256)
  | .echoExtraction _ hits => hits.all MemHit.wf
  | .shotSet _ => true
  | .historyFrameEnd _ => true
  | .ambientSample _ => true
  | .trackerTick _ => true
  | .seedingEnd _ => true
  | .sof _ => true
  | .eol _ => true
  | .eof _ => true
  | .pointRecordPlace _ => true
  | .frameStartEvent _ => true
  | .facceptEdge _ n => decide (n < 4)
  | .accwaitExpiry _ stream => decide (stream < 4)
  | .lineFetch _ stream _ hits _ => decide (stream < 4) && hits.all MemHit.wf
  | .captureRecord _ => true
  | .trigger _ => true
  | .posttExpiry _ => true
  | .rearm _ => true
  | .avgIntervalEnd _ => true
  | .excitationPeriodEnd _ _ _ => true
  | .takeoverSettled _ _ => true
  | .stbyOpen _ input => decide (input < 4)
  | .cicOutput _ _ => true
  | .turningPointEvent _ _ => true
  | .kick _ => true
  | .mstartExpiry _ => true
  | .lockWindow _ _ _ _ _ => true
  | .referenceLoss _ => true
  | .ptpSourceLoss _ => true
  | .tsnap _ => true
  | .slewComplete _ => true
  | .deviceTelegram _ => true
  | .pressTelegram _ path words _ => (path == 1 || path == 2) && (path != 1 || words.length == 16)
  | .pressTmo _ => true
  | .channelBWindowEnd _ row => decide (row < 8)
  | .channelAEvaluation _ => true
  | .freshnessExpiry _ _ cell => decide (cell < 8192)
  | .tbridgeExpiry _ port => decide (port < 257)
  | .trackingInterval _ _ => true
  | .safeInChange _ n _ _ => decide (n < 4)
  | .inputDisc _ n => decide (n < 4)
  | .zoneSetSwitch _ _ => true
  | .safeReset _ => true
  | .disc _ => true
  | .tclrExpiry _ => true
  | .ossdTest _ _ _ _ _ => true
  | .ossdFault _ _ => true
  | .edmFault _ => true
  | .heartbeat _ => true
  | .lockstep _ => true
  | .laneStageAdvance _ lane => decide (lane < 12)
  | .trainingFrame _ lane _ => decide (lane < 12)
  | .laneStageTimeout _ lane => decide (lane < 12)
  | .laneLoss _ lane => decide (lane < 12)
  | .hello _ lane _ _ => decide (lane < 8)
  | .select _ lane _ _ => decide (lane < 8)
  | .sub _ lane _ _ => decide (lane < 8)
  | .keepalive _ lane _ _ => decide (lane < 8)
  | .bye _ lane _ _ => decide (lane < 8)
  | .keepaliveSend _ partner => decide (partner < 64)
  | .keepaliveTimeout _ partner => decide (partner < 64)
  | .accept _ lane _ _ => decide (lane < 8)
  | .commit _ lane _ _ => decide (lane < 8)
  | .chainJoin _ => true
  | .probeSend _ => true
  | .probe _ hdr => hdr.wf
  | .echo _ hdr _ _ _ _ => hdr.wf
  | .params _ hdr p => hdr.wf && p.wf
  | .batten _ hdr _ _ _ _ => hdr.wf
  | .tbedge _ hdr line _ _ _ => hdr.wf && decide (line < 8)
  | .triggerBusEvent _ line => decide (line < 8)
  | .dove _ hdr _ => hdr.wf
  | .timeset _ hdr _ _ _ => hdr.wf
  | .arpRequest _ lane _ _ _ => decide (lane < 8)
  | .icmpEchoRequest _ lane _ _ => decide (lane < 8)
  | .ptpAnnounce _ lane _ _ => decide (lane < 8)
  | .ptpSync _ lane _ _ _ _ => decide (lane < 8)
  | .ptpDelayResp _ lane _ _ _ => decide (lane < 8)
  | .scrubPassStart _ _ _ hits => hits.all MemHit.wf
  | .thermalSensorRead _ _ => true
  | .periodicRecalibration _ _ => true
  | .roundStart _ => true
  | .conversionEnd _ ch raw => decide (ch < 36) && decide (raw < 4096)
  | .interimConversion _ raws => raws.length == 12 && raws.all (fun r => decide (r < 4096))
  | .thermalTrip _ sensor => decide (sensor < 12)
  | .thermalRelease _ => true
  | .resetN _ _ => true
  | .railLoss _ _ => true
  | .watchdog _ => true
  | .resetRelease _ => true
  | .bootFlash _ _ => true
  | .bootVerify _ image => image.wf
  | .bootCal _ elems => elems.all fun e => !e.runs.isEmpty
  | .bootMem _ _ => true
  | .bootTbl _ => true
  | .bootSeed _ => true
  | .edmInputChange _ _ _ => true
  | .arpReply _ lane _ _ => decide (lane < 8)
  | .arpRequestTimeout _ lane _ => decide (lane < 8)

end Sys2Proof
end

