-- ==== Sys2Proof/Tests/Slice0.lean ====
section
/-! SUPPORT. Tests: ill-formed commands that WellFormed refuses, words of the opcode table, steps whose result is calculated by
hand from the spec's rules, and states that meet the hypotheses of the statements (`hyp_<statement>`). -/

namespace Sys2Proof.Tests

set_option maxRecDepth 30000

open Sys2Proof Sys2Proof.Machine

/-! ### Small states -/

/-- A device in RUN, everything else as after reset. -/
def run : State := State.reset.setDev .run

/-- A device in BOOT. -/
def boot : State := State.reset.setDev .boot

/-- Give fields values. -/
def put (s : State) (l : List (Fld × Nat)) : State := l.foldl (fun s e => s.wr e.1 e.2) s

/-- The state after a command, which every command answers. -/
def after (s : State) (c : Instr) : State :=
  match exec c s with
  | .next t => t
  | _ => s

theorem run_open : run.portOpen := ⟨by decide, by decide, rfl⟩

/-- The port takes frames: neither RESET nor THERMAL, and nothing BUSY. -/
def opened (s : State) : Bool := s.dev != .reset && s.dev != .thermal && s.mgmt.op.isNone

theorem portOpen_of_opened (s : State) (h : opened s = true) : s.portOpen := by
  simp only [opened, Bool.and_eq_true, bne_iff_ne, Option.isNone_iff_eq_none] at h
  exact ⟨h.1.1, h.1.2, h.2⟩

/-- A device on which every long operation can start. -/
def ops : State :=
  ((((((put run [(F.CTL_PROF_ARG_CODE, 4), (F.CTL_PROF_REC_DEF 4, 1), (F.CTL_PROF_ZS_ZSOK 4, 1), (F.CTL_SEQ_LOADARG_TGT, 1),
    (F.CTL_SEQ_LOADARG_LIB, 15), (F.MEM_STATUS_RANKS, 1), (F.MEM_SNARG_COUNT_COUNT, 1), (F.CTL_NVM_OP_OP, 0)]).wrWide 0x1003 2 10000000)
    |>.modSeq fun q => { q with library := [(15, default)] }).modBoot fun b =>
      { b with verifyDone := true, flashDone := true, nvmlock := false, density := 2 ^ 24, pageSize := 256 }).modSaf fun v =>
      { v with st := .stop }).modHk fun h =>
      { h with interim := List.replicate 12 400 })

/-- A device whose long operation is in progress. -/
def busy (op : LongOp) : State := run.modMgmt fun m => { m with op := some op }

/-- Both subchannels are available, and the module is trained. -/
def fed (s : State) : State := put (s.modTbu fun b => { b with system := ⟨true, 4, 0⟩ }) [(F.MEM_STATUS_TRAINED, 1)]

/-- A device whose CAP is armed for a segment. -/
def capPre : State := (put run [(F.CAP_CTL_ARM, 1), (F.CAP_A_NSEG_NSEG, 3)]).modCap fun c =>
  { c with st := .pre, seg := some { (default : Seg) with slot := 2 } }

/-- A staged capture setup that a commit takes: one segment of 40 words in a region of 4 bursts. -/
def capSetup : State := (((put run [(F.CAP_S_NSEG_NSEG, 1), (F.CAP_S_RHI_R, 1)]).wrWide 0x7005 2 40).wrWide 0x700A 2 40).wrWide 0x7082 2 4

/-- A RAW record of port 0, for a setup that takes it. -/
def capRec : CapRec := { (default : CapRec) with typ := 1, nstop := 1 }
def capTake : State := (put capPre [(F.CAP_A_MODE_RAWK, 7), (F.CAP_A_PMASK_PMASK 0, 1)]).modCap fun c => { c with recs := [capRec] }

/-- A stream that assembles in slot 0 and has slot 1 READY. -/
def strA : Stream := { (default : Stream) with s0 := { (default : FrmSlot) with st := .asm, gen := 3 },
                                               s1 := { (default : FrmSlot) with st := .ready, gen := 9 } }
def frames : State := run.modFso fun f => { f with str0 := strA, str3 := strA }

/-- Partner 5, ACTIVE at 2.3. -/
def ptn5 : Partner := { (default : Partner) with st := .active, maj := 2, min := 3 }

/-- A segment that a GO can take out, and its job. -/
def expReady : State := ((put run [(F.CMP_EXP_SLOT_SLOT, 5)]).wrWide 0x9202 2 1).modCap fun c => { c with slots := [(5, default)] }
def job : ExpJob := ⟨0, 5, 0, 0, false, false, 0, []⟩

/-- Context 1 wants to be resident among four that are. -/
def ctxs : State := (fed run).modCmp fun m => { m with 
  ctxs := (1, { Ctx.free with used := true, eng := true }) ::
    ([2, 3, 4, 5].map fun n => (n, { Ctx.free with used := true, eng := true, resident := true, lastUse := n })) }

/-- Group 0 has a fire window with the receivers of two ports. -/
def fireWin (p : PWin) : GWin := { (default : GWin) with kind := .fire, fire := some default, units := [(0, p), (1, default)] }
def winOf (w : GWin) (s : State) : State := s.modRta fun a => { a with wins := [(0, w)] }
def edge0 : Edge := ⟨0, none, none, 0, false⟩

/-- A substitution in group 7 at one of its stages. -/
def subst (x : SubStage) : State := run.modRta fun a => { a with subs := [(7, ⟨224, 0, x⟩)] }

/-- A fire's record with the shot of port 0. -/
def shotRec (nm1 : Nat) : FireRec :=
  { (default : FireRec) with fire := { (default : Fire) with nm1 := nm1 }, active := [0], shots := [(0, default)] }
def shots (nm1 : Nat) : State := run.modRta fun a => { a with recs := [shotRec nm1] }

/-- An entry with these words and a good check code. -/
def entry (w0 w1 w2 : Word) : Entry := ⟨w0, w1, w2, 0, 0, true⟩

/-- A device that runs a page of these entries, at the first. -/
def cut (l : List Entry) : State := run.modSeq fun q => { q with st := .run, pageA := { (default : Page) with entries := l } }

/-- The sequencer waits in SYNC. -/
def syncing : State := run.modSeq fun q => { q with st := .syncwait, syncSrc := 1, syncTmo := 1 }

/-- A pending page switch to an entry. -/
def battenAt (te : Nat) (s : State) : State := s.modSeq fun q => { q with batten := some ⟨false, false, 0, te⟩ }

/-- An emitter that may fire in row 7, with one fire at its head. -/
def emit : State := ((put run [(F.EDU_ROW_EN_EN, 255)]).modEdu fun e => { e with started := true }).modSeq fun q =>
  { q with fires := [{ (default : Fire) with row := 7, instant := 10 }] }

/-- The flight of a fire of row 7 from 0. -/
def flight : Flight := ⟨3, 7, 0, 0, 0, 1, true⟩

/-- The excitation runs with four conversions in a period of 4 µs. -/
def excite : State := (put run [(F.STU_EXC_NEX, 4)]).modTbu fun b => { b with gov0 := some 0 }
def senses (x : Sense) : State := excite.setSense .ctrl x
def x0 : Sense := { excite.sense .ctrl with replPeriod := false, bad := 0, pendSel := none, settleTo := 0 }

/-- A channel with an output and turning points. -/
def angle (f : Tp → Tp) : State := (put run [(F.STU_SNS_M_EN, 1)]).setSense .mon
  { run.sense .mon with outs := [⟨0, 0, 0, false⟩], tp := f (run.sense .mon).tp }

/-- A locked timing PLL on a reference of 10 MHz, with windows of 1 s counted in ns. -/
def timed (f : Tbu → Tbu) : State := (run.wrWide 0x1001 2 10000000).modTbu fun b => f { b with refOk := true, timing := ⟨true, 4, 0⟩ }

/-- NWIN periods of the reference are 100 ns each: the count of a window of the right length. -/
def count0 : Nat := 100 * run.nwin

/-- A joined device that drives and receives line 7 of the trigger bus. -/
def bussed : State := (put run [(F.LNK_TB_EN 7, 1), (F.LNK_TB_SRC 7, 5)]).modLnk fun l =>
  { l with joined := true, lanes := [(8, ⟨.active, 0, false, false, 0, 0, 0⟩)] }

/-- Zone set 0, in force in both channels, has the protective cell 0 from 1 to 2 m. -/
def zone0 : ZoneSet := ⟨[(0, ⟨.pzm, 10000, 20000, 1, 2⟩)], [], 1, []⟩
def zoned (f : Saf → Saf) : State := (put run [(F.CTL_PROF_ZS_ZSOK (run.rd F.CTL_PROFILE_ACTIVE), 0xFFFF)]).modSaf fun v =>
  f { v with zones := [(0, zone0)] }

/-- The reset pair went high and then low; nothing is demanded. -/
def pulse (st : SafSt) (r f : Nat) : State :=
  (zoned fun v => { v with st := st, resetRise := some r, resetFall := some f }).modEdu fun e => { e with started := true }

/-- The press's telegram of cycle 9 on path 1, for the device at position 0, and its words. -/
def pressWords : List Word := [0x10200, 9] ++ List.replicate 12 0
def onPath1 (ws : List Word) : List Word := ws ++ wordsOf (crcA (streamBits ws)) 2
def pressed (f : Saf → Saf) : State := (put run [(F.SAF_CFG_PRESSEN, 1), (F.SAF_OSTTMO_TMO, 1)]).modSaf f

/-- Both PLLs are locked and lane l stands at a stage since 0. -/
def laneAt (l : Nat) (st : Stage) : State := (run.modTbu fun b => { b with timing := ⟨true, 4, 0⟩, system := ⟨true, 4, 0⟩ }).setLane l
  ⟨st, 0, false, false, 0, 0, 0⟩

/-- Partner 5 at home on lane 0, ACTIVE at 2.3, and another lane of its aggregate. -/
def home : State := ((laneAt 0 .active).setLane 1 ⟨.active, 0, false, false, 0, 0, 0⟩).modLnk fun l =>
  { l with partners := [(5, { (default : Partner) with st := .active, maj := 2, min := 3 })] }

/-- A DLP message of a type for entry 5, SEQ 9. -/
def dlp (typ : Nat) (payload : List Word) : List Word :=
  let b := [BitVec.ofNat 20 (typ * 2 ^ 12 + 5 * 2 ^ 6), BitVec.ofNat 20 payload.length, 9] ++ payload
  b ++ wordsOf (crcA (streamBits b)) 2
def src0 : EthSrc := ⟨0, 0⟩

/-- Entry 5 in CAPS with an offer of 2.3. -/
def inCaps : State := home.setPtn 5 { (default : Partner) with st := .caps, offMaj := 2, offMin := 3 }

/-- An upstream neighbour at a position, joined. -/
def par (pos : Nat) : ChainParams := ⟨0, pos, 0, 0, 0, true, 4, 4, 256, true, 0, 0⟩
def below (pos : Nat) : State := (laneAt 8 .active).setNeigh .up { (default : Neigh) with params := some (par pos) }

/-- A joined device below a neighbour that works in Dovetail with it. -/
def dovetail : State := (put (below 0) [(F.CTL_DOVE_DVX, 1), (F.CTL_DOVE_DL, 4)]).modLnk fun l => { l with joined := true }

/-- An ETH lane 7 that serves PTP. -/
def eth : State := (put (laneAt 7 .active) [(F.LNK_LCFG_MODE 7, 2), (F.LNK_CFG_ROLE, 1), (F.LNK_CFG_PTPEN, 1), (F.LNK_CFG_PTPLANE, 7)])

/-- A round stands before a channel at 0. -/
def round (l : List Nat) : State := run.modHk fun h => { h with rounds := true, todo := l }

/-- A device in BOOT with these steps behind it. -/
def booted (f : Boot → Boot) : State := boot.modBoot f

/-- A module that R385 knows, with one rank of 16 Gb devices at 3200. -/
def spd : Spd := ⟨true, 1, 1, true, 10, false, 1, [3200], true⟩

/-! ### An image that the loader takes -/

/-- A device in BOOT that has read the flash, at 25 °C. -/
def flashed : State := (boot.modBoot fun b => { b with refDone := true, flashDone := true }).modHk fun h =>
  { h with interim := List.replicate 12 400 }

/-- The register values of the image that differ from what the registers hold anyway, in ascending order of address (R470). -/
def imgA : List (Nat × Word) :=
  [(0x0121, 1024), (0x0138, 0x80000), (0x1001, 0x89680), (0x1002, 9), (0x1006, 1), (0x2004, 200), (0x2005, 200), (0x2010, 1), (0x3002, 200),
   (0x3003, 0x20000)] ++ (List.range 4).map fun i => (0x300C + i, (8192 : Word))
def imgB : List (Nat × Word) :=
  [(0x3014, 0x00E00), (0x3015, 0x22222), (0x3016, 0x20000), (0x3022, 1), (0x3023, 1), (0x302B, 4), (0x3081, 1), (0x3082, 0x2800), (0x3085, 1),
   (0x3086, 0x2800), (0x308A, 1), (0x308B, 0xFFFFF), (0x308E, 1), (0x308F, 0xFFFFF)]
def imgC : List (Nat × Word) :=
  [(0x5028, 0x1000), (0x6040, 10), (0x6042, 0x400), (0x6044, 1)] ++ ((List.range 8).map fun i => (0x6048 + i, (0xFFFFF : Word))) ++
  [(0x6063, 0x1001)]
def imgD : List (Nat × Word) :=
  [(0x7005, 40), (0x7007, 1), (0x700A, 40), (0x700F, 1), (0x7081, 2), (0x7082, 4), (0x8002, 1), (0x8003, 100),
   (0xA004, 0x01234), (0xA008, 0x01234), (0xA009, 0x50000)]
def imgE : List (Nat × Word) := (List.range 12).map fun l => (0xB102 + 32 * l, (0x1800 : Word))
def imgF : List (Nat × Word) := (0xC011, 1) :: (List.range 16).map fun i => (0xD010 + 2 * i, BitVec.ofNat 20 i)
def imgGiven : List (Nat × Word) := imgA ++ (imgB ++ (imgC ++ (imgD ++ (imgE ++ imgF))))

/-- The values given, and at every other of these addresses the word that the register holds at reset. -/
def fill : List Nat → List (Nat × Word) → List (Nat × Word)
  | [], vs => vs
  | a :: r, [] => (a, RegMap.resetWord a) :: fill r []
  | a :: r, v :: vs => if v.1 == a then v :: fill r vs else (a, RegMap.resetWord a) :: fill r (v :: vs)

/-- Every word that an image must give (R557), and the size of one capture region. -/
def imgAddrs : List Nat := required.flatMap fun a => if a == 0x701C then [a, 0x7081, 0x7082] else [a]

/-- An image that the loader takes: one page of one WAIT, and a region for the capture setup. -/
def img0 : Image :=
  { (default : Image) with
    header := List.replicate 256 0, table := List.replicate 288 0, magic := 0x4D444D54, fmtMaj := 3, fmtMin := 4, member := 8, vsigOk := true, isigOk := true,
    library := [(0, { (default : Page) with fmtMaj := 2, pitch := 250, entries := [⟨0x40000, 1000, 0, 0, 0, true⟩] })],
    values := fill imgAddrs imgGiven, startOfs := List.replicate 8 0, ctx := 0x20000, exp := (0x28000, 0),
    sections := (List.range 6).map fun k => { (default : SecEntry) with typ := k + 1, offset := 3 * k, slen := 3, olen := 1 } }

/-- Words loaded over a register table. -/
def loadR (l : List (Nat × Word)) (r : SMap Word) : SMap Word :=
  (l.foldl (fun s v => s.loadWord v.1 v.2) ({ (flashed.begin 9) with regs := r } : State)).regs

theorem loads_eq (l : List (Nat × Word)) : ∀ r, l.foldl (fun s v => s.loadWord v.1 v.2) ({ (flashed.begin 9) with regs := r } : State) =
    { (flashed.begin 9) with regs := loadR l r } := by
  induction l with
  | nil => exact fun _ => rfl
  | cons v l ih => exact fun r => ih _

theorem loadR_append (l m : List (Nat × Word)) (r : SMap Word) : loadR (l ++ m) r = loadR m (loadR l r) := by
  unfold loadR
  rw [List.foldl_append, loads_eq l r]

theorem erase_absent (r : SMap Word) (k : Nat) (h : ∀ e ∈ r, e.1 ≠ k) : SMap.erase r k = r :=
  List.filter_eq_self.2 fun e he => by simpa using h e he

/-- Only bits that are 1 at reset are stuck at 1. -/
theorem stuck_at_reset (a : Nat) : RegMap.resetWord a ||| stuckBits a = RegMap.resetWord a := by
  by_cases h : a = 0x0005
  · subst h; decide
  by_cases k : a = 0x7004
  · subst k; decide
  simp [stuckBits, h, k]

/-- A load of the word that the register holds at reset changes nothing where nothing else is listed. -/
theorem loadR_reset (a : Nat) (r : SMap Word) (h : ∀ e ∈ r, e.1 ≠ a) : loadR [(a, RegMap.resetWord a)] r = r := by
  have hw : SMap.get RegMap.resetWord r a = RegMap.resetWord a := SMap.get_none _ _ _ h
  have hm : ∀ x m : Word, x &&& ~~~m ||| x &&& m = x := fun x m => by
    ext i
    simp
    cases x[i] <;> cases m[i] <;> rfl
  show SMap.put RegMap.resetWord r a _ = r
  simp only [State.word, hw, stuck_at_reset, hm]
  simp [SMap.put, erase_absent r a h]

theorem loadR_keys (v : Nat × Word) (r : SMap Word) : ∀ e ∈ loadR [v] r, e.1 = v.1 ∨ e ∈ r := by
  intro e he
  have he : e ∈ SMap.put RegMap.resetWord r v.1 _ := he
  have hr : e ∈ SMap.erase r v.1 → e ∈ r := fun h => (List.mem_filter.1 h).1
  unfold SMap.put at he
  split at he
  · exact .inr (hr he)
  · rcases (SMap.mem_insert _ _ _ _).1 he with h | h
    · exact .inl (by rw [h])
    · exact .inr (hr h)

/-- Loading the filled list is loading the given words: the addresses ascend and nothing else is listed at them. -/
theorem loads_fill : ∀ (as : List Nat) (vs : List (Nat × Word)) (r : SMap Word), as.Pairwise (· < ·) →
    (∀ a ∈ as, ∀ e ∈ r, e.1 ≠ a) → loadR (fill as vs) r = loadR vs r
  | [], _, _, _, _ => rfl
  | a :: as, [], r, hp, hk => by
    show loadR ([(a, RegMap.resetWord a)] ++ fill as []) r = _
    rw [loadR_append, loadR_reset a r (hk a (by simp))]
    exact loads_fill as [] r hp.of_cons fun b hb => hk b (by simp [hb])
  | a :: as, v :: vs, r, hp, hk => by
    unfold fill
    split
    · next h =>
      have h : v.1 = a := by simpa using h
      show loadR ([v] ++ fill as vs) r = loadR ([v] ++ vs) r
      rw [loadR_append, loadR_append]
      refine loads_fill as vs _ hp.of_cons fun b hb e he => ?_
      rcases loadR_keys v r e he with k | k
      · exact k ▸ h ▸ Nat.ne_of_lt (List.rel_of_pairwise_cons hp hb)
      · exact hk b (by simp [hb]) e k
    · show loadR ([(a, RegMap.resetWord a)] ++ fill as (v :: vs)) r = _
      rw [loadR_append, loadR_reset a r (hk a (by simp))]
      exact loads_fill as (v :: vs) r hp.of_cons fun b hb => hk b (by simp [hb])

/-- The stated defaults that the words do not hold from reset on (R557). -/
def imgDef : SMap Word := [(0xC00B, 5000), (0xC00C, 300), (0xC00D, 60), (0xC00E, 1000), (0xC00F, 100), (0xC012, 200), (0xC013, 2)]

theorem img_defaults : loadR imageDefaults [] = imgDef := by decide +kernel
theorem img_a : loadR imgA imgDef = imgA ++ imgDef := by decide +kernel
theorem img_b : loadR imgB (imgA ++ imgDef) = imgA ++ imgB ++ imgDef := by decide +kernel
theorem img_c : loadR imgC (imgA ++ imgB ++ imgDef) = imgA ++ imgB ++ imgC ++ imgDef := by decide +kernel
theorem img_d : loadR imgD (imgA ++ imgB ++ imgC ++ imgDef) = imgA ++ imgB ++ imgC ++ imgD ++ imgDef := by decide +kernel
theorem img_e : loadR imgE (imgA ++ imgB ++ imgC ++ imgD ++ imgDef) = imgA ++ imgB ++ imgC ++ imgD ++ imgE ++ imgDef := by decide +kernel

/-- The register table once the image is loaded. -/
def imgRegs : SMap Word := imgA ++ imgB ++ imgC ++ imgD ++ imgE ++ imgDef.take 5 ++ imgF.take 1 ++ imgDef.drop 5 ++ imgF.drop 2
theorem img_f : loadR imgF (imgA ++ imgB ++ imgC ++ imgD ++ imgE ++ imgDef) = imgRegs := by decide +kernel

theorem img_rising : imgAddrs.Pairwise (· < ·) := List.isChain_iff_pairwise.1 (by decide +kernel)
theorem img_apart : ∀ a ∈ imgAddrs, ∀ e ∈ imgDef, e.1 ≠ a := by
  have h : (imgAddrs.all fun a => !(imgDef.any fun e => e.1 == a)) = true := by decide +kernel
  intro a ha e he k
  have := List.all_eq_true.1 h a ha
  have hh : (imgDef.any fun e => e.1 == a) = true := List.any_eq_true.2 ⟨e, he, by simp [k]⟩
  simp [hh] at this

/-- The state as the loader judges it. -/
def imgS : State := { (flashed.begin 9) with regs := imgRegs }

theorem img_loaded : (flashed.begin 9).loadImage img0 = imgS := by
  show (imageDefaults ++ fill imgAddrs imgGiven).foldl (fun s v => s.loadWord v.1 v.2) ({ (flashed.begin 9) with regs := [] } : State) = _
  rw [loads_eq, loadR_append, img_defaults, loads_fill _ _ _ img_rising img_apart]
  unfold imgGiven
  rw [loadR_append, img_a, loadR_append, img_b, loadR_append, img_c, loadR_append, img_d, loadR_append, img_e, img_f]
  rfl

theorem img_covers : covers required img0.values = true := by decide +kernel
theorem img_limits : limited.all imgS.limitOk = true := by decide +kernel
theorem img_defs : imgS.defsOk img0 = true := by decide +kernel
theorem img_library : imgS.libraryOk img0 = true := by decide +kernel
theorem img_rest : (imgS.profilesOk img0 && imgS.roundsOk && imgS.biasOk && imgS.aggOk && imgS.lanesOk && zonesOk img0 &&
    disjoint imgS.partsA && disjoint ((img0.tbl, tblBursts) :: (img0.ctx, ctxBursts) :: img0.exp :: img0.frm) && imgS.loadsOk img0.loads &&
    imgS.rotationOk 0xA004 5 && imgS.rotationOk 0xA008 6 && imgS.judgeSetup == .ok) = true := by decide +kernel

/-- The image passes every refusal that boot judges from it. -/
theorem img_content : ((flashed.begin 9).loadImage img0).contentOk img0 = true := by
  have h := img_rest
  simp only [Bool.and_eq_true] at h
  obtain ⟨⟨⟨⟨⟨⟨⟨⟨⟨⟨⟨h1, h2⟩, h3⟩, h4⟩, h5⟩, h6⟩, h7⟩, h8⟩, h9⟩, ha⟩, hb⟩, hc⟩ := h
  rw [img_loaded]
  unfold State.contentOk
  rw [img_covers, img_limits, img_defs, img_library, h1, h2, h3, h4, h5, h6, h7, h8, h9, ha, hb, hc]
  rfl

theorem img_sections : img0.secVerdict = none := by
  unfold Image.secVerdict
  rw [List.mergeSort_of_pairwise (by decide)]
  decide

/-! ### Ill-formed commands: one for each check of WellFormed -/

/-- The header of a chain message whose SEQ is no word. -/
def badHdr : ChainHdr := ⟨.up, 1048576, true⟩
def badHit : MemHit := ⟨2, 0, 0, []⟩
def good : ChainParams := ⟨0, 0, 0, 0, 0, false, 0, 0, 1, false, 0, 0⟩

theorem wf_refuses_numbers : ([.capSeglock 0 2 0, .fsoCommit 0 4 0, .contextSwap 0 16 [], .manualSubstitution 0 8 0, .portDisable 0 256 0,
    .portEnable 0 256 0, .modeRequest 0 3 0, .jigWrite 0 12 0, .bitslip 0 12 0, .shimWindowWrite 0 256 0, .startEdge 0 8 ⟨⟨0, 0⟩, none⟩ 0,
    .startDeadline 0 8, .mpdReading 0 8 0, .urgentConversion 0 4096, .comparatorEdge 0 264 ⟨0, 0⟩ none none none, .receiverClose 0 264,
    .spareSettled 0 8, .verificationDone 0 8, .backgroundTable 0 264, .skewUpdate 0 272, .gateEnd 0 276, .hitExpiry 0 256, .binning 0 256,
    .facceptEdge 0 4, .accwaitExpiry 0 4, .lineFetch 0 4 false [] false, .stbyOpen 0 4, .channelBWindowEnd 0 8, .freshnessExpiry 0 .a 8192,
    .tbridgeExpiry 0 257, .inputDisc 0 4] : List Instr).all (fun i => !i.wf) = true := by decide

theorem wf_refuses_lanes : ([.laneStageAdvance 0 12, .trainingFrame 0 12 default, .laneStageTimeout 0 12, .laneLoss 0 12, .hello 0 8 src0 [],
    .select 0 8 src0 [], .sub 0 8 src0 [], .keepalive 0 8 src0 [], .bye 0 8 src0 [], .keepaliveSend 0 64, .keepaliveTimeout 0 64,
    .accept 0 8 src0 [], .commit 0 8 src0 [], .arpRequest 0 8 0 0 0, .icmpEchoRequest 0 8 0 [], .ptpAnnounce 0 8 0 [], .arpReply 0 8 0 0,
    .arpRequestTimeout 0 8 0, .ptpDelayResp 0 8 0 0 0, .conversionEnd 0 36 0, .conversionEnd 0 0 4096, .interimConversion 0 [],
    .interimConversion 0 (List.replicate 12 4096), .thermalTrip 0 12, .triggerBusEvent 0 8] : List Instr).all (fun i => !i.wf) = true := by
  decide

theorem wf_refuses_operands : ([.pageLoadDone ⟨0, [badHit]⟩, .scrubNowDone 0 [⟨0, 0, 16, []⟩], .capRdata 0 [⟨0, 0, 0, [(10, 1)]⟩],
    .exportEnd 0 [badHit], .scrubPassStart 0 false 0 [badHit], .echoExtraction 0 [badHit], .fsoRdata ⟨0, [badHit]⟩, .pageReload ⟨0, [badHit]⟩,
    .recalRestart 0 [⟨.adc, 0, []⟩], .bootCal 0 [⟨.adc, 0, []⟩], .startEdge 0 0 ⟨⟨0, 256⟩, none⟩ 0, .startEdge 0 0 ⟨⟨0, 0⟩, some ⟨0, 256⟩⟩ 0,
    .comparatorEdge 0 0 ⟨0, 256⟩ none none none, .pressTelegram 0 3 [] [], .pressTelegram 0 1 [] [], .chainJoin 0, .probe 0 badHdr,
    .echo 0 badHdr 0 0 0 0, .dove 0 badHdr [], .timeset 0 badHdr 0 0 0, .batten 0 badHdr false false 0 0,
    .params 0 ⟨.up, 0, true⟩ { good with member := 256 }, .params 0 ⟨.up, 0, true⟩ { good with pos := 32 },
    .params 0 ⟨.up, 0, true⟩ { good with slotn := 64 }, .params 0 ⟨.up, 0, true⟩ { good with slotlen := 1048576 },
    .params 0 ⟨.up, 0, true⟩ { good with dl := 128 }, .params 0 ⟨.up, 0, true⟩ { good with dr := 128 },
    .params 0 ⟨.up, 0, true⟩ { good with ncol := 512 }] : List Instr).map Instr.wf = List.replicate 15 false ++ true :: List.replicate 12 false := by
  decide

theorem wf_refuses_images : (Instr.bootVerify 0 { img0 with header := [] }).wf = false ∧ (Instr.bootVerify 0 { img0 with table := [] }).wf = false ∧
    (Instr.bootVerify 0 { img0 with values := [(2, 0), (1, 0)] }).wf = false ∧
    (Instr.bootVerify 0 { img0 with library := [(0, { (default : Page) with entries := List.replicate 4097 default })] }).wf = false := by
  decide +kernel

theorem wf_takes_image : (Instr.bootVerify 0 img0).wf = true := by decide +kernel

/-! ### The manual's worked examples -/

/-- "A lifted label edge seen by PIX157" (chapter 0): row and group 4, registers from 49D0h. -/
theorem test_port_registers : (F.RTA_PCFG_EN 157).addr = 0x49D0 ∧ 157 / 32 = 4 := by decide

/-- "PIX109 of the corrugator beam" (chapter 19): K17 and L17. -/
theorem test_ball_names : (portP 109).name = "K17" ∧ (portN 109).name = "L17" := by decide

/-- The regions' ball counts as R537 to R539 state them: the fill orders use every ball. -/
theorem test_ball_counts : [emitterEdge, safetyEdge, memoryA, centre, memoryB].map (fun g => g.balls.length) = [48, 64, 150, 285, 150] ∧
    [emitterEdge, safetyEdge, memoryA, centre, memoryB].map (fun g => g.places.length) = [48, 64, 150, 285, 150] := by decide +kernel

/-- A fire of the FULL page (chapter 3): G 800, trims at 31, PW 16, KGOV 8,323 give 6,350 EU. -/
theorem test_energy : (put run [(F.EDU_GOV_K_KGOV, 8323)]).energy
    { (default : Fire) with colmask := 0xFF, pw := 16, g := 800, trims := List.replicate 8 31 } 0 = 6350 := by decide

/-- PIX109 of chapter 4, from the start at 10,788 u to its record. -/
def pix109 : PWin :=
  { (default : PWin) with wmode := 1, hien := true, thrL := 1, thrH := 2, skew := 1120, walk := [0, 0, 0, 0, 0, 1520, 1264] }
theorem test_stop : (pix109.stopOf (10788 - 320) ⟨53978, some 65266, some (53978 + 4000), 0, false⟩).words = [0x00A03, 0x002C2, 0x0FA84] := by
  decide

/-- The background of chapter 6: BGQ = rdiv(203,161,600, 15,859,712) = 13. -/
theorem test_background : rdiv (3100 * 4 * 1 * 64 * 256) (3872 * 4096) = 13 := by decide

/-- The tokens of chapter 12: 00000h after 00003h with k = 2, and a match of 200 words at distance 1. -/
theorem test_tokens : literalBits 2 (zigzag (-3)) = [false, true, false, false, true] ∧ (matchBits 200 1).length = 44 := by decide

/-- The scrub pass of chapter 13: 64 GB in two ranks of 16 Gb devices at 4,800 MT/s meets an SPASS of 600 s. -/
theorem test_scrub_fits : ((put run [(F.MEM_STATUS_RANKS, 2), (F.MEM_STATUS_DENS, 1), (F.MEM_SPASS_SPASS, 600)]).setWord 0xA004 0x01234).subBursts =
    536870912 := by decide

/-- The first frames of chapter 18: CTL_ID reads as 54082h, and CODE 100b is held in CTL_PROF_ARG as 80000h. -/
theorem test_frames : (after run (.read 1 0x0000)).mgmt.resp.data = 0x54082 ∧
    (after run (.write 1 0x0131 0x80000)).mgmt.resp.data = 0x80000 := by decide

/-- The event of chapter 18: CODE 48h, class WARN, ARG 1 has the first word 48401h. -/
theorem test_event_word : (((put run [(F.CTL_EVCFG_QEN, 2)]).raise 0x48 .warn 1).mgmt.evq.map fun e => e.words.headD 0) = [0x48401] := by decide

/-! ### States that meet the hypotheses of the statements, clause by clause: `hyp_<statement>` -/

theorem hyp_StepRunsTheFrontCommand : State.pending { run with pending := [Instr.nop 1 .nop 0] } = .nop 1 .nop 0 :: [] ∧
    State.reset.pending = [] := ⟨rfl, rfl⟩

theorem hyp_EveryStepKeepsTheStatesForm : State.reset.Inv ∧ ∃ t, step ({ run with pending := [Instr.nop 1 .nop 0] }) = .next t :=
  ⟨⟨rfl, rfl, by decide⟩, _, rfl⟩

theorem hyp_ThermalIsLeftOnlyThroughReset : (run.setDev .thermal).dev = .thermal ∧
    ∃ t, exec (.nop 1 .nop 0) (run.setDev .thermal) = .next t := ⟨rfl, _, rfl⟩

theorem hyp_ResetIsLeftOnlyByItsRelease : State.reset.dev = .reset ∧ (after State.reset (.resetRelease 2000000)).dev ≠ .reset ∧
    (after State.reset (.resetRelease 1999999)).dev = .reset := by decide

namespace C1
def w1 : State := (run.raise 0x42 .fault 1).modMgmt fun m => {m with lost := 5}
def hotr : State := run.modHk fun h => { h with interim := List.replicate 12 0 }
def opl := ops.modBoot fun b => { b with nvmlock := true }
def opf := ops.modBoot fun b => { b with flashDone := false }
def failedS := run.modBoot fun b => { b with failed := true }
def pl : State := fed ((busy (.pageLoad true 0 0)).modSeq fun q => { q with library := [(0, { (default : Page) with entries := [⟨0x40000, 1000, 0, 0, 0, true⟩] })] })
def scr := fed (busy (.scrub false 0 1))
def pframe := (busy (.profileSet 1 0 false)).modSeq fun q => { q with marks := [⟨true, false, false, 5, 0, none, none⟩] }
def rt := (busy (.retune 0)).modTbu fun b => { b with refOk := true, retune := true, holdover := true, judge := none }

theorem hyp_NopFramesAreAnswered :
    opened run = true ∧ (busy (LongOp.recal 0 0 false)).alive = true ∧ (busy (LongOp.recal 0 0 false)).mgmt.op.isSome = true ∧
    State.reset.dev = DevState.reset := by
  and_intros <;> decide

theorem hyp_ReadReturnsTheRegister :
    opened run = true ∧ (RegMap.fieldsAt 1).isSome = true ∧ multiOf 1 = none ∧ 1 ∉ [0x0008, 0x7032, 0x810A, 0xA014, 0xA015, 0xF05C] ∧
    within 0xB100 0xB27F 1 = false ∧ (RegMap.fieldsAt 0xD003).isSome = true ∧ multiOf 0xD003 = none ∧
    0xD003 ∉ [0x0008, 0x7032, 0x810A, 0xA014, 0xA015, 0xF05C] ∧ within 0xB100 0xB27F 53251 = false ∧
    opened (put run [(F.CTL_SPIERR_COUNT, 9)]) = true ∧ (RegMap.fieldsAt (BitVec.ofNat 16 F.CTL_SPIERR_COUNT.addr).toNat).isSome = true ∧
    multiOf (BitVec.ofNat 16 F.CTL_SPIERR_COUNT.addr).toNat = none ∧
    (BitVec.ofNat 16 F.CTL_SPIERR_COUNT.addr).toNat ∉ [0x0008, 0x7032, 0x810A, 0xA014, 0xA015, 0xF05C] ∧
    within 0xB100 0xB27F (BitVec.ofNat 16 F.CTL_SPIERR_COUNT.addr).toNat = false ∧ (RegMap.fieldsAt 0x6100).isSome = true ∧
    multiOf 0x6100 = none ∧ 0x6100 ∉ [0x0008, 0x7032, 0x810A, 0xA014, 0xA015, 0xF05C] ∧ within 0xB100 0xB27F 24832 = false ∧
    (RegMap.fieldsAt 0xC000).isSome = true ∧ multiOf 0xC000 = none ∧ 0xC000 ∉ [0x0008, 0x7032, 0x810A, 0xA014, 0xA015, 0xF05C] ∧
    within 0xB100 0xB27F 49152 = false ∧ (RegMap.fieldsAt 0xA014).isSome = true ∧ within 0xB100 0xB27F 45415 = true ∧
    (RegMap.fieldsAt 0xB101).isSome = true ∧ opened (laneAt 3 Stage.active) = true ∧ (RegMap.fieldsAt 0xB167).isSome = true ∧
    RegMap.fieldsAt 0xFFFF = none := by
  and_intros <;> decide

theorem hyp_WideRegistersAreReadWhole :
    opened run = true ∧ (RegMap.fieldsAt 0x1001).isSome = true ∧ multiOf 0x1001 = some (0x1001, 2) ∧ 0x1001 ∉ [0x0008, 0x7032, 0x810A, 0xF05C] ∧
    (RegMap.fieldsAt 0x100D).isSome = true ∧ multiOf 0x100D = some (0x100D, 3) ∧ 0x100D ∉ [0x0008, 0x7032, 0x810A, 0xF05C] ∧
    (RegMap.fieldsAt 0x100E).isSome = true ∧ multiOf 0x100E = some (0x100D, 3) ∧ 4110 ≠ 4109 ∧ 0x100E ∉ [0x0008, 0x7032, 0x810A, 0xF05C] := by
  and_intros <;> decide

theorem hyp_WriteFollowsTheAccessCodes :
    opened run = true ∧ (RegMap.fieldsAt 0xD003).isSome = true ∧ multiOf 0xD003 = none ∧
    r25 [{ hi := 12, lo := 0, acc := Acc.rw, reset := 0 }] = none ∧ 53251 / 4096 ∈ [10, 12, 13, 15] ∧
    ((run.begin 5).poke 0xD003 74565).limitOk 0xD003 = true ∧ (RegMap.fieldsAt 0xA004).isSome = true ∧ multiOf 0xA004 = none ∧
    r25 [{ hi := 19, lo := 0, acc := Acc.lk, reset := 0 }] = some Status.locked ∧ (RegMap.fieldsAt 0xD002).isSome = true ∧
    multiOf 0xD002 = none ∧
    r25 [{ hi := 19, lo := 19, acc := Acc.rw, reset := 0 }, { hi := 16, lo := 0, acc := Acc.rw, reset := 1000 }] = none ∧
    53250 / 4096 ∈ [10, 12, 13, 15] ∧ ((run.begin 5).poke 0xD002 0).limitOk 0xD002 = false ∧ (RegMap.fieldsAt 1).isSome = true ∧
    multiOf 1 = none ∧
    r25 [{ hi := 19, lo := 17, acc := Acc.ro, reset := 1 }, { hi := 16, lo := 16, acc := Acc.ro, reset := 0 }, { hi := 15, lo := 15, acc := Acc.ro, reset := 0 }, { hi := 14, lo := 14, acc := Acc.ro, reset := 0 }, { hi := 13, lo := 13, acc := Acc.ro, reset := 0 }, { hi := 8, lo := 0, acc := Acc.ro, reset := 0 }] = some Status.refused := by
  and_intros <;> decide

theorem hyp_MalformedFrameIsCounted :
    run.alive = true := by
  and_intros <;> decide

theorem hyp_EventQueueReadTakesTheOldest :
    opened (run.raise 66 EvClass.fault 1) = true ∧
    (run.raise 66 EvClass.fault 1).mgmt.evq = [{ code := 66, cls := EvClass.fault, arg := 1 % 1024, time := run.now }] ∧ opened w1 = true ∧
    w1.mgmt.evq = [{ code := 66, cls := EvClass.fault, arg := 1 % 1024, time := run.now }] ∧ opened run = true ∧ run.mgmt.evq = [] := by
  and_intros <;> decide

theorem hyp_LongOperationsStart :
    opened ops = true ∧ ops.boot.failed = false ∧ 4 = ops.rd F.CTL_PROF_ARG_CODE ∧ ops.flag (F.CTL_PROF_REC_DEF 4) = true ∧
    bitOf (ops.rd (F.CTL_PROF_ZS_ZSOK 4)) ops.saf.chA.zs = true ∧ ops.ready = true ∧ ops.halted = false ∧ ops.seq.batten = none ∧
    ops.seq.loading = none ∧ Option.all ops.figuresOk (assoc ops.saf.pageSafe (ops.rd (F.CTL_PROF_REC_LIB 4))) = true ∧
    4 ≠ ops.rd F.CTL_PROFILE_ACTIVE ∧ ops.saf.st ≠ SafSt.clear ∧ true = ops.flag F.CTL_SEQ_LOADARG_TGT ∧ 15 = ops.rd F.CTL_SEQ_LOADARG_LIB ∧
    true ≠ ops.seq.actB ∧ assoc ops.seq.library 15 = some default ∧ ops.boot.verifyDone = true ∧ ops.nvmTempOk = true ∧
    ops.boot.nvmlock = false ∧ ops.boot.flashDone = true ∧ ops.nvmRangeOk = true ∧ ops.tbu.holdover = false ∧ ops.tbu.slewing = false ∧
    ops.snapPend = false ∧ 10000000 ≤ ops.fstaged ∧ ops.fstaged ≤ 250000000 ∧ ops.rd F.MEM_SNARG_COUNT_COUNT ≠ 0 ∧
    ops.rdWide 0xA031 2 + ops.rd F.MEM_SNARG_COUNT_COUNT ≤ ops.subBursts := by
  and_intros <;> decide

theorem hyp_LongOperationsAreTurnedAway :
    opened run = true ∧ run.boot.failed = false ∧
    (4 < run.rd F.CTL_PROF_ARG_CODE ∨ run.flag (F.CTL_PROF_REC_DEF (run.rd F.CTL_PROF_ARG_CODE)) = false ∨ run.ready = false) ∧
    opened boot = true ∧ boot.boot.failed = false ∧ (boot.ready = false ∨ boot.saf.st = SafSt.clear) ∧
    (run.flag F.CTL_SEQ_LOADARG_TGT = run.seq.actB ∨ assoc run.seq.library (run.rd F.CTL_SEQ_LOADARG_LIB) = none) ∧
    run.boot.verifyDone = false ∧ opened hotr = true ∧ hotr.nvmTempOk = false ∧ opened opl = true ∧ opl.nvmTempOk = true ∧
    opl.boot.nvmlock = true ∧ opl.boot.verifyDone = true ∧ opl.boot.failed = false ∧ opened opf = true ∧ opf.nvmTempOk = true ∧
    opf.boot.flashDone = false ∧ opf.boot.nvmlock = false ∧
    (run.tbu.holdover = true ∨ run.saf.st = SafSt.clear ∨ run.fstaged < 10000000 ∨ 250000000 < run.fstaged ∨ run.snapPend = true ∨ run.tbu.slewing = true) ∧
    (run.rd F.MEM_SNARG_COUNT_COUNT = 0 ∨ run.subBursts < run.rdWide 0xA031 2 + run.rd F.MEM_SNARG_COUNT_COUNT) ∧ opened failedS = true ∧
    failedS.boot.failed = true := by
  and_intros <;> decide

theorem hyp_LongOperationsEnd :
    pl.mgmt.op = some (LongOp.pageLoad true 0 0) ∧ pl.seq.deferred = none ∧
    assoc pl.seq.library 0 = some { lib := 0, fmtMaj := 0, fmtMin := 0, pitch := 0, entries := [{ w0 := 262144, w1 := 1000, w2 := 0, w3 := 0, w4 := 0, chk := true }] } ∧
    (pl.begin 5).memAvail 1 = true ∧ ((busy (LongOp.pageLoad true 0 0)).begin 5).memAvail 1 = false ∧
    (busy (LongOp.nvm 0 0 1)).mgmt.op = some (LongOp.nvm 0 0 1) ∧ (busy (LongOp.nvm 1 0 1)).mgmt.op = some (LongOp.nvm 1 0 1) ∧
    scr.mgmt.op = some (LongOp.scrub false 0 1) ∧ (scr.begin 5).memAvail (b2n false) = true := by
  and_intros <;> decide

theorem hyp_SwitchRecalAndRetuneEnd :
    (busy (LongOp.profileSet 1 0 false)).mgmt.op = some (LongOp.profileSet 1 0 false) ∧
    0 + 42000000 ≤ ((busy (LongOp.profileSet 1 0 false)).begin 42000000).clk ∧ pframe.mgmt.op = some (LongOp.profileSet 1 0 false) ∧
    0 + 42000000 ≤ (pframe.begin 42000000).clk ∧ (busy (LongOp.profileSet 1 0 true)).mgmt.op = some (LongOp.profileSet 1 0 true) ∧
    (busy (LongOp.recal 0 0 false)).mgmt.op = some (LongOp.recal 0 0 false) ∧
    0 + 100000000 ≤ ((busy (LongOp.recal 0 0 false)).begin 100000000).clk ∧
    (busy (LongOp.recal 0 0 true)).mgmt.op = some (LongOp.recal 0 0 true) ∧ rt.mgmt.op = some (LongOp.retune 0) ∧
    (rt.begin 20000000).clk ≤ 0 + 20000000 ∧ rt.tbu.refOk = true ∧ 0 + 20000000 ≤ (rt.begin 20000000).clk := by
  and_intros <;> decide

end C1

namespace C3
def capArm := put run [(F.CAP_A_NSEG_NSEG, 1)]
def capSt (x : CapSt) := capPre.modCap fun c => { c with st := x }
def slotted := run.modCap fun c => { c with slots := [(5, default)], st := .full, lockFull := true }
def w1 : State := (fed capSetup).modMem fun m => { m with poison := [0] }
def tr := capPre.modCap fun c => { c with conds := [⟨0, 7, 0, false⟩] }
def w2 : State := tr.modCap fun c => { c with st := .full }
def ps := put (capSt .post) [(F.CAP_A_POSTT_POSTT, 1)]
def ps1 := put ps [(F.CAP_A_NSEG_NSEG, 1)]
def v3 : Seg := { (default : Seg) with slot := 2, bucket := 100000 }
def w4 : State := fed (capTake.modCap fun c => { c with seg := c.seg.map fun g => { g with bucket := 100000 } })
def v5 : Seg := { (default : Seg) with slot := 2 }
def avgS := (put capTake [(F.CAP_A_MODE_AVG, 1), (F.CAP_A_AVGI_AVGI, 1)]).modCap fun c => { c with avg := some ⟨0, 0, 0, 0, 0, 0⟩ }
def w6 : State := avgS.modCap fun c => { c with seg := none, st := .rearm }
def w7 : State := avgS.modCap fun c => { c with avg := some ⟨0, 3, 7, 9, 12, 1⟩ }
def w8 : State := fed (avgS.modCap fun c => { c with avg := some ⟨0, 3, 7, 9, 12, 1⟩ })
def cmt2 := run.setStream 3 { run.stream 3 with pend := some ⟨[1], false, 7, 5, some ([2], 6)⟩ }
def w9 : State := frames.setStream 3 { strA with lastScan := some (2, 0) }
def flip0 := frames.setStream 3 { strA with s1 := default, scan := some { (default : Scan) with slot := 2 }, flipAt := 6 }
def v10 : Scan := { (default : Scan) with slot := 2 }
def pinned := frames.setStream 3 { strA with pin := some 1 }
def fsl : FrmSlot := { (default : FrmSlot) with defn := [0x80000, 0, 2, 0x1000], st := .ready }
def rdw := put ((fed run).setStream 0 { (default : Stream) with s1 := fsl, pin := some 1 }) []

theorem hyp_CaptureControlArmsForcesAndClears :
    opened run = true ∧ run.ready = true ∧ run.flag F.CAP_CTL_ARM = false ∧ run.cap.st = CapSt.idle ∧ opened capArm = true ∧
    capArm.ready = true ∧ capArm.flag F.CAP_CTL_ARM = false ∧ capArm.cap.st = CapSt.idle ∧ opened boot = true ∧ boot.ready = false ∧
    opened capPre = true ∧ capPre.ready = true ∧ capPre.flag F.CAP_CTL_ARM = true ∧ opened (capSt CapSt.post) = true ∧
    (capSt CapSt.post).ready = true ∧ (capSt CapSt.post).flag F.CAP_CTL_ARM = true ∧ opened (capSt CapSt.full) = true ∧
    (capSt CapSt.full).ready = true ∧ (capSt CapSt.full).flag F.CAP_CTL_ARM = true ∧ opened (capSt CapSt.rearm) = true ∧
    (capSt CapSt.rearm).ready = true ∧ (capSt CapSt.rearm).flag F.CAP_CTL_ARM = true ∧ capPre.cap.st ≠ CapSt.idle ∧
    capPre.cap.st ≠ CapSt.full ∧ (capSt CapSt.post).cap.st ≠ CapSt.idle ∧ (capSt CapSt.post).cap.st ≠ CapSt.full ∧
    bitOf 786432 18 = true ∧ (run.cap.st = CapSt.idle ∨ run.cap.st = CapSt.full) ∧ run.cap.drained = true ∧
    (capPre.flag F.CAP_CTL_ARM = true ∨ capPre.cap.drained = false) := by
  and_intros <;> decide

theorem hyp_CaptureSetupAndLocks :
    opened capSetup = true ∧ capSetup.judgeSetup = Status.ok ∧ opened run = true ∧ run.judgeSetup ≠ Status.ok ∧
    (1048575 = 1048575 ∨ (assoc run.cap.slots 1048575).isSome = true) ∧ assoc run.cap.slots 4 = none ∧ opened slotted = true ∧
    (5 = 1048575 ∨ (assoc slotted.cap.slots 5).isSome = true) := by
  and_intros <;> decide

theorem hyp_CaptureWindowReads :
    opened (fed capSetup) = true ∧ ((fed capSetup).flag F.MEM_STATUS_TRAINED && (fed capSetup).regSize (fed capSetup).capReg != 0) = true ∧
    (fed capSetup).rdWide 0x7030 2 < 25 * (fed capSetup).regSize (fed capSetup).capReg ∧
    (((fed capSetup).begin 5).memRead 0 4 true (List.filter (fun (h : MemHit) => h.burst == (25 * (fed capSetup).regBase (fed capSetup).capReg + (fed capSetup).rdWide 0x7030 2) / 25) [])).poisoned 0 ((25 * (fed capSetup).regBase (fed capSetup).capReg + (fed capSetup).rdWide 0x7030 2) / 25) = false ∧
    (((fed capSetup).begin 5).memRead 0 4 true (List.filter (fun (h : MemHit) => h.burst == (25 * (fed capSetup).regBase (fed capSetup).capReg + (fed capSetup).rdWide 0x7030 2) / 25) [{ rank := 0, burst := 0, beat := 0, errs := [(1, 1)] }])).poisoned 0 ((25 * (fed capSetup).regBase (fed capSetup).capReg + (fed capSetup).rdWide 0x7030 2) / 25) = false ∧
    opened w1 = true ∧ (w1.flag F.MEM_STATUS_TRAINED && w1.regSize w1.capReg != 0) = true ∧ w1.rdWide 0x7030 2 < 25 * w1.regSize w1.capReg ∧
    ((w1.begin 5).memRead 0 4 true (List.filter (fun (h : MemHit) => h.burst == (25 * w1.regBase w1.capReg + w1.rdWide 0x7030 2) / 25) [])).poisoned 0 ((25 * w1.regBase w1.capReg + w1.rdWide 0x7030 2) / 25) = true ∧
    opened ((fed capSetup).wrWide 0x7030 2 100) = true ∧
    (((fed capSetup).wrWide 0x7030 2 100).flag F.MEM_STATUS_TRAINED && ((fed capSetup).wrWide 0x7030 2 100).regSize ((fed capSetup).wrWide 0x7030 2 100).capReg != 0) = true ∧
    25 * ((fed capSetup).wrWide 0x7030 2 100).regSize ((fed capSetup).wrWide 0x7030 2 100).capReg ≤ ((fed capSetup).wrWide 0x7030 2 100).rdWide 0x7030 2 ∧
    opened run = true ∧ (run.flag F.MEM_STATUS_TRAINED && run.regSize run.capReg != 0) = false := by
  and_intros <;> decide

theorem hyp_CaptureSegmentsTriggerCloseAndRearm :
    tr.cap.conds = [{ src := 0, time := 7, fine := 0, coarse := false }] ∧ tr.cap.st = CapSt.pre ∧ (tr.cap.seg).isSome = true ∧
    (¬(tr.cap.closeAt < 7 ∧ 7 < tr.cap.armAt)) ∧ w2.cap.conds = [{ src := 0, time := 7, fine := 0, coarse := false }] ∧
    w2.cap.st = CapSt.full ∧ ps.cap.st = CapSt.post ∧ (ps.cap.seg).isSome = true ∧ ps.rd F.CAP_A_POSTT_POSTT ≠ 0 ∧
    0 + 1000 * ps.rd F.CAP_A_POSTT_POSTT ≤ (ps.begin 1000).now ∧ ps1.cap.st = CapSt.post ∧ (ps1.cap.seg).isSome = true ∧
    ps1.rd F.CAP_A_POSTT_POSTT ≠ 0 ∧ 0 + 1000 * ps1.rd F.CAP_A_POSTT_POSTT ≤ (ps1.begin 1000).now ∧
    (capSt CapSt.rearm).cap.st = CapSt.rearm := by
  and_intros <;> decide

theorem hyp_CaptureRecordsAreStoredOrLost :
    w4.cap.recs = [capRec] ∧ w4.rangeMet capRec = false ∧ w4.capTakes capRec = true ∧ w4.cap.seg = some v3 ∧
    w4.flag F.CAP_A_MODE_AVG = false ∧ v3.triggered = false ∧
    (∀ (p : ℕ), v3.lastSt = some p → ((↑capRec.time : ℤ) - (↑p : ℤ)).natAbs < 2 ^ 19) ∧
    1000 * (3 + capRec.body.length) ≤ min 16384000 (v3.bucket + 512 * match v3.lastRef with | none => 0 | some p => capRec.time - p) ∧
    (w4.begin 5).memAvail 0 = true ∧ capTake.cap.recs = [capRec] ∧ capTake.rangeMet capRec = false ∧ capTake.capTakes capRec = true ∧
    capTake.cap.seg = some v5 ∧ capTake.flag F.CAP_A_MODE_AVG = false ∧ v5.triggered = false ∧
    (∀ (p : ℕ), v5.lastSt = some p → ((↑capRec.time : ℤ) - (↑p : ℤ)).natAbs < 2 ^ 19) ∧
    ((capTake.begin 5).memAvail 0 = false ∨ min 16384000 (v5.bucket + 512 * match v5.lastRef with | none => 0 | some p => capRec.time - p) < 1000 * (3 + capRec.body.length)) ∧
    avgS.cap.recs = [capRec] ∧ avgS.rangeMet capRec = false ∧ avgS.capTakes capRec = true ∧ avgS.flag F.CAP_A_MODE_AVG = true ∧
    w6.cap.recs = [capRec] ∧ w6.rangeMet capRec = false ∧ w6.capTakes capRec = true ∧ w6.flag F.CAP_A_MODE_AVG = true ∧
    w7.cap.avg = some { start := 0, cnt := 3, min := 7, max := 9, sum := 12, noval := 1 } ∧ 0 < w7.rd F.CAP_A_AVGI_AVGI ∧
    0 + 1000 * w7.rd F.CAP_A_AVGI_AVGI ≤ (w7.begin 1000).now ∧
    w8.cap.avg = some { start := 0, cnt := 3, min := 7, max := 9, sum := 12, noval := 1 } ∧ 0 < w8.rd F.CAP_A_AVGI_AVGI ∧
    0 + 1000 * w8.rd F.CAP_A_AVGI_AVGI ≤ (w8.begin 1000).now := by
  and_intros <;> decide

theorem hyp_StreamCommitsWaitForTheirFrame :
    opened run = true ∧ bitOf 524288 19 = true ∧ run.judgeDef 3 (run.staged 3) = Status.ok ∧ opened cmt2 = true ∧
    cmt2.judgeDef 3 (cmt2.staged 3) = Status.ok ∧ opened (run.setWord 0x80A0 524288) = true ∧
    (run.setWord 0x80A0 524288).judgeDef 3 ((run.setWord 0x80A0 524288).staged 3) ≠ Status.ok ∧ bitOf 0 19 = false := by
  and_intros <;> decide

theorem hyp_FramesArePinnedAndReleased :
    opened frames = true ∧ 3 = bitsOf 786432 19 18 ∧ bitOf 786432 17 = false ∧ (frames.stream 3).find SlotSt.ready = some 1 ∧
    (frames.stream 3).pin = none ∧ opened w9 = true ∧ 3 = bitsOf 917504 19 18 ∧ bitOf 917504 17 = true ∧
    (w9.stream 3).lastScan = some (2, 0) ∧ ((w9.stream 3).slot 2).st = SlotSt.free ∧ ((w9.stream 3).slot 2).gen = 0 ∧
    (w9.stream 3).pin = none ∧ opened flip0 = true ∧ (flip0.stream 3).find SlotSt.ready = none ∧
    (flip0.stream 3).flipAt = (flip0.begin 6).clk ∧ (flip0.stream 3).scan = some v10 ∧ (flip0.stream 3).pin = none ∧ opened pinned = true ∧
    (pinned.stream 3).pin.isSome = true ∧ 3 = bitsOf 786441 19 18 ∧ (pinned.stream 3).pin = some 1 ∧
    ((pinned.stream 3).slot 1).gen = bitsOf 786441 7 0 := by
  and_intros <;> decide

theorem hyp_PinnedFramesAreResentAndRead :
    opened (pinned.setPtn 5 ptn5) = true ∧ 3 = bitsOf 786437 19 18 ∧ ((pinned.setPtn 5 ptn5).stream 3).pin = some 1 ∧
    ((pinned.setPtn 5 ptn5).ptn (bitsOf 786437 5 0)).atLeast 2 0 = true ∧ opened pinned = true ∧
    ((pinned.stream 3).pin = none ∨ (pinned.ptn (bitsOf 786437 5 0)).atLeast 2 0 = false) ∧ opened rdw = true ∧
    0 = rdw.rd F.FSO_RADDR1_STREAM ∧ (rdw.stream 0).pin = some 1 ∧ 0 = rdw.rd F.FSO_RADDR1_VEN ∧ 0 = rdw.rd F.FSO_RADDR_LINE ∧
    0 = rdw.rd F.FSO_RADDR_COL ∧ inWindow ((rdw.stream 0).slot 1).defn 0 0 = true ∧ (vens ((rdw.stream 0).slot 1).defn).contains 0 = true ∧
    ((rdw.begin 6).memRead 1 5 true (List.filter (fun (h : MemHit) => h.burst == (rdw.lineWord 0 1 ((rdw.stream 0).slot 1).defn 0 (0 - defWl0 ((rdw.stream 0).slot 1).defn) + 6 + (0 - defWc0 ((rdw.stream 0).slot 1).defn)) / 25) [])).poisoned 1 ((rdw.lineWord 0 1 ((rdw.stream 0).slot 1).defn 0 (0 - defWl0 ((rdw.stream 0).slot 1).defn) + 6 + (0 - defWc0 ((rdw.stream 0).slot 1).defn)) / 25) = false ∧
    opened (put rdw [(F.FSO_RADDR_COL, 2)]) = true ∧ 0 = (put rdw [(F.FSO_RADDR_COL, 2)]).rd F.FSO_RADDR1_STREAM ∧
    ((put rdw [(F.FSO_RADDR_COL, 2)]).stream 0).pin = some 1 ∧ 0 = (put rdw [(F.FSO_RADDR_COL, 2)]).rd F.FSO_RADDR1_VEN ∧
    0 = (put rdw [(F.FSO_RADDR_COL, 2)]).rd F.FSO_RADDR_LINE ∧ 2 = (put rdw [(F.FSO_RADDR_COL, 2)]).rd F.FSO_RADDR_COL ∧
    inWindow (((put rdw [(F.FSO_RADDR_COL, 2)]).stream 0).slot 1).defn 0 2 = true ∧
    (vens (((put rdw [(F.FSO_RADDR_COL, 2)]).stream 0).slot 1).defn).contains 0 = true ∧
    (((put rdw [(F.FSO_RADDR_COL, 2)]).begin 6).memRead 1 5 true (List.filter (fun (h : MemHit) => h.burst == ((put rdw [(F.FSO_RADDR_COL, 2)]).lineWord 0 1 (((put rdw [(F.FSO_RADDR_COL, 2)]).stream 0).slot 1).defn 0 (0 - defWl0 (((put rdw [(F.FSO_RADDR_COL, 2)]).stream 0).slot 1).defn) + 6 + (2 - defWc0 (((put rdw [(F.FSO_RADDR_COL, 2)]).stream 0).slot 1).defn)) / 25) [])).poisoned 1 (((put rdw [(F.FSO_RADDR_COL, 2)]).lineWord 0 1 (((put rdw [(F.FSO_RADDR_COL, 2)]).stream 0).slot 1).defn 0 (0 - defWl0 (((put rdw [(F.FSO_RADDR_COL, 2)]).stream 0).slot 1).defn) + 6 + (2 - defWc0 (((put rdw [(F.FSO_RADDR_COL, 2)]).stream 0).slot 1).defn)) / 25) = false := by
  and_intros <;> decide

end C3

namespace C4
def mk (l : List Mark) (s : State) := s.modSeq fun q => { q with marks := l }
def mSof : Mark := ⟨true, false, false, 5, 0, none, some 0⟩
def mEof : Mark := ⟨false, false, true, 5, 0, none, some 0⟩
def mEol : Mark := ⟨false, true, true, 5, 0, none, some 0⟩
def str1on : State := (run.setWord 0x8050 0x80000)
def frO := frames.modFso fun f => { f with frameOpen := true }
def frE := (frO.setStream 0 { strA with s1 := default, evAt := some (6, 6, 1) })
def mE2 : Mark := ⟨false, true, false, 5, 0, none, none⟩
def histS := run.modRpe fun r => { r with acc := [(3, default)] }
def pts (s : State) (p : Point) := s.modRpe fun r => { r with points := [p] }
def frP := frO.setStream 0 { strA with s0 := { strA.s0 with defn := [0x80000, 0, 2, 0x1000] } }
def v1 : Point := { (default : Point) with line := 4095 }
def oneS := frames.setStream 3 default
def timer := put oneS [(F.FSO_CFG_FSMODE, 2), (F.FSO_FPER_FPER, 1)]
def pinned1 := put timer [(F.FSO_ACCPIN_EN, 1)]
def wt (s : State) := s.setStream 0 { s.stream 0 with waitAt := some 0 }
def pinned2 := put (wt pinned1) [(F.FSO_ACCWAIT_WAIT, 1)]
def two := (((put (wt timer) [(F.FSO_ACCWAIT_WAIT, 1)]).setPtn 5 { ptn5 with subs := 1 }).setPtn 6 { ptn5 with subs := 1 })
def two1 := two.setStream 0 { two.stream 0 with accs := [5] }
def sc : Scan := { (default : Scan) with slot := 1, gen := 9, defn := [0x80000, 0, 2, 0x1000, 0x1000] }
def lf := (fed frames).setStream 3 { strA with scan := some sc }
def sc1 := { sc with ven := 1 }
def lf1 := (fed frames).setStream 3 { strA with scan := some sc1 }

theorem hyp_MarksOpenAndCloseFrames :
    (mk [mSof] run).seq.marks = [mSof] ∧ (mk [mSof] run).ready = true ∧ mSof.ord = some 0 ∧ (mk [mSof] run).toPass = [] ∧
    (mk [mSof] run).resultsBefore 0 = false ∧ mSof.sof = true ∧ (mk [mSof] str1on).seq.marks = [mSof] ∧ (mk [mSof] str1on).ready = true ∧
    (mk [mSof] str1on).toPass = [] ∧ (mk [mSof] str1on).resultsBefore 0 = false ∧ (mk [mSof] frames).seq.marks = [mSof] ∧
    (mk [mSof] frames).ready = true ∧ (mk [mSof] frames).toPass = [] ∧ (mk [mSof] frames).resultsBefore 0 = false ∧
    (mk [mEof] frO).seq.marks = [mEof] ∧ (mk [mEof] frO).ready = true ∧ mEof.ord = some 0 ∧ (mk [mEof] frO).toPass = [] ∧
    (mk [mEof] frO).resultsBefore 0 = false ∧ mEof.eof = true ∧ mEof.sof = false ∧ mEof.eol = false ∧ (mk [mEof] frO).fso.frameOpen = true ∧
    (mk [mEof] frE).seq.marks = [mEof] ∧ (mk [mEof] frE).ready = true ∧ (mk [mEof] frE).toPass = [] ∧
    (mk [mEof] frE).resultsBefore 0 = false ∧ (mk [mEof] frE).fso.frameOpen = true ∧ (mk [mEol] frE).seq.marks = [mEol] ∧
    (mk [mEol] frE).ready = true ∧ mEol.ord = some 0 ∧ (mk [mEol] frE).toPass = [] ∧ (mk [mEol] frE).resultsBefore 0 = false ∧
    mEol.eol = true ∧ mEol.sof = false ∧ (mk [mE2] histS).seq.marks = [mE2] ∧ (mk [mE2] histS).ready = true ∧ mE2.ord = none ∧
    mE2.cause = none ∧ mE2.eol = true ∧ (mk [mE2] histS).clearBefore mE2.id = true ∧ (mk [mE2] histS).rta.recs = [] := by
  and_intros <;> decide

theorem hyp_PointRecordsBecomePixels :
    (pts frP default).rpe.points = [default] ∧ (pts frP default).seq.marks = [] ∧ (pts frP default).ready = true ∧
    (pts frP default).fso.frameOpen = true ∧ 0 < (pts frP default).nlines ∧ 0 < 256 ∧
    (pts run default).rpe.points = [default] ∧ (pts run default).seq.marks = [] ∧ (pts run default).ready = true ∧
    (pts run default).fso.frameOpen = false ∧ (pts frP v1).rpe.points = [v1] ∧ (pts frP v1).seq.marks = [] ∧ (pts frP v1).ready = true ∧
    (pts frP v1).fso.frameOpen = true ∧ (pts frP v1).nlines ≤ v1.line := by
  and_intros <;> decide

theorem hyp_FlipsFollowEventsAndAcceptances :
    timer.ready = true ∧ (timer.stream 0).find SlotSt.ready = some 1 ∧ (timer.stream 0).scan = none ∧ timer.rd F.FSO_CFG_FSMODE = 2 ∧
    0 < timer.rd F.FSO_FPER_FPER ∧ (timer.begin 1000).now % (1000 * timer.rd F.FSO_FPER_FPER) = 0 ∧
    (∀ m < 4, m ≠ 0 → timer.streamOn m = false ∧ ∀ j < 3, ((timer.stream m).slot j).st = SlotSt.free) ∧ timer.seq.st ≠ SeqSt.syncwait ∧
    timer.missing 0 = ([], false) ∧ pinned1.ready = true ∧ (pinned1.stream 0).find SlotSt.ready = some 1 ∧ (pinned1.stream 0).scan = none ∧
    pinned1.rd F.FSO_CFG_FSMODE = 2 ∧ 0 < pinned1.rd F.FSO_FPER_FPER ∧ (pinned1.begin 1000).now % (1000 * pinned1.rd F.FSO_FPER_FPER) = 0 ∧
    (∀ m < 4, m ≠ 0 → pinned1.streamOn m = false ∧ ∀ j < 3, ((pinned1.stream m).slot j).st = SlotSt.free) ∧
    pinned1.seq.st ≠ SeqSt.syncwait ∧ pinned1.missing 0 ≠ ([], false) ∧ (wt pinned1).ready = true ∧
    ((wt pinned1).stream 0).find SlotSt.ready = some 1 ∧ ((wt pinned1).stream 0).scan = none ∧
    ((wt pinned1).stream 0).waitAt.isSome = true ∧ ((wt pinned1).missing 0).1 = [] ∧ (wt timer).ready = true ∧
    ((wt timer).stream 0).find SlotSt.ready = some 1 ∧ ((wt timer).stream 0).scan = none ∧ ((wt timer).stream 0).waitAt.isSome = true ∧
    ((wt timer).missing 0).1 = [] ∧ (pinned1.stream 0).waitAt = none ∧ pinned2.ready = true ∧
    (pinned2.stream 0).find SlotSt.ready = some 1 ∧ (pinned2.stream 0).scan = none ∧ (pinned2.stream 0).waitAt = some 0 ∧
    0 < pinned2.rd F.FSO_ACCWAIT_WAIT ∧ 0 + 1000 * pinned2.rd F.FSO_ACCWAIT_WAIT ≤ (pinned2.begin 1000).now ∧
    0 < (pinned2.gating 0).length + b2n (pinned2.pinGates 0) ∧
    (pinned2.missing 0).1.length + b2n (pinned2.missing 0).2 = (pinned2.gating 0).length + b2n (pinned2.pinGates 0) ∧ two1.ready = true ∧
    (two1.stream 0).find SlotSt.ready = some 1 ∧ (two1.stream 0).scan = none ∧ (two1.stream 0).waitAt = some 0 ∧
    0 < two1.rd F.FSO_ACCWAIT_WAIT ∧ 0 + 1000 * two1.rd F.FSO_ACCWAIT_WAIT ≤ (two1.begin 1000).now ∧
    (two1.missing 0).1.length + b2n (two1.missing 0).2 < (two1.gating 0).length + b2n (two1.pinGates 0) ∧ two.ready = true ∧
    (two.stream 0).find SlotSt.ready = some 1 ∧ (two.stream 0).scan = none ∧ (two.stream 0).waitAt = some 0 ∧
    0 < two.rd F.FSO_ACCWAIT_WAIT ∧ 0 + 1000 * two.rd F.FSO_ACCWAIT_WAIT ≤ (two.begin 1000).now ∧
    0 < (two.gating 0).length + b2n (two.pinGates 0) ∧
    (two.missing 0).1.length + b2n (two.missing 0).2 = (two.gating 0).length + b2n (two.pinGates 0) := by
  and_intros <;> decide

theorem hyp_LineRecordsGoOutInOrder :
    ((if false = true then (lf.stream 3).resend.head? else (lf.stream 3).scan) = some sc) ∧ sc.partner.isSome = false ∧
    ((lf.begin 6).memAvail 1 = true ∨ false = true) ∧ sc.ven + 1 < (vens sc.defn).length ∧ sc.line < defWnl sc.defn ∧
    ((lf.begin 6).memAvail 1 = true ∨ true = true) ∧
    ((if false = true then (lf1.stream 3).resend.head? else (lf1.stream 3).scan) = some sc1) ∧ sc1.partner.isSome = false ∧
    ((lf1.begin 6).memAvail 1 = true ∨ false = true) ∧ (vens sc1.defn).length ≤ sc1.ven + 1 ∧ defWnl sc1.defn ≤ sc1.line + 1 := by
  and_intros <;> decide

end C4

namespace C4X
def jobbed : State := expReady.modCmp fun m => { m with job := some job, ctxs := [(0, { Ctx.free with used := true, resident := true })] }
def job2 : ExpJob := ⟨0, 5, 0, 4, false, false, 0, []⟩
def jobFull : State := ((((fed jobbed).wrWide 0x9200 2 30).wrWide 0x9202 2 40).modCap fun c => { c with slots := [(5, { (default : SegDone) with items := [{ (default : CapItem) with words := [0, 5, 6, 7] }] })] }).modCmp fun m => { m with job := some job2 }
def jobFulE : State := jobFull.modMem fun m => { m with expAt := (0, 4) }
def ctx3 : State := (fed run).modCmp fun m => { m with ctxs := (1, { Ctx.free with used := true, eng := true, hist := [1,2,3] }) :: [2].map fun n => (n, { Ctx.free with used := true, eng := true, resident := true, lastUse := n }) }
def w1 : State := ctx3.modMem fun m => { m with flips := m.flips }

theorem hyp_ExportsStartAndAbort :
    opened expReady = true ∧ bitOf 655363 19 = true ∧ expReady.judgeGo = Status.ok ∧ opened run = true ∧ bitOf 524288 19 = true ∧
    run.judgeGo ≠ Status.ok ∧ opened jobbed = true ∧ jobbed.judgeGo ≠ Status.ok ∧ bitOf 262144 19 = false ∧ bitOf 262144 18 = true := by
  and_intros <;> decide

theorem hyp_ExportsEndAndContextsSwap :
    (fed jobbed).cmp.job = some job ∧ ((fed jobbed).ctx job.ctx).resident = true ∧ ((fed jobbed).begin 5).memAvail 0 = true ∧
    ((fed jobbed).begin 5).memAvail 1 = true ∧ jobFulE.cmp.job = some job2 ∧ (jobFulE.ctx job2.ctx).resident = true ∧
    (jobFulE.begin 5).memAvail 0 = true ∧ (jobFulE.begin 5).memAvail 1 = true ∧ jobFull.cmp.job = some job2 ∧
    (jobFull.ctx job2.ctx).resident = true ∧ (jobFull.begin 5).memAvail 0 = true ∧ (jobFull.begin 5).memAvail 1 = true ∧
    (ctx3.ctx 1).used = true ∧ (ctx3.ctx 1).resident = false ∧ (ctx3.ctx 1).eng = true ∧ (ctx3.begin 5).memAvail 1 = true ∧
    (List.map Prod.fst ctx3.cmp.ctxs).Nodup ∧ (ctx3.resident true).length < 4 ∧ (w1.ctx 1).used = true ∧ (w1.ctx 1).resident = false ∧
    (w1.ctx 1).eng = true ∧ (w1.begin 5).memAvail 1 = true ∧ (List.map Prod.fst w1.cmp.ctxs).Nodup ∧ (w1.resident true).length < 4 ∧
    (ctxs.ctx 1).used = true ∧ (ctxs.ctx 1).resident = false ∧ (ctxs.ctx 1).eng = true ∧ (ctxs.begin 5).memAvail 1 = true ∧
    (List.map Prod.fst ctxs.cmp.ctxs).Nodup ∧ 4 ≤ (ctxs.resident true).length ∧ ctxs.cmp.job = none := by
  and_intros <;> decide

end C4X

namespace C5
def pon := put run [(F.RTA_PCFG_EN 255, 1)]
def pdr := put run [(F.RTA_PSTAT_PDRAINED 0, 1)]
def pndr := put run [(F.RTA_PSTAT_PDRAINED 0, 0)]
def tb := put run [(F.SAF_TBRIDGE_TB, 1)]
def ew (p : PWin) := winOf (fireWin p) run
def p8 : PWin := { (default : PWin) with ncap := 8 }
def pw : PWin := { (default : PWin) with lastEnd := some 1, waiting := [edge0] }
def wr : GWin := { fireWin default with ref := some 0 }
def w1 : State := winOf { wr with len := 1000 } run
def dens : WinPost := { (default : WinPost) with kind := .cal, mode := 2 }
def wd : GWin := { fireWin default with kind := .cal, post := some dens }
def w2 : State := winOf {wd with units := [(256, default)]} run
def cw : GWin := { fireWin default with ref := some 0, openClk := 1 }
def cws := (winOf cw run).modRta fun a => { a with recs := [shotRec 0] }
def pst : PWin := { (default : PWin) with stops := [{ (default : Stop) with time := 4096, tot := 768 }], discards := 3, more := true }
def cw2 : GWin := { fireWin pst with ref := some 0, openClk := 1 }
def w3 : State := (winOf cw2 run).modRta fun a => { a with recs := [shotRec 0] }
def lpost : WinPost := { (default : WinPost) with amb := true }
def lw : GWin := { cw with kind := .listen, post := some lpost, fire := none }
def cw1 : GWin := { cw with units := [(0, default)] }
def sv := (subst .verifying).modRta fun a => { a with verif := [(7, { (default : PWin) with mode := 1, stops := [{ (default : Stop) with time := 4096, tot := 768 }] })], copied := [(7,[1,2])] }
def un (n : Nat) (x : UnitSt) := run.setUnit n x
def sk (n : Nat) (sum : Int) := put (un n { (default : UnitSt) with skSum := sum, skN := 2 }) [(F.RTA_SKEWN_N, 2), (F.RTA_TRK_SKEWTRK, 1), (F.RTA_CHK_NFAIL, 1)]
def gt := put (un 255 { (default : UnitSt) with fqW := 1, fqN := 3 }) [(F.RTA_FQW_W, 1)]
def fg := put run [(F.RTA_FCFG_T_FEN 3, 1), (F.RTA_FCFG_S_FEN 0, 1), (F.RTA_FGATE_GATE, 1)]
def he := put (run.setForeign 255 ⟨true, 0, 0⟩) [(F.RPE_FOR_PORTS_FAGE, 1)]
def he0 : Hist := { (default : Hist) with live := true, line := 3, pix := 5, bins := [] }
def hq := (fed run).modRpe fun r => { r with queue := [he0] }
def w4 : State := run.modRpe fun r => { r with queue := [default] }
def w5 : State := run.modRpe fun r => { r with singles := [default] }
def em2 := run.modSeq fun q => { q with echoMarks := [(false, 0, 0)] }

theorem hyp_PortsAreDisabledAndEnabled :
    opened pon = true ∧ pon.flag (F.RTA_PCFG_EN 255) = true ∧ ((pon.begin 1).poke (16384 + 16 * 255) 0).flag (F.RTA_PCFG_EN 255) = false ∧
    ((pon.begin 1).poke (16384 + 16 * 255) 0).limitOk (16384 + 16 * 255) = true ∧ opened pdr = true ∧ pdr.flag (F.RTA_PCFG_EN 0) = false ∧
    ((pdr.begin 1).poke (16384 + 16 * 0) 524288).flag (F.RTA_PCFG_EN 0) = true ∧ pdr.flag (F.RTA_PSTAT_PDRAINED 0) = true ∧
    ((pdr.begin 1).poke (16384 + 16 * 0) 524288).limitOk (16384 + 16 * 0) = true ∧ opened pndr = true ∧
    pndr.flag (F.RTA_PCFG_EN 0) = false ∧ ((pndr.begin 1).poke (16384 + 16 * 0) 524288).flag (F.RTA_PCFG_EN 0) = true ∧
    pndr.flag (F.RTA_PSTAT_PDRAINED 0) = false := by
  and_intros <;> decide

theorem hyp_SpareAirIndexAndHistoryWrites :
    opened run = true ∧ bitOf 131072 17 = true ∧ run.flag (F.RTA_SPARE_INUSE 7) = false ∧ run.flag (F.RTA_SPARE_FAILED 7) = false ∧
    opened tb = true ∧ bitOf 131103 17 = true ∧ tb.flag (F.RTA_SPARE_INUSE 7) = false ∧ tb.flag (F.RTA_SPARE_FAILED 7) = false ∧
    opened (put run [(F.RTA_SPARE_INUSE 0, 1)]) = true ∧
    ((put run [(F.RTA_SPARE_INUSE 0, 1)]).flag (F.RTA_SPARE_INUSE 0) = true ∨ (put run [(F.RTA_SPARE_INUSE 0, 1)]).flag (F.RTA_SPARE_FAILED 0) = true) ∧
    opened (put run [(F.RTA_AIRDEV_AIRDEV, 65535)]) = true ∧
    ((↑(65535) : ℤ) - (↑(put run [(F.RTA_AIRDEV_AIRDEV, 65535)]).boot.airidx : ℤ)).natAbs ≤ (put run [(F.RTA_AIRDEV_AIRDEV, 65535)]).rd F.RTA_AIRDEV_AIRDEV ∧
    (put run [(F.RTA_AIRDEV_AIRDEV, 65535)]).rd F.RTA_AIRDEV_AIRDEV < ((↑(65536) : ℤ) - (↑(put run [(F.RTA_AIRDEV_AIRDEV, 65535)]).boot.airidx : ℤ)).natAbs ∧
    ((run.begin 1).poke 0x6014 1).limitOk 0x6014 = true ∧ ((run.begin 1).poke 0x6014 0).limitOk 0x6014 = false := by
  and_intros <;> decide

theorem hyp_EdgesBecomeStopsOrAreLost :
    (ew default).seq.wins = [] ∧ assoc (ew default).rta.wins (unitGroup 0) = some (fireWin default) ∧
    assoc (fireWin default).units 0 = some default ∧ (fireWin default).kind = WinKind.fire ∧ (fireWin default).post = none ∧
    (fireWin default).ref = none ∧ (∀ (x : ℕ), none = some x → x + 8192 ≤ ((ew default).edgeOf 0 { n := 1, p := 0 } none none).lead) ∧
    0 < 8 ∧
    (∀ (x : ℕ), none = some x → x + 8192 ≤ ((ew default).edgeOf 0 { n := 1, p := 0 } (some { n := 2, p := 7 }) (some { n := 1, p := 9 })).lead) ∧
    (ew p8).seq.wins = [] ∧ assoc (ew p8).rta.wins (unitGroup 0) = some (fireWin p8) ∧ assoc (fireWin p8).units 0 = some p8 ∧
    (p8.subst = false ∨ 256 ≤ 0) ∧ (fireWin p8).kind = WinKind.fire ∧ (fireWin p8).post = none ∧ (fireWin p8).ref = none ∧
    (∀ (x : ℕ), p8.lastEnd = some x → x + 8192 ≤ ((ew p8).edgeOf 0 { n := 1, p := 0 } none none).lead) ∧ 8 ≤ p8.ncap ∧
    (ew pw).seq.wins = [] ∧ assoc (ew pw).rta.wins (unitGroup 0) = some (fireWin pw) ∧ assoc (fireWin pw).units 0 = some pw ∧
    (pw.subst = false ∨ 256 ≤ 0) ∧ (fireWin pw).kind = WinKind.fire ∧ (fireWin pw).post = none ∧ (fireWin pw).ref = none ∧
    pw.lastEnd = some 1 ∧ ((ew pw).edgeOf 0 { n := 1, p := 0 } none none).lead < 1 + 8192 ∧ pw.waiting = [] ++ [edge0] ∧
    (winOf wr run).seq.wins = [] ∧ assoc (winOf wr run).rta.wins (unitGroup 0) = some wr ∧ assoc wr.units 0 = some default ∧
    (wr.post = none ∨ ∃ (post : WinPost), wr.post = some post ∧ post.freq = false ∧ ¬(wr.kind = WinKind.cal ∧ post.mode = 2)) ∧
    wr.ref = some 0 ∧ (∀ (x : ℕ), none = some x → x + 8192 ≤ ((winOf wr run).edgeOf 0 { n := 1, p := 0 } none none).lead) ∧
    w1.seq.wins = [] ∧ (assoc w1.rta.wins (unitGroup 0)).isSome = true ∧
    (∀ (x : ℕ), none = some x → x + 8192 ≤ (w1.edgeOf 0 { n := 1, p := 0 } (some { n := 2, p := 3 }) none).lead) ∧ run.seq.wins = [] ∧
    assoc run.rta.wins (unitGroup 0) = none ∧ assoc run.rta.verif (unitGroup 0) = none ∧ (winOf wd run).seq.wins = [] ∧
    assoc (winOf wd run).rta.wins (unitGroup 0) = some wd ∧ assoc wd.units 0 = some default ∧ wd.kind = WinKind.cal ∧ wd.post = some dens ∧
    dens.mode = 2 ∧ (winOf wd run).flag F.RTA_JIG_DRAW = false ∧ w2.seq.wins = [] ∧ (assoc w2.rta.wins (unitGroup 256)).isSome = true ∧
    w2.flag F.RTA_JIG_DRAW = false := by
  and_intros <;> decide

theorem hyp_ReceiversCloseWithTheirShots :
    cws.seq.wins = [] ∧ assoc cws.rta.wins (unitGroup 0) = some cw ∧ assoc cw.units 0 = some default ∧ cw.portOf 0 = some 0 ∧
    cw.endClk = some 1 ∧ 1 ≤ (cws.begin 1).clk ∧ cw.kind = WinKind.fire ∧ cw.fire = some default ∧ assocDel cw.units 0 ≠ [] ∧
    w3.seq.wins = [] ∧ assoc w3.rta.wins (unitGroup 0) = some cw2 ∧ assoc cw2.units 0 = some pst ∧ cw2.portOf 0 = some 0 ∧
    cw2.endClk = some 1 ∧ 1 ≤ (w3.begin 1).clk ∧ cw2.kind = WinKind.fire ∧ cw2.fire = some default ∧ assocDel cw2.units 0 ≠ [] ∧
    (winOf lw run).seq.wins = [] ∧ assoc (winOf lw run).rta.wins (unitGroup 0) = some lw ∧ assoc lw.units 0 = some default ∧
    lw.portOf 0 = some 0 ∧ lw.endClk = some (lw.endClk.getD 9) ∧ lw.endClk.getD 9 ≤ ((winOf lw run).begin 1).clk ∧
    lw.kind = WinKind.listen ∧ lw.post = some lpost ∧ lpost.amb = true ∧ lpost.freq = false ∧ assocDel lw.units 0 ≠ [] ∧
    (winOf cw1 run).seq.wins = [] ∧ assoc (winOf cw1 run).rta.wins (unitGroup 0) = some cw1 ∧ assoc cw1.units 0 = some default ∧
    cw1.portOf 0 = some 0 ∧ cw1.endClk = some 1 ∧ 1 ≤ ((winOf cw1 run).begin 1).clk ∧ cw1.kind = WinKind.fire ∧ assocDel cw1.units 0 = [] := by
  and_intros <;> decide

theorem hyp_SubstitutionsSettleAndEnd :
    assoc (subst SubStage.settling).rta.subs 7 = some { port := 224, t0 := 0, stage := SubStage.settling } ∧
    0 + 8000 ≤ ((subst SubStage.settling).begin 8000).clk ∧
    assoc (subst SubStage.verifying).rta.subs 7 = some { port := 224, t0 := 0, stage := SubStage.verifying } ∧
    ((assoc (subst SubStage.verifying).rta.verif 7).getD default).passes 4096 ((assoc (subst SubStage.verifying).rta.verif 7).getD default).verifyAmp ((subst SubStage.verifying).rd F.RTA_CHK_TOL) = false ∧
    (subst SubStage.verifying).dev = DevState.run ∧ (subst SubStage.verifying).portOff 224 = false ∧
    assoc (put sv [(F.RTA_CHK_TOL, 500)]).rta.subs 7 = some { port := 224, t0 := 0, stage := SubStage.verifying } ∧
    ((assoc (put sv [(F.RTA_CHK_TOL, 500)]).rta.verif 7).getD default).passes 4096 ((assoc (put sv [(F.RTA_CHK_TOL, 500)]).rta.verif 7).getD default).verifyAmp ((put sv [(F.RTA_CHK_TOL, 500)]).rd F.RTA_CHK_TOL) = true := by
  and_intros <;> decide

theorem hyp_TablesSkewsAndGates :
    ((sk 255 (-7)).unitSt 255).skN ≠ 0 ∧ (sk 255 (-7)).rd F.RTA_SKEWN_N ≤ ((sk 255 (-7)).unitSt 255).skN ∧
    (rdiv0 ((sk 255 (-7)).unitSt 255).skSum (↑((sk 255 (-7)).unitSt 255).skN : ℤ)).natAbs ≤ 16 * (sk 255 (-7)).rd F.RTA_TRK_SKEWTRK ∧
    ((sk 264 (-7)).unitSt (264 + 0)).skN ≠ 0 ∧ (sk 264 (-7)).rd F.RTA_SKEWN_N ≤ ((sk 264 (-7)).unitSt (264 + 0)).skN ∧
    ((sk 271 (-70)).unitSt (264 + 7)).skN ≠ 0 ∧ (sk 271 (-70)).rd F.RTA_SKEWN_N ≤ ((sk 271 (-70)).unitSt (264 + 7)).skN ∧
    gt.rd F.RTA_FQW_W ≠ 0 ∧ gt.rd F.RTA_FQW_W ≤ (gt.unitSt 255).fqW ∧ run.fqOn 264 = false ∧ fg.fqOn 275 = true ∧
    0 < fg.rd F.RTA_FGATE_GATE ∧ (fg.unitSt 275).gate0 + 1000 * fg.rd F.RTA_FGATE_GATE ≤ (fg.begin 1000).clk ∧ fg.fqOn 264 = true ∧
    (fg.unitSt 264).gate0 + 1000 * fg.rd F.RTA_FGATE_GATE ≤ (fg.begin 1000).clk ∧ (he.foreignOf 255).hit = true ∧
    (he.foreignOf 255).gateAt + 1000000 * he.rd F.RPE_FOR_PORTS_FAGE ≤ (he.begin 1000000).clk := by
  and_intros <;> decide

theorem hyp_ShotsEnterHistograms :
    (shots 0).nextShot 0 = some (shotRec 0) ∧ (shotRec 0).fire.bink ≠ 15 ∧ (shotRec 0).settled 0 = true ∧
    assoc (shotRec 0).shots 0 = some default ∧ (shots 0).rta.closing = [] ∧ (shots 0).toPass = [] ∧
    (∀ q ∈ (shots 0).rta.recs, q.fire.bink ≠ 15) ∧ (shots 1).nextShot 0 = some (shotRec 1) ∧ (shotRec 1).fire.bink ≠ 15 ∧
    (shotRec 1).settled 0 = true ∧ assoc (shotRec 1).shots 0 = some default ∧ (shots 1).rta.closing = [] ∧ (shots 1).toPass = [] ∧
    (∀ q ∈ (shots 1).rta.recs, q.fire.bink ≠ 15) := by
  and_intros <;> decide

theorem hyp_HistogramsAndShotsBecomePoints :
    hq.nextHist = some he0 ∧ assoc hq.rpe.acc he0.port = none ∧ hq.takesLive he0 = true ∧ w4.nextHist = some default ∧
    assoc w4.rpe.acc 0 = none ∧ w4.takesLive default = false ∧ w5.rpe.singles = [default] := by
  and_intros <;> decide

theorem hyp_EchoHistoryCountsFrames :
    em2.seq.echoMarks = [(false, 0, 0)] ∧ em2.histBefore 0 = false ∧ 0 = em2.rpe.gen ∧ em2.rpe.frameOpen = false := by
  and_intros <;> decide

end C5

namespace C55
def un (n : Nat) (x : UnitSt) := run.setUnit n x
def b0 := put (un 255 { (default : UnitSt) with bgN := 1, bg := [(3, 1)] }) [(F.RTA_BGH_H, 0)]
def lt := put b0 [(F.RTA_TRK_LUTTRK, 0xFFFFF), (F.RTA_CHK_NFAIL, 3)]
def emk := run.modSeq fun q => { q with echoMarks := [(true, 0, 0), (false, 0, 0)] }
def amb (r : AmbRec) (s : State) := s.modRpe fun x => { x with ambQ := [r], seeding := false }
def ar : AmbRec := .listen 255 1 4096 0 63 false true
def ar0 : AmbRec := .listen 0 1 4096 0 0 true false
def trk (s : State) := s.setTrk 7 { s.trkOf 7 with sum := 5, cnt := 2 }
def w1 : State := trk (amb ar0 (put run [(F.RTA_PCFG_EN 255, 1), (F.RPE_AMBSTALE_STALEMAX, 1)]))

theorem hyp_TablesSkewsAndGates :
    ((put b0 [(F.RTA_CHK_NFAIL, 3)]).unitSt 255).bgN ≠ 0 ∧
    16 * (put b0 [(F.RTA_CHK_NFAIL, 3)]).rd F.RTA_BGH_H ≤ ((put b0 [(F.RTA_CHK_NFAIL, 3)]).unitSt 255).bgN ∧ (lt.unitSt 255).bgN ≠ 0 ∧
    16 * lt.rd F.RTA_BGH_H ≤ (lt.unitSt 255).bgN := by
  and_intros <;> decide

theorem hyp_EchoHistoryCountsFrames :
    emk.seq.echoMarks = [(true, 0, 0), (false, 0, 0)] ∧ emk.histBefore 0 = false ∧ 0 = emk.rpe.gen ∧
    (true = true ∨ emk.rpe.frameOpen = true) := by
  and_intros <;> decide

theorem hyp_AmbientSamplesAndTicks :
    (amb ar (put run [(F.RTA_PCFG_EN 255, 1)])).rpe.ambQ = [ar] ∧
    (amb ar (put run [(F.RTA_PCFG_EN 255, 1)])).sampleOf ar = (255, some 256) ∧
    (amb ar (put run [(F.RTA_PCFG_EN 255, 1)])).rpe.seeding = false ∧
    ((amb ar (put run [(F.RTA_PCFG_EN 255, 1)])).begin 1000000000).tickDue = true ∧
    (amb ar (put run [(F.RTA_PCFG_EN 255, 1)])).flag (F.RTA_PCFG_EN 255) = true ∧
    (amb ar (put run [(F.RTA_PCFG_EN 255, 1)])).portOff 255 = false ∧
    ((amb ar0 (put run [(F.RTA_PCFG_EN 255, 1)])).begin 1000000000).tickDue = true ∧ (w1.begin 1000000000).tickDue = true := by
  and_intros <;> decide

end C55

namespace C6
def amb (r : AmbRec) (s : State) := (s.wr F.RPE_AMBCFG_TPER 1000).modRpe fun x => { x with ambQ := [r], seeding := false }
def ar : AmbRec := .listen 255 1 4096 0 63 false true
def ar0 : AmbRec := .listen 0 1 4096 0 0 true false
def fe := entry 0x10000 0 0
def fe2 := entry 0x1F7FF 0x0FFE5 0x12345
def w1 : State := (cut [fe2]).modSeq fun q => {q with cursor := 10000}
def w2 : State := put ((cut [fe2]).modSeq fun q => {q with cursor := 10000}) [(F.EDU_DITH_STATE_STATE, 0x12345)]
def we := entry 0x40000 1 0
def we2 := entry 0x48000 1 2
def w3 : State := (cut [we2]).modSeq fun q => {q with bounds := [5000000, 3]}
def me := entry 0x52007 0 0
def me2 := entry 0x5D007 0 0
def le := entry 0x23403 0x12345 0x05005
def ce := ({ entry 0x33600 0x12345 0x05005 with w3 := 0x0A000 } : Entry)
def cur2 (e : Entry) := (cut [e]).modSeq fun q => { q with cursor := 200 }
def le2 := entry 0x2E403 0x12345 0x05005
def ce2 := ({ entry 0x3E600 0x12345 0x05005 with w3 := 0x0A000 } : Entry)
def se := entry 0x61000 0 1
def sh := syncing.modSeq fun q => { q with syncHit := some 9, syncOfs := 4 }
def shl := syncing.modSeq fun q => { q with syncHit := some 1005 }
def be (w0 w1 w2 : Word) := entry (0x70000 + w0) w1 w2
def bcut (w0 w1 w2 : Word) := put (cut [be w0 w1 w2, we, we]) [(F.CTL_SEQ_FLAGS_TRIG, 5), (F.CTL_SEQ_FLAGS_SYNC_TO, 1), (F.CTL_SEQ_LC_LC 1, 2)]
def bad (w0 : Word) := (cut [{ entry w0 0 0 with chk := false }]).modSeq fun q => { q with fires := [default] }
def hlt := fed (run.modSeq fun q => { q with st := .halted, library := [(0, default)] })
def w4 : State := hlt.modFso fun f => { f with frameOpen := true }
def pi := entry 0x80000 0 0
def pi9 := entry 0x80000 9 0
def pib := entry 0x88000 0 0
def wpB (s : State) := s.modSeq fun q => { q with pageB := { (default : Page) with entries := [we, we] } }
def v5 : Page := { (default : Page) with entries := [pib] }
def w6 : State := wpB (bcut 0 0 0 |>.modSeq fun q => { q with pageA := v5 })
def ldB (s : State) := s.modSeq fun q => { q with loading := some true }
def pii := entry 0x82000 0 0
def hd (s : State) := put s [(F.LNK_CFG_ROLE, 1)]
def bt0 := battenAt 0 (cut [we])
def btB := wpB ((cut [we]).modSeq fun q => { q with batten := some ⟨false, true, 1, 0⟩ })
def btS := syncing.modSeq fun q => { q with syncSrc := 4, syncArg := 3, batten := some ⟨true, false, 3, 2⟩ }

theorem hyp_AmbientSamplesAndTicks :
    (amb ar (put run [(F.RTA_PCFG_EN 255, 1)])).rpe.ambQ = [ar] ∧
    (amb ar (put run [(F.RTA_PCFG_EN 255, 1)])).sampleOf ar = (255, some 256) ∧
    (amb ar (put run [(F.RTA_PCFG_EN 255, 1)])).rpe.seeding = false ∧
    ((amb ar (put run [(F.RTA_PCFG_EN 255, 1)])).begin 1).tickDue = false ∧
    (amb ar (put run [(F.RTA_PCFG_EN 255, 1)])).flag (F.RTA_PCFG_EN 255) = true ∧
    (amb ar (put run [(F.RTA_PCFG_EN 255, 1)])).portOff 255 = false ∧ (amb ar0 (put run [(F.RTA_PCFG_EN 255, 1)])).rpe.ambQ = [ar0] ∧
    ((amb ar0 (put run [(F.RTA_PCFG_EN 255, 1)])).sampleOf ar0).2 = none ∧
    ((amb ar0 (put run [(F.RTA_PCFG_EN 255, 1)])).begin 1).tickDue = false ∧ ((amb ar run).begin 1).tickDue = false := by
  and_intros <;> decide

theorem hyp_FireEntriesPostFires :
    (cut [fe]).fetch 1 = Fetched.entry fe ∧ (cut [fe]).seq.deferred = none ∧
    ((↑((cut [fe]).begin 0).now : ℤ) ≤ (↑(cut [fe]).seq.cursor : ℤ) + (if wf fe.w1 12 5 = 0 then ((cut [fe]).rd F.EDU_DITH_STATE_STATE, 0) else drawDither ((cut [fe]).rd F.EDU_DITH_STATE_STATE) (wf fe.w1 12 5)).2) ∧
    ((↑(cut [fe]).seq.cursor : ℤ) + (if wf fe.w1 12 5 = 0 then ((cut [fe]).rd F.EDU_DITH_STATE_STATE, 0) else drawDither ((cut [fe]).rd F.EDU_DITH_STATE_STATE) (wf fe.w1 12 5)).2 < (↑((cut [fe]).begin 1).now : ℤ)) ∧
    w1.fetch 1 = Fetched.entry fe2 ∧ w1.seq.deferred = none ∧
    ((↑(w1.begin 0).now : ℤ) ≤ (↑w1.seq.cursor : ℤ) + (if wf fe2.w1 12 5 = 0 then (w1.rd F.EDU_DITH_STATE_STATE, 0) else drawDither (w1.rd F.EDU_DITH_STATE_STATE) (wf fe2.w1 12 5)).2) ∧
    w2.fetch 1 = Fetched.entry fe2 ∧ w2.seq.deferred = none ∧
    ((↑(w2.begin 0).now : ℤ) ≤ (↑w2.seq.cursor : ℤ) + (if wf fe2.w1 12 5 = 0 then (w2.rd F.EDU_DITH_STATE_STATE, 0) else drawDither (w2.rd F.EDU_DITH_STATE_STATE) (wf fe2.w1 12 5)).2) := by
  and_intros <;> decide

theorem hyp_WaitsMarksAndWindowsAreIssued :
    (cut [we]).seq.deferred = none ∧ (cut [we]).fetch 4 = Fetched.entry we ∧ ((cut [we]).begin 0).now ≤ (cut [we]).seq.cursor ∧
    w3.seq.deferred = none ∧ w3.fetch 4 = Fetched.entry we2 ∧ (w3.begin 0).now ≤ w3.seq.cursor ∧ w3.seq.cursor < (w3.begin 4).now ∧
    (cut [me]).seq.deferred = none ∧ (cut [me]).fetch 5 = Fetched.entry me ∧ (wf me.w0 13 13 = 0 ∨ (cut [me]).mgmt.op = none) ∧
    wf me.w0 12 12 = 0 ∧ (cut [me2]).seq.deferred = none ∧ (cut [me2]).fetch 5 = Fetched.entry me2 ∧
    (wf me2.w0 13 13 = 0 ∨ (cut [me2]).mgmt.op = none) ∧ wf me2.w0 12 12 = 1 ∧ (cur2 le).seq.deferred = none ∧
    (2 = 2 ∧ winNs (wf le.w2 19 10) = winNs (wf le.w2 19 10) ∨ 2 = 3 ∧ winNs (wf le.w2 19 10) = winNs (wf le.w3 19 10)) ∧
    (cur2 le).fetch 2 = Fetched.entry le ∧ (cur2 le).seq.wins = [] ∧ ((cur2 le).begin 1).now < (cur2 le).seq.cursor ∧
    (cur2 ce).seq.deferred = none ∧
    (3 = 2 ∧ winNs (wf ce.w3 19 10) = winNs (wf ce.w2 19 10) ∨ 3 = 3 ∧ winNs (wf ce.w3 19 10) = winNs (wf ce.w3 19 10)) ∧
    (cur2 ce).fetch 3 = Fetched.entry ce ∧ (cur2 ce).seq.wins = [] ∧ ((cur2 ce).begin 1).now < (cur2 ce).seq.cursor ∧
    (cur2 le2).seq.deferred = none ∧
    (2 = 2 ∧ winNs (wf le2.w2 19 10) = winNs (wf le2.w2 19 10) ∨ 2 = 3 ∧ winNs (wf le2.w2 19 10) = winNs (wf le2.w3 19 10)) ∧
    (cur2 le2).fetch 2 = Fetched.entry le2 ∧ (cur2 le2).seq.wins = [] ∧ (cur2 le2).seq.cursor ≤ ((cur2 le2).begin 201).now ∧
    ((if wf le2.w0 12 12 = 1 then 8 else wf le2.w0 15 13) < 8) ∧
    (((cur2 le2).begin 201).groupFree (if wf le2.w0 12 12 = 1 then 8 else wf le2.w0 15 13) = true) ∧
    (((cur2 le2).seq.fires.any fun (f : Fire) => f.row == if wf le2.w0 12 12 = 1 then 8 else wf le2.w0 15 13) = false) ∧
    (cur2 ce2).seq.deferred = none ∧
    (3 = 2 ∧ winNs (wf ce2.w3 19 10) = winNs (wf ce2.w2 19 10) ∨ 3 = 3 ∧ winNs (wf ce2.w3 19 10) = winNs (wf ce2.w3 19 10)) ∧
    (cur2 ce2).fetch 3 = Fetched.entry ce2 ∧ (cur2 ce2).seq.wins = [] ∧ (cur2 ce2).seq.cursor ≤ ((cur2 ce2).begin 201).now ∧
    ((if wf ce2.w0 12 12 = 1 then 8 else wf ce2.w0 15 13) < 8) ∧
    (((cur2 ce2).begin 201).groupFree (if wf ce2.w0 12 12 = 1 then 8 else wf ce2.w0 15 13) = true) ∧
    (((cur2 ce2).seq.fires.any fun (f : Fire) => f.row == if wf ce2.w0 12 12 = 1 then 8 else wf ce2.w0 15 13) = false) := by
  and_intros <;> decide

theorem hyp_SyncWaitsForItsEventOrTimeout :
    (cut [se]).seq.deferred = none ∧ (cut [se]).fetch 6 = Fetched.entry se ∧ sh.seq.deferred = none ∧ sh.seq.st = SeqSt.syncwait ∧
    (sh.begin 10).syncInstant = some 9 ∧ (sh.seq.syncTmo = 0 ∨ 9 ≤ sh.seq.syncIssue + 1000 * sh.seq.syncTmo) ∧ syncing.seq.deferred = none ∧
    syncing.seq.st = SeqSt.syncwait ∧ syncing.seq.syncTmo ≠ 0 ∧
    ((Instr.syncTo 1000 = Instr.syncTo 1000 ∧ syncing.seq.syncIssue + 1000 * syncing.seq.syncTmo ≤ (syncing.begin 1000).now ∧ ∀ (i : ℕ), (syncing.begin 1000).syncInstant = some i → syncing.seq.syncIssue + 1000 * syncing.seq.syncTmo < i) ∨ Instr.syncTo 1000 = Instr.syncEvent 1000 ∧ ∃ (i : ℕ), (syncing.begin 1000).syncInstant = some i ∧ syncing.seq.syncIssue + 1000 * syncing.seq.syncTmo < i) ∧
    shl.seq.deferred = none ∧ shl.seq.st = SeqSt.syncwait ∧ shl.seq.syncTmo ≠ 0 ∧
    ((Instr.syncEvent 1010 = Instr.syncTo 1010 ∧ shl.seq.syncIssue + 1000 * shl.seq.syncTmo ≤ (shl.begin 1010).now ∧ ∀ (i : ℕ), (shl.begin 1010).syncInstant = some i → shl.seq.syncIssue + 1000 * shl.seq.syncTmo < i) ∨ Instr.syncEvent 1010 = Instr.syncEvent 1010 ∧ ∃ (i : ℕ), (shl.begin 1010).syncInstant = some i ∧ shl.seq.syncIssue + 1000 * shl.seq.syncTmo < i) ∧
    run.seq.deferred = none ∧ run.seq.st ≠ SeqSt.syncwait := by
  and_intros <;> decide

theorem hyp_BranchesFollowFlagsAndCounters :
    (bcut 512 2 0).fetch 7 = Fetched.entry (be 512 2 0) ∧ (bcut 512 2 0).seq.deferred = none ∧ wf (be 512 2 0).w0 9 9 = 1 ∧
    (bcut 896 2 7).fetch 7 = Fetched.entry (be 896 2 7) ∧ (bcut 896 2 7).seq.deferred = none ∧ wf (be 896 2 7).w0 9 9 = 1 ∧
    (bcut 640 2 7).fetch 7 = Fetched.entry (be 640 2 7) ∧ (bcut 640 2 7).seq.deferred = none ∧ wf (be 640 2 7).w0 9 9 = 1 ∧
    (bcut 6208 2 7).fetch 7 = Fetched.entry (be 6208 2 7) ∧ (bcut 6208 2 7).seq.deferred = none ∧ wf (be 6208 2 7).w0 9 9 = 0 ∧
    wf (be 6208 2 7).w0 6 6 = 1 ∧ (bcut 43072 2 7).fetch 7 = Fetched.entry (be 43072 2 7) ∧ (bcut 43072 2 7).seq.deferred = none ∧
    wf (be 43072 2 7).w0 9 9 = 0 ∧ wf (be 43072 2 7).w0 6 6 = 1 ∧ (bcut 43008 2 7).fetch 7 = Fetched.entry (be 43008 2 7) ∧
    (bcut 43008 2 7).seq.deferred = none ∧ wf (be 43008 2 7).w0 9 9 = 0 ∧ wf (be 43008 2 7).w0 6 6 = 0 ∧
    (bcut 47168 2 7).fetch 7 = Fetched.entry (be 47168 2 7) ∧ (bcut 47168 2 7).seq.deferred = none ∧ wf (be 47168 2 7).w0 9 9 = 0 ∧
    wf (be 47168 2 7).w0 6 6 = 1 := by
  and_intros <;> decide

theorem hyp_BadEntriesHaltUntilReloaded :
    (bad 65536).fetch 1 = Fetched.bad ∧ (bad 131072).fetch 2 = Fetched.bad ∧ (bad 196608).fetch 3 = Fetched.bad ∧
    (bad 262144).fetch 4 = Fetched.bad ∧ (bad 327680).fetch 5 = Fetched.bad ∧ (bad 393216).fetch 6 = Fetched.bad ∧
    (bad 458752).fetch 7 = Fetched.bad ∧ (bad 524288).fetch 8 = Fetched.bad ∧ (bad 532480).fetch 8 = Fetched.bad ∧
    hlt.seq.st = SeqSt.halted ∧ hlt.seq.reloadBad = false ∧ (hlt.begin 3).memAvail 1 = true ∧
    assoc hlt.seq.library hlt.seq.active.lib = some default ∧ ((hlt.begin 3).readTbl hlt.seq.active.lib []).1 = true ∧
    w4.seq.st = SeqSt.halted ∧ w4.seq.reloadBad = false ∧ (w4.begin 3).memAvail 1 = true ∧
    assoc w4.seq.library w4.seq.active.lib = some default ∧ ((w4.begin 3).readTbl w4.seq.active.lib []).1 = true ∧
    (run.seq.st ≠ SeqSt.halted ∨ run.seq.reloadBad = true ∨ (run.begin 3).memAvail 1 = false) := by
  and_intros <;> decide

theorem hyp_PagesSwitchAtOnceOrByBatten :
    (cut [pi]).fetch 8 = Fetched.entry pi ∧ wf pi.w0 14 13 = 0 ∧ (wf pi.w0 15 15 == 1) = (cut [pi]).seq.actB ∧
    (cut [pi]).seq.deferred = none ∧ wf pi.w1 11 0 < (cut [pi]).seq.active.count ∧ (cut [pi9]).fetch 8 = Fetched.entry pi9 ∧
    wf pi9.w0 14 13 = 0 ∧ (wf pi9.w0 15 15 == 1) = (cut [pi9]).seq.actB ∧ (cut [pi9]).seq.deferred = none ∧
    (cut [pi9]).seq.active.count ≤ wf pi9.w1 11 0 ∧ w6.fetch 8 = Fetched.entry pib ∧ wf pib.w0 14 13 = 0 ∧
    (wf pib.w0 15 15 == 1) ≠ w6.seq.actB ∧ w6.seq.loading ≠ some (wf pib.w0 15 15 == 1) ∧
    wf pib.w1 11 0 < (w6.seq.pageOf (wf pib.w0 15 15 == 1)).count ∧ (ldB (wpB (cut [pib]))).fetch 8 = Fetched.entry pib ∧
    (wf pib.w0 15 15 == 1) ≠ (ldB (wpB (cut [pib]))).seq.actB ∧ (ldB (wpB (cut [pib]))).seq.loading = some (wf pib.w0 15 15 == 1) ∧
    (cut [pii]).fetch 8 = Fetched.entry pii ∧ wf pii.w0 14 13 = 1 ∧ (cut [pii]).seq.deferred = none ∧ (cut [pii]).isHead = false ∧
    (hd (cut [pii])).fetch 8 = Fetched.entry pii ∧ (hd (cut [pii])).seq.deferred = none ∧ (hd (cut [pii])).isHead = true ∧
    (hd (cut [pii])).seq.batten = none ∧ opened (hd (cut [pii])) = true ∧
    ((hd (cut [pii])).seq.st = SeqSt.run ∨ (hd (cut [pii])).seq.st = SeqSt.syncwait) ∧
    (2 ≤ bitsOf 524295 19 18 ∨ (hd (cut [pii])).isHead = false ∨ (hd (cut [pii])).seq.batten.isSome = true) ∧ opened (cut [pii]) = true ∧
    (2 ≤ bitsOf 262151 19 18 ∨ (cut [pii]).isHead = false ∨ (cut [pii]).seq.batten.isSome = true) ∧
    bt0.seq.batten = some { sync := false, pgB := false, arg := 0, te := 0 } ∧ bt0.seq.st = SeqSt.run ∧ bt0.battenDue = true ∧
    Option.any Entry.timed bt0.seq.entry = true ∧ false = bt0.seq.actB ∧ 0 < bt0.seq.active.count ∧
    btB.seq.batten = some { sync := false, pgB := true, arg := 1, te := 0 } ∧ btB.seq.st = SeqSt.run ∧ btB.battenDue = true ∧
    Option.any Entry.timed btB.seq.entry = true ∧ true ≠ btB.seq.actB ∧ btB.seq.loading ≠ some true ∧ 1 < (btB.seq.pageOf true).count ∧
    (ldB btB).seq.batten = some { sync := false, pgB := true, arg := 1, te := 0 } ∧ (ldB btB).seq.st = SeqSt.run ∧
    (ldB btB).battenDue = true ∧ Option.any Entry.timed (ldB btB).seq.entry = true ∧ true ≠ (ldB btB).seq.actB ∧
    (ldB btB).seq.loading = some true ∧ btS.seq.batten = some { sync := true, pgB := false, arg := 3, te := 2 } ∧
    btS.seq.st = SeqSt.syncwait ∧ 2 ≤ (btS.begin 3).now ∧ btS.seq.syncSrc = 4 ∧ btS.seq.syncArg = 3 ∧ btS.seq.syncHit = none ∧
    btS.seq.syncIssue < 2 ∧ (battenAt 0 run).seq.batten = some { sync := false, pgB := false, arg := 0, te := 0 } ∧
    ((battenAt 0 run).seq.st = SeqSt.idle ∨ (battenAt 0 run).seq.st = SeqSt.halted) ∧ 0 ≤ ((battenAt 0 run).begin 3).now ∧
    (battenAt 9 run).seq.batten = some { sync := false, pgB := false, arg := 0, te := 9 } ∧ ((battenAt 9 run).begin 3).now < 9 ∧
    (battenAt 9 run).seq.st ≠ SeqSt.run ∧ run.seq.batten = none := by
  and_intros <;> decide

end C6

namespace C7
def fr : Fire := { (default : Fire) with row := 7, instant := 10 }
def ovr := emit.modEdu fun e => { e with shots := [⟨10, 1, 0⟩] }
def noch := emit.modEdu fun e => { e with started := false }
def rowl := emit.modEdu fun e => { e with rowLast := [(7, 0)] }
def fl : Flight := ⟨3, 7, 0, 0, 0, 1, true⟩
def stW := (emit.modRta fun a => { a with wins := [(7, fireWin default)] }).modEdu fun e => { e with starts := [fl] }
def stF := put stW [(F.RTA_STARTFAIL_FAIL, 0x80)]
def fen := put run [(F.RTA_FCFG_S_FEN 0, 1)]
def skw : GWin := { (default : GWin) with kind := .cal, post := some { (default : WinPost) with kind := .cal, mode := 1, delay := 5 } }
def w1 : State := stW.modEdu fun e => { e with miss := [(7, 7)] }
def rds := run.modEdu fun e => { e with reads := [fl] }
def w2 : State := put (rds.modEdu fun e => { e with reads := [{ fl with epred := 5, enom := 0 }] }) [(F.EDU_MPD_K_KMPD, 1000)]
def w3 : State := put emit [(F.EDU_HV_SET_HV, 900), (F.EDU_HV_LIM_HV_MAX, 900), (F.CEN_SPT_SPT 1, 100000)]
def urg := run.modHk fun h => { h with pwmAt := some 0, rounds := true }
def w4 : State := urg.modHk fun h => { h with todo := [3, 4], convAt := 900 }
def sw := put (run.modEdu fun e => { e with swSince := some 0 }) [(F.EDU_HV_SET_HV, 900)]
def w5 : State := run.modEdu fun e => { e with movTok := some 0, movSince := some 0 }
def lff := put (run.modEdu fun e => { e with miss := [(3, 9), (4, 2)] }) [(F.EDU_FAULT_LASER_FAULT, 0x18)]
def bff := put run [(F.EDU_FAULT_BOOST_FAULT, 1)]
def pte := put run [(F.STU_SNS_M_PARTEN, 1)]
def tko (ch : SenseCh) := run.setSense ch { run.sense ch with takeover := true }
def c4 := [2048, 2048, 2048, (2048 : BitVec 12)]
def sx := senses x0
def c4r : List (BitVec 12) := [0, 4095, 0, 4095]
def w6 : State := senses { x0 with bad := 1 }
def w7 : State := senses { x0 with replPeriod := true }
def an2 := angle fun p => { p with th := [(500000, 2, false), (499999, 1, false)] }
def qs := put (angle id) [(F.STU_MIRCFG_MMODE, 1)]
def qc (d : Bool) := ((put run [(F.STU_MIRCFG_MMODE, 1)]).setSense .ctrl { run.sense .ctrl with outs := [⟨0, 0, 0, true⟩] }).modStu fun u => { u with drive := d, startAt := some 3 }
def tpe (n : Nat) := angle fun p => { p with last := some ⟨1, true⟩, nmeas := 2, npred := n, thLast := 4 }
def tpc (n : Nat) := (syncing.setSense .ctrl { run.sense .ctrl with tp := { (run.sense .ctrl).tp with last := some ⟨1, true⟩, nmeas := 2, npred := n, thLast := 4 } }).modSeq fun q => { q with syncSrc := 5 }
def kk := run.modStu fun u => { u with kickAt := some 0, drive := true }
def kkr := kk.setSense .ctrl { kk.sense .ctrl with tp := { (kk.sense .ctrl).tp with nmeas := 2, lost := false } }
def ds := put run [(F.STU_FAULT_DRIVE_STOP, 1)]
def ds2 := put run [(F.STU_FAULT_DRIVE_STOP, 1), (F.STU_FAULT_STOPCAUSE, 1), (F.STU_FAULT_MIRROR_IMPLAUSIBLE, 1)]
def mst (s : State) := put (s.modStu fun u => { u with startAt := some 0 }) [(F.STU_MSTART_MSTART, 1)]

theorem hyp_FireCommandsFireInhibitOrHold :
    emit.seq.fires = [fr] ∧ emit.seq.wins = [] ∧ fr.row < 8 ∧ ((emit.begin 9).now < fr.instant ∨ emit.halted = true) ∧
    fr.instant ≤ (emit.begin 10).now ∧ emit.halted = false ∧ (emit.begin 10).fireReady fr = true ∧ emit.chgOk = true ∧
    emit.rowOk fr.row = true ∧
    (∀ i < 3, ¬(emit.begin 10).pruneShots.ceiling i ((emit.begin 10).clk - 4) < (emit.begin 10).pruneShots.govSum i ((emit.begin 10).clk - 4) + emit.energy fr (emit.rdZ (F.EDU_ADJ_ADJ fr.row))) ∧
    ovr.seq.fires = [fr] ∧ ovr.seq.wins = [] ∧ fr.instant ≤ (ovr.begin 10).now ∧ ovr.halted = false ∧ (ovr.begin 10).fireReady fr = true ∧
    ovr.chgOk = true ∧ ovr.rowOk fr.row = true ∧
    (∃ i < 3, (ovr.begin 10).pruneShots.ceiling i ((ovr.begin 10).clk - 4) < (ovr.begin 10).pruneShots.govSum i ((ovr.begin 10).clk - 4) + ovr.energy fr (ovr.rdZ (F.EDU_ADJ_ADJ fr.row))) ∧
    noch.seq.fires = [fr] ∧ noch.seq.wins = [] ∧ fr.instant ≤ (noch.begin 10).now ∧ noch.halted = false ∧
    (noch.begin 10).fireReady fr = true ∧ (noch.chgOk = false ∨ noch.rowOk fr.row = false) ∧ rowl.seq.fires = [fr] ∧ rowl.seq.wins = [] ∧
    fr.instant ≤ (rowl.begin 10).now ∧ rowl.halted = false ∧ (rowl.begin 10).fireReady fr = false ∧ fr.held = false := by
  and_intros <;> decide

theorem hyp_StartsAreTakenOrMissed :
    stW.seq.wins = [] ∧ (assoc stW.rta.wins 7).all (fun (w : GWin) => w.post.isNone) = true ∧
    List.find? (fun (f : Flight) => f.row == 7 && (stW.begin 5).clk.ble (f.t0 + 5)) stW.edu.starts = some fl ∧ stW.startFailed 7 = false ∧
    stF.seq.wins = [] ∧ (assoc stF.rta.wins 7).all (fun (w : GWin) => w.post.isNone) = true ∧
    List.find? (fun (f : Flight) => f.row == 7 && (stF.begin 5).clk.ble (f.t0 + 5)) stF.edu.starts = some fl ∧ stF.startFailed 7 = true ∧
    fen.seq.wins = [] ∧ (assoc fen.rta.wins 0).all (fun (w : GWin) => w.post.isNone) = true ∧
    List.find? (fun (f : Flight) => f.row == 0 && (fen.begin 5).clk.ble (f.t0 + 5)) fen.edu.starts = none ∧ fen.rowOk 0 = false ∧
    fen.flag (F.RTA_FCFG_S_FEN 0) = true ∧ run.seq.wins = [] ∧ (assoc run.rta.wins 0).all (fun (w : GWin) => w.post.isNone) = true ∧
    List.find? (fun (f : Flight) => f.row == 0 && (run.begin 5).clk.ble (f.t0 + 5)) run.edu.starts = none ∧
    (run.rowOk 0 = true ∨ run.flag (F.RTA_FCFG_S_FEN 0) = false) ∧ (winOf skw run).seq.wins = [] ∧
    (assoc (winOf skw run).rta.wins 0).any (fun (w : GWin) => w.post.any fun (p : WinPost) => p.kind == .cal && p.mode == 1 && p.delay == 5) = true ∧
    List.find? (fun (f : Flight) => f.row == 7 && (f.t0 + 5).ble (stW.begin 5).clk) stW.edu.starts = some fl ∧ stW.edu.miss.nat 7 + 1 ≠ 8 ∧
    List.find? (fun (f : Flight) => f.row == 7 && (f.t0 + 5).ble (w1.begin 5).clk) w1.edu.starts = some fl ∧ w1.edu.miss.nat 7 + 1 = 8 := by
  and_intros <;> decide

theorem hyp_ReadingsCorrectTheCharge :
    List.find? (fun (f : Flight) => f.row == 7 && (f.endQ + 32).ble (4 * (rds.begin 8).clk)) rds.edu.reads = some fl ∧
    List.find? (fun (f : Flight) => f.row == 7 && (f.endQ + 32).ble (4 * ((put rds [(F.EDU_MPD_K_KMPD, 1000)]).begin 8).clk)) (put rds [(F.EDU_MPD_K_KMPD, 1000)]).edu.reads = some fl ∧
    List.find? (fun (f : Flight) => f.row == 7 && (f.endQ + 32).ble (4 * (w2.begin 8).clk)) w2.edu.reads = some { id := fl.id, row := fl.row, t0 := fl.t0, endQ := fl.endQ, epred := 5, enom := 0, emit := fl.emit } := by
  and_intros <;> decide

theorem hyp_BoostAndItsMonitors :
    emit.edu.started = true ∧ w3.edu.started = true ∧ run.edu.started = false ∧ urg.hk.pwmAt = some 0 ∧ urg.hk.rounds = true ∧
    0 + urg.rd F.CTL_HK_URG_URGDLY ≤ (urg.begin 1000).clk ∧ w4.hk.pwmAt = some 0 ∧ w4.hk.rounds = true ∧
    0 + w4.rd F.CTL_HK_URG_URGDLY ≤ (w4.begin 1000).clk ∧ run.dev ≠ DevState.reset ∧ sw.edu.swSince = some 0 ∧
    0 + 10000000 ≤ (sw.begin 10000000).clk ∧ 2 * sw.rd F.EDU_HV_HV < sw.rd F.EDU_HV_SET_HV ∧
    (run.edu.swSince = none ∨ run.rd F.EDU_HV_SET_HV ≤ 2 * run.rd F.EDU_HV_HV) ∧
    (true = true ∨ ∃ (x : ℕ), run.edu.movTok = some x ∧ x + 2000 * run.rd F.STU_EXC_NEX ≤ (run.begin 10000000).clk) ∧
    (false = true ∨ ∃ (x : ℕ), w5.edu.movTok = some x ∧ x + 2000 * w5.rd F.STU_EXC_NEX ≤ (w5.begin 10000000).clk) ∧ run.edu.movTok = none := by
  and_intros <;> decide

theorem hyp_EmitterFaultsAreCleared :
    opened run = true ∧ run.edu.diodeFlt = false ∧
    (run.flag F.EDU_FAULT_BOOST_FAULT = false ∨ bitOf (BitVec.toNat ((run.begin 8).mixed 8193 255)) 18 = true) ∧ opened lff = true ∧
    lff.edu.diodeFlt = false ∧ (lff.flag F.EDU_FAULT_BOOST_FAULT = false ∨ bitOf (BitVec.toNat ((lff.begin 8).mixed 8193 8)) 18 = true) ∧
    opened bff = true ∧ bff.edu.diodeFlt = false ∧ bff.flag F.EDU_FAULT_BOOST_FAULT = true ∧
    bitOf (BitVec.toNat ((bff.begin 8).mixed 8193 262144)) 18 = false := by
  and_intros <;> decide

theorem hyp_SensorsAreSelectedAndTakenOver :
    opened run = true ∧
    (run.flag (inputBit { addr := 12289, hi := 16, lo := 16 } (2 * chNo SenseCh.mon + bitsOf 0 17 17)) = false ∧ (bitsOf 0 17 17 = 1 → run.flag (snsFld SenseCh.mon F.STU_SNS_C_PARTEN) = true) ∧ (run.sense SenseCh.mon).takeover = false) ∧
    (run.flag (inputBit { addr := 12289, hi := 16, lo := 16 } (2 * chNo SenseCh.ctrl + bitsOf 32768 17 17)) = false ∧ (bitsOf 32768 17 17 = 1 → run.flag (snsFld SenseCh.ctrl F.STU_SNS_C_PARTEN) = true) ∧ (run.sense SenseCh.ctrl).takeover = false) ∧
    (¬(run.flag (inputBit { addr := 12289, hi := 16, lo := 16 } (2 * chNo SenseCh.mon + bitsOf 131072 17 17)) = false ∧ (bitsOf 131072 17 17 = 1 → run.flag (snsFld SenseCh.mon F.STU_SNS_C_PARTEN) = true) ∧ (run.sense SenseCh.mon).takeover = false)) ∧
    opened pte = true ∧
    (pte.flag (inputBit { addr := 12289, hi := 16, lo := 16 } (2 * chNo SenseCh.mon + bitsOf 131072 17 17)) = false ∧ (bitsOf 131072 17 17 = 1 → pte.flag (snsFld SenseCh.mon F.STU_SNS_C_PARTEN) = true) ∧ (pte.sense SenseCh.mon).takeover = false) ∧
    ((tko SenseCh.mon).sense SenseCh.mon).takeover = true ∧
    ((tko SenseCh.mon).sense SenseCh.mon).settleTo ≤ ((tko SenseCh.mon).begin 8).now ∧
    ((tko SenseCh.ctrl).sense SenseCh.ctrl).takeover = true ∧
    ((tko SenseCh.ctrl).sense SenseCh.ctrl).settleTo ≤ ((tko SenseCh.ctrl).begin 8).now ∧ (run.sense SenseCh.ctrl).takeover = false ∧
    3 / 2 = chNo SenseCh.mon ∧ (put run [(F.STU_SNS_M_EN, 1)]).alive = true ∧ (put run [(F.STU_SNS_M_EN, 1)]).senseOn SenseCh.mon = true ∧
    (put run [(F.STU_SNS_M_EN, 1)]).activeInput SenseCh.mon ≠ 3 ∧ 1 / 2 = chNo SenseCh.ctrl ∧ run.alive = true ∧
    run.senseOn SenseCh.ctrl = true ∧ run.activeInput SenseCh.ctrl ≠ 1 ∧ run.activeInput SenseCh.ctrl < 4 := by
  and_intros <;> decide

theorem hyp_ExcitationPeriodsAreJudged :
    sx.excited = true ∧ sx.senseOn SenseCh.ctrl = true ∧ (sx.begin 4000).now % (1000 * sx.rd F.STU_EXC_NEX) = 0 ∧ c4.length = (sx.convs SenseCh.ctrl).length ∧
    (sx.sense SenseCh.ctrl).replPeriod = false ∧ (sx.sense SenseCh.ctrl).settleTo ≤ (sx.begin 4000).now - 1000 * sx.rd F.STU_EXC_NEX ∧
    (decide (clampZ (-524288) 524287 ((List.map (fun (d : ℤ × ℤ × ℤ) => d.2.2) (List.map (fun (e : BitVec 12 × ℤ × ℤ) => demod (sx.rdZ (F.STU_IZ_IZ (sx.activeInput SenseCh.ctrl))) (↑(sx.rd (F.STU_TRIM_TRIM (sx.activeInput SenseCh.ctrl))) : ℤ) (↑(sx.sense SenseCh.ctrl).gain : ℤ) e.2.1 e.2.2 (↑e.1.toNat : ℤ)) (c4.zip ((sx.table SenseCh.ctrl false).zip (sx.table SenseCh.ctrl true))))).sum / 2 ^ 10) < sx.rdZ { addr := 12304 + 2 * chNo SenseCh.ctrl, hi := 19, lo := 0 }) || decide (sx.rdZ { addr := 12305 + 2 * chNo SenseCh.ctrl, hi := 19, lo := 0 } < clampZ (-524288) 524287 ((List.map (fun (d : ℤ × ℤ × ℤ) => d.2.2) (List.map (fun (e : BitVec 12 × ℤ × ℤ) => demod (sx.rdZ (F.STU_IZ_IZ (sx.activeInput SenseCh.ctrl))) (↑(sx.rd (F.STU_TRIM_TRIM (sx.activeInput SenseCh.ctrl))) : ℤ) (↑(sx.sense SenseCh.ctrl).gain : ℤ) e.2.1 e.2.2 (↑e.1.toNat : ℤ)) (c4.zip ((sx.table SenseCh.ctrl false).zip (sx.table SenseCh.ctrl true))))).sum / 2 ^ 10)) || c4.all nearRail) = false ∧
    sx.excited = true ∧ sx.senseOn SenseCh.ctrl = true ∧ (sx.begin 4000).now % (1000 * sx.rd F.STU_EXC_NEX) = 0 ∧ c4r.length = (sx.convs SenseCh.ctrl).length ∧
    (decide (clampZ (-524288) 524287 ((List.map (fun (d : ℤ × ℤ × ℤ) => d.2.2) (List.map (fun (e : BitVec 12 × ℤ × ℤ) => demod (sx.rdZ (F.STU_IZ_IZ (sx.activeInput SenseCh.ctrl))) (↑(sx.rd (F.STU_TRIM_TRIM (sx.activeInput SenseCh.ctrl))) : ℤ) (↑(sx.sense SenseCh.ctrl).gain : ℤ) e.2.1 e.2.2 (↑e.1.toNat : ℤ)) (c4r.zip ((sx.table SenseCh.ctrl false).zip (sx.table SenseCh.ctrl true))))).sum / 2 ^ 10) < sx.rdZ { addr := 12304 + 2 * chNo SenseCh.ctrl, hi := 19, lo := 0 }) || decide (sx.rdZ { addr := 12305 + 2 * chNo SenseCh.ctrl, hi := 19, lo := 0 } < clampZ (-524288) 524287 ((List.map (fun (d : ℤ × ℤ × ℤ) => d.2.2) (List.map (fun (e : BitVec 12 × ℤ × ℤ) => demod (sx.rdZ (F.STU_IZ_IZ (sx.activeInput SenseCh.ctrl))) (↑(sx.rd (F.STU_TRIM_TRIM (sx.activeInput SenseCh.ctrl))) : ℤ) (↑(sx.sense SenseCh.ctrl).gain : ℤ) e.2.1 e.2.2 (↑e.1.toNat : ℤ)) (c4r.zip ((sx.table SenseCh.ctrl false).zip (sx.table SenseCh.ctrl true))))).sum / 2 ^ 10)) || c4r.all nearRail) = true ∧
    (sx.sense SenseCh.ctrl).bad = 0 ∧ (sx.sense SenseCh.ctrl).pendSel = none ∧
    w6.excited = true ∧ w6.senseOn SenseCh.ctrl = true ∧ (w6.begin 4000).now % (1000 * w6.rd F.STU_EXC_NEX) = 0 ∧ c4r.length = (w6.convs SenseCh.ctrl).length ∧
    (w6.sense SenseCh.ctrl).replPeriod = false ∧ (w6.sense SenseCh.ctrl).settleTo ≤ (w6.begin 4000).now - 1000 * w6.rd F.STU_EXC_NEX ∧
    (decide (clampZ (-524288) 524287 ((List.map (fun (d : ℤ × ℤ × ℤ) => d.2.2) (List.map (fun (e : BitVec 12 × ℤ × ℤ) => demod (w6.rdZ (F.STU_IZ_IZ (w6.activeInput SenseCh.ctrl))) (↑(w6.rd (F.STU_TRIM_TRIM (w6.activeInput SenseCh.ctrl))) : ℤ) (↑(w6.sense SenseCh.ctrl).gain : ℤ) e.2.1 e.2.2 (↑e.1.toNat : ℤ)) (c4r.zip ((w6.table SenseCh.ctrl false).zip (w6.table SenseCh.ctrl true))))).sum / 2 ^ 10) < w6.rdZ { addr := 12304 + 2 * chNo SenseCh.ctrl, hi := 19, lo := 0 }) || decide (w6.rdZ { addr := 12305 + 2 * chNo SenseCh.ctrl, hi := 19, lo := 0 } < clampZ (-524288) 524287 ((List.map (fun (d : ℤ × ℤ × ℤ) => d.2.2) (List.map (fun (e : BitVec 12 × ℤ × ℤ) => demod (w6.rdZ (F.STU_IZ_IZ (w6.activeInput SenseCh.ctrl))) (↑(w6.rd (F.STU_TRIM_TRIM (w6.activeInput SenseCh.ctrl))) : ℤ) (↑(w6.sense SenseCh.ctrl).gain : ℤ) e.2.1 e.2.2 (↑e.1.toNat : ℤ)) (c4r.zip ((w6.table SenseCh.ctrl false).zip (w6.table SenseCh.ctrl true))))).sum / 2 ^ 10)) || c4r.all nearRail) = true ∧
    1 ≤ (w6.sense SenseCh.ctrl).bad ∧ w6.flag (inputBit { addr := 12289, hi := 16, lo := 16 } (w6.activeInput SenseCh.ctrl)) = false ∧
    w6.flag (snsFld SenseCh.ctrl F.STU_SNS_C_PARTEN) = false ∧ (w6.sense SenseCh.ctrl).pendSel = none ∧
    w7.excited = true ∧ w7.senseOn SenseCh.ctrl = true ∧ (w7.begin 4000).now % (1000 * w7.rd F.STU_EXC_NEX) = 0 ∧ c4r.length = (w7.convs SenseCh.ctrl).length ∧
    (w7.sense SenseCh.ctrl).replPeriod = true ∧
    (¬(run.excited = true ∧ run.senseOn SenseCh.ctrl = true ∧ (run.begin 4000).now % (1000 * run.rd F.STU_EXC_NEX) = 0 ∧ c4r.length = (run.convs SenseCh.ctrl).length)) := by
  and_intros <;> decide

theorem hyp_AnglesTurningPointsAndKicks :
    ((angle id).sense SenseCh.mon).outs = [{ yi := 0, yq := 0, time := 0, repl := false }] ∧ (angle id).resonant = true ∧
    ((angle id).sense SenseCh.mon).tp.th.length < 2 ∧ (an2.sense SenseCh.mon).outs = [{ yi := 0, yq := 0, time := 0, repl := false }] ∧
    an2.resonant = true ∧ an2.stu.mon.tp.th = [(500000, 2, false), (499999, 1, false)] ∧
    clampZ (-524288) 524287 (0 * an2.rdZ { addr := 12311 + chNo SenseCh.mon, hi := 19, lo := 0 } / 2 ^ 16) < 500000 ∧
    (↑(an2.rd F.STU_TPMIN_TPMIN) : ℤ) < 500000 ∧
    an2.stu.mon.tp.fresh { time := ((↑2 : ℤ) - (↑an2.groupDelay : ℤ) + clampZ (-512) 512 (rdiv0 (1024 * (499999 - clampZ (-524288) 524287 (0 * an2.rdZ { addr := 12311 + chNo SenseCh.mon, hi := 19, lo := 0 } / 2 ^ 16))) (2 * (499999 - 2 * 500000 + clampZ (-524288) 524287 (0 * an2.rdZ { addr := 12311 + chNo SenseCh.mon, hi := 19, lo := 0 } / 2 ^ 16)))) * (↑(an2.cicR * an2.sampleNs) : ℤ) / 1024).toNat, pos := true } = true ∧
    an2.stu.mon.tp.running = false ∧ (qs.sense SenseCh.mon).outs = [{ yi := 0, yq := 0, time := 0, repl := false }] ∧ qs.resonant = false ∧
    ((qc true).sense SenseCh.ctrl).outs = [{ yi := 0, yq := 0, time := 0, repl := true }] ∧ (qc true).resonant = false ∧
    ((qc false).sense SenseCh.ctrl).outs = [{ yi := 0, yq := 0, time := 0, repl := true }] ∧ (qc false).resonant = false ∧
    ((tpe 3).sense SenseCh.mon).tp.last = some { time := 1, pos := true } ∧ (tpe 3).resonant = true ∧
    ((tpe 3).sense SenseCh.mon).tp.running = true ∧ (tpe 3).senseOn SenseCh.mon = true ∧
    1 + ((tpe 3).sense SenseCh.mon).tp.thLast ≤ ((tpe 3).begin 5).now ∧ ((tpe 3).sense SenseCh.mon).tp.npred < 4 ∧
    ((tpe 4).sense SenseCh.mon).tp.last = some { time := 1, pos := true } ∧ (tpe 4).resonant = true ∧
    ((tpe 4).sense SenseCh.mon).tp.running = true ∧ (tpe 4).senseOn SenseCh.mon = true ∧
    1 + ((tpe 4).sense SenseCh.mon).tp.thLast ≤ ((tpe 4).begin 5).now ∧ 4 ≤ ((tpe 4).sense SenseCh.mon).tp.npred ∧
    ((tpc 3).sense SenseCh.ctrl).tp.last = some { time := 1, pos := true } ∧ (tpc 3).resonant = true ∧
    ((tpc 3).sense SenseCh.ctrl).tp.running = true ∧ (tpc 3).senseOn SenseCh.ctrl = true ∧
    1 + ((tpc 3).sense SenseCh.ctrl).tp.thLast ≤ ((tpc 3).begin 5).now ∧ ((tpc 3).sense SenseCh.ctrl).tp.npred < 4 ∧
    ((tpc 4).sense SenseCh.ctrl).tp.last = some { time := 1, pos := true } ∧ (tpc 4).resonant = true ∧
    ((tpc 4).sense SenseCh.ctrl).tp.running = true ∧ (tpc 4).senseOn SenseCh.ctrl = true ∧
    1 + ((tpc 4).sense SenseCh.ctrl).tp.thLast ≤ ((tpc 4).begin 5).now ∧ 4 ≤ ((tpc 4).sense SenseCh.ctrl).tp.npred ∧
    kk.stu.kickAt = some 0 ∧ kk.resonant = true ∧ kk.stu.drive = true ∧
    0 - 1000 * kk.rd (F.CEN_L0_WIDTH_WIDTH (kk.bank 0)) / 2 ≤ (kk.begin 5).now ∧ kk.stu.ctrl.tp.running = false ∧ kkr.stu.kickAt = some 0 ∧
    kkr.resonant = true ∧ kkr.stu.drive = true ∧ 0 - 1000 * kkr.rd (F.CEN_L0_WIDTH_WIDTH (kkr.bank 0)) / 2 ≤ (kkr.begin 5).now ∧
    kkr.stu.ctrl.tp.running = true ∧ run.stu.kickAt = none := by
  and_intros <;> decide

theorem hyp_ModesTargetsAndTheDrive :
    opened run = true ∧ opened ds = true ∧ ds.flag F.STU_FAULT_DRIVE_STOP = true ∧
    ((ds.begin 5).poke 0x3001 1024).flag F.STU_FAULT_DRIVE_STOP = false ∧ ((ds.begin 5).poke 0x3001 1024).stopClear = true ∧
    opened ds2 = true ∧ ds2.flag F.STU_FAULT_DRIVE_STOP = true ∧ ((ds2.begin 5).poke 0x3001 1024).flag F.STU_FAULT_DRIVE_STOP = false ∧
    ((ds2.begin 5).poke 0x3001 1024).stopClear = false ∧ (mst run).stu.startAt = some 0 ∧
    0 + 1000000 * (mst run).rd F.STU_MSTART_MSTART ≤ ((mst run).begin 1000000).clk ∧ (mst run).booting = false ∧
    (mst boot).stu.startAt = some 0 ∧ 0 + 1000000 * (mst boot).rd F.STU_MSTART_MSTART ≤ ((mst boot).begin 1000000).clk ∧
    (mst boot).booting = true ∧ run.stu.startAt = none := by
  and_intros <;> decide

end C7

namespace C9
def tl (p : PllSt) := (timed fun b => { b with timing := p })
def tl2 := (put (tl ⟨false, 3, 0⟩) []).setWord 0x1022 0x12345 |>.modTbu fun b => { b with gov0 := some 3 }
def ho := timed fun b => { b with holdover := true, regood := 3 }
def sy (d : DevState) := (timed fun b => { b with system := ⟨false, 3, 0⟩ }).setDev d
def pp := (put run [(F.LNK_CFG_ROLE, 1), (F.LNK_CFG_PTPEN, 1)]).modLnk fun l => { l with ptp := { l.ptp with syncAt := some 0, interval := 1 } }
def sl := run.modTbu fun b => { b with slewing := true, slewTo := 5, err := 3 }
def sn := (run.modTbu fun b => { b with snaps := [⟨5, -2, 0⟩, ⟨9, 1, 3⟩], chainE := some 3, err := 7 }).modSeq fun q => { q with cursor := 100, fires := [{(default : Fire) with instant := 90 }] }
def sn2 := (run.modTbu fun b => { b with snaps := [⟨5, -2, 1⟩], chainE := some 3, err := 7, judge := some 900000000 })
def tp := put run [(F.RTA_FCFG_T_POL 3, 1), (F.RTA_FCFG_T_FEN 3, 1)]
def tcap := (syncing.setUnit 275 { (default : UnitSt) with lut := (List.range 256).map (· * 16) }).modSeq fun q => { q with syncArg := 3 }
def tcap2 := (put tcap [(F.CAP_A_TRIG_TRIGEN, 0x1FF)]).modCap fun c => { c with st := .pre }
def fs := put boot [(F.RTA_FCFG_T_SRC 3, 1), (F.FSO_CFG_FSMODE, 1)]
def fs0 := put boot [(F.RTA_FCFG_T_SRC 3, 1)]
def hd0 : ChainHdr := ⟨.up, 1, true⟩
def bn := bussed.setNeigh .up { bussed.neigh .up with params := some (par 0), rxSeq := some 0 }
def bn0 := bussed.setNeigh .up { bussed.neigh .up with rxSeq := some 0 }
def bev := (put bussed [(F.LNK_TOUT_EN0, 1), (F.LNK_TOUT_LINE0, 7)]).modLnk fun l => { l with bus := [⟨7, true, 4, 3⟩, ⟨7, false, 5, 0⟩] }
def bs2 := syncing.modLnk fun l => { l with bus := [⟨7, true, 4, 3⟩] }
def w1 : State := bs2.modSeq fun q => { q with syncSrc := 2, syncArg := 7 }

theorem hyp_TimebaseLocksHoldsOverAndSnaps :
    (tl { lock := false, good := 2, bad := 0 }).alive = true ∧
    (tl { lock := false, good := 2, bad := 0 }).tbu.retune = false ∧ (tl { lock := false, good := 2, bad := 0 }).tbu.holdover = false ∧ (tl { lock := false, good := 2, bad := 0 }).tbu.refOk = true ∧
    (tl { lock := false, good := 2, bad := 0 }).inPpm count0 = true ∧ (tl { lock := false, good := 2, bad := 0 }).inTol count0 = true ∧
    (tl { lock := false, good := 2, bad := 0 }).tbu.timing.lock = false ∧ (tl { lock := false, good := 2, bad := 0 }).tbu.timing.good < 3 ∧
    (tl { lock := false, good := 3, bad := 0 }).alive = true ∧
    (tl { lock := false, good := 3, bad := 0 }).tbu.retune = false ∧ (tl { lock := false, good := 3, bad := 0 }).tbu.holdover = false ∧ (tl { lock := false, good := 3, bad := 0 }).tbu.refOk = true ∧
    (tl { lock := false, good := 3, bad := 0 }).inPpm count0 = true ∧ (tl { lock := false, good := 3, bad := 0 }).inTol count0 = true ∧
    (tl { lock := false, good := 3, bad := 0 }).tbu.timing.lock = false ∧ (tl { lock := false, good := 3, bad := 0 }).tbu.timing.good = 3 ∧
    (tl { lock := false, good := 3, bad := 0 }).tbu.system.lock = false ∧ tl2.alive = true ∧
    tl2.tbu.retune = false ∧ tl2.tbu.holdover = false ∧ tl2.tbu.refOk = true ∧ tl2.inPpm count0 = true ∧ tl2.inTol count0 = true ∧
    tl2.tbu.timing.lock = false ∧ tl2.tbu.timing.good = 3 ∧ tl2.tbu.system.lock = false ∧
    (put (tl { lock := true, good := 0, bad := 1 }) [(F.TBU_LOCK_LTOL, 0)]).alive = true ∧
    (put (tl { lock := true, good := 0, bad := 1 }) [(F.TBU_LOCK_LTOL, 0)]).tbu.retune = false ∧ (put (tl { lock := true, good := 0, bad := 1 }) [(F.TBU_LOCK_LTOL, 0)]).tbu.holdover = false ∧ (put (tl { lock := true, good := 0, bad := 1 }) [(F.TBU_LOCK_LTOL, 0)]).tbu.refOk = true ∧
    (put (tl { lock := true, good := 0, bad := 1 }) [(F.TBU_LOCK_LTOL, 0)]).inPpm (count0 + 1) = true ∧
    (put (tl { lock := true, good := 0, bad := 1 }) [(F.TBU_LOCK_LTOL, 0)]).inTol (count0 + 1) = false ∧
    (put (tl { lock := true, good := 0, bad := 1 }) [(F.TBU_LOCK_LTOL, 0)]).tbu.timing.lock = true ∧
    (put (tl { lock := true, good := 0, bad := 1 }) [(F.TBU_LOCK_LTOL, 0)]).tbu.timing.bad = 1 ∧
    (tl { lock := true, good := 4, bad := 0 }).alive = true ∧
    (tl { lock := true, good := 4, bad := 0 }).tbu.retune = false ∧ (tl { lock := true, good := 4, bad := 0 }).tbu.holdover = false ∧ (tl { lock := true, good := 4, bad := 0 }).tbu.refOk = true ∧
    (tl { lock := true, good := 4, bad := 0 }).tbu.timing.lock = true ∧ ho.alive = true ∧ ho.tbu.retune = false ∧ ho.tbu.holdover = true ∧
    ho.tbu.refOk = true ∧ ho.tbu.regood = 3 ∧ ho.inPpm count0 = true ∧ ho.inTol count0 = true ∧ (sy DevState.run).alive = true ∧
    (sy DevState.run).tbu.retune = false ∧ (sy DevState.run).tbu.holdover = false ∧ (sy DevState.run).tbu.timing.lock = true ∧
    (sy DevState.run).tbu.system.lock = false ∧ (sy DevState.run).tbu.system.good = 3 ∧ (sy DevState.run).inTol count0 = true ∧
    (sy DevState.boot).alive = true ∧ (sy DevState.boot).tbu.retune = false ∧ (sy DevState.boot).tbu.holdover = false ∧
    (sy DevState.boot).tbu.timing.lock = true ∧ (sy DevState.boot).tbu.system.lock = false ∧ (sy DevState.boot).tbu.system.good = 3 ∧
    (sy DevState.boot).inTol count0 = true ∧ pp.alive = true ∧ pp.tsrc = 2 ∧ pp.tbu.tsLost = false ∧ pp.lnk.ptp.syncAt = some 0 ∧
    pp.lnk.ptp.interval ≠ 0 ∧ 0 + 3 * pp.lnk.ptp.interval ≤ (pp.begin 5).clk ∧ sl.alive = true ∧ sl.tbu.slewing = true ∧
    sl.tbu.slewTo ≤ (sl.begin 5).clk ∧ sl.tbu.judge = none ∧ (sl.tbu.slewing = false ∨ (sl.begin 4).clk < sl.tbu.slewTo) ∧ sn.alive = true ∧
    sn.firstSnap = some { time := 5, delta := -2, origin := 0 } ∧ 5 ≤ (sn.begin 5).now ∧ sn2.alive = true ∧
    sn2.firstSnap = some { time := 5, delta := -2, origin := 1 } ∧ 5 ≤ (sn2.begin 5).now ∧ run.alive = true ∧ run.tbu.snaps = [] := by
  and_intros <;> decide

theorem hyp_TriggerEdgesAndBusLines :
    run.alive = true ∧ run.lnk.joined = false ∧ true ≠ run.flag (F.RTA_FCFG_T_POL 3) ∧ tp.alive = true ∧ tp.lnk.joined = false ∧
    true = tp.flag (F.RTA_FCFG_T_POL 3) ∧ false ≠ tp.flag (F.RTA_FCFG_T_POL 3) ∧ tcap2.alive = true ∧ tcap2.lnk.joined = false ∧
    true ≠ tcap2.flag (F.RTA_FCFG_T_POL 3) ∧ fs.alive = true ∧ fs.fsyncTdc = some 3 ∧ fs.lnk.joined = false ∧ fs.ready = false ∧
    true ≠ fs.flag (F.RTA_FCFG_T_POL 3) ∧ fs.rd F.FSO_CFG_FSMODE = 1 ∧ fs0.alive = true ∧ fs0.fsyncTdc = some 3 ∧ fs0.lnk.joined = false ∧
    fs0.ready = false ∧ true ≠ fs0.flag (F.RTA_FCFG_T_POL 3) ∧ fs0.rd F.FSO_CFG_FSMODE ≠ 1 ∧ run.fsyncTdc = none ∧ bussed.alive = true ∧
    opened bussed = true ∧ (∀ l ∈ setBits 128 8, bussed.drives l 5 = true) ∧ (∃ l ∈ setBits 129 8, bussed.drives l 5 = false) ∧
    bn.alive = true ∧ bn.portUp hd0.side = true ∧ bn.lnk.joined = true ∧ bn.flag (F.LNK_TB_EN 7) = true ∧ hd0.crcOk = true ∧
    (∀ (r : ℕ), (bn.neigh hd0.side).rxSeq = some r → newer hd0.seq r = true) ∧ (bn.joinedNeigh hd0.side).isSome = true ∧
    (bn.begin 5).now ≤ 5 + bn.rd F.LNK_TBLAT_TBLAT ∧ bn0.alive = true ∧ bn0.portUp hd0.side = true ∧ bn0.lnk.joined = true ∧
    bn0.flag (F.LNK_TB_EN 7) = true ∧ (∀ (r : ℕ), (bn0.neigh hd0.side).rxSeq = some r → newer hd0.seq r = true) ∧
    bn0.joinedNeigh hd0.side = none ∧ bn0.portUp ChainSide.up = true ∧ (bn0.neigh ChainSide.up).rxSeq = some 0 ∧ newer 0 0 = false ∧
    bev.alive = true ∧
    List.find? (fun (e : BusEdge) => e.line == 7 && (e.time + b2n (e.fine != 0)).ble (bev.begin 5).now) bev.lnk.bus = some { line := 7, level := true, time := 4, fine := 3 } ∧
    List.find? (fun (e : BusEdge) => e.line == 7 && (e.time + b2n (e.fine != 0)).ble (bev.begin 4).now) bev.lnk.bus = none ∧
    w1.alive = true ∧
    List.find? (fun (e : BusEdge) => e.line == 7 && (e.time + b2n (e.fine != 0)).ble (w1.begin 6).now) w1.lnk.bus = some { line := 7, level := true, time := 4, fine := 3 } := by
  and_intros <;> decide

end C9

namespace C10
def w1 : State := zoned fun v => { v with chA := { v.chA with seen := [(0, 0)] }, st := .clear }
def hold (f : Saf → Saf) := zoned fun v => f { v with holds := [(256, 0)], st := .clear }
def zsw := zoned fun v => { v with chA := { v.chA with seen := [(0, 0)], cnt := [(0, 1)], pendZs := some (0, 0) }, cellDisc := [(0, (1,2))] }
def cw0 : ChbWin := ⟨0, 0, 0, [], 0, false⟩
def chw (w : ChbWin) := zoned fun v => { v with wins := [(0, w)] }
def w2 : State := chw { cw0 with t0 := 5 }
def cw5 : ChbWin := ⟨0, 0, 0, [0], 0, false⟩
def chp (p : Point) := (zoned id).modRpe fun r => { r with safPoints := [p] }
def pt1 : Point := { (default : Point) with echoes := [{ (default : Echo) with ra := 15000 }] }
def pt2 : Point := { pt1 with noemit := true }
def trk := run.modSaf fun v => { v with track := { v.track with tmask := [0] }, chA := { v.chA with trk := { v.chA.trk with items := [(3, 7), (1500000, 9)] } } }
def inp := run.modSaf fun v => { v with in3 := { v.in3 with a := { v.in3.a with raw := true, filt := true }, diffAt := some 0 } }
def dsc := run.modSaf fun v => { v with st := .stop, cellDisc := [(0, (0, 2000000000))], trkDiffAt := some 0 }
def dsc2 := run.modSaf fun v => { v with st := .stop, trkDiffAt := some 0 }
def clr := run.modSaf fun v => { v with st := .clear, ossdA := true, ossdB := true }
def edm := (put run [(F.SAF_CFG_EDMEN, 1)]).modSaf fun v => { v with switched := true }
def pb := (pulse .interlock 7 (7 + 100000000)).modSaf fun v => { v with chA := { v.chA with blind := [0] } }
def pcl := (pulse .clamp 7 (7 + 100000000)).modSaf fun v => { v with causes := [7], retained := some 7, clcause := 7 }
def pinS (m : Nat) := run.modSaf fun v => v.setPair m { v.pair m with a := { (v.pair m).a with raw := true, since := 0 } }
def pin2 := run.modSaf fun v => v.setPair 3 { v.pair 3 with a := { (v.pair 3).a with raw := true, since := 0 }, b := { (v.pair 3).b with raw := true, since := 0 } }
def pre := (put (zoned fun v => { v with preA := true, chA := { v.chA with digest := true }, chB := { v.chB with digest := true } }) [(F.CTL_BOOT_PROV, 1)])
def w3 : State := excite.modSaf fun v => { v with loaded := true }
def pc (w : List Word) (ok : Bool) := pressed fun v => { v with copy := some ⟨2, w, 0, ok⟩ }
def w4 : State := pressed fun v => { v with st := .clear, pressTmo := false }
def w5 : State := pressed fun v => { v with st := .init, pressTmo := false }

theorem hyp_SafetyChannelsEvaluateTheirCells :
    w1.zoneSet SafCh.a = some zone0 ∧ assoc (w1.chan SafCh.a).seen 0 = some 0 ∧ (w1.inUse SafCh.a).contains 0 = true ∧
    0 + 1000 * w1.freshOf zone0 < (w1.begin 1001).clk ∧ 0 ∉ (w1.chan SafCh.a).blind ∧ assoc (hold id).saf.holds 256 = some 0 ∧
    0 ≤ ((hold id).begin 10).clk ∧ (((zsw.begin 1000000).settleInputs (zsw.begin 1000000).clk).chan SafCh.a).pendZs = some (0, 0) ∧
    cdiv ((↑(0 + 1000000) : ℤ) + zsw.tofs).toNat 250000 * 250000 ≤ (zsw.begin 1000000).now ∧
    List.find? (fun (e : ℕ × ChbWin) => e.1 == 0 && !e.2.done) w2.saf.wins = some (0, { bin := cw0.bin, sect := cw0.sect, zs := cw0.zs, hits := cw0.hits, t0 := 5, done := cw0.done }) ∧
    w2.zoneSet SafCh.b = some zone0 ∧ cw0.zs = w2.saf.chB.zs ∧ 32 * ((w2.begin 0).clk + 1) ≤ 32 * 5 + (cw0.bin % 32).toNat + zone0.hwin ∧
    List.find? (fun (e : ℕ × ChbWin) => e.1 == 0 && !e.2.done) (chw cw0).saf.wins = some (0, cw0) ∧ (chw cw0).zoneSet SafCh.b = some zone0 ∧
    cw0.zs = (chw cw0).saf.chB.zs ∧ 32 * cw0.t0 + (cw0.bin % 32).toNat + zone0.hwin < 32 * (((chw cw0).begin 1000).clk + 1) ∧
    List.find? (fun (e : ℕ × ChbWin) => e.1 == 0 && !e.2.done) (chw cw5).saf.wins = some (0, cw5) ∧ (chw cw5).zoneSet SafCh.b = some zone0 ∧
    cw5.zs = (chw cw5).saf.chB.zs ∧ 32 * cw5.t0 + (cw5.bin % 32).toNat + zone0.hwin < 32 * (((chw cw5).begin 1000).clk + 1) ∧
    (chp default).rpe.safPoints = [default] ∧ (chp default).zoneSet SafCh.a = some zone0 ∧
    assoc zone0.cells (32 * 0 + (chp default).sectAtLog 0) = some { typ := CellType.pzm, anear := 10000, afar := 20000, hnear := 1, hfar := 2 } ∧
    CellType.pzm ≠ CellType.none ∧ (chp default).heldPort 0 = false ∧ (chp default).portOff 0 = false ∧
    (chp pt1).rpe.safPoints = [pt1] ∧ (chp pt1).zoneSet SafCh.a = some zone0 ∧
    assoc zone0.cells (32 * pt1.port + (chp pt1).sectAtLog pt1.tlast) = some { typ := CellType.pzm, anear := 10000, afar := 20000, hnear := 1, hfar := 2 } ∧
    pt1.noemit = false ∧ (chp pt1).heldPort pt1.port = false ∧ (chp pt1).portOff pt1.port = false ∧ (chp pt2).rpe.safPoints = [pt2] ∧
    pt2.noemit = true ∧ trk.saf.track.tmask.isEmpty = false := by
  and_intros <;> decide

theorem hyp_SafetyStatesAndOutputs :
    inp.saf.st ≠ SafSt.clamp ∧ dsc.saf.st ≠ SafSt.clamp ∧ dsc2.saf.st ≠ SafSt.clamp ∧ clr.saf.st ≠ SafSt.clamp ∧ edm.saf.st ≠ SafSt.clamp ∧
    (pulse SafSt.stop 0 0).saf.st = SafSt.stop ∧ (pulse SafSt.stop 0 0).anyDem = false ∧
    (pulse SafSt.stop 0 0).saf.demAt + 1000000 * (pulse SafSt.stop 0 0).rd F.SAF_TCLR_TCLR ≤ ((pulse SafSt.stop 0 0).begin (1000000 * run.rd F.SAF_TCLR_TCLR)).clk ∧
    ((pulse SafSt.stop 0 0).begin (1000000 * run.rd F.SAF_TCLR_TCLR)).edmClosed = true ∧
    (put (pulse SafSt.stop 0 0) [(F.SAF_CFG_RSTMODE, 1)]).saf.st = SafSt.stop ∧
    (put (pulse SafSt.stop 0 0) [(F.SAF_CFG_RSTMODE, 1)]).anyDem = false ∧
    (put (pulse SafSt.stop 0 0) [(F.SAF_CFG_RSTMODE, 1)]).saf.demAt + 1000000 * (put (pulse SafSt.stop 0 0) [(F.SAF_CFG_RSTMODE, 1)]).rd F.SAF_TCLR_TCLR ≤ ((put (pulse SafSt.stop 0 0) [(F.SAF_CFG_RSTMODE, 1)]).begin (1000000 * run.rd F.SAF_TCLR_TCLR)).clk ∧
    ((put (pulse SafSt.stop 0 0) [(F.SAF_CFG_RSTMODE, 1)]).begin (1000000 * run.rd F.SAF_TCLR_TCLR)).edmClosed = true ∧
    (run.saf.st ≠ SafSt.stop ∨ run.anyDem = true) ∧
    (((pulse SafSt.interlock 7 (7 + 100000000)).begin 200000000).settleInputs ((pulse SafSt.interlock 7 (7 + 100000000)).begin 200000000).clk).saf.resetRise = some 7 ∧
    (((pulse SafSt.interlock 7 (7 + 100000000)).begin 200000000).settleInputs ((pulse SafSt.interlock 7 (7 + 100000000)).begin 200000000).clk).saf.resetFall = some (7 + 100000000) ∧
    (pulse SafSt.interlock 7 (7 + 100000000)).saf.st = SafSt.interlock ∧
    (((pulse SafSt.interlock 7 (7 + 100000000)).begin 200000000).settleInputs ((pulse SafSt.interlock 7 (7 + 100000000)).begin 200000000).clk).anyDem = false ∧
    ((pulse SafSt.interlock 7 (7 + 100000000)).begin 200000000).edmClosed = true ∧
    ((pb.begin 200000000).settleInputs (pb.begin 200000000).clk).saf.resetRise = some 7 ∧
    ((pb.begin 200000000).settleInputs (pb.begin 200000000).clk).saf.resetFall = some (7 + 100000000) ∧ pb.saf.st = SafSt.interlock ∧
    ((pb.begin 200000000).settleInputs (pb.begin 200000000).clk).anyDem = true ∧
    (((pulse SafSt.clamp 7 (7 + 100000000)).begin 200000000).settleInputs ((pulse SafSt.clamp 7 (7 + 100000000)).begin 200000000).clk).saf.resetRise = some 7 ∧
    (((pulse SafSt.clamp 7 (7 + 100000000)).begin 200000000).settleInputs ((pulse SafSt.clamp 7 (7 + 100000000)).begin 200000000).clk).saf.resetFall = some (7 + 100000000) ∧
    (pulse SafSt.clamp 7 (7 + 100000000)).saf.st = SafSt.clamp ∧
    (((pulse SafSt.clamp 7 (7 + 100000000)).begin 200000000).settleInputs ((pulse SafSt.clamp 7 (7 + 100000000)).begin 200000000).clk).causePresent = false ∧
    ((pcl.begin 200000000).settleInputs (pcl.begin 200000000).clk).saf.resetRise = some 7 ∧
    ((pcl.begin 200000000).settleInputs (pcl.begin 200000000).clk).saf.resetFall = some (7 + 100000000) ∧ pcl.saf.st = SafSt.clamp ∧
    ((pcl.begin 200000000).settleInputs (pcl.begin 200000000).clk).causePresent = true ∧
    (((pulse SafSt.clamp 7 8).begin 200000000).settleInputs ((pulse SafSt.clamp 7 8).begin 200000000).clk).saf.resetRise = some 7 ∧
    (((pulse SafSt.clamp 7 8).begin 200000000).settleInputs ((pulse SafSt.clamp 7 8).begin 200000000).clk).saf.resetFall = some 8 ∧
    run.saf.nextPin (run.begin 9).clk = none ∧ (pinS 3).saf.nextPin ((pinS 3).begin 2000000).clk = some (1000000, 3) ∧
    (((pinS 3).begin 2000000).takePair 3 1000000).saf.nextPin ((pinS 3).begin 2000000).clk = none ∧
    pin2.saf.nextPin (pin2.begin 2000000).clk = some (1000000, 3) ∧
    ((pin2.begin 2000000).takePair 3 1000000).saf.nextPin (pin2.begin 2000000).clk = none ∧ clr.saf.st = SafSt.clear ∧
    ((clr.begin 10000000).now % 20000000 = if true = true then 10000000 else 0) ∧ run.saf.st = SafSt.init ∧ run.ready = true ∧
    run.saf.preB = false ∧ pre.saf.st = SafSt.init ∧ pre.ready = true ∧ pre.saf.preA = true ∧ pre.digestsOk = true ∧
    pre.flag F.CTL_BOOT_PROV = true ∧ pre.flag F.CTL_BOOT_SAFCAL = false ∧ pre.saf.retained = none := by
  and_intros <;> decide

theorem hyp_SafetyTelegramsAreSentAndAccepted :
    excite.dev ≠ DevState.reset ∧ excite.tbu.gov0.isSome = true ∧ (excite.begin 250000).now % 250000 = 0 ∧ excite.safetyPartner = none ∧
    w3.dev ≠ DevState.reset ∧ w3.tbu.gov0.isSome = true ∧ (w3.begin 250000).now % 250000 = 0 ∧ w3.safetyPartner = none ∧
    run.dev ≠ DevState.reset ∧ (run.tbu.gov0 = none ∨ (run.begin 250000).now % 250000 ≠ 0) ∧ run.flag F.SAF_CFG_PRESSEN = false ∧
    (pressed id).dev ≠ DevState.reset ∧ (pressed id).flag F.SAF_CFG_PRESSEN = true ∧
    ((if 1 = 1 then some [] else lineTelegram []).bind (pressPayload 1) = none) ∧
    ((if 2 = 1 then some [] else lineTelegram []).bind (pressPayload 2) = none) ∧
    ((if 1 = 1 then some (onPath1 pressWords) else lineTelegram []).bind (pressPayload 1) = some pressWords) ∧
    bitsOf (BitVec.toNat (pressWords.getD 0 0)) 19 16 = 1 ∧ bitsOf (BitVec.toNat (pressWords.getD 0 0)) 11 8 = 2 ∧
    bitsOf (BitVec.toNat (pressWords.getD 0 0)) 7 3 = (pressed id).lnk.pos ∧ (pressed id).saf.copy = none ∧
    (pc pressWords true).dev ≠ DevState.reset ∧ (pc pressWords true).flag F.SAF_CFG_PRESSEN = true ∧
    bitsOf (BitVec.toNat (pressWords.getD 0 0)) 7 3 = (pc pressWords true).lnk.pos ∧
    (pc pressWords true).saf.copy = some { path := 2, words := pressWords, time := 0, timeOk := true } ∧
    ((pc pressWords true).begin 7).clk ≤ 0 + 150000 ∧
    (∀ (x : ℕ), (pc pressWords true).saf.seqRx = some x → newer (BitVec.toNat (pressWords.getD 1 0)) x = true) ∧
    ((pc pressWords true).begin 7).pressTimeOk pressWords = true ∧ (pc pressWords false).dev ≠ DevState.reset ∧
    (pc pressWords false).flag F.SAF_CFG_PRESSEN = true ∧ bitsOf (BitVec.toNat (pressWords.getD 0 0)) 7 3 = (pc pressWords false).lnk.pos ∧
    (pc pressWords false).saf.copy = some { path := 2, words := pressWords, time := 0, timeOk := false } ∧
    ((pc pressWords false).begin 7).clk ≤ 0 + 150000 ∧
    (pressWords ≠ pressWords ∨ (∃ (x : ℕ), (pc pressWords false).saf.seqRx = some x ∧ newer (BitVec.toNat (pressWords.getD 1 0)) x = false) ∨ false = false ∨ ((pc pressWords false).begin 7).pressTimeOk pressWords = false) ∧
    (pc (pressWords.set 2 1) true).dev ≠ DevState.reset ∧ (pc (pressWords.set 2 1) true).flag F.SAF_CFG_PRESSEN = true ∧
    bitsOf (BitVec.toNat (pressWords.getD 0 0)) 7 3 = (pc (pressWords.set 2 1) true).lnk.pos ∧
    (pc (pressWords.set 2 1) true).saf.copy = some { path := 2, words := pressWords.set 2 1, time := 0, timeOk := true } ∧
    ((pc (pressWords.set 2 1) true).begin 7).clk ≤ 0 + 150000 ∧ (pressWords.set 2 1).getD 1 0 = pressWords.getD 1 0 ∧
    (pressWords.set 2 1 ≠ pressWords ∨ (∃ (x : ℕ), (pc (pressWords.set 2 1) true).saf.seqRx = some x ∧ newer (BitVec.toNat (pressWords.getD 1 0)) x = false) ∨ true = false ∨ ((pc (pressWords.set 2 1) true).begin 7).pressTimeOk pressWords = false) ∧
    w4.dev ≠ DevState.reset ∧ w4.flag F.SAF_CFG_PRESSEN = true ∧ w4.saf.pressTmo = false ∧
    w4.saf.pressAt + 1000 * w4.rd F.SAF_OSTTMO_TMO ≤ (w4.begin 1000).clk ∧ w5.dev ≠ DevState.reset ∧ w5.flag F.SAF_CFG_PRESSEN = true ∧
    w5.saf.pressTmo = false ∧ w5.saf.pressAt + 1000 * w5.rd F.SAF_OSTTMO_TMO ≤ (w5.begin 1000).clk := by
  and_intros <;> decide

end C10

namespace C11
def tr8 := (laneAt 8 .train).setLane 8 { (laneAt 8 .train).lane 8 with ready := 8 }
def lsus := (laneAt 0 .lock).modLnk fun l => { l with partners := [(5, { (default : Partner) with st := .suspended, maj := 2 })] }
def c89 := ((laneAt 8 .caps).setLane 9 ⟨.active, 0, false, false, 0, 0, 0⟩).setNeigh .up { (default : Neigh) with deg := true }
def a89 := ((laneAt 8 .active).setLane 9 ⟨.active, 0, false, false, 0, 0, 0⟩)
def j8 := (laneAt 8 .active).modLnk fun l => { l with joined := true }
def hsent := home.setPtn 5 { home.ptn 5 with sent := [⟨4, 9, [1], 8⟩, ⟨5, 8, [], 7⟩] }
def hone := home.setLane 1 ⟨.detect, 0, false, false, 0, 0, 0⟩
def tf (w : Word) (i : Bool) : TrainFrame := ⟨w, ~~~w, i⟩

theorem hyp_LanesComeUpStageByStage :
    (run.tbuLocked = false ∨ (run.lane 3).stage = Stage.active ∨ (run.lane 3).stage = Stage.jig ∨ (run.lane 3).stage = Stage.off) ∧
    (laneAt 0 Stage.detect).tbuLocked = true ∧ ((laneAt 0 Stage.detect).lane 0).stage = Stage.detect ∧
    ((laneAt 0 Stage.detect).lane 0).since + 100000 ≤ ((laneAt 0 Stage.detect).begin 100000).clk ∧
    (laneAt 8 Stage.detect).tbuLocked = true ∧ ((laneAt 8 Stage.detect).lane 8).stage = Stage.detect ∧
    ((laneAt 8 Stage.detect).lane 8).since + 100000 ≤ ((laneAt 8 Stage.detect).begin 100000).clk ∧
    ((laneAt 8 Stage.detect).begin 99999).clk < ((laneAt 8 Stage.detect).lane 8).since + 100000 ∧ (laneAt 8 Stage.prbs).tbuLocked = true ∧
    ((laneAt 8 Stage.prbs).lane 8).stage = Stage.prbs ∧ tr8.tbuLocked = true ∧ (tr8.lane 8).stage = Stage.train ∧ 8 ≤ (tr8.lane 8).ready ∧
    (laneAt 8 Stage.train).tbuLocked = true ∧ ((laneAt 8 Stage.train).lane 8).stage = Stage.train ∧
    ((laneAt 8 Stage.train).lane 8).ready < 8 ∧ (laneAt 8 Stage.lock).tbuLocked = true ∧ ((laneAt 8 Stage.lock).lane 8).stage = Stage.lock ∧
    (laneAt 0 Stage.lock).tbuLocked = true ∧ ((laneAt 0 Stage.lock).lane 0).stage = Stage.lock ∧
    (put (laneAt 0 Stage.lock) [(F.LNK_LCFG_MODE 0, 2)]).tbuLocked = true ∧
    ((put (laneAt 0 Stage.lock) [(F.LNK_LCFG_MODE 0, 2)]).lane 0).stage = Stage.lock ∧ lsus.tbuLocked = true ∧
    (lsus.lane 0).stage = Stage.lock ∧ (laneAt 0 Stage.caps).tbuLocked = true ∧ ((laneAt 0 Stage.caps).lane 0).stage = Stage.caps ∧
    c89.tbuLocked = true ∧ (c89.lane 8).stage = Stage.caps ∧
    (Stage.prbs, 50000000) ∈ [(Stage.prbs, 50000000), (Stage.train, 100000000), (Stage.lock, 10000000)] ∧
    ((laneAt 0 Stage.prbs).lane 0).stage = Stage.prbs ∧
    ((laneAt 0 Stage.prbs).lane 0).since + 50000000 ≤ ((laneAt 0 Stage.prbs).begin 50000000).clk ∧
    (Stage.train, 100000000) ∈ [(Stage.prbs, 50000000), (Stage.train, 100000000), (Stage.lock, 10000000)] ∧
    ((laneAt 8 Stage.train).lane 8).since + 100000000 ≤ ((laneAt 8 Stage.train).begin 100000000).clk ∧
    (Stage.lock, 10000000) ∈ [(Stage.prbs, 50000000), (Stage.train, 100000000), (Stage.lock, 10000000)] ∧
    ((laneAt 8 Stage.lock).begin 9).clk < ((laneAt 8 Stage.lock).lane 8).since + 10000000 ∧
    ((laneAt 8 Stage.active).lane 8).stage ∉ [Stage.prbs, Stage.train, Stage.lock] := by
  and_intros <;> decide

theorem hyp_LaneLossMovesPartnersOrClosesThePort :
    (run.lane 8).stage ∉ [Stage.lock, Stage.caps, Stage.active] ∧ (home.lane 1).stage ∈ [Stage.lock, Stage.caps, Stage.active] ∧
    (1 < 8 ∧ home.homed 1 = [] ∨ 8 ≤ 1 ∧ (home.lane 1).stage ≠ Stage.active) ∧
    ((laneAt 9 Stage.caps).lane 9).stage ∈ [Stage.lock, Stage.caps, Stage.active] ∧
    (9 < 8 ∧ (laneAt 9 Stage.caps).homed 9 = [] ∨ 8 ≤ 9 ∧ ((laneAt 9 Stage.caps).lane 9).stage ≠ Stage.active) ∧
    (a89.lane 8).stage ∈ [Stage.lock, Stage.caps, Stage.active] ∧ (a89.lane 8).stage = Stage.active ∧
    (a89.lane (twinLane 8)).stage = Stage.active ∧ ((laneAt 10 Stage.active).lane 10).stage ∈ [Stage.lock, Stage.caps, Stage.active] ∧
    ((laneAt 10 Stage.active).lane 10).stage = Stage.active ∧ ((laneAt 10 Stage.active).lane (twinLane 10)).stage ≠ Stage.active ∧
    (j8.lane 8).stage ∈ [Stage.lock, Stage.caps, Stage.active] ∧ (j8.lane 8).stage = Stage.active ∧
    (j8.lane (twinLane 8)).stage ≠ Stage.active ∧ j8.lnk.joined = true ∧ j8.isHead = false ∧
    (home.lane 0).stage ∈ [Stage.lock, Stage.caps, Stage.active] ∧ (home.lnk.partners).length = 1 ∧ 0 = 0 ∧ home.aggOf 1 = 0 ∧
    home.carries 1 = true ∧ (∀ j < 8, home.aggOf j = 0 → home.carries j = true → j = 0 ∨ j = 1) ∧
    (hsent.lane 0).stage ∈ [Stage.lock, Stage.caps, Stage.active] ∧ (hsent.lnk.partners).length = 1 ∧ (home.ptn 5).st = PtnSt.active ∧
    (home.ptn 5).maj ≠ 0 ∧ (home.ptn 5).lane = 0 ∧ (home.ptn 5).evt = false ∧ (home.ptn 5).evq = [] ∧ hsent.aggOf 1 = (home.ptn 5).agg ∧
    hsent.carries 1 = true ∧ (∀ j < 8, hsent.aggOf j = (home.ptn 5).agg → hsent.carries j = true → j = 0 ∨ j = 1) ∧
    (hone.lane 0).stage ∈ [Stage.lock, Stage.caps, Stage.active] ∧ (hone.lnk.partners).length = 1 ∧
    (∀ j < 8, j ≠ 0 → hone.aggOf j = 0 → hone.carries j = false) := by
  and_intros <;> decide

theorem hyp_LanesAreTrainedAndTested :
    ((laneAt 8 Stage.train).lane 8).stage = Stage.train ∧ (laneAt 8 Stage.train).laneDlp 8 = true ∧
    (tf 174080 false).copy = ~~~(tf 174080 false).word ∧ (tf 150528 true).copy = ~~~(tf 150528 true).word ∧
    ((put (laneAt 0 Stage.train) [(F.LNK_LCFG_MODE 0, 1)]).lane 0).stage = Stage.train ∧
    (put (laneAt 0 Stage.train) [(F.LNK_LCFG_MODE 0, 1)]).laneDlp 0 = true ∧ (tf 5120 false).copy = ~~~(tf 5120 false).word ∧
    (tf 4608 false).copy = ~~~(tf 4608 false).word ∧ (tf 512 false).copy = ~~~(tf 512 false).word ∧ opened (laneAt 8 Stage.active) = true ∧
    (4 < bitsOf 1280 10 8 ∨ bitsOf 1280 10 8 ≠ 0 ∧ (8 ≤ 8 ∧ (laneAt 8 Stage.active).lnk.joined = true ∨ 8 < 8 ∧ (laneAt 8 Stage.active).onlySafeLane 8 = true) ∨ bitOf 1280 6 = true ∧ (((laneAt 8 Stage.active).lane 8).stage ≠ Stage.jig ∨ bitsOf 1280 10 8 = 0 ∨ bitOf 1280 7 = false)) ∧
    opened (laneAt 8 Stage.jig) = true ∧ ((laneAt 8 Stage.jig).lane 8).stage = Stage.jig ∧ 0 < bitsOf 448 10 8 ∧ bitsOf 448 10 8 ≤ 4 ∧
    (¬(bitsOf 448 10 8 ≠ 0 ∧ (8 ≤ 8 ∧ (laneAt 8 Stage.jig).lnk.joined = true ∨ 8 < 8 ∧ (laneAt 8 Stage.jig).onlySafeLane 8 = true))) ∧
    (bitOf 448 6 = true → bitOf 448 7 = true) ∧ opened (laneAt 0 Stage.active) = true ∧
    ((laneAt 0 Stage.active).lane 0).stage ≠ Stage.jig ∧ 0 < bitsOf 256 10 8 ∧ bitsOf 256 10 8 ≤ 4 ∧
    (¬(bitsOf 256 10 8 ≠ 0 ∧ (8 ≤ 0 ∧ (laneAt 0 Stage.active).lnk.joined = true ∨ 0 < 8 ∧ (laneAt 0 Stage.active).onlySafeLane 0 = true))) ∧
    bitOf 256 6 = false ∧ (0 < 8 ∧ (laneAt 0 Stage.active).homed 0 = [] ∨ 8 ≤ 0 ∧ ((laneAt 0 Stage.active).lane 0).stage ≠ Stage.active) ∧
    opened (laneAt 8 Stage.caps) = true ∧ ((laneAt 8 Stage.caps).lane 8).stage ≠ Stage.jig ∧ 0 < bitsOf 1024 10 8 ∧
    bitsOf 1024 10 8 ≤ 4 ∧
    (¬(bitsOf 1024 10 8 ≠ 0 ∧ (8 ≤ 8 ∧ (laneAt 8 Stage.caps).lnk.joined = true ∨ 8 < 8 ∧ (laneAt 8 Stage.caps).onlySafeLane 8 = true))) ∧
    bitOf 1024 6 = false ∧ (8 < 8 ∧ (laneAt 8 Stage.caps).homed 8 = [] ∨ 8 ≤ 8 ∧ ((laneAt 8 Stage.caps).lane 8).stage ≠ Stage.active) ∧
    bitsOf 0 10 8 = 0 ∧ bitOf 0 6 = false := by
  and_intros <;> decide

end C11

namespace C12
def home9 (x : Nat) := home.setPtn 5 { home.ptn 5 with rxSeq := some x }
def hmsg := dlp 1 [7, 0x23000, 0, 0, 0]
def hd : Dlp := ⟨1, 5, 9, [7, 0x23000, 0, 0, 0]⟩
def bootl := boot.setLane 0 ⟨.active, 0, false, false, 0, 0, 0⟩
def full := (laneAt 0 .caps).modLnk fun l => { l with partners := (List.range 64).map fun n => (n, { (default : Partner) with st := .active, agg := 1 }) }
def lcaps := (laneAt 0 .caps)
def hmsg1 := dlp 1 [7, 0x13000, 0x16000, 0x31000, 0]
def hd1 : Dlp := ⟨1, 5, 9, [7, 0x13000, 0x16000, 0x31000, 0]⟩
def hmsg2 := dlp 1 [7]
def hd2 : Dlp := ⟨1, 5, 9, [7]⟩
def samep : Partner := { (default : Partner) with st := .active, maj := 2, min := 3, tag := 7, subs := 3, evt := true }
def home7 := home.modLnk fun l => { l with partners := [(5, samep)] }
def sel (w : Word) := dlp 3 [w]
def seld (w : Word) : Dlp := ⟨3, 5, 9, [w]⟩
def sub (w : Word) := dlp 6 [w]
def subd (w : Word) : Dlp := ⟨6, 5, 9, [w]⟩
def hs := home.setWord 0x8050 0x80000
def hs2 := hs.modCmp fun m => { m with ctxs := [(0, { Ctx.free with used := true, client := .scanout, src := 0 })] }
def hs3 := hs.modCmp fun m => { m with ctxs := (List.range 16).map fun n => (n, { Ctx.free with used := true }) }
def hscan := home.setStream 3 { home.stream 3 with scan := some { (default : Scan) with dests := [5] } }
def kt := 1000000 * run.rd F.LNK_KATMO_KATMO
def acc (w : Word) := dlp 0x14 [w]
def wa := (home.setPtn 5 { home.ptn 5 with subs := 8 }).setStream 3 { strA with waitAt := some 0 }
def cpl : List Word := (0x30000 : Word) :: List.replicate 11 0
def cpl2 : List Word := (0x30000 : Word) :: List.replicate 11 0x80000
def cpl3 : List Word := (0x90000 : Word) :: List.replicate 11 0x80000

theorem hyp_MessagesOfPartnersAreChecked :
    ([1, 2, 3].length ≤ if false = true then 583 else 8192) ∧ (8 ≤ 9 ∨ home.carries 9 = false) ∧ home.carries 0 = true ∧
    Dlp.parse (home.laneEth 0) [] = none ∧ Dlp.parse (home.laneEth 0) (dlp 4 []) = some { typ := 4, ptn := 5, seq := 9, payload := [] } ∧
    home.senderOk 0 { ip := 1, port := 1 } (home.ptn 5) = true ∧ (home9 9).carries 0 = true ∧
    Dlp.parse ((home9 9).laneEth 0) (dlp 4 []) = some { typ := 4, ptn := 5, seq := 9, payload := [] } ∧
    (home9 9).senderOk 0 src0 ((home9 9).ptn 5) = true ∧ ((home9 9).ptn 5).rxSeq = some 9 ∧ newer 9 9 = false ∧ (home9 8).carries 0 = true ∧
    Dlp.parse ((home9 8).laneEth 0) (dlp 63 []) = some { typ := 63, ptn := 5, seq := 9, payload := [] } ∧
    (home9 8).senderOk 0 src0 ((home9 8).ptn 5) = true ∧ (∀ (r : ℕ), ((home9 8).ptn 5).rxSeq = some r → newer 9 r = true) ∧
    ((home9 8).ptn 5).allows 63 = false ∧
    Dlp.parse ((home9 8).laneEth 0) (dlp 4 []) = some { typ := 4, ptn := 5, seq := 9, payload := [] } ∧ ((home9 8).ptn 5).allows 4 = true := by
  and_intros <;> decide

theorem hyp_PartnersJoinSelectAndSubscribe :
    bootl.carries 0 = true ∧ Dlp.parse (bootl.laneEth 0) hmsg = some hd ∧ hd.typ = 1 ∧ bootl.ready = false ∧ full.carries 0 = true ∧
    Dlp.parse (full.laneEth 0) hmsg = some hd ∧ full.ready = true ∧
    (∀ e ∈ full.lnk.partners, ¬(e.2.agg = full.aggOf 0 ∧ (e.2.tag = if full.laneEth 0 = true then src0.ip else BitVec.ofNat 32 (BitVec.toNat (hd.payload.headD 0))) ∧ e.2.port = if full.laneEth 0 = true then src0.port else 0)) ∧
    (∀ k < 64, (full.ptn k).st ≠ PtnSt.free) ∧ lcaps.carries 0 = true ∧ Dlp.parse (lcaps.laneEth 0) hmsg = some hd ∧ lcaps.ready = true ∧
    (∀ e ∈ lcaps.lnk.partners, ¬(e.2.agg = lcaps.aggOf 0 ∧ (e.2.tag = if lcaps.laneEth 0 = true then src0.ip else BitVec.ofNat 32 (BitVec.toNat (hd.payload.headD 0))) ∧ e.2.port = if lcaps.laneEth 0 = true then src0.port else 0)) ∧
    (lcaps.ptn 0).st = PtnSt.free ∧ (∀ k < 0, (lcaps.ptn k).st ≠ PtnSt.free) ∧ home.carries 0 = true ∧
    Dlp.parse (home.laneEth 0) hmsg1 = some hd1 ∧ hd1.typ = 1 ∧ home.ready = true ∧
    (∀ e ∈ home.lnk.partners, ¬(e.2.agg = home.aggOf 0 ∧ (e.2.tag = if home.laneEth 0 = true then src0.ip else BitVec.ofNat 32 (BitVec.toNat (hd1.payload.headD 0))) ∧ e.2.port = if home.laneEth 0 = true then src0.port else 0)) ∧
    (home.ptn 0).st = PtnSt.free ∧ (∀ k < 0, (home.ptn k).st ≠ PtnSt.free) ∧ Dlp.parse (lcaps.laneEth 0) hmsg2 = some hd2 ∧ hd2.typ = 1 ∧
    (∀ e ∈ lcaps.lnk.partners, ¬(e.2.agg = lcaps.aggOf 0 ∧ (e.2.tag = if lcaps.laneEth 0 = true then src0.ip else BitVec.ofNat 32 (BitVec.toNat (hd2.payload.headD 0))) ∧ e.2.port = if lcaps.laneEth 0 = true then src0.port else 0)) ∧
    home7.carries 0 = true ∧ Dlp.parse (home7.laneEth 0) hmsg = some hd ∧ home7.ready = true ∧ home7.lnk.partners = [(5, samep)] ∧
    (samep.agg = home7.aggOf 0 ∧ (samep.tag = if home7.laneEth 0 = true then src0.ip else BitVec.ofNat 32 (BitVec.toNat (hd.payload.headD 0))) ∧ samep.port = if home7.laneEth 0 = true then src0.port else 0) ∧
    inCaps.carries 0 = true ∧ Dlp.parse (inCaps.laneEth 0) (sel 143360) = some (seld 143360) ∧
    inCaps.senderOk 0 src0 (inCaps.ptn (seld 143360).ptn) = true ∧
    (∀ (r : ℕ), (inCaps.ptn (seld 143360).ptn).rxSeq = some r → newer (seld 143360).seq r = true) ∧
    (inCaps.ptn (seld 143360).ptn).allows (seld 143360).typ = true ∧ (seld 143360).typ = 3 ∧
    (inCaps.ptn (seld 143360).ptn).st = PtnSt.caps ∧
    bitsOf (BitVec.toNat ((seld 143360).payload.headD 0)) 19 16 = (inCaps.ptn (seld 143360).ptn).offMaj ∧
    bitsOf (BitVec.toNat ((seld 143360).payload.headD 0)) 15 12 ≤ (inCaps.ptn (seld 143360).ptn).offMin ∧
    Dlp.parse (inCaps.laneEth 0) (sel 147456) = some (seld 147456) ∧ inCaps.senderOk 0 src0 (inCaps.ptn (seld 147456).ptn) = true ∧
    (∀ (r : ℕ), (inCaps.ptn (seld 147456).ptn).rxSeq = some r → newer (seld 147456).seq r = true) ∧
    (inCaps.ptn (seld 147456).ptn).allows (seld 147456).typ = true ∧ (seld 147456).typ = 3 ∧
    (inCaps.ptn (seld 147456).ptn).st = PtnSt.caps ∧
    (bitsOf (BitVec.toNat ((seld 147456).payload.headD 0)) 19 16 ≠ (inCaps.ptn (seld 147456).ptn).offMaj ∨ (inCaps.ptn (seld 147456).ptn).offMin < bitsOf (BitVec.toNat ((seld 147456).payload.headD 0)) 15 12) ∧
    Dlp.parse (home.laneEth 0) (sel 147456) = some (seld 147456) ∧ home.senderOk 0 src0 (home.ptn (seld 147456).ptn) = true ∧
    (∀ (r : ℕ), (home.ptn (seld 147456).ptn).rxSeq = some r → newer (seld 147456).seq r = true) ∧
    (home.ptn (seld 147456).ptn).allows (seld 147456).typ = true ∧ (home.ptn (seld 147456).ptn).st ≠ PtnSt.caps ∧ hs.carries 0 = true ∧
    Dlp.parse (hs.laneEth 0) (sub 212992) = some (subd 212992) ∧ hs.senderOk 0 src0 (hs.ptn (subd 212992).ptn) = true ∧
    (∀ (r : ℕ), (hs.ptn (subd 212992).ptn).rxSeq = some r → newer (subd 212992).seq r = true) ∧
    (hs.ptn (subd 212992).ptn).allows (subd 212992).typ = true ∧ (subd 212992).typ = 6 ∧
    (bitOf (BitVec.toNat ((subd 212992).payload.headD 0)) 15 && (hs.ptn (subd 212992).ptn).atLeast 2 0) = false ∧ hs2.carries 0 = true ∧
    Dlp.parse (hs2.laneEth 0) (sub 98304) = some (subd 98304) ∧ hs2.senderOk 0 src0 (hs2.ptn (subd 98304).ptn) = true ∧
    (∀ (r : ℕ), (hs2.ptn (subd 98304).ptn).rxSeq = some r → newer (subd 98304).seq r = true) ∧
    (hs2.ptn (subd 98304).ptn).allows (subd 98304).typ = true ∧ (subd 98304).typ = 6 ∧
    (bitOf (BitVec.toNat ((subd 98304).payload.headD 0)) 15 && (hs2.ptn (subd 98304).ptn).atLeast 2 0) = true ∧
    (∀ k < 4, bitOf (BitVec.toNat ((subd 98304).payload.headD 0)) (16 + k) = true → hs2.streamOn k = true → (hs2.streamCtx k).isSome = true) ∧
    hs3.carries 0 = true ∧ Dlp.parse (hs3.laneEth 0) (sub 98304) = some (subd 98304) ∧
    hs3.senderOk 0 src0 (hs3.ptn (subd 98304).ptn) = true ∧
    (∀ (r : ℕ), (hs3.ptn (subd 98304).ptn).rxSeq = some r → newer (subd 98304).seq r = true) ∧
    (hs3.ptn (subd 98304).ptn).allows (subd 98304).typ = true ∧
    (bitOf (BitVec.toNat ((subd 98304).payload.headD 0)) 15 && (hs3.ptn (subd 98304).ptn).atLeast 2 0) = true ∧
    bitOf (BitVec.toNat ((subd 98304).payload.headD 0)) (16 + 0) = true ∧ hs3.streamOn 0 = true ∧ hs3.streamCtx 0 = none ∧
    (∀ j < 16, (hs3.ctx j).used = true) := by
  and_intros <;> decide

theorem hyp_PartnersLeaveAcceptAndCommit :
    (0 < 8 ∧ home.carries 0 = true ∧ Dlp.parse (home.laneEth 0) (dlp 5 []) = some { typ := 5, ptn := 5, seq := 9, payload := [] } ∧ home.senderOk 0 src0 (home.ptn 5) = true ∧ (∀ (r : ℕ), (home.ptn 5).rxSeq = some r → newer 9 r = true) ∧ (home.ptn 5).allows 5 = true) ∧
    home.inScan 5 = false ∧
    (0 < 8 ∧ hscan.carries 0 = true ∧ Dlp.parse (hscan.laneEth 0) (dlp 5 []) = some { typ := 5, ptn := 5, seq := 9, payload := [] } ∧ hscan.senderOk 0 src0 (hscan.ptn 5) = true ∧ (∀ (r : ℕ), (hscan.ptn 5).rxSeq = some r → newer 9 r = true) ∧ (hscan.ptn 5).allows 5 = true) ∧
    hscan.inScan 5 = true ∧ (home.ptn 5).st ≠ PtnSt.free ∧ (home.ptn 5).closing = false ∧
    (home.ptn 5).rxAt + 1000000 * home.rd F.LNK_KATMO_KATMO ≤ (home.begin kt).clk ∧ (hscan.ptn 5).st ≠ PtnSt.free ∧
    (hscan.ptn 5).closing = false ∧ (hscan.ptn 5).rxAt + 1000000 * hscan.rd F.LNK_KATMO_KATMO ≤ (hscan.begin kt).clk ∧
    ((home.ptn 6).st = PtnSt.free ∨ (home.ptn 6).closing = true ∨ (home.begin 9).clk < (home.ptn 6).rxAt + 1000000 * home.rd F.LNK_KATMO_KATMO) ∧
    home.canSend 5 = true ∧ 1000000 * home.rd F.LNK_KATMO_KATMO ≤ 4 * ((home.begin kt).clk - (home.ptn 5).txAt) ∧
    (home.canSend 6 = false ∨ 4 * ((home.begin 9).clk - (home.ptn 6).txAt) < 1000000 * home.rd F.LNK_KATMO_KATMO) ∧
    (0 < 8 ∧ home.carries 0 = true ∧ Dlp.parse (home.laneEth 0) (acc 262144) = some { typ := 20, ptn := 5, seq := 9, payload := [262144] } ∧ home.senderOk 0 src0 (home.ptn 5) = true ∧ (∀ (r : ℕ), (home.ptn 5).rxSeq = some r → newer 9 r = true) ∧ (home.ptn 5).allows 20 = true) ∧
    4 ≤ bitsOf 262144 19 16 ∧
    (0 < 8 ∧ home.carries 0 = true ∧ Dlp.parse (home.laneEth 0) (acc 196608) = some { typ := 20, ptn := 5, seq := 9, payload := [196608] } ∧ home.senderOk 0 src0 (home.ptn 5) = true ∧ (∀ (r : ℕ), (home.ptn 5).rxSeq = some r → newer 9 r = true) ∧ (home.ptn 5).allows 20 = true) ∧
    bitsOf 196608 19 16 < 4 ∧ (home.stream (bitsOf 196608 19 16)).waitAt = none ∧
    (0 < 8 ∧ wa.carries 0 = true ∧ Dlp.parse (wa.laneEth 0) (acc 196608) = some { typ := 20, ptn := 5, seq := 9, payload := [196608] } ∧ wa.senderOk 0 src0 (wa.ptn 5) = true ∧ (∀ (r : ℕ), (wa.ptn 5).rxSeq = some r → newer 9 r = true) ∧ (wa.ptn 5).allows 20 = true) ∧
    (wa.stream (bitsOf 196608 19 16)).waitAt.isSome = true ∧ wa.missing (bitsOf 196608 19 16) = ([5], false) ∧
    (wa.stream (bitsOf 196608 19 16)).find SlotSt.ready = some 1 ∧ (wa.stream (bitsOf 196608 19 16)).scan = none ∧
    (0 < 8 ∧ home.carries 0 = true ∧ Dlp.parse (home.laneEth 0) (dlp 21 cpl) = some { typ := 21, ptn := 5, seq := 9, payload := cpl } ∧ home.senderOk 0 src0 (home.ptn 5) = true ∧ (∀ (r : ℕ), (home.ptn 5).rxSeq = some r → newer 9 r = true) ∧ (home.ptn 5).allows 21 = true) ∧
    bitsOf (BitVec.toNat (cpl.headD 0)) 19 16 < 4 ∧
    home.judgeDef (bitsOf (BitVec.toNat (cpl.headD 0)) 19 16) (List.map (fun (i : ℕ) => defMask i (cpl.getD (i + 1) 0)) (List.range 11)) = Status.ok ∧
    (∀ (d : Pend), (home.stream (bitsOf (BitVec.toNat (cpl.headD 0)) 19 16)).pend = some d → d.partner = true ∨ d.at0 ≠ (home.begin 9).clk) ∧
    (0 < 8 ∧ home.carries 0 = true ∧ Dlp.parse (home.laneEth 0) (dlp 21 cpl2) = some { typ := 21, ptn := 5, seq := 9, payload := cpl2 } ∧ home.senderOk 0 src0 (home.ptn 5) = true ∧ (∀ (r : ℕ), (home.ptn 5).rxSeq = some r → newer 9 r = true) ∧ (home.ptn 5).allows 21 = true) ∧
    (4 ≤ bitsOf (BitVec.toNat (cpl2.headD 0)) 19 16 ∨ bitsOf (BitVec.toNat (cpl2.headD 0)) 19 16 < 4 ∧ home.judgeDef (bitsOf (BitVec.toNat (cpl2.headD 0)) 19 16) (List.map (fun (i : ℕ) => defMask i (cpl2.getD (i + 1) 0)) (List.range 11)) ≠ Status.ok) ∧
    (0 < 8 ∧ home.carries 0 = true ∧ Dlp.parse (home.laneEth 0) (dlp 21 cpl3) = some { typ := 21, ptn := 5, seq := 9, payload := cpl3 } ∧ home.senderOk 0 src0 (home.ptn 5) = true ∧ (∀ (r : ℕ), (home.ptn 5).rxSeq = some r → newer 9 r = true) ∧ (home.ptn 5).allows 21 = true) ∧
    (4 ≤ bitsOf (BitVec.toNat (cpl3.headD 0)) 19 16 ∨ bitsOf (BitVec.toNat (cpl3.headD 0)) 19 16 < 4 ∧ home.judgeDef (bitsOf (BitVec.toNat (cpl3.headD 0)) 19 16) (List.map (fun (i : ℕ) => defMask i (cpl3.getD (i + 1) 0)) (List.range 11)) ≠ Status.ok) := by
  and_intros <;> decide

end C12

namespace C13
def H (up ok : Bool) (n : Nat) : ChainHdr := ⟨if up then .up else .down, n, ok⟩
def b5 := (below 3).setNeigh .up { (below 3).neigh .up with rxSeq := some 5 }
def fullc (s : State) := s.modLnk fun l => { l with full := true }
def bj := ((below 30).modTbu fun b => { b with chainE := some (-700) }).setDev .boot
def joined (s : State) := s.modLnk fun l => { l with joined := true, pos := 4 }
def pj : ChainParams := { par 3 with joined := false }
def w1 : State := (joined (laneAt 10 .active)).modTbu fun b => { b with chainE := some 77 }
def w2 : State := (joined (below 0)).modTbu fun b => { b with slewing := true }
def j2 := (joined (below 0)).setLane 10 ⟨.active, 0, false, false, 0, 0, 0⟩
def wpB (s : State) := s.modSeq fun q => { q with pageB := { (default : Page) with entries := [entry 0 0 0, entry 0 0 0] } }
def sqq (st : SeqSt) := wpB (j2.modSeq fun q => { q with st := st, syncSrc := 4, syncArg := 3, pageA := { (default : Page) with entries := [entry 0 0 0] } })
def sql := (sqq .syncwait).modSeq fun q => { q with loading := some true }
def rec1 : List Word := [0x00200, 252, 0, 0, 0, 0, 0, 0, 1,2,3,4,5,6]
def df : FrmSlot := { (default : FrmSlot) with st := .asm, defn := [0x80000, 0, 2, 0xC1000] }
def dvf := (dovetail.setStream 3 { (default : Stream) with s2 := df }).modFso fun f => { f with frameOpen := true }

theorem hyp_ChainMembersJoinCompareAndLeave :
    run.portUp (H true true 1).side = false ∧ (below 3).portUp (H true false 1).side = true ∧ (H true false 1).crcOk = false ∧
    b5.portUp (H true true 5).side = true ∧ (H true true 5).crcOk = true ∧ (b5.neigh (H true true 5).side).rxSeq = some 5 ∧
    newer (H true true 5).seq 5 = false ∧
    (run.isHead = true ∨ run.lnk.joined = true ∨ run.portUp ChainSide.up = false ∨ run.joinedNeigh ChainSide.up = none) ∧
    (fullc (below 31)).isHead = false ∧ (fullc (below 31)).lnk.joined = false ∧ (fullc (below 31)).portUp ChainSide.up = true ∧
    (fullc (below 31)).joinedNeigh ChainSide.up = some (par 31) ∧ 31 ≤ (par 31).pos ∧ (fullc (below 31)).lnk.full = true ∧
    (below 31).isHead = false ∧ (below 31).lnk.joined = false ∧ (below 31).portUp ChainSide.up = true ∧
    (below 31).joinedNeigh ChainSide.up = some (par 31) ∧ (below 31).lnk.full = false ∧ (below 30).isHead = false ∧
    (below 30).lnk.joined = false ∧ (below 30).portUp ChainSide.up = true ∧ (below 30).joinedNeigh ChainSide.up = some (par 30) ∧
    (par 30).pos < 31 ∧ (below 30).tbu.chainE = none ∧ (put (below 0) [(F.CTL_SLOT_CFG_SLOTN, 3)]).isHead = false ∧
    (put (below 0) [(F.CTL_SLOT_CFG_SLOTN, 3)]).lnk.joined = false ∧
    (put (below 0) [(F.CTL_SLOT_CFG_SLOTN, 3)]).portUp ChainSide.up = true ∧
    (put (below 0) [(F.CTL_SLOT_CFG_SLOTN, 3)]).joinedNeigh ChainSide.up = some (par 0) ∧ (par 0).pos < 31 ∧
    (put (below 0) [(F.CTL_SLOT_CFG_SLOTN, 3)]).tbu.chainE = none ∧ bj.isHead = false ∧ bj.lnk.joined = false ∧
    bj.portUp ChainSide.up = true ∧ bj.joinedNeigh ChainSide.up = some (par 30) ∧ bj.tbu.chainE = some (-700) ∧ bj.ready = false ∧
    (laneAt 8 Stage.active).portUp (H true true 1).side = true ∧ (H true true 1).crcOk = true ∧
    (∀ (r : ℕ), ((laneAt 8 Stage.active).neigh (H true true 1).side).rxSeq = some r → newer (H true true 1).seq r = true) ∧
    (laneAt 8 Stage.active).lnk.joined = false ∧ (joined (below 3)).portUp (H true true 1).side = true ∧
    (∀ (r : ℕ), ((joined (below 3)).neigh (H true true 1).side).rxSeq = some r → newer (H true true 1).seq r = true) ∧
    (joined (below 3)).lnk.joined = true ∧ (joined (below 3)).isHead = false ∧ (H true true 1).side = ChainSide.up ∧ pj.joined = false ∧
    (joined (laneAt 8 Stage.active)).portUp (H true true 1).side = true ∧
    (∀ (r : ℕ), ((joined (laneAt 8 Stage.active)).neigh (H true true 1).side).rxSeq = some r → newer (H true true 1).seq r = true) ∧
    (joined (laneAt 8 Stage.active)).lnk.joined = true ∧
    ((joined (laneAt 8 Stage.active)).isHead = true ∨ (H true true 1).side = ChainSide.down ∨ (par 3).joined = true) ∧
    (joined (laneAt 10 Stage.active)).portUp (H false true 1).side = true ∧ (H false true 1).crcOk = true ∧
    (∀ (r : ℕ), ((joined (laneAt 10 Stage.active)).neigh (H false true 1).side).rxSeq = some r → newer (H false true 1).seq r = true) ∧
    (joined (laneAt 10 Stage.active)).lnk.joined = true ∧
    ((joined (laneAt 10 Stage.active)).isHead = true ∨ (H false true 1).side = ChainSide.down ∨ (par 3).joined = true) ∧
    ((joined (laneAt 10 Stage.active)).isHead = true ∨ (H false true 1).side = ChainSide.down ∨ pj.joined = true) := by
  and_intros <;> decide

theorem hyp_ChainTimeAndRecordsAreExchanged :
    (run.isHead = true ∨ run.portUp ChainSide.up = false ∨ (run.begin 9).clk < run.lnk.probeAt + 125000) ∧ (below 0).isHead = false ∧
    (below 0).portUp ChainSide.up = true ∧ (below 0).lnk.probeAt + 125000 ≤ ((below 0).begin 125000).clk ∧
    (below 0).portUp (H true true 1).side = true ∧ (H true true 1).crcOk = true ∧
    (∀ (r : ℕ), ((below 0).neigh (H true true 1).side).rxSeq = some r → newer (H true true 1).seq r = true) ∧
    (H true true 1).side = ChainSide.up ∧ w1.portUp (H false true 1).side = true ∧ (H false true 1).crcOk = true ∧
    (∀ (r : ℕ), (w1.neigh (H false true 1).side).rxSeq = some r → newer (H false true 1).seq r = true) ∧
    (H false true 1).side = ChainSide.down ∧ (w1.isHead = true ∨ w1.lnk.joined = true) ∧
    (laneAt 10 Stage.active).portUp (H false true 1).side = true ∧
    (∀ (r : ℕ), ((laneAt 10 Stage.active).neigh (H false true 1).side).rxSeq = some r → newer (H false true 1).seq r = true) ∧
    (laneAt 10 Stage.active).isHead = false ∧ (laneAt 10 Stage.active).lnk.joined = false ∧
    ((H false true 1).side = ChainSide.down ∨ (laneAt 10 Stage.active).isHead = true) ∧ (below 0).lnk.joined = false ∧
    (joined (below 0)).portUp (H true true 1).side = true ∧
    (∀ (r : ℕ), ((joined (below 0)).neigh (H true true 1).side).rxSeq = some r → newer (H true true 1).seq r = true) ∧
    (joined (below 0)).isHead = false ∧ (joined (below 0)).lnk.joined = true ∧ (joined (below 0)).tbu.rejoin = false ∧
    w2.portUp (H true true 1).side = true ∧
    (∀ (r : ℕ), (w2.neigh (H true true 1).side).rxSeq = some r → newer (H true true 1).seq r = true) ∧ w2.isHead = false ∧
    w2.lnk.joined = true ∧ w2.tbu.rejoin = false ∧
    ((H true true 1).side = ChainSide.down ∨ (below 0).lnk.joined = false ∨ (below 0).isHead = true) ∧
    ((joined (below 0)).begin 9).now ≤ 50 ∧ j2.portUp (H true true 1).side = true ∧
    (∀ (r : ℕ), (j2.neigh (H true true 1).side).rxSeq = some r → newer (H true true 1).seq r = true) ∧ j2.lnk.joined = true ∧
    j2.isHead = false ∧ (j2.begin 9).now ≤ 50 ∧ 8 < (j2.begin 9).now ∧
    ((H false true 1).side = ChainSide.down ∨ (laneAt 10 Stage.active).lnk.joined = false ∨ (laneAt 10 Stage.active).isHead = true) ∧
    (sqq SeqSt.run).portUp (H true true 1).side = true ∧
    (∀ (r : ℕ), ((sqq SeqSt.run).neigh (H true true 1).side).rxSeq = some r → newer (H true true 1).seq r = true) ∧
    (sqq SeqSt.run).lnk.joined = true ∧ (sqq SeqSt.run).isHead = false ∧
    (((sqq SeqSt.run).seq.st = SeqSt.run ∨ (sqq SeqSt.run).seq.st = SeqSt.syncwait) ∧ (sqq SeqSt.run).seq.batten = none) ∧
    ((sqq SeqSt.run).begin 9).now ≤ 50 ∧ (sqq SeqSt.idle).portUp (H true true 1).side = true ∧
    (∀ (r : ℕ), ((sqq SeqSt.idle).neigh (H true true 1).side).rxSeq = some r → newer (H true true 1).seq r = true) ∧
    (sqq SeqSt.idle).lnk.joined = true ∧ (sqq SeqSt.idle).isHead = false ∧
    ((sqq SeqSt.idle).seq.batten.isSome = true ∨ (sqq SeqSt.idle).seq.st = SeqSt.idle ∨ (sqq SeqSt.idle).seq.st = SeqSt.halted) ∧
    (sqq SeqSt.syncwait).portUp (H true true 1).side = true ∧
    (∀ (r : ℕ), ((sqq SeqSt.syncwait).neigh (H true true 1).side).rxSeq = some r → newer (H true true 1).seq r = true) ∧
    (sqq SeqSt.syncwait).lnk.joined = true ∧ (sqq SeqSt.syncwait).isHead = false ∧
    (((sqq SeqSt.syncwait).seq.st = SeqSt.run ∨ (sqq SeqSt.syncwait).seq.st = SeqSt.syncwait) ∧ (sqq SeqSt.syncwait).seq.batten = none) ∧
    5 < ((sqq SeqSt.syncwait).begin 9).now ∧ 5 < ((sqq SeqSt.run).begin 9).now ∧ false = (sqq SeqSt.run).seq.actB ∧
    sql.portUp (H true true 1).side = true ∧
    (∀ (r : ℕ), (sql.neigh (H true true 1).side).rxSeq = some r → newer (H true true 1).seq r = true) ∧ sql.lnk.joined = true ∧
    sql.isHead = false ∧ ((sql.seq.st = SeqSt.run ∨ sql.seq.st = SeqSt.syncwait) ∧ sql.seq.batten = none) ∧ 5 < (sql.begin 9).now ∧
    true ≠ sql.seq.actB ∧ sql.seq.loading = some true ∧ true ≠ (sqq SeqSt.run).seq.actB ∧ (sqq SeqSt.run).seq.loading ≠ some true ∧
    (below 0).doveWith (H true true 1).side = false ∧ dovetail.portUp (H true true 1).side = true ∧
    (∀ (r : ℕ), (dovetail.neigh (H true true 1).side).rxSeq = some r → newer (H true true 1).seq r = true) ∧
    dovetail.doveWith (H true true 1).side = true ∧
    (((H true true 1).side = ChainSide.up ∧ ∃ (p : ChainParams), dovetail.lnk.up.params = some p ∧ p.ncol - dovetail.rd F.CTL_DOVE_DL ≤ bitsOf (BitVec.toNat (rec1.getD 1 0)) 7 0 ∧ bitsOf (BitVec.toNat (rec1.getD 1 0)) 7 0 < p.ncol - dovetail.rd F.CTL_DOVE_DL + dovetail.rd F.CTL_DOVE_DL ∧ 0 = bitsOf (BitVec.toNat (rec1.getD 1 0)) 7 0 - (p.ncol - dovetail.rd F.CTL_DOVE_DL)) ∨ (H true true 1).side = ChainSide.down ∧ bitsOf (BitVec.toNat (rec1.getD 1 0)) 7 0 < dovetail.rd F.CTL_DOVE_DR ∧ 0 = 256 - dovetail.rd F.CTL_DOVE_DR + bitsOf (BitVec.toNat (rec1.getD 1 0)) 7 0) ∧
    (dovetail.fso.frameOpen = false ∨ dovetail.nlines ≤ bitsOf (BitVec.toNat (rec1.getD 1 0)) 19 8) ∧
    dvf.portUp (H true true 1).side = true ∧
    (∀ (r : ℕ), (dvf.neigh (H true true 1).side).rxSeq = some r → newer (H true true 1).seq r = true) ∧
    dvf.doveWith (H true true 1).side = true ∧
    (((H true true 1).side = ChainSide.up ∧ ∃ (p : ChainParams), dvf.lnk.up.params = some p ∧ p.ncol - dvf.rd F.CTL_DOVE_DL ≤ bitsOf (BitVec.toNat (rec1.getD 1 0)) 7 0 ∧ bitsOf (BitVec.toNat (rec1.getD 1 0)) 7 0 < p.ncol - dvf.rd F.CTL_DOVE_DL + dvf.rd F.CTL_DOVE_DL ∧ 0 = bitsOf (BitVec.toNat (rec1.getD 1 0)) 7 0 - (p.ncol - dvf.rd F.CTL_DOVE_DL)) ∨ (H true true 1).side = ChainSide.down ∧ bitsOf (BitVec.toNat (rec1.getD 1 0)) 7 0 < dvf.rd F.CTL_DOVE_DR ∧ 0 = 256 - dvf.rd F.CTL_DOVE_DR + bitsOf (BitVec.toNat (rec1.getD 1 0)) 7 0) ∧
    dvf.fso.frameOpen = true ∧ bitsOf (BitVec.toNat (rec1.getD 1 0)) 19 8 < dvf.nlines ∧ (dvf.stream 3).find SlotSt.asm = some 2 ∧
    (∀ m < 4, m ≠ 3 → (dvf.stream m).find SlotSt.asm = none) ∧
    inWindow ((dvf.stream 3).slot 2).defn (bitsOf (BitVec.toNat (rec1.getD 1 0)) 19 8) 0 = true := by
  and_intros <;> decide

end C13

namespace C14
def eth2 := eth.modLnk fun l => { l with arp := [(7,5,1),(7,6,2),(3,5,9)], arpReqs := [⟨7, 5, 0, 0⟩, ⟨7, 4, 0, 0⟩, ⟨6, 5, 0, 0⟩] }
def req (n : Nat) (s : State) := s.modLnk fun l => { l with arpReqs := [⟨7, 5, n, 0⟩] }
def ebest (f : Ptp → Ptp) := eth.modLnk fun l => { l with ptp := f { l.ptp with best := some [3,4] } }
def w1 : State := ebest fun p => { p with ms := some 7 }
def w2 : State := ebest fun p => { p with delay := some 8 }
def w3 : State := (ebest fun p => { p with delay := some 8, first := [1,2,3] }).setDev .boot
def w4 : State := ebest fun p => { p with delay := some 8, first := [1,2,3,4] }
def zf (f : Mem → Mem) := (put run [(F.MEM_STATUS_ZFILL, 1), (F.MEM_STATUS_TRAINED, 1), (F.MEM_SPASS_SPASS, 1), (F.MEM_RECAL_RECAL, 1), (F.MEM_PASS_A_COUNT, 4)]).modMem f
def w5 : State := zf fun m => { m with passA := some 5 }
def w6 : State := zf fun m => { m with passB := some 2000000000, passA := some 7 }
def w7 : State := zf fun m => { m with passB := some 2000000000, passA := some 7, passCe := [(3,4),(23,4)], mark2 := [4,24] }
def rnd (l : List Nat) : State := put (run.modHk fun h => { h with rounds := true, todo := l }) [(F.CTL_HK_CFG_PERIOD, 1)]

theorem hyp_NetworkMessagesAreAnswered :
    eth.ethUp 7 = true ∧ (eth.ethUp 7 = false ∨ eth.laneIp 7 + 1 ≠ eth.laneIp 7) ∧ run.ethUp 7 = false ∧ eth2.ethUp 7 = true ∧
    (req 1 eth).lnk.arpReqs = [{ lane := 7, ip := 5, tries := 1, at0 := 0 }] ∧ ((req 1 eth).begin 9).clk < 0 + 100000000 ∧
    0 + 100000000 ≤ ((req 1 eth).begin 100000000).clk ∧ (req 1 eth).ethUp 7 = true ∧
    (req 3 eth).lnk.arpReqs = [{ lane := 7, ip := 5, tries := 3, at0 := 0 }] ∧ 0 + 100000000 ≤ ((req 3 eth).begin 100000000).clk ∧
    (3 ≤ 3 ∨ (req 3 eth).ethUp 7 = false) ∧ (run.ethUp 7 = false ∨ 1472 < [1, 2].length) ∧
    (¬(eth.ethUp 7 = true ∧ eth.isHead = true ∧ eth.flag F.LNK_CFG_PTPEN = true ∧ 7 = eth.rd F.LNK_CFG_PTPLANE ∧ 1 = eth.rd F.LNK_CFG_PTPDOM)) ∧
    eth.ethUp 7 = true ∧ eth.isHead = true ∧ eth.flag F.LNK_CFG_PTPEN = true ∧ 7 = eth.rd F.LNK_CFG_PTPLANE ∧ 0 = eth.rd F.LNK_CFG_PTPDOM ∧
    eth.lnk.ptp.best = none ∧
    (ebest id).ethUp 7 = true ∧ (ebest id).isHead = true ∧ (ebest id).flag F.LNK_CFG_PTPEN = true ∧ 7 = (ebest id).rd F.LNK_CFG_PTPLANE ∧ 0 = (ebest id).rd F.LNK_CFG_PTPDOM ∧
    (ebest id).lnk.ptp.best = some ([3] ++ [4]) ∧ (ebest id).lnk.ptp.ms = none ∧
    w1.ethUp 7 = true ∧ w1.isHead = true ∧ w1.flag F.LNK_CFG_PTPEN = true ∧ 7 = w1.rd F.LNK_CFG_PTPLANE ∧ 0 = w1.rd F.LNK_CFG_PTPDOM ∧
    w1.lnk.ptp.ms = some 7 ∧ (ebest id).lnk.ptp.best.isSome = true ∧ (ebest id).lnk.ptp.delay = none ∧
    w2.ethUp 7 = true ∧ w2.isHead = true ∧ w2.flag F.LNK_CFG_PTPEN = true ∧ 7 = w2.rd F.LNK_CFG_PTPLANE ∧ 0 = w2.rd F.LNK_CFG_PTPDOM ∧
    w2.lnk.ptp.best.isSome = true ∧ w2.lnk.ptp.delay = some 8 ∧ w2.lnk.ptp.first.length < 3 ∧
    w3.ethUp 7 = true ∧ w3.isHead = true ∧ w3.flag F.LNK_CFG_PTPEN = true ∧ 7 = w3.rd F.LNK_CFG_PTPLANE ∧ 0 = w3.rd F.LNK_CFG_PTPDOM ∧
    w3.lnk.ptp.best.isSome = true ∧ w3.lnk.ptp.delay = some 8 ∧ w3.lnk.ptp.first.length = 3 ∧ w3.ready = false ∧
    w4.ethUp 7 = true ∧ w4.isHead = true ∧ w4.flag F.LNK_CFG_PTPEN = true ∧ 7 = w4.rd F.LNK_CFG_PTPLANE ∧ 0 = w4.rd F.LNK_CFG_PTPDOM ∧
    w4.lnk.ptp.best.isSome = true ∧ w4.lnk.ptp.delay = some 8 ∧ 4 ≤ w4.lnk.ptp.first.length := by
  and_intros <;> decide

theorem hyp_MemoryIsScrubbedRefreshedAndRecalibrated :
    (w5.flag F.MEM_STATUS_ZFILL = false ∨ ¬(w5.boot.readyAt = some (w5.begin 9).clk ∨ (w5.begin 9).now % (1000000000 * w5.rd F.MEM_SPASS_SPASS) = 0)) ∧
    w6.flag F.MEM_STATUS_ZFILL = true ∧
    (w6.boot.readyAt = some (w6.begin 1000000000).clk ∨ (w6.begin 1000000000).now % (1000000000 * w6.rd F.MEM_SPASS_SPASS) = 0) ∧
    ((if Option.any (fun (e : ℕ) => decide (e ≤ (w6.begin 1000000000).clk)) (if true = true then w6.mem.passB else w6.mem.passA) = true then none else if true = true then w6.mem.passB else w6.mem.passA).isSome = true) ∧
    w7.flag F.MEM_STATUS_ZFILL = true ∧
    (w7.boot.readyAt = some (w7.begin 1000000000).clk ∨ (w7.begin 1000000000).now % (1000000000 * w7.rd F.MEM_SPASS_SPASS) = 0) ∧
    ((if Option.any (fun (e : ℕ) => decide (e ≤ (w7.begin 1000000000).clk)) (if false = true then w7.mem.passB else w7.mem.passA) = true then none else if false = true then w7.mem.passB else w7.mem.passA).isSome = false) ∧
    run.flag F.MEM_STATUS_TRAINED = false ∧ (zf id).flag F.MEM_STATUS_TRAINED = true ∧ (false = false ∨ (zf id).mem.hot = true) ∧
    (zf id).mem.hot = false ∧
    ((zf id).flag F.MEM_STATUS_TRAINED = false ∨ (zf id).mem.selfRef = true ∨ ((zf id).begin 1000000).clk % (1000000 * (zf id).rd F.MEM_RECAL_RECAL) ≠ if true = true then 1000000 * (zf id).rd F.MEM_RECAL_RECAL / 2 else 0) ∧
    (zf id).mem.selfRef = false ∧
    (((zf id).begin 1000000).clk % (1000000 * (zf id).rd F.MEM_RECAL_RECAL) = if false = true then 1000000 * (zf id).rd F.MEM_RECAL_RECAL / 2 else 0) ∧
    (((zf id).begin 500000).clk % (1000000 * (zf id).rd F.MEM_RECAL_RECAL) = if true = true then 1000000 * (zf id).rd F.MEM_RECAL_RECAL / 2 else 0) := by
  and_intros <;> decide

theorem hyp_HousekeepingRoundsLatchAndJudge :
    (¬((rnd []).hk.rounds = true ∧ ((rnd []).begin 9).now % (1000 * max 1 ((rnd []).rd F.CTL_HK_CFG_PERIOD)) = 0)) ∧
    (rnd []).hk.rounds = true ∧ ((rnd []).begin 1000).now % (1000 * max 1 ((rnd []).rd F.CTL_HK_CFG_PERIOD)) = 0 ∧
    (rnd [3]).hk.todo = [3] ∧ 3 ≠ 4 ∧ (rnd [3, 5]).hk.todo = [3, 5] ∧
    (((rnd [3, 5]).hk.convAt + if (rnd [3, 5]).hk.lp = true then 4000 else 1000) ≤ ((rnd [3, 5]).begin 1000).clk) ∧
    (rnd [18, 5]).hk.todo = [18, 5] ∧
    (((rnd [18, 5]).hk.convAt + if (rnd [18, 5]).hk.lp = true then 4000 else 1000) ≤ ((rnd [18, 5]).begin 1000).clk) ∧
    (rnd [1, 5]).hk.todo = [1, 5] ∧
    (((rnd [1, 5]).hk.convAt + if (rnd [1, 5]).hk.lp = true then 4000 else 1000) ≤ ((rnd [1, 5]).begin 1000).clk) ∧
    2000 ≤ (rnd [1, 5]).corrOf 3000 ∧ (rnd [1, 5]).corrOf 3000 ≤ 4079 ∧ ((rnd [1, 5]).corrOf 100 < 2000 ∨ 4079 < (rnd [1, 5]).corrOf 100) ∧
    (rnd [18]).hk.todo = [18] ∧ (((rnd [18]).hk.convAt + if (rnd [18]).hk.lp = true then 4000 else 1000) ≤ ((rnd [18]).begin 1000).clk) ∧
    (rnd [18]).hk.firstRound = false ∧ (List.replicate 12 400).length = 12 ∧
    ((rnd [18]).hk.firstRound = true ∨ (List.replicate 11 400).length ≠ 12) := by
  and_intros <;> decide

end C14

namespace C15
def th := (run.setDev .thermal).modHk fun h => { h with coolAt := some 3 }
def dirty := ((put (busy (.attest [] 0)) [(F.CTL_PROF_ARG_CODE, 4), (F.EDU_ROW_EN_EN, 255)]).modEdu fun e => { e with started := true }).modSaf fun v => { v with st := .clear, ossdA := true, ossdB := true, zones := [(0, zone0)], loaded := true, retained := none }
def dirty2 := dirty.modBoot fun b => { b with fused := some 7, otp := [(true,true),(false,false)], calDone := true }
def bt (f : Boot → Boot) := boot.modBoot f
def fl : Sfdp := { (default : Sfdp) with valid := true, readOk := true, density := 2^25, pageSize := 256, modes := [(1,100),(3,200),(7,50)] }
def w1 : State := bt fun b => { b with refDone := true }
def bf := flashed
def v2 : Image := { img0 with fmtMaj := 9 }
def v3 : Image := { img0 with vsigOk := false }
def v4 : Image := { img0 with isigOk := false }
def v5 : Image := { img0 with sections := [{(default : SecEntry) with typ := 1, olen := 1, digest := 5}] }
def v6 : Image := { img0 with sections := [] }
def bfn := bf.modBoot fun b => { b with otp := [(true,false),(true,false)] }
def imf : Image := { img0 with fuse := true, safDigA := true, safDigB := true, ikeyHash := 77 }
def bv := bt fun b => { b with refDone := true, flashDone := true, verifyDone := true }
def elm (k : CalKind) : CalElem := ⟨k, 0, []⟩
def bm (f : Boot → Boot) := (bv.modBoot f)
def ns := { spd with devices := 9 }
def bigF := bv.modFso fun f => { f with frm := [(0, 2 ^ 40)] }
def spass := put bv [(F.MEM_SPASS_SPASS, 1)]
def v7 : Spd := { spd with trainOk := false }
def btb := (bm fun b => { b with memDone := true }).modSeq fun q => { q with bootLib := [(0, { (default : Page) with fmtMaj := 2 }), (3, default)], startB := 3 }
def bsd := put (bm fun b => { b with calDone := true, tblDone := true }) [(F.EDU_DITH_SEED_SEED, 5), (F.CTL_SEQ_LC_LC 1, 4)]
def bse := bsd.modRpe fun r => { r with seeding := true }
def rn := put run [(F.CTL_SHM_SEL_KIND, 0), (F.CTL_CERT_ADDR_ADDR, 2046)]

theorem hyp_ResetsAndThermalShutdown :
    th.dev = DevState.thermal ∧ dirty2.dev ≠ DevState.thermal ∧ State.reset.dev ≠ DevState.thermal ∧ dirty2.dev ≠ DevState.reset ∧
    (th.dev = DevState.reset ∨ th.dev = DevState.thermal ∨ th.boot.failed = true) ∧ dirty2.boot.failed = false ∧ th.hk.coolAt = some 3 ∧
    3 + 1000000000 ≤ (th.begin 1000000003).clk ∧ (th.begin 1000000002).clk < 3 + 1000000000 ∧ run.dev ≠ DevState.thermal ∧
    (run.dev ≠ DevState.reset ∨ (run.begin 9).clk < run.goodAt + 2000000) ∧ State.reset.dev = DevState.reset ∧
    State.reset.goodAt + 2000000 ≤ (State.reset.begin 2000000).clk ∧ (run.dev = DevState.reset ∨ run.dev = DevState.thermal ∨ 12 ≤ 12) := by
  and_intros <;> decide

theorem hyp_BootVerifiesAndCalibrates :
    (run.dev ≠ DevState.boot ∨ run.boot.failed = true) ∧ boot.dev = DevState.boot ∧ boot.boot.failed = false ∧
    (boot.boot.refDone = false ∨ boot.boot.flashDone = true) ∧ w1.dev = DevState.boot ∧ w1.boot.failed = false ∧ w1.boot.refDone = true ∧
    w1.boot.flashDone = false ∧ (false = false ∨ fl.readOk = false) ∧ fl.valid = true ∧ fl.readOk = true ∧
    (w1.boot.flashDone = false ∨ w1.boot.verifyDone = true) ∧ bf.dev = DevState.boot ∧ bf.boot.failed = false ∧ bf.boot.flashDone = true ∧
    bf.boot.verifyDone = false ∧ v2.versionOk = false ∧ v3.versionOk = true ∧ v3.vsigOk = false ∧ v4.versionOk = true ∧ v4.vsigOk = true ∧
    v4.isigOk = false ∧ v5.versionOk = true ∧ v5.vsigOk = true ∧ v5.isigOk = true ∧ bf.keyOk v5 = true ∧ v6.versionOk = true ∧
    v6.vsigOk = true ∧ v6.isigOk = true ∧ bf.keyOk v6 = true ∧ img0.versionOk = true ∧ img0.vsigOk = true ∧ img0.isigOk = true ∧
    bf.keyOk img0 = true ∧ img0.structOk = true ∧ bfn.dev = DevState.boot ∧ bfn.boot.failed = false ∧ bfn.boot.flashDone = true ∧
    bfn.boot.verifyDone = false ∧ bfn.keyOk img0 = false ∧ imf.versionOk = true ∧ imf.vsigOk = true ∧ imf.isigOk = true ∧
    bf.keyOk imf = true ∧ imf.structOk = true ∧ (bf.boot.verifyDone = false ∨ bf.boot.calDone = true ∨ bf.stu.startAt.isSome = true) ∧
    bv.dev = DevState.boot ∧ bv.boot.failed = false ∧ bv.boot.verifyDone = true ∧ bv.boot.calDone = false ∧ bv.stu.startAt = none ∧
    ((elm CalKind.mirror).kind, 13) ∈ [(CalKind.pllBand, 11), (CalKind.adc, 12), (CalKind.mirror, 13)] ∧ bv.boot.shimOk = false ∧
    ((bv.begin 9).measured (elm CalKind.mirror)).run bv.resonant [] none = CalEnd.failed false := by
  and_intros <;> decide

theorem hyp_BootTrainsSeedsAndRisesReady :
    (run.dev ≠ DevState.boot ∨ run.boot.failed = true) ∧ boot.dev = DevState.boot ∧ boot.boot.failed = false ∧
    (boot.boot.verifyDone = false ∨ boot.boot.memDone = true) ∧ bv.dev = DevState.boot ∧ bv.boot.failed = false ∧
    bv.boot.verifyDone = true ∧ bv.boot.memDone = false ∧ ns.devices ≠ 10 ∧ bigF.dev = DevState.boot ∧ bigF.boot.failed = false ∧
    bigF.boot.verifyDone = true ∧ bigF.boot.memDone = false ∧
    spd.rdimm = true ∧ spd.x4 = true ∧ spd.devices = 10 ∧ spd.stacked = false ∧ spd.dimms = 1 ∧ (spd.ranks, spd.dens) ∈ [(1, 0), (1, 1), (2, 0), (1, 2), (2, 1)] ∧
    0 ≤ 6 ∧ 0 ≤ bigF.rd F.MEM_CFG_RATEMAX ∧ 3200 + 400 * 0 ∈ spd.rates ∧ spd.rates = [3200] ∧
    ((((bigF.begin 9).wr F.MEM_STATUS_RANKS spd.ranks).wr F.MEM_STATUS_DENS spd.dens).wr F.MEM_STATUS_RATE 0).partsFit = false ∧
    spass.dev = DevState.boot ∧ spass.boot.failed = false ∧ spass.boot.verifyDone = true ∧ spass.boot.memDone = false ∧
    0 ≤ 6 ∧ 0 ≤ spass.rd F.MEM_CFG_RATEMAX ∧ 3200 + 400 * 0 ∈ spd.rates ∧
    ((((spass.begin 9).wr F.MEM_STATUS_RANKS spd.ranks).wr F.MEM_STATUS_DENS spd.dens).wr F.MEM_STATUS_RATE 0).partsFit = true ∧
    ((((spass.begin 9).wr F.MEM_STATUS_RANKS spd.ranks).wr F.MEM_STATUS_DENS spd.dens).wr F.MEM_STATUS_RATE 0).scrubFits 0 = false ∧
    0 ≤ 6 ∧ 0 ≤ bv.rd F.MEM_CFG_RATEMAX ∧ 3200 + 400 * 0 ∈ spd.rates ∧
    ((((bv.begin 9).wr F.MEM_STATUS_RANKS spd.ranks).wr F.MEM_STATUS_DENS spd.dens).wr F.MEM_STATUS_RATE 0).partsFit = true ∧
    ((((bv.begin 9).wr F.MEM_STATUS_RANKS spd.ranks).wr F.MEM_STATUS_DENS spd.dens).wr F.MEM_STATUS_RATE 0).scrubFits 0 = true ∧
    spd.trainOk = true ∧
    v7.rdimm = true ∧ v7.x4 = true ∧ v7.devices = 10 ∧ v7.stacked = false ∧ v7.dimms = 1 ∧ (v7.ranks, v7.dens) ∈ [(1, 0), (1, 1), (2, 0), (1, 2), (2, 1)] ∧
    0 ≤ 6 ∧ 0 ≤ bv.rd F.MEM_CFG_RATEMAX ∧ 3200 + 400 * 0 ∈ v7.rates ∧
    ((((bv.begin 9).wr F.MEM_STATUS_RANKS v7.ranks).wr F.MEM_STATUS_DENS v7.dens).wr F.MEM_STATUS_RATE 0).partsFit = true ∧
    ((((bv.begin 9).wr F.MEM_STATUS_RANKS v7.ranks).wr F.MEM_STATUS_DENS v7.dens).wr F.MEM_STATUS_RATE 0).scrubFits 0 = true ∧
    v7.trainOk = false ∧ (bv.boot.memDone = false ∨ bv.boot.tblDone = true) ∧ btb.dev = DevState.boot ∧ btb.boot.failed = false ∧
    btb.boot.memDone = true ∧ btb.boot.tblDone = false ∧ (btb.boot.calDone = false ∨ btb.boot.tblDone = false ∨ btb.rpe.seeding = true) ∧
    bsd.dev = DevState.boot ∧ bsd.boot.failed = false ∧ bsd.boot.calDone = true ∧ bsd.boot.tblDone = true ∧ bsd.rpe.seeding = false ∧
    (bsd.rpe.seeding = false ∨ bsd.seeded = false ∧ (bsd.begin 9).clk < bsd.boot.seedAt + 50000000) ∧ bse.dev = DevState.boot ∧
    bse.boot.failed = false ∧ bse.rpe.seeding = true ∧ (bse.seeded = true ∨ bse.boot.seedAt + 50000000 ≤ (bse.begin 50000000).clk) := by
  and_intros <;> decide

theorem hyp_ShimAndCertificateWindows :
    opened rn = true ∧
    (rn.rd F.CTL_SHM_SEL_KIND = 4 ∨ rn.rd F.CTL_SHM_SEL_KIND = 5 ∨ rn.rd F.CTL_SHM_SEL_KIND = 9 ∨ (shimLen (rn.rd F.CTL_SHM_SEL_KIND) (rn.rd F.CTL_SHM_SEL_INDEX)).getD 0 ≤ 200) ∧
    rn.rd F.CTL_SHM_SEL_KIND ≠ 4 ∧ rn.rd F.CTL_SHM_SEL_KIND ≠ 5 ∧ rn.rd F.CTL_SHM_SEL_KIND ≠ 9 ∧
    3 < (shimLen (rn.rd F.CTL_SHM_SEL_KIND) (rn.rd F.CTL_SHM_SEL_INDEX)).getD 0 := by
  and_intros <;> decide

end C15

/-- The images of the clauses of BOOT_VERIFY: one whose first section fails its digest, one without sections, and two that boot takes. -/
theorem hyp_images : C15.v5.secVerdict = some 6 ∧ C15.v6.secVerdict = none ∧ img0.secVerdict = none ∧ C15.imf.secVerdict = none ∧
    ((C15.bf.begin 9).loadImage img0).contentOk img0 = true ∧ ((C15.bf.begin 9).loadImage C15.imf).contentOk C15.imf = true :=
  ⟨by decide +kernel, by decide +kernel, img_sections, img_sections, img_content, img_content⟩

end Sys2Proof.Tests
end

/-! The form of every state (`State.Inv`), kept by every command: the management port by one law for each kind of frame, every
other command by a law of its own, which splits at the conditions of the command and rests on the laws of the operations. -/

namespace Sys2Proof.Machine

/-! ### Outcomes -/

/-- Every next state that an outcome answers has the form of every state. -/
def AnswersInv (o : Host.Outcome State Fault Refusal) : Prop := ∀ t, o = .next t → t.Inv

@[simp] theorem answersInv_next (t : State) : AnswersInv (.next t) ↔ t.Inv :=
  ⟨fun h => h t rfl, fun h _ e => Host.Outcome.next.inj e ▸ h⟩

@[simp] theorem answersInv_ite (c : Prop) [Decidable c] (a b : Host.Outcome State Fault Refusal) :
    AnswersInv (if c then a else b) ↔ if c then AnswersInv a else AnswersInv b := by
  split <;> rfl

/-- The state that an operation answers beside a value, once the pair is named. -/
theorem inv_of_pair {α : Type} {p : α × State} {a : α} {u : State} (hp : p.2.Inv) (e : p = (a, u)) : u.Inv := by
  rw [e] at hp
  exact hp

/-- Opening contexts of streams keeps the form. -/
theorem State.openCtxs_inv {s u : State} {l : List Nat} (h : s.Inv) (e : s.openCtxs l = some u) : u.Inv := by
  induction l generalizing s with
  | nil => exact Option.some.inj e ▸ h
  | cons n l ih =>
    unfold State.openCtxs at e
    split at e
    · exact ih h e
    · split at e
      · cases e
      next v hv =>
        refine ih ?_ e
        unfold State.openCtx at hv
        split at hv
        · cases hv
        · cases hv
          exact (State.setCtx_inv _ _ _).2 h

@[simp] theorem State.openCtxs_getD_inv (s : State) (l : List Nat) (h : s.Inv) : ((s.openCtxs l).getD s).Inv := by
  cases e : s.openCtxs l with
  | none => exact h
  | some u => exact State.openCtxs_inv h e

/-! ### Frames of the management port -/

theorem State.gate_inv (s : State) (exempt : Bool) (judge : State → Verdict) (h : s.Inv) (hj : (judge s).next.Inv) :
    (s.gate exempt judge).next.Inv := by
  unfold State.gate
  split
  · exact h
  split
  · exact h
  · exact hj

theorem State.frame_inv (s : State) (t : Nat) (addr : Addr) (judge : State → Verdict) (h : s.Inv)
    (hj : (judge (s.begin t)).next.Inv) : AnswersInv (s.frame t addr judge) := by
  dsimp only [State.frame]
  split
  · exact (answersInv_next _).2 ((State.begin_inv s t).2 h)
  · exact (answersInv_next _).2 (State.modMgmt_inv _ _ hj (fun _ => rfl) (fun _ => rfl))

theorem State.judgeRead_inv (s : State) (a : Nat) (hits : List MemHit) (h : s.Inv) : (s.judgeRead a hits).next.Inv := by
  refine State.gate_inv s _ _ h ?_
  split
  · exact h
  · exact State.readReg_inv s a _ hits h

theorem State.judgeWrite_inv (s : State) (a : Nat) (w : Word) (h : s.Inv) : (s.judgeWrite a w).next.Inv := by
  refine State.gate_inv s _ _ h ?_
  split
  · exact h
  split
  · exact h
  · exact State.writeReg_inv s a w h

theorem State.judgeExec_inv (s : State) (code : Nat) (start : State → Status × State) (h : s.Inv) (hs : (start s).2.Inv) :
    (s.judgeExec code start).next.Inv := by
  refine State.gate_inv s _ _ h ?_
  split
  · exact h
  · exact hs

section
variable {s : State} (t : Nat) (h : s.Inv)
include h

theorem State.hostRead_inv (a : Nat) (hits : List MemHit) : AnswersInv (s.hostRead t a hits) :=
  State.frame_inv s t _ _ h (State.judgeRead_inv _ a hits ((State.begin_inv s t).2 h))

theorem State.hostWrite_inv (a : Nat) (w : Word) : AnswersInv (s.hostWrite t a w) :=
  State.frame_inv s t _ _ h (State.judgeWrite_inv _ a w ((State.begin_inv s t).2 h))

theorem State.hostWriteAt_inv (ok : Bool) (a : Nat) (w : Word) : AnswersInv (s.hostWriteAt t ok a w) := by
  unfold State.hostWriteAt
  split
  · exact State.hostWrite_inv t h a w
  · exact (answersInv_next _).2 ((State.begin_inv s t).2 h)

theorem State.hostExec_inv (code : Nat) (start : State → Status × State) (hs : ∀ u : State, u.Inv → (start u).2.Inv) :
    AnswersInv (s.hostExec t code start) :=
  have hb := (State.begin_inv s t).2 h
  State.frame_inv s t _ _ h (State.judgeExec_inv _ code start hb (hs _ hb))

theorem execNop_inv (kind : FrameKind) (addr : Addr) : AnswersInv (execNop t kind addr s) :=
  have hb := (State.begin_inv s t).2 h
  State.frame_inv s t _ _ h (State.gate_inv _ _ _ hb hb)

/-! ### Messages that a lane brings -/

theorem inv_of_rxChain {hdr : ChainHdr} {ok : Bool} {u : State} (e : (s.begin t).rxChain hdr = (ok, u)) : u.Inv :=
  inv_of_pair (State.rxChain_inv _ _ ((State.begin_inv s t).2 h)) e

theorem inv_of_rxDlp {lane typ : Nat} {src : EthSrc} {msg : List Word} {r : Option (Nat × Dlp)} {u : State}
    (e : (s.begin t).rxDlp lane src typ msg = (r, u)) : u.Inv :=
  inv_of_pair (State.rxDlp_inv _ _ _ _ _ ((State.begin_inv s t).2 h)) e

/-! ### The capture engine -/

@[simp] theorem execTrigger_inv : AnswersInv (execTrigger t s) := by
  dsimp only [execTrigger]
  split <;> simp [h]

@[simp] theorem execCaptureRecord_inv : AnswersInv (execCaptureRecord t s) := by
  dsimp only [execCaptureRecord]
  (repeat' split) <;> simp [h]

@[simp] theorem execPosttExpiry_inv : AnswersInv (execPosttExpiry t s) := by
  dsimp only [execPosttExpiry]
  split <;> simp [h]

@[simp] theorem execAvgIntervalEnd_inv : AnswersInv (execAvgIntervalEnd t s) := by
  dsimp only [execAvgIntervalEnd]
  (repeat' split) <;> simp [h]

/-! ### Memory -/

@[simp] theorem execScrubNowDone_inv (hits : List MemHit) : AnswersInv (execScrubNowDone t hits s) := by
  dsimp only [execScrubNowDone]
  split <;> simp [h]

/-! ### Histograms -/

@[simp] theorem execBinning_inv (port : Nat) : AnswersInv (execBinning t port s) := by
  dsimp only [execBinning]
  (repeat' split) <;> simp (maxDischargeDepth := 100) [h]

/-! ### The safety subsystem -/

@[simp] theorem execZoneSetSwitch_inv (c : SafCh) : AnswersInv (execZoneSetSwitch t c s) := by
  dsimp only [execZoneSetSwitch]
  split <;> simp [h]

@[simp] theorem execTbridgeExpiry_inv (key : Nat) : AnswersInv (execTbridgeExpiry t key s) := by
  dsimp only [execTbridgeExpiry]
  split <;> simp [h]

@[simp] theorem execFreshnessExpiry_inv (c : SafCh) (cell : Nat) : AnswersInv (execFreshnessExpiry t c cell s) := by
  dsimp only [execFreshnessExpiry]
  split <;> simp [h]

@[simp] theorem execChannelBWindowEnd_inv (row : Nat) : AnswersInv (execChannelBWindowEnd t row s) := by
  dsimp only [execChannelBWindowEnd]
  (repeat' split) <;> simp [h]

@[simp] theorem execChannelAEvaluation_inv : AnswersInv (execChannelAEvaluation t s) := by
  dsimp only [execChannelAEvaluation]
  (repeat' split) <;> simp [h]

@[simp] theorem execTrackingInterval_inv (c : SafCh) : AnswersInv (execTrackingInterval t c s) := by
  dsimp only [execTrackingInterval]
  (repeat' split) <;> simp (maxDischargeDepth := 100) [h]

@[simp] theorem execSafeReset_inv : AnswersInv (execSafeReset t s) := by
  dsimp only [execSafeReset]
  split <;> simp [h]

@[simp] theorem execOssdTest_inv (outB rbLow rbHigh otherFell : Bool) :
    AnswersInv (execOssdTest t outB rbLow rbHigh otherFell s) := by
  dsimp only [execOssdTest]
  split <;> simp [h]

@[simp] theorem execDeviceTelegram_inv : AnswersInv (execDeviceTelegram t s) := by
  dsimp only [execDeviceTelegram]
  (repeat' split) <;> simp [h]

@[simp] theorem execPressTelegram_inv (path : Nat) (words : List Word) (line : List LineChar) :
    AnswersInv (execPressTelegram t path words line s) := by
  dsimp only [execPressTelegram]
  (repeat' split) <;> simp [h]

/-! ### The sequencer -/

@[simp] theorem execFire_inv : AnswersInv (execFire t s) := by
  dsimp only [execFire]
  split <;> simp (maxDischargeDepth := 100) [h]

@[simp] theorem execWait_inv : AnswersInv (execWait t s) := by
  dsimp only [execWait]
  split <;> simp [h]

@[simp] theorem execMark_inv : AnswersInv (execMark t s) := by
  dsimp only [execMark]
  split <;> simp (maxDischargeDepth := 100) [h]

@[simp] theorem execSync_inv : AnswersInv (execSync t s) := by
  dsimp only [execSync]
  split <;> simp [h]

@[simp] theorem execSyncEvent_inv : AnswersInv (execSyncEvent t s) := by
  dsimp only [execSyncEvent]
  (repeat' split) <;> simp [h]

@[simp] theorem execBranch_inv : AnswersInv (execBranch t s) := by
  dsimp only [execBranch]
  split <;> simp [h]

@[simp] theorem execPageImmediate_inv : AnswersInv (execPageImmediate t s) := by
  dsimp only [execPageImmediate]
  split <;> simp [h]

@[simp] theorem execPageIssue_inv : AnswersInv (execPageIssue t s) := by
  dsimp only [execPageIssue]
  split <;> simp [h]

@[simp] theorem execBattenExecute_inv : AnswersInv (execBattenExecute t s) := by
  dsimp only [execBattenExecute]
  split <;> simp [h]

@[simp] theorem execPageLoadDone_inv (a : MemAccess) : AnswersInv (execPageLoadDone a s) := by
  dsimp only [execPageLoadDone]
  split <;> simp (maxDischargeDepth := 100) [h]

@[simp] theorem execPageReload_inv (a : MemAccess) : AnswersInv (execPageReload a s) := by
  have hb : (s.begin a.t).Inv := (State.begin_inv s a.t).2 h
  dsimp only [execPageReload]
  split
  · exact (answersInv_next _).2 hb
  split
  next => exact (answersInv_next _).2 hb
  next e =>
    have hu := inv_of_pair (State.readTbl_inv _ _ _ hb) e
    simp [hu]
  next e =>
    have hu := inv_of_pair (State.readTbl_inv _ _ _ hb) e
    split <;> simp (maxDischargeDepth := 100) [hu]

/-! ### Windows -/

@[simp] theorem execListen_inv : AnswersInv (execListen t s) := by
  dsimp only [execListen]
  split <;> simp [h]

@[simp] theorem execCal_inv : AnswersInv (execCal t s) := by
  dsimp only [execCal]
  split <;> simp [h]

/-! ### Receivers and spares -/

@[simp] theorem execComparatorEdge_inv (unit : Nat) (lead : TdcCode) (trail hi : Option TdcCode) (bin : Option Int) :
    AnswersInv (execComparatorEdge t unit lead trail hi bin s) := by
  dsimp only [execComparatorEdge]
  (repeat' split) <;> simp (maxDischargeDepth := 100) [h]

@[simp] theorem execReceiverClose_inv (unit : Nat) : AnswersInv (execReceiverClose t unit s) := by
  dsimp only [execReceiverClose]
  (repeat' split) <;> simp (maxDischargeDepth := 100) [h]

@[simp] theorem execSpareSettled_inv (row : Nat) : AnswersInv (execSpareSettled t row s) := by
  dsimp only [execSpareSettled]
  split <;> simp [h]

@[simp] theorem execVerificationDone_inv (row : Nat) : AnswersInv (execVerificationDone t row s) := by
  dsimp only [execVerificationDone]
  split <;> simp (maxDischargeDepth := 100) [h]

/-! ### The emitter drive -/

@[simp] theorem execFireCommand_inv (checkDone : Bool) : AnswersInv (execFireCommand t checkDone s) := by
  dsimp only [execFireCommand]
  split <;> simp [h]

@[simp] theorem execStartEdge_inv (row : Nat) (code : PulseCode) (bin : Int) :
    AnswersInv (execStartEdge t row code bin s) := by
  dsimp only [execStartEdge]
  (repeat' split) <;> simp [h]

@[simp] theorem execStartDeadline_inv (row : Nat) : AnswersInv (execStartDeadline t row s) := by
  dsimp only [execStartDeadline]
  split <;> simp (maxDischargeDepth := 100) [h]

@[simp] theorem execMpdReading_inv (row : Nat) (m : BitVec 16) : AnswersInv (execMpdReading t row m s) := by
  dsimp only [execMpdReading]
  split <;> simp (maxDischargeDepth := 100) [h]

@[simp] theorem execStallMonitorTrip_inv (unit : StallUnit) : AnswersInv (execStallMonitorTrip t unit s) := by
  dsimp only [execStallMonitorTrip]
  (repeat' split) <;> simp (maxDischargeDepth := 100) [h]

/-! ### Echoes and history -/

@[simp] theorem execEchoExtraction_inv (hits : List MemHit) : AnswersInv (execEchoExtraction t hits s) := by
  dsimp only [execEchoExtraction]
  split <;> simp (maxDischargeDepth := 100) [h]

@[simp] theorem execShotSet_inv : AnswersInv (execShotSet t s) := by
  dsimp only [execShotSet]
  split <;> simp [h]

@[simp] theorem execHistoryFrameEnd_inv : AnswersInv (execHistoryFrameEnd t s) := by
  dsimp only [execHistoryFrameEnd]
  split <;> simp [h]

/-! ### Ambient light and foreign emitters -/

@[simp] theorem execAmbientSample_inv : AnswersInv (execAmbientSample t s) := by
  dsimp only [execAmbientSample]
  (repeat' split) <;> simp [h]

@[simp] theorem execGateEnd_inv (unit : Nat) : AnswersInv (execGateEnd t unit s) := by
  dsimp only [execGateEnd]
  (repeat' split) <;> simp [h]

/-! ### The mirror loop -/

@[simp] theorem execCicOutput_inv (ch : SenseCh) : AnswersInv (execCicOutput t ch s) := by
  dsimp only [execCicOutput]
  split <;> simp [h]

@[simp] theorem execTurningPointEvent_inv (ch : SenseCh) : AnswersInv (execTurningPointEvent t ch s) := by
  dsimp only [execTurningPointEvent]
  split <;> simp [h]

@[simp] theorem execKick_inv : AnswersInv (execKick t s) := by
  dsimp only [execKick]
  split <;> simp [h]

/-! ### Compression -/

@[simp] theorem execContextSwap_inv (ctx : Nat) (hits : List MemHit) : AnswersInv (execContextSwap t ctx hits s) := by
  dsimp only [execContextSwap]
  (repeat' split) <;> simp [h]

@[simp] theorem execExportEnd_inv (hits : List MemHit) : AnswersInv (execExportEnd t hits s) := by
  dsimp only [execExportEnd]
  split <;> simp (maxDischargeDepth := 100) [h]

/-! ### Partners -/

@[simp] theorem execHello_inv (lane : Nat) (src : EthSrc) (msg : List Word) : AnswersInv (execHello t lane src msg s) := by
  dsimp only [execHello]
  (repeat' split) <;> simp [h]

@[simp] theorem execSelect_inv (lane : Nat) (src : EthSrc) (msg : List Word) : AnswersInv (execSelect t lane src msg s) := by
  dsimp only [execSelect]
  split
  next e => exact (answersInv_next _).2 (inv_of_rxDlp t h e)
  next e =>
    have hu := inv_of_rxDlp t h e
    (repeat' split) <;> simp [hu]

@[simp] theorem execSub_inv (lane : Nat) (src : EthSrc) (msg : List Word) : AnswersInv (execSub t lane src msg s) := by
  dsimp only [execSub]
  split
  next e => exact (answersInv_next _).2 (inv_of_rxDlp t h e)
  next e =>
    have hu := inv_of_rxDlp t h e
    (repeat' split) <;> simp [hu]

@[simp] theorem execBye_inv (lane : Nat) (src : EthSrc) (msg : List Word) : AnswersInv (execBye t lane src msg s) := by
  dsimp only [execBye]
  split
  next e => exact (answersInv_next _).2 (inv_of_rxDlp t h e)
  next e =>
    have hu := inv_of_rxDlp t h e
    simp [hu]

/-! ### Frames and scan-out -/

@[simp] theorem execPointRecordPlace_inv : AnswersInv (execPointRecordPlace t s) := by
  dsimp only [execPointRecordPlace]
  split <;> simp [h]

@[simp] theorem execSof_inv : AnswersInv (execSof t s) := by
  dsimp only [execSof]
  split <;> simp [h]

@[simp] theorem execEof_inv : AnswersInv (execEof t s) := by
  dsimp only [execEof]
  split <;> simp [h]

@[simp] theorem execAccept_inv (lane : Nat) (src : EthSrc) (msg : List Word) : AnswersInv (execAccept t lane src msg s) := by
  dsimp only [execAccept]
  split
  next e => exact (answersInv_next _).2 (inv_of_rxDlp t h e)
  next e =>
    have hu := inv_of_rxDlp t h e
    split <;> simp [hu]

@[simp] theorem execAccwaitExpiry_inv (n : Nat) : AnswersInv (execAccwaitExpiry t n s) := by
  dsimp only [execAccwaitExpiry]
  split <;> simp [h]

@[simp] theorem execCommit_inv (lane : Nat) (src : EthSrc) (msg : List Word) : AnswersInv (execCommit t lane src msg s) := by
  dsimp only [execCommit]
  split
  next e => exact (answersInv_next _).2 (inv_of_rxDlp t h e)
  next e =>
    have hu := inv_of_rxDlp t h e
    split <;> simp [hu]

@[simp] theorem execLineFetch_inv (n : Nat) (resend : Bool) (hits : List MemHit) (late : Bool) :
    AnswersInv (execLineFetch t n resend hits late s) := by
  dsimp only [execLineFetch]
  (repeat' split) <;> simp [h]

/-! ### Lanes -/

@[simp] theorem execLaneStageAdvance_inv (lane : Nat) : AnswersInv (execLaneStageAdvance t lane s) := by
  dsimp only [execLaneStageAdvance]
  (repeat' split) <;> simp [h]

@[simp] theorem execLaneStageTimeout_inv (lane : Nat) : AnswersInv (execLaneStageTimeout t lane s) := by
  dsimp only [execLaneStageTimeout]
  split <;> simp [h]

@[simp] theorem execTrainingFrame_inv (lane : Nat) (frame : TrainFrame) : AnswersInv (execTrainingFrame t lane frame s) := by
  dsimp only [execTrainingFrame]
  (repeat' split) <;> simp [h]

/-! ### The timebase -/

@[simp] theorem execTsnap_inv : AnswersInv (execTsnap t s) := by
  dsimp only [execTsnap]
  split <;> simp [h]

@[simp] theorem execLockWindow_inv (pll : Pll) (count : Nat) (missing : Bool) (phase : Int) :
    AnswersInv (execLockWindow t pll count missing phase s) := by
  dsimp only [execLockWindow]
  (repeat' split) <;> simp [h]

@[simp] theorem execRetuneRelock_inv : AnswersInv (execRetuneRelock t s) := by
  dsimp only [execRetuneRelock]
  split <;> simp (maxDischargeDepth := 100) [h]

@[simp] theorem execRetuneTimeout_inv : AnswersInv (execRetuneTimeout t s) := by
  dsimp only [execRetuneTimeout]
  split <;> simp [h]

/-! ### The Flethes chain -/

@[simp] theorem execChainJoin_inv : AnswersInv (execChainJoin t s) := by
  dsimp only [execChainJoin]
  (repeat' split) <;> simp [h]

@[simp] theorem execParams_inv (hdr : ChainHdr) (p : ChainParams) : AnswersInv (execParams t hdr p s) := by
  dsimp only [execParams]
  split
  next e => exact (answersInv_next _).2 (inv_of_rxChain t h e)
  next e =>
    have hu := inv_of_rxChain t h e
    (repeat' split) <;> simp (maxDischargeDepth := 100) [hu]

@[simp] theorem execProbe_inv (hdr : ChainHdr) : AnswersInv (execProbe t hdr s) := by
  dsimp only [execProbe]
  split
  next e => exact (answersInv_next _).2 (inv_of_rxChain t h e)
  next e =>
    have hu := inv_of_rxChain t h e
    split <;> simp [hu]

@[simp] theorem execEcho_inv (hdr : ChainHdr) (hold rtt head : Nat) (ofs : Int) :
    AnswersInv (execEcho t hdr hold rtt head ofs s) := by
  dsimp only [execEcho]
  split
  next e => exact (answersInv_next _).2 (inv_of_rxChain t h e)
  next e =>
    have hu := inv_of_rxChain t h e
    (repeat' split) <;> simp (maxDischargeDepth := 100) [hu]

@[simp] theorem execTimeset_inv (hdr : ChainHdr) (tsnap : Nat) (delta : Int) (origin : Nat) :
    AnswersInv (execTimeset t hdr tsnap delta origin s) := by
  dsimp only [execTimeset]
  split
  next e => exact (answersInv_next _).2 (inv_of_rxChain t h e)
  next e =>
    have hu := inv_of_rxChain t h e
    (repeat' split) <;> simp (maxDischargeDepth := 100) [hu]

@[simp] theorem execBatten_inv (hdr : ChainHdr) (sync pg : Bool) (arg te : Nat) :
    AnswersInv (execBatten t hdr sync pg arg te s) := by
  dsimp only [execBatten]
  split
  next e => exact (answersInv_next _).2 (inv_of_rxChain t h e)
  next e =>
    have hu := inv_of_rxChain t h e
    split <;> simp [hu]

@[simp] theorem execTbedge_inv (hdr : ChainHdr) (line : Nat) (level : Bool) (stamp : Nat) (fine : BitVec 8) :
    AnswersInv (execTbedge t hdr line level stamp fine s) := by
  dsimp only [execTbedge]
  split
  next e => exact (answersInv_next _).2 (inv_of_rxChain t h e)
  next e =>
    have hu := inv_of_rxChain t h e
    split <;> simp [hu]

@[simp] theorem execTriggerBusEvent_inv (line : Nat) : AnswersInv (execTriggerBusEvent t line s) := by
  dsimp only [execTriggerBusEvent]
  split <;> simp [h]

@[simp] theorem execDove_inv (hdr : ChainHdr) (record : List Word) : AnswersInv (execDove t hdr record s) := by
  dsimp only [execDove]
  split
  next e => exact (answersInv_next _).2 (inv_of_rxChain t h e)
  next e =>
    have hu := inv_of_rxChain t h e
    (repeat' split) <;> simp [hu]

@[simp] theorem execTrigInEdge_inv (k : Nat) (rising : Bool) (p : BitVec 8) : AnswersInv (execTrigInEdge t k rising p s) := by
  dsimp only [execTrigInEdge]
  (repeat' split) <;> simp [h]

@[simp] theorem execFsyncInEdge_inv (rising : Bool) (p : BitVec 8) : AnswersInv (execFsyncInEdge t rising p s) := by
  dsimp only [execFsyncInEdge]
  split <;> simp [h]

/-! ### ARP, ICMP and PTP -/

@[simp] theorem execArpRequestTimeout_inv (lane : Nat) (ip : BitVec 32) : AnswersInv (execArpRequestTimeout t lane ip s) := by
  dsimp only [execArpRequestTimeout]
  split <;> simp [h]

@[simp] theorem execPtpAnnounce_inv (lane domain : Nat) (dataset : List Nat) :
    AnswersInv (execPtpAnnounce t lane domain dataset s) := by
  dsimp only [execPtpAnnounce]
  (repeat' split) <;> simp [h]

@[simp] theorem execPtpSync_inv (lane domain : Nat) (_twoStep : Bool) (master arrival : Nat) :
    AnswersInv (execPtpSync t lane domain _twoStep master arrival s) := by
  dsimp only [execPtpSync]
  (repeat' split) <;> simp [h]

@[simp] theorem execPtpDelayResp_inv (lane domain departure arrival : Nat) :
    AnswersInv (execPtpDelayResp t lane domain departure arrival s) := by
  dsimp only [execPtpDelayResp]
  split <;> simp [h]

/-! ### Reset -/

@[simp] theorem execMstartExpiry_inv : AnswersInv (execMstartExpiry t s) := by
  dsimp only [execMstartExpiry]
  split <;> simp [h]

/-! ### Verification -/

@[simp] theorem execBootVerify_inv (image : Image) : AnswersInv (execBootVerify t image s) := by
  dsimp only [execBootVerify]
  (repeat' split) <;> simp [h]

/-! ### Calibration -/

@[simp] theorem execBootCal_inv (elems : List CalElem) : AnswersInv (execBootCal t elems s) := by
  dsimp only [execBootCal]
  (repeat' split) <;> simp (maxDischargeDepth := 100) [h]

@[simp] theorem execRecalEofTimeout_inv : AnswersInv (execRecalEofTimeout t s) := by
  dsimp only [execRecalEofTimeout]
  split <;> simp [h]

@[simp] theorem execRecalRestart_inv (elems : List CalElem) : AnswersInv (execRecalRestart t elems s) := by
  dsimp only [execRecalRestart]
  split <;> simp (maxDischargeDepth := 100) [h]

/-! ### Boot -/

@[simp] theorem execBootMem_inv (spd : Spd) : AnswersInv (execBootMem t spd s) := by
  dsimp only [execBootMem]
  (repeat' split) <;> simp (maxDischargeDepth := 100) [h]

/-! ### Attestation and non-volatile memory -/

@[simp] theorem execNvmDone_inv (ending : NvmEnd) : AnswersInv (execNvmDone t ending s) := by
  dsimp only [execNvmDone]
  split <;> simp +contextual (maxDischargeDepth := 100) [h]

@[simp] theorem execAttestDone_inv : AnswersInv (execAttestDone t s) := by
  have hb : (s.begin t).Inv := (State.begin_inv s t).2 h
  dsimp only [execAttestDone]
  split
  · refine (answersInv_next _).2 (State.endOp_inv _ _ (State.setWord_inv _ _ _ (State.wrWide_inv _ _ _ _
      (State.wrWide_inv _ _ _ _ ?_))))
    exact (inv_of_parts rfl rfl).2 hb
  · exact (answersInv_next _).2 hb

/-! ### Housekeeping -/

@[simp] theorem execConversionEnd_inv (ch raw : Nat) : AnswersInv (execConversionEnd t ch raw s) := by
  dsimp only [execConversionEnd]
  split <;> simp (maxDischargeDepth := 100) [h]

@[simp] theorem execUrgentConversion_inv (raw : Nat) : AnswersInv (execUrgentConversion t raw s) := by
  dsimp only [execUrgentConversion]
  split <;> simp (maxDischargeDepth := 100) [h]

@[simp] theorem execProfileSwitch_inv : AnswersInv (execProfileSwitch t s) := by
  dsimp only [execProfileSwitch]
  split <;> simp [h]

@[simp] theorem execProfileEofTimeout_inv : AnswersInv (execProfileEofTimeout t s) := by
  dsimp only [execProfileEofTimeout]
  split <;> simp [h]

end

/-! ### All commands -/

/-- Every command keeps the form of every state. -/
theorem exec_inv (c : Instr) (s : State) (h : s.Inv) : AnswersInv (exec c s) := by
  cases c
  case nop => exact execNop_inv _ h _ _
  case read | evqRead | capRdata | fsoRdata | certDataRead => exact State.hostRead_inv _ h _ _
  case write | pageSwitchBatten | syncReleaseBatten | arm | disarm | force | capClear | capSetupGo | fsoPin | fsoRel | fsoResend |
      exportGo | exportAbort | airidxWrite | rpeEhistWrite | selWrite | gainWrite | driveStopClear | laserFaultClear |
      boostFaultClear | targetWrite | lnkTbusSet | lnkTbusClr => exact State.hostWrite_inv _ h _ _
  case capSeglock | fsoCommit | manualSubstitution | portDisable | portEnable | modeRequest | jigWrite | bitslip |
      shimWindowWrite => exact State.hostWriteAt_inv _ h _ _ _
  case profileSet => exact State.hostExec_inv _ h _ _ State.profileStart_inv
  case recal => exact State.hostExec_inv _ h _ _ State.recalStart_inv
  case pageLoad => exact State.hostExec_inv _ h _ _ State.pageLoadStart_inv
  case attest => exact State.hostExec_inv _ h _ _ State.attestStart_inv
  case nvmProgram => exact State.hostExec_inv _ h _ _ State.nvmStart_inv
  case tbuRetune => exact State.hostExec_inv _ h _ _ State.retuneStart_inv
  case scrubNow => exact State.hostExec_inv _ h _ _ State.scrubStart_inv
  -- What is left has a law above, or answers by conditional expressions alone.
  all_goals simp (maxDischargeDepth := 100) [h, exec, execRearm, execScrubPassStart, execThermalSensorRead,
    execPeriodicRecalibration, execDisc, execSafeInChange, execInputDisc, execTclrExpiry, execOssdFault, execEdmInputChange,
    execEdmFault, execHeartbeat, execLockstep, execPressTmo, execSyncTo, execBackgroundTable, execSkewUpdate,
    execChargePwmEvent, execHvOv, execBoostFault, execMovingDrop, execTrackerTick, execHitExpiry, execExcitationPeriodEnd,
    execTakeoverSettled, execStbyOpen, execKeepalive, execKeepaliveSend, execKeepaliveTimeout, execEol, execFrameStartEvent,
    execFacceptEdge, execLaneLoss, execSlewComplete, execPtpSourceLoss, execReferenceLoss, execProbeSend, execArpRequest,
    execArpReply, execIcmpEchoRequest, execResetN, execRailLoss, execWatchdog, execResetRelease, execThermalTrip,
    execThermalRelease, execBootFlash, execBootTbl, execBootSeed, execSeedingEnd, execRoundStart, execInterimConversion,
    execMalformedFrame]

/-- Settles O3: the rest of the queue is no part of the form, and every command keeps it. -/
theorem everyStepKeepsTheStatesForm : Obligations.EveryStepKeepsTheStatesForm := by
  intro s t h e
  unfold step at e
  split at e
  · exact Host.Outcome.next.inj e ▸ h
  next c rest _ => exact exec_inv c { s with pending := rest } ((inv_of_parts rfl rfl).2 h) t e

/-- Settles O4. -/
theorem resetLeavesTheDeviceInReset : Obligations.ResetLeavesTheDeviceInReset := by
  refine ⟨State.reset_inv, rfl, rfl, rfl, rfl, rfl, rfl, rfl, rfl, rfl, rfl, ?_, ?_, ?_⟩
  · decide
  · decide
  · exact fun _ => rfl

end Sys2Proof.Machine

/-! Frames of the management port (R517 to R521) while the port is open: the state that a frame answers, and the reads and writes
of registers that have no rule of their own. -/

namespace Sys2Proof.Machine

/-! ### What stays unchanged -/

theorem Only.modMgmt (s : State) (f : Mgmt → Mgmt) : Only [.mgmt] s (s.modMgmt f) :=
  ⟨by simp, by simp, fun p hp => by cases p <;> simp_all [Part.same]⟩

theorem Only.setWord (s : State) (a : Nat) (w : Word) : Only [.regs] s (s.setWord a w) :=
  ⟨rfl, rfl, fun p hp => by cases p <;> simp_all [Part.same, State.setWord]⟩

theorem Only.settlePass (s : State) : Only [.regs, .mem] s s.settlePass :=
  ⟨by simp, by simp, fun p hp => by cases p <;> simp_all [Part.same]⟩

theorem Only.lookAt (s : State) (a : Nat) : Only [.regs, .lnk, .free] s (s.lookAt a) :=
  ⟨by simp, by simp, fun p hp => by cases p <;> simp_all [Part.same]⟩

/-! ### The response to a frame -/

/-- A response is due with the next frame, and the one before it has been shifted out (R517). -/
def State.respond (s : State) (r due : Resp) : State := s.modMgmt fun x => { x with resp := r, shifted := some due }

@[simp] theorem State.respond_word (s : State) (r due : Resp) (a : Nat) : (s.respond r due).word a = s.word a := rfl

@[simp] theorem State.respond_mgmt (s : State) (r due : Resp) :
    (s.respond r due).mgmt = { s.mgmt with resp := r, shifted := some due } := rfl

@[simp] theorem State.respond_shadowWord (s : State) (r due : Resp) (a : Nat) :
    (s.respond r due).shadowWord a = s.shadowWord a := rfl

theorem Only.respond {ps : List Part} {s u : State} (h : Only ps s u) (k : Part.mgmt ∈ ps) (r due : Resp) :
    Only ps s (u.respond r due) :=
  h.trans ((Only.modMgmt u _).mono fun _ hp => List.mem_singleton.mp hp ▸ k)

theorem State.gate_of_portOpen {s : State} (h : s.portOpen) (exempt : Bool) (judge : State → Verdict) :
    s.gate exempt judge = judge s := by
  obtain ⟨-, hth, hop⟩ := h
  simp [State.gate, hop, hth]

theorem State.frame_of_portOpen {s : State} (h : s.portOpen) (t : Nat) (addr : Addr) (judge : State → Verdict) :
    s.frame t addr judge =
      .next ((judge (s.begin t)).next.respond
        ⟨(judge (s.begin t)).status, addr, if (judge (s.begin t)).status == .ok then (judge (s.begin t)).data else 0⟩
        s.mgmt.resp) := by
  simp [State.frame, State.alive, h.1, State.respond]

theorem State.begin_portOpen {s : State} (h : s.portOpen) (t : Nat) : (s.begin t).portOpen := h

/-! ### READ -/

/-- A READ where a register stands answers its word. -/
theorem State.hostRead_of_register {s : State} (h : s.portOpen) {a : Nat} {fs : List FieldDesc}
    (hf : RegMap.fieldsAt a = some fs) (t : Nat) (hits : List MemHit) :
    s.hostRead t a hits = .next (((s.begin t).readReg a fs hits).2.respond
      ⟨.ok, BitVec.ofNat 16 a, ((s.begin t).readReg a fs hits).1⟩ s.mgmt.resp) := by
  unfold State.hostRead
  rw [State.frame_of_portOpen h]
  simp [State.judgeRead, State.gate_of_portOpen (State.begin_portOpen h t), hf]

/-- A READ where no register stands answers BADADDR. -/
theorem State.hostRead_of_no_register {s : State} (h : s.portOpen) {a : Nat} (hf : RegMap.fieldsAt a = none) (t : Nat)
    (hits : List MemHit) :
    s.hostRead t a hits = .next ((s.begin t).respond ⟨.badaddr, BitVec.ofNat 16 a, 0⟩ s.mgmt.resp) := by
  unfold State.hostRead
  rw [State.frame_of_portOpen h]
  simp [State.judgeRead, State.gate_of_portOpen (State.begin_portOpen h t), hf]

theorem exec_read (t : Nat) (addr : Addr) (s : State) : exec (.read t addr) s = s.hostRead t addr.toNat [] := rfl

theorem exec_evqRead (t : Nat) (s : State) : exec (.evqRead t) s = s.hostRead t 0x0008 [] := rfl

theorem exec_write (t : Nat) (addr : Addr) (w : Word) (s : State) : exec (.write t addr w) s = s.hostWrite t addr.toNat w := rfl

/-- The RC bits clear but for what was set in the same cycle, and the other bits stay (R22, R23). -/
theorem State.clearRc_word (s : State) (a b : Nat) (fs : List FieldDesc) :
    (s.clearRc a fs).word b = if b = a then (s.word a &&& ~~~RegMap.mask fs (fun x => x == .rc)) |||
      (s.freshAt a &&& RegMap.mask fs (fun x => x == .rc)) else s.word b := by
  dsimp only [State.clearRc]
  split
  next hm =>
    split
    next hb =>
      subst hb
      simp only [beq_iff_eq] at hm
      simp only [hm, BitVec.ofNat_eq_ofNat, BitVec.not_zero, BitVec.and_allOnes, BitVec.and_zero, BitVec.or_zero]
    next => rfl
  next => exact word_setWord ..

theorem Only.clearRc (s : State) (a : Nat) (fs : List FieldDesc) : Only [.regs] s (s.clearRc a fs) := by
  dsimp only [State.clearRc]
  split
  · exact Only.refl _ s
  · exact Only.setWord ..

/-- The addresses whose reads have a rule of their own: CTL_EVQ, CAP_RDATA, FSO_RDATA and CTL_CERT_DATA. -/
theorem State.readReg_of_one_word (s : State) {a : Nat} (fs : List FieldDesc) (hits : List MemHit)
    (ha : a ∉ [0x0008, 0x7032, 0x810A, 0xA014, 0xA015, 0xF05C]) (hl : within 0xB100 0xB27F a = false) (hm : multiOf a = none) :
    s.readReg a fs hits = (s.view a, s.clearRc a fs) := by
  simp only [List.mem_cons, List.not_mem_nil, or_false, not_or] at ha
  obtain ⟨h1, h2, h3, h4, h5, h6⟩ := ha
  simp [State.readReg, h1, h2, h3, h4, h5, h6, hl, hm]

theorem State.readReg_of_pass_count (s : State) {a : Nat} (fs : List FieldDesc) (hits : List MemHit) (ha : a ∈ [0xA014, 0xA015]) :
    s.readReg a fs hits = (s.settlePass.view a, s.settlePass.clearRc a fs) := by
  simp only [List.mem_cons, List.not_mem_nil, or_false] at ha
  have h1 : (a == 0x0008) = false := by rcases ha with rfl | rfl <;> rfl
  have h2 : (a == 0x7032) = false := by rcases ha with rfl | rfl <;> rfl
  simp [State.readReg, h1, h2, ha]

theorem State.readReg_of_lane (s : State) {a : Nat} (fs : List FieldDesc) (hits : List MemHit) (hl : within 0xB100 0xB27F a = true) :
    s.readReg a fs hits = ((s.lookAt a).view a, (s.lookAt a).clearRc a fs) := by
  have ha : 0xB100 ≤ a ∧ a ≤ 0xB27F := by simpa [within] using hl
  have h1 : a ≠ 0x0008 := by omega
  have h2 : a ≠ 0x7032 := by omega
  have h3 : a ≠ 0xA014 := by omega
  have h4 : a ≠ 0xA015 := by omega
  have h5 : a ≠ 0x810A := by omega
  simp [State.readReg, h1, h2, h3, h4, h5, hl]

/-- Settles O8: the three cases of a READ frame. -/
theorem readReturnsTheRegister : Obligations.ReadReturnsTheRegister := by
  refine ⟨?_, ?_, ?_⟩
  · intro s t addr fs h hf hm ha hl
    refine ⟨_, (exec_read t addr s).trans (State.hostRead_of_register h hf t []), ?_⟩
    rw [State.readReg_of_one_word _ fs [] ha hl hm]
    refine ⟨Only.respond ((Only.clearRc _ _ _).mono (by simp)) (by simp) _ _, fun b hb => ?_, ?_, ?_⟩
    · rw [State.respond_word, State.clearRc_word, if_neg (by simpa using hb), begin_word]
    · simp
    · rw [State.respond_word, State.clearRc_word, if_pos rfl, begin_word]
  · intro s v t addr fs h hf hv
    have hr : (s.begin t).readReg addr.toNat fs [] = (v.view addr.toNat, v.clearRc addr.toNat fs) ∧
        Only [.regs, .mem, .lnk, .free] (s.begin t) v ∧ v.mgmt = s.mgmt := by
      rcases hv with ⟨ha, hv⟩ | ⟨ha, hv⟩ <;> rw [hv]
      · exact ⟨State.readReg_of_pass_count _ _ _ ha, (Only.settlePass _).mono (by simp), by simp⟩
      · exact ⟨State.readReg_of_lane _ _ _ ha, (Only.lookAt _ _).mono (by simp), by simp⟩
    obtain ⟨hr, ho, hm⟩ := hr
    refine ⟨_, (exec_read t addr s).trans (State.hostRead_of_register h hf t []), ?_⟩
    rw [hr]
    refine ⟨Only.respond ((ho.mono (by simp)).trans ((Only.clearRc _ _ _).mono (by simp))) (by simp) _ _, ?_, ?_⟩
    · simp [hm]
    · rw [State.respond_word, State.clearRc_word, if_pos rfl]
  · intro s t addr h hf
    exact ⟨_, (exec_read t addr s).trans (State.hostRead_of_no_register h hf t []),
      Only.respond (Only.refl _ _) (by simp) _ _, by simp⟩

end Sys2Proof.Machine

/-! Registers of several words (R12) and CTL_EVQ (R525, R526): what a READ latches, and what it answers. -/

namespace Sys2Proof.Machine

/-! ### The shadow of R12 -/

/-- The shadow after the words of a list have been put into it. -/
def latched (m : SMap Word) (l : List (Nat × Word)) : SMap Word := l.foldl (fun m e => SMap.put RegMap.resetWord m e.1 e.2) m

theorem State.latchShadow_shadowWord (s : State) (l : List (Nat × Word)) (a : Nat) :
    (s.latchShadow l).shadowWord a = SMap.get RegMap.resetWord (latched s.mgmt.shadow l) a := rfl

theorem latched_get_of_not_mem (l : List (Nat × Word)) (m : SMap Word) {a : Nat} (h : a ∉ l.map Prod.fst) :
    SMap.get RegMap.resetWord (latched m l) a = SMap.get RegMap.resetWord m a := by
  induction l generalizing m with
  | nil => rfl
  | cons e l ih =>
    simp only [List.map_cons, List.mem_cons, not_or] at h
    exact (ih _ h.2).trans (by rw [SMap.get_put, if_neg h.1])

/-- Each word of a list of different addresses is latched. -/
theorem latched_get (l : List (Nat × Word)) (m : SMap Word) {a : Nat} {w : Word} (hl : (l.map Prod.fst).Nodup) (h : (a, w) ∈ l) :
    SMap.get RegMap.resetWord (latched m l) a = w := by
  induction l generalizing m with
  | nil => cases h
  | cons e l ih =>
    rw [List.map_cons, List.nodup_cons] at hl
    rcases List.mem_cons.mp h with rfl | h
    · exact (latched_get_of_not_mem l _ hl.1).trans (by rw [SMap.get_put, if_pos rfl])
    · exact ih _ hl.2 h

/-- The higher words of a register, latched from its first address on. -/
theorem latched_get_range (m : SMap Word) (b k : Nat) (f : Nat → Word) {i : Nat} (h : i < k) :
    SMap.get RegMap.resetWord (latched m ((List.range k).map fun i => (b + i, f i))) (b + i) = f i := by
  refine latched_get _ m ?_ (List.mem_map.mpr ⟨i, List.mem_range.mpr h, rfl⟩)
  rw [List.map_map]
  exact List.nodup_range.map fun x y (e : b + x = b + y) => by omega

theorem Only.latchShadow (s : State) (l : List (Nat × Word)) : Only [.mgmt] s (s.latchShadow l) := Only.modMgmt ..

/-! ### READ of a register of several words -/

/-- No register of several words is a pass counter or a register of a lane. -/
theorem multiOf_some_elsewhere {a : Nat} {g : Nat × Nat} (h : multiOf a = some g) :
    a ≠ 0xA014 ∧ a ≠ 0xA015 ∧ within 0xB100 0xB27F a = false := by
  refine ⟨?_, ?_, ?_⟩
  · rintro rfl; cases h
  · rintro rfl; cases h
  · by_contra hw
    have ha : 0xB100 ≤ a ∧ a ≤ 0xB27F := by simpa [within] using hw
    have hb : a / 4096 = 11 := by omega
    have h1 : within 0xB400 0xB5FF a = false := by simp [within]; omega
    have h2 : within 0xB610 0xB64F a = false := by simp [within]; omega
    have hg : multiWords a = [(0xB007, 2), (0xB031, 2), (0xB600, 3)] := by simp [multiWords, hb, h1, h2]
    have hn : multiOf a = none := by
      rw [multiOf, hg]
      simp [within]
      omega
    rw [hn] at h
    cases h

section
variable (s : State) {a b n : Nat} (fs : List FieldDesc) (hits : List MemHit) (hm : multiOf a = some (b, n))
  (ha : a ∉ [0x0008, 0x7032, 0x810A, 0xF05C])
include hm ha

/-- A READ of a register of several words that is no window is judged by its place in the register. -/
theorem State.readReg_of_several_words :
    s.readReg a fs hits = if a == b then
        (s.view a, (s.latchShadow ((List.range (n - 1)).map fun i => (b + 1 + i, s.view (b + 1 + i)))).clearRc a fs)
      else (s.shadowWord a, s) := by
  simp only [List.mem_cons, List.not_mem_nil, or_false, not_or] at ha
  obtain ⟨h1, h2, h3, h4⟩ := ha
  obtain ⟨h5, h6, hl⟩ := multiOf_some_elsewhere hm
  simp [State.readReg, h1, h2, h3, h4, h5, h6, hl, hm]

theorem State.readReg_of_higher_word (hb : a ≠ b) : s.readReg a fs hits = (s.shadowWord a, s) := by
  rw [State.readReg_of_several_words s fs hits hm ha, if_neg (by simpa using hb)]

end

theorem State.readReg_of_lowest_word (s : State) {a n : Nat} (fs : List FieldDesc) (hits : List MemHit)
    (hm : multiOf a = some (a, n)) (ha : a ∉ [0x0008, 0x7032, 0x810A, 0xF05C]) :
    s.readReg a fs hits =
      (s.view a, (s.latchShadow ((List.range (n - 1)).map fun i => (a + 1 + i, s.view (a + 1 + i)))).clearRc a fs) := by
  rw [State.readReg_of_several_words s fs hits hm ha, if_pos (beq_self_eq_true a)]

/-! ### READ of CTL_EVQ -/

theorem Only.readEvq (s : State) : Only [.mgmt] s s.readEvq.2 :=
  ⟨by simp, by simp, fun p hp => by cases p <;> simp_all [Part.same]⟩

/-- EVQ_READ while the port is open. -/
theorem exec_evqRead_of_portOpen {s : State} (h : s.portOpen) (t : Nat) :
    exec (.evqRead t) s = .next ((s.begin t).readEvq.2.respond ⟨.ok, 0x0008, (s.begin t).readEvq.1⟩ s.mgmt.resp) :=
  (exec_evqRead t s).trans (State.hostRead_of_register h (fs := [⟨19, 0, .ro, 0⟩]) rfl t [])

/-- An empty CTL_EVQ reads 0 and latches zeros. -/
theorem State.readEvq_nil {s : State} (h : s.mgmt.evq = []) :
    s.readEvq = (0, s.latchShadow [(0x0009, 0), (0x000A, 0), (0x000B, 0)]) := by
  unfold State.readEvq
  rw [h]

/-- The oldest entry leaves CTL_EVQ, and EVQ_OVF reports the entries lost. -/
theorem State.readEvq_cons {s : State} {e : EvEntry} {q : List EvEntry} (h : s.mgmt.evq = e :: q) :
    s.readEvq = (e.words.getD 0 0,
      (s.latchShadow [(0x0009, e.words.getD 1 0), (0x000A, e.words.getD 2 0), (0x000B, e.words.getD 3 0)]).modMgmt fun x =>
        { x with evq := if s.mgmt.lost == 0 then q else insertEv ⟨0x7F, .warn, min 1023 s.mgmt.lost, s.now⟩ q, lost := 0 }) := by
  unfold State.readEvq
  rw [h]
  rfl

/-- Settles O9: the lowest word latches, a higher word answers what was latched, and CTL_EVQ is read as one register of four
words. -/
theorem wideRegistersAreReadWhole : Obligations.WideRegistersAreReadWhole := by
  refine ⟨⟨?_, ?_, fun _ => rfl⟩, ?_, ?_⟩
  · intro s t addr fs n h hf hm ha
    refine ⟨_, (exec_read t addr s).trans (State.hostRead_of_register h hf t []), ?_⟩
    rw [State.readReg_of_lowest_word _ fs [] hm ha]
    refine ⟨Only.respond (((Only.latchShadow _ _).mono (by simp)).trans ((Only.clearRc _ _ _).mono (by simp))) (by simp) _ _,
      fun b hb => ?_, by simp, fun i hi => ?_⟩
    · rw [State.respond_word, State.clearRc_word, if_neg (by simpa using hb)]
      exact State.word_of_regs (by simp) b
    · have hs : ∀ u : State, (u.clearRc addr.toNat fs).shadowWord = u.shadowWord := fun u => by
        unfold State.shadowWord
        simp
      rw [State.respond_shadowWord, hs, State.latchShadow_shadowWord, latched_get_range _ _ _ _ hi]
  · intro s t addr fs b n h hf hm hb ha
    refine ⟨_, (exec_read t addr s).trans (State.hostRead_of_register h hf t []), ?_⟩
    rw [State.readReg_of_higher_word _ fs [] hm ha hb]
    exact ⟨Only.respond (Only.refl _ _) (by simp) _ _, by simp [State.shadowWord]⟩
  · intro s t e q h hq
    refine ⟨_, exec_evqRead_of_portOpen h t, Only.respond (Only.readEvq _) (by simp) _ _, ?_⟩
    rw [State.readEvq_cons (s := s.begin t) hq]
    have hl : ∀ a w, (a, w) ∈ [((0x0009 : Nat), e.words.getD 1 0), (0x000A, e.words.getD 2 0), (0x000B, e.words.getD 3 0)] →
        SMap.get RegMap.resetWord (latched s.mgmt.shadow _) a = w := fun a w => latched_get _ _ (by simp)
    refine ⟨by simp, rfl, rfl, rfl, hl _ _ ?_, hl _ _ ?_, hl _ _ ?_⟩ <;> simp
  · intro s t h hq
    refine ⟨_, exec_evqRead_of_portOpen h t, Only.respond (Only.readEvq _) (by simp) _ _, ?_⟩
    rw [State.readEvq_nil (s := s.begin t) hq]
    have hl : ∀ a, a ∈ [(0x0009 : Nat), 0x000A, 0x000B] →
        SMap.get RegMap.resetWord (latched s.mgmt.shadow [(0x0009, 0), (0x000A, 0), (0x000B, 0)]) a = 0 := fun a ha =>
      latched_get _ _ (by decide) (by simpa using ha)
    exact ⟨hq, rfl, hl _ (by decide), hl _ (by decide), hl _ (by decide)⟩

end Sys2Proof.Machine

/-! WRITE frames (R22, R25, R555) while the port is open. -/

namespace Sys2Proof.Machine

/-- A WRITE that R25 lets through answers as the register's rule says. -/
theorem State.hostWrite_of_register {s : State} (h : s.portOpen) {a : Nat} {fs : List FieldDesc}
    (hf : RegMap.fieldsAt a = some fs) (hr : r25 fs = none) (t : Nat) (w : Word) {st : Status} {u : State}
    (hw : (s.begin t).writeReg a w = (st, u)) :
    s.hostWrite t a w =
      .next (u.respond ⟨st, BitVec.ofNat 16 a, if st == .ok then u.view a else 0⟩ s.mgmt.resp) := by
  unfold State.hostWrite
  rw [State.frame_of_portOpen h]
  simp [State.judgeWrite, State.gate_of_portOpen (State.begin_portOpen h t), hf, hr, hw]

/-- A WRITE that R25 turns away answers its status. -/
theorem State.hostWrite_of_r25 {s : State} (h : s.portOpen) {a : Nat} {fs : List FieldDesc}
    (hf : RegMap.fieldsAt a = some fs) {st : Status} (hr : r25 fs = some st) (t : Nat) (w : Word) :
    s.hostWrite t a w = .next ((s.begin t).respond ⟨st, BitVec.ofNat 16 a, 0⟩ s.mgmt.resp) := by
  unfold State.hostWrite
  rw [State.frame_of_portOpen h]
  simp [State.judgeWrite, State.gate_of_portOpen (State.begin_portOpen h t), hf, hr]

theorem State.poke_of_one_word (s : State) {a : Nat} (hm : multiOf a = none) (w : Word) :
    s.poke a w = s.setWord a (s.mixed a w) := by
  simp [State.poke, hm]

/-- A register of one word that its rule lets through has the state that the rule answers. -/
theorem State.writeReg_of_ok {s u : State} {a : Nat} (hm : multiOf a = none) {w : Word}
    (hr : s.ruleOf (s.poke a w) a w = (.ok, u)) : s.writeReg a w = (.ok, u) := by
  simp [State.writeReg, hm, hr]

/-- A register of one word that its rule turns away is as it was. -/
theorem State.writeReg_of_refused {s u : State} {a : Nat} (hm : multiOf a = none) {w : Word}
    (hr : s.ruleOf (s.poke a w) a w = (.refused, u)) : s.writeReg a w = (.refused, s) := by
  simp [State.writeReg, hm, hr]

/-- In the blocks Axxxh, Cxxxh, Dxxxh and Fxxxh the limits of R555 are the only rule. -/
theorem State.ruleOf_of_plain_block (s s' : State) {a : Nat} (ha : a / 4096 ∈ [0xA, 0xC, 0xD, 0xF]) (w : Word) :
    s.ruleOf s' a w = if s'.limitOk a then (.ok, s') else (.refused, s) := by
  simp only [List.mem_cons, List.not_mem_nil, or_false] at ha
  rcases ha with ha | ha | ha | ha <;> simp only [State.ruleOf, ha]

theorem State.respond_answered (s u : State) (a : Nat) (st : Status) (d : Word) :
    s.answered (u.respond ⟨st, BitVec.ofNat 16 a, d⟩ s.mgmt.resp) a st := ⟨rfl, rfl, rfl⟩

/-- Settles O10: the three answers of a WRITE frame. -/
theorem writeFollowsTheAccessCodes : Obligations.WriteFollowsTheAccessCodes := by
  intro s t addr w fs h hf hm
  refine ⟨fun hr ha hl => ?_, fun hr ha hl => ?_, fun st hr => ?_⟩
  · have hw := State.writeReg_of_ok hm ((State.ruleOf_of_plain_block (s.begin t) _ ha w).trans (if_pos hl))
    refine ⟨_, (exec_write t addr w s).trans (State.hostWrite_of_register h hf hr t w hw), ?_⟩
    rw [State.poke_of_one_word _ hm]
    refine ⟨Only.respond ((Only.setWord _ _ _).mono (by simp)) (by simp) _ _, fun b hb => ?_,
      State.respond_answered .., ?_⟩
    · rw [State.respond_word, word_setWord, if_neg (by simpa using hb), begin_word]
    · rw [State.respond_word, word_setWord, if_pos rfl]
  · have hw := State.writeReg_of_refused hm
      ((State.ruleOf_of_plain_block (s.begin t) _ ha w).trans (if_neg (by simp [hl])))
    exact ⟨_, (exec_write t addr w s).trans (State.hostWrite_of_register h hf hr t w hw),
      Only.respond (Only.refl _ _) (by simp) _ _, State.respond_answered ..⟩
  · exact ⟨_, (exec_write t addr w s).trans (State.hostWrite_of_r25 h hf hr t w),
      Only.respond (Only.refl _ _) (by simp) _ _, State.respond_answered ..⟩

end Sys2Proof.Machine

/-! The boost and its monitors (R105, R106, R114, R115, R257, R500): L1's sample, the stop of switching, Clamp, and the urgent
conversion. -/

namespace Sys2Proof.Machine

/-! ### What stays unchanged -/

/-- Two changes, one after the other. -/
theorem Only.comp {ps qs rs : List Part} {s t u : State} (h : Only ps s t) (k : Only qs t u) (hp : ∀ p ∈ ps, p ∈ rs)
    (hq : ∀ p ∈ qs, p ∈ rs) : Only rs s u :=
  (h.mono hp).trans (k.mono hq)

theorem Only.modEdu (s : State) (f : Edu → Edu) : Only [.edu] s (s.modEdu f) :=
  ⟨by simp, by simp, fun p hp => by cases p <;> simp_all [Part.same]⟩

theorem Only.modHk (s : State) (f : Hk → Hk) : Only [.hk] s (s.modHk f) :=
  ⟨by simp, by simp, fun p hp => by cases p <;> simp_all [Part.same]⟩

theorem Only.modSaf (s : State) (f : Saf → Saf) : Only [.saf] s (s.modSaf f) :=
  ⟨by simp, by simp, fun p hp => by cases p <;> simp_all [Part.same]⟩

theorem Only.put (s : State) (f : Fld) (b : Bool) : Only [.regs] s (s.put f b) :=
  ⟨by simp, by simp, fun p hp => by cases p <;> simp_all [Part.same]⟩

theorem Only.raise (s : State) (code : Nat) (cls : EvClass) (arg : Nat) :
    Only [.regs, .mgmt, .lnk, .saf, .out] s (s.raise code cls arg) :=
  ⟨by simp, by simp, fun p hp => by cases p <;> simp_all [Part.same]⟩

theorem Only.clamp (s : State) (cause : Nat) : Only (.regs :: safParts) s (s.clamp cause) :=
  ⟨by simp, by simp, fun p hp => by cases p <;> simp_all [Part.same, safParts]⟩

theorem Only.chgEval (s : State) : Only (.regs :: .edu :: safParts) s s.chgEval :=
  ⟨by simp, by simp, fun p hp => by cases p <;> simp_all [Part.same, safParts]⟩

theorem Only.sampleL1 (s : State) (m : Int) : Only [.regs, .stu] s (s.sampleL1 m) :=
  ⟨by simp, by simp, fun p hp => by cases p <;> simp_all [Part.same]⟩

/-! ### Charging -/

/-- Charging depends on the EDU's state and on EDU_STATUS and EDU_FAULT alone. -/
theorem State.chgOk_of {s u : State} (he : u.edu = s.edu) (h0 : u.word 0x2000 = s.word 0x2000)
    (h1 : u.word 0x2001 = s.word 0x2001) : u.chgOk = s.chgOk := by
  have hb : u.flag F.EDU_FAULT_BOOST_FAULT = s.flag F.EDU_FAULT_BOOST_FAULT := State.flag_of_word h1
  have hg : u.govTrip = s.govTrip := State.flag_of_word (f := F.EDU_STATUS_GOV_TRIP) h0
  simp [State.chgOk, State.tempEmit, he, hb, hg]

theorem State.chgOk_of_boostFault {s : State} (h : s.flag F.EDU_FAULT_BOOST_FAULT = true) : s.chgOk = false := by
  simp [State.chgOk, h]

theorem State.chgOk_of_govTrip {s : State} (h : s.govTrip = true) : s.chgOk = false := by
  simp [State.chgOk, h]

/-- Where charging is forbidden the boost stops switching. -/
theorem State.chgEval_edu {s : State} (h : s.chgOk = false) :
    s.chgEval.edu = { s.edu with swSince := none, hvBurst := none } := by
  simp [State.chgEval, h]

/-! ### L1 -/

theorem State.bselOf_lt (s : State) (x : Nat) : s.bselOf x < 2 := by
  have hr : s.rd (F.CEN_CTL_BSEL x) < 2 := bitsOf_lt _ _ _
  unfold State.bselOf
  split
  next t b _ =>
    split
    · cases b <;> decide
    · exact hr
  next => exact hr

theorem State.sampleL1_word (s : State) (m : Int) {a : Nat} (h : a ∉ [(F.CEN_CTL_ABANK 1).addr, (F.CEN_SPT_SPT 1).addr]) :
    (s.sampleL1 m).word a = s.word a := by
  simp only [List.mem_cons, List.not_mem_nil, or_false, not_or] at h
  dsimp only [State.sampleL1, State.noteSpt, State.takeBank]
  rw [word_wr_ne _ _ _ _ h.2, modStu_word, word_wr_ne _ _ _ _ h.1]

theorem State.sampleL1_bank (s : State) (m : Int) : (s.sampleL1 m).bank 1 = s.bselOf 1 := by
  dsimp only [State.sampleL1, State.noteSpt, State.bank]
  rw [rd_wr_other _ _ _ _ (by decide) (by decide) (by decide), modStu_rd, State.takeBank, rd_wr _ _ _ (by decide) (by decide)]
  exact Nat.mod_eq_of_lt (s.bselOf_lt 1)

/-- L1 after a sample: its law gives u by the band (R257). -/
theorem State.sampleL1_stu (s : State) (m : Int) :
    let p := (s.takeBank 1).loopPar 1
    let l := s.stu.l1.sample p true m
    (s.sampleL1 m).stu = { s.stu with l1 := { l with u := if l.below p then 1 else if l.above p then 0 else l.u } } := by
  simp [State.sampleL1, State.noteSpt]

/-- The state after a charge PWM event at which the boost is started: L1's sample, the end of an over-voltage stop, and the burst
that L1, charging and the stop permit. -/
def State.pwmDone (s : State) : State :=
  let v := s.sampleL1 (s.rd F.EDU_HV_HV)
  let ov := s.edu.ovStop && Nat.ble (s.rd F.EDU_HV_SET_HV) (s.rd F.EDU_HV_HV)
  let on := v.stu.l1.u == 1 && s.chgOk && !ov
  let burst : HvBurst := ⟨s.clk, s.rd (F.CEN_L1_DUTY_NP (s.bselOf 1)), 2 * s.rd (F.CEN_L1_WIDTH_WIDTH (s.bselOf 1))⟩
  (v.modEdu fun e => { e with
    ovStop := ov, hvBurst := if on then some burst else none,
    swSince := if on then some (e.swSince.getD s.clk) else none }).modHk fun k => { k with pwmAt := some s.clk }

/-- The burst's pulses are those of the bank that the sample took into use. -/
theorem State.sampleL1_hvPulses (s : State) (m : Int) :
    (s.sampleL1 m).hvPulses =
      ⟨s.clk, s.rd (F.CEN_L1_DUTY_NP (s.bselOf 1)), 2 * s.rd (F.CEN_L1_WIDTH_WIDTH (s.bselOf 1))⟩ := by
  have hd : ∀ i < 2, (s.sampleL1 m).rd (F.CEN_L1_DUTY_NP i) = s.rd (F.CEN_L1_DUTY_NP i) ∧
      (s.sampleL1 m).rd (F.CEN_L1_WIDTH_WIDTH i) = s.rd (F.CEN_L1_WIDTH_WIDTH i) := by
    intro i hi
    have h0 : i = 0 ∨ i = 1 := by omega
    rcases h0 with rfl | rfl <;>
      exact ⟨State.rd_of_word (s.sampleL1_word m (by decide)), State.rd_of_word (s.sampleL1_word m (by decide))⟩
  obtain ⟨hn, hw⟩ := hd _ (s.bselOf_lt 1)
  simp only [State.hvPulses, State.sampleL1_bank, hn, hw, State.sampleL1_frame]

theorem exec_chargePwmEvent {s : State} (h : s.edu.started = true) (t : Nat) :
    exec (.chargePwmEvent t) s = .next (s.begin t).pwmDone := by
  have hb : (s.begin t).edu.started = true := h
  dsimp only [exec, execChargePwmEvent]
  rw [hb]
  generalize s.begin t = b
  have hw : ∀ a, a ∉ [(F.CEN_CTL_ABANK 1).addr, (F.CEN_SPT_SPT 1).addr] →
      (b.sampleL1 (b.rd F.EDU_HV_HV)).word a = b.word a := fun a ha => b.sampleL1_word _ ha
  have hs : (b.sampleL1 (b.rd F.EDU_HV_HV)).rd F.EDU_HV_SET_HV = b.rd F.EDU_HV_SET_HV := State.rd_of_word (hw _ (by decide))
  have hv : (b.sampleL1 (b.rd F.EDU_HV_HV)).rd F.EDU_HV_HV = b.rd F.EDU_HV_HV := State.rd_of_word (hw _ (by decide))
  have hc : (b.sampleL1 (b.rd F.EDU_HV_HV)).chgOk = b.chgOk :=
    State.chgOk_of (by simp) (hw _ (by decide)) (hw _ (by decide))
  simp only [Bool.not_true, Bool.false_eq_true, if_false, State.pwmDone, State.sampleL1_hvPulses, hs, hv, hc,
    State.sampleL1_frame, State.modEdu_frame]
  refine congrArg (fun f => Host.Outcome.next (((b.sampleL1 _).modEdu f).modHk _)) (funext fun e => ?_)
  cases he : e.swSince <;> simp

theorem State.pwmDone_only (s : State) : Only [.regs, .edu, .stu, .hk] s s.pwmDone := by
  dsimp only [State.pwmDone]
  exact ((Only.sampleL1 s _).comp (Only.modEdu _ _) (by decide) (by decide)).trans ((Only.modHk _ _).mono (by decide))

theorem State.pwmDone_word (s : State) {a : Nat} (h : a ∉ [(F.CEN_CTL_ABANK 1).addr, (F.CEN_SPT_SPT 1).addr]) :
    s.pwmDone.word a = s.word a := by
  dsimp only [State.pwmDone]
  rw [modHk_word, modEdu_word, s.sampleL1_word _ h]

/-! ### Clamp -/

/-- What the SAF notes of Clamp: its state, the causes that are present, the retention record and CLCAUSE (R298 to R300). -/
def State.clampNote (s : State) : SafSt × List Nat × Option Nat × Nat :=
  (s.saf.st, s.saf.causes, s.saf.retained, s.saf.clcause)

theorem State.clampNote_of_saf {s u : State} (h : u.saf = s.saf) : u.clampNote = s.clampNote := by
  simp only [State.clampNote, h]

theorem State.noteDcode_clampNote (s : State) (e : EvEntry) : (s.noteDcode e).clampNote = s.clampNote := by
  unfold State.noteDcode
  split <;> rfl

theorem State.raise_clampNote (s : State) (code : Nat) (cls : EvClass) (arg : Nat) :
    (s.raise code cls arg).clampNote = s.clampNote := by
  unfold State.raise
  dsimp only
  rw [State.noteDcode_clampNote, State.fold_keeps State.clampNote _ fun u n => State.clampNote_of_saf (by simp)]
  split
  · exact State.clampNote_of_saf (by simp)
  · rfl

theorem State.drive_clampNote (s : State) (on : Bool) : (s.drive on).clampNote = s.clampNote := by
  unfold State.drive
  split <;> rfl

/-- Entering a state keeps the causes and the record. -/
theorem State.safTo_clampNote (s : State) (st : SafSt) :
    (s.safTo st).clampNote = (st, s.saf.causes, s.saf.retained, s.saf.clcause) := by
  unfold State.safTo
  split
  next h => rw [State.clampNote, eq_of_beq h]
  next =>
    have hd : ∀ u : State, (if st == .stop then u.inc F.SAF_DEMCNT_COUNT else u).clampNote = u.clampNote := by
      intro u
      split
      · exact State.clampNote_of_saf (by simp)
      · rfl
    have hc : ∀ (u : State) (b : Bool) (c : Cond), (if b then u.condition c else u).clampNote = u.clampNote := by
      intro u b c
      split
      · exact State.clampNote_of_saf (by simp)
      · rfl
    dsimp only
    rw [State.raise_clampNote, hc, hd, State.drive_clampNote]
    rfl

/-- Clamp is entered with its cause in the record; in Clamp nothing changes (R298, R300). -/
theorem State.clamp_clampNote (s : State) (cause : Nat) :
    (s.clamp cause).clampNote =
      if s.saf.st = .clamp then s.clampNote else (.clamp, s.saf.causes, some cause, cause) := by
  unfold State.clamp
  split
  next h => rw [if_pos (eq_of_beq h)]
  next h => rw [if_neg (by simpa using h), State.safTo_clampNote]; rfl

/-! ### The urgent conversion (R500) -/

/-- A counter that is incremented saturates (R15). -/
theorem rd_inc (s : State) (f : Fld) (h : f.lo ≤ f.hi) (hh : f.hi < 20) :
    (s.inc f).rd f = satN (f.hi + 1 - f.lo) (s.rd f + 1) := by
  unfold State.inc State.count State.rd
  rw [word_wrNote, if_pos rfl, bitsOf_putBits _ _ _ _ h hh]
  exact Nat.mod_eq_of_lt ((Nat.min_le_right _ _).trans_lt (Nat.sub_one_lt (Nat.two_pow_pos _).ne'))

theorem rd_inc_ne (s : State) (f g : Fld) (h : g.addr ≠ f.addr) : (s.inc f).rd g = s.rd g :=
  State.rd_of_word (word_inc_ne _ _ _ h)

/-- The corrected code depends on the Shims alone. -/
theorem State.corrOf_of_boot {s u : State} (h : u.boot = s.boot) (raw : Nat) : u.corrOf raw = s.corrOf raw := by
  simp only [State.corrOf, State.shim, h]

theorem State.corrOf_lt (s : State) (raw : Nat) : s.corrOf raw < 4096 := by
  dsimp only [State.corrOf, clampZ]
  split
  · decide
  split
  · decide
  · omega

/-- A latched result of channel 0, EDU_HV's: RAW and VAL. -/
theorem State.latchHk_zero (s : State) (corr : Nat) (lp : Bool) :
    s.latchHk 0 corr lp = (s.setWord 0xD100 (mkWord [(19, 1), (18, b2n lp), (0, corr)])).wrZ (F.CTL_HK_VAL_VAL 0)
      (rdiv (5 * corr) 32 : Nat) := rfl

theorem State.latchHk_zero_word (s : State) (corr : Nat) (lp : Bool) {a : Nat} (h : a ∉ [0xD100, 0xD140]) :
    (s.latchHk 0 corr lp).word a = s.word a := by
  simp only [List.mem_cons, List.not_mem_nil, or_false, not_or] at h
  rw [State.latchHk_zero, word_wrZ_ne _ _ _ _ h.2, word_setWord, if_neg h.1]

/-- The corrected code stands in the low bits of RAW. -/
theorem State.latchHk_zero_corr (s : State) {corr : Nat} (h : corr < 4096) (lp : Bool) :
    (s.latchHk 0 corr lp).rd (F.CTL_HK_RAW_CORR 0) = corr := by
  have hw : (s.latchHk 0 corr lp).word 0xD100 = mkWord [(19, 1), (18, b2n lp), (0, corr)] := by
    rw [State.latchHk_zero, word_wrZ_ne _ _ _ _ (by decide), word_setWord, if_pos rfl]
  show bitsOf ((s.latchHk 0 corr lp).word 0xD100).toNat 11 0 = corr
  rw [hw]
  cases lp <;> simp [mkWord, RegMap.pack, bitsOf, b2n] <;> omega

/-- The part of HK after an urgent conversion at an instant: a round conversion that it delays waits for its end. -/
def Hk.urgent (k : Hk) (at0 : Nat) (late : Bool) : Hk :=
  { k with pwmAt := none, urgAt := some at0, convAt := if late then at0 + 1000 else k.convAt }

/-- A round conversion waits for an urgent conversion that starts now. -/
def State.urgentDelays (s : State) : Bool := !s.hk.todo.isEmpty && Nat.blt s.clk (s.hk.convAt + s.convNs)

/-- The state after an urgent conversion: the aborted conversion counted, HK's part, the conversion counted, channel 0 latched,
and EDU_HV. -/
def State.urgentDone (s : State) (raw : Nat) : State :=
  let v := if s.urgentDelays && Nat.ble s.hk.convAt s.clk then s.inc F.CTL_HK_ABORT_COUNT else s
  let v := (v.modHk fun k => k.urgent s.clk s.urgentDelays).inc F.CTL_HK_URGCNT_COUNT
  (v.latchHk 0 (s.corrOf raw) false).wr F.EDU_HV_HV (rdiv (5 * s.corrOf raw) 32)

/-- URGENT_CONVERSION when it is due. -/
theorem exec_urgentConversion {s : State} (t raw : Nat) {p : Nat} (hp : s.hk.pwmAt = some p) (hr : s.hk.rounds = true)
    (hd : p + s.rd F.CTL_HK_URG_URGDLY ≤ (s.begin t).clk) :
    exec (.urgentConversion t raw) s = .next ((s.begin t).urgentDone raw) := by
  have hlt : ¬ (!(s.begin t).hk.rounds || Nat.blt (s.begin t).clk (p + (s.begin t).rd F.CTL_HK_URG_URGDLY)) = true := by
    have hrb : (s.begin t).hk.rounds = true := hr
    simp only [hrb, Bool.not_true, Bool.false_or, Nat.blt_eq]
    exact not_lt.mpr hd
  have hb : (s.begin t).hk.pwmAt = some p := hp
  dsimp only [exec, execUrgentConversion]
  rw [hb]
  dsimp only
  rw [if_neg hlt]
  unfold State.urgentDone
  rw [State.corrOf_of_boot (s := s.begin t) (by simp)]
  simp [State.urgentDelays, Hk.urgent, and_right_comm, State.convNs]

theorem State.urgentDone_only (s : State) (raw : Nat) : Only [.regs, .hk] s (s.urgentDone raw) := by
  dsimp only [State.urgentDone]
  rw [State.latchHk_zero]
  exact ⟨by simp, by simp, fun p hp => by cases p <;> simp_all [Part.same]⟩

theorem State.urgentDone_hk (s : State) (raw : Nat) : (s.urgentDone raw).hk = s.hk.urgent s.clk s.urgentDelays := by
  simp [State.urgentDone]

theorem State.urgentDone_word (s : State) (raw : Nat) {a : Nat}
    (h : a ∉ [F.CTL_HK_ABORT_COUNT.addr, F.CTL_HK_URGCNT_COUNT.addr, 0xD100, 0xD140, F.EDU_HV_HV.addr]) :
    (s.urgentDone raw).word a = s.word a := by
  simp only [List.mem_cons, List.not_mem_nil, or_false, not_or] at h
  obtain ⟨h1, h2, h3, h4, h5⟩ := h
  unfold State.urgentDone
  dsimp only
  rw [word_wr_ne _ _ _ _ h5, State.latchHk_zero_word _ _ _ (by simp [h3, h4]), word_inc_ne _ _ _ h2, modHk_word]
  split
  · exact word_inc_ne _ _ _ h1
  · rfl

/-- What an urgent conversion leaves in the counters, in RAW of channel 0 and in EDU_HV. -/
theorem State.urgentDone_counts (s : State) (raw : Nat) :
    (s.urgentDone raw).rd F.CTL_HK_ABORT_COUNT =
      (if s.urgentDelays && Nat.ble s.hk.convAt s.clk then satN 20 (s.rd F.CTL_HK_ABORT_COUNT + 1)
        else s.rd F.CTL_HK_ABORT_COUNT) ∧
    (s.urgentDone raw).rd F.CTL_HK_URGCNT_COUNT = satN 20 (s.rd F.CTL_HK_URGCNT_COUNT + 1) := by
  have hl : ∀ (u : State) (v corr : Nat) (g : Fld), g.addr ∉ [0xD100, 0xD140, F.EDU_HV_HV.addr] →
      ((u.latchHk 0 corr false).wr F.EDU_HV_HV v).rd g = u.rd g := by
    intro u v corr g hg
    simp only [List.mem_cons, List.not_mem_nil, or_false, not_or] at hg
    obtain ⟨h3, h4, h5⟩ := hg
    exact State.rd_of_word ((word_wr_ne _ _ _ _ h5).trans (State.latchHk_zero_word _ _ _ (by simp [h3, h4])))
  unfold State.urgentDone
  dsimp only
  constructor
  · rw [hl _ _ _ _ (by decide), rd_inc_ne _ _ _ (by decide), modHk_rd]
    split
    · exact rd_inc _ _ (by decide) (by decide)
    · rfl
  · rw [hl _ _ _ _ (by decide), rd_inc _ _ (by decide) (by decide), modHk_rd]
    split
    · rw [rd_inc_ne _ _ _ (by decide)]; rfl
    · rfl

theorem State.urgentDone_values (s : State) (raw : Nat) :
    (s.urgentDone raw).rd (F.CTL_HK_RAW_CORR 0) = s.corrOf raw ∧
    (s.urgentDone raw).rd F.EDU_HV_HV = rdiv (5 * s.corrOf raw) 32 % 1024 := by
  unfold State.urgentDone
  dsimp only
  constructor
  · rw [rd_wr_other _ _ _ _ (by decide) (by decide) (by decide), State.latchHk_zero_corr _ (s.corrOf_lt raw)]
  · exact rd_wr _ _ _ (by decide) (by decide)

end Sys2Proof.Machine

/-! Writes of EDU_FAULT (R23, R101, R106): the rows that count misses again, and the restart of the boost. -/

namespace Sys2Proof.Machine

/-! ### Bits and fields -/

theorem bitOf_eq_testBit (n i : Nat) : bitOf n i = n.testBit i := by
  rw [bitOf, Nat.testBit_eq_decide_div_mod_eq]
  rfl

/-- A bit of a field that begins at bit 0. -/
theorem bitOf_bitsOf_zero (n hi i : Nat) (h : i ≤ hi) : bitOf (bitsOf n hi 0) i = bitOf n i := by
  simp only [bitOf_eq_testBit, bitsOf_testBit, Nat.zero_add]
  simp; omega

/-- A flag is its bit of the word. -/
theorem State.flag_eq_bitOf (s : State) (a i : Nat) : s.flag ⟨a, i, i⟩ = bitOf (s.word a).toNat i := by
  have h : (s.word a).toNat / 2 ^ i % 2 = 0 ∨ (s.word a).toNat / 2 ^ i % 2 = 1 := by omega
  simp only [State.flag, State.rd, bitsOf, bitOf, Nat.add_sub_cancel_left, pow_one]
  rcases h with h | h <;> rw [h] <;> rfl

/-- A read of a table of numbers after a write of it. -/
theorem SMap.nat_setNat (m : SMap Nat) (k v j : Nat) : (m.setNat k v).nat j = if j = k then v else m.nat j :=
  SMap.get_put _ _ _ _ _

/-! ### The rows -/

theorem Only.rowCleared (s : State) (r : Nat) : Only [.edu] s (s.rowCleared r) :=
  ⟨by simp, by simp, fun p hp => by cases p <;> simp_all [Part.same]⟩

theorem State.rowCleared_diodeFlt (s : State) (r : Nat) : (s.rowCleared r).edu.diodeFlt = s.edu.diodeFlt := by
  unfold State.rowCleared
  split <;> rfl

/-- A row whose LASER_FAULT is clear counts misses from 0, and the other rows go on. -/
theorem State.rowCleared_miss (s : State) (r k : Nat) :
    (s.rowCleared r).edu.miss.nat k =
      if k = r ∧ bitOf (s.rd F.EDU_FAULT_LASER_FAULT) k = false then 0 else s.edu.miss.nat k := by
  unfold State.rowCleared
  split
  next hb =>
    rw [if_neg]
    rintro ⟨rfl, hk⟩
    rw [hk] at hb
    cases hb
  next hb =>
    rw [State.modEdu_edu]
    refine (SMap.nat_setNat s.edu.miss r 0 k).trans ?_
    rcases eq_or_ne k r with rfl | hk
    · rw [if_pos rfl, if_pos ⟨rfl, by simpa using hb⟩]
    · rw [if_neg hk, if_neg fun h => hk h.1]

theorem Only.rowsCleared (s : State) (l : List Nat) : Only [.edu] s (l.foldl State.rowCleared s) :=
  Only.fold _ (fun u r => Only.rowCleared u r) l s

theorem State.rowsCleared_word (s : State) (l : List Nat) (a : Nat) : (l.foldl State.rowCleared s).word a = s.word a :=
  State.word_of_regs ((Only.rowsCleared s l).2.2 .regs (by decide)) a

theorem State.rowsCleared_miss (s : State) (l : List Nat) (k : Nat) :
    (l.foldl State.rowCleared s).edu.miss.nat k =
      if k ∈ l ∧ bitOf (s.rd F.EDU_FAULT_LASER_FAULT) k = false then 0 else s.edu.miss.nat k := by
  induction l generalizing s with
  | nil => simp
  | cons r l ih =>
    have hr : (s.rowCleared r).rd F.EDU_FAULT_LASER_FAULT = s.rd F.EDU_FAULT_LASER_FAULT :=
      State.rd_of_word (State.word_of_regs (by simp) _)
    rw [List.foldl_cons, ih, hr, State.rowCleared_miss]
    rcases eq_or_ne k r with rfl | hk
    · by_cases hb : bitOf (s.rd F.EDU_FAULT_LASER_FAULT) k = false <;> simp [hb]
    · simp [hk]

/-! ### The boost -/

theorem Only.startL1 (s : State) : Only [.stu] s s.startL1 :=
  ⟨by simp, by simp, fun p hp => by cases p <;> simp_all [Part.same]⟩

/-- L1 as the boost restarts: in PROFILE, from the node's voltage and its last difference (R260, R262). -/
def State.restartedL1 (s : State) : Loop :=
  s.stu.l1.start (256 * (s.rd F.EDU_HV_LIM_HV_MAX : Int)) (s.rd F.EDU_HV_HV : Nat) (s.stu.l1.meas - s.stu.l1.measPrev)
    (s.flag (F.CEN_CTL_MODE 1))

theorem State.startL1_stu (s : State) : s.startL1.stu = { s.stu with l1 := s.restartedL1 } := rfl

/-- L1's restart depends on the STU's state, the node's voltage, its limit and L1's MODE. -/
theorem State.restartedL1_of {s u : State} (hs : u.stu = s.stu)
    (hw : ∀ a ∈ [F.EDU_HV_LIM_HV_MAX.addr, F.EDU_HV_HV.addr, (F.CEN_CTL_MODE 1).addr], u.word a = s.word a) :
    u.restartedL1 = s.restartedL1 := by
  unfold State.restartedL1
  rw [hs, State.rd_of_word (f := F.EDU_HV_LIM_HV_MAX) (hw _ (by decide)), State.rd_of_word (f := F.EDU_HV_HV) (hw _ (by decide)),
    State.flag_of_word (f := F.CEN_CTL_MODE 1) (hw _ (by decide))]

theorem State.chgEval_diodeFlt (s : State) : s.chgEval.edu.diodeFlt = s.edu.diodeFlt ∧ s.chgEval.edu.miss = s.edu.miss := by
  unfold State.chgEval
  rw [(State.safEval_frame _).2.2.2.2.1]
  split <;> exact ⟨rfl, rfl⟩

/-! ### The write -/

/-- The rows whose LASER_FAULT a word of EDU_FAULT holds. -/
def faultRows (old : Word) : List Nat := setBits (bitsOf old.toNat 7 0) 8

/-- The state after a write of EDU_FAULT that leaves the word `w`, before the response. -/
def State.faultWritten (s : State) (w : Word) : State := (s.setWord 0x2001 w).faultCleared (s.word 0x2001)

theorem State.mem_faultRows (s : State) {r : Nat} (h : r < 8) :
    r ∈ faultRows (s.word 0x2001) ↔ bitOf (s.rd F.EDU_FAULT_LASER_FAULT) r = true := by
  simp [faultRows, setBits, h, State.rd, F.EDU_FAULT_LASER_FAULT]

/-- The state after the rows have been judged, which begins every write of EDU_FAULT. -/
def State.rowsWritten (s : State) (w : Word) : State :=
  (faultRows (s.word 0x2001)).foldl State.rowCleared (s.setWord 0x2001 w)

theorem Only.rowsWritten (s : State) (w : Word) : Only [.regs, .edu] s (s.rowsWritten w) :=
  (Only.setWord s _ w).comp (Only.rowsCleared _ _) (by decide) (by decide)

theorem State.rowsWritten_word (s : State) (w : Word) (a : Nat) :
    (s.rowsWritten w).word a = if a = 0x2001 then w else s.word a :=
  (State.rowsCleared_word _ _ a).trans (word_setWord ..)

theorem State.rowsWritten_miss (s : State) (w : Word) {r : Nat} (h : r < 8) :
    (s.rowsWritten w).edu.miss.nat r =
      if bitOf (s.rd F.EDU_FAULT_LASER_FAULT) r && !bitOf w.toNat r then 0 else s.edu.miss.nat r := by
  have hw : bitOf ((s.setWord 0x2001 w).rd F.EDU_FAULT_LASER_FAULT) r = bitOf w.toNat r := by
    have hb : (s.setWord 0x2001 w).word 0x2001 = w := by rw [word_setWord, if_pos rfl]
    show bitOf (bitsOf ((s.setWord 0x2001 w).word 0x2001).toNat 7 0) r = _
    rw [hb, bitOf_bitsOf_zero _ _ _ (by omega)]
  unfold State.rowsWritten
  rw [State.rowsCleared_miss]
  simp only [s.mem_faultRows h, hw, Bool.and_eq_true, Bool.not_eq_true']
  rfl

theorem State.rowsWritten_boostFault (s : State) (w : Word) :
    (s.rowsWritten w).flag F.EDU_FAULT_BOOST_FAULT = bitOf w.toNat 18 := by
  rw [F.EDU_FAULT_BOOST_FAULT, State.flag_eq_bitOf, State.rowsWritten_word, if_pos rfl]

theorem State.faultWritten_eq (s : State) (w : Word) :
    s.faultWritten w = if bitOf (s.word 0x2001).toNat 18 && !(s.rowsWritten w).flag F.EDU_FAULT_BOOST_FAULT
      then (s.rowsWritten w).startL1.chgEval else s.rowsWritten w := rfl

/-- A write that clears no boost fault judges the rows alone. -/
theorem State.faultWritten_of_no_restart {s : State} {w : Word}
    (h : s.flag F.EDU_FAULT_BOOST_FAULT = false ∨ bitOf w.toNat 18 = true) : s.faultWritten w = s.rowsWritten w := by
  have hb : bitOf (s.word 0x2001).toNat 18 = s.flag F.EDU_FAULT_BOOST_FAULT := (s.flag_eq_bitOf 0x2001 18).symm
  have hf : (bitOf (s.word 0x2001).toNat 18 && !(s.rowsWritten w).flag F.EDU_FAULT_BOOST_FAULT) = false := by
    rw [State.rowsWritten_boostFault, hb]
    rcases h with h | h <;> simp [h]
  rw [State.faultWritten_eq, hf, if_neg Bool.false_ne_true]

/-- A write that clears the boost fault restarts L1 and judges charging as well. -/
theorem State.faultWritten_of_restart {s : State} {w : Word} (h : s.flag F.EDU_FAULT_BOOST_FAULT = true)
    (hw : bitOf w.toNat 18 = false) : s.faultWritten w = (s.rowsWritten w).startL1.chgEval := by
  have hb : bitOf (s.word 0x2001).toNat 18 = s.flag F.EDU_FAULT_BOOST_FAULT := (s.flag_eq_bitOf 0x2001 18).symm
  have hf : (bitOf (s.word 0x2001).toNat 18 && !(s.rowsWritten w).flag F.EDU_FAULT_BOOST_FAULT) = true := by
    rw [State.rowsWritten_boostFault, hb, h, hw]
    rfl
  rw [State.faultWritten_eq, hf, if_pos rfl]

theorem State.diodeRecover_of_no_fault {s : State} (h : s.edu.diodeFlt = false) : s.diodeRecover = s := by
  simp [State.diodeRecover, h]

theorem State.faultWritten_diodeFlt (s : State) (w : Word) : (s.faultWritten w).edu.diodeFlt = s.edu.diodeFlt := by
  have hr : (s.rowsWritten w).edu.diodeFlt = s.edu.diodeFlt :=
    State.fold_keeps (fun u : State => u.edu.diodeFlt) _ State.rowCleared_diodeFlt _ _
  rw [State.faultWritten_eq]
  split
  · exact ((State.chgEval_diodeFlt _).1.trans (by simp)).trans hr
  · exact hr

/-- A write of EDU_FAULT without a diode fault in force. -/
theorem State.hostWrite_fault {s : State} (h : s.portOpen) (hd : s.edu.diodeFlt = false) (t : Nat) (d : Word) :
    ∃ x, s.hostWrite t 0x2001 d =
      .next (((s.begin t).faultWritten ((s.begin t).mixed 0x2001 d)).respond ⟨.ok, 0x2001, x⟩ s.mgmt.resp) := by
  have hm : multiOf 0x2001 = none := rfl
  have hr : (s.begin t).ruleOf ((s.begin t).poke 0x2001 d) 0x2001 d =
      (.ok, (s.begin t).faultWritten ((s.begin t).mixed 0x2001 d)) := by
    rw [State.poke_of_one_word _ hm]
    have hu : ((s.begin t).faultWritten ((s.begin t).mixed 0x2001 d)).edu.diodeFlt = false :=
      (State.faultWritten_diodeFlt _ _).trans hd
    exact congrArg (Prod.mk Status.ok) (State.diodeRecover_of_no_fault hu)
  exact ⟨_, State.hostWrite_of_register h (fs := [⟨19, 19, .w1c, 0⟩, ⟨18, 18, .w1c, 0⟩, ⟨17, 17, .w1c, 0⟩, ⟨15, 8, .w1c, 0⟩,
    ⟨7, 0, .w1c, 0⟩]) rfl rfl t d (State.writeReg_of_ok hm hr)⟩

end Sys2Proof.Machine

/-! The commands of the boost and its monitors, one by one. -/

namespace Sys2Proof.Machine

/-- A command whose condition does not hold completes and changes nothing but the instant. -/
theorem completes_of_next {c : Instr} {s : State} {t : Nat} (h : exec c s = .next (s.begin t)) (ps : List Part) :
    Completes c t s ps fun _ => True :=
  ⟨_, h, Only.refl _ _, trivial⟩

/-! ### Monitors -/

/-- HV_OV: an over-voltage stops the boost. -/
theorem hvOv_completes {s : State} (t : Nat) (h : s.dev ≠ .reset) :
    CompletesAt (.hvOv t) t s [.edu] [F.EDU_FAULT_HV_OV.addr] fun u =>
      u.flag F.EDU_FAULT_HV_OV = true ∧ u.edu = { s.edu with ovStop := true, swSince := none, hvBurst := none } := by
  have he : exec (.hvOv t) s = .next (((s.begin t).put F.EDU_FAULT_HV_OV true).modEdu fun e =>
      { e with ovStop := true, swSince := none, hvBurst := none }) := by
    simp [exec, execHvOv, h]
  refine ⟨_, he, (Only.put _ _ _).comp (Only.modEdu _ _) (by decide) (by decide), fun a ha => ?_, ?_, ?_⟩
  · rw [modEdu_word, word_put_ne _ _ _ _ (by simpa using ha), begin_word]
  · rw [modEdu_flag, flag_put _ _ _ rfl (by decide)]
  · simp

/-- The state in which a fault of the boost or the governor has been flagged and told, and charging is judged again. -/
def State.boostStopped (s : State) (f : Fld) (code : Nat) (cls : EvClass) : State :=
  ((s.put f true).raise code cls 0).chgEval

theorem State.boostStopped_only (s : State) (f : Fld) (code : Nat) (cls : EvClass) :
    Only (.regs :: .edu :: safParts) s (s.boostStopped f code cls) :=
  ((Only.put s f true).comp (Only.raise _ code cls 0) (by decide) (by decide)).trans (Only.chgEval _)

theorem State.boostStopped_word (s : State) (f : Fld) (code : Nat) (cls : EvClass) {a : Nat} (h : a ∉ f.addr :: safWords) :
    (s.boostStopped f code cls).word a = s.word a := by
  rw [List.mem_cons, not_or] at h
  have he : a ∉ evWords := fun e => h.2 (List.mem_cons_of_mem _ e)
  rw [State.boostStopped, State.chgEval_word _ h.2, State.raise_word _ _ _ _ he, word_put_ne _ _ _ _ h.1]

/-- A flag outside the counters of events and demands is set, charging is forbidden, and switching has stopped, where the flag
forbids charging. -/
theorem State.boostStopped_stops (s : State) (f : Fld) (code : Nat) (cls : EvClass) (hw : f.addr ∉ safWords)
    (hf : f.lo = f.hi) (hh : f.hi < 20) (hc : ∀ u : State, u.flag f = true → u.chgOk = false) :
    (s.boostStopped f code cls).flag f = true ∧
    (s.boostStopped f code cls).edu = { s.edu with swSince := none, hvBurst := none } ∧
    (s.boostStopped f code cls).chgOk = false := by
  have he : f.addr ∉ evWords := fun e => hw (List.mem_cons_of_mem _ e)
  have h1 : ((s.put f true).raise code cls 0).flag f = true :=
    (State.flag_of_word (State.raise_word _ _ _ _ he)).trans (flag_put s f true hf hh)
  have h2 : (s.boostStopped f code cls).flag f = true := (State.flag_of_word (State.chgEval_word _ hw)).trans h1
  refine ⟨h2, ?_, hc _ h2⟩
  rw [State.boostStopped, State.chgEval_edu (hc _ h1)]
  simp

/-- BOOST_FAULT once 10 ms of switching have left EDU_HV below half its target. -/
theorem boostFault_completes {s : State} (t : Nat) {x : Nat} (hx : s.edu.swSince = some x) (hc : x + 10000000 ≤ (s.begin t).clk)
    (hv : 2 * s.rd F.EDU_HV_HV < s.rd F.EDU_HV_SET_HV) :
    CompletesAt (.boostFault t) t s (.edu :: safParts) (F.EDU_FAULT_BOOST_FAULT.addr :: safWords) fun u =>
      u.flag F.EDU_FAULT_BOOST_FAULT = true ∧ u.edu = { s.edu with swSince := none, hvBurst := none } ∧ u.chgOk = false := by
  have hb : (s.begin t).edu.swSince = some x := hx
  have hlt : Nat.blt (2 * s.rd F.EDU_HV_HV) (s.rd F.EDU_HV_SET_HV) = true := by rwa [Nat.blt_eq]
  have he : exec (.boostFault t) s = .next (((s.begin t).modEdu fun e => { e with swSince := none, hvBurst := none }).boostStopped
      F.EDU_FAULT_BOOST_FAULT 0x15 .fault) := by
    dsimp only [exec, execBoostFault]
    rw [hb, Option.any_some, Nat.ble_eq_true_of_le hc, begin_rd, begin_rd, hlt, Bool.and_self, if_pos rfl, State.boostStopped]
  refine ⟨_, he, (Only.modEdu _ _).comp (State.boostStopped_only _ _ _ _) (by decide) (by decide), fun a ha => ?_, ?_⟩
  · rw [State.boostStopped_word _ _ _ _ ha, modEdu_word, begin_word]
  · exact State.boostStopped_stops _ _ _ _ (by decide) rfl (by decide) fun u hu => State.chgOk_of_boostFault hu

/-- A governor stall that is not noted yet is GOV_TRIP, and charging is forbidden until reset (R115). -/
theorem governorTrip_completes {s : State} (t : Nat) (h : s.dev ≠ .reset) (hg : s.govTrip = false) :
    CompletesAt (.stallMonitorTrip t .governor) t s (.edu :: safParts) (F.EDU_STATUS_GOV_TRIP.addr :: safWords) fun u =>
      u.govTrip = true ∧ u.edu = { s.edu with swSince := none, hvBurst := none } ∧ u.chgOk = false := by
  have hb : (s.begin t).govTrip = false := hg
  have he : exec (.stallMonitorTrip t .governor) s = .next ((s.begin t).boostStopped F.EDU_STATUS_GOV_TRIP 0x14 .safety) := by
    simp [exec, execStallMonitorTrip, h, hb, State.boostStopped]
  refine ⟨_, he, State.boostStopped_only _ _ _ _, fun a ha => ?_, ?_⟩
  · rw [State.boostStopped_word _ _ _ _ ha, begin_word]
  · exact State.boostStopped_stops _ _ _ _ (by decide) rfl (by decide) fun u hu => State.chgOk_of_govTrip hu

/-- A stall of the hard channel is Clamp with cause 6 (R290, R300). -/
theorem hardChannelTrip_completes {s : State} (t : Nat) (h : s.dev ≠ .reset) :
    CompletesAt (.stallMonitorTrip t .hardChannel) t s safParts safWords fun u =>
      u.saf.st = .clamp ∧ 6 ∈ u.saf.causes ∧ (s.saf.st ≠ .clamp → u.saf.retained = some 6 ∧ u.saf.clcause = 6) := by
  have he : exec (.stallMonitorTrip t .hardChannel) s =
      .next (((s.begin t).modSaf fun v => { v with causes := (6 :: v.causes).dedup }).clamp 6) := by
    simp [exec, execStallMonitorTrip, h]
  refine ⟨_, he, (Only.modSaf _ _).comp (Only.clamp _ _) (by decide) (by decide), fun a ha => ?_, ?_⟩
  · rw [State.clamp_word _ _ ha, modSaf_word, begin_word]
  · have hn := State.clamp_clampNote ((s.begin t).modSaf fun v => { v with causes := (6 :: v.causes).dedup }) 6
    have hst : ((s.begin t).modSaf fun v => { v with causes := (6 :: v.causes).dedup }).saf.st = s.saf.st := by simp
    have h6 : 6 ∈ (6 :: s.saf.causes).dedup := List.mem_dedup.mpr List.mem_cons_self
    rw [hst] at hn
    split at hn
    next hs =>
      simp only [State.clampNote, Prod.mk.injEq] at hn
      obtain ⟨h1, h2, -, -⟩ := hn
      exact ⟨h1.trans (hst.trans hs), by rw [h2]; exact h6, fun hne => absurd hs hne⟩
    next =>
      simp only [State.clampNote, Prod.mk.injEq] at hn
      obtain ⟨h1, h2, h3, h4⟩ := hn
      exact ⟨h1, by rw [h2]; exact h6, fun _ => ⟨h3, h4⟩⟩

/-! ### MOVING -/

/-- Once MOVING has dropped, the stationary ceilings apply. -/
theorem State.movingStop_moving {s : State} (h : s.edu.movSince.isSome = true) : s.movingStop.moving = false := by
  obtain ⟨m, hm⟩ := Option.isSome_iff_exists.mp h
  have hs : s.movingStop.edu.movSince = none := rfl
  have hl : s.movingStop.edu.movLast = some (m, s.clk) := by simp [State.movingStop, hm]
  have hc : Nat.blt s.clk s.clk = false := by rw [← Bool.not_eq_true, Nat.blt_eq]; exact Nat.lt_irrefl _
  unfold State.moving State.movingAt
  rw [hs, hl, (State.movingStop_frame s).1, Option.any_none, Option.any_some, hc, Bool.and_false, Bool.or_false]

/-- MOVING drops by a STOP token, or when no MOVING token has come for two excitation periods (R114). -/
theorem movingDrop_completes {s : State} (t : Nat) {stop : Bool}
    (h : stop = true ∨ ∃ x, s.edu.movTok = some x ∧ x + 2000 * s.rd F.STU_EXC_NEX ≤ (s.begin t).clk) :
    exec (.movingDrop t stop) s = .next (s.begin t).movingStop := by
  dsimp only [exec, execMovingDrop]
  refine if_pos ?_
  rcases h with rfl | ⟨x, hx, hc⟩
  · rfl
  · have hb : (s.begin t).edu.movTok = some x := hx
    rw [hb, Option.any_some, begin_rd, Nat.ble_eq_true_of_le hc, Bool.or_true]

/-! ### L1 -/

/-- CHARGE_PWM_EVENT with the boost started: L1's sample decides on the burst (R105, R257, R258). -/
theorem chargePwmEvent_completes {s : State} (t : Nat) (h : s.edu.started = true) :
    let b := s.begin t
    let p := (b.takeBank 1).loopPar 1
    let l := s.stu.l1.sample p true (s.rd F.EDU_HV_HV : Nat)
    let un : Int := if l.below p then 1 else if l.above p then 0 else l.u
    let ov := s.edu.ovStop && Nat.ble (s.rd F.EDU_HV_SET_HV) (s.rd F.EDU_HV_HV)
    CompletesAt (.chargePwmEvent t) t s [.edu, .stu, .hk] [(F.CEN_CTL_ABANK 1).addr, (F.CEN_SPT_SPT 1).addr] fun u =>
      u.stu = { s.stu with l1 := { l with u := un } } ∧ u.hk = { s.hk with pwmAt := some b.clk } ∧ u.edu.ovStop = ov ∧
      u.edu.swSince = (if un = 1 ∧ s.chgOk = true ∧ ov = false then some (s.edu.swSince.getD b.clk) else none) ∧
      u.edu.hvBurst = (if un = 1 ∧ s.chgOk = true ∧ ov = false then some ⟨b.clk, s.rd (F.CEN_L1_DUTY_NP (b.bselOf 1)),
        2 * s.rd (F.CEN_L1_WIDTH_WIDTH (b.bselOf 1))⟩ else none) := by
  intro b p l un ov
  have hs : (b.sampleL1 (b.rd F.EDU_HV_HV)).stu = { s.stu with l1 := { l with u := un } } := b.sampleL1_stu _
  have hu : (b.sampleL1 (b.rd F.EDU_HV_HV)).stu.l1.u = un := by rw [hs]
  have hc : b.chgOk = s.chgOk := State.chgOk_of rfl rfl rfl
  have hon : ((un == 1 && b.chgOk && !ov) = true) = (un = 1 ∧ s.chgOk = true ∧ ov = false) := by
    rw [hc]
    simp only [Bool.and_eq_true, beq_iff_eq, Bool.not_eq_true', and_assoc]
  refine ⟨_, exec_chargePwmEvent h t, State.pwmDone_only _, fun a ha => State.pwmDone_word _ ha, ?_⟩
  dsimp only [State.pwmDone]
  rw [hu]
  refine ⟨hs, ?_, rfl, ?_, ?_⟩
  · simp [b]
  · simp only [← hon]
    simp [ov, b]
  · simp only [← hon]
    simp [ov, b]

/-- URGENT_CONVERSION once it is due: it delays or aborts a round conversion, and gives EDU_HV (R500). -/
theorem urgentConversion_completes {s : State} (t raw : Nat) {p : Nat} (hp : s.hk.pwmAt = some p) (hr : s.hk.rounds = true)
    (hd : p + s.rd F.CTL_HK_URG_URGDLY ≤ (s.begin t).clk) :
    let b := s.begin t
    CompletesAt (.urgentConversion t raw) t s [.hk, .free]
      [F.CTL_HK_ABORT_COUNT.addr, F.CTL_HK_URGCNT_COUNT.addr, 0xD100, 0xD140, F.EDU_HV_HV.addr] fun u =>
        let late := s.hk.todo ≠ [] ∧ b.clk < s.hk.convAt + s.convNs
        u.hk = { s.hk with pwmAt := none, urgAt := some b.clk, convAt := if late then b.clk + 1000 else s.hk.convAt } ∧
        u.free = s.free ∧ u.rd F.CTL_HK_ABORT_COUNT =
          (if late ∧ s.hk.convAt ≤ b.clk then satN 20 (s.rd F.CTL_HK_ABORT_COUNT + 1) else s.rd F.CTL_HK_ABORT_COUNT) ∧
        u.rd F.CTL_HK_URGCNT_COUNT = satN 20 (s.rd F.CTL_HK_URGCNT_COUNT + 1) ∧
        u.rd (F.CTL_HK_RAW_CORR 0) = s.corrOf raw ∧ u.rd F.EDU_HV_HV = rdiv (5 * s.corrOf raw) 32 % 1024 := by
  intro b
  have hlate : (b.urgentDelays = true) = (s.hk.todo ≠ [] ∧ b.clk < s.hk.convAt + s.convNs) := by
    have ht : b.hk = s.hk := rfl
    have hn : b.convNs = s.convNs := rfl
    simp [State.urgentDelays, Nat.blt_eq, ht, hn]
  have hcorr : b.corrOf raw = s.corrOf raw := State.corrOf_of_boot rfl raw
  obtain ⟨hab, hur⟩ := b.urgentDone_counts raw
  obtain ⟨hco, hhv⟩ := b.urgentDone_values raw
  have ho := b.urgentDone_only raw
  refine ⟨_, exec_urgentConversion t raw hp hr hd, ho.mono (by decide), fun a ha => b.urgentDone_word raw ha, ?_,
    ho.2.2 .free (by decide), ?_, hur, hco.trans hcorr, hcorr ▸ hhv⟩
  · rw [b.urgentDone_hk raw, Hk.urgent]
    simp only [hlate]
    rfl
  · rw [hab]
    simp only [Bool.and_eq_true, hlate, Nat.ble_eq]
    rfl

/-- BOOST_FAULT is not judged while the boost does not switch, nor with EDU_HV at half its target or above. -/
theorem boostFault_idle {s : State} (t : Nat) (h : s.edu.swSince = none ∨ s.rd F.EDU_HV_SET_HV ≤ 2 * s.rd F.EDU_HV_HV) :
    exec (.boostFault t) s = .next (s.begin t) := by
  dsimp only [exec, execBoostFault]
  refine if_neg ?_
  rw [begin_rd, begin_rd, Bool.and_eq_true, Nat.blt_eq]
  rintro ⟨hs, hv⟩
  rcases h with h | h
  · have hb : (s.begin t).edu.swSince = none := h
    rw [hb] at hs
    cases hs
  · exact absurd hv (not_lt.mpr h)

/-- A governor stall that is noted already changes nothing. -/
theorem governorTrip_idle {s : State} (t : Nat) (h : s.dev ≠ .reset) (hg : s.govTrip = true) :
    exec (.stallMonitorTrip t .governor) s = .next (s.begin t) := by
  have hb : (s.begin t).govTrip = true := hg
  simp [exec, execStallMonitorTrip, h, hb]

/-! ### Writes of EDU_FAULT -/

theorem exec_laserFaultClear (t : Nat) (d : Word) (s : State) : exec (.laserFaultClear t d) s = s.hostWrite t 0x2001 d := rfl

theorem exec_boostFaultClear (t : Nat) (d : Word) (s : State) : exec (.boostFaultClear t d) s = s.hostWrite t 0x2001 d := rfl

/-- A write that clears no boost fault: the word, and the misses of the rows (R23, R101). -/
theorem laserFaultClear_completes {s : State} (t : Nat) (d : Word) (h : s.portOpen) (hd : s.edu.diodeFlt = false)
    (hn : s.flag F.EDU_FAULT_BOOST_FAULT = false ∨ bitOf ((s.begin t).mixed 0x2001 d).toNat 18 = true) :
    let w := (s.begin t).mixed 0x2001 d
    CompletesAt (.laserFaultClear t d) t s [.mgmt, .edu] [0x2001] fun u =>
      s.answered u 0x2001 .ok ∧ u.word 0x2001 = w ∧ ∀ r, r < 8 →
        u.edu.miss.nat r = if bitOf (s.rd F.EDU_FAULT_LASER_FAULT) r && !bitOf w.toNat r then 0 else s.edu.miss.nat r := by
  intro w
  have hw : (s.begin t).faultWritten w = (s.begin t).rowsWritten w := State.faultWritten_of_no_restart hn
  obtain ⟨x, hx⟩ := State.hostWrite_fault h hd t d
  rw [hw] at hx
  refine ⟨_, (exec_laserFaultClear t d s).trans hx,
    Only.respond ((Only.rowsWritten _ w).mono (by decide)) (by decide) _ _, fun a ha => ?_,
    State.respond_answered s _ 0x2001 .ok x, ?_, fun r hr => State.rowsWritten_miss (s.begin t) w hr⟩
  · rw [State.respond_word, State.rowsWritten_word, if_neg (by simpa using ha), begin_word]
  · rw [State.respond_word, State.rowsWritten_word, if_pos rfl]

/-- A write that clears the boost fault leaves the parts that the rows, L1 and charging have no share in (R106). -/
theorem State.restart_only (s : State) (w : Word) :
    Only (.regs :: .edu :: .stu :: safParts) s (s.rowsWritten w).startL1.chgEval :=
  ((Only.rowsWritten s w).comp (Only.startL1 _) (rs := [.regs, .edu, .stu]) (by decide) (by decide)).comp (Only.chgEval _)
    (by decide) (by decide)

theorem State.restart_word (s : State) (w : Word) {a : Nat} (h : a ∉ safWords) :
    (s.rowsWritten w).startL1.chgEval.word a = if a = 0x2001 then w else s.word a :=
  (State.chgEval_word _ h).trans (State.rowsWritten_word s w a)

theorem State.restart_miss (s : State) (w : Word) :
    (s.rowsWritten w).startL1.chgEval.edu.miss = (s.rowsWritten w).edu.miss :=
  (State.chgEval_diodeFlt _).2

/-- L1 restarts from the state before the write. -/
theorem State.restart_stu (s : State) (w : Word) :
    (s.rowsWritten w).startL1.chgEval.stu = { s.stu with l1 := s.restartedL1 } := by
  have hs : (s.rowsWritten w).stu = s.stu := (Only.rowsWritten s w).2.2 .stu (by decide)
  have hl : (s.rowsWritten w).restartedL1 = s.restartedL1 := State.restartedL1_of hs fun a ha => by
    rw [State.rowsWritten_word, if_neg]
    rintro rfl
    exact absurd ha (by decide)
  rw [(Only.chgEval _).2.2 .stu (by decide), State.startL1_stu, hs, hl]

/-- A write that clears the boost fault: the word, the misses, and L1's restart (R101, R106). -/
theorem boostFaultClear_completes {s : State} (t : Nat) (d : Word) (h : s.portOpen) (hd : s.edu.diodeFlt = false)
    (hb : s.flag F.EDU_FAULT_BOOST_FAULT = true) (hc : bitOf ((s.begin t).mixed 0x2001 d).toNat 18 = false) :
    let w := (s.begin t).mixed 0x2001 d
    CompletesAt (.boostFaultClear t d) t s (.edu :: .stu :: safParts) (0x2001 :: safWords) fun u =>
      s.answered u 0x2001 .ok ∧ u.word 0x2001 = w ∧ (∀ r, r < 8 →
        u.edu.miss.nat r = if bitOf (s.rd F.EDU_FAULT_LASER_FAULT) r && !bitOf w.toNat r then 0 else s.edu.miss.nat r) ∧
      u.flag F.EDU_FAULT_BOOST_FAULT = false ∧ u.stu = { s.stu with l1 := s.restartedL1 } := by
  intro w
  have hw : (s.begin t).faultWritten w = ((s.begin t).rowsWritten w).startL1.chgEval := State.faultWritten_of_restart hb hc
  obtain ⟨x, hx⟩ := State.hostWrite_fault h hd t d
  rw [hw] at hx
  have hword : ((s.begin t).rowsWritten w).startL1.chgEval.word 0x2001 = w :=
    (State.restart_word _ w (by decide)).trans (if_pos rfl)
  refine ⟨_, (exec_boostFaultClear t d s).trans hx, Only.respond ((s.begin t).restart_only w) (by decide) _ _, fun a ha => ?_,
    State.respond_answered s _ 0x2001 .ok x, hword, fun r hr => ?_, ?_, (s.begin t).restart_stu w⟩
  · rw [List.mem_cons, not_or] at ha
    rw [State.respond_word, State.restart_word _ _ ha.2, if_neg ha.1, begin_word]
  · have hm := congrArg (fun m => m.nat r) ((s.begin t).restart_miss w)
    exact hm.trans (State.rowsWritten_miss (s.begin t) w hr)
  · rw [F.EDU_FAULT_BOOST_FAULT, State.flag_eq_bitOf, State.respond_word, hword]
    exact hc

/-- Settles O37: the commands above, the events whose condition does not hold, and the two writes of EDU_FAULT. -/
theorem boostItsMonitorsAndFaultWrites : Obligations.BoostItsMonitorsAndFaultWrites := by
  refine ⟨fun s t => ⟨?_, ?_, ?_, ?_, ?_, ?_, ?_, ?_, ?_⟩, fun s t d h hd => ⟨fun hn => ?_, fun hb hw => ?_⟩⟩
  · exact chargePwmEvent_completes t
  · exact fun h => completes_of_next (by simp [exec, execChargePwmEvent, h]) _
  · exact fun raw p hp hr hc => urgentConversion_completes t raw hp hr hc
  · exact hvOv_completes t
  · exact fun x hx hc hv => boostFault_completes t hx hc hv
  · exact fun h => completes_of_next (boostFault_idle t h) _
  · exact fun h => ⟨governorTrip_completes t h, fun hg => completes_of_next (governorTrip_idle t h hg) _,
      hardChannelTrip_completes t h⟩
  · exact fun stop h => ⟨_, movingDrop_completes t h, (Only.modEdu _ _).mono (by simp), rfl,
      fun hm => State.movingStop_moving (s := s.begin t) hm⟩
  · exact fun h => completes_of_next (by simp [exec, execMovingDrop, h]) _
  · exact laserFaultClear_completes t d h hd hn
  · exact boostFaultClear_completes t d h hd hb hw

end Sys2Proof.Machine

/-! The device from command to command (R46, R504, R505): every command answers a next state at no earlier instant, and RESET and
THERMAL are left by their own commands alone. -/

namespace Sys2Proof.Machine

/-! ### A device that is down -/

/-- RESET or THERMAL, in which the device is down; none for a device that runs or boots (R46). -/
def DevState.down (d : DevState) : Option DevState := if d = .reset ∨ d = .thermal then some d else none

@[simp] theorem ite_degraded_down (d : DevState) : (if d = .run then .degraded else d).down = d.down := by
  cases d <;> rfl

@[simp] theorem State.portGoesOff_down (s : State) (p : Nat) : (s.portGoesOff p).dev.down = s.dev.down := by
  unfold State.portGoesOff
  split <;> simp

@[simp] theorem State.portFails_down (s : State) (p : Nat) : (s.portFails p).dev.down = s.dev.down := by
  dsimp only [State.portFails]
  (repeat' split) <;> simp

@[simp] theorem State.spareLost_down (s : State) (r : Nat) : (s.spareLost r).dev.down = s.dev.down := by
  dsimp only [State.spareLost]
  split <;> simp

@[simp] theorem State.selfCheckFails_down (s : State) (u : Nat) : (s.selfCheckFails u).dev.down = s.dev.down := by
  dsimp only [State.selfCheckFails]
  (repeat' split) <;> simp

@[simp] theorem State.judgeSpare_down (s : State) (r : Nat) (ok : Bool) : (s.judgeSpare r ok).dev.down = s.dev.down := by
  dsimp only [State.judgeSpare]
  split <;> simp

@[simp] theorem State.judgeCheck_down (s : State) (w : GWin) (post : WinPost) (e : Nat × PWin) :
    (s.judgeCheck w post e).dev.down = s.dev.down := by
  dsimp only [State.judgeCheck]
  (repeat' split) <;> simp

@[simp] theorem State.evalCal_down (s : State) (w : GWin) (post : WinPost) : (s.evalCal w post).dev.down = s.dev.down := by
  dsimp only [State.evalCal]
  (repeat' split) <;> simp [State.fold_keeps fun u : State => u.dev.down]

@[simp] theorem State.closeGroup_down (s : State) (g : Nat) (w : GWin) : (s.closeGroup g w).dev.down = s.dev.down := by
  dsimp only [State.closeGroup]
  split <;> simp

@[simp] theorem State.calOff_down (s : State) (p : Nat) : (s.calOff p).dev.down = s.dev.down := by
  simp [State.calOff]

@[simp] theorem State.calPortFails_down (s : State) (p : Nat) : (s.calPortFails p).dev.down = s.dev.down := by
  dsimp only [State.calPortFails]
  (repeat' split) <;> simp

@[simp] theorem State.calSpareFails_down (s : State) (r : Nat) : (s.calSpareFails r).dev.down = s.dev.down := by
  dsimp only [State.calSpareFails]
  split <;> simp

@[simp] theorem State.calFailures_down (s : State) (bad : List CalElem) : (s.calFailures bad).dev.down = s.dev.down := by
  simp [State.calFailures, State.fold_keeps fun u : State => u.dev.down, State.portEvents]

/-! ### Outcomes -/

/-- An outcome answers a next state with the queue as it was, at no earlier instant, in which a device that was in RESET or
THERMAL is so still, or in RESET. -/
def GoesOn (s : State) (o : Host.Outcome State Fault Refusal) : Prop :=
  ∃ t, o = .next t ∧ t.pending = s.pending ∧ s.clk ≤ t.clk ∧
    (s.dev.down = none ∨ t.dev = .reset ∨ t.dev.down = s.dev.down)

@[simp] theorem goesOn_next (s t : State) : GoesOn s (.next t) ↔
    t.pending = s.pending ∧ s.clk ≤ t.clk ∧ (s.dev.down = none ∨ t.dev = .reset ∨ t.dev.down = s.dev.down) :=
  ⟨fun ⟨_, e, h⟩ => Host.Outcome.next.inj e ▸ h, fun h => ⟨t, rfl, h⟩⟩

@[simp] theorem goesOn_ite (s : State) (c : Prop) [Decidable c] (a b : Host.Outcome State Fault Refusal) :
    GoesOn s (if c then a else b) ↔ if c then GoesOn s a else GoesOn s b := by
  split <;> rfl

/-- The state that an operation answers beside a value, once the pair is named. -/
theorem goesOn_of_pair {α : Type} {s u : State} {p : α × State} {a : α} (h : GoesOn s (.next p.2)) (e : p = (a, u)) :
    GoesOn s (.next u) := by
  rw [e] at h
  exact h

/-! ### Frames of the management port -/

theorem State.gate_goesOn {s u : State} (exempt : Bool) {judge : State → Verdict} (hu : GoesOn s (.next u))
    (h : GoesOn s (.next (judge u).next)) : GoesOn s (.next (u.gate exempt judge).next) := by
  unfold State.gate
  (repeat' split) <;> assumption

section
variable (s : State) (t : Nat)

theorem State.begin_goesOn : GoesOn s (.next (s.begin t)) := by simp

theorem State.frame_goesOn (addr : Addr) {judge : State → Verdict} (h : GoesOn s (.next (judge (s.begin t)).next)) :
    GoesOn s (s.frame t addr judge) := by
  rw [goesOn_next] at h
  dsimp only [State.frame]
  split
  · exact s.begin_goesOn t
  · simpa using h

theorem State.hostRead_goesOn (a : Nat) (hits : List MemHit) : GoesOn s (s.hostRead t a hits) := by
  refine s.frame_goesOn t _ (State.gate_goesOn _ (s.begin_goesOn t) ?_)
  split <;> simp

theorem State.hostWrite_goesOn (a : Nat) (w : Word) : GoesOn s (s.hostWrite t a w) := by
  refine s.frame_goesOn t _ (State.gate_goesOn _ (s.begin_goesOn t) ?_)
  split
  next => simp
  split
  next => simp
  next => exact goesOn_of_pair (a := ((s.begin t).writeReg a w).1) (by simp) rfl

theorem State.hostWriteAt_goesOn (ok : Bool) (a : Nat) (w : Word) : GoesOn s (s.hostWriteAt t ok a w) := by
  unfold State.hostWriteAt
  split
  · exact s.hostWrite_goesOn t a w
  · exact s.begin_goesOn t

theorem State.hostExec_goesOn (code : Nat) {start : State → Status × State}
    (h : GoesOn s (.next (start (s.begin t)).2)) : GoesOn s (s.hostExec t code start) := by
  refine s.frame_goesOn t _ (State.gate_goesOn _ (s.begin_goesOn t) ?_)
  split
  · exact s.begin_goesOn t
  · exact h

theorem execNop_goesOn (kind : FrameKind) (addr : Addr) : GoesOn s (execNop t kind addr s) :=
  s.frame_goesOn t _ (State.gate_goesOn _ (s.begin_goesOn t) (s.begin_goesOn t))

end

/-- Opening contexts of streams changes the compression engine alone. -/
theorem Only.openCtxs {s u : State} {l : List Nat} (e : s.openCtxs l = some u) : Only [.cmp] s u := by
  induction l generalizing s with
  | nil => exact Option.some.inj e ▸ Only.refl _ s
  | cons n l ih =>
    unfold State.openCtxs at e
    split at e
    · exact ih e
    · split at e
      · cases e
      next hv =>
        refine Only.trans ?_ (ih e)
        unfold State.openCtx at hv
        split at hv
        · cases hv
        · cases hv
          exact ⟨by simp, by simp, fun p hp => by cases p <;> simp_all [Part.same]⟩

@[simp] theorem State.openCtxs_getD_frame (s : State) (l : List Nat) :
    ((s.openCtxs l).getD s).clk = s.clk ∧ ((s.openCtxs l).getD s).pending = s.pending ∧
    ((s.openCtxs l).getD s).dev = s.dev := by
  cases e : s.openCtxs l with
  | none => exact ⟨rfl, rfl, rfl⟩
  | some u =>
    obtain ⟨hc, hp, h⟩ := Only.openCtxs e
    exact ⟨hc, hp, h .dev (by simp)⟩

/-- A message of a partner that a lane brings. -/
theorem goesOn_of_rxDlp {s u : State} {t lane typ : Nat} {src : EthSrc} {msg : List Word} {r : Option (Nat × Dlp)}
    (e : (s.begin t).rxDlp lane src typ msg = (r, u)) : GoesOn s (.next u) :=
  goesOn_of_pair (by simp) e

/-- A message of a neighbour in the chain. -/
theorem goesOn_of_rxChain {s u : State} {t : Nat} {hdr : ChainHdr} {ok : Bool} (e : (s.begin t).rxChain hdr = (ok, u)) :
    GoesOn s (.next u) :=
  goesOn_of_pair (by simp) e

section
variable (s : State) (t : Nat)

/-- The capture engine. -/
@[simp] theorem captureCommands_goesOn :
    GoesOn s (execTrigger t s) ∧ GoesOn s (execCaptureRecord t s) ∧ GoesOn s (execPosttExpiry t s) ∧
    GoesOn s (execAvgIntervalEnd t s) := by
  and_intros
  all_goals
    dsimp only [execTrigger, execCaptureRecord, execPosttExpiry, execAvgIntervalEnd]
    (repeat' split) <;> simp

/-- The module's memory and compression. -/
@[simp] theorem memoryCommands_goesOn :
    (∀ hits : List MemHit, GoesOn s (execScrubNowDone t hits s)) ∧
    (∀ (ctx : Nat) (hits : List MemHit), GoesOn s (execContextSwap t ctx hits s)) ∧
    (∀ hits : List MemHit, GoesOn s (execExportEnd t hits s)) := by
  and_intros
  all_goals
    dsimp only [execScrubNowDone, execContextSwap, execExportEnd]
    (intros; repeat' split) <;> simp

/-- The safety subsystem. -/
@[simp] theorem safetyCommands_goesOn :
    (∀ c : SafCh, GoesOn s (execZoneSetSwitch t c s)) ∧ (∀ key : Nat, GoesOn s (execTbridgeExpiry t key s)) ∧
    (∀ (c : SafCh) (cell : Nat), GoesOn s (execFreshnessExpiry t c cell s)) ∧
    (∀ row : Nat, GoesOn s (execChannelBWindowEnd t row s)) ∧ GoesOn s (execChannelAEvaluation t s) ∧
    (∀ c : SafCh, GoesOn s (execTrackingInterval t c s)) ∧ GoesOn s (execSafeReset t s) ∧
    (∀ outB rbLow rbHigh otherFell : Bool, GoesOn s (execOssdTest t outB rbLow rbHigh otherFell s)) ∧
    GoesOn s (execDeviceTelegram t s) ∧
    (∀ (path : Nat) (words : List Word) (line : List LineChar), GoesOn s (execPressTelegram t path words line s)) := by
  and_intros
  all_goals
    dsimp only [execZoneSetSwitch, execTbridgeExpiry, execFreshnessExpiry, execChannelBWindowEnd, execChannelAEvaluation,
      execTrackingInterval, execSafeReset, execOssdTest, execDeviceTelegram, execPressTelegram]
    (intros; repeat' split) <;> simp

/-- The sequencer. -/
@[simp] theorem sequencerCommands_goesOn :
    GoesOn s (execFire t s) ∧ GoesOn s (execListen t s) ∧ GoesOn s (execCal t s) ∧ GoesOn s (execWait t s) ∧
    GoesOn s (execMark t s) ∧ GoesOn s (execSync t s) ∧ GoesOn s (execSyncEvent t s) ∧ GoesOn s (execBranch t s) ∧
    GoesOn s (execPageImmediate t s) ∧ GoesOn s (execPageIssue t s) ∧ GoesOn s (execBattenExecute t s) := by
  and_intros
  all_goals
    dsimp only [execFire, execListen, execCal, execWait, execMark, execSync, execSyncEvent, execBranch, execPageImmediate,
      execPageIssue, execBattenExecute]
    (repeat' split) <;> simp

/-- Receivers, spares and histograms. -/
@[simp] theorem receiverCommands_goesOn :
    (∀ (unit : Nat) (lead : TdcCode) (trail hi : Option TdcCode) (bin : Option Int),
      GoesOn s (execComparatorEdge t unit lead trail hi bin s)) ∧ (∀ unit : Nat, GoesOn s (execReceiverClose t unit s)) ∧
    (∀ row : Nat, GoesOn s (execSpareSettled t row s)) ∧ (∀ row : Nat, GoesOn s (execVerificationDone t row s)) ∧
    (∀ unit : Nat, GoesOn s (execGateEnd t unit s)) ∧ (∀ port : Nat, GoesOn s (execBinning t port s)) := by
  and_intros
  all_goals
    dsimp only [execComparatorEdge, execReceiverClose, execSpareSettled, execVerificationDone, execGateEnd, execBinning]
    (intros; repeat' split) <;> simp

/-- The emitter drive. -/
@[simp] theorem emitterCommands_goesOn :
    (∀ checkDone : Bool, GoesOn s (execFireCommand t checkDone s)) ∧
    (∀ (row : Nat) (code : PulseCode) (bin : Int), GoesOn s (execStartEdge t row code bin s)) ∧
    (∀ row : Nat, GoesOn s (execStartDeadline t row s)) ∧
    (∀ (row : Nat) (m : BitVec 16), GoesOn s (execMpdReading t row m s)) ∧
    (∀ raw : Nat, GoesOn s (execUrgentConversion t raw s)) ∧
    (∀ unit : StallUnit, GoesOn s (execStallMonitorTrip t unit s)) := by
  and_intros
  all_goals
    dsimp only [execFireCommand, execStartEdge, execStartDeadline, execMpdReading, execUrgentConversion, execStallMonitorTrip]
    (intros; repeat' split) <;> simp

/-- Echoes, ambient light and the mirror loop. -/
@[simp] theorem echoCommands_goesOn :
    (∀ hits : List MemHit, GoesOn s (execEchoExtraction t hits s)) ∧ GoesOn s (execShotSet t s) ∧
    GoesOn s (execHistoryFrameEnd t s) ∧ GoesOn s (execAmbientSample t s) ∧
    (∀ ch : SenseCh, GoesOn s (execCicOutput t ch s)) ∧ (∀ ch : SenseCh, GoesOn s (execTurningPointEvent t ch s)) ∧
    GoesOn s (execKick t s) ∧ GoesOn s (execMstartExpiry t s) := by
  and_intros
  all_goals
    dsimp only [execEchoExtraction, execShotSet, execHistoryFrameEnd, execAmbientSample, execCicOutput, execTurningPointEvent,
      execKick, execMstartExpiry]
    (intros; repeat' split) <;> simp

/-- Frames and scan-out. -/
@[simp] theorem frameCommands_goesOn :
    GoesOn s (execSof t s) ∧ GoesOn s (execEof t s) ∧ GoesOn s (execPointRecordPlace t s) ∧
    (∀ n : Nat, GoesOn s (execAccwaitExpiry t n s)) ∧
    (∀ (n : Nat) (resend : Bool) (hits : List MemHit) (late : Bool), GoesOn s (execLineFetch t n resend hits late s)) := by
  and_intros
  all_goals
    dsimp only [execSof, execEof, execPointRecordPlace, execAccwaitExpiry, execLineFetch]
    (intros; repeat' split) <;> simp

/-- Lanes, the timebase, the chain and the network. -/
@[simp] theorem laneCommands_goesOn :
    (∀ lane : Nat, GoesOn s (execLaneStageAdvance t lane s)) ∧
    (∀ (lane : Nat) (frame : TrainFrame), GoesOn s (execTrainingFrame t lane frame s)) ∧
    (∀ lane : Nat, GoesOn s (execLaneStageTimeout t lane s)) ∧ GoesOn s (execTsnap t s) ∧
    (∀ (pll : Pll) (count : Nat) (missing : Bool) (phase : Int), GoesOn s (execLockWindow t pll count missing phase s)) ∧
    GoesOn s (execRetuneRelock t s) ∧ GoesOn s (execRetuneTimeout t s) ∧
    (∀ (k : Nat) (rising : Bool) (p : BitVec 8), GoesOn s (execTrigInEdge t k rising p s)) ∧
    (∀ (rising : Bool) (p : BitVec 8), GoesOn s (execFsyncInEdge t rising p s)) ∧ GoesOn s (execChainJoin t s) ∧
    (∀ line : Nat, GoesOn s (execTriggerBusEvent t line s)) ∧
    (∀ (lane : Nat) (ip : BitVec 32), GoesOn s (execArpRequestTimeout t lane ip s)) ∧
    (∀ (lane domain : Nat) (dataset : List Nat), GoesOn s (execPtpAnnounce t lane domain dataset s)) ∧
    (∀ (lane domain : Nat) (_twoStep : Bool) (master arrival : Nat),
      GoesOn s (execPtpSync t lane domain _twoStep master arrival s)) ∧
    (∀ lane domain departure arrival : Nat, GoesOn s (execPtpDelayResp t lane domain departure arrival s)) ∧
    (∀ (lane : Nat) (src : EthSrc) (msg : List Word), GoesOn s (execHello t lane src msg s)) := by
  and_intros
  all_goals
    dsimp only [execLaneStageAdvance, execTrainingFrame, execLaneStageTimeout, execTsnap, execLockWindow, execRetuneRelock,
      execRetuneTimeout, execTrigInEdge, execFsyncInEdge, execChainJoin, execTriggerBusEvent, execArpRequestTimeout,
      execPtpAnnounce, execPtpSync, execPtpDelayResp, execHello]
    (intros; repeat' split) <;> simp

/-- Boot, calibration and housekeeping. -/
@[simp] theorem bootCommands_goesOn :
    (∀ image : Image, GoesOn s (execBootVerify t image s)) ∧ (∀ elems : List CalElem, GoesOn s (execBootCal t elems s)) ∧
    (∀ spd : Spd, GoesOn s (execBootMem t spd s)) ∧ GoesOn s (execRecalEofTimeout t s) ∧
    (∀ elems : List CalElem, GoesOn s (execRecalRestart t elems s)) ∧ GoesOn s (execAttestDone t s) ∧
    (∀ ending : NvmEnd, GoesOn s (execNvmDone t ending s)) ∧ (∀ ch raw : Nat, GoesOn s (execConversionEnd t ch raw s)) ∧
    GoesOn s (execProfileSwitch t s) ∧ GoesOn s (execProfileEofTimeout t s) := by
  and_intros
  all_goals
    dsimp only [execBootVerify, execBootCal, execBootMem, execRecalEofTimeout, execRecalRestart, execAttestDone, execNvmDone,
      execConversionEnd, execProfileSwitch, execProfileEofTimeout]
    (intros; repeat' split) <;> simp

/-- Messages of partners. -/
@[simp] theorem partnerMessages_goesOn :
    (∀ (lane : Nat) (src : EthSrc) (msg : List Word), GoesOn s (execSelect t lane src msg s)) ∧
    (∀ (lane : Nat) (src : EthSrc) (msg : List Word), GoesOn s (execSub t lane src msg s)) ∧
    (∀ (lane : Nat) (src : EthSrc) (msg : List Word), GoesOn s (execBye t lane src msg s)) ∧
    (∀ (lane : Nat) (src : EthSrc) (msg : List Word), GoesOn s (execAccept t lane src msg s)) ∧
    (∀ (lane : Nat) (src : EthSrc) (msg : List Word), GoesOn s (execCommit t lane src msg s)) := by
  and_intros
  all_goals
    dsimp only [execSelect, execSub, execBye, execAccept, execCommit]
    intros
    split
    all_goals
      rename_i e
      have hu := (goesOn_next _ _).1 (goesOn_of_rxDlp e)
      (repeat' split) <;> simp [hu]

/-- Messages of the chain. -/
@[simp] theorem chainMessages_goesOn :
    (∀ hdr : ChainHdr, GoesOn s (execProbe t hdr s)) ∧
    (∀ (hdr : ChainHdr) (hold rtt head : Nat) (ofs : Int), GoesOn s (execEcho t hdr hold rtt head ofs s)) ∧
    (∀ (hdr : ChainHdr) (p : ChainParams), GoesOn s (execParams t hdr p s)) ∧
    (∀ (hdr : ChainHdr) (sync pg : Bool) (arg te : Nat), GoesOn s (execBatten t hdr sync pg arg te s)) ∧
    (∀ (hdr : ChainHdr) (line : Nat) (level : Bool) (stamp : Nat) (fine : BitVec 8),
      GoesOn s (execTbedge t hdr line level stamp fine s)) ∧
    (∀ (hdr : ChainHdr) (record : List Word), GoesOn s (execDove t hdr record s)) ∧
    (∀ (hdr : ChainHdr) (tsnap : Nat) (delta : Int) (origin : Nat), GoesOn s (execTimeset t hdr tsnap delta origin s)) := by
  and_intros
  all_goals
    dsimp only [execProbe, execEcho, execParams, execBatten, execTbedge, execDove, execTimeset]
    intros
    split
    all_goals
      rename_i e
      have hu := (goesOn_next _ _).1 (goesOn_of_rxChain e)
      (repeat' split) <;> simp [hu]

/-! ### The state of the device -/

theorem State.booting_iff : s.booting = true ↔ s.dev = .boot ∧ s.boot.failed = false := by
  simp [State.booting]

theorem execSeedingEnd_goesOn : GoesOn s (execSeedingEnd t s) := by
  dsimp only [execSeedingEnd]
  split
  · simp
  next h =>
    rw [Bool.or_eq_true, Bool.or_eq_true, not_or, not_or, Bool.not_eq_true', Bool.not_eq_false, State.booting_iff] at h
    obtain ⟨⟨⟨hb, -⟩, -⟩, -⟩ := h
    have hd : s.dev.down = none := by rw [show s.dev = .boot from hb]; rfl
    exact (goesOn_next _ _).2 ⟨by simp, by simp, .inl hd⟩

theorem execThermalTrip_goesOn (k : Nat) : GoesOn s (execThermalTrip t k s) := by
  dsimp only [execThermalTrip]
  split
  · simp
  next h =>
    rw [Bool.or_eq_true, Bool.or_eq_true, not_or, not_or, beq_iff_eq, beq_iff_eq] at h
    obtain ⟨⟨hr, ht⟩, -⟩ := h
    have hd : s.dev.down = none := if_neg (not_or.2 ⟨hr, ht⟩)
    exact (goesOn_next _ _).2 ⟨by simp, by simp, .inl hd⟩

/-! ### Reads of the tables -/

@[simp] theorem execPageLoadDone_goesOn (a : MemAccess) : GoesOn s (execPageLoadDone a s) := by
  dsimp only [execPageLoadDone]
  (repeat' split) <;> simp

@[simp] theorem execPageReload_goesOn (a : MemAccess) : GoesOn s (execPageReload a s) := by
  dsimp only [execPageReload]
  split
  · simp
  split
  next => simp
  all_goals
    rename_i e
    have hu := (goesOn_next s _).1 (goesOn_of_pair (by simp) e)
    (repeat' split) <;> simp [hu]

@[simp] theorem State.resetTo_dev (w : Word) : (s.resetTo w).dev = .reset := rfl

end

/-! ### All commands -/

/-- Every command but RESET_RELEASE keeps the queue, time and a device that is down. -/
theorem exec_goesOn (c : Instr) (s : State) (hc : ∀ t, c ≠ .resetRelease t) : GoesOn s (exec c s) := by
  cases c
  case nop => exact execNop_goesOn s _ _ _
  case read | evqRead | capRdata | fsoRdata | certDataRead => exact s.hostRead_goesOn _ _ _
  case write | pageSwitchBatten | syncReleaseBatten | arm | disarm | force | capClear | capSetupGo | fsoPin | fsoRel | fsoResend |
      exportGo | exportAbort | airidxWrite | rpeEhistWrite | selWrite | gainWrite | driveStopClear | laserFaultClear |
      boostFaultClear | targetWrite | lnkTbusSet | lnkTbusClr => exact s.hostWrite_goesOn _ _ _
  case capSeglock | fsoCommit | manualSubstitution | portDisable | portEnable | modeRequest | jigWrite | bitslip |
      shimWindowWrite => exact s.hostWriteAt_goesOn _ _ _ _
  case profileSet | recal | pageLoad | attest | nvmProgram | tbuRetune | scrubNow => exact s.hostExec_goesOn _ _ (by simp)
  case resetRelease t => exact absurd rfl (hc t)
  case seedingEnd => exact execSeedingEnd_goesOn s _
  case thermalTrip => exact execThermalTrip_goesOn s _ _
  -- What is left has a law above, or answers by conditional expressions alone.
  all_goals simp [exec, execRearm, execScrubPassStart, execThermalSensorRead, execPeriodicRecalibration, execDisc,
    execSafeInChange, execInputDisc, execTclrExpiry, execOssdFault, execEdmInputChange, execEdmFault, execHeartbeat,
    execLockstep, execPressTmo, execSyncTo, execBackgroundTable, execSkewUpdate, execChargePwmEvent, execHvOv, execBoostFault,
    execMovingDrop, execTrackerTick, execHitExpiry, execExcitationPeriodEnd, execTakeoverSettled, execStbyOpen, execKeepalive,
    execKeepaliveSend, execKeepaliveTimeout, execEol, execFrameStartEvent, execFacceptEdge, execLaneLoss, execSlewComplete,
    execPtpSourceLoss, execReferenceLoss, execProbeSend, execArpRequest, execArpReply, execIcmpEchoRequest, execBootFlash,
    execBootTbl, execBootSeed, execResetN, execRailLoss, execWatchdog, execThermalRelease, execRoundStart,
    execInterimConversion, execMalformedFrame]

/-- RESET_RELEASE moves RESET to BOOT, once the rails have been good for 2 ms, and does nothing else to the device's state. -/
theorem execResetRelease_next (s : State) (t : Nat) :
    ∃ u, execResetRelease t s = .next u ∧ u.pending = s.pending ∧ u.clk = max s.clk t ∧
      (u.dev = s.dev ∨ u.dev = .boot ∧ s.dev = .reset ∧ s.goodAt + 2000000 ≤ max s.clk t) := by
  dsimp only [execResetRelease]
  split
  · exact ⟨_, rfl, by simp⟩
  next h =>
    have hb : s.dev = .reset ∧ s.goodAt + 2000000 ≤ max s.clk t := by
      rw [Bool.or_eq_true, not_or, Nat.blt_eq] at h
      exact ⟨by simpa using h.1, not_lt.mp h.2⟩
    exact ⟨_, rfl, by simp, by simp, .inr ⟨by simp, hb⟩⟩

/-- Settles O2: RESET_RELEASE on its own, and every other command by `exec_goesOn`. -/
theorem everyCommandAnswersANextState : Obligations.EveryCommandAnswersANextState := by
  intro c s
  by_cases hc : ∃ t, c = .resetRelease t
  · obtain ⟨t, rfl⟩ := hc
    obtain ⟨u, e, hp, hk, -⟩ := execResetRelease_next s t
    exact ⟨u, e, hp, hk ▸ Nat.le_max_left _ _⟩
  · obtain ⟨u, e, hp, hk, -⟩ := exec_goesOn c s fun t ht => hc ⟨t, ht⟩
    exact ⟨u, e, hp, hk⟩

/-- A device that is down stays so, or is in RESET, but for RESET_RELEASE. -/
theorem exec_of_down {c : Instr} {s t : State} {d : DevState} (hc : ∀ t0, c ≠ .resetRelease t0) (hd : s.dev.down = some d)
    (e : exec c s = .next t) : t.dev = .reset ∨ t.dev.down = some d := by
  obtain ⟨u, hu, -, -, h⟩ := exec_goesOn c s hc
  cases e.symm.trans hu
  rw [hd] at h
  exact h.resolve_left (Option.some_ne_none d)

theorem DevState.eq_of_down {d e : DevState} (h : d.down = some e) : d = e := by
  unfold DevState.down at h
  split at h
  · exact Option.some.inj h
  · cases h

/-- Settles O5: THERMAL does not heed RESET_RELEASE, and every other command leaves a device that is down so, or in RESET. -/
theorem thermalIsLeftOnlyThroughReset : Obligations.ThermalIsLeftOnlyThroughReset := by
  intro c s t hs e
  by_cases hc : ∃ t0, c = .resetRelease t0
  · obtain ⟨t0, rfl⟩ := hc
    obtain ⟨u, hu, -, -, h | ⟨-, h, -⟩⟩ := execResetRelease_next s t0
    · cases e.symm.trans hu
      exact .inl (h.trans hs)
    · cases hs.symm.trans h
  · exact (exec_of_down (fun t0 h => hc ⟨t0, h⟩) (by rw [hs]; rfl) e).symm.imp_left DevState.eq_of_down

/-- Settles O6: RESET_RELEASE on its own, and every other command leaves a device in RESET there. -/
theorem resetIsLeftOnlyByItsRelease : Obligations.ResetIsLeftOnlyByItsRelease := by
  intro c s t hs e ht
  by_cases hc : ∃ t0, c = .resetRelease t0
  · obtain ⟨t0, rfl⟩ := hc
    obtain ⟨u, hu, -, hk, h | ⟨hb, -, hg⟩⟩ := execResetRelease_next s t0
    all_goals cases e.symm.trans hu
    · exact absurd (h.trans hs) ht
    · exact ⟨⟨t0, rfl⟩, hb, hk ▸ hg⟩
  · exact absurd ((exec_of_down (fun t0 h => hc ⟨t0, h⟩) (by rw [hs]; rfl) e).elim id DevState.eq_of_down) ht

end Sys2Proof.Machine

namespace Sys2Proof.Machine

/-! ### What an event leaves alone -/

/-- What an event leaves alone of the parts that it enters: the port but for CTL_EVQ, the stages of the lanes, and the SAF but
for what the device telegram tells of the event (R304, R525, R528). -/
def State.still (s : State) : Mgmt × List (Nat × Lane) × Saf :=
  ({ s.mgmt with evq := [], lost := 0 }, s.lnk.lanes, { s.saf with dcode := 0, dcodeAt := 0, dcnt := 0 })

theorem State.still_of_parts {s u : State} (hm : u.mgmt = s.mgmt) (hl : u.lnk.lanes = s.lnk.lanes) (hs : u.saf = s.saf) :
    u.still = s.still := by
  simp only [State.still, hm, hl, hs]

@[simp] theorem State.setPtn_lanes (s : State) (n : Nat) (p : Partner) : (s.setPtn n p).lnk.lanes = s.lnk.lanes := rfl

@[simp] theorem State.sendDlp_lanes (s : State) (n typ : Nat) (p : List Word) : (s.sendDlp n typ p).lnk.lanes = s.lnk.lanes := by
  simp [State.sendDlp]

theorem State.sendDlp_still (s : State) (n typ : Nat) (p : List Word) : (s.sendDlp n typ p).still = s.still :=
  State.still_of_parts (by simp) (State.sendDlp_lanes ..) (by simp)

theorem State.eventTo_still (s : State) (e : EvEntry) (n : Nat) : (s.eventTo e n).still = s.still := by
  refine State.still_of_parts (by simp) ?_ (by simp)
  dsimp only [State.eventTo]
  (repeat' split) <;> simp

theorem State.queueEv_still (s : State) (e : EvEntry) : (s.queueEv e).still = s.still := by
  unfold State.queueEv
  split <;> simp [State.still]

theorem State.noteDcode_still (s : State) (e : EvEntry) : (s.noteDcode e).still = s.still := by
  unfold State.noteDcode
  split <;> simp [State.still]

theorem State.raise_still (s : State) (code : Nat) (cls : EvClass) (arg : Nat) : (s.raise code cls arg).still = s.still := by
  dsimp only [State.raise]
  rw [State.noteDcode_still, State.fold_keeps State.still _ fun u n => State.eventTo_still u _ n]
  split
  · exact State.queueEv_still ..
  · rfl

/-- The long operation, the stages and the SAF's state and outputs, of states that agree but for an event. -/
theorem State.still_op {s u : State} (h : u.still = s.still) : u.mgmt.op = s.mgmt.op :=
  congrArg (fun x => x.1.op) h

theorem State.still_lanes {s u : State} (h : u.still = s.still) : u.lnk.lanes = s.lnk.lanes :=
  congrArg (fun x => x.2.1) h

theorem State.still_saf {s u : State} (h : u.still = s.still) :
    u.saf.st = s.saf.st ∧ u.saf.ossdA = s.saf.ossdA ∧ u.saf.ossdB = s.saf.ossdB :=
  ⟨congrArg (fun x => x.2.2.st) h, congrArg (fun x => x.2.2.ossdA) h, congrArg (fun x => x.2.2.ossdB) h⟩

/-! ### Lanes in electrical idle -/

theorem assoc_cons {α : Type} (e : Nat × α) (m : List (Nat × α)) (j : Nat) :
    assoc (e :: m) j = if e.1 = j then some e.2 else assoc m j := by
  by_cases h : e.1 = j <;> simp [assoc, h]

theorem assoc_assocPut_same {α : Type} (m : List (Nat × α)) (k : Nat) (v : α) : assoc (assocPut m k v) k = some v := by
  unfold assocPut
  split
  next h =>
    induction m with
    | nil => cases h
    | cons e m ih =>
      rw [List.map_cons, assoc_cons]
      by_cases he : e.1 = k
      · simp [he]
      · rw [if_neg (by simp [he]), ih (by simpa [he] using h)]
  next h =>
    induction m with
    | nil => simp [assoc_cons]
    | cons e m ih =>
      simp only [List.any_cons, Bool.or_eq_true, not_or, beq_iff_eq] at h
      rw [List.cons_append, assoc_cons, if_neg h.1, ih h.2]

theorem assoc_assocPut_ne {α : Type} (m : List (Nat × α)) {k j : Nat} (v : α) (h : j ≠ k) :
    assoc (assocPut m k v) j = assoc m j := by
  unfold assocPut
  split
  all_goals rename_i ha; clear ha
  · induction m with
    | nil => rfl
    | cons e m ih =>
      rw [List.map_cons, assoc_cons, assoc_cons, ih]
      by_cases he : e.1 = k
      · simp [he, h.symm]
      · simp [he]
  · induction m with
    | nil => simp [assoc_cons, h.symm]
    | cons e m ih => rw [List.cons_append, assoc_cons, assoc_cons, ih]

theorem State.setLane_lane (s : State) (l k : Nat) (x : Lane) : (s.setLane l x).lane k = if k = l then x else s.lane k := by
  show (assoc (assocPut s.lnk.lanes l x) k).getD _ = _
  split
  next h => rw [h, assoc_assocPut_same, Option.getD_some]
  next h => rw [assoc_assocPut_ne _ _ h]; rfl

theorem State.flushEvents_lanes (k n : Nat) (s : State) : (s.flushEvents k n).lnk.lanes = s.lnk.lanes := by
  induction k generalizing s with
  | zero => rfl
  | succ k ih =>
    unfold State.flushEvents
    dsimp only
    split
    · rfl
    · rw [ih]; simp

theorem State.rehome_lanes (s : State) (lost : Bool) (n : Nat) : (s.rehome lost n).lnk.lanes = s.lnk.lanes := by
  dsimp only [State.rehome]
  (repeat' split) <;> simp [State.flushEvents_lanes]

theorem State.sendChain_lanes (s : State) (side : ChainSide) (typ : Nat) (p : List Nat) :
    (s.sendChain side typ p).lnk.lanes = s.lnk.lanes := by
  unfold State.sendChain
  split
  · cases side <;> rfl
  · rfl

theorem State.sendParams_still (s : State) : s.sendParams.still = s.still :=
  State.still_of_parts (by simp) (by simp [State.sendParams, State.sendChain_lanes]) (by simp)

theorem State.leaveChain_still (s : State) : s.leaveChain.still = s.still := by
  dsimp only [State.leaveChain]
  split
  · rfl
  · rw [State.sendParams_still, State.raise_still]
    rfl

theorem State.portDown_still (s : State) (side : ChainSide) : (s.portDown side).still = s.still := by
  dsimp only [State.portDown]
  split
  · rw [State.leaveChain_still]
    cases side <;> rfl
  · cases side <;> rfl

theorem State.rehome_still (s : State) (lost : Bool) (n : Nat) : (s.rehome lost n).still = s.still :=
  State.still_of_parts (by simp) (State.rehome_lanes s lost n) (by simp)

/-- The lanes after the first lanes of a list have been idled. -/
theorem State.idleLane_fold_off (l : List Nat) (s : State) {n : Nat} (h : n ∈ l ∨ (s.lane n).stage = .off) :
    ((l.foldl State.idleLane s).lane n).stage = .off := by
  induction l generalizing s with
  | nil => exact h.resolve_left (List.not_mem_nil)
  | cons k l ih =>
    refine ih _ ?_
    by_cases hn : n = k
    · right; rw [State.idleLane, State.setLane_lane, if_pos hn]; rfl
    · rcases h with h | h
      · exact .inl ((List.mem_cons.1 h).resolve_left hn)
      · right
        rw [State.idleLane, State.setLane_lane, if_neg hn]
        simpa [State.lane] using h

theorem State.idleLanes_off (s : State) {n : Nat} (h : n < 12) : (s.idleLanes.lane n).stage = .off := by
  have hl : s.idleLanes.lnk.lanes = ((List.range 12).foldl State.idleLane s).lnk.lanes := by
    dsimp only [State.idleLanes]
    rw [State.fold_keeps (fun u : State => u.lnk.lanes) _ fun u n => State.rehome_lanes u false n,
      State.fold_keeps (fun u : State => u.lnk.lanes) _ fun u x => State.still_lanes (State.portDown_still u x)]
  have hs : (((List.range 12).foldl State.idleLane s).lane n).stage = .off :=
    State.idleLane_fold_off _ s (.inl (List.mem_range.2 h))
  rw [State.lane, hl]
  exact hs

/-- Idle lanes end no long operation and do not change the SAF. -/
theorem State.idleLanes_op (s : State) : s.idleLanes.mgmt.op = s.mgmt.op := by
  dsimp only [State.idleLanes]
  rw [State.fold_keeps (fun u : State => u.mgmt.op) _ fun u n => by simp,
    State.fold_keeps (fun u : State => u.mgmt.op) _ fun u x => State.still_op (State.portDown_still u x),
    State.fold_keeps (fun u : State => u.mgmt.op) _ fun u x => by simp]

theorem State.idleLanes_saf (s : State) : s.idleLanes.still.2.2 = s.still.2.2 := by
  dsimp only [State.idleLanes]
  rw [State.fold_keeps (fun u : State => u.still.2.2) _ fun u n => by rw [State.rehome_still],
    State.fold_keeps (fun u : State => u.still.2.2) _ fun u x => by rw [State.portDown_still],
    State.fold_keeps (fun u : State => u.still.2.2) _ fun u x => by simp [State.still]]

/-- Registers that a lane's receiver brings up to date (R405, R441). -/
theorem State.runLane_word (s : State) {l a : Nat} (hl : l < 12) (h : within 0xB100 0xB27F a = false) :
    (s.runLane l).word a = s.word a := by
  have ha : ∀ k, k < 32 → a ≠ 0xB100 + k + 32 * l := by
    rintro k hk rfl
    rw [within, Bool.and_eq_false_iff, ← Bool.not_eq_true, ← Bool.not_eq_true, Nat.ble_eq, Nat.ble_eq] at h
    omega
  have hle : ∀ (u : State) (on : Bool) (f : Fld), a ≠ f.addr → (u.lineErrors on f).word a = u.word a := by
    intro u on f hf
    unfold State.lineErrors
    split
    · exact word_count_ne _ _ _ _ hf
    · rfl
  unfold State.runLane
  rw [hle _ _ _ (ha 6 (by decide)), hle _ _ _ (ha 7 (by decide))]
  unfold State.adapt
  split
  · rfl
  · dsimp only
    rw [word_setWord, if_neg (ha 5 (by decide)), word_setWord, if_neg (ha 4 (by decide)), word_setWord, if_neg (ha 3 (by decide))]
    rfl

theorem State.leaveChain_word (s : State) {a : Nat} (h : a ∉ evWords) : s.leaveChain.word a = s.word a := by
  dsimp only [State.leaveChain]
  split
  · rfl
  · have hp : ∀ u : State, u.sendParams.word a = u.word a := fun u => State.word_of_regs (by simp) a
    rw [hp, State.raise_word _ _ _ _ h]
    rfl

theorem State.portDown_word (s : State) (side : ChainSide) {a : Nat} (h : a ∉ evWords) : (s.portDown side).word a = s.word a := by
  dsimp only [State.portDown]
  split
  · rw [State.leaveChain_word _ h]
    rfl
  · rfl

theorem State.rehome_word (s : State) (n a : Nat) : (s.rehome false n).word a = s.word a := by
  refine State.word_of_regs ?_ a
  dsimp only [State.rehome]
  (repeat' split) <;> simp_all

/-- Outside the registers of the lanes and the counters of lost events, idle lanes change no register word. -/
theorem State.idleLanes_word (s : State) {a : Nat} (he : a ∉ evWords) (h : within 0xB100 0xB27F a = false) :
    s.idleLanes.word a = s.word a := by
  have hl : ∀ (l : List Nat) (u : State), (∀ k ∈ l, k < 12) → (l.foldl State.idleLane u).word a = u.word a := by
    intro l
    induction l with
    | nil => exact fun _ _ => rfl
    | cons k l ih =>
      intro u hk
      rw [List.foldl_cons, ih _ fun j hj => hk j (List.mem_cons_of_mem _ hj)]
      exact State.runLane_word u (hk k List.mem_cons_self) h
  dsimp only [State.idleLanes]
  rw [State.fold_keeps (fun u : State => u.word a) _ fun u n => State.rehome_word u n a,
    State.fold_keeps (fun u : State => u.word a) _ fun u x => State.portDown_word u x he,
    hl _ _ fun k hk => List.mem_range.1 hk]

/-! ### The SAF -/

theorem State.drive_still (s : State) (on : Bool) :
    (s.drive on).still = ((s.still).1, (s.still).2.1, { (s.drive on).saf with dcode := 0, dcodeAt := 0, dcnt := 0 }) := by
  simp [State.still]

/-- What a change of the SAF's state makes of the port, the lanes and the outputs (R295, R298). -/
theorem State.safTo_still (s : State) (st : SafSt) (h : s.saf.st ≠ st) :
    (s.safTo st).still = ((s.modSaf fun v => { v with st := st }).drive (st == .clear)).still := by
  have hd : ∀ u : State, (if st == .stop then u.inc F.SAF_DEMCNT_COUNT else u).still = u.still := by
    intro u
    split
    · exact State.still_of_parts (by simp) (by simp) (by simp)
    · rfl
  have hc : ∀ (u : State) (b : Bool) (c : Cond), (if b then u.condition c else u).still = u.still := by
    intro u b c
    split
    · exact State.still_of_parts (by simp) (by simp) (by simp)
    · rfl
  unfold State.safTo
  rw [if_neg (by simpa using h)]
  dsimp only
  rw [State.raise_still, hc, hd]

theorem State.drive_outputs (s : State) (on : Bool) :
    (s.drive on).saf.st = s.saf.st ∧ (s.drive on).saf.ossdA = on ∧ (s.drive on).saf.ossdB = on := by
  unfold State.drive
  split
  next h =>
    rw [Bool.and_eq_true, beq_iff_eq, beq_iff_eq] at h
    exact ⟨rfl, h⟩
  next => exact ⟨rfl, rfl, rfl⟩

theorem State.safTo_op_lanes (s : State) (st : SafSt) :
    (s.safTo st).mgmt.op = s.mgmt.op ∧ (s.safTo st).lnk.lanes = s.lnk.lanes := by
  by_cases h : s.saf.st = st
  · simp [State.safTo, h]
  · have hs := s.safTo_still st h
    exact ⟨(State.still_op hs).trans (by simp), (State.still_lanes hs).trans (by simp)⟩

theorem State.safEval_op_lanes (s : State) : s.safEval.mgmt.op = s.mgmt.op ∧ s.safEval.lnk.lanes = s.lnk.lanes := by
  have he : ∀ (u : State) (c : Bool), (if c then u.safTo .stop else u).mgmt.op = u.mgmt.op ∧
      (if c then u.safTo .stop else u).lnk.lanes = u.lnk.lanes := by
    intro u c
    split
    · exact State.safTo_op_lanes u .stop
    · exact ⟨rfl, rfl⟩
  exact he (s.modSaf _) _

/-- A demand changes the state of the SAF from CLEAR and Interlock alone (R298). -/
theorem State.safEval_outputs (s : State) (h : s.saf.st = .init ∨ s.saf.st = .clamp) :
    s.safEval.saf.st = s.saf.st ∧ s.safEval.saf.ossdA = s.saf.ossdA ∧ s.safEval.saf.ossdB = s.saf.ossdB := by
  have he : ∀ (u : State) (d : Bool), u.saf.st = .init ∨ u.saf.st = .clamp →
      (if d && (u.saf.st == .clear || u.saf.st == .interlock) then u.safTo .stop else u) = u := by
    intro u d h
    have hn : (u.saf.st == .clear || u.saf.st == .interlock) = false := by rcases h with h | h <;> rw [h] <;> rfl
    rw [hn, Bool.and_false, if_neg Bool.false_ne_true]
  have hs : ∃ u : State, s.safEval = u ∧ u.saf.st = s.saf.st ∧ u.saf.ossdA = s.saf.ossdA ∧ u.saf.ossdB = s.saf.ossdB :=
    ⟨_, he (s.modSaf _) _ h, rfl, rfl, rfl⟩
  obtain ⟨u, e, hu⟩ := hs
  exact e ▸ hu

theorem State.safInit_op_lanes (s : State) : s.safInit.mgmt.op = s.mgmt.op ∧ s.safInit.lnk.lanes = s.lnk.lanes := by
  unfold State.safInit
  split
  · exact ⟨rfl, rfl⟩
  · obtain ⟨ho, hl⟩ := State.safEval_op_lanes
      ((s.safTo .init).modSaf fun v => { v with preA := false, preB := false, switched := false })
    exact ⟨ho.trans (s.safTo_op_lanes _).1, hl.trans (s.safTo_op_lanes _).2⟩

/-- The SAF goes to INIT with its outputs off, but for Clamp (R290, R298). -/
theorem State.safInit_outputs (s : State) :
    s.safInit.saf.st = (if s.saf.st = .clamp then .clamp else .init) ∧
    (s.saf.st ≠ .clamp → s.saf.st ≠ .init → s.safInit.saf.ossdA = false ∧ s.safInit.saf.ossdB = false) := by
  unfold State.safInit
  split
  next h =>
    rw [beq_iff_eq] at h
    exact ⟨by rw [if_pos h, h], fun hc => absurd h hc⟩
  next h =>
    rw [beq_iff_eq] at h
    have hst : (s.safTo .init).saf.st = .init := congrArg Prod.fst (s.safTo_clampNote .init)
    obtain ⟨h1, h2, h3⟩ := State.safEval_outputs
      ((s.safTo .init).modSaf fun v => { v with preA := false, preB := false, switched := false }) (.inl hst)
    rw [if_neg h]
    refine ⟨h1.trans hst, fun _ hi => ?_⟩
    obtain ⟨-, ha, hb⟩ := State.still_saf (s.safTo_still .init hi)
    obtain ⟨-, da, db⟩ := State.drive_outputs (s.modSaf fun v => { v with st := .init }) (SafSt.init == .clear)
    exact ⟨h2.trans (ha.trans da), h3.trans (hb.trans db)⟩

theorem State.safInit_word (s : State) {a : Nat} (h : a ∉ safWords) : s.safInit.word a = s.word a := by
  unfold State.safInit
  split
  · rfl
  · rw [State.safEval_word _ h, modSaf_word, State.safTo_word _ _ h]

end Sys2Proof.Machine

/-! ## Resets, the loss of a rail, the watchdog and thermal shutdown (R46, R300, R504, R531) -/

namespace Sys2Proof.Machine

/-! ### What a reset leaves -/

/-- The parts that a reset may change: all but the count of free values. -/
def resetParts : List Part :=
  [.tofs, .dev, .regs, .mgmt, .seq, .edu, .rta, .rpe, .stu, .saf, .cap, .fso, .cmp, .mem, .lnk, .tbu, .hk, .boot, .out, .goodAt]

theorem Only.resetTo (s : State) (w : Word) : Only resetParts s (s.resetTo w) :=
  ⟨by simp, by simp, fun p hp => by cases p <;> simp_all [Part.same, resetParts]⟩

theorem Only.setGoodAt (s : State) (x : Nat) : Only [.goodAt] s (s.setGoodAt x) :=
  ⟨by simp, by simp, fun p hp => by cases p <;> simp_all [Part.same]⟩

theorem State.resetTo_word (s : State) (w : Word) (a : Nat) :
    (s.resetTo w).word a = if a = 0x0002 then w else RegMap.resetWord a := by
  unfold State.resetTo
  rw [word_setWord]
  rfl

/-- Every part at its reset value but the retention store, the OTP and CTL_RESET_CAUSE, which says why (R46, R300, R531). -/
def State.Cleared (s u : State) (last bits : Nat) : Prop :=
  u.dev = .reset ∧ u.word 0x0002 = mkWord [(17, last), (0, bits)] ∧ (∀ a, a ≠ 0x0002 → u.word a = RegMap.resetWord a) ∧
  u.mgmt = State.reset.mgmt ∧ u.seq = State.reset.seq ∧ u.edu = State.reset.edu ∧ u.rta = State.reset.rta ∧
  u.rpe = State.reset.rpe ∧ u.stu = State.reset.stu ∧ u.cap = State.reset.cap ∧ u.fso = State.reset.fso ∧
  u.cmp = State.reset.cmp ∧ u.mem = State.reset.mem ∧ u.lnk = State.reset.lnk ∧ u.tbu = State.reset.tbu ∧
  u.hk = State.reset.hk ∧ u.saf.st = .init ∧ u.saf.ossdA = false ∧ u.saf.ossdB = false ∧
  u.saf.retained = s.saf.retained ∧ u.saf.zones = State.reset.saf.zones ∧
  u.boot = { State.reset.boot with otp := s.boot.otp, fused := s.boot.fused } ∧ u.out = []

theorem State.resetTo_cleared (s : State) (last : Nat) {bits : Nat} (h : bits < 16) :
    s.Cleared (s.resetTo (causeWord last bits)) last bits := by
  refine ⟨rfl, ?_, fun a ha => ?_, rfl, rfl, rfl, rfl, rfl, rfl, rfl, rfl, rfl, rfl, rfl, rfl, rfl, rfl, rfl, rfl, rfl, rfl, rfl,
    rfl⟩
  · rw [State.resetTo_word, if_pos rfl, causeWord, Nat.mod_eq_of_lt h]
  · rw [State.resetTo_word, if_neg ha]

theorem State.stickyCauses_lt (s : State) : s.stickyCauses < 16 := bitsOf_lt _ _ _

/-- A sticky bit is set beside those that stand already. -/
theorem State.stickyCauses_or_lt (s : State) {b : Nat} (h : b < 16) : s.stickyCauses ||| b < 16 :=
  Nat.or_lt_two_pow (n := 4) s.stickyCauses_lt h

/-- The causes whose instant may coincide with the loss of a rail: a low RESET_N and a thermal trip. -/
def State.coinciding (s : State) : Nat :=
  (if s.dev == .reset && Nat.blt s.clk s.goodAt then s.stickyCauses &&& 4 else 0) |||
    (if s.dev == .thermal && s.hk.coolAt == some s.clk then 2 else 0)

theorem State.coinciding_lt (s : State) : s.coinciding < 16 := by
  refine Nat.or_lt_two_pow (n := 4) ?_ ?_ <;> split
  · exact Nat.and_lt_two_pow _ (by decide)
  all_goals decide

theorem State.coinciding_eq_zero {s : State} (hr : s.dev ≠ .reset) (ht : s.dev ≠ .thermal) : s.coinciding = 0 := by
  simp [State.coinciding, hr, ht]

/-- The bits that the loss of a rail leaves in CTL_RESET_CAUSE: POWER among them. -/
theorem State.railBits (s : State) (c : Prop) [Decidable c] {k : Nat} (h : k < 16) :
    (if c then 8 ||| k else s.stickyCauses ||| 8 ||| k) < 16 ∧
    bitOf (if c then 8 ||| k else s.stickyCauses ||| 8 ||| k) 3 = true := by
  have h8 : (8 : Nat).testBit 3 = true := by decide
  split
  · exact ⟨Nat.or_lt_two_pow (n := 4) (by decide) h, by rw [bitOf_eq_testBit, Nat.testBit_or, h8, Bool.true_or]⟩
  · refine ⟨Nat.or_lt_two_pow (n := 4) (s.stickyCauses_or_lt (by decide)) h, ?_⟩
    rw [bitOf_eq_testBit, Nat.testBit_or, Nat.testBit_or, h8, Bool.or_true, Bool.true_or]

/-- LAST and POWER of a word of CTL_RESET_CAUSE. -/
theorem mkWord_cause {bits : Nat} (h : bits < 16) :
    bitsOf (mkWord [(17, 0), (0, bits)]).toNat 19 17 = 0 ∧ (mkWord [(17, 0), (0, bits)]).toNat = bits := by
  have hw : (mkWord [(17, 0), (0, bits)]).toNat = bits := by
    simp [mkWord, RegMap.pack]
    omega
  refine ⟨?_, hw⟩
  rw [hw, bitsOf]
  omega

/-! ### RESET_N, rails, the watchdog and the end of THERMAL -/

theorem resetN_bounds {low : Nat} (h : 1000 ≤ low) :
    within 100 999 low = false ∧ Nat.blt low 100 = false ∧ Nat.blt low 1000 = false := by
  refine ⟨?_, ?_, ?_⟩
  · rw [within, Bool.and_eq_false_iff, ← Bool.not_eq_true, ← Bool.not_eq_true, Nat.ble_eq, Nat.ble_eq]
    omega
  all_goals
    rw [← Bool.not_eq_true, Nat.blt_eq]
    omega

section
variable {s : State} (t : Nat)

/-- A low pulse of RESET_N below 100 ns is ignored. -/
theorem exec_resetN_ignored {low : Nat} (h : low < 100) : exec (.resetN t low) s = .next (s.begin t) := by
  have hw : within 100 999 low = false := by simp [within, Nat.ble_eq, h]
  simp [exec, execResetN, hw, h]

/-- From 1 µs on it is accepted: in THERMAL it only moves the instant from which RESET may end. -/
theorem exec_resetN_thermal {low : Nat} (h : 1000 ≤ low) (hd : s.dev = .thermal) :
    exec (.resetN t low) s = .next ((s.begin t).setGoodAt (max s.goodAt ((s.begin t).clk + low))) := by
  obtain ⟨h1, h2, h3⟩ := resetN_bounds h
  dsimp only [exec, execResetN]
  rw [h1, h2, h3]
  simp only [Bool.false_and, Bool.or_false, Bool.false_eq_true, if_false]
  exact if_pos (beq_iff_eq.mpr hd)

/-- In any other state it resets the device. -/
theorem exec_resetN_resets {low : Nat} (h : 1000 ≤ low) (hd : s.dev ≠ .thermal) :
    exec (.resetN t low) s = .next (((s.begin t).setGoodAt (max s.goodAt ((s.begin t).clk + low))).resetTo (causeWord
      (if s.dev = .reset ∧ bitsOf (s.word 0x0002).toNat 19 17 = 0 then 0 else 1) (s.stickyCauses ||| 4))) := by
  obtain ⟨h1, h2, h3⟩ := resetN_bounds h
  dsimp only [exec, execResetN]
  rw [h1, h2, h3]
  simp only [Bool.false_and, Bool.or_false, Bool.false_eq_true, if_false, beq_iff_eq, Bool.and_eq_true]
  exact if_neg hd

/-- Between them either, by a free value (log entry 3). -/
theorem exec_resetN_either (low : Nat) :
    ∃ u, exec (.resetN t low) s = .next u ∧ Only (.free :: resetParts) (s.begin t) u ∧ (u.dev = s.dev ∨ u.dev = .reset) := by
  have hw : ∀ b : Bool, Only [.free] (s.begin t) (if b then (s.begin t).draw.2 else s.begin t) := by
    intro b
    split
    · exact ⟨by simp, by simp, fun p hp => by cases p <;> simp_all [Part.same]⟩
    · exact Only.refl _ _
  dsimp only [exec, execResetN]
  have hu := hw (within 100 999 low)
  generalize (if within 100 999 low then (s.begin t).draw.2 else s.begin t) = u at hu ⊢
  have hd : u.dev = s.dev := hu.2.2 .dev (by decide)
  have hg := hu.comp (Only.setGoodAt u (max u.goodAt (u.clk + low))) (rs := .free :: resetParts) (by decide) (by decide)
  split
  · exact ⟨_, rfl, hu.mono (by decide), .inl hd⟩
  split
  · exact ⟨_, rfl, hg, .inl hd⟩
  · exact ⟨_, rfl, hg.trans ((Only.resetTo _ _).mono (by decide)), .inr rfl⟩

/-- The loss of a rail resets the device whatever it does, with the bit of a cause that coincides (R531, R541). -/
theorem exec_railLoss (rail : Rail) :
    exec (.railLoss t rail) s = .next (((s.begin t).setGoodAt (max s.goodAt (s.begin t).clk)).resetTo (causeWord 0
      (if rail = .vddCore then 8 ||| (s.begin t).coinciding else s.stickyCauses ||| 8 ||| (s.begin t).coinciding))) := by
  simp only [← beq_iff_eq (b := Rail.vddCore)]
  rfl

theorem exec_watchdog (hr : s.dev ≠ .reset) (ht : s.dev ≠ .thermal) (hf : s.boot.failed = false) :
    exec (.watchdog t) s = .next ((s.begin t).resetTo (causeWord 3 (s.stickyCauses ||| 1))) := by
  simp [exec, execWatchdog, hr, ht, hf]
  rfl

theorem exec_watchdog_idle (h : s.dev = .reset ∨ s.dev = .thermal ∨ s.boot.failed = true) :
    exec (.watchdog t) s = .next (s.begin t) := by
  rcases h with h | h | h <;> simp [exec, execWatchdog, h]

/-- The comparators have all read below for 1 s: RESET follows (R504). -/
theorem exec_thermalRelease {x : Nat} (hd : s.dev = .thermal) (hx : s.hk.coolAt = some x)
    (hc : x + 1000000000 ≤ (s.begin t).clk) :
    exec (.thermalRelease t) s = .next ((s.begin t).resetTo (causeWord 2 (s.stickyCauses ||| 2))) := by
  have hb : (s.begin t).dev = .thermal := hd
  have hk : (s.begin t).hk.coolAt = some x := hx
  dsimp only [exec, execThermalRelease]
  rw [hb, hk, Option.any_some, Nat.ble_eq_true_of_le hc]
  rfl

theorem exec_thermalRelease_idle (h : s.dev ≠ .thermal ∨ ∃ x, s.hk.coolAt = some x ∧ (s.begin t).clk < x + 1000000000) :
    exec (.thermalRelease t) s = .next (s.begin t) := by
  dsimp only [exec, execThermalRelease]
  refine if_neg ?_
  rw [Bool.and_eq_true, beq_iff_eq]
  rintro ⟨hd, hc⟩
  rcases h with h | ⟨x, hx, h⟩
  · exact h hd
  · have hk : (s.begin t).hk.coolAt = some x := hx
    rw [hk, Option.any_some, Nat.ble_eq] at hc
    exact absurd hc (not_le.mpr h)

end

/-! ### RESET_RELEASE and THERMAL_TRIP -/

theorem Only.setDev (s : State) (d : DevState) : Only [.dev] s (s.setDev d) :=
  ⟨by simp, by simp, fun p hp => by cases p <;> simp_all [Part.same]⟩

theorem Only.safEval (s : State) : Only (.regs :: safParts) s s.safEval :=
  ⟨by simp, by simp, fun p hp => by cases p <;> simp_all [Part.same, safParts]⟩

theorem exec_resetRelease {s : State} (t : Nat) (hd : s.dev = .reset) (hg : s.goodAt + 2000000 ≤ (s.begin t).clk) :
    exec (.resetRelease t) s = .next ((s.begin t).setDev .boot).safEval := by
  refine if_neg ?_
  rw [Bool.or_eq_true, Nat.blt_eq]
  rintro (h | h)
  · simp [hd] at h
  · exact absurd h (not_lt.mpr hg)

theorem exec_resetRelease_idle {s : State} (t : Nat) (h : s.dev ≠ .reset ∨ (s.begin t).clk < s.goodAt + 2000000) :
    exec (.resetRelease t) s = .next (s.begin t) := by
  refine if_pos ?_
  rw [Bool.or_eq_true, Nat.blt_eq]
  exact h.imp_left fun h => by simpa using h

theorem exec_thermalTrip_idle {s : State} (t k : Nat) (h : s.dev = .reset ∨ s.dev = .thermal ∨ 12 ≤ k) :
    exec (.thermalTrip t k) s = .next (s.begin t) := by
  refine if_pos ?_
  rw [Bool.or_eq_true, Bool.or_eq_true, beq_iff_eq, beq_iff_eq, Nat.ble_eq]
  exact or_assoc.mpr h

/-- A thermal trip before its end in the SAF: the operation aborted, the sequencer idle, the boost off, the lanes idle and the
memory in self-refresh (R504). -/
def State.tripped (s : State) : State :=
  let v := (s.abortOp.put F.CTL_PROFILE_SWPEND false).setDev .thermal
  let v := (v.modSeq fun q => { q with st := .idle, fires := [], wins := [] }).modEdu fun e =>
    { e with started := false, swSince := none, hvBurst := none }
  (v.modHk fun h => { h with coolAt := some v.clk }).idleLanes.modMem fun m => { m with selfRef := true }

theorem exec_thermalTrip {s : State} (t : Nat) {k : Nat} (hr : s.dev ≠ .reset) (ht : s.dev ≠ .thermal) (hk : k < 12) :
    exec (.thermalTrip t k) s = .next (s.begin t).tripped.safInit.safEval := by
  refine if_neg ?_
  rw [Bool.or_eq_true, Bool.or_eq_true, beq_iff_eq, beq_iff_eq, Nat.ble_eq]
  rintro ((h | h) | h)
  · exact hr h
  · exact ht h
  · omega

/-- The operation that a trip cuts short is done, not valid and aborted (R505, R524). -/
theorem State.abortOp_stat {s : State} (h : s.mgmt.op.isSome = true) :
    s.abortOp.flag F.CTL_OPSTAT_DONE = true ∧ s.abortOp.flag F.CTL_OPSTAT_VALID = false ∧
    s.abortOp.flag F.CTL_OPSTAT_ABORT = true := by
  obtain ⟨op, ho⟩ := Option.isSome_iff_exists.mp h
  have hf : ∀ f, s.abortOp.flag f =
      (((s.put F.CTL_OPSTAT_DONE true).put F.CTL_OPSTAT_VALID false).put F.CTL_OPSTAT_ABORT true).flag f := by
    intro f
    rw [State.abortOp, ho]
    rfl
  rw [hf, hf, hf]
  refine ⟨?_, ?_, flag_put _ _ _ rfl (by decide)⟩
  · simp only [State.put, State.flag]
    rw [rd_wr_other _ _ _ _ (by decide) (by decide) (by decide), rd_wr_other _ _ _ _ (by decide) (by decide) (by decide),
      rd_wr _ _ _ (by decide) (by decide)]
    rfl
  · simp only [State.put, State.flag]
    rw [rd_wr_other _ _ _ _ (by decide) (by decide) (by decide), rd_wr _ _ _ (by decide) (by decide)]
    rfl

theorem State.abortOp_op (s : State) : s.abortOp.mgmt.op = none := by
  unfold State.abortOp
  split
  next h => exact h
  next => rfl

theorem State.tripped_only (s : State) :
    Only [.dev, .regs, .mgmt, .seq, .edu, .saf, .mem, .lnk, .tbu, .hk, .out, .free] s s.tripped :=
  ⟨by simp [State.tripped], by simp [State.tripped], fun p hp => by cases p <;> simp_all [Part.same, State.tripped]⟩

theorem State.idleLanes_outputs (s : State) :
    s.idleLanes.saf.st = s.saf.st ∧ s.idleLanes.saf.ossdA = s.saf.ossdA ∧ s.idleLanes.saf.ossdB = s.saf.ossdB := by
  have h := s.idleLanes_saf
  generalize s.idleLanes = u at h ⊢
  have hst : u.still.2.2.st = s.still.2.2.st := by rw [h]
  have ha : u.still.2.2.ossdA = s.still.2.2.ossdA := by rw [h]
  have hb : u.still.2.2.ossdB = s.still.2.2.ossdB := by rw [h]
  exact ⟨hst, ha, hb⟩

theorem State.tripped_saf (s : State) :
    s.tripped.saf.st = s.saf.st ∧ s.tripped.saf.ossdA = s.saf.ossdA ∧ s.tripped.saf.ossdB = s.saf.ossdB := by
  simp [State.tripped, State.idleLanes_outputs]

theorem State.tripped_word (s : State) : s.tripped.word 0x0004 = s.abortOp.word 0x0004 := by
  dsimp only [State.tripped]
  rw [modMem_word, State.idleLanes_word _ (by decide) (by decide), modHk_word, modEdu_word, modSeq_word]
  exact word_put_ne _ _ _ _ (by decide)

/-- THERMAL_TRIP (R504): no fire, no boost, idle lanes, self-refresh, the SAF in INIT, and the long operation aborted. -/
theorem thermalTrip_completes {s : State} (t : Nat) {k : Nat} (hr : s.dev ≠ .reset) (ht : s.dev ≠ .thermal) (hk : k < 12) :
    Completes (.thermalTrip t k) t s [.dev, .regs, .mgmt, .seq, .edu, .saf, .cap, .mem, .lnk, .tbu, .hk, .out, .free] fun u =>
      u.dev = .thermal ∧ u.seq.st = .idle ∧ u.seq.fires = [] ∧ u.seq.wins = [] ∧ u.edu.started = false ∧ u.chgOk = false ∧
      u.hk.coolAt = some (s.begin t).clk ∧ u.mem = { s.mem with selfRef := true } ∧ (∀ n, n < 12 → (u.lane n).stage = .off) ∧
      u.saf.st = (if s.saf.st = .clamp then .clamp else .init) ∧
      (s.saf.st ≠ .clamp → s.saf.st ≠ .init → u.saf.ossdA = false ∧ u.saf.ossdB = false) ∧
      u.mgmt.op = none ∧
      (s.mgmt.op.isSome = true → u.flag F.CTL_OPSTAT_DONE = true ∧ u.flag F.CTL_OPSTAT_VALID = false ∧
        u.flag F.CTL_OPSTAT_ABORT = true) := by
  refine ⟨_, exec_thermalTrip t hr ht hk, ?_, ?_⟩
  · have hi : ∀ u : State, Only (.regs :: safParts) u u.safInit := fun u =>
      ⟨by simp, by simp, fun p hp => by cases p <;> simp_all [Part.same, safParts]⟩
    exact ((State.tripped_only _).comp (hi _) (by decide) (by decide)).trans ((Only.safEval _).mono (by decide))
  generalize hv : (s.begin t).tripped = v
  have hst : v.safInit.saf.st = (if s.saf.st = .clamp then .clamp else .init) ∧
      (s.saf.st ≠ .clamp → s.saf.st ≠ .init → v.safInit.saf.ossdA = false ∧ v.safInit.saf.ossdB = false) := by
    obtain ⟨h1, -, -⟩ := hv ▸ (s.begin t).tripped_saf
    have hs := v.safInit_outputs
    rw [h1] at hs
    exact hs
  obtain ⟨e1, e2, e3⟩ := State.safEval_outputs v.safInit (by rw [hst.1]; split <;> simp)
  have hs : v.edu.started = false := by simp [← hv, State.tripped]
  have hedu : v.safInit.safEval.edu = v.edu := by simp
  have hop : v.safInit.safEval.mgmt.op = none := by
    rw [(State.safEval_op_lanes _).1, (State.safInit_op_lanes _).1, ← hv]
    exact (State.idleLanes_op _).trans (by simp [State.abortOp_op])
  have hlane : v.safInit.safEval.lnk.lanes = v.lnk.lanes :=
    (State.safEval_op_lanes _).2.trans (State.safInit_op_lanes _).2
  have hword : v.safInit.safEval.word 0x0004 = (s.begin t).abortOp.word 0x0004 := by
    rw [State.safEval_word _ (by decide), State.safInit_word _ (by decide), ← hv, State.tripped_word]
  refine ⟨by simp [← hv, State.tripped], by simp [← hv, State.tripped], by simp [← hv, State.tripped],
    by simp [← hv, State.tripped], by rw [hedu, hs], by simp [State.chgOk, hs], by simp [← hv, State.tripped],
    by simp [← hv, State.tripped], fun n hn => ?_, e1.trans hst.1, fun hc hi => ?_, hop, fun ho => ?_⟩
  · rw [State.lane, hlane, ← hv]
    exact State.idleLanes_off _ hn
  · obtain ⟨ha, hb⟩ := hst.2 hc hi
    exact ⟨e2.trans ha, e3.trans hb⟩
  · obtain ⟨f1, f2, f3⟩ := State.abortOp_stat (s := s.begin t) ho
    exact ⟨(State.flag_of_word hword).trans f1, (State.flag_of_word hword).trans f2, (State.flag_of_word hword).trans f3⟩

/-- Settles O57: the state that each reset leaves is `State.resetTo` of a cause (`State.resetTo_cleared`), and a thermal trip is
`State.tripped` followed by the SAF's INIT. -/
theorem resetsAndThermalShutdown : Obligations.ResetsAndThermalShutdown := by
  intro s t b all sticky z cleared
  have hclr : ∀ (w : Word), Only all b (b.resetTo w) := fun w => Only.resetTo b w
  have hset : ∀ (x : Nat) (w : Word), Only all b ((b.setGoodAt x).resetTo w) := fun x w =>
    (Only.setGoodAt b x).comp (Only.resetTo _ w) (by decide) (by decide)
  refine ⟨?_, ?_, ?_, ?_, ?_, ?_, ?_, ?_, ?_, ?_, ?_, ?_, ?_⟩
  · exact fun low h => completes_of_next (exec_resetN_ignored t h) _
  · exact fun low _ _ => exec_resetN_either t low
  · exact fun low h => ⟨fun hd => ⟨_, exec_resetN_thermal t h hd, Only.setGoodAt b _, rfl⟩,
      fun hd => ⟨_, exec_resetN_resets t h hd, hset _ _,
        State.resetTo_cleared (b.setGoodAt _) _ (s.stickyCauses_or_lt (by decide)), rfl⟩⟩
  · intro rail hr ht
    have h0 : b.coinciding = 0 := State.coinciding_eq_zero hr ht
    have hlt : (if rail = .vddCore then 8 else sticky ||| 8) < 16 := by
      split
      · decide
      · exact s.stickyCauses_or_lt (by decide)
    refine ⟨_, exec_railLoss t rail, hset _ _, ?_, rfl⟩
    rw [h0, Nat.or_zero, Nat.or_zero]
    exact State.resetTo_cleared (b.setGoodAt _) 0 hlt
  · intro rail
    obtain ⟨hlt, hbit⟩ := b.railBits (rail = .vddCore) b.coinciding_lt
    obtain ⟨-, hw, -⟩ := State.resetTo_cleared (b.setGoodAt (max s.goodAt b.clk)) 0 hlt
    obtain ⟨hl, hn⟩ := mkWord_cause hlt
    refine ⟨_, exec_railLoss t rail, hset _ _, rfl, ?_, ?_⟩
    · exact (congrArg (fun w : Word => bitsOf w.toNat 19 17) hw).trans hl
    · exact (congrArg (fun w : Word => bitOf w.toNat 3) hw).trans (by rw [hn, hbit])
  · exact fun h => completes_of_next (exec_watchdog_idle t h) _
  · exact fun hr ht hf => ⟨_, exec_watchdog t hr ht hf, hclr _,
      State.resetTo_cleared b _ (s.stickyCauses_or_lt (by decide)), rfl⟩
  · refine fun x hd hx => ⟨fun hc => ?_, fun hc => completes_of_next (exec_thermalRelease_idle t (.inr ⟨x, hx, hc⟩)) _⟩
    exact ⟨_, exec_thermalRelease t hd hx hc, hclr _, State.resetTo_cleared b _ (s.stickyCauses_or_lt (by decide))⟩
  · exact fun h => completes_of_next (exec_thermalRelease_idle t (.inl h)) _
  · exact fun h => completes_of_next (exec_resetRelease_idle t h) _
  · exact fun hd hg => ⟨_, exec_resetRelease t hd hg, (Only.setDev b _).comp (Only.safEval _) (by decide) (by decide), by simp⟩
  · exact fun k h => completes_of_next (exec_thermalTrip_idle t k h) _
  · exact fun k hr ht hk => thermalTrip_completes t hr ht hk

end Sys2Proof.Machine

/-! ## The seeding step: READY, and a stream definition that is longer than a definition (R46, R354, R400) -/

namespace Sys2Proof.Machine

/-! ### What the rise to READY does to a word -/

/-- The words of a list lie one after another from their address on. -/
theorem State.wrWords_word (ws : List Word) : ∀ (s : State) (a b : Nat),
    (s.wrWords a ws).word b = if a ≤ b then (ws[b - a]?).getD (s.word b) else s.word b := by
  induction ws with
  | nil => intro s a b; simp [State.wrWords]
  | cons w ws ih =>
    intro s a b
    rw [State.wrWords, ih, word_setWord]
    rcases Nat.lt_trichotomy b a with h | h | h
    · rw [if_neg (by omega), if_neg (by omega), if_neg (by omega)]
    · rw [if_neg (by omega), if_pos h, if_pos (by omega), h, Nat.sub_self, List.getElem?_cons_zero, Option.getD_some]
    · obtain ⟨k, rfl⟩ : ∃ k, b = a + 1 + k := ⟨b - (a + 1), by omega⟩
      rw [if_pos (by omega), if_neg (by omega), if_pos (by omega), Nat.add_sub_cancel_left,
        show a + 1 + k - a = k + 1 by omega, List.getElem?_cons_succ]

theorem State.leaveInit_word (s : State) {a : Nat} (h : a ∉ safWords) : s.leaveInit.word a = s.word a := by
  unfold State.leaveInit
  split
  · split
    · exact State.clamp_word _ _ h
    · rw [State.safEval_word _ h, State.safTo_word _ _ h]
  · rfl

/-- The registers of CAP that a new setup and an arm change. -/
def armWords : List Nat := [0x7001, 0x7020, 0x7021, 0x7022]

theorem State.setValid_word (s : State) (n : Nat) (v : Bool) (a : Nat) : (s.setValid n v).word a = s.word a :=
  State.word_of_regs (by simp) a

theorem State.oldest_word (s : State) {a : Nat} (h : a ∉ armWords) : s.oldest.word a = s.word a := by
  have h2 : a ≠ 0x7022 := fun e => h (e ▸ by decide)
  unfold State.oldest
  exact word_wr_ne _ _ _ _ h2

/-- A setup without words changes no register of the setup. -/
theorem State.commitSetup_nil_word (s : State) {a : Nat} (h : a ∉ armWords) : (s.commitSetup []).word a = s.word a := by
  have h0 : a ≠ 0x7020 := fun e => h (e ▸ by decide)
  have h1 : a ≠ 0x7021 := fun e => h (e ▸ by decide)
  unfold State.commitSetup State.invalidateSegs
  rw [modCap_word]
  refine (State.oldest_word _ h).trans ?_
  rw [word_wr_ne _ _ _ _ h1, word_wr_ne _ _ _ _ h0, modCap_word]
  exact State.fold_keeps (fun u : State => u.word a) _ (fun u n => State.setValid_word u n _ a) _ s

/-- A slot that is taken again loses its VALID bit, which is no register. -/
theorem State.retaken_word (s : State) (c : Bool) (k a : Nat) : (if c then s.setValid k false else s).word a = s.word a := by
  split
  · exact State.setValid_word ..
  · rfl

theorem State.armSeg_word (s : State) {a : Nat} (h : a ∉ armWords) : s.armSeg.word a = s.word a := by
  unfold State.armSeg
  split
  · rw [modCap_word]
  · rw [State.oldest_word _ h, modCap_word, State.retaken_word]

theorem State.armCap_word (s : State) {a : Nat} (h : a ∉ armWords) : s.armCap.word a = s.word a := by
  have h1 : a ≠ 0x7001 := fun e => h (e ▸ by decide)
  unfold State.armCap
  rw [State.armSeg_word _ h, modCap_word]
  exact word_put_ne _ _ _ _ h1

/-- What remains of the rise to READY after the definitions keeps the word, where no setup waits to be armed. -/
theorem State.readyTail_word (s : State) {a : Nat} (hc : s.cap.imgSetup = []) (h : a ∉ armWords) (hs : a ∉ safWords) :
    (if s.flag F.CAP_S_MODE_AUTOARM then (s.commitSetup s.cap.imgSetup).armCap else s).safEval.leaveInit.word a = s.word a := by
  rw [State.leaveInit_word _ hs, State.safEval_word _ hs, hc]
  split
  · rw [State.armCap_word _ h, State.commitSetup_nil_word _ h]
  · rfl

/-- A pending definition whose frame has come lies in the words from the stream's block on, as long as it is (R354). -/
theorem State.latchDef_word_of_due {s : State} {n next : Nat} {p : Pend} (hp : (s.stream n).pend = some p)
    (hf : p.frame ≤ next) (ha : p.at0 ≠ s.clk) (b : Nat) :
    (s.latchDef next n).word b =
      if 0x8050 + 32 * n ≤ b then (p.defn[b - (0x8050 + 32 * n)]?).getD (s.word b) else s.word b := by
  have hl : Nat.blt next p.frame = false := by rw [← Bool.not_eq_true, Nat.blt_eq]; omega
  have he : (p.at0 == s.clk) = false := beq_false_of_ne ha
  unfold State.latchDef
  simp only [hp, hl, he, Bool.false_eq_true, if_false, State.wrWords_word]
  rfl

theorem State.latchDef_of_none {s : State} {n : Nat} (next : Nat) (h : (s.stream n).pend = none) : s.latchDef next n = s := by
  unfold State.latchDef
  simp only [h]

/-- A due definition of stream 3 alone is latched from 80B0h on, as long as it is. -/
theorem State.latchDefs_word_of_stream3 {s : State} {p : Pend} (h0 : (s.stream 0).pend = none) (h1 : (s.stream 1).pend = none)
    (h2 : (s.stream 2).pend = none) (hp : (s.stream 3).pend = some p) (hf : p.frame ≤ s.fso.fcnt + 1) (ha : p.at0 ≠ s.clk)
    (hw : s.tbu.snapWait = none) (b : Nat) :
    s.latchDefs.word b = if 0x80B0 ≤ b then (p.defn[b - 0x80B0]?).getD (s.word b) else s.word b := by
  have hn : ∀ u : State, u.tbu.snapWait = none → u.latchSnap = u := fun u h => by simp only [State.latchSnap, h]
  have hr : List.range 4 = [0, 1, 2, 3] := rfl
  simp only [State.latchDefs, hr, List.foldl_cons, List.foldl_nil, State.latchDef_of_none _ h0, State.latchDef_of_none _ h1,
    State.latchDef_of_none _ h2]
  rw [hn _ (by simpa using hw), modFso_word]
  exact State.latchDef_word_of_due hp hf ha b

/-! ### The definition that reaches MEM_STATUS -/

/-- A definition of 8,017 words that waits at stream 3. -/
def overlongPend : Pend := { (default : Pend) with defn := List.replicate 8017 0, at0 := 1 }

/-- The seeding step, 50 ms after its start, of a device with that definition pending. -/
def overlong : State :=
  { State.reset with
    dev := .boot
    rpe := { State.reset.rpe with seeding := true }
    fso := { State.reset.fso with str3 := { State.reset.fso.str3 with pend := some overlongPend } } }

/-- The command that ends it. -/
theorem exec_seedingEnd {s : State} {t : Nat} (hb : s.booting = true) (hr : s.rpe.seeding = true)
    (hd : s.boot.seedAt + 50000000 ≤ (s.begin t).clk) :
    exec (.seedingEnd t) s = .next (s.begin t).seedTrackers.seedOfs.riseReady := by
  refine if_neg ?_
  have hb' : (s.begin t).booting = true := hb
  have hr' : (s.begin t).rpe.seeding = true := hr
  have hd' : Nat.ble ((s.begin t).boot.seedAt + 50000000) (s.begin t).clk = true := Nat.ble_eq_true_of_le hd
  rw [hb', hr', hd', Bool.or_true]
  decide

/-- The latched words reach A000h, which READY has written before: MEM_STATUS reads zero. -/
theorem overlong_word {u : State} (hs : u.fso = overlong.fso) (hc : u.cap.imgSetup = []) (hk : u.clk = 50000000)
    (hw : u.tbu.snapWait = none) : u.riseReady.word 0xA000 = 0 := by
  unfold State.riseReady
  dsimp only
  generalize hv : ((State.bootStep (u.setDev _) 6).put F.MEM_STATUS_ZFILL true).modBoot _ = v
  have hv' : v.fso = overlong.fso ∧ v.cap.imgSetup = [] ∧ v.clk = 50000000 ∧ v.tbu.snapWait = none := by
    subst hv
    simp [hs, hc, hk, hw]
  obtain ⟨vs, vc, vk, vw⟩ := hv'
  rw [State.readyTail_word _ (by simpa using vc) (by decide) (by decide)]
  have hst : ∀ n, v.stream n = overlong.stream n := fun n => by simp only [State.stream, vs]
  rw [State.latchDefs_word_of_stream3 (p := overlongPend) (by rw [hst]; rfl) (by rw [hst]; rfl) (by rw [hst]; rfl) (by rw [hst]; rfl)
    (Nat.zero_le _) (by rw [vk]; decide) vw, if_pos (by decide)]
  simp only [overlongPend]
  rw [List.getElem?_replicate, if_pos (by decide), Option.getD_some]

/-- Refutes O59: the statement is of every state, and `Pend.defn` is a list of any length. In `overlong` the definition that waits
at stream 3 is longer than a stream's words; READY latches it after it has set ZFILL, over MEM_STATUS, whose ZFILL then reads 0. -/
theorem not_bootTrainsSeedsAndRisesReady : ¬ Obligations.BootTrainsSeedsAndRisesReady := by
  intro h
  obtain ⟨-, h⟩ := h overlong 50000000
  obtain ⟨-, -, -, -, -, -, -, h⟩ := h rfl rfl
  obtain ⟨u, hu, -, -, -, -, -, hz, -⟩ := h rfl (.inr (by decide))
  rw [exec_seedingEnd rfl rfl (by decide)] at hu
  obtain rfl := Host.Outcome.next.inj hu
  have hw := overlong_word (u := (overlong.begin 50000000).seedTrackers.seedOfs) (by simp) (by simp; rfl)
    (by simp [overlong, State.reset]) (by simp; rfl)
  rw [State.flag, State.rd, show F.MEM_STATUS_ZFILL.addr = 0xA000 from rfl, hw] at hz
  exact absurd hz (by decide)

end Sys2Proof.Machine

/-! ## EXEC of a long operation: accepted on its own conditions, else a status and nothing else (R43, R522, R524) -/

namespace Sys2Proof.Machine

/-! ### The frame -/

theorem State.respond_seq (s : State) (r due : Resp) : (s.respond r due).seq = s.seq := rfl

/-- EXEC at an open port answers what the operation's start answers, unless boot has failed and the operation is not NVM's (R466). -/
theorem State.hostExec_of_portOpen {s : State} (h : s.portOpen) {code : Nat} (hf : s.boot.failed = false ∨ code = 5) (t : Nat)
    (start : State → Status × State) :
    s.hostExec t code start =
      .next ((start (s.begin t)).2.respond ⟨(start (s.begin t)).1, BitVec.ofNat 16 code, 0⟩ s.mgmt.resp) := by
  have hc : ((s.begin t).boot.failed && code != 5) = false := by
    rcases hf with hf | rfl
    · exact (congrArg (· && code != 5) hf).trans (Bool.false_and _)
    · exact Bool.and_false _
  unfold State.hostExec
  rw [State.frame_of_portOpen h]
  simp only [State.judgeExec, State.gate_of_portOpen (State.begin_portOpen h t), hc, Bool.false_eq_true, if_false, ite_self]

theorem State.hostExec_of_bootFailed {s : State} (h : s.portOpen) {code : Nat} (hf : s.boot.failed = true) (hc : code ≠ 5) (t : Nat)
    (start : State → Status × State) :
    s.hostExec t code start = .next ((s.begin t).respond
      ⟨if within 3 5 (s.rd F.CTL_BOOT_CAUSE) then .signature else .refused, BitVec.ofNat 16 code, 0⟩ s.mgmt.resp) := by
  have hb : ((s.begin t).boot.failed && code != 5) = true := by
    rw [Bool.and_eq_true, bne_iff_ne]
    exact ⟨hf, hc⟩
  unfold State.hostExec
  rw [State.frame_of_portOpen h]
  simp only [State.judgeExec, State.gate_of_portOpen (State.begin_portOpen h t), hb, if_true, ite_self]
  rfl

/-- An operation that is turned away leaves a response and nothing else. -/
theorem turnedAway {c : Instr} {s : State} {t code : Nat} {st : Status} {start : State → Status × State} (h : s.portOpen)
    (hc : exec c s = s.hostExec t code start) (hf : s.boot.failed = false ∨ code = 5)
    (hs : start (s.begin t) = (st, s.begin t)) :
    Completes c t s [.mgmt] fun u => u.mgmt = { s.mgmt with resp := ⟨st, BitVec.ofNat 16 code, 0⟩, shifted := some s.mgmt.resp } :=
  ⟨(s.begin t).respond ⟨st, BitVec.ofNat 16 code, 0⟩ s.mgmt.resp, by rw [hc, State.hostExec_of_portOpen h hf, hs],
    Only.respond (Only.refl _ _) (by decide) _ _, rfl⟩

theorem turnedAway_of_bootFailed {c : Instr} {s : State} {t code : Nat} {start : State → Status × State} (h : s.portOpen)
    (hc : exec c s = s.hostExec t code start) (hf : s.boot.failed = true) (h5 : code ≠ 5) :
    Completes c t s [.mgmt] fun u => u.mgmt = { s.mgmt with
      resp := ⟨if within 3 5 (s.rd F.CTL_BOOT_CAUSE) then .signature else .refused, BitVec.ofNat 16 code, 0⟩,
      shifted := some s.mgmt.resp } :=
  ⟨_, hc.trans (State.hostExec_of_bootFailed h hf h5 t start), Only.respond (Only.refl _ _) (by decide) _ _, rfl⟩

theorem LongOp.code_lt (op : LongOp) : op.code < 16 := by cases op <;> simp [LongOp.code]

theorem Only.startOp (s : State) (code : Nat) (op : LongOp) : Only [.regs, .mgmt] s (s.startOp code op) :=
  ⟨by simp, by simp, fun p hp => by cases p <;> simp_all [Part.same]⟩

/-- An operation whose OK is due has started when it runs and CTL_OPSTAT stands as its start leaves it. -/
theorem State.opStarted_respond {s v b : State} {op : LongOp} (ho : v.mgmt.op = some op)
    (hw : v.word 0x0004 = (b.startOp op.code op).word 0x0004) :
    s.opStarted (v.respond ⟨.ok, BitVec.ofNat 16 op.code, 0⟩ s.mgmt.resp) op := by
  obtain ⟨-, hcmd, hdone, hvalid, habort⟩ := State.startOp_stat b op op.code_lt
  exact ⟨ho, ⟨rfl, rfl, rfl⟩, (State.rd_of_word (f := F.CTL_OPSTAT_CMD) hw).trans hcmd,
    (State.flag_of_word (f := F.CTL_OPSTAT_DONE) hw).trans hdone, (State.flag_of_word (f := F.CTL_OPSTAT_VALID) hw).trans hvalid,
    (State.flag_of_word (f := F.CTL_OPSTAT_ABORT) hw).trans habort⟩

/-- An operation whose start does nothing but start it. -/
theorem started {c : Instr} {s : State} {t : Nat} {op : LongOp} {start : State → Status × State} (h : s.portOpen)
    (hc : exec c s = s.hostExec t op.code start) (hf : s.boot.failed = false ∨ op.code = 5)
    (hs : start (s.begin t) = (.ok, (s.begin t).startOp op.code op)) :
    CompletesAt c t s [.mgmt] [0x0004] fun u => s.opStarted u op := by
  refine ⟨_, hc.trans (State.hostExec_of_portOpen h hf t start), ?_, fun a ha => ?_, ?_⟩
  · rw [hs]
    exact Only.respond (Only.startOp _ _ _) (by decide) _ _
  · rw [hs, State.respond_word]
    exact State.startOp_word _ _ _ (by simpa using ha)
  · rw [hs]
    exact State.opStarted_respond (State.startOp_stat (s.begin t) op op.code_lt).1 rfl

/-! ### The starts -/

theorem State.recalStart_ok {s : State} (hr : s.ready = true) (hs : s.saf.st ≠ .clear) :
    s.recalStart = (.ok, s.startOp 2 (.recal (s.rd F.CTL_RECAL_ARG_MODE) s.clk false)) := by
  simp [State.recalStart, hr, hs]

theorem State.recalStart_refused {s : State} (h : s.ready = false ∨ s.saf.st = .clear) : s.recalStart = (.refused, s) := by
  rcases h with h | h <;> simp [State.recalStart, h]

/-- The accepted start of a load: the target page is locked (R77). -/
def State.loadStarted (s : State) (tgt : Bool) (lib : Nat) : State :=
  (s.startOp 3 (.pageLoad tgt lib s.clk)).modSeq fun q => { q with loading := some tgt }

theorem Only.loadStarted (s : State) (tgt : Bool) (lib : Nat) : Only [.regs, .mgmt, .seq] s (s.loadStarted tgt lib) :=
  ⟨by simp [State.loadStarted], by simp [State.loadStarted],
    fun p hp => by cases p <;> simp_all [Part.same, State.loadStarted]⟩

theorem State.loadStarted_word (s : State) (tgt : Bool) (lib : Nat) {a : Nat} (h : a ≠ 0x0004) :
    (s.loadStarted tgt lib).word a = s.word a := by
  unfold State.loadStarted
  rw [modSeq_word, State.startOp_word _ _ _ h]

theorem State.loadStarted_opstat (s : State) (tgt : Bool) (lib : Nat) :
    (s.loadStarted tgt lib).word 0x0004 = (s.startOp 3 (.pageLoad tgt lib s.clk)).word 0x0004 := by
  unfold State.loadStarted
  rw [modSeq_word]

theorem State.loadStarted_op (s : State) (tgt : Bool) (lib : Nat) :
    (s.loadStarted tgt lib).mgmt.op = some (.pageLoad tgt lib s.clk) := by
  have hm : (s.loadStarted tgt lib).mgmt = (s.startOp 3 (.pageLoad tgt lib s.clk)).mgmt := by simp [State.loadStarted]
  rw [hm]
  exact (State.startOp_stat s _ (by decide)).1

theorem State.pageLoadStart_ok {s : State} {p : Page} (ht : s.flag F.CTL_SEQ_LOADARG_TGT ≠ s.seq.actB) (hb : s.seq.batten = none)
    (hp : assoc s.seq.library (s.rd F.CTL_SEQ_LOADARG_LIB) = some p) :
    s.pageLoadStart = (.ok, s.loadStarted (s.flag F.CTL_SEQ_LOADARG_TGT) (s.rd F.CTL_SEQ_LOADARG_LIB)) := by
  simp [State.pageLoadStart, State.loadStarted, ht, hb, hp]

theorem State.pageLoadStart_refused {s : State} (h : s.flag F.CTL_SEQ_LOADARG_TGT = s.seq.actB ∨
    assoc s.seq.library (s.rd F.CTL_SEQ_LOADARG_LIB) = none) : s.pageLoadStart = (.refused, s) := by
  rcases h with h | h <;> simp [State.pageLoadStart, h]

theorem State.attestStart_ok {s : State} (h : s.boot.verifyDone = true) :
    s.attestStart = (.ok, s.startOp 4 (.attest ((List.range 13).map fun i => s.word (0xF030 + i)) s.stateWord)) := by
  simp [State.attestStart, h]

theorem State.attestStart_refused {s : State} (h : s.boot.verifyDone = false) : s.attestStart = (.refused, s) := by
  simp [State.attestStart, h]

theorem State.nvmStart_ok {s : State} (ht : s.nvmTempOk = true) (hl : s.boot.nvmlock = false) (hd : s.boot.flashDone = true)
    (hv : s.boot.verifyDone = true) (hr : s.nvmRangeOk = true) :
    s.nvmStart = (.ok, s.startOp 5 (.nvm (s.rd F.CTL_NVM_OP_OP) s.nvmAddr s.nvmLen)) := by
  simp [State.nvmStart, ht, hl, hd, hv, hr]

theorem State.nvmStart_temp {s : State} (h : s.nvmTempOk = false) : s.nvmStart = (.temp, s) := by
  simp [State.nvmStart, h]

theorem State.nvmStart_locked {s : State} (ht : s.nvmTempOk = true) (hl : s.boot.nvmlock = true) (hv : s.boot.verifyDone = true)
    (hf : s.boot.failed = false) : s.nvmStart = (.locked, s) := by
  simp [State.nvmStart, ht, hl, hv, hf]

theorem State.nvmStart_refused {s : State} (ht : s.nvmTempOk = true) (hd : s.boot.flashDone = false) (hl : s.boot.nvmlock = false) :
    s.nvmStart = (.refused, s) := by
  simp [State.nvmStart, ht, hd, hl]

theorem State.scrubStart_ok {s : State} (hc : s.rd F.MEM_SNARG_COUNT_COUNT ≠ 0)
    (hn : s.rdWide 0xA031 2 + s.rd F.MEM_SNARG_COUNT_COUNT ≤ s.subBursts) :
    s.scrubStart = (.ok, s.startOp 7 (.scrub (s.flag F.MEM_SNARG_SUB) (s.rdWide 0xA031 2) (s.rd F.MEM_SNARG_COUNT_COUNT))) := by
  refine if_neg ?_
  rw [Bool.or_eq_true, beq_iff_eq, Nat.blt_eq]
  exact not_or.mpr ⟨hc, not_lt.mpr hn⟩

theorem State.scrubStart_refused {s : State} (h : s.rd F.MEM_SNARG_COUNT_COUNT = 0 ∨
    s.subBursts < s.rdWide 0xA031 2 + s.rd F.MEM_SNARG_COUNT_COUNT) : s.scrubStart = (.refused, s) := by
  refine if_pos ?_
  rwa [Bool.or_eq_true, beq_iff_eq, Nat.blt_eq]

theorem State.retuneStart_refused {s : State} (h : s.tbu.holdover = true ∨ s.saf.st = .clear ∨ s.fstaged < 10000000 ∨
    250000000 < s.fstaged ∨ s.snapPend = true ∨ s.tbu.slewing = true) : s.retuneStart = (.refused, s) := by
  refine if_pos ?_
  simp only [Bool.or_eq_true, beq_iff_eq, Nat.blt_eq, or_assoc]
  exact h

theorem State.profileStart_refused {s : State} (h : 4 < s.rd F.CTL_PROF_ARG_CODE ∨
    s.flag (F.CTL_PROF_REC_DEF (s.rd F.CTL_PROF_ARG_CODE)) = false ∨ s.ready = false) : s.profileStart = (.refused, s) := by
  unfold State.profileStart
  simp only
  by_cases hc : Nat.blt 4 (s.rd F.CTL_PROF_ARG_CODE) || !s.flag (F.CTL_PROF_REC_DEF (s.rd F.CTL_PROF_ARG_CODE))
  · exact if_pos hc
  rw [if_neg hc]
  rw [Bool.or_eq_true, Nat.blt_eq, Bool.not_eq_true', not_or] at hc
  obtain ⟨h4, hd⟩ := hc
  have hr : s.ready = false := (h.resolve_left h4).resolve_left hd
  simp only [hr, Bool.not_false, Bool.true_or, if_true, ite_self]

/-! ### PROFILE_SET: the switch to come -/

/-- The accepted start of a profile switch: the page is copied and the groups are ungated (R509; log entry 152). -/
def State.switching (s : State) (code : Nat) : State :=
  ((((s.startOp 1 (.profileSet code s.clk false)).put F.CTL_PROFILE_SWPEND true).copyProfile code).ungate code)

theorem State.profileStart_ok {s : State} (hc : s.rd F.CTL_PROF_ARG_CODE ≤ 4)
    (hd : s.flag (F.CTL_PROF_REC_DEF (s.rd F.CTL_PROF_ARG_CODE)) = true)
    (hz : bitOf (s.rd (F.CTL_PROF_ZS_ZSOK (s.rd F.CTL_PROF_ARG_CODE))) s.saf.chA.zs = true) (hr : s.ready = true)
    (hh : s.halted = false) (hb : s.seq.batten = none) (hl : s.seq.loading = none)
    (hp : (assoc s.saf.pageSafe (s.rd (F.CTL_PROF_REC_LIB (s.rd F.CTL_PROF_ARG_CODE)))).all s.figuresOk = true)
    (ha : s.rd F.CTL_PROF_ARG_CODE ≠ s.rd F.CTL_PROFILE_ACTIVE) :
    s.profileStart = (.ok, s.switching (s.rd F.CTL_PROF_ARG_CODE)) := by
  have h4 : Nat.blt 4 (s.rd F.CTL_PROF_ARG_CODE) = false := by
    rw [← Bool.not_eq_true, Nat.blt_eq]
    omega
  simp [State.profileStart, h4, hd, hz, hr, hh, hb, hl, hp, ha]
  rfl

theorem Only.switching (s : State) (code : Nat) : Only [.regs, .mgmt, .seq] s (s.switching code) :=
  ⟨by simp [State.switching], by simp [State.switching], fun p hp => by cases p <;> simp_all [Part.same, State.switching]⟩

theorem State.switching_mgmt (s : State) (code : Nat) :
    (s.switching code).mgmt = (s.startOp 1 (.profileSet code s.clk false)).mgmt := by
  simp [State.switching]

/-- Ungating writes GATED and, past 4000h, ACTIVE of the ports. -/
theorem State.ungate_word (s : State) (code : Nat) {a : Nat} (ha : a < 0x4000) :
    (s.ungate code).word a = (s.wr F.CTL_PROFILE_GATED
      (s.rd F.CTL_PROFILE_GATED &&& (255 - s.rd (F.CTL_PROF_REC_ROWMASK code)))).word a := by
  unfold State.ungate
  exact State.fold_keeps (fun u : State => u.word a) State.refreshActive
    (fun u p => word_put_ne u _ _ a (by change a ≠ 0x4004 + 16 * p; omega)) _ _

/-- The record of a profile stands until it is copied. -/
theorem State.switchPending_record (s : State) (code k : Nat) (op : LongOp) :
    ((s.startOp k op).put F.CTL_PROFILE_SWPEND true).word (0x0138 + code) = s.word (0x0138 + code) := by
  have h4 : 0x0138 + code ≠ 0x0004 := by omega
  have hp : 0x0138 + code ≠ 0x0130 := by omega
  rw [word_put_ne _ _ _ _ hp, State.startOp_word _ _ _ h4]

theorem State.copyProfile_pageOf {s : State} {code : Nat} {p : Page}
    (hp : assoc s.seq.library (s.rd (F.CTL_PROF_REC_LIB code)) = some p) :
    (s.copyProfile code).seq.pageOf (!s.seq.actB) = p := by
  unfold State.copyProfile
  rw [hp]
  change (if s.seq.actB then { s.seq with pageA := p } else { s.seq with pageB := p } : Seq).pageOf (!s.seq.actB) = p
  cases s.seq.actB <;> rfl

theorem State.switching_page (s : State) {code : Nat} {p : Page}
    (hp : assoc s.seq.library (s.rd (F.CTL_PROF_REC_LIB code)) = some p) :
    (s.switching code).seq.pageOf (!s.seq.actB) = p := by
  unfold State.switching
  have hw := s.switchPending_record code 1 (.profileSet code s.clk false)
  have hs : ((s.startOp 1 (.profileSet code s.clk false)).put F.CTL_PROFILE_SWPEND true).seq = s.seq := by simp
  generalize (s.startOp 1 (.profileSet code s.clk false)).put F.CTL_PROFILE_SWPEND true = u at hw hs ⊢
  have hu : assoc u.seq.library (u.rd (F.CTL_PROF_REC_LIB code)) = some p := by
    rw [hs, State.rd_of_word (f := F.CTL_PROF_REC_LIB code) hw, hp]
  have hc : (u.copyProfile code).seq.pageOf (!u.seq.actB) = p := State.copyProfile_pageOf hu
  rw [hs] at hc
  simpa using hc

theorem State.switching_opstat (s : State) (code : Nat) :
    (s.switching code).word 0x0004 = (s.startOp 1 (.profileSet code s.clk false)).word 0x0004 := by
  unfold State.switching
  generalize hu : (s.startOp 1 (.profileSet code s.clk false)).put F.CTL_PROFILE_SWPEND true = u
  have hc : (u.copyProfile code).word 0x0004 = u.word 0x0004 := State.word_of_regs (by simp) _
  rw [State.ungate_word _ _ (by decide), word_wr_ne _ _ _ _ (by decide), hc, ← hu]
  exact word_put_ne _ _ _ _ (by decide)

/-- SWPEND is set, and the rows of the new profile leave GATED. -/
theorem State.switching_profile (s : State) (code : Nat) :
    (s.switching code).flag F.CTL_PROFILE_SWPEND = true ∧
    (s.switching code).rd F.CTL_PROFILE_GATED =
      s.rd F.CTL_PROFILE_GATED &&& (255 - s.rd (F.CTL_PROF_REC_ROWMASK code)) := by
  unfold State.switching
  generalize hu : (s.startOp 1 (.profileSet code s.clk false)).put F.CTL_PROFILE_SWPEND true = u
  have hc : ∀ a, (u.copyProfile code).word a = u.word a := State.word_of_regs (by simp)
  have hw : ∀ f : Fld, f.addr < 0x4000 → ((u.copyProfile code).ungate code).rd f = ((u.copyProfile code).wr F.CTL_PROFILE_GATED
      ((u.copyProfile code).rd F.CTL_PROFILE_GATED &&& (255 - (u.copyProfile code).rd (F.CTL_PROF_REC_ROWMASK code)))).rd f :=
    fun f hf => State.rd_of_word (State.ungate_word _ _ hf)
  constructor
  · rw [State.flag, hw _ (by decide), rd_wr_other _ _ _ _ (by decide) (by decide) (by decide), State.rd_of_word (hc _), ← hu]
    exact flag_put _ _ _ rfl (by decide)
  · have hr : u.rd (F.CTL_PROF_REC_ROWMASK code) = s.rd (F.CTL_PROF_REC_ROWMASK code) := by
      rw [← hu]
      exact State.rd_of_word (f := F.CTL_PROF_REC_ROWMASK code) (s.switchPending_record code 1 _)
    have hg : u.rd F.CTL_PROFILE_GATED = s.rd F.CTL_PROFILE_GATED := by
      rw [← hu, State.put, rd_wr_other _ _ _ _ (by decide) (by decide) (by decide)]
      exact State.rd_of_word (State.startOp_word _ _ _ (by decide))
    rw [hw _ (by decide), rd_wr _ _ _ (by decide) (by decide), State.rd_of_word (hc _), State.rd_of_word (hc _), hr, hg]
    exact Nat.mod_eq_of_lt (lt_of_le_of_lt Nat.and_le_left (bitsOf_lt _ _ _))

/-! ### TBU_RETUNE: the start of a retune -/

/-- What idle lanes leave alone of the timebase. -/
theorem State.idleLanes_holdover (s : State) :
    s.idleLanes.tbu.retune = s.tbu.retune ∧ s.idleLanes.tbu.holdover = s.tbu.holdover := by
  let v := fun u : State => (u.tbu.retune, u.tbu.holdover)
  have hl : ∀ u : State, v u.leaveChain = v u := by
    intro u
    dsimp only [v, State.leaveChain]
    split <;> simp
  have hp : ∀ (u : State) (x : ChainSide), v (u.portDown x) = v u := by
    intro u x
    unfold State.portDown
    split
    · rw [hl]
      simp [v]
    · simp [v]
  have h : v s.idleLanes = v s := by
    dsimp only [State.idleLanes]
    rw [State.fold_keeps v _ fun u n => by simp [v], State.fold_keeps v _ hp, State.fold_keeps v _ fun u n => by simp [v]]
  exact ⟨congrArg Prod.fst h, congrArg Prod.snd h⟩

/-- The accepted start of a retune: holdover, the backups of the clocks, self-refresh, idle lanes, and the staged value in force
(R457; log entry 15). -/
def State.retuning (s : State) : State :=
  let u := (s.startOp 6 (.retune s.clk)).freeze.modTbu fun x => { x with retune := true, backup := s.backups }
  (u.modMem fun m => { m with selfRef := true }).idleLanes.wrWide 0x1001 2 s.fstaged

theorem State.retuneStart_ok {s : State} (hh : s.tbu.holdover = false) (hs : s.tbu.slewing = false) (hp : s.snapPend = false)
    (hc : s.saf.st ≠ .clear) (hlo : 10000000 ≤ s.fstaged) (hhi : s.fstaged ≤ 250000000) :
    s.retuneStart = (.ok, s.retuning) := by
  refine if_neg ?_
  simp only [Bool.or_eq_true, beq_iff_eq, Nat.blt_eq, hh, hs, hp, Bool.false_eq_true, false_or, or_false]
  rintro ((h | h) | h)
  · exact hc h
  · exact not_lt.mpr hlo h
  · exact not_lt.mpr hhi h

theorem Only.retuning (s : State) : Only [.regs, .mgmt, .saf, .mem, .lnk, .tbu, .out, .free] s s.retuning :=
  ⟨by simp [State.retuning], by simp [State.retuning], fun p hp => by cases p <;> simp_all [Part.same, State.retuning]⟩

/-- A value that was written to two words is read from them. -/
theorem State.rdWide_wrWide_two (s : State) (a : Nat) {n : Nat} (h : n < 2 ^ 40) : (s.wrWide a 2 n).rdWide a 2 = n := by
  have h0 : (s.wrWide a 2 n).word a = BitVec.ofNat 20 n := by
    simp [State.wrWide, wordsOf, State.wrWords_word]
  have h1 : (s.wrWide a 2 n).word (a + 1) = BitVec.ofNat 20 (n / 2 ^ 20) := by
    simp [State.wrWide, wordsOf, State.wrWords_word]
  have hr : List.range 2 = [0, 1] := rfl
  rw [State.rdWide, hr, List.map_cons, List.map_cons, List.map_nil, Nat.add_zero, h0, h1]
  simp only [natOf, BitVec.toNat_ofNat]
  omega

theorem State.retuning_effect {s : State} (h : s.fstaged ≤ 250000000) :
    s.retuning.mgmt.op = some (.retune s.clk) ∧ s.retuning.tbu.retune = true ∧ s.retuning.tbu.holdover = true ∧
    s.retuning.mem = { s.mem with selfRef := true } ∧ s.retuning.fref = s.fstaged := by
  refine ⟨?_, ?_, ?_, by simp [State.retuning], State.rdWide_wrWide_two _ _ (by omega)⟩
  · simp only [State.retuning, State.wrWide_frame, State.idleLanes_op]
    exact (congrArg (fun m : Mgmt => m.op) (by simp)).trans (State.startOp_stat s (.retune s.clk) (code := 6) (by decide)).1
  · simp [State.retuning, State.idleLanes_holdover]
  · simp [State.retuning, State.idleLanes_holdover, State.freeze]

/-! ### The operations that start more than themselves -/

theorem profileSet_starts {s : State} (t : Nat) (h : s.portOpen) (hf : s.boot.failed = false) {code : Nat}
    (hs : (s.begin t).profileStart = (.ok, (s.begin t).switching code)) :
    Completes (.profileSet t) t s [.regs, .mgmt, .seq] fun u =>
      s.opStarted u (.profileSet code (s.begin t).clk false) ∧ u.flag F.CTL_PROFILE_SWPEND = true ∧
      u.rd F.CTL_PROFILE_GATED = s.rd F.CTL_PROFILE_GATED &&& (255 - s.rd (F.CTL_PROF_REC_ROWMASK code)) ∧
      (∀ p, assoc s.seq.library (s.rd (F.CTL_PROF_REC_LIB code)) = some p → u.seq.pageOf (!s.seq.actB) = p) := by
  refine ⟨_, State.hostExec_of_portOpen h (.inl hf) t State.profileStart, ?_⟩
  rw [hs]
  obtain ⟨hsw, hg⟩ := (s.begin t).switching_profile code
  have hop : ((s.begin t).switching code).mgmt.op = some (.profileSet code (s.begin t).clk false) := by
    rw [State.switching_mgmt]
    exact (State.startOp_stat _ _ (by decide)).1
  rw [begin_rd, begin_rd] at hg
  have hst := State.opStarted_respond (s := s) hop ((s.begin t).switching_opstat code)
  have hk := Only.switching (s.begin t) code
  have hp : ∀ p, assoc s.seq.library (s.rd (F.CTL_PROF_REC_LIB code)) = some p →
      ((s.begin t).switching code).seq.pageOf (!s.seq.actB) = p := fun p hp => State.switching_page (s.begin t) hp
  generalize (s.begin t).switching code = v at hsw hg hst hk hp ⊢
  exact ⟨Only.respond hk (by decide) _ _, hst, (State.flag_of_word (State.respond_word v _ _ _)).trans hsw,
    (State.rd_of_word (State.respond_word v _ _ _)).trans hg, fun p hq => by rw [State.respond_seq]; exact hp p hq⟩

theorem pageLoad_starts {s : State} (t : Nat) (h : s.portOpen) (hf : s.boot.failed = false) {tgt : Bool} {lib : Nat}
    (hs : (s.begin t).pageLoadStart = (.ok, (s.begin t).loadStarted tgt lib)) :
    CompletesAt (.pageLoad t) t s [.mgmt, .seq] [0x0004] fun u =>
      s.opStarted u (.pageLoad tgt lib (s.begin t).clk) ∧ u.seq = { s.seq with loading := some tgt } := by
  refine ⟨_, State.hostExec_of_portOpen h (.inl hf) t State.pageLoadStart, ?_⟩
  rw [hs]
  have hw : ∀ a, a ≠ 0x0004 → ((s.begin t).loadStarted tgt lib).word a = s.word a :=
    fun a ha => State.loadStarted_word (s.begin t) tgt lib ha
  have hop : ((s.begin t).loadStarted tgt lib).mgmt.op = some (.pageLoad tgt lib (s.begin t).clk) :=
    (s.begin t).loadStarted_op tgt lib
  have hst := State.opStarted_respond (s := s) (b := s.begin t) hop ((s.begin t).loadStarted_opstat tgt lib)
  have hk := Only.loadStarted (s.begin t) tgt lib
  have hseq : ((s.begin t).loadStarted tgt lib).seq = { s.seq with loading := some tgt } := by simp [State.loadStarted]
  generalize (s.begin t).loadStarted tgt lib = v at hw hst hk hseq ⊢
  exact ⟨Only.respond hk (by decide) _ _, fun a ha => (State.respond_word v _ _ a).trans (hw a (by simpa using ha)), hst,
    (State.respond_seq v _ _).trans hseq⟩

theorem tbuRetune_starts {s : State} (t : Nat) (h : s.portOpen) (hf : s.boot.failed = false) (hhi : s.fstaged ≤ 250000000)
    (hs : (s.begin t).retuneStart = (.ok, (s.begin t).retuning)) :
    Completes (.tbuRetune t) t s [.regs, .mgmt, .saf, .mem, .lnk, .tbu, .out, .free] fun u =>
      u.mgmt.op = some (.retune (s.begin t).clk) ∧ s.answered u 6 .ok ∧ u.tbu.retune = true ∧ u.tbu.holdover = true ∧
      u.mem = { s.mem with selfRef := true } ∧ u.fref = s.fstaged := by
  refine ⟨_, State.hostExec_of_portOpen h (.inl hf) t State.retuneStart, ?_⟩
  rw [hs]
  have he := State.retuning_effect (s := s.begin t) hhi
  have hk := Only.retuning (s.begin t)
  generalize (s.begin t).retuning = v at he hk ⊢
  obtain ⟨hop, hr, hh, hm, hfr⟩ := he
  exact ⟨Only.respond hk (by decide) _ _, hop, ⟨rfl, rfl, rfl⟩, hr, hh, hm, hfr⟩

/-- Settles O12: each start is the operation's own equation (`State.<operation>Start_ok`, `_refused`), in the frame of an open
port. -/
theorem longOperationsStartOrAreTurnedAway : Obligations.LongOperationsStartOrAreTurnedAway := by
  refine ⟨fun s t h hf => ⟨?_, ?_, ?_, ?_, ?_, ?_, ?_⟩, fun s t h => ⟨?_, ?_, ?_, ?_, ?_, ?_, ?_, ?_, ?_, ?_⟩⟩
  · rintro code rfl hc hd hz hr hh hb hl hp ha
    exact profileSet_starts t h hf (State.profileStart_ok (s := s.begin t) hc hd hz hr hh hb hl hp ha)
  · exact fun hr hs => started (op := .recal _ _ _) h rfl (.inl hf) (State.recalStart_ok (s := s.begin t) hr hs)
  · rintro tgt lib p rfl rfl ht hb hp
    exact pageLoad_starts t h hf (State.pageLoadStart_ok (s := s.begin t) ht hb hp)
  · exact fun hv => started (op := .attest _ _) h rfl (.inl hf) (State.attestStart_ok (s := s.begin t) hv)
  · exact fun ht hl hd hv hr => started (op := .nvm _ _ _) h rfl (.inl hf) (State.nvmStart_ok (s := s.begin t) ht hl hd hv hr)
  · exact fun hh hs hp hc hlo hhi => tbuRetune_starts t h hf hhi (State.retuneStart_ok (s := s.begin t) hh hs hp hc hlo hhi)
  · exact fun hc hn => started (op := .scrub _ _ _) h rfl (.inl hf) (State.scrubStart_ok (s := s.begin t) hc hn)
  · exact fun hf k => turnedAway h rfl (.inl hf) (State.profileStart_refused (s := s.begin t) k)
  · exact fun hf k => turnedAway h rfl (.inl hf) (State.recalStart_refused (s := s.begin t) k)
  · exact fun hf k => turnedAway h rfl (.inl hf) (State.pageLoadStart_refused (s := s.begin t) k)
  · exact fun hf k => turnedAway h rfl (.inl hf) (State.attestStart_refused (s := s.begin t) k)
  · exact fun k => turnedAway h rfl (.inr rfl) (State.nvmStart_temp (s := s.begin t) k)
  · exact fun ht hl hv hf => turnedAway h rfl (.inr rfl) (State.nvmStart_locked (s := s.begin t) ht hl hv hf)
  · exact fun ht hd hl => turnedAway h rfl (.inr rfl) (State.nvmStart_refused (s := s.begin t) ht hd hl)
  · exact fun hf k => turnedAway h rfl (.inl hf) (State.retuneStart_refused (s := s.begin t) k)
  · exact fun hf k => turnedAway h rfl (.inl hf) (State.scrubStart_refused (s := s.begin t) k)
  · rintro hf c code (⟨rfl, rfl⟩ | ⟨rfl, rfl⟩ | ⟨rfl, rfl⟩ | ⟨rfl, rfl⟩ | ⟨rfl, rfl⟩ | ⟨rfl, rfl⟩) <;>
      exact turnedAway_of_bootFailed h rfl hf (by decide)

end Sys2Proof.Machine

/-! ## The sequencer: rules of its operations

What an event that a counter goes with leaves, and how the sequencer goes on where no switch is deferred. -/

namespace Sys2Proof.Machine

variable {s u : State} {t : Nat} {e : Entry}

theorem wf_lt (w : Word) (hi lo : Nat) : wf w hi lo < 2 ^ (hi + 1 - lo) := bitsOf_lt _ _ _

/-! ### Parts -/

theorem Only.modSeq (s : State) (f : Seq → Seq) : Only [.seq] s (s.modSeq f) :=
  ⟨by simp, by simp, fun p hp => by cases p <;> simp_all [Part.same]⟩

theorem Only.wr (s : State) (f : Fld) (v : Nat) : Only [.regs] s (s.wr f v) :=
  ⟨by simp, by simp, fun p hp => by cases p <;> simp_all [Part.same]⟩

theorem Only.inc (s : State) (f : Fld) : Only [.regs] s (s.inc f) :=
  ⟨by simp, by simp, fun p hp => by cases p <;> simp_all [Part.same]⟩

theorem now_of (hc : u.clk = s.clk) (ht : u.tofs = s.tofs) : u.now = s.now := by
  rw [State.now, State.now, hc, ht]

/-- What the device has to tell depends on CTL_EVCFG alone. -/
theorem State.queues_of_word (h : u.word F.CTL_EVCFG_QEN.addr = s.word F.CTL_EVCFG_QEN.addr) (c : EvClass) : u.queues c = s.queues c := by
  have hq : u.rd F.CTL_EVCFG_QEN = s.rd F.CTL_EVCFG_QEN := State.rd_of_word h
  rw [State.queues, State.queues, hq]

/-- What is told rests on the management unit alone. -/
theorem State.told_congr {a b : State} (hm : b.mgmt = a.mgmt) {code arg : Nat} {cls : EvClass} (h : s.told a code cls arg) :
    s.told b code cls arg := by
  rw [State.told, hm]
  exact h

theorem State.told_modSeq (s t : State) (f : Seq → Seq) (code : Nat) (cls : EvClass) (arg : Nat) :
    s.told (t.modSeq f) code cls arg ↔ s.told t code cls arg := Iff.rfl

theorem State.raise_seq (s : State) (code : Nat) (cls : EvClass) (arg : Nat) : (s.raise code cls arg).seq = s.seq := by simp

/-! ### An event with its counter -/

/-- An event that a counter goes with is counted and told; no other word changes, the counters of lost events apart. -/
theorem State.inc_raise (s : State) (f : Fld) (code : Nat) (cls : EvClass) (arg : Nat) (hl : f.lo ≤ f.hi) (hh : f.hi < 20)
    (hf : f.addr ∉ evWords) (hq : f.addr ≠ F.CTL_EVCFG_QEN.addr) :
    Only (.regs :: evParts) s ((s.inc f).raise code cls arg) ∧
    (∀ a, a ∉ f.addr :: evWords → ((s.inc f).raise code cls arg).word a = s.word a) ∧
    s.told ((s.inc f).raise code cls arg) code cls arg ∧
    ((s.inc f).raise code cls arg).rd f = satN (f.hi + 1 - f.lo) (s.rd f + 1) := by
  refine ⟨(Only.inc s f).comp (Only.raise _ _ _ _) (by simp) (by simp [evParts]), fun a ha => ?_, ?_, ?_⟩
  · rw [List.mem_cons, not_or] at ha
    rw [State.raise_word _ _ _ _ ha.2, word_inc_ne _ _ _ ha.1]
  · exact State.told_of (State.raise_told _ _ _ _) (by simp)
      (State.queues_of_word (word_inc_ne _ _ _ (Ne.symm hq)) _) (now_of (by simp) (by simp))
  · rw [State.rd_of_word (State.raise_word _ _ _ _ hf), rd_inc s f hl hh]

theorem State.slip_spec (s : State) :
    Only (.regs :: evParts) s s.slip ∧ (∀ a, a ∉ F.CTL_SEQ_SLIP_COUNT.addr :: evWords → s.slip.word a = s.word a) ∧
    s.told s.slip 0x03 .warn 0 ∧ s.slip.rd F.CTL_SEQ_SLIP_COUNT = satN 20 (s.rd F.CTL_SEQ_SLIP_COUNT + 1) :=
  State.inc_raise s F.CTL_SEQ_SLIP_COUNT 0x03 .warn 0 (by decide) (by decide) (by decide) (by decide)

/-! ### Going on -/

/-- The schedule after an entry at which the sequencer goes on. -/
def Seq.went (q : Seq) (next : Nat) : Seq := { q with pc := q.next, next := next }

/-- The schedule after an entry that the next one follows. -/
def Seq.stepped (q : Seq) : Seq := q.went (q.after q.next)

/-- No deferred switch can take place: none waits, or its page is still loading. -/
def Seq.Waits (q : Seq) : Prop := q.deferred = none ∨ ∃ g n l, q.deferred = some (g, n, l) ∧ q.loading = some g

theorem State.settleDeferred_of_waits (h : s.seq.Waits) : s.settleDeferred = s := by
  rcases h with h | ⟨g, n, l, h, hl⟩
  · simp [State.settleDeferred, h]
  · unfold State.settleDeferred
    rw [h]
    split
    next hd _ =>
      obtain rfl : g = _ := congrArg Prod.fst (Option.some.inj hd)
      simp [hl]
    next => rfl

theorem State.settleDeferred_of_none (h : s.seq.deferred = none) : s.settleDeferred = s :=
  State.settleDeferred_of_waits (.inl h)

theorem State.goOn_of_none (h : s.seq.deferred = none) (n : Nat) : s.goOn n = s.modSeq fun q => q.went n :=
  State.settleDeferred_of_none (s := s.modSeq fun q => q.went n) h

theorem State.advance_of_none (h : s.seq.deferred = none) : s.advance = s.modSeq Seq.stepped :=
  State.goOn_of_none h _

end Sys2Proof.Machine

namespace Sys2Proof.Machine

variable {s u : State} {t : Nat} {e : Entry}

/-! ### SYNC -/

theorem syncFlag_ne_trig (s : State) (b : Bool) :
    (s.put F.CTL_SEQ_FLAGS_SYNC_TO b).rd F.CTL_SEQ_FLAGS_TRIG = s.rd F.CTL_SEQ_FLAGS_TRIG :=
  rd_wr_other _ _ _ _ (by decide) (by decide) (by decide)

theorem exec_sync (h : s.fetch 6 = .entry e) :
    exec (.sync t) s = .next ((s.begin t).modSeq fun q => { q with
      st := .syncwait, pc := q.next, next := q.after q.next, syncSrc := wf e.w0 15 12, syncArg := wf e.w0 11 4,
      syncOfs := e.w1.toNat, syncTmo := e.w2.toNat, syncIssue := (s.begin t).now, syncHit := none }) := by
  have hb : (s.begin t).fetch 6 = .entry e := h
  simp only [exec, execSync, hb]

/-- The wait for a SYNC's event ends at an instant, with the flag that tells what ended it. -/
theorem syncEnds {c : Instr} {i : Nat} {late : Bool} (hd : s.seq.deferred = none)
    (he : exec c s = .next (((s.begin t).put F.CTL_SEQ_FLAGS_SYNC_TO late).endSync i)) :
    CompletesAt c t s [.seq] [F.CTL_SEQ_FLAGS_SYNC_TO.addr] fun u =>
      u.flag F.CTL_SEQ_FLAGS_SYNC_TO = late ∧ u.rd F.CTL_SEQ_FLAGS_TRIG = s.rd F.CTL_SEQ_FLAGS_TRIG ∧
      u.seq = { s.seq with st := .run, cursor := i + s.seq.syncOfs, syncHit := none } := by
  rw [State.endSync, State.settleDeferred_of_none (by simpa using hd)] at he
  refine ⟨_, he, (Only.put _ _ _).comp (Only.modSeq _ _) (by decide) (by decide), fun a ha => ?_, ?_, ?_, ?_⟩
  · rw [modSeq_word, word_put_ne _ _ _ _ (by simpa using ha), begin_word]
  · rw [modSeq_flag, flag_put _ _ _ rfl (by decide)]
  · rw [modSeq_rd, syncFlag_ne_trig, begin_rd]
  · simp

/-- SYNC_EVENT with the awaited event come: the event ends the wait, or the timeout where the event came after it. -/
theorem exec_syncEvent {i : Nat} (hw : s.seq.st = .syncwait) (hi : (s.begin t).syncInstant = some i) :
    exec (.syncEvent t) s = .next (if s.seq.syncTmo ≠ 0 ∧ s.syncLimit < i then (s.begin t).syncTimeout
      else ((s.begin t).put F.CTL_SEQ_FLAGS_SYNC_TO false).endSync i) := by
  have hb : (s.begin t).seq = s.seq := rfl
  have hl : (s.begin t).syncLimit = s.syncLimit := rfl
  dsimp only [exec, execSyncEvent]
  rw [hi]
  simp only [hb, hw, hl, bne_self_eq_false, Bool.false_eq_true, if_false, Bool.and_eq_true, bne_iff_ne, Nat.blt_eq]
  split <;> rfl

/-- SYNC_TO at the timeout instant ends the wait where no event has come by it. -/
theorem exec_syncTo (hw : s.seq.st = .syncwait) (ht : s.seq.syncTmo ≠ 0) (hl : s.syncLimit ≤ (s.begin t).now)
    (hi : ∀ i, (s.begin t).syncInstant = some i → s.syncLimit < i) :
    exec (.syncTo t) s = .next (s.begin t).syncTimeout := by
  have hn : (s.begin t).syncInstant.any (fun i => Nat.ble i s.syncLimit) = false := by
    rw [← Bool.not_eq_true, Option.any_eq_true]
    rintro ⟨i, hs, hle⟩
    exact Nat.not_le.mpr (hi i hs) (Nat.le_of_ble_eq_true hle)
  dsimp only [exec, execSyncTo]
  refine if_neg ?_
  have hb : (s.begin t).seq = s.seq := rfl
  have hlim : (s.begin t).syncLimit = s.syncLimit := rfl
  simp only [hb, hw, hlim, hn, bne_self_eq_false, Bool.false_or, Bool.or_false, Bool.or_eq_true, beq_iff_eq, Nat.blt_eq,
    not_or]
  exact ⟨ht, Nat.not_lt.mpr hl⟩

/-- No SYNC waits: its event and its timeout change nothing. -/
theorem exec_syncEnd_idle {c : Instr} (hc : c = .syncEvent t ∨ c = .syncTo t) (h : s.seq.st ≠ .syncwait) :
    exec c s = .next (s.begin t) := by
  have hb : (s.begin t).seq = s.seq := rfl
  rcases hc with rfl | rfl
  · simp [exec, execSyncEvent, h]
  · simp [exec, execSyncTo, h]

/-- Settles O32. -/
theorem syncWaitsForItsEventOrTimeout : Obligations.SyncWaitsForItsEventOrTimeout := by
  unfold Obligations.SyncWaitsForItsEventOrTimeout
  intro s t hd b
  refine ⟨fun e h => ?_, fun e hw hi hlim => ?_, ?_, fun c hc h => ?_⟩
  · exact ⟨_, exec_sync h, Only.modSeq _ _, rfl⟩
  · refine syncEnds hd ((exec_syncEvent hw hi).trans ?_)
    rw [if_neg]
    rintro ⟨h0, hlt⟩
    rcases hlim with h | h
    · exact h0 h
    · exact Nat.not_le.mpr hlt h
  · intro c hw ht e h
    rcases h with ⟨rfl, hle, hn⟩ | ⟨rfl, i, hi, hlt⟩
    · exact syncEnds hd (exec_syncTo hw ht hle hn)
    · refine syncEnds hd ((exec_syncEvent hw hi).trans ?_)
      rw [if_pos ⟨ht, hlt⟩]
      rfl
  · exact completes_of_next (exec_syncEnd_idle hc h) _

end Sys2Proof.Machine

namespace Sys2Proof.Machine

variable {s u : State} {t : Nat} {e : Entry}

/-! ### BRANCH -/

/-- The branch taken or not, by its condition and POL. -/
def Seq.branchNext (q : Seq) (e : Entry) (c : Bool) : Nat :=
  if c != (wf e.w0 10 10 == 1) then wf e.w1 11 0 else q.after q.next

theorem exec_branch (h : s.fetch 7 = .entry e) (hd : s.seq.deferred = none) (hs : ((s.begin t).branchCond e).2.seq = s.seq) :
    exec (.branch t) s = .next (((s.begin t).branchCond e).2.modSeq fun q =>
      q.went (q.branchNext e ((s.begin t).branchCond e).1)) := by
  have hb : (s.begin t).fetch 7 = .entry e := h
  simp only [exec, execBranch, hb, Seq.branchNext]
  split
  · rw [State.goOn_of_none (by rw [hs, hd])]
  · rw [State.advance_of_none (by rw [hs, hd])]; rfl

/-- A BRANCH by counter counts it down, or loads it where it is 0 (R69). -/
theorem State.branchCond_of_counter (h : wf e.w0 9 9 = 1) :
    let f := F.CTL_SEQ_LC_LC (wf e.w0 8 7)
    s.branchCond e = if s.rd f = 0 then (decide (wf e.w2 11 0 ≠ 0), s.wr f (wf e.w2 11 0))
      else (decide (s.rd f ≠ 1), s.wr f (s.rd f - 1)) := by
  simp [State.branchCond, h, bne, beq_eq_decide]

theorem State.branchCond_of_flag (h : wf e.w0 9 9 = 0) :
    s.branchCond e = (s.branchFlag (wf e.w0 15 11), if wf e.w0 6 6 = 1 then s.clearFlag (wf e.w0 15 11) else s) := by
  simp [State.branchCond, h]

theorem loopCounter_rd_wr (s : State) (n : Nat) {v : Nat} (h : v < 4096) :
    (s.wr (F.CTL_SEQ_LC_LC n) v).rd (F.CTL_SEQ_LC_LC n) = v :=
  (rd_wr s (F.CTL_SEQ_LC_LC n) v (by simp [F.CTL_SEQ_LC_LC]) (by simp [F.CTL_SEQ_LC_LC])).trans (Nat.mod_eq_of_lt h)

/-- A sticky flag of CTL_SEQ_FLAGS that is cleared falls unless the device set it in this instant; the other bits stay. -/
theorem State.clearSticky_bit (s : State) {i k : Nat} (hi : i < 20) :
    bitOf ((s.clearSticky i).word 0x0101).toNat k =
      (bitOf (s.word 0x0101).toNat k && (k != i || bitOf (s.freshAt 0x0101).toNat i)) := by
  unfold State.clearSticky
  split
  next hf => rw [hf, Bool.or_true, Bool.and_true]
  next hf =>
    rw [State.put, word_wr, if_pos rfl, bitOf_eq_testBit, putBits_testBit _ _ _ _ _ le_rfl hi, bitOf_eq_testBit]
    by_cases hk : k = i
    · simp [hk, hf, b2n]
    · rw [if_neg (fun h => hk (Nat.le_antisymm h.2 h.1))]
      simp [hk]

theorem State.clearSticky_only (s : State) (i : Nat) : Only [.regs] s (s.clearSticky i) := by
  unfold State.clearSticky
  split
  · exact Only.refl _ _
  · exact Only.put _ _ _

theorem State.clearSticky_word (s : State) (i : Nat) {a : Nat} (h : a ≠ 0x0101) : (s.clearSticky i).word a = s.word a := by
  unfold State.clearSticky
  split
  · rfl
  · exact word_put_ne _ _ _ _ h

/-- The bit of CTL_SEQ_FLAGS that a branch flag clears. -/
def stickyBit (n : Nat) : Option Nat :=
  if n = 3 then some F.CTL_SEQ_FLAGS_SYNC_TO.lo
  else if 0x15 ≤ n ∧ n ≤ 0x18 then some (F.CTL_SEQ_FLAGS_TRIG.lo + (n - 0x15)) else none

theorem State.clearFlag_eq (s : State) (n : Nat) : s.clearFlag n = ((stickyBit n).map s.clearSticky).getD s := by
  unfold State.clearFlag stickyBit
  by_cases h3 : n = 3
  · simp [h3]
  · by_cases hr : 0x15 ≤ n ∧ n ≤ 0x18 <;> simp [h3, hr]

theorem State.clearFlag_only (s : State) (n : Nat) : Only [.regs] s (s.clearFlag n) := by
  rw [State.clearFlag_eq]
  cases stickyBit n
  · exact Only.refl _ _
  · exact s.clearSticky_only _

theorem State.clearFlag_word (s : State) (n : Nat) {a : Nat} (h : a ≠ 0x0101) : (s.clearFlag n).word a = s.word a := by
  rw [State.clearFlag_eq]
  cases stickyBit n
  · rfl
  · exact s.clearSticky_word _ h

theorem stickyBit_lt {n i : Nat} (h : stickyBit n = some i) : i < 20 := by
  unfold stickyBit at h
  have h1 : F.CTL_SEQ_FLAGS_SYNC_TO.lo = 19 := rfl
  have h2 : F.CTL_SEQ_FLAGS_TRIG.lo = 15 := rfl
  split at h
  · cases h; decide
  · split at h
    · cases h; omega
    · cases h

theorem State.clearFlag_bit (s : State) (n k : Nat) :
    bitOf ((s.clearFlag n).word 0x0101).toNat k =
      (bitOf (s.word 0x0101).toNat k && (decide (stickyBit n ≠ some k) || bitOf (s.freshAt 0x0101).toNat k)) := by
  rw [State.clearFlag_eq]
  cases hb : stickyBit n with
  | none => simp
  | some i =>
    rw [Option.map_some, Option.getD_some, s.clearSticky_bit (stickyBit_lt hb)]
    by_cases hk : k = i
    · simp [hk]
    · simp [hk, Ne.symm hk]

theorem stickyBit_eq_syncTo (n : Nat) : stickyBit n = some F.CTL_SEQ_FLAGS_SYNC_TO.lo ↔ n = 3 := by
  simp only [stickyBit, F.CTL_SEQ_FLAGS_SYNC_TO, F.CTL_SEQ_FLAGS_TRIG]
  split
  · simp [*]
  · split <;> simp <;> omega

theorem stickyBit_eq_trig (n : Nat) {k : Nat} (h : k < 4) :
    stickyBit n = some (F.CTL_SEQ_FLAGS_TRIG.lo + k) ↔ n = 0x15 + k := by
  simp only [stickyBit, F.CTL_SEQ_FLAGS_SYNC_TO, F.CTL_SEQ_FLAGS_TRIG]
  split
  · simp; omega
  · split <;> simp <;> omega

theorem State.syncTo_eq_bitOf (s : State) :
    s.flag F.CTL_SEQ_FLAGS_SYNC_TO = bitOf (s.word 0x0101).toNat F.CTL_SEQ_FLAGS_SYNC_TO.lo :=
  s.flag_eq_bitOf 0x0101 19

theorem State.trig_eq_bitOf (s : State) {k : Nat} (h : k < 4) :
    bitOf (s.rd F.CTL_SEQ_FLAGS_TRIG) k = bitOf (s.word 0x0101).toNat (F.CTL_SEQ_FLAGS_TRIG.lo + k) := by
  rw [State.rd, bitOf_eq_testBit, bitOf_eq_testBit, bitsOf_testBit]
  simp [F.CTL_SEQ_FLAGS_TRIG, h]

/-- What a BRANCH by a flag leaves of the sticky flags. -/
theorem State.clearFlag_flags (s : State) (n : Nat) :
    let fresh := fun (i : Nat) => bitOf (s.freshAt 0x0101).toNat i
    (s.clearFlag n).flag F.CTL_SEQ_FLAGS_SYNC_TO =
      (s.flag F.CTL_SEQ_FLAGS_SYNC_TO && (n != 3 || fresh F.CTL_SEQ_FLAGS_SYNC_TO.lo)) ∧
    ∀ k, k < 4 → bitOf ((s.clearFlag n).rd F.CTL_SEQ_FLAGS_TRIG) k = (bitOf (s.rd F.CTL_SEQ_FLAGS_TRIG) k &&
      (n != 0x15 + k || fresh (F.CTL_SEQ_FLAGS_TRIG.lo + k))) := by
  refine ⟨?_, fun k hk => ?_⟩
  · rw [State.syncTo_eq_bitOf, State.syncTo_eq_bitOf, State.clearFlag_bit]
    simp only [ne_eq, stickyBit_eq_syncTo, bne, beq_eq_decide, decide_not]
  · rw [State.trig_eq_bitOf _ hk, State.trig_eq_bitOf _ hk, State.clearFlag_bit]
    simp only [ne_eq, stickyBit_eq_trig n hk, bne, beq_eq_decide, decide_not]

/-- A BRANCH by counter writes its counter and goes on by its condition. -/
theorem branchByCounter {c : Bool} {n x : Nat} (h : s.fetch 7 = .entry e) (hd : s.seq.deferred = none)
    (hc : (s.begin t).branchCond e = (c, (s.begin t).wr (F.CTL_SEQ_LC_LC n) x)) (hx : x < 4096) :
    CompletesAt (.branch t) t s [.seq] [(F.CTL_SEQ_LC_LC n).addr] fun u =>
      u.seq = s.seq.went (s.seq.branchNext e c) ∧ u.rd (F.CTL_SEQ_LC_LC n) = x := by
  have he := exec_branch (t := t) h hd (by simp [hc])
  rw [hc] at he
  refine ⟨_, he, (Only.wr _ _ _).comp (Only.modSeq _ _) (by decide) (by decide), fun a ha => ?_, by simp, ?_⟩
  · rw [modSeq_word, word_wr_ne _ _ _ _ (by simpa using ha), begin_word]
  · rw [modSeq_rd, loopCounter_rd_wr _ _ hx]

/-- Settles O33. -/
theorem branchesFollowFlagsAndCounters : Obligations.BranchesFollowFlagsAndCounters := by
  unfold Obligations.BranchesFollowFlagsAndCounters
  intro s t e h hd b goes
  refine ⟨fun hc => ?_, fun hc => ?_⟩
  · intro f v
    have hv : v < 4096 := bitsOf_lt _ _ _
    have hw : wf e.w2 11 0 < 4096 := wf_lt _ _ _
    have hcond : b.branchCond e = if v = 0 then (decide (wf e.w2 11 0 ≠ 0), b.wr f (wf e.w2 11 0))
        else (decide (v ≠ 1), b.wr f (v - 1)) := State.branchCond_of_counter hc
    by_cases h0 : v = 0
    · obtain ⟨u, he, ho, hu, hp⟩ := branchByCounter h hd (hcond.trans (if_pos h0)) hw
      exact ⟨u, he, ho, hu, fun _ => hp, fun hn => absurd h0 hn⟩
    · obtain ⟨u, he, ho, hu, hp⟩ := branchByCounter h hd (hcond.trans (if_neg h0)) (Nat.sub_lt_of_lt hv)
      exact ⟨u, he, ho, hu, fun hn => absurd hn h0, fun _ => hp⟩
  · intro n fresh
    have hcond := State.branchCond_of_flag (s := b) hc
    refine ⟨fun hl => ?_, fun hl => ?_⟩
    · rw [if_neg (by omega)] at hcond
      have he := exec_branch (t := t) h hd (congrArg (fun x => x.2.seq) hcond)
      rw [hcond] at he
      exact ⟨_, he, Only.modSeq _ _, rfl⟩
    · rw [if_pos hl] at hcond
      have hs : (b.clearFlag n).seq = s.seq := (b.clearFlag_only n).2.2 .seq (by decide)
      have he := exec_branch (t := t) h hd ((congrArg (fun x => x.2.seq) hcond).trans hs)
      rw [hcond] at he
      refine ⟨_, he, (b.clearFlag_only n).comp (Only.modSeq _ _) (by decide) (by decide),
        fun a ha => b.clearFlag_word n fun h => ha (List.mem_singleton.mpr h), ?_, b.clearFlag_flags n⟩
      exact congrArg (fun q : Seq => q.went (q.branchNext e (b.branchFlag n))) hs

end Sys2Proof.Machine

namespace Sys2Proof.Machine

variable {s u : State} {t : Nat} {e : Entry}

/-! ### FIRE -/

/-- The generator's next state and the dither of a FIRE entry. -/
def State.dither (s : State) (e : Entry) : Nat × Int :=
  if wf e.w1 12 5 = 0 then (s.rd F.EDU_DITH_STATE_STATE, 0) else drawDither (s.rd F.EDU_DITH_STATE_STATE) (wf e.w1 12 5)

/-- The schedule after a FIRE entry that has posted a fire with dither `d` at an instant. -/
def Seq.fired (q : Seq) (f : Fire) (inst : Nat) (d : Int) : Seq :=
  { q.stepped with
    fires := q.fires ++ [f], nextId := q.nextId + 1, bounds := q.bounds ++ [min (inst + 6 + f.win) (inst + 4097)],
    cursor := ((inst : Int) - d + q.active.pitch).toNat }

/-- What a fire takes from the registers are the currents of its group and the trims of its row. -/
theorem State.fireOf_of_words (hq : u.seq = s.seq) (hw : ∀ a, 0x2008 ≤ a → a < 0x2080 → a ≠ 0x2011 → u.word a = s.word a)
    (inst : Nat) (d : Int) : u.fireOf e inst d = s.fireOf e inst d := by
  have h1 := wf_lt e.w0 12 10
  have h2 := wf_lt e.w0 15 13
  have hg : u.rd (F.EDU_ISET_G (wf e.w0 12 10)) = s.rd (F.EDU_ISET_G (wf e.w0 12 10)) :=
    State.rd_of_word (hw _ (by simp [F.EDU_ISET_G]) (by simp [F.EDU_ISET_G]; omega) (by simp [F.EDU_ISET_G]; omega))
  have ht : (List.range 8).map (fun c => u.rd (F.EDU_TRIM_T (8 * wf e.w0 15 13 + c))) =
      (List.range 8).map fun c => s.rd (F.EDU_TRIM_T (8 * wf e.w0 15 13 + c)) := by
    refine List.map_congr_left fun c hc => State.rd_of_word ?_
    have h3 := List.mem_range.mp hc
    exact hw _ (by simp [F.EDU_TRIM_T]; omega) (by simp [F.EDU_TRIM_T]; omega) (by simp [F.EDU_TRIM_T]; omega)
  simp only [State.fireOf, hq, hg, ht]

/-- Post a fire of a FIRE entry and go on. -/
def State.fireIssued (s : State) (e : Entry) (d : Int) (inst : Nat) : State :=
  let v := s.postFire (s.fireOf e inst d)
  (v.modSeq fun q => { q with cursor := ((inst : Int) - d + v.seq.active.pitch).toNat }).advance

/-- The state in which a FIRE entry has drawn its dither. -/
def State.dithered (s : State) (t : Nat) (e : Entry) : State := (s.begin t).wr F.EDU_DITH_STATE_STATE (s.dither e).1

theorem State.dithered_seq (s : State) (t : Nat) (e : Entry) : (s.dithered t e).seq = s.seq := by simp [State.dithered]

theorem State.dithered_now (s : State) (t : Nat) (e : Entry) : (s.dithered t e).now = (s.begin t).now :=
  now_of (by simp [State.dithered]) (by simp [State.dithered])

theorem State.dithered_word (s : State) (t : Nat) (e : Entry) {a : Nat} (h : a ≠ F.EDU_DITH_STATE_STATE.addr) :
    (s.dithered t e).word a = s.word a :=
  word_wr_ne _ _ _ _ h

theorem State.dithered_rd (s : State) (t : Nat) (e : Entry) :
    (s.dithered t e).rd F.EDU_DITH_STATE_STATE = (s.dither e).1 % 2 ^ 20 :=
  rd_wr _ _ _ (by decide) (by decide)

theorem State.dithered_only (s : State) (t : Nat) (e : Entry) : Only [.regs] (s.begin t) (s.dithered t e) := Only.wr _ _ _

theorem State.dither_begin (s : State) (t : Nat) (e : Entry) :
    (if (wf e.w1 12 5 == 0) = true then ((s.begin t).rd F.EDU_DITH_STATE_STATE, (0 : Int)) else
      drawDither ((s.begin t).rd F.EDU_DITH_STATE_STATE) (wf e.w1 12 5)) = s.dither e := by
  rw [begin_rd, State.dither]
  simp only [beq_iff_eq]

theorem exec_fire (h : s.fetch 1 = .entry e) :
    exec (.fire t) s = .next (if (s.seq.cursor : Int) + (s.dither e).2 < (s.begin t).now
      then (s.dithered t e).slip.fireIssued e (s.dither e).2 (s.begin t).now
      else (s.dithered t e).fireIssued e (s.dither e).2 ((s.seq.cursor : Int) + (s.dither e).2).toNat) := by
  have hb : (s.begin t).fetch 1 = .entry e := h
  have hn : (s.dithered t e).now = (s.begin t).now := s.dithered_now t e
  simp only [exec, execFire, hb, State.dither_begin]
  rw [← State.dithered, hn, s.dithered_seq]
  by_cases hl : (s.seq.cursor : Int) + (s.dither e).2 < (s.begin t).now
  · simp only [hl, decide_true, if_true, State.fireIssued]
  · simp only [hl, decide_false, Bool.false_eq_true, if_false, State.fireIssued]

/-- A fire that is issued is posted, T advances by PITCH, and the next entry follows. -/
theorem State.fireIssued_eq (hq : u.seq = s.seq) (hd : s.seq.deferred = none)
    (hw : ∀ a, 0x2008 ≤ a → a < 0x2080 → a ≠ 0x2011 → u.word a = s.word a) (d : Int) (inst : Nat) :
    u.fireIssued e d inst = u.modSeq fun q => q.fired (s.fireOf e inst d) inst d := by
  dsimp only [State.fireIssued]
  rw [State.advance_of_none (by simpa [State.postFire, hq] using hd), State.fireOf_of_words hq hw]
  rfl

/-- A FIRE entry whose instant has not passed. -/
theorem fire_posts (h : s.fetch 1 = .entry e) (hd : s.seq.deferred = none)
    (hle : ((s.begin t).now : Int) ≤ s.seq.cursor + (s.dither e).2) :
    let inst := ((s.seq.cursor : Int) + (s.dither e).2).toNat
    CompletesAt (.fire t) t s [.seq] [F.EDU_DITH_STATE_STATE.addr] fun u =>
      u.seq = s.seq.fired (s.fireOf e inst (s.dither e).2) inst (s.dither e).2 ∧
      u.rd F.EDU_DITH_STATE_STATE = (s.dither e).1 % 2 ^ 20 := by
  have he := exec_fire (t := t) h
  have hw : ∀ a, a ≠ F.EDU_DITH_STATE_STATE.addr → (s.dithered t e).word a = s.word a := fun a ha => s.dithered_word t e ha
  rw [if_neg (Int.not_lt.mpr hle), State.fireIssued_eq (s.dithered_seq t e) hd fun a _ _ ha => hw a ha] at he
  refine ⟨_, he, (s.dithered_only t e).comp (Only.modSeq _ _) (by decide) (by decide), fun a ha => ?_, ?_, ?_⟩
  · exact hw a fun h => ha (List.mem_singleton.mpr h)
  · exact congrArg (fun q : Seq => q.fired _ _ _) (s.dithered_seq t e)
  · exact s.dithered_rd t e

/-- A FIRE entry whose instant has passed: a slip, and the fire is posted at once. -/
theorem fire_slips (h : s.fetch 1 = .entry e) (hd : s.seq.deferred = none)
    (hlt : (s.seq.cursor : Int) + (s.dither e).2 < (s.begin t).now) :
    CompletesAt (.fire t) t s (.seq :: evParts) (F.EDU_DITH_STATE_STATE.addr :: F.CTL_SEQ_SLIP_COUNT.addr :: evWords) fun u =>
      u.seq = s.seq.fired (s.fireOf e (s.begin t).now (s.dither e).2) (s.begin t).now (s.dither e).2 ∧
      u.rd F.EDU_DITH_STATE_STATE = (s.dither e).1 % 2 ^ 20 ∧ (s.begin t).told u 0x03 .warn 0 ∧
      u.rd F.CTL_SEQ_SLIP_COUNT = satN 20 (s.rd F.CTL_SEQ_SLIP_COUNT + 1) := by
  have he := exec_fire (t := t) h
  obtain ⟨ho, hw, hto, hrd⟩ := (s.dithered t e).slip_spec
  have hq : (s.dithered t e).slip.seq = s.seq := by rw [← s.dithered_seq t e]; simp
  have hdw : ∀ a, a ≠ F.EDU_DITH_STATE_STATE.addr → (s.dithered t e).word a = s.word a := fun a ha => s.dithered_word t e ha
  have hsw : ∀ a, a ∉ F.EDU_DITH_STATE_STATE.addr :: F.CTL_SEQ_SLIP_COUNT.addr :: evWords →
      (s.dithered t e).slip.word a = s.word a := fun a ha =>
    (hw a fun h => ha (List.mem_cons_of_mem _ h)).trans (hdw a fun h => ha (h ▸ List.mem_cons_self))
  have hfw : ∀ a, 0x2008 ≤ a → a < 0x2080 → a ≠ 0x2011 → (s.dithered t e).slip.word a = s.word a := fun a h1 h2 h3 =>
    hsw a (by
      simp only [evWords, F.EDU_DITH_STATE_STATE, F.CTL_SEQ_SLIP_COUNT, F.CTL_EVLOST_COUNT, F.LNK_EVLOST_COUNT,
        List.mem_cons, List.not_mem_nil, or_false]
      omega)
  rw [if_pos hlt, State.fireIssued_eq hq hd hfw] at he
  refine ⟨_, he, ((s.dithered_only t e).comp ho (by decide) (by decide)).comp (Only.modSeq _ _) (fun _ h => h) (by decide),
    fun a ha => (modSeq_word _ _ _).trans (hsw a ha), ?_, ?_, ?_, ?_⟩
  · rw [State.modSeq_seq, hq]
  · rw [modSeq_rd, State.rd_of_word (hw _ (by decide)), s.dithered_rd t e]
  · exact State.told_congr (by simp) (State.told_of hto (congrArg Mgmt.evq ((s.dithered_only t e).2.2 .mgmt (by decide)))
      (State.queues_of_word (hdw _ (by decide)) _) (s.dithered_now t e))
  · rw [modSeq_rd, hrd, State.rd_of_word (hdw _ (by decide))]

/-- Settles O30. -/
theorem fireEntriesPostFires : Obligations.FireEntriesPostFires := by
  unfold Obligations.FireEntriesPostFires
  intro s t e h hd b x posted
  have hx : x = s.dither e := rfl
  clear_value x
  subst hx
  refine ⟨fun hle => fire_posts h hd hle, fun hlt => ?_⟩
  obtain ⟨u, he, ho, hw, hs, hr, htold⟩ := fire_slips h hd hlt
  exact ⟨u, he, ho, hw, ⟨hs, hr⟩, htold⟩

end Sys2Proof.Machine

/-! ## WAIT, MARK, LISTEN and CAL (R51, R53, R61 to R64) -/

namespace Sys2Proof.Machine

variable {s u : State} {t : Nat} {e : Entry}

/-! ### WAIT -/

/-- The schedule after a WAIT at an instant that counts from `a`. -/
def Seq.waited (q : Seq) (now a : Nat) (e : Entry) : Seq :=
  let bounds := q.bounds.filter fun x => Nat.blt now x
  let tt := a + (wf e.w2 11 0 * 2 ^ 20 + e.w1.toNat)
  { q.stepped with cursor := if wf e.w0 15 15 = 1 then bounds.foldl max tt else tt, bounds := bounds }

/-- The closing bounds still to come, and T after the wait. -/
def State.waitFrom (s : State) (a : Nat) (e : Entry) : State :=
  let bounds := s.seq.bounds.filter fun x => Nat.blt s.now x
  let tt := a + (wf e.w2 11 0 * 2 ^ 20 + e.w1.toNat)
  (s.modSeq fun q => { q with cursor := if wf e.w0 15 15 = 1 then bounds.foldl max tt else tt, bounds := bounds }).advance

theorem State.waitFrom_eq (hd : s.seq.deferred = none) (a : Nat) :
    s.waitFrom a e = s.modSeq fun q => q.waited s.now a e :=
  State.advance_of_none (by simpa using hd)

theorem exec_wait (h : s.fetch 4 = .entry e) :
    exec (.wait t) s = .next (if s.seq.cursor < (s.begin t).now then (s.begin t).slip.waitFrom (s.begin t).now e
      else (s.begin t).waitFrom s.seq.cursor e) := by
  have hb : (s.begin t).fetch 4 = .entry e := h
  have hq : (s.begin t).seq = s.seq := rfl
  simp only [exec, execWait, hb, hq, Nat.blt_eq, beq_iff_eq, State.waitFrom]
  split <;> rfl

/-- A WAIT before T counts from T. -/
theorem wait_counts (h : s.fetch 4 = .entry e) (hd : s.seq.deferred = none) (hle : (s.begin t).now ≤ s.seq.cursor) :
    Completes (.wait t) t s [.seq] fun u => u.seq = s.seq.waited (s.begin t).now s.seq.cursor e := by
  have he := exec_wait (t := t) h
  rw [if_neg (Nat.not_lt.mpr hle), State.waitFrom_eq (s := s.begin t) hd] at he
  exact ⟨_, he, Only.modSeq _ _, rfl⟩

/-- A WAIT after T is a slip, and counts from now. -/
theorem wait_slips (h : s.fetch 4 = .entry e) (hd : s.seq.deferred = none) (hlt : s.seq.cursor < (s.begin t).now) :
    CompletesAt (.wait t) t s (.seq :: evParts) (F.CTL_SEQ_SLIP_COUNT.addr :: evWords) fun u =>
      u.seq = s.seq.waited (s.begin t).now (s.begin t).now e ∧ (s.begin t).told u 0x03 .warn 0 ∧
      u.rd F.CTL_SEQ_SLIP_COUNT = satN 20 (s.rd F.CTL_SEQ_SLIP_COUNT + 1) := by
  have he := exec_wait (t := t) h
  obtain ⟨hs, hw, hto, hrd⟩ := (s.begin t).slip_spec
  have hq : (s.begin t).slip.seq = s.seq := by simp
  have hn : (s.begin t).slip.now = (s.begin t).now := now_of (by simp) (by simp)
  rw [if_pos hlt, State.waitFrom_eq (by rw [hq, hd]), hn] at he
  refine ⟨_, he, hs.comp (Only.modSeq _ _) (by decide) (by decide), fun a ha => ?_, ?_, ?_, ?_⟩
  · rw [modSeq_word, hw a ha, begin_word]
  · rw [State.modSeq_seq, hq]
  · exact (State.told_modSeq _ _ _ _ _ _).mpr hto
  · rw [modSeq_rd, hrd, begin_rd]

/-! ### MARK -/

/-- The MARK that an entry puts onto the data path. -/
def Seq.markOf (q : Seq) (e : Entry) : Mark :=
  { sof := wf e.w0 15 15 == 1, eol := wf e.w0 14 14 == 1, eof := wf e.w0 13 13 == 1, tag := wf e.w0 7 0, id := q.nextId,
    cause := none, ord := none }

/-- The schedule after a MARK. -/
def Seq.marked (q : Seq) (e : Entry) : Seq :=
  let m := q.markOf e
  { q.stepped with marks := q.marks ++ if m.sof || m.eol || m.eof then [m] else [] }

theorem State.pushMark_eq (s : State) (sof eol eof : Bool) (tag : Nat) :
    s.pushMark sof eol eof tag = s.modSeq fun q => { q with marks := q.marks ++ if sof || eol || eof
      then [{ sof := sof, eol := eol, eof := eof, tag := tag, id := q.nextId, cause := none, ord := none }] else [] } := by
  unfold State.pushMark
  split
  · rfl
  · simp only [List.append_nil]; rfl

theorem State.eofIssued_of_idle (h : s.mgmt.op = none) : s.eofIssued = s := by
  unfold State.eofIssued
  rw [h]

/-- The mark is put onto the data path before MK raises its event. -/
def State.markPut (s : State) (e : Entry) : State :=
  let v := s.pushMark (wf e.w0 15 15 == 1) (wf e.w0 14 14 == 1) (wf e.w0 13 13 == 1) (wf e.w0 7 0)
  if wf e.w0 12 12 = 1 then v.raise 0x04 .info (wf e.w0 7 0) else v

theorem exec_mark (h : s.fetch 5 = .entry e) (hd : s.seq.deferred = none) (ho : wf e.w0 13 13 = 0 ∨ s.mgmt.op = none) :
    exec (.mark t) s = .next (((s.begin t).markPut e).modSeq Seq.stepped) := by
  have hb : (s.begin t).fetch 5 = .entry e := h
  have hq : ((s.begin t).markPut e).seq.deferred = none := by
    unfold State.markPut
    split <;> simpa [State.pushMark_eq] using hd
  have hop : ((s.begin t).markPut e).mgmt.op = s.mgmt.op := by
    unfold State.markPut
    split
    · exact State.still_op (s := (s.begin t).pushMark _ _ _ _) (State.raise_still _ _ _ _) |>.trans (by simp)
    · simp
  have he : exec (.mark t) s = .next (if (wf e.w0 13 13 == 1) = true then ((s.begin t).markPut e).advance.eofIssued
      else ((s.begin t).markPut e).advance) := by
    simp only [exec, execMark, hb, State.markPut, beq_iff_eq]
  rw [he, State.advance_of_none hq]
  rcases ho with h0 | hn
  · rw [if_neg (by simp [h0])]
  · rw [State.eofIssued_of_idle (by simpa [hop] using hn), ite_self]

/-- MARK without MK tells nothing. -/
theorem mark_silent (h : s.fetch 5 = .entry e) (hd : s.seq.deferred = none) (ho : wf e.w0 13 13 = 0 ∨ s.mgmt.op = none)
    (hk : wf e.w0 12 12 = 0) : Completes (.mark t) t s [.seq] fun u => u.seq = s.seq.marked e := by
  have he := exec_mark (t := t) h hd ho
  have hm : (s.begin t).markPut e = (s.begin t).pushMark (wf e.w0 15 15 == 1) (wf e.w0 14 14 == 1) (wf e.w0 13 13 == 1)
      (wf e.w0 7 0) := if_neg (by omega)
  rw [hm, State.pushMark_eq] at he
  exact ⟨_, he, (Only.modSeq _ _).trans (Only.modSeq _ _), rfl⟩

/-- MARK with MK tells its tag. -/
theorem mark_tells (h : s.fetch 5 = .entry e) (hd : s.seq.deferred = none) (ho : wf e.w0 13 13 = 0 ∨ s.mgmt.op = none)
    (hk : wf e.w0 12 12 = 1) :
    CompletesAt (.mark t) t s (.seq :: evParts) evWords fun u =>
      u.seq = s.seq.marked e ∧ (s.begin t).told u 0x04 .info (wf e.w0 7 0) := by
  have he := exec_mark (t := t) h hd ho
  have hm : (s.begin t).markPut e = ((s.begin t).pushMark (wf e.w0 15 15 == 1) (wf e.w0 14 14 == 1) (wf e.w0 13 13 == 1)
      (wf e.w0 7 0)).raise 0x04 .info (wf e.w0 7 0) := if_pos hk
  rw [hm, State.pushMark_eq] at he
  refine ⟨_, he, ((Only.modSeq _ _).comp (Only.raise _ _ _ _) (by decide) (by decide)).comp (Only.modSeq _ _)
    (fun _ h => h) (by decide), fun a ha => ?_, ?_, ?_⟩
  · rw [modSeq_word, State.raise_word _ _ _ _ ha, modSeq_word, begin_word]
  · rw [State.modSeq_seq, State.raise_seq]; rfl
  · exact (State.told_modSeq _ _ _ _ _ _).mpr (State.told_of (State.raise_told _ _ _ _) (by simp)
      (State.queues_of_word (modSeq_word _ _ _) _) (now_of (by simp) (by simp)))

/-! ### LISTEN and CAL -/

/-- The window that an entry posts, with its number and its instant. -/
def WinPost.numbered (w : WinPost) (id at0 : Nat) : WinPost := { w with id := id, instant := at0 }

/-- A posted window waits with its closing bound (R63). -/
def State.winWaits (s : State) (w : WinPost) (at0 : Nat) : State :=
  s.modSeq fun q => { q with wins := q.wins ++ [w.numbered q.nextId at0], bounds := q.bounds ++ [at0 + w.len + 1] }

theorem State.postWin_eq (hw : s.seq.wins = []) (w : WinPost) :
    s.postWin w = (s.winWaits w (max s.seq.cursor s.now)).openDueFrom [] [w.numbered s.seq.nextId (max s.seq.cursor s.now)] := by
  unfold State.postWin State.openDue
  dsimp only
  rw [State.modSeq_seq, hw]
  rfl

theorem State.openDueFrom_of_ahead {w : WinPost} (h : s.now < w.instant) (kept ws : List WinPost) :
    s.openDueFrom kept (w :: ws) = s.openDueFrom (kept ++ [w]) ws := by
  rw [State.openDueFrom, if_pos (by rwa [Nat.blt_eq])]

theorem State.openDueFrom_of_due {w : WinPost} (h : w.instant ≤ s.now) (hh : w.held = false) {kept : List WinPost}
    (hb : s.winBlocked w kept = false) (ws : List WinPost) :
    s.openDueFrom kept (w :: ws) = (s.openPosted w w.instant).openDueFrom kept ws := by
  rw [State.openDueFrom, if_neg (by rw [Nat.blt_eq]; exact Nat.not_lt.mpr h), hb, hh]
  rfl

/-- A window whose instant is still to come is posted (R61, R62). -/
theorem State.postWin_ahead (hw : s.seq.wins = []) (h : s.now < s.seq.cursor) (w : WinPost) :
    s.postWin w = s.modSeq fun q => { q with
      wins := [w.numbered q.nextId q.cursor], bounds := q.bounds ++ [q.cursor + w.len + 1] } := by
  rw [State.postWin_eq hw, max_eq_left h.le, State.openDueFrom_of_ahead h, List.nil_append, State.openDueFrom]
  rfl

/-- The opening of a group's window keeps what the posted window says of it. -/
theorem State.openGroup_opens (s : State) (g : Nat) (ports : List Nat) (cal spare : Bool) (w : GWin) :
    ∃ w', assoc (s.openGroup g ports cal spare w).rta.wins g = some w' ∧ w'.kind = w.kind ∧ w'.openDev = w.openDev ∧
      w'.openClk = w.openClk ∧ w'.len = w.len ∧ w'.ref = w.ref ∧ w'.closed = [] ∧ w'.fire = w.fire ∧ w'.noemit = w.noemit := by
  unfold State.openGroup
  dsimp only
  exact ⟨_, assoc_assocPut_same _ _ _, rfl, rfl, rfl, rfl, rfl, rfl, rfl, rfl⟩

/-- No window stands on a free group for which no fire waits (R52). -/
theorem State.winBlocked_of_free {w : WinPost} (hg : w.group < 8) (hf : s.groupFree w.group = true)
    (hn : (s.seq.fires.any fun f => f.row == w.group) = false) : s.winBlocked w [] = false := by
  have hgr : w.groups = [w.group] := if_neg (by simp only [beq_iff_eq]; omega)
  have hany : (s.seq.fires.any fun f => f.row == w.group && Nat.blt f.id w.id) = false := by
    rw [List.any_eq_false] at hn ⊢
    exact fun f hf => by simp [hn f hf]
  simp only [State.winBlocked, hgr, List.any_cons, List.any_nil, hf, hany, Bool.not_true, Bool.or_false]

/-- A posted window opens at once on a free group for which no fire waits (R52). -/
theorem State.postWin_opens (hw : s.seq.wins = []) (h : s.seq.cursor ≤ s.now) {w : WinPost} (hg : w.group < 8)
    (hh : w.held = false) (hf : s.groupFree w.group = true) (hn : (s.seq.fires.any fun f => f.row == w.group) = false) :
    (∃ b, (s.postWin w).seq = { s.seq with bounds := b }) ∧
    ∃ g, assoc (s.postWin w).rta.wins w.group = some g ∧ g.kind = w.kind ∧ g.openDev = s.now ∧ g.openClk = s.clkOf s.now ∧
      g.len = w.len ∧ g.ref = some 0 ∧ g.closed = [] := by
  have hgr : (w.numbered s.seq.nextId s.now).groups = [w.group] := if_neg (by simp only [beq_iff_eq, WinPost.numbered]; omega)
  have hbl : (s.winWaits w s.now).winBlocked (w.numbered s.seq.nextId s.now) [] = false :=
    State.winBlocked_of_free (s := s.winWaits w s.now) (w := w.numbered s.seq.nextId s.now) hg hf hn
  have he := State.openDueFrom_of_due (s := s.winWaits w s.now) (w := w.numbered s.seq.nextId s.now) le_rfl hh hbl []
  rw [State.openDueFrom] at he
  rw [State.postWin_eq hw, max_eq_right h, he]
  refine ⟨⟨s.seq.bounds ++ [s.now + w.len + 1], ?_⟩, ?_⟩
  · rw [State.modSeq_seq]
    simp [State.winWaits, hw]
  · have hrta : ∀ (v : State) f, (v.modSeq f).rta = v.rta := fun _ _ => rfl
    rw [hrta, State.openPosted, hgr, List.foldl_cons, List.foldl_nil]
    obtain ⟨g, hg, hk, hd, hc, hl, hr, hcl, -⟩ := State.openGroup_opens (s.winWaits w s.now) w.group _ _ _ _
    exact ⟨g, hg, hk, hd, hc, hl, hr, hcl⟩

/-- The window that a LISTEN entry posts (R61). -/
def listenPost (e : Entry) : WinPost := { (default : WinPost) with
  kind := .listen, group := if wf e.w0 12 12 == 1 then 8 else wf e.w0 15 13, len := winNs (wf e.w2 19 10),
  bink := wf e.w0 3 0, freq := wf e.w0 11 11 == 1, amb := wf e.w0 10 10 == 1, presc := wf e.w1 19 14 + 1 }

/-- The window that a CAL entry posts (R62). -/
def calPost (e : Entry) : WinPost := { (default : WinPost) with
  kind := .cal, group := if wf e.w0 12 12 == 1 then 8 else wf e.w0 15 13, len := winNs (wf e.w3 19 10),
  mode := wf e.w0 11 10, spare := wf e.w0 9 9 == 1, amp := wf e.w1 19 10, delay := e.w2.toNat }

theorem exec_listen (h : s.fetch 2 = .entry e) : exec (.listen t) s = .next ((s.begin t).postWin (listenPost e)).advance := by
  have hb : (s.begin t).fetch 2 = .entry e := h
  simp only [exec, execListen, hb, listenPost]

theorem exec_cal (h : s.fetch 3 = .entry e) : exec (.cal t) s = .next ((s.begin t).postWin (calPost e)).advance := by
  have hb : (s.begin t).fetch 3 = .entry e := h
  simp only [exec, execCal, hb, calPost]

/-- The parts that the opening of a window may change. -/
def winParts : List Part := [.regs, .mgmt, .seq, .rta, .rpe, .saf, .cap, .lnk, .out]

theorem Only.postWin (s : State) (w : WinPost) : Only winParts s (s.postWin w) :=
  ⟨by simp, by simp, fun p hp => by cases p <;> simp_all [Part.same, winParts]⟩

/-- An entry posts a window ahead of its instant. -/
theorem window_waits {c : Instr} {w : WinPost} (he : exec c s = .next ((s.begin t).postWin w).advance)
    (hd : s.seq.deferred = none) (hw : s.seq.wins = []) (h : (s.begin t).now < s.seq.cursor) :
    Completes c t s [.seq] fun u => u.seq = { s.seq.stepped with
      wins := [w.numbered s.seq.nextId s.seq.cursor], bounds := s.seq.bounds ++ [s.seq.cursor + w.len + 1] } := by
  rw [State.postWin_ahead (s := s.begin t) hw h, State.advance_of_none (by simpa using hd)] at he
  exact ⟨_, he, (Only.modSeq _ _).trans (Only.modSeq _ _), rfl⟩

/-- An entry opens its window at once. -/
theorem window_opens {c : Instr} {w : WinPost} {g : Nat} (hwg : w.group = g) (he : exec c s = .next ((s.begin t).postWin w).advance)
    (hd : s.seq.deferred = none) (hw : s.seq.wins = []) (h : s.seq.cursor ≤ (s.begin t).now) (hg : g < 8)
    (hh : w.held = false) (hf : (s.begin t).groupFree g = true) (hn : (s.seq.fires.any fun f => f.row == g) = false) :
    Completes c t s winParts fun u => u.seq.wins = [] ∧ u.seq.next = s.seq.after s.seq.next ∧
      ∃ x, assoc u.rta.wins g = some x ∧ x.kind = w.kind ∧ x.openDev = (s.begin t).now ∧
        x.openClk = (s.begin t).clkOf (s.begin t).now ∧ x.len = w.len ∧ x.ref = some 0 ∧ x.closed = [] := by
  subst hwg
  obtain ⟨⟨bs, hq⟩, hg⟩ := State.postWin_opens (s := s.begin t) hw h hg hh hf hn
  rw [State.advance_of_none (by rw [hq]; exact hd)] at he
  refine ⟨_, he, (Only.postWin _ _).trans ((Only.modSeq _ _).mono (by decide)), ?_, ?_, hg⟩
  · rw [State.modSeq_seq, hq]; exact hw
  · rw [State.modSeq_seq, hq]; rfl

/-- Settles O31. -/
theorem waitsMarksAndWindowsAreIssued : Obligations.WaitsMarksAndWindowsAreIssued := by
  unfold Obligations.WaitsMarksAndWindowsAreIssued
  intro s t e hd b bounds after
  refine ⟨fun h hle => wait_counts h hd hle, fun h hlt => wait_slips h hd hlt,
    fun h ho => ⟨mark_silent h hd ho, mark_tells h hd ho⟩, ?_⟩
  rintro op len (⟨rfl, rfl⟩ | ⟨rfl, rfl⟩) h hw c g
  · have hwg : (listenPost e).group = g := by simp [listenPost, g]
    refine ⟨fun hlt => ?_, fun hle hg hf hn => window_opens hwg (exec_listen h) hd hw hle hg rfl hf hn⟩
    obtain ⟨u, he, ho, hq⟩ := window_waits (t := t) (exec_listen h) hd hw hlt
    exact ⟨u, he, ho, (listenPost e).numbered s.seq.nextId s.seq.cursor, rfl, rfl, rfl, hwg, rfl, rfl, fun _ => ⟨rfl, rfl, rfl, rfl⟩,
      fun h3 => absurd h3 (by decide), hq⟩
  · have hwg : (calPost e).group = g := by simp [calPost, g]
    refine ⟨fun hlt => ?_, fun hle hg hf hn => window_opens hwg (exec_cal h) hd hw hle hg rfl hf hn⟩
    obtain ⟨u, he, ho, hq⟩ := window_waits (t := t) (exec_cal h) hd hw hlt
    exact ⟨u, he, ho, (calPost e).numbered s.seq.nextId s.seq.cursor, rfl, rfl, rfl, hwg, rfl, rfl,
      fun h2 => absurd h2 (by decide), fun _ => ⟨rfl, rfl, rfl, rfl⟩, hq⟩

end Sys2Proof.Machine

/-! ## FIRE_COMMAND: a burst code beyond the table, whose words a slot violation changes (R96, R235) -/

namespace Sys2Proof.Machine

variable {s : State} {t : Nat}

/-- The head of the queue fires once R52 lets it. -/
theorem exec_fireCommand {f : Fire} {fs : List Fire} (hq : s.seq.fires = f :: fs) (hw : s.seq.wins = []) (cd : Bool)
    (hi : f.instant ≤ (s.begin t).now) (hh : s.halted = false) (hr : (s.begin t).fireReady f = true) :
    exec (.fireCommand t cd) s = .next ((s.begin t).fireRow f cd) := by
  have hod : (s.begin t).openDue = s.begin t := by
    have hb : (s.begin t).seq.wins = [] := hw
    rw [State.openDue, hb, State.openDueFrom, State.modSeq, ← hb]
  have hb : (s.begin t).seq.fires = f :: fs := hq
  have hc : (Nat.blt (s.begin t).now f.instant || (s.begin t).halted) = false := by
    rw [Bool.or_eq_false_iff, ← Bool.not_eq_true, Nat.blt_eq]
    exact ⟨Nat.not_lt.mpr hi, hh⟩
  simp only [exec, execFireCommand, hod, hb, hc, hr, Bool.false_eq_true, if_false, if_true]

/-- The state in which the beam of a fire is formed. -/
def State.slotChecked (s : State) (f : Fire) : State :=
  let v := (s.modSeq fun q => { q with fires := q.fires.tail }).pruneShots
  (v.logSector v.now).slotCheck f

/-- While charging is forbidden, the beam takes its offsets from the burst words as the slot contract's check has left them. -/
theorem State.fireRow_ofs (f : Fire) (cd : Bool) (h : (s.slotChecked f).chgOk = false) :
    (s.fireRow f cd).edu.beam.map Beam.ofs = some ((s.slotChecked f).burstOfs f.burst) := by
  unfold State.fireRow
  dsimp only
  rw [← State.slotChecked, h]
  simp

/-- A fire whose burst code names LNK_EVLOST as its last word. -/
def strayFire : Fire := { (default : Fire) with burst := 9097 }

/-- That fire stands at the head of the queue; the device owns no slot of its cycle, and one partner's event queue is full. -/
def stray : State :=
  let s := (State.reset.setWord 0x0120 1).setWord 0xB024 0xE0000
  { s with
    seq := { s.seq with fires := [strayFire] }
    lnk := { s.lnk with partners := [(0, { (default : Partner) with
      st := .active, evt := true, evq := List.replicate 64 ⟨0, .info, 0, 0⟩ })] } }

/-- The violation has been counted as a lost event. -/
theorem stray_slotChecked : ((stray.begin 0).slotChecked strayFire).burstOfs strayFire.burst = [0, 0, 0, 0, 0, 0, 0, 1] := by decide

/-- Refutes O35: the statement is of every state, and `Fire.burst` is any number. In `stray` the last word of the head's burst is
LNK_EVLOST. The fire stands in no owned slot, and the event of that drops one of a partner's queue: OFS8 of the beam is 1, where
the state before the fire has 0. -/
theorem not_fireCommandsFireInhibitOrHold : ¬ Obligations.FireCommandsFireInhibitOrHold := by
  intro h
  obtain ⟨-, h, -⟩ := h stray 0 true strayFire [] rfl rfl (by decide)
  obtain ⟨-, -, -, h⟩ := h (by decide) (by decide) (by decide)
  obtain ⟨u, hu, -, ⟨-, -, -, hbeam, -⟩, -⟩ := h (.inl (by decide))
  rw [exec_fireCommand rfl rfl true (by decide) (by decide) (by decide)] at hu
  obtain rfl := Host.Outcome.next.inj hu
  have hofs := congrArg (Option.map Beam.ofs) hbeam
  rw [State.fireRow_ofs strayFire true (by decide), stray_slotChecked, Option.map_some] at hofs
  exact absurd (Option.some.inj hofs) (by decide)

end Sys2Proof.Machine

/-! ## Bad entries, pages and Battens (R72 to R78, R80, R89, R396, R558) -/

namespace Sys2Proof.Machine

variable {s u : State} {t : Nat} {e : Entry}

/-! ### What the data path leaves of the schedule -/

theorem State.settlePath_seq (n : Nat) : ∀ s : State, ∃ ms, (s.settlePath n).seq = { s.seq with marks := ms } := by
  induction n with
  | zero => intro s; exact ⟨s.seq.marks, by simp [State.settlePath]⟩
  | succ n ih =>
    intro s
    have hs : s.settleSingles.seq = s.seq := by simp
    unfold State.settlePath
    dsimp only
    split
    · exact ⟨s.seq.marks, hs⟩
    · split
      · exact ⟨s.seq.marks, hs⟩
      · split
        · obtain ⟨ms, h⟩ := ih _
          exact ⟨ms, by rw [h]; simp⟩
        · exact ⟨s.seq.marks, hs⟩

/-- Settling the data path changes nothing of the schedule but the marks on it. -/
theorem State.settle_seq (s : State) : ∃ ms, s.settle.seq = { s.seq with marks := ms } := State.settlePath_seq _ s

theorem State.settle_seq_of_nil (h : s.toPass = []) : s.settle.seq = s.seq := by
  have hs : s.settleSingles.seq = s.seq := by simp
  have hp : s.settleSingles.toPass = [] := by rw [State.toPass, hs]; exact h
  unfold State.settle
  cases s.seq.marks.length with
  | zero => exact hs
  | succ n =>
    unfold State.settlePath
    dsimp only
    rw [hp]
    exact hs

/-! ### A bad entry -/

theorem Only.parity (s : State) : Only winParts s s.parity :=
  ⟨by simp, by simp, fun p hp => by cases p <;> simp_all [Part.same, winParts]⟩

/-- A bad entry halts the sequencer and takes every posted fire away (R80). -/
theorem State.parity_seq (s : State) :
    (∃ ms, s.parity.seq = { s.seq with st := .halted, fires := [], marks := ms }) ∧
    (s.toPass = [] → s.parity.seq = { s.seq with st := .halted, fires := [] }) := by
  have hp : s.parity.seq = (s.modSeq fun q => { q with st := .halted, fires := [] }).settle.seq := by
    simp [State.parity]
  rw [hp]
  refine ⟨?_, fun h => State.settle_seq_of_nil (s := s.modSeq _) h⟩
  obtain ⟨ms, h⟩ := (s.modSeq fun q => { q with st := .halted, fires := [] }).settle_seq
  exact ⟨ms, h⟩

/-- Every sequencer command finds a bad entry as FIRE does. -/
theorem exec_of_bad {c : Instr} {op : Nat} (hc : c = Instr.fire t ∧ op = 1 ∨ c = .listen t ∧ op = 2 ∨ c = .cal t ∧ op = 3 ∨
    c = .wait t ∧ op = 4 ∨ c = .mark t ∧ op = 5 ∨ c = .sync t ∧ op = 6 ∨ c = .branch t ∧ op = 7 ∨
    c = .pageImmediate t ∧ op = 8 ∨ c = .pageIssue t ∧ op = 8) (h : s.fetch op = .bad) :
    exec c s = .next (s.begin t).parity := by
  have hb : (s.begin t).fetch op = .bad := h
  rcases hc with ⟨rfl, rfl⟩ | ⟨rfl, rfl⟩ | ⟨rfl, rfl⟩ | ⟨rfl, rfl⟩ | ⟨rfl, rfl⟩ | ⟨rfl, rfl⟩ | ⟨rfl, rfl⟩ | ⟨rfl, rfl⟩ | ⟨rfl, rfl⟩
  · simp only [exec, execFire, hb]
  · simp only [exec, execListen, hb]
  · simp only [exec, execCal, hb]
  · simp only [exec, execWait, hb]
  · simp only [exec, execMark, hb]
  · simp only [exec, execSync, hb]
  · simp only [exec, execBranch, hb]
  · simp only [exec, execPageImmediate, hb]
  · simp only [exec, execPageIssue, hb]

theorem badEntry_halts {c : Instr} (he : exec c s = .next (s.begin t).parity) :
    Completes c t s winParts fun u => u.seq.st = .halted ∧ u.seq.fires = [] ∧ u.seq.next = s.seq.next ∧
      (s.toPass = [] → u.seq = { s.seq with st := .halted, fires := [] }) := by
  obtain ⟨⟨ms, hq⟩, hn⟩ := (s.begin t).parity_seq
  exact ⟨_, he, Only.parity _, by rw [hq], by rw [hq], by rw [hq]; rfl, hn⟩

/-! ### The reload -/

theorem Only.readTbl (s : State) (lib : Nat) (hits : List MemHit) :
    Only [.regs, .cap, .mem, .mgmt, .lnk, .saf, .out] s (s.readTbl lib hits).2 :=
  ⟨by simp, by simp, fun p hp => by cases p <;> simp_all [Part.same]⟩

theorem State.readTbl_seq (s : State) (lib : Nat) (hits : List MemHit) : (s.readTbl lib hits).2.seq = s.seq := by simp

/-- The page that has been reloaded is in place, and the open frame closes at EOF. -/
def State.reloaded (s : State) (p : Page) : State :=
  let v := s.modSeq fun q => if q.actB then { q with pageB := p } else { q with pageA := p }
  if v.fso.frameOpen then v.pushMark false false true v.seq.tag else v

section
variable {p : Page} {hits : List MemHit} (hs : s.seq.st = .halted) (hr : s.seq.reloadBad = false)
  (hm : (s.begin t).memAvail 1 = true) (hp : assoc s.seq.library s.seq.active.lib = some p)
include hs hr hm hp

theorem exec_pageReload_good (hv : ((s.begin t).readTbl s.seq.active.lib hits).1 = true) :
    exec (.pageReload ⟨t, hits⟩) s = .next (let v := ((s.begin t).readTbl s.seq.active.lib hits).2.reloaded p
      (v.startSeq v.seq.actB 0).safEval) := by
  have hq : (s.begin t).seq = s.seq := rfl
  have hh : (s.begin t).halted = true := by simp [State.halted, hs]
  generalize hw : (s.begin t).readTbl s.seq.active.lib hits = w at hv
  obtain ⟨ok, v⟩ := w
  obtain rfl : ok = true := hv
  simp only [exec, execPageReload, hq, hh, hr, hm, hp, hw, State.reloaded, Bool.not_true, Bool.or_false, Bool.false_eq_true,
    if_false]

theorem exec_pageReload_bad (hv : ((s.begin t).readTbl s.seq.active.lib hits).1 = false) :
    exec (.pageReload ⟨t, hits⟩) s = .next (((s.begin t).readTbl s.seq.active.lib hits).2.modSeq fun q =>
      { q with reloadBad := true }) := by
  have hq : (s.begin t).seq = s.seq := rfl
  have hh : (s.begin t).halted = true := by simp [State.halted, hs]
  generalize hw : (s.begin t).readTbl s.seq.active.lib hits = w at hv
  obtain ⟨ok, v⟩ := w
  obtain rfl : ok = false := hv
  simp only [exec, execPageReload, hq, hh, hr, hm, hp, hw, Bool.not_true, Bool.or_false, Bool.false_eq_true, if_false]

end

theorem exec_pageReload_idle {hits : List MemHit}
    (h : s.seq.st ≠ .halted ∨ s.seq.reloadBad = true ∨ (s.begin t).memAvail 1 = false) :
    exec (.pageReload ⟨t, hits⟩) s = .next (s.begin t) := by
  have hq : (s.begin t).seq = s.seq := rfl
  refine if_pos ?_
  simp only [State.halted, hq, Bool.or_eq_true, Bool.not_eq_true', beq_eq_false_iff_ne]
  tauto

theorem Only.startSeq (s : State) (b : Bool) (n : Nat) : Only [.regs, .seq] s (s.startSeq b n) :=
  ⟨by simp [State.startSeq], by simp [State.startSeq], fun p hp => by cases p <;> simp_all [Part.same, State.startSeq]⟩

theorem State.startSeq_seq (s : State) (b : Bool) (n : Nat) :
    (s.startSeq b n).seq = { s.seq with st := .run, actB := b, next := n, cursor := s.now + 1000 } := by
  have hn : s.clearLc.now = s.now := now_of (by simp) (by simp)
  simp [State.startSeq, hn]

/-- The schedule of a page that has been reloaded. -/
def Seq.reloaded (q : Seq) (p : Page) (frame : Bool) : Seq :=
  let r := if q.actB then { q with pageB := p } else { q with pageA := p }
  { r with marks := r.marks ++ if frame
      then [{ sof := false, eol := false, eof := true, tag := r.tag, id := r.nextId, cause := none, ord := none }] else [] }

theorem State.reloaded_eq (s : State) (p : Page) : s.reloaded p = s.modSeq fun q => q.reloaded p s.fso.frameOpen := by
  have hf : ∀ f, (s.modSeq f).fso = s.fso := fun _ => rfl
  unfold State.reloaded Seq.reloaded
  dsimp only
  rw [hf]
  cases s.fso.frameOpen with
  | false => simp
  | true => rw [if_pos rfl, State.pushMark_eq]; simp [State.modSeq]

theorem Seq.reloaded_active (q : Seq) (p : Page) (frame : Bool) :
    (q.reloaded p frame).actB = q.actB ∧ (q.reloaded p frame).active = p := by
  unfold Seq.reloaded Seq.active Seq.pageOf
  cases h : q.actB <;> simp

theorem Seq.reloaded_marks (q : Seq) (p : Page) (frame : Bool) :
    (q.reloaded p frame).marks = q.marks ++ if frame
      then [{ sof := false, eol := false, eof := true, tag := q.tag, id := q.nextId, cause := none, ord := none }] else [] := by
  unfold Seq.reloaded
  cases q.actB <;> rfl

/-- PAGE_RELOAD resumes the sequencer at entry 0 of the reloaded page, and closes the open frame. -/
theorem pageReload_resumes {p : Page} {hits : List MemHit} (hs : s.seq.st = .halted) (hr : s.seq.reloadBad = false)
    (hm : (s.begin t).memAvail 1 = true) (hp : assoc s.seq.library s.seq.active.lib = some p)
    (hv : ((s.begin t).readTbl s.seq.active.lib hits).1 = true) :
    Completes (.pageReload ⟨t, hits⟩) t s (.regs :: .seq :: .cap :: .mem :: evParts) fun u =>
      u.seq = { s.seq.reloaded p s.fso.frameOpen with
        st := .run, actB := s.seq.actB, next := 0, cursor := (s.begin t).now + 1000 } := by
  have he := exec_pageReload_good hs hr hm hp hv
  have ho : Only [.regs, .cap, .mem, .mgmt, .lnk, .saf, .out] (s.begin t) ((s.begin t).readTbl s.seq.active.lib hits).2 :=
    Only.readTbl _ _ _
  have hq : ((s.begin t).readTbl s.seq.active.lib hits).2.seq = s.seq := State.readTbl_seq _ _ _
  generalize ((s.begin t).readTbl s.seq.active.lib hits).2 = v at he ho hq
  have hf : v.fso = s.fso := ho.2.2 .fso (by decide)
  have hn : (v.modSeq fun q => q.reloaded p v.fso.frameOpen).now = (s.begin t).now :=
    now_of ho.1 (ho.2.2 .tofs (by decide))
  dsimp only at he
  rw [State.reloaded_eq, State.modSeq_seq, (v.seq.reloaded_active p _).1] at he
  refine ⟨_, he, ?_, ?_⟩
  · exact (((ho.comp (Only.modSeq _ _) (rs := .seq :: .cap :: .mem :: .regs :: evParts) (by decide) (by decide)).trans
      ((Only.startSeq _ _ _).mono (by decide))).trans ((Only.safEval _).mono (by decide))).mono (by decide)
  · have hse : ∀ x : State, x.safEval.seq = x.seq := fun x => by simp
    beta_reduce
    rw [hse, State.startSeq_seq, hn, State.modSeq_seq, hq, hf]

theorem pageReload_fails {p : Page} {hits : List MemHit} (hs : s.seq.st = .halted) (hr : s.seq.reloadBad = false)
    (hm : (s.begin t).memAvail 1 = true) (hp : assoc s.seq.library s.seq.active.lib = some p)
    (hv : ((s.begin t).readTbl s.seq.active.lib hits).1 = false) :
    Completes (.pageReload ⟨t, hits⟩) t s (.regs :: .seq :: .cap :: .mem :: evParts) fun u =>
      u.seq = { s.seq with reloadBad := true } := by
  refine ⟨_, exec_pageReload_bad hs hr hm hp hv, (Only.readTbl _ _ _).comp (Only.modSeq _ _) (by decide) (by decide), ?_⟩
  beta_reduce
  rw [State.modSeq_seq, State.readTbl_seq]
  rfl

/-! ### Entering a page -/

theorem Only.enter (s : State) (b : Bool) (n : Nat) : Only [.regs, .seq] s (s.enter b n) :=
  ⟨by simp, by simp, fun p hp => by cases p <;> simp_all [Part.same, State.enter]⟩

/-- A page is entered at an entry that it has. -/
theorem State.enter_of_lt {b : Bool} {n : Nat} (h : n < (s.seq.pageOf b).count) :
    s.enter b n = s.modSeq fun q => { q with actB := b, next := n } := by
  have hb : Nat.ble (s.seq.pageOf b).count n = false := by
    rw [← Bool.not_eq_true, Nat.ble_eq]; exact Nat.not_le.mpr h
  simp only [State.enter, hb, Bool.false_eq_true, if_false]

/-- A page is entered at entry 0, with BADENT, where it lacks the entry. -/
theorem State.enter_of_le {b : Bool} {n : Nat} (h : (s.seq.pageOf b).count ≤ n) :
    s.enter b n = (s.put F.CTL_SEQ_STATUS_BADENT true).modSeq fun q => { q with actB := b, next := 0 } := by
  have hb : Nat.ble (s.seq.pageOf b).count n = true := Nat.ble_eq_true_of_le h
  simp only [State.enter, hb, if_true]

theorem State.clearLc_rd (s : State) {n : Nat} (h : n < 4) : s.clearLc.rd (F.CTL_SEQ_LC_LC n) = 0 := by
  have hr : List.range 4 = [0, 1, 2, 3] := rfl
  have hw : ∀ (v : State) (k : Nat), (v.wr (F.CTL_SEQ_LC_LC k) 0).rd (F.CTL_SEQ_LC_LC k) = 0 := fun v k =>
    loopCounter_rd_wr v k (by decide)
  have hne : ∀ (v : State) (k j : Nat), j ≠ k → (v.wr (F.CTL_SEQ_LC_LC k) 0).rd (F.CTL_SEQ_LC_LC j) = v.rd (F.CTL_SEQ_LC_LC j) :=
    fun v k j hj => State.rd_of_word (word_wr_ne _ _ _ _ (by simp [F.CTL_SEQ_LC_LC, hj]))
  rw [State.clearLc, hr]
  simp only [List.foldl_cons, List.foldl_nil]
  rcases (by omega : n = 0 ∨ n = 1 ∨ n = 2 ∨ n = 3) with rfl | rfl | rfl | rfl
  · rw [hne _ 3 0 (by decide), hne _ 2 0 (by decide), hne _ 1 0 (by decide), hw]
  · rw [hne _ 3 1 (by decide), hne _ 2 1 (by decide), hw]
  · rw [hne _ 3 2 (by decide), hw]
  · rw [hw]

/-- A token on the data path leaves the rest of the schedule. -/
theorem State.otherPage_seq (s : State) (cause : Nat) : ∃ ms, (s.otherPage cause).seq = { s.seq with marks := ms } := by
  have hc : ∀ v : State, v.clearLc.seq = v.seq := fun v => by simp
  unfold State.otherPage State.pushToken
  rw [hc]
  obtain ⟨ms, h⟩ := State.settle_seq (s.modSeq fun q =>
    { q with marks := q.marks ++ [{ (default : Mark) with id := s.seq.nextId, cause := some cause }] })
  exact ⟨ms, h⟩

theorem Only.otherPage (s : State) (cause : Nat) : Only winParts s (s.otherPage cause) :=
  ⟨by simp, by simp, fun p hp => by cases p <;> simp_all [Part.same, winParts]⟩

/-- A switch to the other page at an entry that it has (R72, R74). -/
theorem State.switchTo_other {b : Bool} {n : Nat} (hb : b ≠ s.seq.actB) (hn : n < (s.seq.pageOf b).count) :
    Only winParts s (s.switchTo b n) ∧
    (∃ ms, (s.switchTo b n).seq = { s.seq with marks := ms, deferred := none, actB := b, next := n }) ∧
    ∀ k, k < 4 → (s.switchTo b n).rd (F.CTL_SEQ_LC_LC k) = 0 := by
  obtain ⟨ms, h⟩ := s.otherPage_seq 2
  have hs : s.switchTo b n = ((s.otherPage 2).modSeq fun q => { q with deferred := none }).modSeq fun q =>
      { q with actB := b, next := n } := by
    unfold State.switchTo
    rw [if_pos (by simpa using hb)]
    exact State.enter_of_lt (by rw [State.modSeq_seq, h]; exact hn)
  rw [hs]
  refine ⟨((Only.otherPage s 2).trans ((Only.modSeq _ _).mono (by decide))).trans ((Only.modSeq _ _).mono (by decide)),
    ⟨ms, ?_⟩, fun k hk => ?_⟩
  · rw [State.modSeq_seq, State.modSeq_seq, h]
  · rw [modSeq_rd, modSeq_rd]
    exact State.clearLc_rd _ hk

/-- A jump within the active page (R72). -/
theorem State.switchTo_same {b : Bool} {n : Nat} (hb : b = s.seq.actB) : s.switchTo b n = s.enter b n := by
  unfold State.switchTo
  rw [if_neg (by simpa using hb)]

end Sys2Proof.Machine

namespace Sys2Proof.Machine

variable {s u : State} {t : Nat} {e : Entry}

/-! ### Registers of several words -/

theorem wordsOf_length (n : Nat) : ∀ k, (wordsOf n k).length = k := by
  intro k
  induction k generalizing n with
  | zero => rfl
  | succ k ih => rw [wordsOf, List.length_cons, ih]

theorem natOf_wordsOf (k : Nat) : ∀ n, natOf (wordsOf n k) = n % 2 ^ (20 * k) := by
  induction k with
  | zero => intro n; simp [natOf, wordsOf, Nat.mod_one]
  | succ k ih =>
    intro n
    rw [wordsOf, natOf, ih, BitVec.toNat_ofNat, Nat.mul_succ, Nat.add_comm (20 * k), Nat.pow_add, Nat.mod_mul]

theorem State.wrWide_word (s : State) (a n v : Nat) {b : Nat} (h : b < a ∨ a + n ≤ b) : (s.wrWide a n v).word b = s.word b := by
  rw [State.wrWide, State.wrWords_word]
  rcases h with h | h
  · rw [if_neg (by omega)]
  · rw [List.getElem?_eq_none (by rw [wordsOf_length]; omega), Option.getD_none, ite_self]

/-- A register of several words reads as the value written, modulo its width. -/
theorem State.rdWide_wrWide (s : State) (a n v : Nat) : (s.wrWide a n v).rdWide a n = v % 2 ^ (20 * n) := by
  rw [State.rdWide, ← natOf_wordsOf]
  congr 1
  refine List.ext_getElem (by simp [wordsOf_length]) fun i h1 h2 => ?_
  rw [List.getElem_map, List.getElem_range, State.wrWide, State.wrWords_word, if_pos (by omega), Nat.add_sub_cancel_left,
    List.getElem?_eq_getElem h2, Option.getD_some]

theorem State.rdWide_of_words {a n : Nat} (h : ∀ i, i < n → u.word (a + i) = s.word (a + i)) : u.rdWide a n = s.rdWide a n := by
  rw [State.rdWide, State.rdWide, List.map_congr_left fun i hi => h i (List.mem_range.mp hi)]

theorem Only.wrWide (s : State) (a n v : Nat) : Only [.regs] s (s.wrWide a n v) :=
  ⟨by simp, by simp, fun p hp => by cases p <;> simp_all [Part.same]⟩

/-! ### PAGE -/

/-- An entry is issued while the sequencer runs alone. -/
theorem State.run_of_fetch {op : Nat} (h : s.fetch op = .entry e) : s.seq.st = .run := by
  unfold State.fetch at h
  split at h
  · cases h
  next hi => simp only [State.issuing, Bool.not_eq_true', Bool.not_eq_false, Bool.and_eq_true, beq_iff_eq] at hi; exact hi.1

theorem exec_pageImmediate (h : s.fetch 8 = .entry e) (hm : wf e.w0 14 13 = 0) :
    exec (.pageImmediate t) s = .next (
      if (wf e.w0 15 15 == 1) ≠ s.seq.actB ∧ s.seq.loading = some (wf e.w0 15 15 == 1) then
        ((s.begin t).modSeq fun q => { q with deferred := some (wf e.w0 15 15 == 1, wf e.w1 11 0, false) }).advance
      else (((s.begin t).modSeq fun q => { q with pc := q.next }).switchTo (wf e.w0 15 15 == 1) (wf e.w1 11 0)).settleDeferred) := by
  have hb : (s.begin t).fetch 8 = .entry e := h
  have hq : (s.begin t).seq = s.seq := rfl
  simp only [exec, execPageImmediate, hb, hq, hm, bne_self_eq_false, Bool.false_eq_true, if_false, Bool.and_eq_true, bne_iff_ne,
    beq_iff_eq]
  split <;> rfl

/-- A jump within the active page to an entry that it has. -/
theorem pageImmediate_jumps (h : s.fetch 8 = .entry e) (hm : wf e.w0 14 13 = 0) (hp : (wf e.w0 15 15 == 1) = s.seq.actB)
    (hw : s.seq.Waits) (hn : wf e.w1 11 0 < s.seq.active.count) :
    Completes (.pageImmediate t) t s [.seq] fun u => u.seq = s.seq.went (wf e.w1 11 0) := by
  have he := exec_pageImmediate (t := t) h hm
  rw [if_neg (fun k => k.1 hp), hp,
    State.switchTo_same (s := (s.begin t).modSeq fun q => { q with pc := q.next }) (b := s.seq.actB) rfl,
    State.enter_of_lt (s := (s.begin t).modSeq fun q => { q with pc := q.next }) hn,
    State.settleDeferred_of_waits (by simpa [Seq.Waits] using hw)] at he
  exact ⟨_, he, (Only.modSeq _ _).trans (Only.modSeq _ _), rfl⟩

/-- A jump within the active page beyond its entries. -/
theorem pageImmediate_jumps_beyond (h : s.fetch 8 = .entry e) (hm : wf e.w0 14 13 = 0)
    (hp : (wf e.w0 15 15 == 1) = s.seq.actB) (hw : s.seq.Waits) (hn : s.seq.active.count ≤ wf e.w1 11 0) :
    CompletesAt (.pageImmediate t) t s [.seq] [F.CTL_SEQ_STATUS_BADENT.addr] fun u =>
      u.seq = s.seq.went 0 ∧ u.flag F.CTL_SEQ_STATUS_BADENT = true := by
  have he := exec_pageImmediate (t := t) h hm
  rw [if_neg (fun k => k.1 hp), hp,
    State.switchTo_same (s := (s.begin t).modSeq fun q => { q with pc := q.next }) (b := s.seq.actB) rfl,
    State.enter_of_le (s := (s.begin t).modSeq fun q => { q with pc := q.next }) hn,
    State.settleDeferred_of_waits (by simpa [Seq.Waits] using hw)] at he
  refine ⟨_, he, ((Only.modSeq _ _).comp (Only.put _ _ _) (by decide) (by decide)).comp (Only.modSeq _ _) (fun _ h => h) (by decide),
    fun a ha => ?_, ?_, ?_⟩
  · rw [modSeq_word, word_put_ne _ _ _ _ (fun h => ha (List.mem_singleton.mpr h)), modSeq_word, begin_word]
  · simp [Seq.went]
  · rw [modSeq_flag, flag_put _ _ _ rfl (by decide)]

/-- A switch to the other page at an entry that it has. -/
theorem pageImmediate_switches (h : s.fetch 8 = .entry e) (hm : wf e.w0 14 13 = 0)
    (hp : (wf e.w0 15 15 == 1) ≠ s.seq.actB) (hl : s.seq.loading ≠ some (wf e.w0 15 15 == 1))
    (hn : wf e.w1 11 0 < (s.seq.pageOf (wf e.w0 15 15 == 1)).count) :
    Completes (.pageImmediate t) t s winParts fun u => 
      (∃ ms, u.seq = { s.seq.went (wf e.w1 11 0) with marks := ms, deferred := none, actB := wf e.w0 15 15 == 1 }) ∧
      ∀ n, n < 4 → u.rd (F.CTL_SEQ_LC_LC n) = 0 := by
  have he := exec_pageImmediate (t := t) h hm
  obtain ⟨ho, ⟨ms, hq⟩, hlc⟩ := State.switchTo_other (s := (s.begin t).modSeq fun q => { q with pc := q.next }) hp hn
  rw [if_neg (fun k => hl k.2), State.settleDeferred_of_none (by rw [hq])] at he
  exact ⟨_, he, ((Only.modSeq _ _).mono (by decide)).trans ho, ⟨ms, hq⟩, hlc⟩

/-- A switch to the other page while it loads is deferred. -/
theorem pageImmediate_defers (h : s.fetch 8 = .entry e) (hm : wf e.w0 14 13 = 0)
    (hp : (wf e.w0 15 15 == 1) ≠ s.seq.actB) (hl : s.seq.loading = some (wf e.w0 15 15 == 1)) :
    Completes (.pageImmediate t) t s [.seq] fun u =>
      u.seq = { s.seq.stepped with deferred := some (wf e.w0 15 15 == 1, wf e.w1 11 0, false) } := by
  have he := exec_pageImmediate (t := t) h hm
  have ha : ((s.begin t).modSeq fun q => { q with deferred := some (wf e.w0 15 15 == 1, wf e.w1 11 0, false) }).advance =
      ((s.begin t).modSeq fun q => { q with deferred := some (wf e.w0 15 15 == 1, wf e.w1 11 0, false) }).modSeq Seq.stepped :=
    State.settleDeferred_of_waits (.inr ⟨_, _, _, rfl, hl⟩)
  rw [if_pos ⟨hp, hl⟩, ha] at he
  exact ⟨_, he, (Only.modSeq _ _).trans (Only.modSeq _ _), rfl⟩

/-! ### Battens that the head issues -/

theorem Only.sendChain (s : State) (side : ChainSide) (typ : Nat) (p : List Nat) : Only [.lnk, .out] s (s.sendChain side typ p) :=
  ⟨by simp, by simp, fun q hq => by cases q <;> simp_all [Part.same]⟩

theorem State.issueBatten_eq (hb : s.seq.batten = none) (hi : s.seq.st ≠ .idle) (hh : s.seq.st ≠ .halted) (sync pgB : Bool)
    (arg at0 : Nat) :
    s.issueBatten sync pgB arg at0 = (s.modSeq fun q => { q with
      batten := some ⟨sync, pgB, arg, at0 + s.rd F.CTL_BATTEN_LEAD_LEAD⟩ }).sendChain .down 0x63
        (Batten.payload ⟨sync, pgB, arg, at0 + s.rd F.CTL_BATTEN_LEAD_LEAD⟩) := by
  unfold State.issueBatten State.takeBatten
  dsimp only
  rw [if_neg (by simp [hb, hi, hh])]

theorem State.sendChain_seq (s : State) (side : ChainSide) (typ : Nat) (p : List Nat) : (s.sendChain side typ p).seq = s.seq := by
  simp

theorem exec_pageIssue (h : s.fetch 8 = .entry e) (hm : wf e.w0 14 13 = 1) :
    exec (.pageIssue t) s = .next (if s.isHead then (s.begin t).issueBatten false (wf e.w0 15 15 == 1) (wf e.w1 11 0)
      (max (s.begin t).now s.seq.cursor) else s.begin t).advance := by
  have hb : (s.begin t).fetch 8 = .entry e := h
  simp only [exec, execPageIssue, hb, hm, bne_self_eq_false, Bool.false_eq_true, if_false]
  rfl

/-- A sibling that is no head goes on at a PAGE in ISSUE mode. -/
theorem pageIssue_goesOn (h : s.fetch 8 = .entry e) (hm : wf e.w0 14 13 = 1) (hd : s.seq.deferred = none)
    (hh : s.isHead = false) : Completes (.pageIssue t) t s [.seq] fun u => u.seq = s.seq.stepped := by
  have he := exec_pageIssue (t := t) h hm
  rw [hh, if_neg (by decide), State.advance_of_none (s := s.begin t) hd] at he
  exact ⟨_, he, Only.modSeq _ _, rfl⟩

/-- The head issues a Batten at a PAGE in ISSUE mode. -/
theorem pageIssue_issues (h : s.fetch 8 = .entry e) (hm : wf e.w0 14 13 = 1) (hd : s.seq.deferred = none)
    (hh : s.isHead = true) (hb : s.seq.batten = none) :
    Completes (.pageIssue t) t s [.seq, .lnk, .out] fun u => u.seq = { s.seq.stepped with
      batten := some ⟨false, wf e.w0 15 15 == 1, wf e.w1 11 0,
        max (s.begin t).now s.seq.cursor + s.rd F.CTL_BATTEN_LEAD_LEAD⟩ } := by
  have he := exec_pageIssue (t := t) h hm
  have hr := State.run_of_fetch h
  rw [hh, if_pos rfl, State.issueBatten_eq (s := s.begin t) hb (hr ▸ by decide) (hr ▸ by decide),
    State.advance_of_none (by rw [State.sendChain_seq]; exact hd)] at he
  refine ⟨_, he, ((Only.modSeq _ _).comp (Only.sendChain _ _ _ _) (by decide) (by decide)).trans
    ((Only.modSeq _ _).mono (by decide)), ?_⟩
  beta_reduce
  rw [State.modSeq_seq, State.sendChain_seq]
  rfl

/-- A write of CTL_BATTEN answers as its rule says. -/
theorem hostWrite_batten {c : Instr} {d : Word} (hc : c = .pageSwitchBatten t d ∨ c = .syncReleaseBatten t d) (h : s.portOpen)
    {st : Status} {v : State} (hw : (s.begin t).writeReg 0x010E d = (st, v)) :
    ∃ x, exec c s = .next (v.respond ⟨st, 0x010E, x⟩ s.mgmt.resp) := by
  have he : exec c s = s.hostWrite t 0x010E d := by rcases hc with rfl | rfl <;> rfl
  rw [he]
  exact ⟨_, State.hostWrite_of_register h (fs := _) rfl rfl t d hw⟩

theorem bitsOf_low_byte (n : Nat) : bitsOf n 11 0 % 256 = bitsOf n 7 0 := by
  simp only [bitsOf]
  omega

theorem batten_issued {c : Instr} {d : Word} (hc : c = .pageSwitchBatten t d ∨ c = .syncReleaseBatten t d) (h : s.portOpen)
    (hk : bitsOf d.toNat 19 18 < 2) (hh : s.isHead = true) (hb : s.seq.batten = none) (hr : s.seq.st = .run ∨ s.seq.st = .syncwait) :
    Completes c t s [.mgmt, .seq, .lnk, .out] fun u => s.answered u 0x010E .ok ∧
      u.seq = { s.seq with batten := some ⟨bitsOf d.toNat 19 18 == 1, bitOf d.toNat 17,
        if bitsOf d.toNat 19 18 = 1 then bitsOf d.toNat 7 0 else bitsOf d.toNat 11 0,
        (s.begin t).now + s.rd F.CTL_BATTEN_LEAD_LEAD⟩ } := by
  have hi : s.seq.st ≠ .idle ∧ s.seq.st ≠ .halted := by rcases hr with hr | hr <;> rw [hr] <;> decide
  have hc1 : (Nat.ble 2 (bitsOf d.toNat 19 18) || !(s.begin t).isHead || (s.begin t).seq.batten.isSome) = false := by
    have hh' : (s.begin t).isHead = true := hh
    have hb' : (s.begin t).seq.batten = none := hb
    rw [hh', hb', ← Bool.not_eq_true, Option.isSome_none, Bool.not_true, Bool.or_false, Bool.or_false, Nat.ble_eq]
    exact Nat.not_le.mpr hk
  have hw : (s.begin t).writeReg 0x010E d = (.ok, (s.begin t).issueBatten (bitsOf d.toNat 19 18 == 1) (bitOf d.toNat 17)
      (if bitsOf d.toNat 19 18 = 1 then bitsOf d.toNat 7 0 else bitsOf d.toNat 11 0) (s.begin t).now) := by
    refine State.writeReg_of_ok rfl ?_
    refine (if_neg (by rw [hc1]; decide)).trans ?_
    simp only [beq_iff_eq, bitsOf_low_byte]
  obtain ⟨x, he⟩ := hostWrite_batten hc h hw
  rw [State.issueBatten_eq (s := s.begin t) hb hi.1 hi.2] at he
  refine ⟨_, he, Only.respond ((Only.modSeq _ _).comp (Only.sendChain _ _ _ _) (by decide) (by decide)) (by decide) _ _, ?_, ?_⟩
  · exact State.respond_answered _ _ _ _ _
  · rw [State.respond_seq, State.sendChain_seq]
    rfl

theorem batten_refused {c : Instr} {d : Word} (hc : c = .pageSwitchBatten t d ∨ c = .syncReleaseBatten t d) (h : s.portOpen)
    (hk : 2 ≤ bitsOf d.toNat 19 18 ∨ s.isHead = false ∨ s.seq.batten.isSome = true) :
    Completes c t s [.mgmt] fun u => s.answered u 0x010E .refused := by
  have hw : (s.begin t).writeReg 0x010E d = (.refused, s.begin t) := by
    refine State.writeReg_of_refused rfl (if_pos ?_)
    rw [Bool.or_eq_true, Bool.or_eq_true, Nat.ble_eq, Bool.not_eq_true', or_assoc]
    exact hk
  obtain ⟨x, he⟩ := hostWrite_batten hc h hw
  exact ⟨_, he, Only.respond (Only.refl _ _) (by decide) _ _, State.respond_answered _ _ _ _ _⟩

end Sys2Proof.Machine

namespace Sys2Proof.Machine

variable {s u : State} {t : Nat} {e : Entry} {x : Batten}

/-! ### The pending Batten at Te -/

/-- The pending Batten is taken as executed: CTL_BATTEN_TIME holds its Te (R89). -/
def State.battenTaken (s : State) (x : Batten) : State := (s.modSeq fun q => { q with batten := none }).battenTime x.te

theorem State.battenTaken_seq (s : State) (x : Batten) : (s.battenTaken x).seq = { s.seq with batten := none } := by
  simp [State.battenTaken, State.battenTime]

theorem State.battenTaken_only (s : State) (x : Batten) : Only [.regs, .seq] s (s.battenTaken x) :=
  (Only.modSeq _ _).comp (Only.wrWide _ _ _ _) (by decide) (by decide)

theorem State.battenTaken_word (s : State) (x : Batten) {a : Nat} (h : a ∉ [0x0110, 0x0111, 0x0112]) :
    (s.battenTaken x).word a = s.word a := by
  simp only [List.mem_cons, List.not_mem_nil, or_false] at h
  exact State.wrWide_word _ _ _ _ (by omega)

theorem State.battenTaken_te (s : State) (x : Batten) : (s.battenTaken x).rdWide 0x0110 3 = x.te % 2 ^ 60 :=
  State.rdWide_wrWide _ _ _ _

/-- A Batten that is due before a timed entry switches the page. -/
theorem exec_battenExecute_run (hx : s.seq.batten = some x) (hr : s.seq.st = .run) (hd : s.battenDue = true)
    (ht : s.seq.entry.any Entry.timed = true) :
    exec (.battenExecute t) s = .next (((s.begin t).battenTaken x).battenSwitch x x.te) := by
  have hb : (s.begin t).seq = s.seq := rfl
  have hd' : (s.begin t).battenDue = true := hd
  have hsy : x.sync = false := by
    simp only [State.battenDue, hx, Bool.and_eq_true, Bool.not_eq_true'] at hd
    exact hd.1
  simp only [exec, execBattenExecute, hb, hx, hr, hd', ht, hsy]
  rfl

theorem exec_battenExecute_sync (hx : s.seq.batten = some x) (hr : s.seq.st = .syncwait) (hs : x.sync = true)
    (hd : x.te ≤ (s.begin t).now) :
    exec (.battenExecute t) s = .next (((s.begin t).battenTaken x).syncSource 4 x.arg x.te) := by
  have hb : (s.begin t).seq = s.seq := rfl
  have hd' : Nat.ble x.te (s.begin t).now = true := Nat.ble_eq_true_of_le hd
  simp only [exec, execBattenExecute, hb, hx, hr, hd', hs]
  rfl

theorem exec_battenExecute_drop (hx : s.seq.batten = some x) (hr : s.seq.st = .idle ∨ s.seq.st = .halted)
    (hd : x.te ≤ (s.begin t).now) :
    exec (.battenExecute t) s = .next ((s.begin t).modSeq fun q => { q with batten := none }).battenDrop := by
  have hb : (s.begin t).seq = s.seq := rfl
  have hd' : Nat.ble x.te (s.begin t).now = true := Nat.ble_eq_true_of_le hd
  have hc : (s.seq.st == .idle || s.seq.st == .halted) = true := by simpa using hr
  simp only [exec, execBattenExecute, hb, hx, hc, hd', if_true]

theorem exec_battenExecute_early (hx : s.seq.batten = some x) (hr : s.seq.st ≠ .run) (hd : (s.begin t).now < x.te) :
    exec (.battenExecute t) s = .next (s.begin t) := by
  have hb : (s.begin t).seq = s.seq := rfl
  have hd' : Nat.ble x.te (s.begin t).now = false := by
    rw [← Bool.not_eq_true, Nat.ble_eq]; exact Nat.not_le.mpr hd
  simp only [exec, execBattenExecute, hb, hx, hd']
  cases hst : s.seq.st with
  | run => exact absurd hst hr
  | idle => rfl
  | halted => rfl
  | syncwait => cases x.sync <;> rfl

theorem exec_battenExecute_none (hx : s.seq.batten = none) : exec (.battenExecute t) s = .next (s.begin t) := by
  have hb : (s.begin t).seq = s.seq := rfl
  simp only [exec, execBattenExecute, hb, hx]

/-! ### The switch of a Batten -/

/-- A Batten of the active page jumps in it (R73). -/
theorem State.battenSwitch_same (hp : x.pgB = s.seq.actB) (hn : x.arg < s.seq.active.count) (tt : Nat) :
    s.battenSwitch x tt = s.modSeq fun q => { q with st := .run, syncHit := none, actB := x.pgB, next := x.arg, cursor := tt } := by
  unfold State.battenSwitch
  dsimp only
  rw [if_neg (by simp [hp]), State.switchTo_same (by simpa using hp), State.enter_of_lt (by rw [hp]; exact hn)]
  rfl

/-- A Batten of the other page switches to it (R73). -/
theorem State.battenSwitch_other (hp : x.pgB ≠ s.seq.actB) (hl : s.seq.loading ≠ some x.pgB)
    (hn : x.arg < (s.seq.pageOf x.pgB).count) (tt : Nat) :
    Only winParts s (s.battenSwitch x tt) ∧
    (∃ ms, (s.battenSwitch x tt).seq = { s.seq with
      st := .run, syncHit := none, marks := ms, deferred := none, actB := x.pgB, next := x.arg, cursor := tt }) ∧
    ∀ k, k < 4 → (s.battenSwitch x tt).rd (F.CTL_SEQ_LC_LC k) = 0 := by
  obtain ⟨ho, ⟨ms, hq⟩, hlc⟩ := State.switchTo_other (s := s.modSeq fun q => { q with st := .run, syncHit := none }) hp hn
  unfold State.battenSwitch
  dsimp only
  rw [if_neg (by simp [hl])]
  exact ⟨(((Only.modSeq _ _).mono (by decide)).trans ho).trans ((Only.modSeq _ _).mono (by decide)),
    ⟨ms, by rw [State.modSeq_seq, hq]; rfl⟩, hlc⟩

/-- A Batten of a page that loads is deferred, and told as late (R78). -/
theorem State.battenSwitch_deferred (hr : s.seq.st = .run) (hp : x.pgB ≠ s.seq.actB) (hl : s.seq.loading = some x.pgB)
    (tt : Nat) :
    s.battenSwitch x tt = ((s.modSeq fun q => { q with st := .run, syncHit := none }).modSeq fun q =>
      { q with deferred := some (x.pgB, x.arg, true) }).battenLate := by
  unfold State.battenSwitch
  dsimp only
  rw [if_pos (by simp [hp, hl])]
  simp [hr]

/-! ### BATTEN_EXECUTE -/

section
variable (hx : s.seq.batten = some x)
include hx

theorem batten_jumps (hr : s.seq.st = .run) (hd : s.battenDue = true) (ht : s.seq.entry.any Entry.timed = true)
    (hp : x.pgB = s.seq.actB) (hn : x.arg < s.seq.active.count) :
    CompletesAt (.battenExecute t) t s [.seq] [0x0110, 0x0111, 0x0112] fun u =>
      u.seq = { s.seq with batten := none, syncHit := none, next := x.arg, cursor := x.te } ∧ u.rdWide 0x0110 3 = x.te % 2 ^ 60 := by
  have he := exec_battenExecute_run (t := t) hx hr hd ht
  have hq := (s.begin t).battenTaken_seq x
  rw [State.battenSwitch_same (by rw [hq]; exact hp) (by rw [hq]; exact hn)] at he
  refine ⟨_, he, ((s.begin t).battenTaken_only x).comp (Only.modSeq _ _) (by decide) (by decide),
    fun a ha => (s.begin t).battenTaken_word x ha, ?_, (s.begin t).battenTaken_te x⟩
  rw [State.modSeq_seq, hq, hp, ← hr]
  rfl

theorem batten_switches (hr : s.seq.st = .run) (hd : s.battenDue = true) (ht : s.seq.entry.any Entry.timed = true)
    (hp : x.pgB ≠ s.seq.actB) (hl : s.seq.loading ≠ some x.pgB) (hn : x.arg < (s.seq.pageOf x.pgB).count) :
    Completes (.battenExecute t) t s winParts fun u =>
      u.seq.st = .run ∧ u.seq.batten = none ∧ u.seq.actB = x.pgB ∧ u.seq.next = x.arg ∧ u.seq.cursor = x.te ∧
      ∀ n, n < 4 → u.rd (F.CTL_SEQ_LC_LC n) = 0 := by
  have hq := (s.begin t).battenTaken_seq x
  obtain ⟨ho, ⟨ms, hs⟩, hlc⟩ := State.battenSwitch_other (s := (s.begin t).battenTaken x) (x := x) (by rw [hq]; exact hp)
    (by rw [hq]; exact hl) (by rw [hq]; exact hn) x.te
  refine ⟨_, exec_battenExecute_run hx hr hd ht, (((s.begin t).battenTaken_only x).mono (by decide)).trans ho, ?_⟩
  beta_reduce
  rw [hs, hq]
  exact ⟨rfl, rfl, rfl, rfl, rfl, hlc⟩

theorem batten_deferred (hr : s.seq.st = .run) (hd : s.battenDue = true) (ht : s.seq.entry.any Entry.timed = true)
    (hp : x.pgB ≠ s.seq.actB) (hl : s.seq.loading = some x.pgB) :
    CompletesAt (.battenExecute t) t s (.seq :: evParts) (0x0110 :: 0x0111 :: 0x0112 :: evWords) fun u =>
      u.seq = { s.seq with batten := none, syncHit := none, deferred := some (x.pgB, x.arg, true) } ∧
      u.rdWide 0x0110 3 = x.te % 2 ^ 60 ∧ (s.begin t).told u 0x07 .warn 0 := by
  have he := exec_battenExecute_run (t := t) hx hr hd ht
  have hq := (s.begin t).battenTaken_seq x
  have ho := (s.begin t).battenTaken_only x
  have hw : ∀ a, a ∉ [0x0110, 0x0111, 0x0112] → ((s.begin t).battenTaken x).word a = s.word a :=
    fun a ha => (s.begin t).battenTaken_word x ha
  have hte := (s.begin t).battenTaken_te x
  rw [State.battenSwitch_deferred (by rw [hq]; exact hr) (by rw [hq]; exact hp) (by rw [hq]; exact hl)] at he
  generalize (s.begin t).battenTaken x = v at he hq ho hw hte
  refine ⟨_, he, ((ho.trans ((Only.modSeq _ _).mono (by decide))).trans ((Only.modSeq _ _).mono (by decide))).comp
    (Only.raise _ _ _ _) (by decide) (by decide), fun a ha => ?_, ?_, ?_, ?_⟩
  · rw [State.battenLate, State.raise_word _ _ _ _ (fun h => ha (by simp [h])), modSeq_word, modSeq_word,
      hw a (fun h => ha (by simp only [List.mem_cons, List.not_mem_nil, or_false] at h ⊢; tauto))]
  · rw [State.battenLate, State.raise_seq, State.modSeq_seq, State.modSeq_seq, hq, ← hr]
    rfl
  · rw [← hte]
    exact State.rdWide_of_words fun i hi => State.raise_word _ _ _ _ (by
      simp only [evWords, F.CTL_EVLOST_COUNT, F.LNK_EVLOST_COUNT, List.mem_cons, List.not_mem_nil, or_false]; omega)
  · exact State.told_of (State.raise_told _ _ _ _) (congrArg Mgmt.evq (ho.2.2 .mgmt (by decide)))
      (State.queues_of_word (hw _ (by decide)) _) (now_of ho.1 (ho.2.2 .tofs (by decide)))

theorem batten_releases (hr : s.seq.st = .syncwait) (hs : x.sync = true) (hd : x.te ≤ (s.begin t).now) (h4 : s.seq.syncSrc = 4)
    (ha : s.seq.syncArg = x.arg) (hh : s.seq.syncHit = none) (hi : s.seq.syncIssue < x.te) :
    CompletesAt (.battenExecute t) t s [.seq] [0x0110, 0x0111, 0x0112] fun u =>
      u.seq = { s.seq with batten := none, syncHit := some x.te } ∧ u.rdWide 0x0110 3 = x.te % 2 ^ 60 := by
  have he := exec_battenExecute_sync (t := t) hx hr hs hd
  have hq := (s.begin t).battenTaken_seq x
  have hf : ((s.begin t).battenTaken x).syncSource 4 x.arg x.te =
      ((s.begin t).battenTaken x).modSeq fun q => { q with syncHit := some x.te } := by
    have hlt : Nat.blt s.seq.syncIssue x.te = true := by rwa [Nat.blt_eq]
    unfold State.syncSource
    dsimp only
    rw [hq]
    exact if_pos (by simp [hr, h4, ha, hh, hlt])
  rw [hf] at he
  refine ⟨_, he, ((s.begin t).battenTaken_only x).comp (Only.modSeq _ _) (by decide) (by decide),
    fun a ha => (s.begin t).battenTaken_word x ha, ?_, (s.begin t).battenTaken_te x⟩
  rw [State.modSeq_seq, hq]
  rfl

theorem batten_drops (hr : s.seq.st = .idle ∨ s.seq.st = .halted) (hd : x.te ≤ (s.begin t).now) :
    CompletesAt (.battenExecute t) t s (.seq :: evParts) evWords fun u =>
      u.seq = { s.seq with batten := none } ∧ (s.begin t).told u 0x06 .warn 0 := by
  refine ⟨_, exec_battenExecute_drop hx hr hd, (Only.modSeq _ _).comp (Only.raise _ _ _ _) (by decide) (by decide),
    fun a ha => ?_, ?_, ?_⟩
  · rw [State.battenDrop, State.raise_word _ _ _ _ ha, modSeq_word, begin_word]
  · rw [State.battenDrop, State.raise_seq]
    rfl
  · exact State.told_of (State.raise_told _ _ _ _) rfl (State.queues_of_word (modSeq_word _ _ _) _) rfl

end

/-- Settles O34. -/
theorem badEntriesPagesAndBattens : Obligations.BadEntriesPagesAndBattens := by
  unfold Obligations.BadEntriesPagesAndBattens
  refine ⟨fun s t => ⟨fun c op hc h => badEntry_halts (exec_of_bad hc h), fun p hits hs hr hm hp => ⟨fun hv => ?_, fun hv => ?_⟩,
    fun hits h => completes_of_next (exec_pageReload_idle h) _⟩, ?_⟩
  · obtain ⟨u, he, ho, hq⟩ := pageReload_resumes hs hr hm hp hv
    refine ⟨u, he, ho, by rw [hq], by rw [hq], ?_, by rw [hq], by rw [hq], fun hf => ?_, fun hf => ?_⟩
    · rw [hq]
      exact (congrArg _ (s.seq.reloaded_active p s.fso.frameOpen).1.symm).trans (s.seq.reloaded_active p s.fso.frameOpen).2
    · rw [hq, hf]
      exact (s.seq.reloaded_marks p _).trans (List.append_nil _)
    · rw [hq, hf]
      have hk := s.seq.reloaded_marks p true
      simp [hk]
  · exact pageReload_fails hs hr hm hp hv
  · intro s t b wide
    refine ⟨fun e h hm => ⟨fun hp hw hn => pageImmediate_jumps h hm hp hw hn, fun hp hw hn => pageImmediate_jumps_beyond h hm hp hw hn,
        fun hp hl hn => ?_, fun hp hl => pageImmediate_defers h hm hp hl⟩,
      fun e h hm hd => ⟨pageIssue_goesOn h hm hd, pageIssue_issues h hm hd⟩, fun c d hc hp hh hb hr => ?_,
      fun c d hc hp hk => batten_refused hc hp hk, fun x hx => ⟨batten_jumps hx, batten_switches hx, batten_deferred hx,
        batten_releases hx, batten_drops hx, fun hd hr => completes_of_next (exec_battenExecute_early hx hr hd) _⟩,
      fun hx => completes_of_next (exec_battenExecute_none hx) _⟩
    · obtain ⟨u, he, ho, ⟨ms, hq⟩, hlc⟩ := pageImmediate_switches (t := t) h hm hp hl hn
      exact ⟨u, he, ho, by rw [hq], by rw [hq]; rfl, by rw [hq]; rfl, by rw [hq], by rw [hq]; rfl, hlc⟩
    · rcases hc with ⟨hc, hk⟩ | ⟨hc, hk⟩
      · exact batten_issued (.inl hc) hp (by omega) hh hb hr
      · exact batten_issued (.inr hc) hp (by omega) hh hb hr

end Sys2Proof.Machine

/-! ## The trigger inputs and the trigger bus (R71, R130, R316, R349, R433, R434) -/

namespace Sys2Proof.Machine

variable {s u : State} {t : Nat}

/-! ### Bits -/

/-- Two numbers that differ in one bit agree in the others. -/
theorem testBit_of_same_half {a b r l k : Nat} (hr : r < 2 ^ l) (h : a / 2 = b / 2) (hk : k ≠ l) :
    (2 ^ l * a + r).testBit k = (2 ^ l * b + r).testBit k := by
  rw [Nat.testBit_two_pow_mul_add _ hr, Nat.testBit_two_pow_mul_add _ hr]
  split
  · rfl
  next hlt =>
    obtain ⟨j, hj⟩ : ∃ j, k - l = j + 1 := ⟨k - l - 1, by omega⟩
    rw [hj, Nat.testBit_succ, Nat.testBit_succ, h]

theorem testBit_own {a r l : Nat} (hr : r < 2 ^ l) : (2 ^ l * a + r).testBit l = decide (a % 2 = 1) := by
  rw [Nat.testBit_two_pow_mul_add _ hr, if_neg (Nat.lt_irrefl _), Nat.sub_self, Nat.testBit_zero]

theorem exists_bit_split (n l : Nat) : ∃ a r, r < 2 ^ l ∧ n = 2 ^ l * a + r :=
  ⟨n / 2 ^ l, n % 2 ^ l, Nat.mod_lt _ (Nat.two_pow_pos _), (Nat.div_add_mod _ _).symm⟩

/-- A bit that is clear is set by adding its weight. -/
theorem testBit_add_weight {n l : Nat} (h : n.testBit l = false) (k : Nat) :
    (n + 2 ^ l).testBit k = if k = l then true else n.testBit k := by
  obtain ⟨a, r, hr, rfl⟩ := exists_bit_split n l
  have ha : a % 2 = 0 := by rw [testBit_own hr, decide_eq_false_iff_not] at h; omega
  rw [Nat.add_right_comm, ← Nat.mul_succ]
  split
  next hk => rw [hk, testBit_own hr, decide_eq_true_eq]; omega
  next hk => exact testBit_of_same_half hr (by omega) hk

/-- A bit that is set is cleared by taking its weight away. -/
theorem testBit_sub_weight {n l : Nat} (h : n.testBit l = true) (k : Nat) :
    (n - 2 ^ l).testBit k = if k = l then false else n.testBit k := by
  obtain ⟨a, r, hr, rfl⟩ := exists_bit_split n l
  have ha : a % 2 = 1 := by rwa [testBit_own hr, decide_eq_true_eq] at h
  obtain ⟨b, rfl⟩ : ∃ b, a = b + 1 := ⟨a - 1, by omega⟩
  rw [Nat.mul_succ, Nat.add_right_comm, Nat.add_sub_cancel, Nat.add_right_comm, ← Nat.mul_succ]
  split
  next hk => rw [hk, testBit_own hr, decide_eq_false_iff_not]; omega
  next hk => exact testBit_of_same_half hr (by omega) hk

/-! ### What an edge does to SYNC and the capture engine -/

/-- The schedule after an event of a source (R65, R66). -/
def Seq.synced (q : Seq) (src arg inst : Nat) : Seq :=
  if q.st = .syncwait ∧ q.syncSrc = src ∧ q.syncArg = arg ∧ q.syncHit = none ∧ q.syncIssue < inst
    then { q with syncHit := some inst } else q

theorem State.syncSource_eq (s : State) {src : Nat} (arg inst : Nat) (h : src ≠ 5) :
    s.syncSource src arg inst = s.modSeq fun q => q.synced src arg inst := by
  have hc : (s.seq.st == .syncwait && (s.seq.syncSrc == src && (if src == 5 then s.seq.syncArg == 0 || s.seq.syncArg == arg
      else s.seq.syncArg == arg)) && s.seq.syncHit.isNone && Nat.blt s.seq.syncIssue inst) = true ↔
      s.seq.st = .syncwait ∧ s.seq.syncSrc = src ∧ s.seq.syncArg = arg ∧ s.seq.syncHit = none ∧ s.seq.syncIssue < inst := by
    rw [if_neg (by simpa using h)]
    simp only [Bool.and_eq_true, beq_iff_eq, Option.isNone_iff_eq_none, Nat.blt_eq, and_assoc]
  unfold State.syncSource
  dsimp only [State.modSeq, Seq.synced]
  by_cases hi : s.seq.st = .syncwait ∧ s.seq.syncSrc = src ∧ s.seq.syncArg = arg ∧ s.seq.syncHit = none ∧ s.seq.syncIssue < inst
  · rw [if_pos hi, if_pos (hc.mpr hi)]
  · rw [if_neg hi, if_neg (fun k => hi (hc.mp k))]

/-- The capture engine after a condition of a source with a TRIGEN bit (R316). -/
def Cap.offered (k : Cap) (c : Cond) (trigen : Nat) : Cap :=
  if k.st ≠ .idle ∧ bitOf trigen c.src = true then { k with conds := k.conds ++ [c] } else k

theorem State.condition_eq (s : State) {c : Cond} (h : c.src ≠ 15) :
    s.condition c = s.modCap fun k => k.offered c (s.rd F.CAP_A_TRIG_TRIGEN) := by
  unfold State.condition
  by_cases hi : s.cap.st = .idle
  · rw [if_pos (by simp [hi]), State.modCap, Cap.offered, if_neg (fun k => k.1 hi)]
  · rw [if_neg (by simpa using hi)]
    by_cases hb : bitOf (s.rd F.CAP_A_TRIG_TRIGEN) c.src = true
    · rw [if_pos (by simp [hb]), State.modCap, State.modCap, Cap.offered, if_pos ⟨hi, hb⟩]
    · rw [if_neg (by simp [h, hb]), State.modCap, Cap.offered, if_neg (fun k => hb k.2)]

theorem Only.modCap (s : State) (f : Cap → Cap) : Only [.cap] s (s.modCap f) :=
  ⟨by simp, by simp, fun p hp => by cases p <;> simp_all [Part.same]⟩

theorem Only.modLnk (s : State) (f : Lnk → Lnk) : Only [.lnk] s (s.modLnk f) :=
  ⟨by simp, by simp, fun p hp => by cases p <;> simp_all [Part.same]⟩

theorem Only.modFso (s : State) (f : Fso → Fso) : Only [.fso] s (s.modFso f) :=
  ⟨by simp, by simp, fun p hp => by cases p <;> simp_all [Part.same]⟩

/-- A device that is not joined drives no line. -/
theorem State.driveFrom_of_unjoined (h : s.lnk.joined = false) (src : Nat) (rising : Bool) (stamp fine : Nat) :
    s.driveFrom src rising stamp fine = s := by
  have hl : ∀ l, s.driveIf src rising stamp fine l = s := fun l => by simp [State.driveIf, State.drives, h]
  unfold State.driveFrom
  generalize List.range 8 = ls
  induction ls with
  | nil => rfl
  | cons l ls ih => rw [List.foldl_cons, hl, ih]

/-! ### Trigger inputs -/

theorem Only.trigFreq (s : State) (k p : Nat) (leading : Bool) : Only [.rta] s (s.trigFreq k p leading) :=
  ⟨by simp, by simp, fun p hp => by cases p <;> simp_all [Part.same]⟩

/-- The TRIG flag of an input is set at its rising edge (R71). -/
def State.trigFlagged (s : State) (k : Nat) (rising : Bool) : State := if rising then s.setBit F.CTL_SEQ_FLAGS_TRIG k else s

theorem State.trigFlagged_only (s : State) (k : Nat) (rising : Bool) : Only [.regs] s (s.trigFlagged k rising) := by
  unfold State.trigFlagged
  split
  · exact Only.put _ _ _
  · exact Only.refl _ _

theorem State.trigFlagged_word (s : State) (k : Nat) (rising : Bool) {a : Nat} (h : a ≠ F.CTL_SEQ_FLAGS_TRIG.addr) :
    (s.trigFlagged k rising).word a = s.word a := by
  unfold State.trigFlagged
  split
  · exact word_put_ne _ _ _ _ h
  · rfl

theorem State.trigFlagged_bit (s : State) {j k : Nat} (hk : k < 4) (hj : j < 4) (rising : Bool) :
    bitOf ((s.trigFlagged k rising).rd F.CTL_SEQ_FLAGS_TRIG) j = (bitOf (s.rd F.CTL_SEQ_FLAGS_TRIG) j || (rising && j == k)) := by
  have hlo : F.CTL_SEQ_FLAGS_TRIG.lo = 15 := rfl
  rw [State.trig_eq_bitOf _ hj, State.trig_eq_bitOf _ hj]
  cases rising with
  | false => simp [State.trigFlagged]
  | true =>
    have hw : ((s.trigFlagged k true).word 0x0101) = putBits (s.word 0x0101) (15 + k) (15 + k) 1 := by
      simp only [State.trigFlagged, if_true, State.setBit, State.put, b2n]
      exact (word_wr _ _ _ _).trans (if_pos rfl)
    rw [hw, bitOf_eq_testBit, bitOf_eq_testBit, putBits_testBit _ _ _ _ _ le_rfl (by omega), hlo]
    by_cases hjk : j = k
    · simp [hjk]
    · rw [if_neg (by omega)]
      simp [hjk]

/-- A trigger input whose edge has set its flag, and entered frequency mode where the TDC is free (R156). -/
def State.trigTaken (s : State) (k p : Nat) (rising : Bool) : State :=
  if s.flag (F.RTA_FCFG_T_SRC k) then s.trigFlagged k rising
  else (s.trigFlagged k rising).trigFreq k p (rising != s.flag (F.RTA_FCFG_T_POL k))

theorem State.trigTaken_spec (s : State) {k p : Nat} (hk : k < 4) (rising : Bool) :
    Only [.regs, .rta] s (s.trigTaken k p rising) ∧
    (∀ a, a ∉ [F.CTL_SEQ_FLAGS_TRIG.addr] → (s.trigTaken k p rising).word a = s.word a) ∧
    (∀ j, j < 4 → bitOf ((s.trigTaken k p rising).rd F.CTL_SEQ_FLAGS_TRIG) j =
      (bitOf (s.rd F.CTL_SEQ_FLAGS_TRIG) j || (rising && j == k))) ∧
    (s.flag (F.RTA_FCFG_T_FEN k) = false ∨ s.flag (F.RTA_FCFG_T_SRC k) = true → (s.trigTaken k p rising).rta = s.rta) := by
  have ho := s.trigFlagged_only k rising
  have hw : ∀ a, a ∉ [F.CTL_SEQ_FLAGS_TRIG.addr] → (s.trigFlagged k rising).word a = s.word a := fun a ha =>
    s.trigFlagged_word k rising fun h => ha (List.mem_singleton.mpr h)
  have hb : ∀ j, j < 4 → bitOf ((s.trigFlagged k rising).rd F.CTL_SEQ_FLAGS_TRIG) j =
      (bitOf (s.rd F.CTL_SEQ_FLAGS_TRIG) j || (rising && j == k)) := fun j hj => s.trigFlagged_bit hk hj rising
  have hr : (s.trigFlagged k rising).rta = s.rta := ho.2.2 .rta (by decide)
  have hf : (s.trigFlagged k rising).flag (F.RTA_FCFG_T_FEN k) = s.flag (F.RTA_FCFG_T_FEN k) :=
    State.flag_of_word (hw _ (by simp [F.RTA_FCFG_T_FEN, F.CTL_SEQ_FLAGS_TRIG]; omega))
  unfold State.trigTaken
  generalize s.trigFlagged k rising = v at ho hw hb hr hf
  have hregs : ∀ l, (v.trigFreq k p l).regs = v.regs := fun l => (Only.trigFreq v k p l).2.2 .regs (by decide)
  split
  · exact ⟨ho.mono (by decide), hw, hb, fun _ => hr⟩
  next hs =>
    refine ⟨ho.comp (Only.trigFreq _ _ _ _) (by decide) (by decide), fun a ha => (State.word_of_regs (hregs _) a).trans (hw a ha),
      fun j hj => (congrArg (bitOf · j) (State.rd_of_word (State.word_of_regs (hregs _) _))).trans (hb j hj), fun h => ?_⟩
    have hfen : v.flag (F.RTA_FCFG_T_FEN k) = false := hf.trans (h.resolve_right hs)
    rw [State.trigFreq, hfen]
    exact hr

/-- The stamp and the fine part of an edge (R130). -/
theorem State.trigStamp_eq (s : State) (k p : Nat) (coarse : Bool) :
    let x := (256 * s.now + (4096 - ((s.unitSt (272 + k)).entry p : Int) + 8) / 16).toNat
    s.trigStamp k p coarse = (if coarse then s.now + 1 else x / 256, if coarse then 0 else x % 256) := by
  unfold State.trigStamp State.trigPos
  split <;> rfl

theorem exec_trigInEdge {k : Nat} (ha : s.alive = true) (hk : k < 4) (hj : s.lnk.joined = false) (rising : Bool) (p : BitVec 8)
    {stamp fine : Nat} {coarse : Bool} (hc : coarse = (s.flag (F.RTA_FCFG_T_SRC k) || (s.unitSt (272 + k)).coarse))
    (hst : (s.begin t).trigStamp k p.toNat coarse = (stamp, fine)) :
    exec (.trigInEdge t k rising p) s = .next (let v := (s.begin t).trigTaken k p.toNat rising
      if rising != s.flag (F.RTA_FCFG_T_POL k) then (v.syncSource 1 k stamp).condition ⟨k, stamp, fine, coarse⟩ else v) := by
  have hal : (!(s.begin t).alive || Nat.ble 4 k) = false := by
    have ha' : (s.begin t).alive = true := ha
    rw [ha', ← Bool.not_eq_true, Bool.not_true, Bool.false_or, Nat.ble_eq]
    exact Nat.not_le.mpr hk
  have hu : (s.begin t).unitSt (272 + k) = s.unitSt (272 + k) := rfl
  have hd : ∀ v : State, v.lnk = s.lnk → v.driveFrom k rising stamp fine = v := fun v hv =>
    State.driveFrom_of_unjoined (by rw [hv]; exact hj) _ _ _ _
  have hfl : ((s.begin t).trigFlagged k rising).lnk = s.lnk := ((s.begin t).trigFlagged_only k rising).2.2 .lnk (by decide)
  simp only [exec, execTrigInEdge, hal, hu, begin_flag, ← hc, hst, Bool.false_eq_true, if_false]
  rw [← State.trigFlagged, hd _ hfl]
  simp only [State.trigTaken, begin_flag] <;> rfl

/-- The source serves SYNC, and the capture engine is offered its condition. -/
theorem State.edgeServed_spec (v : State) {src csrc arg stamp fine : Nat} {coarse : Bool} (h5 : src ≠ 5) (h15 : csrc ≠ 15) :
    let u := (v.syncSource src arg stamp).condition ⟨csrc, stamp, fine, coarse⟩
    Only [.seq, .cap] v u ∧ u.regs = v.regs ∧ u.seq = v.seq.synced src arg stamp ∧
      u.cap = v.cap.offered ⟨csrc, stamp, fine, coarse⟩ (v.rd F.CAP_A_TRIG_TRIGEN) := by
  intro u
  have hu : u = (v.modSeq fun q => q.synced src arg stamp).modCap fun k =>
      k.offered ⟨csrc, stamp, fine, coarse⟩ (v.rd F.CAP_A_TRIG_TRIGEN) := by
    rw [← modSeq_rd v fun q => q.synced src arg stamp, ← State.condition_eq _ (c := ⟨csrc, stamp, fine, coarse⟩) h15,
      ← State.syncSource_eq v arg stamp h5]
  rw [hu]
  exact ⟨(Only.modSeq _ _).comp (Only.modCap _ _) (by decide) (by decide), rfl, rfl, rfl⟩

/-- An edge on a trigger input. -/
theorem trigInEdge_completes {k : Nat} (ha : s.alive = true) (hk : k < 4) (hj : s.lnk.joined = false) (rising : Bool) (p : BitVec 8)
    {stamp fine : Nat} {coarse : Bool} (hc : coarse = (s.flag (F.RTA_FCFG_T_SRC k) || (s.unitSt (272 + k)).coarse))
    (hst : (s.begin t).trigStamp k p.toNat coarse = (stamp, fine)) :
    let flagged := fun (u : State) => ∀ j, j < 4 →
      bitOf (u.rd F.CTL_SEQ_FLAGS_TRIG) j = (bitOf (s.rd F.CTL_SEQ_FLAGS_TRIG) j || (rising && j == k))
    let fed := fun (u : State) => s.flag (F.RTA_FCFG_T_FEN k) = false ∨ s.flag (F.RTA_FCFG_T_SRC k) = true → u.rta = s.rta
    (rising = s.flag (F.RTA_FCFG_T_POL k) →
      CompletesAt (.trigInEdge t k rising p) t s [.rta] [F.CTL_SEQ_FLAGS_TRIG.addr] fun u => fed u ∧ flagged u) ∧
    (rising ≠ s.flag (F.RTA_FCFG_T_POL k) →
      CompletesAt (.trigInEdge t k rising p) t s [.seq, .rta, .cap] [F.CTL_SEQ_FLAGS_TRIG.addr] fun u =>
        u.seq = s.seq.synced 1 k stamp ∧ u.cap = s.cap.offered ⟨k, stamp, fine, coarse⟩ (s.rd F.CAP_A_TRIG_TRIGEN) ∧ fed u ∧
        flagged u) := by
  have he := exec_trigInEdge (t := t) ha hk hj rising p hc hst
  obtain ⟨ho, hw, hb, hr⟩ := (s.begin t).trigTaken_spec (p := p.toNat) hk rising
  have hq : ((s.begin t).trigTaken k p.toNat rising).seq = s.seq := ho.2.2 .seq (by decide)
  have hcap : ((s.begin t).trigTaken k p.toNat rising).cap = s.cap := ho.2.2 .cap (by decide)
  generalize (s.begin t).trigTaken k p.toNat rising = v at he ho hw hb hr hq hcap
  dsimp only at he
  refine ⟨fun hp => ?_, fun hp => ?_⟩
  · rw [if_neg (by simp [hp])] at he
    exact ⟨v, he, ho, hw, hr, hb⟩
  · rw [if_pos (by simpa using hp)] at he
    obtain ⟨hso, hsr, hss, hsc⟩ := State.edgeServed_spec v (src := 1) (csrc := k) (arg := k) (stamp := stamp) (fine := fine)
      (coarse := coarse) (by decide) (by omega)
    have htr : v.rd F.CAP_A_TRIG_TRIGEN = s.rd F.CAP_A_TRIG_TRIGEN := State.rd_of_word (hw _ (by decide))
    refine ⟨_, he, ho.comp hso (by decide) (by decide), fun a ha => (State.word_of_regs hsr a).trans (hw a ha), ?_, ?_,
      fun h => (hso.2.2 .rta (by decide)).trans (hr h), fun j hj => ?_⟩
    · rw [hss, hq]
    · rw [hsc, hcap, htr]
    · rw [State.rd_of_word (State.word_of_regs hsr _), hb j hj]
      rfl

end Sys2Proof.Machine

namespace Sys2Proof.Machine

variable {s u : State} {t : Nat}

/-! ### FSYNC_IN -/

theorem State.frameEvent_of_not_ready (h : s.ready = false) (inst : Nat) : s.frameEvent inst = s := by
  simp [State.frameEvent, h]

/-- Before READY an edge on FSYNC_IN is an encoder tick in LINE mode and nothing else (R349). -/
theorem State.fsyncFrame_of_not_ready (h : s.ready = false) (inst : Nat) :
    s.fsyncFrame inst = if s.rd F.FSO_CFG_FSMODE = 1 then s.encTick inst else s := by
  have ht : (s.encTick inst).ready = false := by simpa [State.ready, State.encTick] using h
  unfold State.fsyncFrame
  rw [State.frameEvent_of_not_ready h, State.frameEvent_of_not_ready ht]
  by_cases h1 : s.rd F.FSO_CFG_FSMODE = 1
  · simp [h1]
  · simp [h1]

theorem State.encTick_spec (s : State) (inst : Nat) :
    Only [.regs, .fso] s (s.encTick inst) ∧ (∀ a, a ∉ [F.FSO_ENC_ENC.addr] → (s.encTick inst).word a = s.word a) ∧
    (s.encTick inst).rd F.FSO_ENC_ENC = (s.rd F.FSO_ENC_ENC + 1) % 2 ^ 20 ∧
    (s.encTick inst).fso = { s.fso with encLog := ((s.rd F.FSO_ENC_ENC + 1) % 2 ^ 20, inst) :: s.fso.encLog } := by
  refine ⟨(Only.modFso _ _).comp (Only.wr _ _ _) (by decide) (by decide), fun a ha => ?_, ?_, ?_⟩
  · exact (word_wr_ne _ _ _ _ fun h => ha (List.mem_singleton.mpr h)).trans (modFso_word _ _ _)
  · exact (rd_wr _ _ _ (by decide) (by decide)).trans (Nat.mod_mod _ _)
  · simp [State.encTick, State.encNext]

/-- An active edge on FSYNC_IN at its stamp, before READY. -/
def State.fsyncTaken (s : State) (k p stamp fine : Nat) (coarse : Bool) : State :=
  ((s.trigFreq k p true).condition ⟨4, stamp, fine, coarse⟩).syncSource 0 0 stamp

theorem State.fsyncTaken_spec (s : State) (k p stamp fine : Nat) (coarse : Bool) :
    let u := s.fsyncTaken k p stamp fine coarse
    Only [.seq, .rta, .cap] s u ∧ u.regs = s.regs ∧ u.seq = s.seq.synced 0 0 stamp ∧
      u.cap = s.cap.offered ⟨4, stamp, fine, coarse⟩ (s.rd F.CAP_A_TRIG_TRIGEN) := by
  have ho := Only.trigFreq s k p true
  have hr : (s.trigFreq k p true).regs = s.regs := ho.2.2 .regs (by decide)
  have hq : (s.trigFreq k p true).seq = s.seq := ho.2.2 .seq (by decide)
  have hc : (s.trigFreq k p true).cap = s.cap := ho.2.2 .cap (by decide)
  have ht : (s.trigFreq k p true).rd F.CAP_A_TRIG_TRIGEN = s.rd F.CAP_A_TRIG_TRIGEN := State.rd_of_word (State.word_of_regs hr _)
  intro u
  have hu : u = ((s.trigFreq k p true).modCap fun x =>
      x.offered ⟨4, stamp, fine, coarse⟩ (s.rd F.CAP_A_TRIG_TRIGEN)).modSeq fun q => q.synced 0 0 stamp := by
    rw [← ht, ← State.condition_eq _ (c := ⟨4, stamp, fine, coarse⟩) (show 4 ≠ 15 by decide), ← State.syncSource_eq _ 0 stamp (by decide)]
    rfl
  rw [hu, State.modSeq_seq, ← hq, ← hc]
  exact ⟨(ho.comp (Only.modCap _ _) (by decide) (by decide)).comp (Only.modSeq _ _) (fun _ h => h) (by decide), hr, rfl, rfl⟩

theorem exec_fsyncInEdge {k : Nat} (ha : s.alive = true) (hk : s.fsyncTdc = some k) (hj : s.lnk.joined = false)
    (hr : s.ready = false) {rising : Bool} (hp : rising ≠ s.flag (F.RTA_FCFG_T_POL k)) (p : BitVec 8) {stamp fine : Nat}
    (hst : (s.begin t).trigStamp k p.toNat (s.unitSt (272 + k)).coarse = (stamp, fine)) :
    exec (.fsyncInEdge t rising p) s = .next (let v := (s.begin t).fsyncTaken k p.toNat stamp fine (s.unitSt (272 + k)).coarse
      if s.rd F.FSO_CFG_FSMODE = 1 then v.encTick stamp else v) := by
  have hf : (s.begin t).fsyncTdc = some k := hk
  have hal : (s.begin t).alive = true := ha
  have hu : (s.begin t).unitSt (272 + k) = s.unitSt (272 + k) := rfl
  have hac : (rising != s.flag (F.RTA_FCFG_T_POL k)) = true := by simpa using hp
  obtain ⟨ho, hre, -, -⟩ := (s.begin t).fsyncTaken_spec k p.toNat stamp fine (s.unitSt (272 + k)).coarse
  have hrd : ((s.begin t).fsyncTaken k p.toNat stamp fine (s.unitSt (272 + k)).coarse).ready = false := by
    have hdev := ho.2.2 .dev (by decide)
    rw [State.ready, hdev]
    exact hr
  have hm : ((s.begin t).fsyncTaken k p.toNat stamp fine (s.unitSt (272 + k)).coarse).rd F.FSO_CFG_FSMODE = s.rd F.FSO_CFG_FSMODE :=
    State.rd_of_word (State.word_of_regs hre _)
  simp only [exec, execFsyncInEdge, hf, hal, hu, hst, begin_flag, hac, State.driveFrom_of_unjoined (s := s.begin t) hj,
    Bool.not_true, Bool.false_eq_true, if_false, if_true, Bool.true_or]
  rw [← State.fsyncTaken, State.fsyncFrame_of_not_ready hrd, hm]

/-- An active edge on FSYNC_IN before READY. -/
theorem fsyncInEdge_completes {k : Nat} (ha : s.alive = true) (hk : s.fsyncTdc = some k) (hj : s.lnk.joined = false)
    (hr : s.ready = false) {rising : Bool} (hp : rising ≠ s.flag (F.RTA_FCFG_T_POL k)) (p : BitVec 8) {stamp fine : Nat}
    (hst : (s.begin t).trigStamp k p.toNat (s.unitSt (272 + k)).coarse = (stamp, fine)) :
    let edge := fun (u : State) => u.seq = s.seq.synced 0 0 stamp ∧
      u.cap = s.cap.offered ⟨4, stamp, fine, (s.unitSt (272 + k)).coarse⟩ (s.rd F.CAP_A_TRIG_TRIGEN)
    (s.rd F.FSO_CFG_FSMODE = 1 →
      CompletesAt (.fsyncInEdge t rising p) t s [.seq, .rta, .cap, .fso] [F.FSO_ENC_ENC.addr] fun u =>
        edge u ∧ u.rd F.FSO_ENC_ENC = (s.rd F.FSO_ENC_ENC + 1) % 2 ^ 20 ∧
        u.fso = { s.fso with encLog := ((s.rd F.FSO_ENC_ENC + 1) % 2 ^ 20, stamp) :: s.fso.encLog }) ∧
    (s.rd F.FSO_CFG_FSMODE ≠ 1 → Completes (.fsyncInEdge t rising p) t s [.seq, .rta, .cap] fun u => edge u) := by
  have he := exec_fsyncInEdge (t := t) ha hk hj hr hp p hst
  obtain ⟨ho, hre, hq, hc⟩ := (s.begin t).fsyncTaken_spec k p.toNat stamp fine (s.unitSt (272 + k)).coarse
  generalize (s.begin t).fsyncTaken k p.toNat stamp fine (s.unitSt (272 + k)).coarse = v at he ho hre hq hc
  dsimp only at he
  refine ⟨fun hm => ?_, fun hm => ?_⟩
  · rw [if_pos hm] at he
    obtain ⟨hto, htw, htr, htf⟩ := v.encTick_spec stamp
    have hev : v.rd F.FSO_ENC_ENC = s.rd F.FSO_ENC_ENC := State.rd_of_word (State.word_of_regs hre _)
    have hfv : v.fso = s.fso := ho.2.2 .fso (by decide)
    refine ⟨_, he, ho.comp hto (by decide) (by decide), fun a ha => (htw a ha).trans (State.word_of_regs hre a),
      ⟨(hto.2.2 .seq (by decide)).trans hq, (hto.2.2 .cap (by decide)).trans hc⟩, ?_, ?_⟩
    · rw [htr, hev]
    · rw [htf, hev, hfv]
  · rw [if_neg hm] at he
    exact ⟨v, he, ho, hq, hc⟩

theorem exec_fsyncInEdge_untimed (h : s.fsyncTdc = none) (rising : Bool) (p : BitVec 8) :
    exec (.fsyncInEdge t rising p) s = .next (s.begin t) := by
  have hf : (s.begin t).fsyncTdc = none := h
  simp only [exec, execFsyncInEdge, hf]

/-! ### Messages of the chain -/

section
variable {hdr : ChainHdr} (hup : s.portUp hdr.side = true)
include hup

/-- A message that is whole and new is taken (R413, R414). -/
theorem State.rxChain_accepts (hc : hdr.crcOk = true) (hn : ∀ r, (s.neigh hdr.side).rxSeq = some r → newer hdr.seq r = true) :
    s.rxChain hdr = (true, s.setNeigh hdr.side { s.neigh hdr.side with rxSeq := some (hdr.seq % 2 ^ 20) }) := by
  have hq : ((s.neigh hdr.side).rxSeq.any fun r => !newer hdr.seq r) = false := by
    rw [← Bool.not_eq_true, Option.any_eq_true]
    rintro ⟨r, hr, hx⟩
    rw [hn r hr] at hx
    exact absurd hx (by decide)
  unfold State.rxChain
  dsimp only
  rw [if_neg (by rw [hup]; decide), if_neg (by rw [hc]; decide), if_neg (by rw [hq]; decide)]

theorem State.rxChain_corrupt (hc : hdr.crcOk = false) : s.rxChain hdr = (false, s.inc F.LNK_MSGCRC_COUNT) := by
  simp only [State.rxChain, hup, hc, Bool.not_true, Bool.not_false, Bool.false_eq_true, if_false, if_true]

theorem State.rxChain_old (hc : hdr.crcOk = true) {r : Nat} (hr : (s.neigh hdr.side).rxSeq = some r)
    (hn : newer hdr.seq r = false) : s.rxChain hdr = (false, s.inc F.LNK_DUPSEQ_COUNT) := by
  have hq : ((s.neigh hdr.side).rxSeq.any fun r => !newer hdr.seq r) = true := by
    rw [hr, Option.any_some, hn]
    rfl
  unfold State.rxChain
  dsimp only
  rw [if_neg (by rw [hup]; decide), if_neg (by rw [hc]; decide), if_pos hq]

end

theorem Only.setNeigh (s : State) (side : ChainSide) (n : Neigh) : Only [.lnk] s (s.setNeigh side n) := Only.modLnk _ _

end Sys2Proof.Machine

namespace Sys2Proof.Machine

variable {s u : State} {t : Nat}

/-! ### Lines of the trigger bus -/

/-- The level of a line set to that of an edge. -/
def lineLevel (was line : Nat) (level : Bool) : Nat :=
  if level == bitOf was line then was else if level then was + 2 ^ line else was - 2 ^ line

theorem lineLevel_bit (was line : Nat) (level : Bool) (k : Nat) :
    bitOf (lineLevel was line level) k = if k = line then level else bitOf was k := by
  unfold lineLevel
  rw [bitOf_eq_testBit, bitOf_eq_testBit, bitOf_eq_testBit]
  cases level <;> cases hb : was.testBit line
  · simp only [beq_self_eq_true, if_true]; split <;> simp_all
  · simpa using testBit_sub_weight hb k
  · simpa using testBit_add_weight hb k
  · simp only [beq_self_eq_true, if_true]; split <;> simp_all

theorem bitOf_mod (n : Nat) {w k : Nat} (h : k < w) : bitOf (n % 2 ^ w) k = bitOf n k := by
  rw [bitOf_eq_testBit, bitOf_eq_testBit, Nat.testBit_mod_two_pow]
  simp [h]

/-- The level of an edge applies to its line, and the outputs follow. -/
def State.levelled (s : State) (e : BusEdge) : State :=
  (s.wr F.LNK_TBUS_LEVEL (lineLevel (s.rd F.LNK_TBUS_LEVEL) e.line e.level)).setOuts

theorem State.levelled_spec (s : State) (e : BusEdge) :
    Only [.regs, .lnk] s (s.levelled e) ∧ (∀ a, a ∉ [F.LNK_TBUS_LEVEL.addr] → (s.levelled e).word a = s.word a) ∧
    (∀ k, k < 8 → bitOf ((s.levelled e).rd F.LNK_TBUS_LEVEL) k = if k = e.line then e.level else bitOf (s.rd F.LNK_TBUS_LEVEL) k) ∧
    (s.levelled e).lnk.bus = s.lnk.bus := by
  refine ⟨(Only.wr _ _ _).comp (Only.modLnk _ _) (by decide) (by decide), fun a ha => ?_, fun k hk => ?_, ?_⟩
  · exact (modLnk_word _ _ _).trans (word_wr_ne _ _ _ _ fun h => ha (List.mem_singleton.mpr h))
  · have hr : (s.levelled e).rd F.LNK_TBUS_LEVEL = lineLevel (s.rd F.LNK_TBUS_LEVEL) e.line e.level % 2 ^ 8 :=
      (modLnk_rd _ _ _).trans (rd_wr _ _ _ (by decide) (by decide))
    rw [hr, bitOf_mod _ hk, lineLevel_bit]
  · simp [State.levelled, State.setOuts]

/-- A rising edge serves SYNC and the capture engine; another only sets the level. -/
theorem State.applyEdge_eq (s : State) (e : BusEdge) :
    s.applyEdge e = if e.level && !bitOf (s.rd F.LNK_TBUS_LEVEL) e.line
      then ((s.levelled e).syncSource 2 e.line e.time).condition ⟨5 + e.line, e.time, e.fine, false⟩ else s.levelled e := rfl

theorem exec_triggerBusEvent {line : Nat} {e : BusEdge}
    (h : (s.lnk.bus.find? fun e => e.line == line && Nat.ble (e.time + b2n (e.fine != 0)) (s.begin t).now) = some e) :
    exec (.triggerBusEvent t line) s =
      .next (((s.begin t).modLnk fun l => { l with bus := l.bus.erase e }).applyEdge e) := by
  have hb : (s.begin t).lnk = s.lnk := rfl
  simp only [exec, execTriggerBusEvent, hb, h]

theorem exec_triggerBusEvent_idle {line : Nat}
    (h : (s.lnk.bus.find? fun e => e.line == line && Nat.ble (e.time + b2n (e.fine != 0)) (s.begin t).now) = none) :
    exec (.triggerBusEvent t line) s = .next (s.begin t) := by
  have hb : (s.begin t).lnk = s.lnk := rfl
  simp only [exec, execTriggerBusEvent, hb, h]

/-- The next edge of a line applies. -/
theorem triggerBusEvent_completes {line : Nat} {e : BusEdge} (hl : line < 8)
    (h : (s.lnk.bus.find? fun e => e.line == line && Nat.ble (e.time + b2n (e.fine != 0)) (s.begin t).now) = some e) :
    CompletesAt (.triggerBusEvent t line) t s [.seq, .cap, .lnk] [F.LNK_TBUS_LEVEL.addr] fun u =>
      u.lnk.bus = s.lnk.bus.erase e ∧
      (∀ k, k < 8 → bitOf (u.rd F.LNK_TBUS_LEVEL) k = if k = line then e.level else bitOf (s.rd F.LNK_TBUS_LEVEL) k) ∧
      (e.level = true → bitOf (s.rd F.LNK_TBUS_LEVEL) line = false →
        u.seq = s.seq.synced 2 line e.time ∧
        u.cap = s.cap.offered ⟨5 + line, e.time, e.fine, false⟩ (s.rd F.CAP_A_TRIG_TRIGEN)) ∧
      (e.level = false → u.seq = s.seq ∧ u.cap = s.cap) := by
  have he := exec_triggerBusEvent h
  have hline : e.line = line := by
    have hp := List.find?_some h
    rw [Bool.and_eq_true, beq_iff_eq] at hp
    exact hp.1
  obtain ⟨ho, hw, hbit, hbus⟩ := ((s.begin t).modLnk fun l => { l with bus := l.bus.erase e }).levelled_spec e
  rw [State.applyEdge_eq, modLnk_rd, begin_rd] at he
  rw [hline] at he hbit
  have ho' := (Only.modLnk (s.begin t) fun l => { l with bus := l.bus.erase e }).comp ho (rs := [.regs, .lnk]) (by decide) (by decide)
  generalize ((s.begin t).modLnk fun l => { l with bus := l.bus.erase e }).levelled e = v at he ho ho' hw hbit hbus
  have hq : v.seq = s.seq := ho'.2.2 .seq (by decide)
  have hc : v.cap = s.cap := ho'.2.2 .cap (by decide)
  by_cases hrise : (e.level && !bitOf (s.rd F.LNK_TBUS_LEVEL) line) = true
  · rw [if_pos hrise] at he
    obtain ⟨hso, hsr, hss, hsc⟩ := State.edgeServed_spec v (src := 2) (csrc := 5 + line) (arg := line) (stamp := e.time)
      (fine := e.fine) (coarse := false) (by decide) (by omega)
    have htr : v.rd F.CAP_A_TRIG_TRIGEN = s.rd F.CAP_A_TRIG_TRIGEN := State.rd_of_word (hw _ (by decide))
    refine ⟨_, he, ho'.comp hso (by decide) (by decide), fun a ha => (State.word_of_regs hsr a).trans (hw a ha), ?_,
      fun k hk => ?_, fun _ _ => ⟨?_, ?_⟩, fun hf => ?_⟩
    · exact (congrArg Lnk.bus (hso.2.2 .lnk (by decide))).trans hbus
    · exact (congrArg (bitOf · k) (State.rd_of_word (State.word_of_regs hsr _))).trans (hbit k hk)
    · rw [hss, hq]
    · rw [hsc, hc, htr]
    · rw [hf] at hrise
      exact absurd hrise (by simp)
  · rw [if_neg hrise] at he
    refine ⟨v, he, ho'.mono (by decide), hw, hbus, hbit, fun h1 h0 => ?_, fun _ => ⟨hq, hc⟩⟩
    rw [h1, h0] at hrise
    exact absurd rfl hrise

/-- An edge that is not late waits on the bus. -/
theorem State.takeEdge_waits {line stamp fine : Nat} {level : Bool} (h : s.now ≤ stamp + s.rd F.LNK_TBLAT_TBLAT) :
    s.takeEdge line level stamp fine = s.modLnk fun l =>
      { l with bus := l.bus ++ [⟨line, level, stamp + s.rd F.LNK_TBLAT_TBLAT, fine⟩] } := by
  unfold State.takeEdge
  dsimp only
  rw [if_neg (by rw [Nat.blt_eq]; exact Nat.not_lt.mpr h)]

theorem State.sendChain_bus (s : State) (side : ChainSide) (typ : Nat) (p : List Nat) :
    (s.sendChain side typ p).lnk.bus = s.lnk.bus := by
  unfold State.sendChain
  split
  · cases side <;> rfl
  · rfl

/-! ### Edges of the host -/

/-- The lines of a write that this device drives from the host each get an edge at the instant. -/
theorem State.driveLines_spec (up : Bool) (ls : List Nat) : ∀ s : State,
    let u := ls.foldl (fun s l => s.driveLine l up s.now 0) s
    Only [.lnk, .out] s u ∧
      u.lnk.bus = s.lnk.bus ++ ls.map (fun l => ⟨l, up, s.now + s.rd F.LNK_TBLAT_TBLAT, 0⟩) := by
  induction ls with
  | nil => intro s; exact ⟨Only.refl _ _, (List.append_nil _).symm⟩
  | cons l ls ih =>
    intro s
    have hs : Only [.lnk, .out] s ((s.sendChain .up 0x64 [l, b2n up, s.now, 0]).sendChain .down 0x64 [l, b2n up, s.now, 0]) :=
      (Only.sendChain _ _ _ _).trans (Only.sendChain _ _ _ _)
    have hbus : ((s.sendChain .up 0x64 [l, b2n up, s.now, 0]).sendChain .down 0x64 [l, b2n up, s.now, 0]).lnk.bus = s.lnk.bus := by
      rw [State.sendChain_bus, State.sendChain_bus]
    have hd : s.driveLine l up s.now 0 =
      ((s.sendChain .up 0x64 [l, b2n up, s.now, 0]).sendChain .down 0x64 [l, b2n up, s.now, 0]).takeEdge l up s.now 0 := rfl
    generalize (s.sendChain .up 0x64 [l, b2n up, s.now, 0]).sendChain .down 0x64 [l, b2n up, s.now, 0] = v at hs hbus hd
    have hn : v.now = s.now := now_of hs.1 (hs.2.2 .tofs (by decide))
    have hr : v.rd F.LNK_TBLAT_TBLAT = s.rd F.LNK_TBLAT_TBLAT := State.rd_of_word (State.word_of_regs (hs.2.2 .regs (by decide)) _)
    rw [State.takeEdge_waits (by rw [hn]; exact Nat.le_add_right _ _), hr] at hd
    obtain ⟨ho, hb⟩ := ih (s.driveLine l up s.now 0)
    have hdn : (s.driveLine l up s.now 0).now = s.now := by rw [hd]; exact hn
    have hdr : (s.driveLine l up s.now 0).rd F.LNK_TBLAT_TBLAT = s.rd F.LNK_TBLAT_TBLAT := by rw [hd]; exact hr
    have hdb : (s.driveLine l up s.now 0).lnk.bus = s.lnk.bus ++ [⟨l, up, s.now + s.rd F.LNK_TBLAT_TBLAT, 0⟩] := by
      rw [hd]; exact congrArg (· ++ _) hbus
    have hdo : Only [.lnk, .out] s (s.driveLine l up s.now 0) := by
      rw [hd]; exact hs.trans ((Only.modLnk _ _).mono (by decide))
    refine ⟨hdo.trans ho, ?_⟩
    rw [List.foldl_cons, hb, hdb, hdn, hdr, List.map_cons, List.append_assoc]
    rfl

end Sys2Proof.Machine

namespace Sys2Proof.Machine

variable {s u : State} {t : Nat}

theorem hostWrite_lines {c : Instr} {d : Word} {up : Bool} (hc : c = .lnkTbusSet t d ∧ up = true ∨ c = .lnkTbusClr t d ∧ up = false)
    (h : s.portOpen) {st : Status} {v : State}
    (hw : (s.begin t).writeReg (if up = true then 0xB019 else 0xB01A) d = (st, v)) :
    ∃ x, exec c s = .next (v.respond ⟨st, BitVec.ofNat 16 (if up = true then 0xB019 else 0xB01A), x⟩ s.mgmt.resp) := by
  rcases hc with ⟨rfl, rfl⟩ | ⟨rfl, rfl⟩
  · exact ⟨_, State.hostWrite_of_register h (a := 0xB019) rfl rfl t d hw⟩
  · exact ⟨_, State.hostWrite_of_register h (a := 0xB01A) rfl rfl t d hw⟩

theorem ruleOf_lines (s s' : State) (d : Word) (up : Bool) :
    s.ruleOf s' (if up = true then 0xB019 else 0xB01A) d = s.hostLines d up := by
  cases up <;> rfl

theorem multiOf_lines (up : Bool) : multiOf (if up = true then 0xB019 else 0xB01A) = none := by cases up <;> rfl

/-- A write of LNK_TBUS_SET or LNK_TBUS_CLR drives its lines where this device drives all of them. -/
theorem lines_driven {c : Instr} {d : Word} {up : Bool} (hc : c = .lnkTbusSet t d ∧ up = true ∨ c = .lnkTbusClr t d ∧ up = false)
    (h : s.portOpen) (hl : ∀ l, l ∈ setBits d.toNat 8 → s.drives l 5 = true) :
    Completes c t s [.mgmt, .lnk, .out] fun u =>
      s.answered u (if up = true then 0xB019 else 0xB01A) .ok ∧
      u.lnk.bus = s.lnk.bus ++ (setBits d.toNat 8).map (fun l => ⟨l, up, (s.begin t).now + s.rd F.LNK_TBLAT_TBLAT, 0⟩) := by
  have hn : ((setBits d.toNat 8).any fun l => !(s.begin t).drives l 5) = false := by
    rw [List.any_eq_false]
    intro l hm
    have hd : (s.begin t).drives l 5 = true := hl l hm
    simp [hd]
  have hr := State.writeReg_of_ok (s := s.begin t) (multiOf_lines up) (w := d)
    ((ruleOf_lines _ _ d up).trans (if_neg (by rw [hn]; decide)))
  obtain ⟨x, he⟩ := hostWrite_lines hc h hr
  obtain ⟨ho, hb⟩ := State.driveLines_spec up (setBits d.toNat 8) (s.begin t)
  exact ⟨_, he, Only.respond (ho.mono (by decide)) (by decide) _ _, State.respond_answered _ _ _ _ _, hb⟩

theorem lines_refused {c : Instr} {d : Word} {up : Bool} (hc : c = .lnkTbusSet t d ∧ up = true ∨ c = .lnkTbusClr t d ∧ up = false)
    (h : s.portOpen) (hl : ∃ l, l ∈ setBits d.toNat 8 ∧ s.drives l 5 = false) :
    Completes c t s [.mgmt] fun u => s.answered u (if up = true then 0xB019 else 0xB01A) .refused := by
  obtain ⟨l, hm, hd⟩ := hl
  have hn : ((setBits d.toNat 8).any fun l => !(s.begin t).drives l 5) = true :=
    List.any_eq_true.mpr ⟨l, hm, by rw [show (s.begin t).drives l 5 = false from hd]; rfl⟩
  have hr := State.writeReg_of_refused (s := s.begin t) (multiOf_lines up) (w := d)
    ((ruleOf_lines _ _ d up).trans (if_pos hn))
  obtain ⟨x, he⟩ := hostWrite_lines hc h hr
  exact ⟨_, he, Only.respond (Only.refl _ _) (by decide) _ _, State.respond_answered _ _ _ _ _⟩

/-! ### Edges of the neighbours -/

theorem State.setNeigh_neigh (s : State) (side : ChainSide) (n : Neigh) : (s.setNeigh side n).neigh side = n := by
  cases side <;> rfl

/-- A message that has been taken leaves its number with its neighbour (R413). -/
def State.heard (s : State) (hdr : ChainHdr) : State :=
  s.setNeigh hdr.side { s.neigh hdr.side with rxSeq := some (hdr.seq % 2 ^ 20) }

theorem State.heard_joinedNeigh (s : State) (hdr : ChainHdr) : (s.heard hdr).joinedNeigh hdr.side = s.joinedNeigh hdr.side := by
  rw [State.joinedNeigh, State.heard, State.setNeigh_neigh]
  rfl

theorem State.heard_joined (s : State) (hdr : ChainHdr) : (s.heard hdr).lnk.joined = s.lnk.joined := by
  cases hs : hdr.side <;> simp [State.heard, State.setNeigh, State.modLnk, hs]

theorem State.heard_bus (s : State) (hdr : ChainHdr) : (s.heard hdr).lnk.bus = s.lnk.bus := by
  cases hs : hdr.side <;> simp [State.heard, State.setNeigh, State.modLnk, hs]

/-- A message onward leaves the neighbour that it comes from. -/
theorem State.sendChain_neigh (s : State) (side : ChainSide) (typ : Nat) (p : List Nat) :
    (s.sendChain (otherSide side) typ p).neigh side = s.neigh side := by
  unfold State.sendChain
  split
  · cases side <;> rfl
  · rfl

section
variable {hdr : ChainHdr} {line : Nat} {level : Bool} {stamp : Nat} {fine : BitVec 8}

/-- A message whose number counts as received already, or whose CRC fails, is counted. -/
theorem tbedge_counted {f : Fld} (hf : f.lo ≤ f.hi) (hh : f.hi < 20) (hr : (s.begin t).rxChain hdr = (false, (s.begin t).inc f)) :
    CompletesAt (.tbedge t hdr line level stamp fine) t s [] [f.addr] fun u =>
      u.rd f = satN (f.hi + 1 - f.lo) (s.rd f + 1) := by
  have he : exec (.tbedge t hdr line level stamp fine) s = .next ((s.begin t).inc f) := by
    simp only [exec, execTbedge, hr]
  exact ⟨_, he, Only.inc _ _, fun a ha => word_inc_ne _ _ _ fun h => ha (List.mem_singleton.mpr h), rd_inc _ _ hf hh⟩

variable (hr : (s.begin t).rxChain hdr = (true, (s.begin t).heard hdr))
include hr

theorem tbedge_discarded (hn : s.joinedNeigh hdr.side = none) :
    Completes (.tbedge t hdr line level stamp fine) t s [.lnk] fun u => u.lnk.bus = s.lnk.bus := by
  have hj : ((s.begin t).heard hdr).joinedNeigh hdr.side = none := (State.heard_joinedNeigh _ _).trans hn
  have he : exec (.tbedge t hdr line level stamp fine) s = .next ((s.begin t).heard hdr) := by
    simp only [exec, execTbedge, hr, hj, Option.isNone_none, Bool.or_true, Bool.true_or, if_true]
  exact ⟨_, he, Only.setNeigh _ _ _, State.heard_bus _ _⟩

theorem tbedge_taken (hl : line < 8) (hj : s.lnk.joined = true) (hen : s.flag (F.LNK_TB_EN line) = true)
    (hn : (s.joinedNeigh hdr.side).isSome = true) (hle : (s.begin t).now ≤ stamp + s.rd F.LNK_TBLAT_TBLAT) :
    Completes (.tbedge t hdr line level stamp fine) t s [.lnk, .out] fun u =>
      u.lnk.bus = s.lnk.bus ++ [⟨line, level, stamp + s.rd F.LNK_TBLAT_TBLAT, fine.toNat⟩] ∧
      (u.neigh hdr.side).rxSeq = some (hdr.seq % 2 ^ 20) := by
  have hjn : (((s.begin t).heard hdr).joinedNeigh hdr.side).isNone = false := by
    rw [State.heard_joinedNeigh]
    exact Option.isNone_eq_false_iff.mpr hn
  have hjd : ((s.begin t).heard hdr).lnk.joined = true := (State.heard_joined _ _).trans hj
  have hfl : ((s.begin t).heard hdr).flag (F.LNK_TB_EN line) = true := hen
  have hble : Nat.ble 8 line = false := by rw [← Bool.not_eq_true, Nat.ble_eq]; exact Nat.not_le.mpr hl
  have he : exec (.tbedge t hdr line level stamp fine) s = .next ((((s.begin t).heard hdr).sendChain (otherSide hdr.side) 0x64
      [line, b2n level, stamp, fine.toNat]).takeEdge line level stamp fine.toNat) := by
    simp only [exec, execTbedge, hr, hjn, hjd, hfl, hble, Bool.not_true, Bool.or_false, Bool.false_eq_true, if_false]
  have hho : Only [.lnk, .out] (s.begin t) ((s.begin t).heard hdr) := (Only.setNeigh _ _ _).mono (by decide)
  have hso : Only [.lnk, .out] (s.begin t) (((s.begin t).heard hdr).sendChain (otherSide hdr.side) 0x64
      [line, b2n level, stamp, fine.toNat]) := hho.trans (Only.sendChain _ _ _ _)
  have hbus : (((s.begin t).heard hdr).sendChain (otherSide hdr.side) 0x64 [line, b2n level, stamp, fine.toNat]).lnk.bus =
      s.lnk.bus := (State.sendChain_bus _ _ _ _).trans (State.heard_bus _ _)
  have hng : ((((s.begin t).heard hdr).sendChain (otherSide hdr.side) 0x64 [line, b2n level, stamp, fine.toNat]).neigh
      hdr.side).rxSeq = some (hdr.seq % 2 ^ 20) := by rw [State.sendChain_neigh, State.heard, State.setNeigh_neigh]
  generalize ((s.begin t).heard hdr).sendChain (otherSide hdr.side) 0x64 [line, b2n level, stamp, fine.toNat] = v at he hso hbus hng
  have hnow : v.now = (s.begin t).now := now_of hso.1 (hso.2.2 .tofs (by decide))
  have hrd : v.rd F.LNK_TBLAT_TBLAT = s.rd F.LNK_TBLAT_TBLAT := State.rd_of_word (State.word_of_regs (hso.2.2 .regs (by decide)) _)
  rw [State.takeEdge_waits (by rw [hnow, hrd]; exact hle), hrd] at he
  exact ⟨_, he, hso.trans ((Only.modLnk _ _).mono (by decide)), congrArg (· ++ _) hbus, by
    cases hs : hdr.side <;> simpa [State.neigh, State.modLnk, hs] using hng⟩

end

/-- Settles O43. -/
theorem triggerEdgesAndBusLines : Obligations.TriggerEdgesAndBusLines := by
  unfold Obligations.TriggerEdgesAndBusLines
  intro s t ha b offered synced ticks stamp fine
  refine ⟨fun k rising p hk hj => ?_, fun k rising p hk hj hr hp => ?_,
    fun rising p hf => completes_of_next (exec_fsyncInEdge_untimed hf rising p) _,
    fun c d up hc hp => ⟨lines_driven hc hp, lines_refused hc hp⟩, fun hdr line level st fi hup hl hj hen => ?_,
    fun line e hl h => triggerBusEvent_completes hl h, fun line h => completes_of_next (exec_triggerBusEvent_idle h) _⟩
  · exact trigInEdge_completes ha hk hj rising p rfl (b.trigStamp_eq k p.toNat _)
  · exact fsyncInEdge_completes ha hk hj hr hp p (b.trigStamp_eq k p.toNat _)
  · refine ⟨fun hc hn hjn => tbedge_discarded (State.rxChain_accepts (s := b) hup hc hn) hjn,
      fun hc hn hjn hle => tbedge_taken (State.rxChain_accepts (s := b) hup hc hn) hl hj hen hjn hle,
      fun hc => tbedge_counted (by decide) (by decide) (State.rxChain_corrupt (s := b) hup hc),
      fun r hc hr hn => tbedge_counted (by decide) (by decide) (State.rxChain_old (s := b) hup hc hr hn)⟩

end Sys2Proof.Machine

/-! ## Chain time, Battens and Dovetail records (R73, R75, R347, R430 to R432, R435, R453) -/

namespace Sys2Proof.Machine

variable {s u : State} {t : Nat} {hdr : ChainHdr}

/-! ### Messages of the chain, sent and taken -/

/-- A message on a port whose lane is ACTIVE goes out with the port's next number (R413, R414). -/
theorem State.sendChain_sent {side : ChainSide} (h : s.portUp side = true)
    (hm : side = .up ∨ s.isHead = true ∨ s.lnk.joined = true) (typ : Nat) (p : List Nat) :
    s.sendChain side typ p = (s.setNeigh side { s.neigh side with txSeq := ((s.neigh side).txSeq + 1) % 2 ^ 20 }).send
      (.chain side typ (s.neigh side).txSeq p) := by
  have hc : (s.portUp side && (side == .up || s.isHead || s.lnk.joined)) = true := by
    rw [h, Bool.true_and, Bool.or_eq_true, Bool.or_eq_true, beq_iff_eq, or_assoc]
    exact hm
  unfold State.sendChain
  rw [if_pos hc]

theorem State.sendChain_portDown {side : ChainSide} (h : s.portUp side = false) (typ : Nat) (p : List Nat) :
    s.sendChain side typ p = s := by
  unfold State.sendChain
  rw [h, Bool.false_and, if_neg (by decide)]

/-- A device alone sends nothing downstream (R435). -/
theorem State.sendChain_alone (hh : s.isHead = false) (hj : s.lnk.joined = false) (typ : Nat) (p : List Nat) :
    s.sendChain .down typ p = s := by
  unfold State.sendChain
  rw [hh, hj, if_neg (by rw [Bool.and_eq_true]; exact fun h => absurd h.2 (by decide))]

theorem Only.heard (s : State) (hdr : ChainHdr) : Only [.lnk] s (s.heard hdr) := Only.setNeigh _ _ _

theorem Only.draw (s : State) : Only [.free] s s.draw.2 :=
  ⟨by simp, by simp, fun p hp => by cases p <;> simp_all [Part.same]⟩

theorem Only.modTbu (s : State) (f : Tbu → Tbu) : Only [.tbu] s (s.modTbu f) :=
  ⟨by simp, by simp, fun p hp => by cases p <;> simp_all [Part.same]⟩

theorem Only.wrZ (s : State) (f : Fld) (z : Int) : Only [.regs] s (s.wrZ f z) := Only.wr _ _ _

theorem State.heard_rd (s : State) (hdr : ChainHdr) (f : Fld) : (s.heard hdr).rd f = s.rd f := rfl

theorem State.heard_portUp (s : State) (hdr : ChainHdr) (side : ChainSide) : (s.heard hdr).portUp side = s.portUp side := by
  have hl : (s.heard hdr).lnk.lanes = s.lnk.lanes := by
    cases hs : hdr.side <;> simp [State.heard, State.setNeigh, State.modLnk, hs]
  have hn : ∀ n, (s.heard hdr).lane n = s.lane n := fun n => by rw [State.lane, State.lane, hl]
  cases side <;> simp only [State.portUp, hn]

theorem State.heard_txSeq (s : State) (hdr : ChainHdr) (side : ChainSide) :
    ((s.heard hdr).neigh side).txSeq = (s.neigh side).txSeq := by
  cases hs : hdr.side <;> cases side <;> simp [State.heard, State.setNeigh, State.modLnk, State.neigh, hs]

theorem State.heard_hops (s : State) (hdr : ChainHdr) : (s.heard hdr).lnk.hops = s.lnk.hops := by
  cases hs : hdr.side <;> simp [State.heard, State.setNeigh, State.modLnk, hs]

theorem begin_lnk (s : State) (t : Nat) : (s.begin t).lnk = s.lnk := rfl

/-! ### PROBE -/

theorem exec_probeSend_idle (h : s.isHead = true ∨ s.portUp .up = false ∨ (s.begin t).clk < s.lnk.probeAt + 125000) :
    exec (.probeSend t) s = .next (s.begin t) := by
  have hh : (s.begin t).isHead = s.isHead := rfl
  have hp : (s.begin t).portUp .up = s.portUp .up := rfl
  have hl : (s.begin t).lnk = s.lnk := rfl
  refine if_pos ?_
  rw [hh, hp, hl, Bool.or_eq_true, Bool.or_eq_true, Bool.not_eq_true', Nat.blt_eq, or_assoc]
  exact h

/-- PROBE goes upstream when 125 µs have passed (R431). -/
theorem probeSend_sends (hh : s.isHead = false) (hp : s.portUp .up = true) (hc : s.lnk.probeAt + 125000 ≤ (s.begin t).clk) :
    Completes (.probeSend t) t s [.lnk, .out] fun u =>
      u.out = [.chain .up 0x60 s.lnk.up.txSeq []] ∧ u.lnk.probeAt = (s.begin t).clk ∧
      u.lnk.up.txSeq = (s.lnk.up.txSeq + 1) % 2 ^ 20 := by
  have he : exec (.probeSend t) s =
      .next (((s.begin t).modLnk fun l => { l with probeAt := (s.begin t).clk }).sendChain .up 0x60 []) := by
    refine if_neg ?_
    rw [Bool.or_eq_true, Bool.or_eq_true, Bool.not_eq_true', Nat.blt_eq]
    rintro ((h | h) | h)
    · exact absurd (hh.symm.trans h) (by decide)
    · exact absurd (hp.symm.trans h) (by decide)
    · exact absurd h (Nat.not_lt.mpr hc)
  have hs : (((s.begin t).modLnk fun l => { l with probeAt := (s.begin t).clk })).sendChain .up 0x60 [] = _ :=
    State.sendChain_sent (s := (s.begin t).modLnk fun l => { l with probeAt := (s.begin t).clk }) (side := .up) hp (.inl rfl) 0x60 []
  refine ⟨_, he, ((Only.modLnk _ _).mono (by decide)).trans (Only.sendChain _ _ _ _), ?_⟩
  beta_reduce
  rw [hs]
  exact ⟨rfl, rfl, rfl⟩

section
variable (hr : (s.begin t).rxChain hdr = (true, (s.begin t).heard hdr))
include hr

theorem exec_probe_up (hs : hdr.side = .up) : exec (.probe t hdr) s = .next ((s.begin t).heard hdr) := by
  simp only [exec, execProbe, hr, hs]
  rfl

theorem exec_probe_down (hs : hdr.side = .down) : exec (.probe t hdr) s = .next (((s.begin t).heard hdr).draw.2.sendChain .down 0x61
    [((s.begin t).heard hdr).draw.1, (s.begin t).chainNow, s.rdWide 0xB007 2]) := by
  simp only [exec, execProbe, hr, hs]
  rfl

/-- PROBE is answered with the head's time as the device holds it (R431, R432). -/
theorem probe_answered (hs : hdr.side = .down) (hp : s.portUp .down = true) (hm : s.isHead = true ∨ s.lnk.joined = true) :
    Completes (.probe t hdr) t s [.lnk, .out, .free] fun u =>
      ∃ hold, u.out = [.chain .down 0x61 s.lnk.down.txSeq [hold, (s.begin t).chainNow, s.rdWide 0xB007 2]] := by
  have hd : ((s.begin t).heard hdr).draw.2.lnk.joined = s.lnk.joined := State.heard_joined _ _
  have hu : ((s.begin t).heard hdr).draw.2.portUp .down = true := (State.heard_portUp (s.begin t) hdr .down).trans hp
  refine ⟨_, exec_probe_down hr hs, (((Only.heard _ _).mono (by decide)).trans ((Only.draw _).mono (by decide))).trans
    ((Only.sendChain _ _ _ _).mono (by decide)), ((s.begin t).heard hdr).draw.1, ?_⟩
  rw [State.sendChain_sent hu (.inr (hm.imp id fun h => hd.trans h))]
  have hq : (((s.begin t).heard hdr).draw.2.neigh .down).txSeq = s.lnk.down.txSeq := State.heard_txSeq (s.begin t) hdr .down
  rw [hq]
  rfl

theorem probe_unanswered (hs : hdr.side = .down) (hh : s.isHead = false) (hj : s.lnk.joined = false) :
    Completes (.probe t hdr) t s [.lnk, .free] fun _ => True := by
  have he := exec_probe_down hr hs
  have hd : ((s.begin t).heard hdr).draw.2.lnk.joined = false := (State.heard_joined (s.begin t) hdr).trans hj
  rw [State.sendChain_alone (s := ((s.begin t).heard hdr).draw.2) hh hd] at he
  exact ⟨_, he, ((Only.heard _ _).mono (by decide)).trans ((Only.draw _).mono (by decide)), trivial⟩

end

/-! ### ECHO -/

/-- The delay of the hop in ticks that an ECHO shows (R431). -/
def State.hopDelay (s : State) (hold rtt : Nat) : Int := ((rtt : Int) - hold + s.rdZ F.LNK_HOPASYM_ASYM) / 2

/-- The mean of hop delays, rounded half up (R431; log entry 107). -/
def hopMean (hops : List Int) : Int := (2 * hops.sum + hops.length) / (2 * hops.length)

/-- What an ECHO leaves of the hop's delays, and the time error against the head (R431, R432). -/
def State.echoed (s : State) (hops : List Int) (ofs e : Int) : State :=
  (((s.modLnk fun l => { l with hops := hops, upOfs := ofs }).wrZ F.LNK_HOPD_D (hopMean hops)).wrWide 0xB007 2
    (unsigned 40 (ofs + hopMean hops))).modTbu fun b => { b with chainE := some e }

theorem unsigned_lt (w : Nat) (z : Int) : unsigned w z < 2 ^ w := by
  have hp : (0 : Int) < 2 ^ w := Int.pow_pos (by decide)
  have := Int.emod_lt_of_pos z hp
  rw [unsigned, Int.toNat_lt (Int.emod_nonneg z (ne_of_gt hp))]
  exact_mod_cast this

theorem State.echoed_spec (s : State) (hops : List Int) (ofs e : Int) :
    let u := s.echoed hops ofs e
    Only [.regs, .lnk, .tbu] s u ∧ (∀ a, a ∉ [F.LNK_HOPD_D.addr, 0xB007, 0xB008] → u.word a = s.word a) ∧
    u.lnk = { s.lnk with hops := hops, upOfs := ofs } ∧ u.tbu = { s.tbu with chainE := some e } ∧
    u.rd F.LNK_HOPD_D = unsigned 20 (hopMean hops) ∧ u.rdWide 0xB007 2 = unsigned 40 (ofs + hopMean hops) := by
  refine ⟨?_, fun a ha => ?_, ?_, ?_, ?_, ?_⟩
  · exact ((((Only.modLnk _ _).mono (by decide)).trans ((Only.wrZ _ _ _).mono (by decide))).trans
      ((Only.wrWide _ _ _ _).mono (by decide))).trans ((Only.modTbu _ _).mono (by decide))
  · simp only [List.mem_cons, List.not_mem_nil, or_false, not_or] at ha
    rw [State.echoed, modTbu_word, State.wrWide_word _ _ _ _ (by omega), word_wrZ_ne _ _ _ _ ha.1, modLnk_word]
  · simp [State.echoed]
  · simp [State.echoed]
  · rw [State.echoed, modTbu_rd, State.rd_of_word (State.wrWide_word _ _ _ _ (by decide)), State.wrZ,
      rd_wr _ _ _ (by decide) (by decide)]
    exact Nat.mod_eq_of_lt (unsigned_lt 20 _)
  · rw [State.echoed, State.rdWide_of_words fun i _ => modTbu_word _ _ _]
    exact State.rdWide_wrWide_two _ _ (unsigned_lt 40 _)

theorem Only.timeLoop (s : State) (e : Int) : Only [.regs, .free] s (s.timeLoop e) :=
  ⟨by simp, by simp, fun p hp => by cases p <;> simp_all [Part.same]⟩

/-- The time loop writes the time error and, unless the correction is frozen, the correction (R451). -/
theorem State.timeLoop_word (s : State) (e : Int) {a : Nat} (h : a ≠ F.TBU_TERR_E.addr)
    (hf : a ≠ F.TBU_FOFS_FOFS.addr ∨ s.tbu.slewing = true ∨ s.tbu.tsLost = true) : (s.timeLoop e).word a = s.word a := by
  have hn : (s.noteErr e).word a = s.word a := by rw [State.noteErr, word_wrZ_ne _ _ _ _ h]
  have ht : (s.noteErr e).tbu = s.tbu := by simp
  unfold State.timeLoop
  generalize s.noteErr e = v at hn ht
  dsimp only
  split
  · exact hn
  next hc =>
    rw [ht, Bool.or_eq_true] at hc
    rw [word_wrZ_ne _ _ _ _ (hf.resolve_right hc), State.word_of_regs ((Only.draw _).2.2 .regs (by decide)), hn]

section
variable {hold rtt head : Nat} {ofs : Int} (hr : (s.begin t).rxChain hdr = (true, (s.begin t).heard hdr))
include hr

theorem exec_echo_idle (h : hdr.side = .down ∨ s.isHead = true) :
    exec (.echo t hdr hold rtt head ofs) s = .next ((s.begin t).heard hdr) := by
  have hh : ((s.begin t).heard hdr).isHead = s.isHead := rfl
  have hc : (hdr.side != .up || ((s.begin t).heard hdr).isHead) = true := by
    rw [hh, Bool.or_eq_true, bne_iff_ne]
    exact h.imp (fun h => by rw [h]; decide) id
  simp only [exec, execEcho, hr, hc, if_true]

theorem exec_echo (hs : hdr.side = .up) (hh : s.isHead = false) :
    exec (.echo t hdr hold rtt head ofs) s =
      let v := ((s.begin t).heard hdr).echoed ((s.hopDelay hold rtt :: ((s.begin t).heard hdr).lnk.hops).take 64) ofs
        ((head : Int) + s.hopDelay hold rtt - 256 * (s.begin t).now)
      if !((s.begin t).heard hdr).lnk.joined then .next v
      else if s.tbu.rejoin then .next (v.takeChainTime ((head : Int) + s.hopDelay hold rtt - 256 * (s.begin t).now))
      else .next (v.timeLoop ((head : Int) + s.hopDelay hold rtt - 256 * (s.begin t).now)) := by
  have hc : (hdr.side != .up || ((s.begin t).heard hdr).isHead) = false := by
    have hh' : ((s.begin t).heard hdr).isHead = false := hh
    rw [hh', hs]
    rfl
  simp only [exec]
  unfold execEcho
  simp only [hr]
  rw [if_neg (by rw [hc]; decide)]
  rfl

theorem echo_unjoined (hs : hdr.side = .up) (hh : s.isHead = false) (hj : s.lnk.joined = false) :
    let hops := (s.hopDelay hold rtt :: s.lnk.hops).take 64
    CompletesAt (.echo t hdr hold rtt head ofs) t s [.lnk, .tbu] [F.LNK_HOPD_D.addr, 0xB007, 0xB008] fun u =>
      u.lnk.hops = hops ∧ u.lnk.upOfs = ofs ∧ u.rd F.LNK_HOPD_D = unsigned 20 (hopMean hops) ∧
      u.rdWide 0xB007 2 = unsigned 40 (ofs + hopMean hops) ∧
      u.tbu = { s.tbu with chainE := some ((head : Int) + s.hopDelay hold rtt - 256 * (s.begin t).now) } := by
  have he := exec_echo (hold := hold) (rtt := rtt) (head := head) (ofs := ofs) hr hs hh
  dsimp only at he
  rw [State.heard_joined, State.heard_hops, begin_lnk, hj, if_pos (by decide)] at he
  obtain ⟨ho, hw, hl, htb, hd, hm⟩ := ((s.begin t).heard hdr).echoed_spec ((s.hopDelay hold rtt :: s.lnk.hops).take 64) ofs
    ((head : Int) + s.hopDelay hold rtt - 256 * (s.begin t).now)
  exact ⟨_, he, ((Only.heard _ _).mono (by decide)).trans ho, hw, congrArg Lnk.hops hl, congrArg Lnk.upOfs hl, hd, hm, htb⟩

theorem echo_joined (hs : hdr.side = .up) (hh : s.isHead = false) (hj : s.lnk.joined = true) (hrj : s.tbu.rejoin = false) :
    CompletesAt (.echo t hdr hold rtt head ofs) t s [.lnk, .tbu, .free]
      [F.LNK_HOPD_D.addr, 0xB007, 0xB008, F.TBU_TERR_E.addr, F.TBU_FOFS_FOFS.addr] fun u =>
      u.lnk.upOfs = ofs ∧ (s.tbu.slewing = true ∨ s.tbu.tsLost = true → u.rd F.TBU_FOFS_FOFS = s.rd F.TBU_FOFS_FOFS) := by
  have he := exec_echo (hold := hold) (rtt := rtt) (head := head) (ofs := ofs) hr hs hh
  dsimp only at he
  rw [State.heard_joined, State.heard_hops, begin_lnk, hj, hrj, if_neg (by decide), if_neg (by decide)] at he
  generalize (head : Int) + s.hopDelay hold rtt - 256 * (s.begin t).now = e at he
  obtain ⟨ho, hw, hl, htb, -, -⟩ := ((s.begin t).heard hdr).echoed_spec ((s.hopDelay hold rtt :: s.lnk.hops).take 64) ofs e
  generalize ((s.begin t).heard hdr).echoed ((s.hopDelay hold rtt :: s.lnk.hops).take 64) ofs e = v at he ho hw hl htb
  refine ⟨_, he, (((Only.heard _ _).mono (by decide)).trans (ho.mono (by decide))).trans ((Only.timeLoop _ _).mono (by decide)),
    fun a ha => ?_, ?_, fun h => ?_⟩
  · simp only [List.mem_cons, List.not_mem_nil, or_false, not_or] at ha
    obtain ⟨h1, h2, h3, h4, h5⟩ := ha
    rw [State.timeLoop_word _ _ h4 (.inl h5)]
    exact hw a (by simp [h1, h2, h3])
  · exact (congrArg Lnk.upOfs ((Only.timeLoop v e).2.2 .lnk (by decide))).trans (congrArg Lnk.upOfs hl)
  · refine State.rd_of_word ((State.timeLoop_word _ _ (by decide) (.inr ?_)).trans (hw _ (by decide)))
    rw [htb]
    exact h

end

end Sys2Proof.Machine

namespace Sys2Proof.Machine

variable {s u : State} {t : Nat} {hdr : ChainHdr}

/-! ### TIMESET -/

/-- What a joined device forwards downstream. -/
theorem State.forwarded_out (s : State) (hdr : ChainHdr) (hj : s.lnk.joined = true) (typ : Nat) (p : List Nat) :
    (s.portUp .down = false → ((s.heard hdr).sendChain .down typ p).out = s.out) ∧
    (s.portUp .down = true →
      ((s.heard hdr).sendChain .down typ p).out = s.out ++ [.chain .down typ s.lnk.down.txSeq p]) := by
  have ho : (s.heard hdr).out = s.out := rfl
  have hq : ((s.heard hdr).neigh .down).txSeq = s.lnk.down.txSeq := State.heard_txSeq s hdr .down
  refine ⟨fun h => ?_, fun h => ?_⟩
  · rw [State.sendChain_portDown (by rw [State.heard_portUp]; exact h), ho]
  · rw [State.sendChain_sent (by rw [State.heard_portUp]; exact h) (.inr (.inr ((State.heard_joined s hdr).trans hj))),
      State.send_out, hq]
    rfl

theorem Only.applySnap (s : State) (x : Snap) :
    Only [.tofs, .regs, .mgmt, .seq, .stu, .saf, .cap, .fso, .lnk, .tbu, .out] s (s.applySnap x) :=
  ⟨by simp, by simp, fun p hp => by cases p <;> simp_all [Part.same]⟩

/-- What a snap has done as its event is raised: the step, the mark on the next frame, the tolerance for press telegrams. -/
def State.snapped (s : State) (x : Snap) : State :=
  let v := (s.stepTime x.delta).modTbu fun b =>
    { b with chainE := if x.origin == s.lnk.pos then b.chainE else b.chainE.map (· + 256 * x.delta) }
  let v := (v.modFso fun f => { f with timejump := true }).modSaf fun w =>
    { w with snapD := x.delta, snapTo := v.clk + 10000000 }
  ((v.wrWide 0x100D 3 x.time).wrWide 0x1010 2 (unsigned 40 x.delta)).inc F.TBU_SNAPCNT_COUNT

theorem State.applySnap_eq (s : State) (x : Snap) :
    s.applySnap x =
      (if x.origin == s.lnk.pos && s.tbu.err != 0 && !s.tbu.slewing
        then ((s.snapped x).raise 0x2B .warn 0).slewOff ((s.snapped x).raise 0x2B .warn 0).tbu.err
        else (s.snapped x).raise 0x2B .warn 0).judgeNext := rfl

theorem State.raise_snapD (s : State) (code : Nat) (cls : EvClass) (arg : Nat) :
    (s.raise code cls arg).saf.snapD = s.saf.snapD :=
  congrArg (fun x => x.2.2.snapD) (s.raise_still code cls arg)

theorem State.snapped_spec (s : State) (x : Snap) :
    (s.snapped x).tofs = s.tofs + x.delta ∧ (s.snapped x).fso.timejump = true ∧ (s.snapped x).saf.snapD = x.delta := by
  simp [State.snapped, State.stepTime]

/-- A snap steps device time, marks the next frame and lets press telegrams off by the step (R453, R454). -/
theorem State.applySnap_spec (s : State) (x : Snap) :
    (s.applySnap x).tofs = s.tofs + x.delta ∧ (s.applySnap x).fso.timejump = true ∧ (s.applySnap x).saf.snapD = x.delta := by
  obtain ⟨ht, hf, hd⟩ := s.snapped_spec x
  have hr := (s.snapped x).raise_snapD 0x2B .warn 0
  rw [State.applySnap_eq]
  generalize s.snapped x = v at ht hf hd hr
  have hv : (v.raise 0x2B .warn 0).tofs = v.tofs ∧ (v.raise 0x2B .warn 0).fso = v.fso := by simp
  generalize v.raise 0x2B .warn 0 = w at hr hv
  have hj : ∀ y : State, y.judgeNext.tofs = y.tofs ∧ y.judgeNext.fso = y.fso ∧ y.judgeNext.saf = y.saf := fun y => by simp
  have hs : ∀ e, (w.slewOff e).tofs = w.tofs ∧ (w.slewOff e).fso = w.fso ∧ (w.slewOff e).saf = w.saf := fun e => by simp
  obtain ⟨hj1, hj2, hj3⟩ := hj (if x.origin == s.lnk.pos && s.tbu.err != 0 && !s.tbu.slewing then w.slewOff w.tbu.err else w)
  rw [hj1, hj2, hj3]
  split
  · obtain ⟨hs1, hs2, hs3⟩ := hs w.tbu.err
    rw [hs1, hs2, hs3, hv.1, hv.2, hr]
    exact ⟨ht, hf, hd⟩
  · rw [hv.1, hv.2, hr]
    exact ⟨ht, hf, hd⟩

/-- The words of a TIMESET message (R435). -/
def snapWords (at0 : Nat) (delta : Int) (origin : Nat) : List Nat :=
  (wordsOf at0 3 ++ wordsOf (unsigned 40 delta) 2).map BitVec.toNat ++ [origin * 2 ^ 15]

section
variable {at0 : Nat} {delta : Int} {origin : Nat} (hr : (s.begin t).rxChain hdr = (true, (s.begin t).heard hdr))
include hr

theorem exec_timeset_idle (h : hdr.side = .down ∨ s.lnk.joined = false ∨ s.isHead = true) :
    exec (.timeset t hdr at0 delta origin) s = .next ((s.begin t).heard hdr) := by
  have hh : ((s.begin t).heard hdr).isHead = s.isHead := rfl
  have hc : (hdr.side != .up || !((s.begin t).heard hdr).lnk.joined || ((s.begin t).heard hdr).isHead) = true := by
    rw [hh, State.heard_joined, Bool.or_eq_true, Bool.or_eq_true, bne_iff_ne, Bool.not_eq_true', or_assoc]
    exact h.imp (fun h => by rw [h]; decide) id
  simp only [exec, execTimeset, hr, hc, if_true]

variable (hs : hdr.side = .up) (hj : s.lnk.joined = true) (hh : s.isHead = false)
include hs hj hh

theorem exec_timeset : exec (.timeset t hdr at0 delta origin) s =
    let v := ((s.begin t).heard hdr).sendChain .down 0x66 (snapWords at0 delta origin)
    if Nat.blt at0 v.now then .next ((v.applySnap ⟨at0, delta, origin⟩).raise 0x45 .warn 8)
    else .next (((v.wrWide 0x100D 3 at0).wrWide 0x1010 2 (unsigned 40 delta)).modTbu fun b =>
      { b with snaps := b.snaps ++ [⟨at0, delta, origin⟩] }) := by
  have hh' : ((s.begin t).heard hdr).isHead = false := hh
  have hc : (hdr.side != .up || !((s.begin t).heard hdr).lnk.joined || ((s.begin t).heard hdr).isHead) = false := by
    rw [hh', State.heard_joined, begin_lnk, hj, hs]
    rfl
  simp only [exec]
  unfold execTimeset
  simp only [hr]
  rw [if_neg (by rw [hc]; decide)]
  rfl

/-- A snap in time is forwarded and pending (R453). -/
theorem timeset_pends (ht : (s.begin t).now ≤ at0) :
    CompletesAt (.timeset t hdr at0 delta origin) t s [.lnk, .tbu, .out] [0x100D, 0x100E, 0x100F, 0x1010, 0x1011] fun u =>
      u.tbu.snaps = s.tbu.snaps ++ [{ time := at0, delta := delta, origin := origin }] ∧
      u.rdWide 0x100D 3 = at0 % 2 ^ 60 ∧ u.rdWide 0x1010 2 = unsigned 40 delta ∧
      (s.portUp .down = false → u.out = []) ∧
      (s.portUp .down = true → u.out = [.chain .down 0x66 s.lnk.down.txSeq (snapWords at0 delta origin)]) := by
  have he := exec_timeset (at0 := at0) (delta := delta) (origin := origin) hr hs hj hh
  have ho : Only [.lnk, .out] (s.begin t) (((s.begin t).heard hdr).sendChain .down 0x66 (snapWords at0 delta origin)) :=
    ((Only.heard _ _).mono (by decide)).trans (Only.sendChain _ _ _ _)
  obtain ⟨hout0, hout1⟩ := (s.begin t).forwarded_out hdr hj 0x66 (snapWords at0 delta origin)
  dsimp only at he
  generalize ((s.begin t).heard hdr).sendChain .down 0x66 (snapWords at0 delta origin) = v at he ho hout0 hout1
  have hn : v.now = (s.begin t).now := now_of ho.1 (ho.2.2 .tofs (by decide))
  rw [if_neg (by rw [hn, Nat.blt_eq]; exact Nat.not_lt.mpr ht)] at he
  have hw : ∀ a, v.word a = s.word a := State.word_of_regs (ho.2.2 .regs (by decide))
  refine ⟨_, he, ((ho.mono (by decide)).trans ((Only.wrWide _ _ _ _).mono (by decide))).trans
    ((Only.wrWide _ _ _ _).mono (by decide)) |>.trans ((Only.modTbu _ _).mono (by decide)), fun a ha => ?_, ?_, ?_, ?_, ?_, ?_⟩
  · simp only [List.mem_cons, List.not_mem_nil, or_false, not_or] at ha
    rw [modTbu_word, State.wrWide_word _ _ _ _ (by omega), State.wrWide_word _ _ _ _ (by omega), hw]
  · have hb : v.tbu = s.tbu := ho.2.2 .tbu (by decide)
    simp [hb]
  · rw [State.rdWide_of_words fun i _ => modTbu_word _ _ _, State.rdWide_of_words fun i hi => State.wrWide_word _ _ _ _ (by omega)]
    exact State.rdWide_wrWide _ _ _ _
  · rw [State.rdWide_of_words fun i _ => modTbu_word _ _ _]
    exact State.rdWide_wrWide_two _ _ (unsigned_lt 40 _)
  · intro hp
    simpa using hout0 hp
  · intro hp
    simpa using hout1 hp

/-- A snap that comes late is applied at once (R453). -/
theorem timeset_late (ht : at0 < (s.begin t).now) :
    Completes (.timeset t hdr at0 delta origin) t s [.tofs, .regs, .mgmt, .seq, .stu, .saf, .cap, .fso, .lnk, .tbu, .out] fun u =>
      u.tofs = s.tofs + delta ∧ u.fso.timejump = true ∧ u.saf.snapD = delta := by
  have he := exec_timeset (at0 := at0) (delta := delta) (origin := origin) hr hs hj hh
  have ho : Only [.lnk, .out] (s.begin t) (((s.begin t).heard hdr).sendChain .down 0x66 (snapWords at0 delta origin)) :=
    ((Only.heard _ _).mono (by decide)).trans (Only.sendChain _ _ _ _)
  dsimp only at he
  generalize ((s.begin t).heard hdr).sendChain .down 0x66 (snapWords at0 delta origin) = v at he ho
  have hn : v.now = (s.begin t).now := now_of ho.1 (ho.2.2 .tofs (by decide))
  rw [if_pos (by rw [hn, Nat.blt_eq]; exact ht)] at he
  obtain ⟨h1, h2, h3⟩ := v.applySnap_spec ⟨at0, delta, origin⟩
  have hs := (v.applySnap ⟨at0, delta, origin⟩).raise_snapD 0x45 .warn 8
  refine ⟨_, he, ((ho.mono (by decide)).trans (Only.applySnap _ _)).trans ((Only.raise _ _ _ _).mono (by decide)), ?_, ?_, hs.trans h3⟩
  · have hk := (Only.raise (v.applySnap ⟨at0, delta, origin⟩) 0x45 .warn 8).2.2 .tofs (by decide)
    have hv : v.tofs = s.tofs := ho.2.2 .tofs (by decide)
    rw [← hv]
    exact hk.trans h1
  · exact (congrArg Fso.timejump ((Only.raise (v.applySnap ⟨at0, delta, origin⟩) 0x45 .warn 8).2.2 .fso (by decide))).trans h2

end

end Sys2Proof.Machine

namespace Sys2Proof.Machine

variable {s u : State} {t : Nat} {hdr : ChainHdr}

/-! ### Events keep what has been sent -/

theorem State.eventTo_sent (s : State) (e : EvEntry) (n : Nat) {x : Out} (h : x ∈ s.out) : x ∈ (s.eventTo e n).out := by
  unfold State.eventTo
  dsimp only
  split
  · split
    · exact List.mem_append_left _ h
    · split
      · exact h
      · have ho : ((s.setPtn n { s.ptn n with evq := (s.ptn n).evq.drop 1 ++ [e] }).inc F.LNK_EVLOST_COUNT).out = s.out := by simp
        rw [ho]
        exact h
  · exact h

theorem State.raise_sent (s : State) (code : Nat) (cls : EvClass) (arg : Nat) {x : Out} (h : x ∈ s.out) :
    x ∈ (s.raise code cls arg).out := by
  have hd : ∀ (v : State) (e : EvEntry), (v.noteDcode e).out = v.out := fun v e => by simp
  have hq : ∀ (v : State) (e : EvEntry), (v.queueEv e).out = v.out := fun v e => by simp
  have hf : ∀ (e : EvEntry) (l : List Nat) (v : State), x ∈ v.out → x ∈ (l.foldl (fun s n => s.eventTo e n) v).out := by
    intro e l
    induction l with
    | nil => exact fun v hv => hv
    | cons n l ih => exact fun v hv => ih _ (State.eventTo_sent v e n hv)
  unfold State.raise
  dsimp only
  rw [hd]
  refine hf _ _ _ ?_
  split
  · rw [hq]
    exact h
  · exact h

/-! ### Battens that a neighbour forwards -/

/-- A page is entered at the entry, or at entry 0 where it lacks it (R72). -/
theorem State.enter_spec (s : State) (b : Bool) (n : Nat) :
    (s.enter b n).seq = { s.seq with actB := b, next := if n < (s.seq.pageOf b).count then n else 0 } ∧
    ∀ a, a ≠ F.CTL_SEQ_STATUS_BADENT.addr → (s.enter b n).word a = s.word a := by
  by_cases h : n < (s.seq.pageOf b).count
  · rw [State.enter_of_lt h, if_pos h]
    exact ⟨rfl, fun a _ => modSeq_word _ _ _⟩
  · rw [State.enter_of_le (Nat.not_lt.mp h), if_neg h]
    refine ⟨?_, fun a ha => ?_⟩
    · have hp : (s.put F.CTL_SEQ_STATUS_BADENT true).seq = s.seq := by simp
      rw [State.modSeq_seq, hp]
    · rw [modSeq_word, word_put_ne _ _ _ _ ha]

/-- A Batten of the active page jumps in it, whichever entry it names. -/
theorem State.battenSwitch_jump {x : Batten} (hp : x.pgB = s.seq.actB) (tt : Nat) :
    Only [.regs, .seq] s (s.battenSwitch x tt) ∧
    (s.battenSwitch x tt).seq = { s.seq with
      st := .run, syncHit := none, cursor := tt, next := if x.arg < s.seq.active.count then x.arg else 0 } ∧
    ∀ a, a ≠ F.CTL_SEQ_STATUS_BADENT.addr → (s.battenSwitch x tt).word a = s.word a := by
  have hs : s.battenSwitch x tt = ((s.modSeq fun q => { q with st := .run, syncHit := none }).enter x.pgB x.arg).modSeq fun q =>
      { q with cursor := tt } := by
    unfold State.battenSwitch
    dsimp only
    rw [if_neg (by simp [hp]), State.switchTo_same (by simpa using hp)]
  obtain ⟨hq, hw⟩ := (s.modSeq fun q => { q with st := .run, syncHit := none }).enter_spec x.pgB x.arg
  rw [hs]
  refine ⟨(((Only.modSeq _ _).mono (by decide)).trans (Only.enter _ _ _)).trans ((Only.modSeq _ _).mono (by decide)), ?_,
    fun a ha => by rw [modSeq_word, hw a ha, modSeq_word]⟩
  rw [State.modSeq_seq, hq, hp]
  rfl

/-- A Batten of the other page switches to it, whichever entry it names. -/
theorem State.battenSwitch_across {x : Batten} (hp : x.pgB ≠ s.seq.actB) (hl : s.seq.loading ≠ some x.pgB) (tt : Nat) :
    Only winParts s (s.battenSwitch x tt) ∧
    ∃ ms, (s.battenSwitch x tt).seq = { s.seq with
      st := .run, syncHit := none, marks := ms, deferred := none, actB := x.pgB, cursor := tt,
      next := if x.arg < (s.seq.pageOf x.pgB).count then x.arg else 0 } := by
  have hs : s.battenSwitch x tt = ((((s.modSeq fun q => { q with st := .run, syncHit := none }).otherPage 2).modSeq fun q =>
      { q with deferred := none }).enter x.pgB x.arg).modSeq fun q => { q with cursor := tt } := by
    unfold State.battenSwitch State.switchTo
    dsimp only
    rw [if_neg (by simp [hl]), if_pos (by simpa using hp)]
  obtain ⟨ms, hm⟩ := (s.modSeq fun q => { q with st := .run, syncHit := none }).otherPage_seq 2
  rw [hs]
  refine ⟨(((((Only.modSeq _ _).mono (by decide)).trans (Only.otherPage _ _)).trans ((Only.modSeq _ _).mono (by decide))).trans
    ((Only.enter _ _ _).mono (by decide))).trans ((Only.modSeq _ _).mono (by decide)), ms, ?_⟩
  rw [State.modSeq_seq, (State.enter_spec _ _ _).1, State.modSeq_seq, hm]
  rfl

/-- A Batten of a page that loads is deferred, from a wait in a SYNC as from a run (R67, R78). -/
theorem State.battenSwitch_waits {x : Batten} (hp : x.pgB ≠ s.seq.actB) (hl : s.seq.loading = some x.pgB) (tt : Nat) :
    s.battenSwitch x tt = (s.modSeq fun q => { q with
      st := .run, syncHit := none, deferred := some (x.pgB, x.arg, true),
      cursor := if s.seq.st = .syncwait then tt else q.cursor }).battenLate := by
  have hc : (s.seq.st == .syncwait) = decide (s.seq.st = .syncwait) := by
    rw [Bool.eq_iff_iff, beq_iff_eq, decide_eq_true_iff]
  unfold State.battenSwitch
  dsimp only
  rw [if_pos (by simp [hp, hl]), hc]
  simp only [decide_eq_true_eq]
  rfl

/-- A Batten is dropped while another is pending and while the sequencer is IDLE or HALTED (R75), late or not. -/
theorem State.batten_dropped (h : s.seq.batten.isSome = true ∨ s.seq.st = .idle ∨ s.seq.st = .halted) (x : Batten) :
    s.lateBatten x = s.battenDrop ∧ s.takeBatten x = s.battenDrop := by
  have hc : (s.seq.batten.isSome || s.seq.st == .idle || s.seq.st == .halted) = true := by
    simpa [or_assoc] using h
  exact ⟨if_pos hc, if_pos hc⟩

/-- A Batten can be taken. -/
def Seq.live (q : Seq) : Prop := (q.st = .run ∨ q.st = .syncwait) ∧ q.batten = none

theorem Seq.not_dropped {q : Seq} (h : q.live) : ¬(q.batten.isSome || q.st == .idle || q.st == .halted) = true := by
  obtain ⟨hs, hb⟩ := h
  rcases hs with hs | hs <;> simp [hs, hb]

theorem State.takeBatten_of_live (h : s.seq.live) (x : Batten) :
    s.takeBatten x = s.modSeq fun q => { q with batten := some x } := if_neg (Seq.not_dropped h)

theorem State.lateBatten_sync (h : s.seq.live) {x : Batten} (hs : x.sync = true) :
    s.lateBatten x = ((s.battenTime x.te).modSeq fun q => q.synced 4 x.arg (s.battenTime x.te).now).battenLate := by
  rw [State.lateBatten, if_neg (Seq.not_dropped h)]
  dsimp only
  rw [if_pos hs, State.syncSource_eq _ _ _ (by decide)]

theorem State.lateBatten_switch (h : s.seq.live) {x : Batten} (hs : x.sync = false)
    (hw : ¬(x.pgB ≠ s.seq.actB ∧ s.seq.loading = some x.pgB)) :
    s.lateBatten x = ((s.battenTime x.te).battenSwitch x (s.battenTime x.te).now).battenLate := by
  have hq : (s.battenTime x.te).seq = s.seq := by simp [State.battenTime]
  rw [State.lateBatten, if_neg (Seq.not_dropped h)]
  dsimp only
  rw [hs, if_neg (by decide), hq, if_neg (by simpa using hw)]

theorem State.lateBatten_waits (h : s.seq.live) {x : Batten} (hs : x.sync = false) (hp : x.pgB ≠ s.seq.actB)
    (hl : s.seq.loading = some x.pgB) :
    s.lateBatten x = (s.battenTime x.te).battenSwitch x (s.battenTime x.te).now := by
  have hq : (s.battenTime x.te).seq = s.seq := by simp [State.battenTime]
  rw [State.lateBatten, if_neg (Seq.not_dropped h)]
  dsimp only
  rw [hs, if_neg (by decide), hq, if_pos (by simp [hp, hl])]

/-- CTL_BATTEN_TIME alone holds Te (R89). -/
theorem State.battenTime_spec (s : State) (te : Nat) :
    Only [.regs] s (s.battenTime te) ∧ (s.battenTime te).seq = s.seq ∧ (s.battenTime te).now = s.now ∧
    (s.battenTime te).rdWide 0x0110 3 = te % 2 ^ 60 ∧
    ∀ a, a ∉ [0x0110, 0x0111, 0x0112] → (s.battenTime te).word a = s.word a := by
  have ho : Only [.regs] s (s.battenTime te) := Only.wrWide _ _ _ _
  refine ⟨ho, ho.2.2 .seq (by decide), now_of ho.1 (ho.2.2 .tofs (by decide)), State.rdWide_wrWide _ _ _ _, fun a ha => ?_⟩
  simp only [List.mem_cons, List.not_mem_nil, or_false] at ha
  exact State.wrWide_word _ _ _ _ (by omega)

/-- The words that a late Batten may write before it is told. -/
def battenWords : List Nat := [0x0110, 0x0111, 0x0112, F.CTL_SEQ_STATUS_BADENT.addr]

/-- BATTEN_LATE (R75): told, with nothing of the schedule or of CTL_BATTEN_TIME changed, and nothing unsent. -/
theorem State.battenLate_spec {b v : State} {te : Nat} (ho : Only [.regs, .seq, .lnk, .out] b v)
    (hw : ∀ a, a ∉ battenWords → v.word a = b.word a) (hte : v.rdWide 0x0110 3 = te % 2 ^ 60) :
    Only (.lnk :: .regs :: .seq :: evParts) b v.battenLate ∧ v.battenLate.seq = v.seq ∧
    (v.battenLate.rdWide 0x0110 3 = te % 2 ^ 60 ∧ b.told v.battenLate 0x07 .warn 0) ∧ ∀ x ∈ v.out, x ∈ v.battenLate.out := by
  refine ⟨ho.comp (Only.raise _ _ _ _) (by decide) (by decide), State.raise_seq _ _ _ _, ⟨?_, ?_⟩, fun x hx => State.raise_sent _ _ _ _ hx⟩
  · rw [← hte]
    exact State.rdWide_of_words fun i hi => State.raise_word _ _ _ _ (by
      simp only [evWords, F.CTL_EVLOST_COUNT, F.LNK_EVLOST_COUNT, List.mem_cons, List.not_mem_nil, or_false]; omega)
  · exact State.told_of (State.raise_told _ _ _ _) (congrArg Mgmt.evq (ho.2.2 .mgmt (by decide)))
      (State.queues_of_word (hw _ (by decide)) _) (now_of ho.1 (ho.2.2 .tofs (by decide)))

end Sys2Proof.Machine

namespace Sys2Proof.Machine

variable {s u : State} {t : Nat} {hdr : ChainHdr}

section
variable {x : Batten} (hr : (s.begin t).rxChain hdr = (true, (s.begin t).heard hdr))
include hr

theorem exec_batten_idle (h : hdr.side = .down ∨ s.lnk.joined = false ∨ s.isHead = true) :
    exec (.batten t hdr x.sync x.pgB x.arg x.te) s = .next ((s.begin t).heard hdr) := by
  have hh : ((s.begin t).heard hdr).isHead = s.isHead := rfl
  have hc : (hdr.side != .up || !((s.begin t).heard hdr).lnk.joined || ((s.begin t).heard hdr).isHead) = true := by
    rw [hh, State.heard_joined, Bool.or_eq_true, Bool.or_eq_true, bne_iff_ne, Bool.not_eq_true', or_assoc]
    exact h.imp (fun h => by rw [h]; decide) id
  simp only [exec, execBatten, hr, hc, if_true]

variable (hs : hdr.side = .up) (hj : s.lnk.joined = true) (hh : s.isHead = false)
include hs hj hh

/-- A Batten from upstream is forwarded, and taken by its Te (R73, R75). -/
theorem exec_batten : exec (.batten t hdr x.sync x.pgB x.arg x.te) s =
    .next (let v := ((s.begin t).heard hdr).sendChain .down 0x63 x.payload
      if Nat.blt x.te v.now then v.lateBatten x else v.takeBatten x) := by
  have hh' : ((s.begin t).heard hdr).isHead = false := hh
  have hc : (hdr.side != .up || !((s.begin t).heard hdr).lnk.joined || ((s.begin t).heard hdr).isHead) = false := by
    rw [hh', State.heard_joined, begin_lnk, hj, hs]
    rfl
  simp only [exec]
  unfold execBatten
  simp only [hr]
  rw [if_neg (by rw [hc]; decide)]

/-- The state from which a forwarded Batten is taken: nothing but the link has changed, and the Batten is on its way. -/
theorem exec_batten_from : ∃ v, Only [.lnk, .out] (s.begin t) v ∧
    (s.portUp .down = true → Out.chain .down 0x63 s.lnk.down.txSeq x.payload ∈ v.out) ∧
    (x.te < (s.begin t).now → exec (.batten t hdr x.sync x.pgB x.arg x.te) s = .next (v.lateBatten x)) ∧
    ((s.begin t).now ≤ x.te → exec (.batten t hdr x.sync x.pgB x.arg x.te) s = .next (v.takeBatten x)) := by
  have he := exec_batten (x := x) hr hs hj hh
  have ho : Only [.lnk, .out] (s.begin t) (((s.begin t).heard hdr).sendChain .down 0x63 x.payload) :=
    ((Only.heard _ _).mono (by decide)).trans (Only.sendChain _ _ _ _)
  have hout := ((s.begin t).forwarded_out hdr hj 0x63 x.payload).2
  generalize ((s.begin t).heard hdr).sendChain .down 0x63 x.payload = v at he ho hout
  have hn : v.now = (s.begin t).now := now_of ho.1 (ho.2.2 .tofs (by decide))
  dsimp only at he
  refine ⟨v, ho, fun hp => ?_, fun hl => ?_, fun hl => ?_⟩
  · rw [hout hp]
    exact List.mem_append_right _ (List.mem_singleton.mpr rfl)
  · rw [he, if_pos (by rw [hn, Nat.blt_eq]; exact hl)]
  · rw [he, if_neg (by rw [hn, Nat.blt_eq]; exact Nat.not_lt.mpr hl)]

theorem batten_pends (h : s.seq.live) (ht : (s.begin t).now ≤ x.te) :
    Completes (.batten t hdr x.sync x.pgB x.arg x.te) t s [.lnk, .seq, .out] fun u =>
      (s.portUp .down = true → Out.chain .down 0x63 s.lnk.down.txSeq x.payload ∈ u.out) ∧
      u.seq = { s.seq with batten := some x } := by
  obtain ⟨v, ho, hsent, -, he⟩ := exec_batten_from (x := x) hr hs hj hh
  have hq : v.seq = s.seq := ho.2.2 .seq (by decide)
  have he := he ht
  rw [State.takeBatten_of_live (by rw [hq]; exact h)] at he
  exact ⟨_, he, (ho.mono (by decide)).trans ((Only.modSeq _ _).mono (by decide)), hsent, by rw [State.modSeq_seq, hq]⟩

theorem batten_dropped (h : s.seq.batten.isSome = true ∨ s.seq.st = .idle ∨ s.seq.st = .halted) :
    Completes (.batten t hdr x.sync x.pgB x.arg x.te) t s (.lnk :: .regs :: evParts) fun u =>
      (s.portUp .down = true → Out.chain .down 0x63 s.lnk.down.txSeq x.payload ∈ u.out) ∧ u.seq = s.seq ∧
      (s.begin t).told u 0x06 .warn 0 := by
  obtain ⟨v, ho, hsent, hl, he⟩ := exec_batten_from (x := x) hr hs hj hh
  have hq : v.seq = s.seq := ho.2.2 .seq (by decide)
  obtain ⟨hld, htd⟩ := State.batten_dropped (s := v) (by rw [hq]; exact h) x
  have hd : exec (.batten t hdr x.sync x.pgB x.arg x.te) s = .next v.battenDrop := by
    rcases Nat.lt_or_ge x.te (s.begin t).now with ht | ht
    · rw [hl ht, hld]
    · rw [he ht, htd]
  refine ⟨_, hd, (ho.mono (by decide)).trans ((Only.raise _ _ _ _).mono (by decide)), fun hp => State.raise_sent _ _ _ _ (hsent hp),
    (State.raise_seq _ _ _ _).trans hq, ?_⟩
  exact State.told_of (State.raise_told _ _ _ _) (congrArg Mgmt.evq (ho.2.2 .mgmt (by decide)))
    (State.queues_of_word (State.word_of_regs (ho.2.2 .regs (by decide)) _) _) (now_of ho.1 (ho.2.2 .tofs (by decide)))

variable (ht : x.te < (s.begin t).now)
include ht

/-- A late Batten that takes effect within the active page, or in the wait of a SYNC, is told as late. -/
theorem batten_late {f : Seq → Seq} (hl : ∀ v : State, v.seq = s.seq → v.now = (s.begin t).now → ∃ w, v.lateBatten x = w.battenLate ∧
      Only [.regs, .seq] v w ∧ (∀ a, a ∉ battenWords → w.word a = v.word a) ∧ w.rdWide 0x0110 3 = x.te % 2 ^ 60 ∧
      w.seq = f v.seq) :
    Completes (.batten t hdr x.sync x.pgB x.arg x.te) t s (.lnk :: .regs :: .seq :: evParts) fun u =>
      (s.portUp .down = true → Out.chain .down 0x63 s.lnk.down.txSeq x.payload ∈ u.out) ∧
      (u.rdWide 0x0110 3 = x.te % 2 ^ 60 ∧ (s.begin t).told u 0x07 .warn 0) ∧ u.seq = f s.seq := by
  obtain ⟨v, ho, hsent, he, -⟩ := exec_batten_from (x := x) hr hs hj hh
  have hq : v.seq = s.seq := ho.2.2 .seq (by decide)
  have hn : v.now = (s.begin t).now := now_of ho.1 (ho.2.2 .tofs (by decide))
  obtain ⟨w, hw, hwo, hww, hte, hwq⟩ := hl v hq hn
  have he := he ht
  rw [hw] at he
  obtain ⟨hbo, hbq, hlate, hbout⟩ := State.battenLate_spec (b := s.begin t) (v := w) (te := x.te)
    ((ho.mono (by decide)).trans (hwo.mono (by decide)))
    (fun a ha => (hww a ha).trans (State.word_of_regs (ho.2.2 .regs (by decide)) a)) hte
  have hout : w.out = v.out := hwo.2.2 .out (by decide)
  exact ⟨_, he, hbo, fun hp => hbout _ (by rw [hout]; exact hsent hp), hlate, by rw [hbq, hwq, hq]⟩

variable (h : s.seq.live)
include h

theorem batten_late_sync (hsy : x.sync = true) :
    Completes (.batten t hdr x.sync x.pgB x.arg x.te) t s (.lnk :: .regs :: .seq :: evParts) fun u =>
      (s.portUp .down = true → Out.chain .down 0x63 s.lnk.down.txSeq x.payload ∈ u.out) ∧
      (u.rdWide 0x0110 3 = x.te % 2 ^ 60 ∧ (s.begin t).told u 0x07 .warn 0) ∧ u.seq = s.seq.synced 4 x.arg (s.begin t).now := by
  refine batten_late hr hs hj hh ht (f := fun q => q.synced 4 x.arg (s.begin t).now) fun v hq hn => ?_
  obtain ⟨ho, hbq, hbn, hte, hw⟩ := v.battenTime_spec x.te
  have hl := State.lateBatten_sync (s := v) (by rw [hq]; exact h) hsy
  generalize v.battenTime x.te = w at ho hbq hbn hte hw hl
  refine ⟨_, hl, ho.comp (Only.modSeq _ _) (by decide) (by decide), fun a ha => ?_, hte, ?_⟩
  · rw [modSeq_word]
    exact hw a fun k => ha (List.mem_of_mem_dropLast (l := battenWords) k)
  · rw [State.modSeq_seq, hbq, hbn, hn]

theorem batten_late_jumps (hsy : x.sync = false) (hp : x.pgB = s.seq.actB) :
    Completes (.batten t hdr x.sync x.pgB x.arg x.te) t s (.lnk :: .regs :: .seq :: evParts) fun u =>
      (s.portUp .down = true → Out.chain .down 0x63 s.lnk.down.txSeq x.payload ∈ u.out) ∧
      (u.rdWide 0x0110 3 = x.te % 2 ^ 60 ∧ (s.begin t).told u 0x07 .warn 0) ∧
      u.seq = { s.seq with st := .run, syncHit := none, cursor := (s.begin t).now,
                           next := if x.arg < s.seq.active.count then x.arg else 0 } := by
  refine batten_late hr hs hj hh ht (f := fun q => { q with
    st := .run, syncHit := none, cursor := (s.begin t).now, next := if x.arg < q.active.count then x.arg else 0 }) fun v hq hn => ?_
  obtain ⟨ho, hbq, hbn, hte, hw⟩ := v.battenTime_spec x.te
  have hl := State.lateBatten_switch (s := v) (by rw [hq]; exact h) hsy (fun k => k.1 (by rw [hq]; exact hp))
  generalize v.battenTime x.te = w at ho hbq hbn hte hw hl
  obtain ⟨hso, hsq, hsw⟩ := State.battenSwitch_jump (s := w) (x := x) (by rw [hbq, hq]; exact hp) w.now
  refine ⟨_, hl, (ho.mono (by decide)).trans hso, fun a ha => ?_, ?_, ?_⟩
  · rw [hsw a fun k => ha (by rw [k]; decide)]
    exact hw a fun k => ha (List.mem_of_mem_dropLast (l := battenWords) k)
  · rw [← hte]
    exact State.rdWide_of_words fun i hi => hsw _ (by simp only [F.CTL_SEQ_STATUS_BADENT]; omega)
  · rw [hsq, hbq, hbn, hn]

/-- A late Batten of a page that loads is deferred (R78). -/
theorem batten_late_waits (hsy : x.sync = false) (hp : x.pgB ≠ s.seq.actB) (hlo : s.seq.loading = some x.pgB) :
    Completes (.batten t hdr x.sync x.pgB x.arg x.te) t s (.lnk :: .regs :: .seq :: evParts) fun u =>
      (s.portUp .down = true → Out.chain .down 0x63 s.lnk.down.txSeq x.payload ∈ u.out) ∧
      (u.rdWide 0x0110 3 = x.te % 2 ^ 60 ∧ (s.begin t).told u 0x07 .warn 0) ∧
      u.seq = { s.seq with st := .run, syncHit := none, deferred := some (x.pgB, x.arg, true),
                           cursor := if s.seq.st = .syncwait then (s.begin t).now else s.seq.cursor } := by
  refine batten_late hr hs hj hh ht (f := fun q => { q with
    st := .run, syncHit := none, deferred := some (x.pgB, x.arg, true),
    cursor := if s.seq.st = .syncwait then (s.begin t).now else q.cursor }) fun v hq hn => ?_
  obtain ⟨ho, hbq, hbn, hte, hw⟩ := v.battenTime_spec x.te
  have hl := State.lateBatten_waits (s := v) (by rw [hq]; exact h) hsy (by rw [hq]; exact hp) (by rw [hq]; exact hlo)
  generalize v.battenTime x.te = w at ho hbq hbn hte hw hl
  rw [State.battenSwitch_waits (by rw [hbq, hq]; exact hp) (by rw [hbq, hq]; exact hlo)] at hl
  refine ⟨_, hl, ho.comp (Only.modSeq _ _) (by decide) (by decide), fun a ha => ?_, hte, ?_⟩
  · rw [modSeq_word]
    exact hw a fun k => ha (List.mem_of_mem_dropLast (l := battenWords) k)
  · rw [State.modSeq_seq, hbq, hbn, hn, hq]

theorem batten_late_switches (hsy : x.sync = false) (hp : x.pgB ≠ s.seq.actB) (hlo : s.seq.loading ≠ some x.pgB) :
    Completes (.batten t hdr x.sync x.pgB x.arg x.te) t s [.lnk, .regs, .mgmt, .seq, .rta, .rpe, .saf, .cap, .out] fun u =>
      u.seq.st = .run ∧ u.seq.actB = x.pgB ∧ u.seq.next = (if x.arg < (s.seq.pageOf x.pgB).count then x.arg else 0) ∧
      u.seq.cursor = (s.begin t).now ∧ u.seq.batten = none := by
  obtain ⟨v, ho, -, he, -⟩ := exec_batten_from (x := x) hr hs hj hh
  have hq : v.seq = s.seq := ho.2.2 .seq (by decide)
  have hn : v.now = (s.begin t).now := now_of ho.1 (ho.2.2 .tofs (by decide))
  have he := he ht
  obtain ⟨hbo, hbq, hbn, -, -⟩ := v.battenTime_spec x.te
  rw [State.lateBatten_switch (by rw [hq]; exact h) hsy (fun k => hlo (by rw [← hq]; exact k.2))] at he
  generalize v.battenTime x.te = w at hbo hbq hbn he
  obtain ⟨hso, ms, hsq⟩ := State.battenSwitch_across (s := w) (x := x) (by rw [hbq, hq]; exact hp) (by rw [hbq, hq]; exact hlo) w.now
  refine ⟨_, he, (((ho.mono (by decide)).trans (hbo.mono (by decide))).trans (hso.mono (by decide))).trans
    ((Only.raise _ _ _ _).mono (by decide)), ?_⟩
  beta_reduce
  rw [State.battenLate, State.raise_seq, hsq, hbq, hbn, hn, hq]
  exact ⟨rfl, rfl, rfl, rfl, h.2⟩

end

end Sys2Proof.Machine

namespace Sys2Proof.Machine

variable {s u : State} {t : Nat} {hdr : ChainHdr}

/-! ### The streams of the FSO and their slots -/

theorem State.stream_setStream_same (s : State) (n : Nat) (x : Stream) : (s.setStream n x).stream n = x := by
  match n with
  | 0 | 1 | 2 | _ + 3 => rfl

theorem State.stream_setStream_ne (s : State) {n m : Nat} (x : Stream) (hn : n < 4) (hm : m < 4) (h : m ≠ n) :
    (s.setStream n x).stream m = s.stream m := by
  match n, m with
  | 0, 0 | 1, 1 | 2, 2 | 3, 3 => exact absurd rfl h
  | 0, 1 | 0, 2 | 0, 3 | 1, 0 | 1, 2 | 1, 3 | 2, 0 | 2, 1 | 2, 3 | 3, 0 | 3, 1 | 3, 2 => rfl

theorem Stream.slot_setSlot_same (x : Stream) (k : Nat) (v : FrmSlot) : (x.setSlot k v).slot k = v := by
  match k with
  | 0 | 1 | _ + 2 => rfl

/-! ### Pixels -/

theorem assoc_assocPut_keeps {α : Type} {m : List (Nat × α)} {j k : Nat} {w : α} (h : assoc m j = some w) :
    assoc (assocPut m k w) j = some w := by
  by_cases hj : j = k
  · rw [hj, assoc_assocPut_same]
  · rw [assoc_assocPut_ne m w hj, h]

theorem assoc_foldl_keeps {α β : Type} (g : β → Nat) {w : α} {j : Nat} (l : List β) : ∀ {m : List (Nat × α)}, assoc m j = some w →
    assoc (l.foldl (fun m v => assocPut m (g v) w) m) j = some w := by
  induction l with
  | nil => exact fun h => h
  | cons v l ih => exact fun h => ih (assoc_assocPut_keeps h)

/-- A value put under several keys is read back under each. -/
theorem assoc_foldl_assocPut {α β : Type} (g : β → Nat) {w : α} {v : β} {l : List β} : ∀ {m : List (Nat × α)}, v ∈ l →
    assoc (l.foldl (fun m v => assocPut m (g v) w) m) (g v) = some w := by
  induction l with
  | nil => exact fun h => absurd h (List.not_mem_nil)
  | cons a l ih =>
    intro m h
    rcases List.mem_cons.mp h with rfl | h
    · exact assoc_foldl_keeps g l (assoc_assocPut_same _ _ _)
    · exact ih h

/-! ### A neighbour's record -/

theorem State.neighbourIn_of_none {line col n : Nat} {ra rb : Option Word} (h : (s.stream n).find .asm = none) :
    s.neighbourIn line col ra rb n = s := by
  simp only [State.neighbourIn, h]

/-- The slot of an open frame after a neighbour's record (R347). -/
def FrmSlot.neighboured (f : FrmSlot) (line col : Nat) (w : Word) : FrmSlot :=
  { f with pix := ((vens f.defn).filter fun v => venKind f.defn v == 12).foldl (fun m v => assocPut m (pixKey v line col) w) f.pix }

theorem State.neighbourIn_of_some {line col n k : Nat} {ra rb : Option Word} (h : (s.stream n).find .asm = some k)
    (hw : inWindow ((s.stream n).slot k).defn line col = true) :
    s.neighbourIn line col ra rb n = s.setStream n ((s.stream n).setSlot k (((s.stream n).slot k).neighboured line col
      ((if defScale ((s.stream n).slot k).defn then rb else ra).getD noValue))) := by
  simp only [State.neighbourIn, h, hw, Bool.not_true, Bool.false_eq_true, if_false]
  rfl

theorem FrmSlot.neighboured_pix (f : FrmSlot) (line col : Nat) (w : Word) {v : Nat} (hv : v ∈ vens f.defn) (hk : venKind f.defn v = 12) :
    assoc (f.neighboured line col w).pix (pixKey v line col) = some w :=
  assoc_foldl_assocPut (fun v => pixKey v line col) (List.mem_filter.mpr ⟨hv, by rw [hk]; rfl⟩)

/-- Where one element of a list alone has an effect, the list has that of the element. -/
theorem foldl_of_one {α : Type} {f : State → α → State} {n : α} {s : State} :
    ∀ {l : List α}, n ∈ l → l.Nodup → (∀ m ∈ l, m ≠ n → f s m = s) → (∀ m ∈ l, m ≠ n → f (f s n) m = f s n) →
    l.foldl f s = f s n := by
  intro l
  induction l with
  | nil => exact fun h => absurd h (List.not_mem_nil)
  | cons a l ih =>
    intro hn hd hb ha
    obtain ⟨hal, hld⟩ := List.nodup_cons.mp hd
    by_cases he : a = n
    · have hrest : ∀ l' : List α, (∀ m ∈ l', f (f s n) m = f s n) → l'.foldl f (f s n) = f s n := by
        intro l'
        induction l' with
        | nil => exact fun _ => rfl
        | cons b l' ih' =>
          intro h
          rw [List.foldl_cons, h b List.mem_cons_self]
          exact ih' fun m hm => h m (List.mem_cons_of_mem _ hm)
      rw [List.foldl_cons, he]
      exact hrest l fun m hm => ha m (List.mem_cons_of_mem _ hm) fun k => hal (by rw [he, ← k]; exact hm)
    · rw [List.foldl_cons, hb a List.mem_cons_self he]
      exact ih ((List.mem_cons.mp hn).resolve_left (Ne.symm he)) hld (fun m hm => hb m (List.mem_cons_of_mem _ hm))
        fun m hm => ha m (List.mem_cons_of_mem _ hm)

theorem Only.placeNeighbour (s : State) (line col : Nat) (ra rb : Nat → Option Word) (strong : Nat) :
    Only [.regs, .fso] s (s.placeNeighbour line col ra rb strong) :=
  ⟨by simp, by simp, fun p hp => by cases p <;> simp_all [Part.same]⟩

theorem Only.neighbourIn (s : State) (line col : Nat) (ra rb : Option Word) (n : Nat) :
    Only [.fso] s (s.neighbourIn line col ra rb n) :=
  ⟨by simp, by simp, fun p hp => by cases p <;> simp_all [Part.same]⟩

section
variable {line col n k strong : Nat} {ra rb : Nat → Option Word}

theorem State.placeNeighbour_late (h : s.fso.frameOpen = false ∨ s.nlines ≤ line) :
    s.placeNeighbour line col ra rb strong = s.inc F.FSO_DVLATE_COUNT := by
  refine if_pos ?_
  rw [Bool.or_eq_true, Bool.not_eq_true', Nat.ble_eq]
  exact h

/-- A neighbour's record writes the stream whose open frame it falls in (R347). -/
theorem State.placeNeighbour_placed (ho : s.fso.frameOpen = true) (hl : line < s.nlines) (hn : n < 4)
    (hm : ∀ m, m < 4 → m ≠ n → (s.stream m).find .asm = none) (hk : (s.stream n).find .asm = some k)
    (hw : inWindow ((s.stream n).slot k).defn line col = true) :
    s.placeNeighbour line col ra rb strong = s.neighbourIn line col (ra strong) (rb strong) n := by
  have hc : ¬(!s.fso.frameOpen || Nat.ble s.nlines line) = true := by
    rw [ho, Bool.not_true, Bool.false_or, Nat.ble_eq]
    exact Nat.not_le.mpr hl
  unfold State.placeNeighbour
  rw [if_neg hc]
  refine foldl_of_one (f := fun s n => s.neighbourIn line col (ra strong) (rb strong) n) (List.mem_range.mpr hn) List.nodup_range
    (fun m hm4 hne => State.neighbourIn_of_none (hm m (List.mem_range.mp hm4) hne)) fun m hm4 hne => State.neighbourIn_of_none ?_
  rw [State.neighbourIn_of_some hk hw, State.stream_setStream_ne _ _ hn (List.mem_range.mp hm4) hne]
  exact hm m (List.mem_range.mp hm4) hne

end

theorem State.heard_doveWith (s : State) (hdr : ChainHdr) : (s.heard hdr).doveWith hdr.side = s.doveWith hdr.side := by
  cases hs : hdr.side <;> simp [State.heard, State.setNeigh, State.modLnk, State.doveWith, State.neigh, hs] <;> rfl

theorem State.heard_params (s : State) (hdr : ChainHdr) (side : ChainSide) :
    ((s.heard hdr).neigh side).params = (s.neigh side).params := by
  cases hs : hdr.side <;> cases side <;> simp [State.heard, State.setNeigh, State.modLnk, State.neigh, hs]

/-- The ranges of a record's echoes in one scale (R435): none beyond the number that the record holds. -/
def doveEcho (record : List Word) (k i : Nat) : Option Word :=
  if Nat.blt i (bitsOf (record.getD 0 0).toNat 11 9) then record[8 + 6 * i + k]? else none

section
variable {record : List Word} {c : Nat} (hr : (s.begin t).rxChain hdr = (true, (s.begin t).heard hdr))
include hr

theorem exec_dove_idle (hd : s.doveWith hdr.side = false) : exec (.dove t hdr record) s = .next ((s.begin t).heard hdr) := by
  have hd' : ((s.begin t).heard hdr).doveWith hdr.side = false := (State.heard_doveWith _ _).trans hd
  simp only [exec, execDove, hr, hd', Bool.not_false, if_true]

theorem exec_dove_up (hd : s.doveWith hdr.side = true) (hs : hdr.side = .up) {p : ChainParams} (hp : s.lnk.up.params = some p)
    (hl : p.ncol - s.rd F.CTL_DOVE_DL ≤ bitsOf (record.getD 1 0).toNat 7 0)
    (hh : bitsOf (record.getD 1 0).toNat 7 0 < p.ncol - s.rd F.CTL_DOVE_DL + s.rd F.CTL_DOVE_DL) :
    exec (.dove t hdr record) s = .next (((s.begin t).heard hdr).placeNeighbour (bitsOf (record.getD 1 0).toNat 19 8)
      (bitsOf (record.getD 1 0).toNat 7 0 - (p.ncol - s.rd F.CTL_DOVE_DL)) (doveEcho record 2) (doveEcho record 3)
      (bitsOf (record.getD 0 0).toNat 8 7)) := by
  have hd' : ((s.begin t).heard hdr).doveWith hdr.side = true := (State.heard_doveWith _ _).trans hd
  have hp' : (((s.begin t).heard hdr).neigh .up).params = some p := (State.heard_params _ _ _).trans hp
  have hc : (Nat.ble (p.ncol - s.rd F.CTL_DOVE_DL) (bitsOf (record.getD 1 0).toNat 7 0) &&
      Nat.blt (bitsOf (record.getD 1 0).toNat 7 0) (p.ncol - s.rd F.CTL_DOVE_DL + s.rd F.CTL_DOVE_DL)) = true := by
    rw [Bool.and_eq_true, Nat.ble_eq, Nat.blt_eq]
    exact ⟨hl, hh⟩
  rw [hs] at hd'
  simp only [exec, execDove, hr, hd', hs, hp', State.heard_rd, begin_rd, Option.elim_some, hc, Bool.not_true, Bool.false_eq_true, if_false, if_true]
  rfl

theorem exec_dove_down (hd : s.doveWith hdr.side = true) (hs : hdr.side = .down)
    (hh : bitsOf (record.getD 1 0).toNat 7 0 < s.rd F.CTL_DOVE_DR) :
    exec (.dove t hdr record) s = .next (((s.begin t).heard hdr).placeNeighbour (bitsOf (record.getD 1 0).toNat 19 8)
      (256 - s.rd F.CTL_DOVE_DR + bitsOf (record.getD 1 0).toNat 7 0) (doveEcho record 2) (doveEcho record 3)
      (bitsOf (record.getD 0 0).toNat 8 7)) := by
  have hd' : ((s.begin t).heard hdr).doveWith hdr.side = true := (State.heard_doveWith _ _).trans hd
  have hc : Nat.blt (bitsOf (record.getD 1 0).toNat 7 0) (s.rd F.CTL_DOVE_DR) = true := by rw [Nat.blt_eq]; exact hh
  rw [hs] at hd'
  simp only [exec, execDove, hr, hd', hs, State.heard_rd, begin_rd, hc, Bool.not_true, Bool.false_eq_true, if_false, if_true]
  rfl

end

end Sys2Proof.Machine

namespace Sys2Proof.Machine

variable {s u : State} {t : Nat} {hdr : ChainHdr}

section
variable {record : List Word} {c : Nat} (hr : (s.begin t).rxChain hdr = (true, (s.begin t).heard hdr))
include hr

/-- A record of a shared column goes to its local column (R347). -/
theorem exec_dove (hd : s.doveWith hdr.side = true)
    (hc : hdr.side = .up ∧ (∃ p, s.lnk.up.params = some p ∧ p.ncol - s.rd F.CTL_DOVE_DL ≤ bitsOf (record.getD 1 0).toNat 7 0 ∧
        bitsOf (record.getD 1 0).toNat 7 0 < p.ncol - s.rd F.CTL_DOVE_DL + s.rd F.CTL_DOVE_DL ∧
        c = bitsOf (record.getD 1 0).toNat 7 0 - (p.ncol - s.rd F.CTL_DOVE_DL)) ∨
      hdr.side = .down ∧ bitsOf (record.getD 1 0).toNat 7 0 < s.rd F.CTL_DOVE_DR ∧
        c = 256 - s.rd F.CTL_DOVE_DR + bitsOf (record.getD 1 0).toNat 7 0) :
    exec (.dove t hdr record) s = .next (((s.begin t).heard hdr).placeNeighbour (bitsOf (record.getD 1 0).toNat 19 8) c
      (doveEcho record 2) (doveEcho record 3) (bitsOf (record.getD 0 0).toNat 8 7)) := by
  rcases hc with ⟨hs, p, hp, hl, hh, rfl⟩ | ⟨hs, hh, rfl⟩
  · exact exec_dove_up hr hd hs hp hl hh
  · exact exec_dove_down hr hd hs hh

variable (he : exec (.dove t hdr record) s = .next (((s.begin t).heard hdr).placeNeighbour (bitsOf (record.getD 1 0).toNat 19 8) c
  (doveEcho record 2) (doveEcho record 3) (bitsOf (record.getD 0 0).toNat 8 7)))
omit hr
include he

theorem dove_late (h : s.fso.frameOpen = false ∨ s.nlines ≤ bitsOf (record.getD 1 0).toNat 19 8) :
    CompletesAt (.dove t hdr record) t s [.lnk] [F.FSO_DVLATE_COUNT.addr] fun u =>
      u.rd F.FSO_DVLATE_COUNT = satN 20 (s.rd F.FSO_DVLATE_COUNT + 1) := by
  rw [State.placeNeighbour_late (s := (s.begin t).heard hdr) h] at he
  refine ⟨_, he, (Only.heard _ _).comp (Only.inc _ _) (by decide) (by decide),
    fun a ha => word_inc_ne _ _ _ fun k => ha (List.mem_singleton.mpr k), rd_inc _ _ (by decide) (by decide)⟩

theorem dove_placed {n k : Nat} (ho : s.fso.frameOpen = true) (hl : bitsOf (record.getD 1 0).toNat 19 8 < s.nlines) (hn : n < 4)
    (hk : (s.stream n).find .asm = some k) (hm : ∀ m, m < 4 → m ≠ n → (s.stream m).find .asm = none)
    (hw : inWindow ((s.stream n).slot k).defn (bitsOf (record.getD 1 0).toNat 19 8) c = true) :
    Completes (.dove t hdr record) t s [.lnk, .fso] fun u =>
      ∀ v, v ∈ vens ((s.stream n).slot k).defn → venKind ((s.stream n).slot k).defn v = 12 →
        assoc ((u.stream n).slot k).pix (pixKey v (bitsOf (record.getD 1 0).toNat 19 8) c) =
          some (if bitsOf (record.getD 0 0).toNat 11 9 ≤ bitsOf (record.getD 0 0).toNat 8 7 then noValue
            else (record[8 + 6 * bitsOf (record.getD 0 0).toNat 8 7 +
              (if defScale ((s.stream n).slot k).defn then 3 else 2)]?).getD noValue) := by
  have hst : ∀ m, ((s.begin t).heard hdr).stream m = s.stream m := fun _ => rfl
  rw [State.placeNeighbour_placed (s := (s.begin t).heard hdr) ho hl hn hm hk hw] at he
  refine ⟨_, he, ((Only.heard _ _).mono (by decide)).trans ((Only.neighbourIn _ _ _ _ _ _).mono (by decide)), fun v hv hv12 => ?_⟩
  rw [State.neighbourIn_of_some (s := (s.begin t).heard hdr) hk hw, State.stream_setStream_same, Stream.slot_setSlot_same, hst,
    FrmSlot.neighboured_pix _ _ _ _ hv hv12]
  congr 1
  unfold doveEcho
  by_cases hle : bitsOf (record.getD 0 0).toNat 11 9 ≤ bitsOf (record.getD 0 0).toNat 8 7
  · have hb : ¬Nat.blt (bitsOf (record.getD 0 0).toNat 8 7) (bitsOf (record.getD 0 0).toNat 11 9) = true := by
      rw [Nat.blt_eq]; exact Nat.not_lt.mpr hle
    rw [if_neg hb, if_neg hb, ite_self, if_pos hle]
    rfl
  · have hb : Nat.blt (bitsOf (record.getD 0 0).toNat 8 7) (bitsOf (record.getD 0 0).toNat 11 9) = true := by
      rw [Nat.blt_eq]; exact Nat.not_le.mp hle
    rw [if_pos hb, if_pos hb, if_neg hle]
    split <;> rfl

end

/-- Settles O54. -/
theorem chainTimeAndRecordsAreExchanged : Obligations.ChainTimeAndRecordsAreExchanged := by
  unfold Obligations.ChainTimeAndRecordsAreExchanged
  intro s t b
  refine ⟨fun h => completes_of_next (exec_probeSend_idle h) _, probeSend_sends, fun h hup hcrc hnew => ?_⟩
  have hr : (s.begin t).rxChain h = (true, (s.begin t).heard h) := State.rxChain_accepts (s := s.begin t) hup hcrc hnew
  have hup' : ∀ side, h.side = side → s.portUp side = true := fun side hs => hs ▸ hup
  have heard : ∀ {c : Instr}, exec c s = .next ((s.begin t).heard h) → Completes c t s [.lnk] fun _ => True :=
    fun he => ⟨_, he, Only.heard _ _, trivial⟩
  refine ⟨fun hs => heard (exec_probe_up hr hs), fun hs => probe_answered hr hs (hup' _ hs), probe_unanswered hr,
    fun hold rtt head ofs => ⟨fun hi => heard (exec_echo_idle hr hi), echo_unjoined hr, echo_joined hr⟩,
    fun at0 delta origin => ⟨fun hi => heard (exec_timeset_idle hr hi), fun hs hj hh => ⟨timeset_pends hr hs hj hh, timeset_late hr hs hj hh⟩⟩,
    fun sync pg arg te => ?_, fun record => ⟨fun hd => heard (exec_dove_idle hr hd), fun c hd hc => ?_⟩⟩
  · intro run live late sent
    refine ⟨fun hi => heard (exec_batten_idle (x := ⟨sync, pg, arg, te⟩) hr hi), fun hs hj hh => ⟨?_, ?_, ?_, ?_, ?_, ?_⟩⟩
    · exact batten_pends (x := ⟨sync, pg, arg, te⟩) hr hs hj hh
    · exact batten_dropped (x := ⟨sync, pg, arg, te⟩) hr hs hj hh
    · exact fun hl ht hsy => batten_late_sync (x := ⟨sync, pg, arg, te⟩) hr hs hj hh ht hl hsy
    · exact fun hl ht hsy hp => batten_late_jumps (x := ⟨sync, pg, arg, te⟩) hr hs hj hh ht hl hsy hp
    · exact fun hl ht hsy hp hlo => batten_late_waits (x := ⟨sync, pg, arg, te⟩) hr hs hj hh ht hl hsy hp hlo
    · exact fun hl ht hsy hp hlo => batten_late_switches (x := ⟨sync, pg, arg, te⟩) hr hs hj hh ht hl hsy hp hlo
  · have he := exec_dove hr hd hc
    exact ⟨dove_late he, fun n k ho hl hn hk hm hw => dove_placed he ho hl hn hk hm hw⟩

end Sys2Proof.Machine

/-! ## The ends of the long operations (R74, R77, R396, R398, R399, R457, R486 to R488, R510, R524)

First that what runs beside a long operation leaves it running. -/

namespace Sys2Proof.Machine

variable {s u : State} {t : Nat}

/-! ### The long operation that runs -/

theorem State.raise_op (s : State) (code : Nat) (cls : EvClass) (arg : Nat) : (s.raise code cls arg).mgmt.op = s.mgmt.op :=
  State.still_op (State.raise_still _ _ _ _)

theorem State.op_of_mgmt (h : u.mgmt = s.mgmt) : u.mgmt.op = s.mgmt.op := by rw [h]

theorem State.noteHit_op (s : State) (sub client : Nat) (demand : Bool) (h : MemHit) :
    (s.noteHit sub client demand h).mgmt.op = s.mgmt.op := by
  unfold State.noteHit
  split
  · exact State.op_of_mgmt (by simp)
  · exact State.op_of_mgmt (by simp)
  · unfold State.noteUe
    split
    · rfl
    · dsimp only
      rw [State.raise_op]
      refine State.op_of_mgmt ?_
      split <;> simp

theorem State.judgeMark_op (s : State) (k : Nat) : (s.judgeMark k).mgmt.op = s.mgmt.op := by
  unfold State.judgeMark
  dsimp only
  split
  · rfl
  · split
    · exact State.op_of_mgmt (by simp)
    · split
      · rfl
      · rw [State.raise_op]
        exact State.op_of_mgmt (by simp)

theorem State.judgeMarks_op (s : State) (sub : Nat) : (s.judgeMarks sub).mgmt.op = s.mgmt.op :=
  State.fold_keeps (fun s => s.mgmt.op) _ State.judgeMark_op _ _

theorem State.readBeats_op (sub client : Nat) (demand : Bool) (hs : List MemHit) :
    ∀ s : State, (s.readBeats sub client demand hs).mgmt.op = s.mgmt.op := by
  induction hs with
  | nil => exact fun _ => rfl
  | cons h hs ih =>
    intro s
    unfold State.readBeats
    dsimp only
    rw [ih]
    split
    · exact State.noteHit_op _ _ _ _ _
    · exact (State.judgeMarks_op _ _).trans (State.noteHit_op _ _ _ _ _)

theorem State.memRead_op (s : State) (sub client : Nat) (demand : Bool) (hs : List MemHit) :
    (s.memRead sub client demand hs).mgmt.op = s.mgmt.op := by
  rw [State.memRead, State.readBeats_op]
  exact State.op_of_mgmt (by simp)

theorem State.readTbl_op (s : State) (lib : Nat) (hits : List MemHit) : (s.readTbl lib hits).2.mgmt.op = s.mgmt.op :=
  State.memRead_op _ _ _ _ _

theorem State.closeOpen_op (s : State) (h : Hist) (cause : Nat) : (s.closeOpen h cause).mgmt.op = s.mgmt.op := by
  unfold State.closeOpen
  dsimp only
  split
  · split
    · rw [State.raise_op]
      exact State.op_of_mgmt (by simp)
    · exact State.op_of_mgmt (by simp)
  · exact State.op_of_mgmt (by simp)

theorem State.closeHist_op (s : State) (port cause : Nat) : (s.closeHist port cause).mgmt.op = s.mgmt.op := by
  unfold State.closeHist
  split
  · refine State.op_of_mgmt ?_
    split <;> simp
  · split
    · rfl
    · exact State.closeOpen_op _ _ _

theorem State.closeAll_op (s : State) (cause : Nat) : (s.closeAll cause).mgmt.op = s.mgmt.op :=
  State.fold_keeps (fun s => s.mgmt.op) _ (fun s p => State.closeHist_op s p cause) _ _

theorem State.settleCloses_op (s : State) (port : Nat) : (s.settleCloses port).mgmt.op = s.mgmt.op := by
  have hd : ∀ (v : State) (p : Nat), (v.dropAnchor p).mgmt.op = v.mgmt.op := fun v p => State.op_of_mgmt (by simp)
  unfold State.settleCloses
  split
  · rfl
  · dsimp only
    rw [State.fold_keeps (fun s => s.mgmt.op) _ fun s (e : Nat × Nat) => (hd _ _).trans (State.closeHist_op s port e.2)]
    exact State.op_of_mgmt (by simp)

theorem State.takeSingle_op (s : State) (r : FireRec) (p : Nat) : (s.takeSingle r p).mgmt.op = s.mgmt.op := by
  unfold State.takeSingle
  split
  · rfl
  · dsimp only
    rw [State.settleCloses_op]
    exact State.op_of_mgmt (by simp)

theorem State.settleSingles_op (s : State) : s.settleSingles.mgmt.op = s.mgmt.op :=
  State.fold_keeps (fun s => s.mgmt.op) _
    (fun v r => State.fold_keeps (fun s => s.mgmt.op) _ (fun s p => State.takeSingle_op s r p) _ v) _ _

theorem State.switchPorts_op (s : State) (cause : Nat) : (s.switchPorts cause).mgmt.op = s.mgmt.op := by
  have hd : ∀ v : State, (v.dropAnchors.clearHistory).mgmt.op = v.mgmt.op := fun v => State.op_of_mgmt (by simp)
  rw [State.switchPorts, hd, State.closeAll_op]

theorem State.settlePath_op (n : Nat) : ∀ s : State, (s.settlePath n).mgmt.op = s.mgmt.op := by
  induction n with
  | zero => exact State.settleSingles_op
  | succ n ih =>
    intro s
    unfold State.settlePath
    dsimp only
    split
    · exact State.settleSingles_op s
    · split
      · exact State.settleSingles_op s
      next c _ =>
        split
        · rw [ih]
          exact (State.switchPorts_op _ c).trans (State.settleSingles_op s)
        · exact State.settleSingles_op s

theorem State.otherPage_op (s : State) (cause : Nat) : (s.otherPage cause).mgmt.op = s.mgmt.op := by
  have hc : ∀ v : State, v.clearLc.mgmt.op = v.mgmt.op := fun v => State.op_of_mgmt (by simp)
  rw [State.otherPage, hc]
  exact State.settlePath_op _ _

theorem State.chgEval_op (s : State) : s.chgEval.mgmt.op = s.mgmt.op := by
  unfold State.chgEval
  refine (State.safEval_op_lanes _).1.trans ?_
  split
  · rfl
  · exact State.op_of_mgmt (by simp)

theorem State.wr_op (s : State) (f : Fld) (v : Nat) : (s.wr f v).mgmt.op = s.mgmt.op := State.op_of_mgmt (by simp)

theorem State.setUnit_op (s : State) (n : Nat) (x : UnitSt) : (s.setUnit n x).mgmt.op = s.mgmt.op := State.op_of_mgmt (by simp)

theorem State.put_safInit_op (s : State) (f : Fld) (b : Bool) : (s.put f b).safInit.mgmt.op = s.mgmt.op :=
  (State.safInit_op_lanes _).1.trans (State.op_of_mgmt (by simp))

theorem State.calOther_op (s : State) (e : CalElem) : (s.calOther e).mgmt.op = s.mgmt.op := by
  unfold State.calOther
  split
  · rw [State.wr_op]
  · split
    · rw [State.setUnit_op]
    · split
      · rw [State.put_safInit_op]
      · rfl

theorem State.portEvents_op (s0 s : State) (p : Nat) : (s0.portEvents s p).mgmt.op = s.mgmt.op := by
  have hr : ∀ (c : Bool) (v : State) (code : Nat), (if c then v.raise code .fault p else v).mgmt.op = v.mgmt.op := by
    intro c v code
    split
    · exact State.raise_op _ _ _ _
    · rfl
  unfold State.portEvents
  dsimp only
  rw [hr, hr]

theorem State.calSpareFails_op (s : State) (r : Nat) : (s.calSpareFails r).mgmt.op = s.mgmt.op := State.op_of_mgmt (by simp)

theorem State.calPortFails_op (s : State) (p : Nat) : (s.calPortFails p).mgmt.op = s.mgmt.op := State.op_of_mgmt (by simp)

theorem State.calFailures_op (s : State) (bad : List CalElem) : (s.calFailures bad).mgmt.op = s.mgmt.op := by
  have keeps : ∀ {β : Type} (f : State → β → State), (∀ v x, (f v x).mgmt.op = v.mgmt.op) → ∀ (l : List β) (v : State),
      (l.foldl f v).mgmt.op = v.mgmt.op := fun f h l v => State.fold_keeps (fun s => s.mgmt.op) f h l v
  unfold State.calFailures
  refine (keeps _ (State.portEvents_op s) _ _).trans ?_
  refine (keeps _ State.calPortFails_op _ _).trans ?_
  refine (keeps _ State.calSpareFails_op _ _).trans ?_
  exact keeps _ State.calOther_op _ _

end Sys2Proof.Machine

namespace Sys2Proof.Machine

variable {s u : State} {t : Nat}

/-! ### How an operation ends -/

theorem Only.endOp (s : State) (r : Nat) : Only (.regs :: evParts) s (s.endOp r) :=
  ⟨by simp, by simp, fun p hp => by cases p <;> simp_all [Part.same, evParts]⟩

theorem State.endOp_seq (s : State) (r : Nat) : (s.endOp r).seq = s.seq := by simp

/-- A long operation ends with a result that CTL_OPRESULT holds; the event is told as from an earlier state that nothing has told
of since. -/
theorem State.endOp_ends {b v : State} {op : LongOp} {r : Nat} (hop : v.mgmt.op = some op) (hr : r < 2 ^ 20)
    (hm : v.mgmt.evq = b.mgmt.evq) (hw : v.word F.CTL_EVCFG_QEN.addr = b.word F.CTL_EVCFG_QEN.addr) (hn : v.now = b.now) :
    (v.endOp r).opEnded r ∧ b.told (v.endOp r) 0x01 .info op.code := by
  obtain ⟨he, ht⟩ := v.endOp_ended op r hop
  rw [Nat.mod_eq_of_lt hr] at he
  exact ⟨he, State.told_of ht hm (State.queues_of_word hw _) hn⟩

theorem satN_lt (w n : Nat) : satN w n < 2 ^ w := by
  have := Nat.two_pow_pos w
  rw [satN]
  omega

/-- Two counts of ten bits make a result. -/
theorem counts_lt (m n : Nat) : satN 10 m * 1024 + satN 10 n < 2 ^ 20 := by
  have := satN_lt 10 m
  have := satN_lt 10 n
  omega

/-! ### PAGE_LOAD -/

/-- The page that was copied is in place, or its load has failed (R77, R396). -/
def Seq.loaded (q : Seq) (tgt : Bool) (p : Page) (ok : Bool) : Seq :=
  let r := { q with loading := none }
  if ok then if tgt then { r with pageB := p } else { r with pageA := p } else r

theorem exec_pageLoadDone {tgt : Bool} {lib t0 : Nat} {p : Page} {hits : List MemHit} (hop : s.mgmt.op = some (.pageLoad tgt lib t0))
    (hd : s.seq.deferred = none) (hp : assoc s.seq.library lib = some p) (hm : (s.begin t).memAvail 1 = true) :
    exec (.pageLoadDone ⟨t, hits⟩) s = .next ((((s.begin t).readTbl lib hits).2.modSeq fun q =>
      q.loaded tgt p ((s.begin t).readTbl lib hits).1).endOp (if ((s.begin t).readTbl lib hits).1 then 0 else 2)) := by
  have hop' : (s.begin t).mgmt.op = some (.pageLoad tgt lib t0) := hop
  have hq : ((s.begin t).readTbl lib hits).2.seq = s.seq := State.readTbl_seq _ _ _
  generalize hv : (s.begin t).readTbl lib hits = x at hq
  obtain ⟨ok, v⟩ := x
  change v.seq = s.seq at hq
  have hset : ∀ (f : Seq → Seq) (r : Nat), (f v.seq).deferred = none →
      ((v.modSeq f).endOp r).settleDeferred = (v.modSeq f).endOp r := fun f r h =>
    State.settleDeferred_of_none (by rw [State.endOp_seq]; exact h)
  have hd' : v.seq.deferred = none := by rw [hq]; exact hd
  have hpv : (assoc v.seq.library lib).getD default = p := by rw [hq, hp]; rfl
  simp only [exec, execPageLoadDone, hm, if_true, hop', hv]
  cases ok with
  | false =>
    rw [if_pos (by decide), if_neg (by decide)]
    exact congrArg _ (hset _ _ hd')
  | true =>
    rw [if_neg (by decide), if_pos rfl]
    simp only [State.modSeq_seq, hpv]
    cases tgt with
    | false => exact congrArg _ (hset (fun q => { q with loading := none, pageA := p }) 0 hd')
    | true => exact congrArg _ (hset (fun q => { q with loading := none, pageB := p }) 0 hd')

theorem Seq.loaded_failed (q : Seq) (tgt : Bool) (p : Page) : q.loaded tgt p false = { q with loading := none } := rfl

theorem Seq.loaded_pageOf (q : Seq) (tgt : Bool) (p : Page) :
    (q.loaded tgt p true).loading = none ∧ (q.loaded tgt p true).pageOf tgt = p ∧
    (q.loaded tgt p true).pageOf (!tgt) = q.pageOf (!tgt) := by
  cases tgt <;> exact ⟨rfl, rfl, rfl⟩

/-- PAGE_LOAD ends (R77, R396). -/
theorem pageLoadDone_ends {tgt : Bool} {lib t0 : Nat} {p : Page} {hits : List MemHit}
    (hop : s.mgmt.op = some (.pageLoad tgt lib t0)) (hd : s.seq.deferred = none) (hp : assoc s.seq.library lib = some p)
    (hm : (s.begin t).memAvail 1 = true) :
    let v := (s.begin t).readTbl lib hits
    Completes (.pageLoadDone ⟨t, hits⟩) t s (.regs :: .seq :: .mem :: .cap :: evParts) fun u =>
      u.opEnded (if v.1 then 0 else 2) ∧ v.2.told u 0x01 .info 3 ∧
      (∀ a, a ∉ 0x0003 :: 0x0004 :: evWords → u.word a = v.2.word a) ∧ u.mem = v.2.mem ∧ u.cap = v.2.cap ∧
      u.seq = s.seq.loaded tgt p v.1 := by
  intro v
  have he := exec_pageLoadDone (hits := hits) hop hd hp hm
  have ho : Only [.regs, .cap, .mem, .mgmt, .lnk, .saf, .out] (s.begin t) v.2 := Only.readTbl _ _ _
  have hq : v.2.seq = s.seq := State.readTbl_seq _ _ _
  have hvop : v.2.mgmt.op = some (.pageLoad tgt lib t0) := (State.readTbl_op _ _ _).trans hop
  change exec (.pageLoadDone ⟨t, hits⟩) s = .next ((v.2.modSeq fun q => q.loaded tgt p v.1).endOp (if v.1 then 0 else 2)) at he
  clear_value v
  have hr : (if v.1 then 0 else 2) < 2 ^ 20 := by split <;> decide
  obtain ⟨hend, htold⟩ := State.endOp_ends (v := v.2.modSeq fun q => q.loaded tgt p v.1) (b := v.2) hvop hr rfl (modSeq_word _ _ _) rfl
  have hoe := Only.endOp (v.2.modSeq fun q => q.loaded tgt p v.1) (if v.1 then 0 else 2)
  refine ⟨_, he, ((ho.mono (by decide)).trans ((Only.modSeq _ _).mono (by decide))).trans (hoe.mono (by decide)), hend, htold,
    fun a ha => ?_, hoe.2.2 .mem (by decide), hoe.2.2 .cap (by decide), ?_⟩
  · rw [State.endOp_word _ _ ha, modSeq_word]
  · rw [State.endOp_seq, State.modSeq_seq, hq]

theorem exec_pageLoadDone_waits {hits : List MemHit} (hm : (s.begin t).memAvail 1 = false) :
    exec (.pageLoadDone ⟨t, hits⟩) s = .next (s.begin t) := by
  simp only [exec, execPageLoadDone, hm, Bool.false_eq_true, if_false]

/-! ### ATTEST -/

/-- A register of several words holds a number that is no wider. -/
theorem State.rdWide_wrWide_bits (s : State) (a : Nat) {k n : Nat} (x : BitVec k) (h : k ≤ 20 * n) :
    (s.wrWide a n x.toNat).rdWide a n = x.toNat := by
  rw [State.rdWide_wrWide, Nat.mod_eq_of_lt (Nat.lt_of_lt_of_le x.isLt (Nat.pow_le_pow_right (by decide) h))]

/-- The signature and the state word are in place (R488). -/
def State.attested (s : State) (sig : BitVec 256 × BitVec 256) (st : Word) : State :=
  ((({ s with free := s.free + 1 } : State).wrWide 0xF040 13 sig.1.toNat).wrWide 0xF04D 13 sig.2.toNat).setWord 0xF03D st

theorem State.attested_spec (s : State) (sig : BitVec 256 × BitVec 256) (st : Word) :
    let u := s.attested sig st
    Only [.regs, .free] s u ∧ u.free = s.free + 1 ∧ (∀ a, a < 0xF03D → u.word a = s.word a) ∧ u.word 0xF03D = st ∧
    u.rdWide 0xF040 13 = sig.1.toNat ∧ u.rdWide 0xF04D 13 = sig.2.toNat := by
  have hfree : Only [.free] s { s with free := s.free + 1 } :=
    ⟨rfl, rfl, fun p hp => by cases p <;> simp_all [Part.same]⟩
  have hw : ∀ a, ({ s with free := s.free + 1 } : State).word a = s.word a := State.word_of_regs (hfree.2.2 .regs (by decide))
  have hf : (s.attested sig st).free = s.free + 1 := by simp [State.attested]
  have ho : Only [.regs, .free] s (s.attested sig st) := by
    exact (((hfree.mono (by decide)).trans ((Only.wrWide _ _ _ _).mono (by decide))).trans
      ((Only.wrWide _ _ _ _).mono (by decide))).trans ((Only.setWord _ _ _).mono (by decide))
  unfold State.attested at hf ho ⊢
  generalize ({ s with free := s.free + 1 } : State) = v at hf ho hw
  have hset : ∀ (x : State) (a : Nat), a ≠ 0xF03D → (x.setWord 0xF03D st).word a = x.word a := fun x a ha => by
    rw [word_setWord, if_neg ha]
  refine ⟨ho, hf, fun a ha => ?_, by rw [word_setWord, if_pos rfl], ?_, ?_⟩
  · rw [hset _ _ (by omega), State.wrWide_word _ _ _ _ (by omega), State.wrWide_word _ _ _ _ (by omega), hw]
  · rw [State.rdWide_of_words fun i hi => (hset _ _ (by omega)).trans (State.wrWide_word _ _ _ _ (by omega)),
      State.rdWide_wrWide_bits _ _ _ (by decide)]
  · rw [State.rdWide_of_words fun i hi => hset _ _ (by omega), State.rdWide_wrWide_bits _ _ _ (by decide)]

/-- ATTEST ends with the signature over the message (R488). -/
theorem attestDone_ends {chal : List Word} {st : Word} (hop : s.mgmt.op = some (.attest chal st)) :
    Completes (.attestDone t) t s (.regs :: .free :: evParts) fun u =>
      u.opEnded 0 ∧ (s.begin t).told u 0x01 .info 4 ∧ u.word 0xF03D = st ∧ u.free = s.free + 1 ∧
      let sig := Config.sm2Sign s.free (Config.sm3 (s.attestMsg chal st))
      u.rdWide 0xF040 13 = sig.1.toNat ∧ u.rdWide 0xF04D 13 = sig.2.toNat := by
  have hop' : (s.begin t).mgmt.op = some (.attest chal st) := hop
  have hf : (s.begin t).free = s.free := rfl
  have hm : (s.begin t).attestMsg chal st = s.attestMsg chal st := rfl
  have he : exec (.attestDone t) s = .next (((s.begin t).attested (Config.sm2Sign s.free (Config.sm3 (s.attestMsg chal st))) st).endOp 0) := by
    simp only [exec, execAttestDone, hop', hf, hm, State.attested]
  obtain ⟨ho, hfr, hw, hst, h1, h2⟩ := (s.begin t).attested_spec (Config.sm2Sign s.free (Config.sm3 (s.attestMsg chal st))) st
  generalize (s.begin t).attested (Config.sm2Sign s.free (Config.sm3 (s.attestMsg chal st))) st = v at he ho hfr hw hst h1 h2
  have hvm : v.mgmt = s.mgmt := ho.2.2 .mgmt (by decide)
  obtain ⟨hend, htold⟩ := State.endOp_ends (v := v) (b := s.begin t) (r := 0) (by rw [hvm]; exact hop) (by decide)
    (congrArg Mgmt.evq hvm) (hw _ (by decide)) (now_of ho.1 (ho.2.2 .tofs (by decide)))
  have hoe := Only.endOp v 0
  have hwe : ∀ a, 0xF03D ≤ a → (v.endOp 0).word a = v.word a := fun a ha => State.endOp_word _ _ (by
    simp only [evWords, F.CTL_EVLOST_COUNT, F.LNK_EVLOST_COUNT, List.mem_cons, List.not_mem_nil, or_false]; omega)
  refine ⟨_, he, (ho.mono (by decide)).trans (hoe.mono (by decide)), hend, htold, (hwe _ (by decide)).trans hst,
    (hoe.2.2 .free (by decide)).trans hfr, ?_, ?_⟩
  · rw [← h1]
    exact State.rdWide_of_words fun i _ => hwe _ (by omega)
  · rw [← h2]
    exact State.rdWide_of_words fun i _ => hwe _ (by omega)

end Sys2Proof.Machine

namespace Sys2Proof.Machine

variable {s u : State} {t : Nat}

/-! ### NVM -/

/-- Byte k of CTL_NVM_BUF is a field of a word (R494). -/
theorem State.nvmByte_eq (s : State) (k : Nat) :
    s.nvmByte k = BitVec.ofNat 8 (bitsOf (s.word (0xF100 + k / 2)).toNat (8 * (k % 2) + 7) (8 * (k % 2))) := by
  have hrd : s.rd (F.CTL_NVM_BUF_DATA (k / 2)) = bitsOf (s.word (0xF100 + k / 2)).toNat 15 0 := rfl
  refine BitVec.eq_of_toNat_eq ?_
  rw [State.nvmByte, BitVec.toNat_ofNat, BitVec.toNat_ofNat, hrd]
  generalize (s.word (0xF100 + k / 2)).toNat = w
  rcases Nat.mod_two_eq_zero_or_one k with hk | hk <;> rw [hk] <;> simp only [bitsOf] <;> omega

theorem State.nvmByte_of_word {k : Nat} (h : u.word (0xF100 + k / 2) = s.word (0xF100 + k / 2)) : u.nvmByte k = s.nvmByte k := by
  rw [State.nvmByte_eq, State.nvmByte_eq, h]

theorem State.nvmByte_setNvmByte (s : State) (k j : Nat) (b : Byte) :
    (s.setNvmByte k b).nvmByte j = if j = k then b else s.nvmByte j := by
  rw [State.nvmByte_eq, State.setNvmByte, word_setWord]
  by_cases hjk : j = k
  · rw [if_pos hjk, hjk, if_pos rfl, bitsOf_putBits _ _ _ _ (by omega) (by omega)]
    refine BitVec.eq_of_toNat_eq ?_
    have hb := b.isLt
    rw [BitVec.toNat_ofNat, show 8 * (k % 2) + 7 + 1 - 8 * (k % 2) = 8 by omega, Nat.mod_mod, Nat.mod_eq_of_lt hb]
  · rw [if_neg hjk]
    by_cases hw : 0xF100 + j / 2 = 0xF100 + k / 2
    · rw [if_pos hw, ← hw, bitsOf_putBits_other _ _ _ _ _ _ (by omega) (by omega) (by omega), State.nvmByte_eq]
    · rw [if_neg hw, State.nvmByte_eq]

/-- Bytes put into CTL_NVM_BUF from an index on. -/
theorem State.putNvm_spec (bytes : List Byte) : ∀ (n : Nat) (s : State),
    let u := (bytes.zipIdx n).foldl (fun (s : State) e => s.setNvmByte e.2 e.1) s
    Only [.regs] s u ∧ (∀ a, a < 0xF100 → u.word a = s.word a) ∧
    ∀ k, u.nvmByte k = if n ≤ k ∧ k < n + bytes.length then bytes.getD (k - n) 0 else s.nvmByte k := by
  induction bytes with
  | nil =>
    intro n s
    refine ⟨Only.refl _ _, fun _ _ => rfl, fun k => ?_⟩
    rw [if_neg (by rw [List.length_nil]; omega)]
    rfl
  | cons b bytes ih =>
    intro n s
    obtain ⟨ho, hw, hb⟩ := ih (n + 1) (s.setNvmByte n b)
    have hs : Only [.regs] s (s.setNvmByte n b) := Only.setWord _ _ _
    refine ⟨hs.trans ho, fun a ha => ?_, fun k => ?_⟩
    · refine (hw a ha).trans ?_
      rw [State.setNvmByte, word_setWord, if_neg (by omega)]
    · refine (hb k).trans ?_
      rw [State.nvmByte_setNvmByte, List.length_cons]
      by_cases hk : k = n
      · rw [if_neg (by omega), if_pos hk, if_pos (by omega), hk, Nat.sub_self]
        rfl
      · by_cases hr : n + 1 ≤ k ∧ k < n + 1 + bytes.length
        · obtain ⟨j, rfl⟩ : ∃ j, k = n + 1 + j := ⟨k - (n + 1), by omega⟩
          rw [if_pos hr, if_pos (by omega), Nat.add_sub_cancel_left, show n + 1 + j - n = j + 1 by omega]
          rfl
        · rw [if_neg hr, if_neg hk, if_neg (by omega)]

section
variable {op a len : Nat} (hop : s.mgmt.op = some (.nvm op a len))
include hop

/-- An operation of the flash that ends without bytes for CTL_NVM_BUF (R487). -/
theorem nvmDone_ends {ending : NvmEnd} {r : Nat} (hr : r < 2 ^ 20) (he : exec (.nvmDone t ending) s = .next ((s.begin t).endOp r)) :
    CompletesAt (.nvmDone t ending) t s evParts (0x0003 :: 0x0004 :: evWords) fun u =>
      u.opEnded r ∧ (s.begin t).told u 0x01 .info 5 :=
  ⟨_, he, Only.endOp _ _, fun _ ha => State.endOp_word _ _ ha, State.endOp_ends (v := s.begin t) hop hr rfl rfl rfl⟩

theorem exec_nvmDone_timeout : exec (.nvmDone t .timeout) s = .next ((s.begin t).endOp 1) := by
  have hop' : (s.begin t).mgmt.op = some (.nvm op a len) := hop
  simp only [exec, execNvmDone, hop']

end

theorem exec_nvmDone_program {a len : Nat} {bytes : List Byte} (hop : s.mgmt.op = some (.nvm 1 a len)) :
    exec (.nvmDone t (.finished bytes)) s = .next ((s.begin t).endOp (if bytes = (List.range len).map s.nvmByte then 0 else 2)) := by
  have hop' : (s.begin t).mgmt.op = some (.nvm 1 a len) := hop
  have hb : (s.begin t).nvmByte = s.nvmByte := rfl
  simp only [exec, execNvmDone, hop', hb, beq_iff_eq]
  rfl

/-- A read of the flash leaves its bytes in CTL_NVM_BUF (R487). -/
theorem nvmDone_read {a len : Nat} {bytes : List Byte} (hop : s.mgmt.op = some (.nvm 0 a len)) (hl : bytes.length = len) :
    Completes (.nvmDone t (.finished bytes)) t s (.regs :: evParts) fun u =>
      u.opEnded 0 ∧ (s.begin t).told u 0x01 .info 5 ∧ ∀ k, k < len → u.nvmByte k = bytes.getD k 0 := by
  have hop' : (s.begin t).mgmt.op = some (.nvm 0 a len) := hop
  have he : exec (.nvmDone t (.finished bytes)) s =
      .next ((bytes.zipIdx.foldl (fun (s : State) e => s.setNvmByte e.2 e.1) (s.begin t)).endOp 0) := by
    simp only [exec, execNvmDone, hop', List.take_of_length_le (Nat.le_of_eq hl)]
    rfl
  obtain ⟨ho, hw, hb⟩ := State.putNvm_spec bytes 0 (s.begin t)
  generalize bytes.zipIdx.foldl (fun (s : State) e => s.setNvmByte e.2 e.1) (s.begin t) = v at he ho hw hb
  have hvm : v.mgmt = s.mgmt := ho.2.2 .mgmt (by decide)
  obtain ⟨hend, htold⟩ := State.endOp_ends (v := v) (b := s.begin t) (r := 0) (by rw [hvm]; exact hop) (by decide)
    (congrArg Mgmt.evq hvm) (hw _ (by decide)) (now_of ho.1 (ho.2.2 .tofs (by decide)))
  refine ⟨_, he, (ho.mono (by decide)).trans (Only.endOp _ _), hend, htold, fun k hk => ?_⟩
  have hwe : (v.endOp 0).word (0xF100 + k / 2) = v.word (0xF100 + k / 2) := State.endOp_word _ _ (by
    simp only [evWords, F.CTL_EVLOST_COUNT, F.LNK_EVLOST_COUNT, List.mem_cons, List.not_mem_nil, or_false]; omega)
  rw [State.nvmByte_of_word hwe, hb k, if_pos (by omega), Nat.sub_zero]

/-! ### SCRUB_NOW -/

theorem Only.memRead (s : State) (sub client : Nat) (demand : Bool) (hits : List MemHit) :
    Only [.regs, .cap, .mem, .mgmt, .lnk, .saf, .out] s (s.memRead sub client demand hits) :=
  ⟨by simp, by simp, fun p hp => by cases p <;> simp_all [Part.same]⟩

/-- The commanded scrub ends with what it found (R398). -/
theorem scrubNowDone_ends {subB : Bool} {start count : Nat} {hits : List MemHit} (hop : s.mgmt.op = some (.scrub subB start count))
    (hm : (s.begin t).memAvail (b2n subB) = true) :
    let found := s.scanFinds (b2n subB) start count (hits.filter fun h => Nat.ble start h.burst && Nat.blt h.burst (start + count))
    Completes (.scrubNowDone t hits) t s (.regs :: .mem :: .cap :: evParts) fun u =>
      u.opEnded (satN 10 found.1 * 1024 + satN 10 found.2) := by
  intro found
  have hop' : (s.begin t).mgmt.op = some (.scrub subB start count) := hop
  have hf : ∀ hs, (s.begin t).scanFinds (b2n subB) start count hs = s.scanFinds (b2n subB) start count hs := fun _ => rfl
  have he : exec (.scrubNowDone t hits) s = .next (((s.begin t).memRead (b2n subB) 0 false (hits.filter fun h =>
      Nat.ble start h.burst && Nat.blt h.burst (start + count))).endOp (satN 10 found.1 * 1024 + satN 10 found.2)) := by
    simp only [exec, execScrubNowDone, hop', hm, hf, Bool.not_true, Bool.false_eq_true, if_false]
    rfl
  clear_value found
  have ho := Only.memRead (s.begin t) (b2n subB) 0 false (hits.filter fun h =>
      Nat.ble start h.burst && Nat.blt h.burst (start + count))
  have hv := State.memRead_op (s.begin t) (b2n subB) 0 false (hits.filter fun h =>
      Nat.ble start h.burst && Nat.blt h.burst (start + count))
  generalize (s.begin t).memRead (b2n subB) 0 false (hits.filter fun h =>
      Nat.ble start h.burst && Nat.blt h.burst (start + count)) = v at he ho hv
  exact ⟨_, he, (ho.mono (by decide)).trans ((Only.endOp _ _).mono (by decide)),
    (State.endOp_ends (b := v) (hv.trans hop) (counts_lt _ _) rfl rfl rfl).1⟩

end Sys2Proof.Machine

namespace Sys2Proof.Machine

variable {s u : State} {t : Nat}

/-! ### A profile switch -/

/-- The mark that closes the open frame where no EOF comes (R510). -/
def Seq.closing (q : Seq) : Seq :=
  { q with marks := q.marks ++ [{ sof := false, eol := false, eof := true, tag := q.tag, id := q.nextId, cause := none, ord := none }] }

theorem State.pushMark_closing (s : State) : s.pushMark false false true s.seq.tag = s.modSeq Seq.closing := by
  rw [State.pushMark_eq]
  rfl

/-- At 42 ms without an EOF the open frame closes (R510). -/
theorem profileEofTimeout_ends {code t0 : Nat} (hop : s.mgmt.op = some (.profileSet code t0 false))
    (ht : t0 + 42000000 ≤ (s.begin t).clk) :
    Completes (.profileEofTimeout t) t s [.mgmt, .seq] fun u =>
      u.mgmt = { s.mgmt with op := some (.profileSet code t0 true) } ∧
      (s.frameIssued = false → u.seq = s.seq) ∧
      (s.frameIssued = true → u.seq.marks.length = s.seq.marks.length + 1 ∧ u.seq.marks.getLast?.map Mark.eof = some true) := by
  have hop' : (s.begin t).mgmt.op = some (.profileSet code t0 false) := hop
  have hf : (s.begin t).frameIssued = s.frameIssued := rfl
  have hlt : ¬Nat.blt (s.begin t).clk (t0 + 42000000) = true := by
    rw [Nat.blt_eq]
    exact Nat.not_lt.mpr ht
  have he : exec (.profileEofTimeout t) s = .next ((if s.frameIssued then (s.begin t).modSeq Seq.closing else s.begin t).modMgmt fun x =>
      { x with op := some (.profileSet code t0 true) }) := by
    simp only [exec, execProfileEofTimeout, hop', hf, State.pushMark_closing]
    rw [if_neg hlt]
  cases hfi : s.frameIssued with
  | false =>
    rw [hfi, if_neg (by decide)] at he
    exact ⟨_, he, (Only.modMgmt _ _).mono (by decide), rfl, fun _ => rfl, fun h => absurd h (by decide)⟩
  | true =>
    rw [hfi, if_pos rfl] at he
    refine ⟨_, he, ((Only.modSeq _ _).mono (by decide)).trans ((Only.modMgmt _ _).mono (by decide)), rfl,
      fun h => absurd h (by decide), fun _ => ⟨?_, ?_⟩⟩
    · exact List.length_append
    · exact congrArg (Option.map Mark.eof) List.getLast?_concat

theorem Only.profileSwitch (s : State) (code : Nat) :
    Only [.regs, .mgmt, .seq, .edu, .rta, .rpe, .saf, .cap, .lnk, .out] s (s.profileSwitch code) :=
  ⟨by simp, by simp, fun p hp => by cases p <;> simp_all [Part.same]⟩

theorem State.copyProfile_seq (s : State) (code : Nat) :
    (s.copyProfile code).seq.actB = s.seq.actB ∧ (s.copyProfile code).seq.st = s.seq.st ∧ (s.copyProfile code).mgmt = s.mgmt := by
  unfold State.copyProfile
  split
  · exact ⟨rfl, rfl, rfl⟩
  · rw [State.modSeq_seq]
    cases s.seq.actB <;> exact ⟨rfl, rfl, rfl⟩

/-- The switch goes to the other page, and a wait in a SYNC ends (R74, R510). -/
theorem State.profileSwitch_spec (s : State) (code : Nat) :
    (s.profileSwitch code).mgmt.op = s.mgmt.op ∧ (s.profileSwitch code).seq.actB = (!s.seq.actB) ∧
    (s.profileSwitch code).seq.deferred = none ∧
    (s.profileSwitch code).seq.st = if s.seq.st = .halted then .halted else .run := by
  obtain ⟨hact, hst, hmg⟩ := s.copyProfile_seq code
  obtain ⟨ms, hm⟩ := (s.copyProfile code).otherPage_seq 6
  have hop : ((s.copyProfile code).otherPage 6).mgmt.op = s.mgmt.op := (State.otherPage_op _ _).trans (congrArg Mgmt.op hmg)
  unfold State.profileSwitch
  generalize (s.copyProfile code).otherPage 6 = v at hm hop
  have htail : ∀ w : State, ((w.takeProfile code).put F.CTL_PROFILE_SWPEND false).chgEval.safEval.seq = w.seq ∧
      ((w.takeProfile code).put F.CTL_PROFILE_SWPEND false).chgEval.safEval.mgmt.op = w.mgmt.op := fun w => by
    refine ⟨by simp, ?_⟩
    rw [(State.safEval_op_lanes _).1, State.chgEval_op]
    exact State.op_of_mgmt (by simp)
  have hen : ∀ (w : State) (b : Bool) (n : Nat), (w.enter b n).mgmt.op = w.mgmt.op := fun w b n => State.op_of_mgmt (by simp)
  dsimp only
  rw [(htail _).1, (htail _).2, hen, (State.enter_spec _ _ _).1]
  refine ⟨hop, ?_, rfl, ?_⟩
  · simp only [State.modSeq_seq, hm, hact]
  · simp only [State.modSeq_seq, hm, hst, beq_iff_eq]

theorem profileSwitch_ends {code t0 : Nat} (hop : s.mgmt.op = some (.profileSet code t0 true)) :
    Completes (.profileSwitch t) t s [.regs, .mgmt, .seq, .edu, .rta, .rpe, .saf, .cap, .lnk, .out] fun u =>
      u.opEnded 0 ∧ u.seq.actB = (!s.seq.actB) ∧ u.seq.deferred = none ∧
      u.seq.st = if s.seq.st = .halted then .halted else .run := by
  have hop' : (s.begin t).mgmt.op = some (.profileSet code t0 true) := hop
  have he : exec (.profileSwitch t) s = .next (((s.begin t).profileSwitch code).endOp 0) := by
    simp only [exec, execProfileSwitch, hop']
  have ho := Only.profileSwitch (s.begin t) code
  obtain ⟨h1, h2, h3, h4⟩ := (s.begin t).profileSwitch_spec code
  generalize (s.begin t).profileSwitch code = v at he ho h1 h2 h3 h4
  refine ⟨_, he, ho.trans ((Only.endOp _ _).mono (by decide)),
    (State.endOp_ends (b := v) (h1.trans hop) (by decide) rfl rfl rfl).1, ?_, ?_, ?_⟩
  · rw [State.endOp_seq]; exact h2
  · rw [State.endOp_seq]; exact h3
  · rw [State.endOp_seq]; exact h4

/-! ### RECAL -/

theorem Only.closeAll (s : State) (cause : Nat) : Only [.regs, .mgmt, .rpe, .saf, .cap, .lnk, .out] s (s.closeAll cause) :=
  ⟨by simp, by simp, fun p hp => by cases p <;> simp_all [Part.same]⟩

theorem State.chgEval_recalStop (s : State) : s.chgEval.edu.recalStop = s.edu.recalStop := by
  have hs : ∀ v : State, v.safEval.edu = v.edu := fun v => by simp
  unfold State.chgEval
  rw [hs]
  split <;> rfl

theorem State.chgOk_of_recalStop (h : s.edu.recalStop = true) : s.chgOk = false := by
  rw [State.chgOk, h]
  simp

/-- The sequencer stops for RECAL, and charging with it (R108, R486). -/
theorem State.recalHalt_spec (s : State) (m t0 : Nat) :
    Only [.regs, .mgmt, .seq, .edu, .saf, .cap, .lnk, .out] s (s.recalHalt m t0) ∧
    (s.recalHalt m t0).mgmt.op = some (.recal m t0 true) ∧ (s.recalHalt m t0).seq = { s.seq with st := .idle } ∧
    (s.recalHalt m t0).edu.recalStop = true := by
  have hq : ∀ v : State, v.chgEval.seq = v.seq := fun v => by simp
  unfold State.recalHalt
  dsimp only
  refine ⟨?_, (State.chgEval_op _).trans rfl, (hq _).trans rfl, (State.chgEval_recalStop _).trans rfl⟩
  exact ((((Only.modMgmt _ _).mono (by decide)).trans ((Only.modSeq _ _).mono (by decide))).trans
    ((Only.modEdu _ _).mono (by decide))).trans ((Only.chgEval _).mono (by decide))

theorem recalEofTimeout_ends {m t0 : Nat} (hop : s.mgmt.op = some (.recal m t0 false)) (ht : t0 + 100000000 ≤ (s.begin t).clk) :
    Completes (.recalEofTimeout t) t s [.regs, .mgmt, .seq, .edu, .rpe, .saf, .cap, .lnk, .out] fun u =>
      u.mgmt.op = some (.recal m t0 true) ∧ u.seq = { s.seq with st := .idle } ∧ u.edu.recalStop = true ∧ u.chgOk = false := by
  have hop' : (s.begin t).mgmt.op = some (.recal m t0 false) := hop
  have hlt : ¬Nat.blt (s.begin t).clk (t0 + 100000000) = true := by
    rw [Nat.blt_eq]
    exact Nat.not_lt.mpr ht
  have he : exec (.recalEofTimeout t) s = .next (((s.begin t).recalHalt m t0).closeAll 2) := by
    simp only [exec, execRecalEofTimeout, hop']
    rw [if_neg hlt]
  obtain ⟨ho, hm, hq, hstop⟩ := (s.begin t).recalHalt_spec m t0
  generalize (s.begin t).recalHalt m t0 = v at he ho hm hq hstop
  have hc := Only.closeAll v 2
  have hcs : (v.closeAll 2).edu.recalStop = true := (congrArg Edu.recalStop (hc.2.2 .edu (by decide))).trans hstop
  exact ⟨_, he, (ho.mono (by decide)).trans (hc.mono (by decide)), (State.closeAll_op _ _).trans hm,
    (hc.2.2 .seq (by decide)).trans hq, hcs, State.chgOk_of_recalStop hcs⟩

end Sys2Proof.Machine

namespace Sys2Proof.Machine

variable {s u : State} {t : Nat}

/-- The elements of a RECAL, their failures and META (R480, R485, R486). -/
def State.recalibrated (s : State) (m : Nat) (elems : List CalElem) : State × List CalElem × Nat :=
  let stored := fun k i => if m == 1 then some (s.shim k i) else if m == 2 then some (s.stagedShim k i) else none
  let v := if m == 2 then
      s.takeSets 2 ((shimKeys.filter fun e => e.1 != 8).map fun e => (e.1, e.2, s.stagedShim e.1 e.2))
    else s
  let r := v.calibrate (elems.filter fun e => e.kind != .pllBand && e.kind != .mirror) stored
  ((r.1.calFailures r.2.1).noteMeta r.2.1.length, r.2.1, r.2.2)

/-- What calibration may change. -/
def calParts : List Part := [.dev, .regs, .mgmt, .rta, .rpe, .saf, .cap, .lnk, .boot, .out, .free]

theorem Only.takeSets (s : State) (src : Nat) (sets : List (Nat × Nat × List Word)) : Only calParts s (s.takeSets src sets) :=
  ⟨by simp, by simp, fun p hp => by cases p <;> simp_all [Part.same, calParts]⟩

theorem Only.calibrate (s : State) (elems : List CalElem) (sets : Nat → Nat → Option (List Word)) :
    Only calParts s (s.calibrate elems sets).1 :=
  ⟨by simp, by simp, fun p hp => by cases p <;> simp_all [Part.same, calParts]⟩

theorem Only.calFailures (s : State) (bad : List CalElem) : Only calParts s (s.calFailures bad) :=
  ⟨by simp, by simp, fun p hp => by cases p <;> simp_all [Part.same, calParts]⟩

theorem Only.noteMeta (s : State) (n : Nat) : Only calParts s (s.noteMeta n) :=
  ⟨by simp, by simp, fun p hp => by cases p <;> simp_all [Part.same, calParts]⟩

/-- Calibration leaves the schedule and the running operation. -/
theorem State.recalibrated_spec (s : State) (m : Nat) (elems : List CalElem) :
    Only calParts s (s.recalibrated m elems).1 ∧ (s.recalibrated m elems).1.mgmt.op = s.mgmt.op := by
  have ht : ∀ sets, Only calParts s (if m == 2 then s.takeSets 2 sets else s) ∧
      (if m == 2 then s.takeSets 2 sets else s).mgmt.op = s.mgmt.op := by
    intro sets
    split
    · exact ⟨Only.takeSets _ _ _, State.op_of_mgmt (by simp)⟩
    · exact ⟨Only.refl _ _, rfl⟩
  have hc : ∀ (v : State) es st, (v.calibrate es st).1.mgmt.op = v.mgmt.op := fun v es st => State.op_of_mgmt (by simp)
  have hn : ∀ (v : State) n, (v.noteMeta n).mgmt.op = v.mgmt.op := fun v n => State.op_of_mgmt (by simp)
  unfold State.recalibrated
  dsimp only
  refine ⟨(((ht _).1.trans (Only.calibrate _ _ _)).trans (Only.calFailures _ _)).trans (Only.noteMeta _ _), ?_⟩
  rw [hn, State.calFailures_op, hc, (ht _).2]

theorem State.startPage_spec (s : State) : Only [.seq] s s.startPage ∧ s.startPage.seq.startEntry = s.seq.startEntry := by
  unfold State.startPage
  split
  · exact ⟨Only.refl _ _, rfl⟩
  · split
    · exact ⟨Only.modSeq _ _, rfl⟩
    · exact ⟨Only.refl _ _, rfl⟩

/-- The sequencer starts again on page A after a RECAL (R79, R486). -/
def State.restarted (s : State) : State :=
  let v := (s.otherPage 2).startPage
  ((v.startSeq false v.seq.startEntry).modEdu fun e => { e with recalStop := false }).chgEval

theorem State.restarted_spec (s : State) :
    Only [.regs, .mgmt, .seq, .edu, .rta, .rpe, .saf, .cap, .lnk, .out] s s.restarted ∧ s.restarted.mgmt.op = s.mgmt.op ∧
    s.restarted.seq.st = .run ∧ s.restarted.seq.actB = false ∧ s.restarted.seq.next = s.seq.startEntry ∧
    s.restarted.seq.cursor = s.now + 1000 ∧ s.restarted.edu.recalStop = false := by
  obtain ⟨ms, hm⟩ := s.otherPage_seq 2
  have ho := Only.otherPage s 2
  have hop := State.otherPage_op s 2
  obtain ⟨hpo, hpe⟩ := (s.otherPage 2).startPage_spec
  have hentry : (s.otherPage 2).startPage.seq.startEntry = s.seq.startEntry := hpe.trans (by rw [hm])
  have hpop : (s.otherPage 2).startPage.mgmt.op = s.mgmt.op := (congrArg Mgmt.op (hpo.2.2 .mgmt (by decide))).trans hop
  have hvo : Only [.regs, .mgmt, .seq, .edu, .rta, .rpe, .saf, .cap, .lnk, .out] s (s.otherPage 2).startPage :=
    (ho.mono (by decide)).trans (hpo.mono (by decide))
  unfold State.restarted
  dsimp only
  generalize (s.otherPage 2).startPage = v at hentry hpop hvo
  have hn : v.now = s.now := now_of hvo.1 (hvo.2.2 .tofs (by decide))
  have hso := Only.startSeq v false v.seq.startEntry
  have hsq := v.startSeq_seq false v.seq.startEntry
  have hsp : (v.startSeq false v.seq.startEntry).mgmt.op = v.mgmt.op := congrArg Mgmt.op (hso.2.2 .mgmt (by decide))
  generalize v.startSeq false v.seq.startEntry = w at hso hsq hsp
  have hq : (w.modEdu fun e => { e with recalStop := false }).chgEval.seq = w.seq := by simp
  have hcop : (w.modEdu fun e => { e with recalStop := false }).chgEval.mgmt.op = w.mgmt.op := (State.chgEval_op _).trans rfl
  refine ⟨((hvo.trans (hso.mono (by decide))).trans ((Only.modEdu _ _).mono (by decide))).trans ((Only.chgEval _).mono (by decide)),
    (hcop.trans hsp).trans hpop, ?_, ?_, ?_, ?_, (State.chgEval_recalStop _).trans rfl⟩
  · rw [hq, hsq]
  · rw [hq, hsq]
  · rw [hq, hsq, hentry]
  · rw [hq, hsq, hn]

theorem exec_recalRestart {m t0 : Nat} {elems : List CalElem} (hop : s.mgmt.op = some (.recal m t0 true)) :
    exec (.recalRestart t elems) s = .next (((s.begin t).recalibrated m elems).1.restarted.endOp
      (satN 10 ((s.begin t).recalibrated m elems).2.1.length * 1024 + satN 10 ((s.begin t).recalibrated m elems).2.2)) := by
  have hop' : (s.begin t).mgmt.op = some (.recal m t0 true) := hop
  simp only [exec]
  unfold execRecalRestart State.recalibrated
  generalize s.begin t = b at hop'
  unfold State.restarted
  dsimp only
  rw [hop']

/-- RECAL ends with the sequencer on page A (R486). -/
theorem recalRestart_ends {m t0 : Nat} {elems : List CalElem} (hop : s.mgmt.op = some (.recal m t0 true)) :
    Completes (.recalRestart t elems) t s [.dev, .regs, .mgmt, .seq, .edu, .rta, .rpe, .saf, .cap, .lnk, .boot, .out, .free] fun u =>
      u.mgmt.op = none ∧ u.flag F.CTL_OPSTAT_DONE = true ∧ u.flag F.CTL_OPSTAT_VALID = true ∧ u.seq.st = .run ∧
      u.seq.actB = false ∧ u.seq.next = s.seq.startEntry ∧ u.seq.cursor = (s.begin t).now + 1000 ∧ u.edu.recalStop = false := by
  have he := exec_recalRestart (t := t) (elems := elems) hop
  obtain ⟨ho, hc⟩ := (s.begin t).recalibrated_spec m elems
  generalize (s.begin t).recalibrated m elems = x at he ho hc
  obtain ⟨hro, hrop, h1, h2, h3, h4, h5⟩ := x.1.restarted_spec
  have hq : x.1.seq = s.seq := ho.2.2 .seq (by decide)
  have hn : x.1.now = (s.begin t).now := now_of ho.1 (ho.2.2 .tofs (by decide))
  rw [hq] at h3
  rw [hn] at h4
  generalize x.1.restarted = v at he hro hrop h1 h2 h3 h4 h5
  obtain ⟨⟨hnone, -, hdone, hvalid⟩, -⟩ := State.endOp_ends (b := v) ((hrop.trans hc).trans hop)
    (counts_lt x.2.1.length x.2.2) rfl rfl rfl
  have hoe := Only.endOp v (satN 10 x.2.1.length * 1024 + satN 10 x.2.2)
  refine ⟨_, he, ((ho.mono (by decide)).trans (hro.mono (by decide))).trans (hoe.mono (by decide)), hnone, hdone, hvalid, ?_, ?_, ?_, ?_,
    (congrArg Edu.recalStop (hoe.2.2 .edu (by decide))).trans h5⟩
  · rw [State.endOp_seq]; exact h1
  · rw [State.endOp_seq]; exact h2
  · rw [State.endOp_seq]; exact h3
  · rw [State.endOp_seq]; exact h4

/-! ### A retune -/

theorem Only.retuneEnd (s : State) : Only [.regs, .mem, .tbu, .lnk, .free] s s.retuneEnd :=
  ⟨by simp, by simp, fun p hp => by cases p <;> simp_all [Part.same]⟩

theorem Only.thaw (s : State) : Only [.regs, .tbu] s s.thaw :=
  ⟨by simp, by simp, fun p hp => by cases p <;> simp_all [Part.same]⟩

theorem Only.judgeErr (s : State) (e : Int) : Only [.regs, .tbu] s (s.judgeErr e) :=
  ⟨by simp, by simp, fun p hp => by cases p <;> simp_all [Part.same]⟩

/-- Outputs at the new targets, memory and lanes restart (R457). -/
theorem State.retuneEnd_spec (s : State) :
    s.retuneEnd.tbu.retune = false ∧ s.retuneEnd.tbu.holdover = s.tbu.holdover ∧ s.retuneEnd.mem.selfRef = false := by
  have hl : ∀ v : State, v.startLanes.tbu = v.tbu ∧ v.startLanes.mem = v.mem := fun v => by simp
  have hm : ∀ v : State, v.memRetrain.tbu = v.tbu := fun v => by simp
  have hc : ∀ v : State, v.applyClocks.tbu = { v.tbu with backup := [] } := fun v =>
    State.fold_keeps State.tbu (fun (v : State) n => v.setWord (0x1024 + n) (v.word (0x1020 + n))) (fun _ _ => rfl) _ _
  unfold State.retuneEnd
  rw [(hl _).1, (hl _).2, hm, hc]
  exact ⟨rfl, rfl, rfl⟩

theorem State.thaw_spec (s : State) : s.thaw.tbu.retune = s.tbu.retune ∧ s.thaw.tbu.holdover = false := by
  simp [State.thaw]

theorem State.slewOff_spec (s : State) (e : Int) :
    (s.slewOff e).tbu.retune = s.tbu.retune ∧ (s.slewOff e).tbu.holdover = s.tbu.holdover := by
  have hw : ∀ (w : State) f z, (w.wrZ f z).tbu = w.tbu := fun w f z => by simp
  unfold State.slewOff
  split
  · exact ⟨rfl, rfl⟩
  · rw [hw]
    exact ⟨rfl, rfl⟩

theorem State.judgeErr_of_noteErr {s v : State} {e : Int} (h : v = s.noteErr e) :
    (s.judgeErr e).tbu.retune = v.tbu.retune ∧ (s.judgeErr e).tbu.holdover = v.tbu.holdover := by
  unfold State.judgeErr
  rw [← h]
  clear h
  dsimp only
  split
  · exact ⟨rfl, rfl⟩
  · split
    · exact v.slewOff_spec e
    · exact ⟨rfl, rfl⟩

theorem State.noteErr_tbu (s : State) (e : Int) : (s.noteErr e).tbu = s.tbu := by simp

/-- The judgement of a time error leaves the retune and the holdover (R452). -/
theorem State.judgeErr_spec (s : State) (e : Int) :
    (s.judgeErr e).tbu.retune = s.tbu.retune ∧ (s.judgeErr e).tbu.holdover = s.tbu.holdover := by
  rw [← s.noteErr_tbu e]
  exact State.judgeErr_of_noteErr rfl

section
variable {t0 : Nat} (hop : s.mgmt.op = some (.retune t0))
include hop

theorem exec_retuneRelock (ht : (s.begin t).clk ≤ t0 + 20000000) (hr : s.tbu.refOk = true) :
    ∃ e, exec (.retuneRelock t) s = .next (((s.begin t).retuneEnd.thaw.draw.2.judgeErr e).endOp 0) := by
  have hop' : (s.begin t).mgmt.op = some (.retune t0) := hop
  have hc : ¬(Nat.blt (t0 + 20000000) (s.begin t).clk || !(s.begin t).tbu.refOk) = true := by
    have hr' : (s.begin t).tbu.refOk = true := hr
    rw [hr', Bool.not_true, Bool.or_false, Nat.blt_eq]
    exact Nat.not_lt.mpr ht
  refine ⟨(((s.begin t).retuneEnd.thaw.draw.1 % (2 * (128000000000 / (s.begin t).retuneEnd.thaw.draw.2.fref) + 1) : Nat) : Int) -
    ((128000000000 / (s.begin t).retuneEnd.thaw.draw.2.fref : Nat) : Int), ?_⟩
  simp only [exec, execRetuneRelock, hop']
  rw [if_neg hc]

theorem retuneRelock_ends (ht : (s.begin t).clk ≤ t0 + 20000000) (hr : s.tbu.refOk = true) :
    Completes (.retuneRelock t) t s (.regs :: .mem :: .tbu :: .free :: evParts) fun u =>
      u.opEnded 0 ∧ u.tbu.retune = false ∧ u.tbu.holdover = false ∧ u.mem.selfRef = false := by
  obtain ⟨e, he⟩ := exec_retuneRelock hop ht hr
  obtain ⟨h1, -, h3⟩ := (s.begin t).retuneEnd_spec
  have hro := Only.retuneEnd (s.begin t)
  generalize (s.begin t).retuneEnd = v at he h1 h3 hro
  have hto := Only.thaw v
  have hth := v.thaw_spec
  generalize v.thaw = w at he hto hth
  have hdo := Only.draw w
  generalize w.draw.2 = x at he hdo
  have hxt : x.tbu = w.tbu := hdo.2.2 .tbu (by decide)
  have hjo := Only.judgeErr x e
  obtain ⟨hj1, hj2⟩ := x.judgeErr_spec e
  have hall : Only [.regs, .mem, .tbu, .lnk, .free] (s.begin t) (x.judgeErr e) :=
    ((hro.trans (hto.mono (by decide))).trans (hdo.mono (by decide))).trans (hjo.mono (by decide))
  have hmem : (x.judgeErr e).mem = v.mem :=
    ((hjo.2.2 .mem (by decide)).trans (hdo.2.2 .mem (by decide))).trans (hto.2.2 .mem (by decide))
  generalize x.judgeErr e = y at he hj1 hj2 hall hmem
  have hym : y.mgmt = s.mgmt := hall.2.2 .mgmt (by decide)
  have hoe := Only.endOp y 0
  have hut : (y.endOp 0).tbu = y.tbu := hoe.2.2 .tbu (by decide)
  refine ⟨_, he, (hall.mono (by decide)).trans (hoe.mono (by decide)),
    (State.endOp_ends (b := y) (by rw [hym]; exact hop) (by decide) rfl rfl rfl).1, ?_, ?_, ?_⟩
  · rw [hut, hj1, hxt, hth.1, h1]
  · rw [hut, hj2, hxt, hth.2]
  · exact (congrArg Mem.selfRef ((hoe.2.2 .mem (by decide)).trans hmem)).trans h3

theorem retuneTimeout_ends (ht : t0 + 20000000 ≤ (s.begin t).clk) :
    Completes (.retuneTimeout t) t s (.regs :: .mem :: .tbu :: .free :: evParts) fun u =>
      u.opEnded 1 ∧ u.tbu.retune = false ∧ u.tbu.holdover = s.tbu.holdover ∧ u.tbu.refOk = false ∧ u.mem.selfRef = false := by
  have hop' : (s.begin t).mgmt.op = some (.retune t0) := hop
  have hc : ¬Nat.blt (s.begin t).clk (t0 + 20000000) = true := by
    rw [Nat.blt_eq]
    exact Nat.not_lt.mpr ht
  have he : exec (.retuneTimeout t) s = .next (((s.begin t).retuneEnd.modTbu fun b =>
      { b with refOk := false, goodSince := none, regood := 0 }).endOp 1) := by
    simp only [exec, execRetuneTimeout, hop']
    rw [if_neg hc]
  obtain ⟨h1, h2, h3⟩ := (s.begin t).retuneEnd_spec
  have hro := Only.retuneEnd (s.begin t)
  generalize (s.begin t).retuneEnd = v at he h1 h2 h3 hro
  have hvm : v.mgmt = s.mgmt := hro.2.2 .mgmt (by decide)
  have hoe := Only.endOp (v.modTbu fun b => { b with refOk := false, goodSince := none, regood := 0 }) 1
  have hut := hoe.2.2 .tbu (by decide)
  refine ⟨_, he, ((hro.mono (by decide)).trans ((Only.modTbu _ _).mono (by decide))).trans (hoe.mono (by decide)),
    (State.endOp_ends (b := v) (v := v.modTbu _) (by rw [← hop, ← hvm]; rfl) (by decide) rfl rfl rfl).1, ?_, ?_, ?_, ?_⟩
  · exact (congrArg Tbu.retune hut).trans h1
  · exact (congrArg Tbu.holdover hut).trans h2
  · exact congrArg Tbu.refOk hut
  · exact (congrArg Mem.selfRef (hoe.2.2 .mem (by decide))).trans h3

end

/-- Settles O13. -/
theorem longOperationsEnd : Obligations.LongOperationsEnd := by
  unfold Obligations.LongOperationsEnd
  refine ⟨fun s t => ⟨fun tgt lib p t0 hits hop hd hp hm => ?_, fun hits hm => completes_of_next (exec_pageLoadDone_waits hm) _,
    fun chal st hop => ?_, fun op a len hop => nvmDone_ends hop (by decide) (exec_nvmDone_timeout hop), fun a len bytes hop => ?_,
    fun a len bytes hop hl => nvmDone_read hop hl, fun subB start count hits hop hm => scrubNowDone_ends hop hm⟩,
    fun s t => ⟨fun code t0 hop ht => profileEofTimeout_ends hop ht, fun code t0 hop => profileSwitch_ends hop,
      fun m t0 hop ht => recalEofTimeout_ends hop ht, fun m t0 elems hop => recalRestart_ends hop,
      fun t0 hop ht hr => retuneRelock_ends hop ht hr, fun t0 hop ht => retuneTimeout_ends hop ht⟩⟩
  · obtain ⟨u, he, ho, hend, htold, hw, hmem, hcap, hq⟩ := pageLoadDone_ends (hits := hits) hop hd hp hm
    refine ⟨u, he, ho, hend, htold, hw, hmem, hcap, fun hv => ?_, fun hv => ?_⟩
    · rw [hq, hv]
      exact s.seq.loaded_pageOf tgt p
    · rw [hq, hv]
      exact s.seq.loaded_failed tgt p
  · obtain ⟨u, he, ho, hend, htold, hst, hf, hsig⟩ := attestDone_ends (t := t) hop
    exact ⟨u, he, ho, hend, htold, hst, hf, hsig⟩
  · refine nvmDone_ends hop ?_ (exec_nvmDone_program hop)
    split <;> decide

end Sys2Proof.Machine

/-! ## Marks and point records at the FSO (R64, R343, R346, R348, R350, R354, R360) -/

namespace Sys2Proof.Machine

variable {s u v : State} {t : Nat}

/-! ### What an operation of one stream leaves of the FSO -/

/-- The instant and the number of the frame stay, FACCEPT pins gate the streams that they gated, and no further partner gates
one. -/
structure State.Quiet (s u : State) : Prop where
  clk : u.clk = s.clk
  tofs : u.tofs = s.tofs
  fcnt : u.fso.fcnt = s.fso.fcnt
  gates : ∀ m q, q ∈ u.gating m → q ∈ s.gating m
  pins : u.word F.FSO_ACCPIN_EN.addr = s.word F.FSO_ACCPIN_EN.addr

/-- And the frame stays open or closed. -/
structure State.Calm (s u : State) : Prop where
  quiet : s.Quiet u
  frameOpen : u.fso.frameOpen = s.fso.frameOpen
  latched : u.fso.latched = s.fso.latched

theorem State.Quiet.refl (s : State) : s.Quiet s := ⟨rfl, rfl, rfl, fun _ _ h => h, rfl⟩

theorem State.Quiet.trans (h : s.Quiet u) (k : u.Quiet v) : s.Quiet v :=
  ⟨k.clk.trans h.clk, k.tofs.trans h.tofs, k.fcnt.trans h.fcnt, fun m q hq => h.gates m q (k.gates m q hq), k.pins.trans h.pins⟩

theorem State.Calm.refl (s : State) : s.Calm s := ⟨State.Quiet.refl s, rfl, rfl⟩

theorem State.Calm.trans (h : s.Calm u) (k : u.Calm v) : s.Calm v :=
  ⟨h.quiet.trans k.quiet, k.frameOpen.trans h.frameOpen, k.latched.trans h.latched⟩

/-- It is calm, and a stream is as before. -/
def State.Spares (k : Nat) (s u : State) : Prop := s.Calm u ∧ u.stream k = s.stream k

theorem State.Spares.refl (k : Nat) (s : State) : State.Spares k s s := ⟨State.Calm.refl s, rfl⟩

theorem State.Spares.trans {k : Nat} (h : State.Spares k s u) (j : State.Spares k u v) : State.Spares k s v :=
  ⟨h.1.trans j.1, j.2.trans h.2⟩

theorem State.stream_of_fso (h : u.fso = s.fso) (k : Nat) : u.stream k = s.stream k := by
  unfold State.stream
  rw [h]

theorem State.gating_of_partners (h : u.lnk.partners = s.lnk.partners) (m : Nat) : u.gating m = s.gating m := by
  unfold State.gating
  rw [h]

/-- What leaves the FSO and the partners spares every stream. -/
theorem State.Spares.of_parts {ps : List Part} (h : Only ps s u) (hc : Part.tofs ∉ ps) (hf : Part.fso ∉ ps)
    (hl : u.lnk.partners = s.lnk.partners) (hw : u.word F.FSO_ACCPIN_EN.addr = s.word F.FSO_ACCPIN_EN.addr) (k : Nat) :
    State.Spares k s u := by
  have hfso : u.fso = s.fso := h.2.2 .fso hf
  exact ⟨⟨⟨h.1, h.2.2 .tofs hc, by rw [hfso], fun m q hq => by rwa [State.gating_of_partners hl] at hq, hw⟩,
    by rw [hfso], by rw [hfso]⟩, State.stream_of_fso hfso k⟩

theorem State.Calm.setStream (s : State) (n : Nat) (x : Stream) : s.Calm (s.setStream n x) := by
  match n with
  | 0 | 1 | 2 | _ + 3 => exact ⟨⟨rfl, rfl, rfl, fun _ _ h => h, rfl⟩, rfl, rfl⟩

theorem State.Spares.setStream {k n : Nat} (hn : n < 4) (hk : k < 4) (h : k ≠ n) (s : State) (x : Stream) :
    State.Spares k s (s.setStream n x) :=
  ⟨State.Calm.setStream s n x, State.stream_setStream_ne s x hn hk h⟩

theorem State.Spares.inc {f : Fld} (h : F.FSO_ACCPIN_EN.addr ≠ f.addr) (k : Nat) (s : State) : State.Spares k s (s.inc f) :=
  State.Spares.of_parts (Only.inc s f) (by decide) (by decide) (by simp) (word_inc_ne _ _ _ h) k

theorem State.Spares.wr {f : Fld} (h : F.FSO_ACCPIN_EN.addr ≠ f.addr) (x : Nat) (k : Nat) (s : State) : State.Spares k s (s.wr f x) :=
  State.Spares.of_parts (Only.wr s f x) (by decide) (by decide) (by simp) (word_wr_ne _ _ _ _ h) k

/-- The partner of which the gating of streams is asked. -/
def Partner.gates (p : Partner) (m : Nat) : Bool := p.atLeast 2 0 && bitOf p.subs m

theorem State.mem_gating (s : State) (m q : Nat) : q ∈ s.gating m ↔ ∃ p, (q, p) ∈ s.lnk.partners ∧ p.gates m = true := by
  unfold State.gating Partner.gates
  rw [List.mem_map]
  constructor
  · rintro ⟨⟨a, p⟩, h, rfl⟩
    exact ⟨p, List.mem_filter.mp h⟩
  · rintro ⟨p, h, hg⟩
    exact ⟨(q, p), List.mem_filter.mpr ⟨h, hg⟩, rfl⟩

theorem mem_of_assoc {α : Type} {l : List (Nat × α)} {n : Nat} {p : α} (h : assoc l n = some p) : (n, p) ∈ l := by
  obtain ⟨e, he, rfl⟩ := Option.map_eq_some_iff.mp h
  have hk := List.find?_some he
  have hm := List.mem_of_find?_eq_some he
  obtain rfl : e.1 = n := by simpa using hk
  exact hm

theorem mem_assocPut {α : Type} {l : List (Nat × α)} {n q : Nat} {p x : α} (h : (q, x) ∈ assocPut l n p) :
    q = n ∧ x = p ∨ (q, x) ∈ l := by
  unfold assocPut at h
  split at h
  · obtain ⟨e, he, hex⟩ := List.mem_map.mp h
    split at hex
    · exact .inl ⟨(congrArg Prod.fst hex).symm, (congrArg Prod.snd hex).symm⟩
    · exact .inr (hex ▸ he)
  · rcases List.mem_append.mp h with h | h
    · exact .inr h
    · exact .inl (Prod.mk.inj (List.mem_singleton.mp h))

/-- A change of a partner's entry that leaves what gates streams leaves the streams that it gates. -/
theorem State.gating_setPtn (s : State) (n : Nat) {p : Partner} (h : ∀ m, p.gates m = (s.ptn n).gates m) {m q : Nat}
    (hq : q ∈ (s.setPtn n p).gating m) : q ∈ s.gating m := by
  rw [State.mem_gating] at hq ⊢
  obtain ⟨x, hx, hg⟩ := hq
  rcases mem_assocPut (l := s.lnk.partners) hx with ⟨rfl, rfl⟩ | hx
  · rw [h m, State.ptn] at hg
    cases ha : assoc s.lnk.partners q with
    | none =>
      rw [ha] at hg
      exact absurd hg (by rw [Bool.not_eq_true]; rfl)
    | some p0 =>
      rw [ha] at hg
      exact ⟨p0, mem_of_assoc ha, hg⟩
  · exact ⟨x, hx, hg⟩

/-- A message to a partner spares every stream. -/
theorem State.Spares.sendDlp (k : Nat) (s : State) (n typ : Nat) (ws : List Word) : State.Spares k s (s.sendDlp n typ ws) := by
  have hf : (s.sendDlp n typ ws).fso = s.fso := by simp
  refine ⟨⟨⟨by simp, by simp, by rw [hf], fun m q hq => ?_, State.sendDlp_word _ _ _ _ _⟩, by rw [hf], by rw [hf]⟩,
    State.stream_of_fso hf k⟩
  exact State.gating_setPtn s n (p := { s.ptn n with
    txSeq := ((s.ptn n).txSeq + 1) % 2 ^ 20, txAt := s.clk,
    sent := ⟨typ, (s.ptn n).txSeq, ws, s.clk⟩ :: (s.ptn n).sent.filter fun x => s.clk ≤ x.time + 4000 }) (fun _ => rfl) hq

theorem State.Spares.sendTo (k : Nat) (s : State) (n typ : Nat) (words : Partner → Option (List Word)) (blk : List Word) (d : Nat) :
    State.Spares k s (s.sendTo n typ words blk d) := by
  unfold State.sendTo
  dsimp only
  split
  · exact State.Spares.refl k s
  · split
    · exact State.Spares.sendDlp ..
    · split
      · exact State.Spares.sendDlp ..
      · exact State.Spares.refl k s

theorem State.Spares.sendFlip (k : Nat) (s : State) (n : Nat) (f : FrmSlot) (d : Nat) : State.Spares k s (s.sendFlip n f d) := by
  unfold State.sendFlip
  split
  · exact State.Spares.sendDlp ..
  · exact State.Spares.refl k s

theorem State.Spares.fold {k : Nat} {α : Type} {f : State → α → State} {l : List α} (h : ∀ s, ∀ x ∈ l, State.Spares k s (f s x))
    (s : State) : State.Spares k s (l.foldl f s) :=
  List.foldlRecOn l f (State.Spares.refl k s) fun w hw x hx => hw.trans (h w x hx)

theorem State.Spares.cmpBlock (k : Nat) (s : State) (n : Nat) (cont : Bool) (ws : List Word) :
    State.Spares k s (s.cmpBlock n cont ws).2 := by
  have ho : Only [.regs, .cmp] s (s.cmpBlock n cont ws).2 :=
    ⟨by simp, by simp, fun p hp => by cases p <;> simp_all [Part.same]⟩
  refine State.Spares.of_parts ho (by decide) (by decide) (by simp) ?_ k
  have hc : ∀ x, (s.setCtx n x).word F.FSO_ACCPIN_EN.addr = s.word F.FSO_ACCPIN_EN.addr := fun x => State.word_of_regs (by simp) _
  unfold State.cmpBlock
  dsimp only
  split
  · rw [word_inc_ne _ _ _ (by decide), hc]
  · exact hc _

theorem State.Spares.sendHeader (k : Nat) (s : State) (n : Nat) (x : Scan) (tflip drops : Nat) :
    State.Spares k s (s.sendHeader n x tflip drops) := by
  have hs : ∀ (l : List Nat) typ words blk (v : State), State.Spares k v (l.foldl (fun s d => s.sendTo n typ words blk d) v) :=
    fun l typ words blk v => State.Spares.fold (fun s d _ => State.Spares.sendTo k s n typ words blk d) v
  unfold State.sendHeader State.sendRecord
  dsimp only
  split
  · exact hs _ _ _ _ _
  · split
    · exact hs _ _ _ _ _
    · split
      · exact (State.Spares.cmpBlock k s _ _ _).trans (hs _ _ _ _ _)
      · exact hs _ _ _ _ _

end Sys2Proof.Machine

namespace Sys2Proof.Machine

variable {s u v : State} {t : Nat}

/-- What spares every stream but one is calm. -/
theorem State.calm_of_spares {n : Nat} (h : ∀ k, k < 4 → k ≠ n → State.Spares k s u) : s.Calm u := by
  by_cases hn : n = 0
  · exact (h 1 (by decide) (by omega)).1
  · exact (h 0 (by decide) (by omega)).1

/-- Where each step of a fold over the streams but one stands in a relation that composes, so do the steps before and after that
one. -/
theorem State.fold_around {R : State → State → Prop} (hr : ∀ s, R s s) (ht : ∀ {a b c}, R a b → R b c → R a c) {k : Nat}
    {f : State → Nat → State} (hk : k < 4) (hf : ∀ s n, n < 4 → k ≠ n → R s (f s n)) (s : State) :
    ∃ v, R s v ∧ R (f v k) ((List.range 4).foldl f s) := by
  obtain ⟨as, bs, hl⟩ := List.append_of_mem (List.mem_range.mpr hk)
  have hd : (as ++ k :: bs).Nodup := hl ▸ List.nodup_range
  have hlt : ∀ n ∈ as ++ k :: bs, n < 4 := fun n hn => List.mem_range.mp (hl ▸ hn)
  obtain ⟨-, hkb, hne⟩ := List.nodup_append.mp hd
  have hka : ∀ n ∈ as, k ≠ n := fun n hn he => hne n hn k List.mem_cons_self he.symm
  have hkb' : ∀ n ∈ bs, k ≠ n := fun n hn he => (List.nodup_cons.mp hkb).1 (he ▸ hn)
  rw [hl, List.foldl_append, List.foldl_cons]
  refine ⟨as.foldl f s, List.foldlRecOn as f (hr s) fun w hw n hn => ht hw (hf w n ?_ (hka n hn)),
    List.foldlRecOn bs f (hr _) fun w hw n hn => ht hw (hf w n ?_ (hkb' n hn))⟩
  · exact hlt n (List.mem_append_left _ hn)
  · exact hlt n (List.mem_append_right _ (List.mem_cons_of_mem _ hn))

theorem State.Spares.fold_around {k : Nat} {f : State → Nat → State} (hk : k < 4)
    (hf : ∀ s n, n < 4 → k ≠ n → State.Spares k s (f s n)) (s : State) :
    ∃ v, State.Spares k s v ∧ State.Spares k (f v k) ((List.range 4).foldl f s) :=
  State.fold_around (State.Spares.refl k) State.Spares.trans hk hf s

theorem State.Calm.fold {α : Type} {f : State → α → State} {l : List α} (h : ∀ s : State, ∀ x ∈ l, s.Calm (f s x)) (s : State) :
    s.Calm (l.foldl f s) :=
  List.foldlRecOn l f (State.Calm.refl s) fun w hw x hx => hw.trans (h w x hx)

/-! ### Slots -/

theorem Stream.slot_setSlot_ne (x : Stream) {i j : Nat} (f : FrmSlot) (hi : i < 3) (hj : j < 3) (h : i ≠ j) :
    (x.setSlot j f).slot i = x.slot i := by
  match i, j with
  | 0, 0 | 1, 1 | 2, 2 => exact absurd rfl h
  | 0, 1 | 0, 2 | 1, 0 | 1, 2 | 2, 0 | 2, 1 => rfl

theorem Stream.find_some {x : Stream} {st : SlotSt} {j : Nat} (h : x.find st = some j) : j < 3 ∧ (x.slot j).st = st :=
  ⟨List.mem_range.mp (List.mem_of_find?_eq_some h), by simpa using List.find?_some h⟩

theorem Stream.find_none {x : Stream} {st : SlotSt} (h : ∀ i, i < 3 → (x.slot i).st ≠ st) : x.find st = none :=
  List.find?_eq_none.mpr fun i hi => by simpa using h i (List.mem_range.mp hi)

/-- A state that one slot alone is in is found there. -/
theorem Stream.find_of_unique {x : Stream} {st : SlotSt} {j : Nat} (hj : j < 3) (hs : (x.slot j).st = st)
    (h : ∀ i, i < 3 → i ≠ j → (x.slot i).st ≠ st) : x.find st = some j := by
  cases hf : x.find st with
  | none => exact absurd (by simpa using hs) (List.find?_eq_none.mp hf j (List.mem_range.mpr hj))
  | some k =>
    obtain ⟨hk, hks⟩ := Stream.find_some hf
    by_cases he : k = j
    · rw [he]
    · exact absurd hks (h k hk he)

/-- A change of a slot leaves the rest of the stream. -/
theorem Stream.setSlot_rest (x : Stream) (k : Nat) (f : FrmSlot) :
    (x.setSlot k f).evAt = x.evAt ∧ (x.setSlot k f).scan = x.scan ∧ (x.setSlot k f).accs = x.accs ∧
    (x.setSlot k f).pinAcc = x.pinAcc := by
  match k with
  | 0 | 1 | _ + 2 => exact ⟨rfl, rfl, rfl, rfl⟩

/-! ### A frame closes in a stream -/

theorem State.Spares.writeLine (k : Nat) (s : State) (n j : Nat) (d : List Word) (l : Nat) :
    State.Spares k s (s.writeLine n j d l) := by
  have ho : Only [.mem] s (s.writeLine n j d l) := ⟨by simp, by simp, fun p hp => by cases p <;> simp_all [Part.same]⟩
  exact State.Spares.of_parts ho (by decide) (by decide) (by simp) (State.word_of_regs (ho.2.2 .regs (by decide)) _) k

theorem State.Spares.dropFrame {k n : Nat} (hn : n < 4) (hk : k < 4) (h : k ≠ n) (s : State) (j : Nat) :
    State.Spares k s (s.dropFrame n j) :=
  (State.Spares.setStream hn hk h s _).trans (State.Spares.inc (by decide) k _)

/-- A stream whose READY frame is dropped for a later one (R348). -/
def Stream.displaced (x : Stream) : Stream :=
  match x.find .ready with
  | some o => ({ x with drops := x.drops + 1 } : Stream).setSlot o { x.slot o with st := .free }
  | none => x

theorem Stream.displaced_rest (x : Stream) :
    x.displaced.evAt = x.evAt ∧ x.displaced.scan = x.scan ∧ x.displaced.accs = x.accs ∧ x.displaced.pinAcc = x.pinAcc := by
  unfold Stream.displaced
  split
  · exact Stream.setSlot_rest _ _ _
  · exact ⟨rfl, rfl, rfl, rfl⟩

/-- The frame being built becomes READY (R348). -/
def Stream.closed (x : Stream) (j : Nat) : Stream := x.displaced.setSlot j { x.displaced.slot j with st := .ready }

theorem Stream.closed_rest (x : Stream) (j : Nat) :
    (x.closed j).evAt = x.evAt ∧ (x.closed j).scan = x.scan ∧ (x.closed j).accs = x.accs ∧ (x.closed j).pinAcc = x.pinAcc := by
  obtain ⟨h1, h2, h3, h4⟩ := x.displaced.setSlot_rest j { x.displaced.slot j with st := .ready }
  obtain ⟨k1, k2, k3, k4⟩ := x.displaced_rest
  exact ⟨h1.trans k1, h2.trans k2, h3.trans k3, h4.trans k4⟩

theorem Stream.closed_slot (x : Stream) (j : Nat) : ((x.closed j).slot j).st = .ready := by
  rw [Stream.closed, Stream.slot_setSlot_same]

/-- Where no other frame was READY, the closed one alone is. -/
theorem Stream.closed_find {x : Stream} {j : Nat} (hj : x.find .asm = some j) (h : ∀ i, i < 3 → i ≠ j → (x.slot i).st ≠ .ready) :
    (x.closed j).find .ready = some j := by
  obtain ⟨hj3, hst⟩ := Stream.find_some hj
  have hd : x.displaced = x := by
    have hn : x.find .ready = none := Stream.find_none fun i hi => by
      by_cases he : i = j
      · rw [he, hst]; decide
      · exact h i hi he
    rw [Stream.displaced, hn]
  refine Stream.find_of_unique hj3 (x.closed_slot j) fun i hi hne => ?_
  rw [Stream.closed, Stream.slot_setSlot_ne _ _ hi hj3 hne, hd]
  exact h i hi hne

theorem State.stream_inc (s : State) (f : Fld) (n : Nat) : (s.inc f).stream n = s.stream n :=
  State.stream_of_fso (by simp) n

theorem State.closeIn_of_none {n : Nat} (h : (s.stream n).find .asm = none) : s.closeIn n = s := by
  simp only [State.closeIn, h]

/-- The lines of a closing frame that have no record are written (log entry 43). -/
def State.bareLines (s : State) (n j : Nat) : State :=
  let f := (s.stream n).slot j
  ((List.range (defWnl f.defn)).filter fun l => (assoc f.lines (defWl0 f.defn + l)).isNone).foldl
    (fun s l => s.writeLine n j f.defn l) s

theorem State.Spares.bareLines (k : Nat) (s : State) (n j : Nat) : State.Spares k s (s.bareLines n j) :=
  State.Spares.fold (fun s l _ => State.Spares.writeLine k s n j _ l) s

theorem State.closeIn_of_some {n j : Nat} (h : (s.stream n).find .asm = some j) :
    s.closeIn n =
      let w := match (s.stream n).find .ready with
        | some o => (s.bareLines n j).dropFrame n o
        | none => s.bareLines n j
      w.setStream n ((w.stream n).setSlot j { (w.stream n).slot j with st := .ready }) := by
  simp only [State.closeIn, h]
  rfl

/-- A frame that closes in one stream spares the others. -/
theorem State.Spares.closeIn {k n : Nat} (hn : n < 4) (hk : k < 4) (h : k ≠ n) (s : State) : State.Spares k s (s.closeIn n) := by
  cases hf : (s.stream n).find .asm with
  | none =>
    rw [State.closeIn_of_none hf]
    exact State.Spares.refl k s
  | some j =>
    rw [State.closeIn_of_some hf]
    refine State.Spares.trans ?_ (State.Spares.setStream hn hk h _ _)
    split
    · exact (State.Spares.bareLines k s n j).trans (State.Spares.dropFrame hn hk h _ _)
    · exact State.Spares.bareLines k s n j

/-- The frame being built in a stream becomes READY, and an older one is dropped (R348). -/
theorem State.closeIn_stream {n j : Nat} (h : (s.stream n).find .asm = some j) :
    (s.closeIn n).stream n = (s.stream n).closed j := by
  have hb : (s.bareLines n j).stream n = s.stream n := (State.Spares.bareLines n s n j).2
  have hd : ∀ o, ((s.bareLines n j).dropFrame n o).stream n =
      ({ s.stream n with drops := (s.stream n).drops + 1 } : Stream).setSlot o { (s.stream n).slot o with st := .free } := fun o => by
    unfold State.dropFrame
    dsimp only
    rw [State.stream_inc, State.stream_setStream_same, hb]
  have hw : (match (s.stream n).find .ready with
      | some o => (s.bareLines n j).dropFrame n o
      | none => s.bareLines n j).stream n = (s.stream n).displaced := by
    unfold Stream.displaced
    split
    · exact hd _
    · exact hb
  rw [State.closeIn_of_some h]
  dsimp only
  rw [State.stream_setStream_same, hw]
  rfl

theorem State.Calm.closeIn {n : Nat} (hn : n < 4) (s : State) : s.Calm (s.closeIn n) :=
  State.calm_of_spares fun _ hk h => State.Spares.closeIn hn hk h s

/-! ### The latch point -/

/-- A stream but for its pending definition. -/
def Stream.core (x : Stream) : Stream := { x with pend := none }

theorem State.wrWords_fso (s : State) (a : Nat) (ws : List Word) : (s.wrWords a ws).fso = s.fso := by simp

/-- Definitions written from 8050h on leave the FACCEPT pins. -/
theorem State.Calm.wrWords (s : State) {a : Nat} (h : F.FSO_ACCPIN_EN.addr < a) (ws : List Word) : s.Calm (s.wrWords a ws) := by
  have ho : Only [.regs] s (s.wrWords a ws) := ⟨by simp, by simp, fun p hp => by cases p <;> simp_all [Part.same]⟩
  refine (State.Spares.of_parts ho (by decide) (by decide) (by simp) ?_ 0).1
  rw [State.wrWords_word, if_neg (Nat.not_le.mpr h)]

/-- Two states agree in every stream but for its pending definition. -/
def State.SameCores (s u : State) : Prop := ∀ k, k < 4 → (u.stream k).core = (s.stream k).core

theorem State.SameCores.trans (h : s.SameCores u) (k : u.SameCores v) : s.SameCores v := fun n hn => (k n hn).trans (h n hn)

theorem State.SameCores.of_fso (h : u.fso = s.fso) : s.SameCores u := fun k _ => congrArg Stream.core (State.stream_of_fso h k)

theorem State.SameCores.setStream (s : State) {n : Nat} (hn : n < 4) {x : Stream} (h : x.core = (s.stream n).core) :
    s.SameCores (s.setStream n x) := by
  intro k hk
  by_cases he : k = n
  · rw [he, State.stream_setStream_same, h]
  · rw [State.stream_setStream_ne s x hn hk he]

theorem State.latchDef_spec (s : State) (next : Nat) {n : Nat} (hn : n < 4) :
    s.Calm (s.latchDef next n) ∧ s.SameCores (s.latchDef next n) := by
  have hw : ∀ (v : State) ws, v.Calm (v.wrWords (0x8050 + 32 * n) ws) ∧ v.SameCores (v.wrWords (0x8050 + 32 * n) ws) := fun v ws =>
    ⟨State.Calm.wrWords v (by simp only [F.FSO_ACCPIN_EN]; omega) ws, State.SameCores.of_fso (State.wrWords_fso _ _ _)⟩
  have hs : ∀ p, s.Calm (s.setStream n { s.stream n with pend := p }) ∧ s.SameCores (s.setStream n { s.stream n with pend := p }) :=
    fun p => ⟨State.Calm.setStream _ _ _, State.SameCores.setStream s hn rfl⟩
  have hr : s.Calm s ∧ s.SameCores s := ⟨State.Calm.refl s, fun _ _ => rfl⟩
  have ht : ∀ {a b c : State}, a.Calm b ∧ a.SameCores b → b.Calm c ∧ b.SameCores c → a.Calm c ∧ a.SameCores c :=
    fun h k => ⟨h.1.trans k.1, h.2.trans k.2⟩
  unfold State.latchDef
  dsimp only
  split
  · exact hr
  · split
    · exact hr
    · split
      · split
        · split
          · exact ht (hs _) (hw _ _)
          · exact hs _
        · exact hs _
      · exact ht (hs _) (hw _ _)

theorem State.sendChain_partners (s : State) (side : ChainSide) (typ : Nat) (p : List Nat) :
    (s.sendChain side typ p).lnk.partners = s.lnk.partners := by
  unfold State.sendChain
  split
  · cases side <;> rfl
  · rfl

theorem State.Calm.latchSnap (s : State) : s.Calm s.latchSnap := by
  have ho : Only [.regs, .lnk, .tbu, .out] s s.latchSnap := ⟨by simp, by simp, fun p hp => by cases p <;> simp_all [Part.same]⟩
  have hp : s.latchSnap.lnk.partners = s.lnk.partners ∧
      s.latchSnap.word F.FSO_ACCPIN_EN.addr = s.word F.FSO_ACCPIN_EN.addr := by
    unfold State.latchSnap
    split
    · exact ⟨rfl, rfl⟩
    · dsimp only
      refine ⟨(State.sendChain_partners _ _ _ _).trans (by simp), ?_⟩
      rw [State.word_of_regs ((Only.sendChain _ _ _ _).2.2 .regs (by decide)), State.wrWide_word _ _ _ _ (by decide),
        State.wrWide_word _ _ _ _ (by decide), modTbu_word]
  exact (State.Spares.of_parts ho (by decide) (by decide) hp.1 hp.2 0).1

theorem State.latchSnap_fso (s : State) : s.latchSnap.fso = s.fso := by simp

theorem State.latchDefs_fold (next : Nat) : ∀ (l : List Nat), (∀ n ∈ l, n < 4) → ∀ s : State,
    s.Calm (l.foldl (fun s n => s.latchDef next n) s) ∧ s.SameCores (l.foldl (fun s n => s.latchDef next n) s) := by
  intro l
  induction l with
  | nil => exact fun _ s => ⟨State.Calm.refl s, fun _ _ => rfl⟩
  | cons n l ih =>
    intro hl s
    obtain ⟨hc, hs⟩ := s.latchDef_spec next (hl n List.mem_cons_self)
    obtain ⟨kc, ks⟩ := ih (fun m hm => hl m (List.mem_cons_of_mem _ hm)) (s.latchDef next n)
    exact ⟨hc.trans kc, hs.trans ks⟩

theorem State.latched_fso (s : State) :
    ((s.modFso fun f => { f with latched := true }).latchSnap).fso = { s.fso with latched := true } := by
  rw [State.latchSnap_fso]
  rfl

theorem State.latched_quiet (s : State) : s.Quiet ((s.modFso fun f => { f with latched := true }).latchSnap) := by
  have h : s.Quiet (s.modFso fun f => { f with latched := true }) := ⟨rfl, rfl, rfl, fun _ _ h => h, rfl⟩
  exact h.trans (State.Calm.latchSnap _).quiet

/-- The latch point lets streams be, but for their pending definitions (R348, R354). -/
theorem State.latchDefs_spec (s : State) :
    s.Quiet s.latchDefs ∧ s.latchDefs.fso.frameOpen = s.fso.frameOpen ∧ s.latchDefs.fso.latched = true ∧ s.SameCores s.latchDefs := by
  obtain ⟨hc, hs⟩ := State.latchDefs_fold (s.fso.fcnt + 1) (List.range 4) (fun n hn => List.mem_range.mp hn) s
  unfold State.latchDefs
  dsimp only
  generalize (List.range 4).foldl (fun w n => State.latchDef w (s.fso.fcnt + 1) n) s = v at hc hs ⊢
  have hf := v.latched_fso
  refine ⟨hc.quiet.trans v.latched_quiet, ?_, by rw [hf], hs.trans fun k hk => ?_⟩
  · rw [hf]
    exact hc.frameOpen
  · unfold State.stream
    rw [hf]

end Sys2Proof.Machine

namespace Sys2Proof.Machine

variable {s u v : State} {t : Nat}

/-! ### Flips -/

theorem State.Spares.flip {k n : Nat} (hn : n < 4) (hk : k < 4) (h : k ≠ n) (s : State) (skip : List Nat) :
    State.Spares k s (s.flip n skip) := by
  unfold State.flip
  dsimp only
  split
  · exact State.Spares.refl k s
  · exact (State.Spares.setStream hn hk h _ _).trans ((State.Spares.fold (fun s d _ => State.Spares.sendFlip k s n _ d) _).trans
      (State.Spares.sendHeader k _ n _ _ _))

theorem Stream.slot_eq_of_slots {x y : Stream} {k : Nat} (h0 : x.s0 = y.s0) (h1 : x.s1 = y.s1) (h2 : x.s2 = y.s2) :
    x.slot k = y.slot k := by
  unfold Stream.slot
  rw [h0, h1, h2]

/-- The READY frame of a stream becomes the one scanned out (R350). -/
theorem State.flip_stream {n j : Nat} (h : (s.stream n).find .ready = some j) (skip : List Nat) :
    (((s.flip n skip).stream n).slot j).st = .scan ∧ (((s.flip n skip).stream n).slot j).tflip = s.now := by
  have hsend : ∀ (v : State) (l : List Nat) f x a b,
      ((l.foldl (fun s d => s.sendFlip n f d) v).sendHeader n x a b).stream n = v.stream n := fun v l f x a b =>
    ((State.Spares.fold (fun s d _ => State.Spares.sendFlip n s n f d) v).trans (State.Spares.sendHeader n _ n x a b)).2
  unfold State.flip
  dsimp only
  rw [h]
  dsimp only
  rw [hsend, State.stream_setStream_same]
  have hslot := (Stream.slot_eq_of_slots (k := j) rfl rfl rfl :
    Stream.slot { (s.stream n).setSlot j { (s.stream n).slot j with st := .scan, tflip := s.now } with
      scan := some { (default : Scan) with
        slot := j, gen := ((s.stream n).slot j).gen, fcnt := ((s.stream n).slot j).fcnt, defn := ((s.stream n).slot j).defn,
        timejump := ((s.stream n).slot j).timejump, dests := s.destsOf n skip },
      flipAt := s.clk, accs := [], pinAcc := false, waitAt := none, drops := 0 } j = _).trans (Stream.slot_setSlot_same _ j _)
  exact ⟨congrArg FrmSlot.st hslot, congrArg FrmSlot.tflip hslot⟩

theorem State.Spares.eventAt {k n : Nat} (hn : n < 4) (hk : k < 4) (h : k ≠ n) (s : State) (inst : Nat) :
    State.Spares k s (s.eventAt inst n) := by
  have hready : ∀ (v : State) (c : Bool) (x : Stream),
      State.Spares k v (if c then v else (v.setStream n x).inc F.FSO_NOFRAME_COUNT) := fun v c x => by
    split
    · exact State.Spares.refl k v
    · exact (State.Spares.setStream hn hk h v x).trans (State.Spares.inc (by decide) k _)
  have hbusy : ∀ (v : State) (c : Bool), State.Spares k v (if c then v.inc F.FSO_BUSYEV_COUNT else v) := fun v c => by
    split
    · exact State.Spares.inc (by decide) k v
    · exact State.Spares.refl k v
  have hlast : ∀ (v : State) (c d : Prop) [Decidable c] [Decidable d] (x : Stream), State.Spares k s v →
      State.Spares k s (if c then v else if d then v.flip n [] else v.setStream n x) := fun v c d _ _ x hv => by
    split
    · exact hv
    · split
      · exact hv.trans (State.Spares.flip hn hk h _ _)
      · exact hv.trans (State.Spares.setStream hn hk h _ _)
  unfold State.eventAt
  dsimp only
  split
  · exact State.Spares.refl k s
  · exact hlast _ _ _ _ ((hready s _ _).trans (hbusy _ _))

theorem State.Spares.eventAgain {k n : Nat} (hn : n < 4) (hk : k < 4) (h : k ≠ n) (s : State) : State.Spares k s (s.eventAgain n) := by
  unfold State.eventAgain
  split
  · exact State.Spares.refl k s
  · dsimp only
    split
    · exact State.Spares.refl k s
    · refine State.Spares.trans ?_ (State.Spares.eventAt hn hk h _ _)
      split
      · exact (State.Spares.setStream hn hk h _ _).trans (State.Spares.wr (by decide) _ k _)
      · exact State.Spares.setStream hn hk h _ _

theorem State.Calm.eventAgain {n : Nat} (hn : n < 4) (s : State) : s.Calm (s.eventAgain n) :=
  State.calm_of_spares fun _ hk h => State.Spares.eventAgain hn hk h s

/-- Where the last event without a frame was not at this instant, nothing happens. -/
theorem State.eventAgain_of_past {n : Nat} (h : ∀ e, (s.stream n).evAt = some e → e.1 ≠ s.clk) : s.eventAgain n = s := by
  unfold State.eventAgain
  split
  · rfl
  · rename_i c inst cnt he
    have hc : (c != s.clk) = true := by simpa using h _ he
    rw [hc, Bool.true_or, if_pos rfl]

/-- No acceptance is missing where none was. -/
theorem State.Quiet.missing {n : Nat} (h : s.Quiet u) (ha : (u.stream n).accs = (s.stream n).accs)
    (hp : (u.stream n).pinAcc = (s.stream n).pinAcc) (hm : s.missing n = ([], false)) : u.missing n = ([], false) := by
  obtain ⟨hf, hb⟩ := Prod.mk.inj hm
  refine Prod.ext ?_ ?_
  · refine List.filter_eq_nil_iff.mpr fun q hq => ?_
    rw [ha]
    exact List.filter_eq_nil_iff.mp hf q (h.gates n q hq)
  · rw [← hb]
    simp only [State.missing, State.pinGates, State.rd, h.pins, hp]

/-- An event at a stream whose frame is READY, while none is scanned out and no acceptance is missing, flips it (R350). -/
theorem State.eventAt_flips {n j : Nat} (inst : Nat) (hr : (s.stream n).find .ready = some j) (hs : (s.stream n).scan = none)
    (hm : s.missing n = ([], false)) : s.eventAt inst n = s.flip n [] := by
  obtain ⟨hj, hst⟩ := Stream.find_some hr
  have hany : ((List.range 3).any fun k => ((s.stream n).slot k).st != .free) = true :=
    List.any_eq_true.mpr ⟨j, List.mem_range.mpr hj, by rw [hst]; rfl⟩
  simp only [State.eventAt, hany, hr, hs, hm, Bool.or_true, Bool.not_true, Option.isSome_some, Option.isSome_none,
    Bool.false_eq_true, if_false, if_true, Bool.or_false, List.isEmpty_nil, Bool.not_false, Bool.and_self]

theorem State.eventAgain_flips {n j inst cnt : Nat} (he : (s.stream n).evAt = some (s.clk, inst, cnt))
    (hr : (s.stream n).find .ready = some j) (hs : (s.stream n).scan = none) (hm : s.missing n = ([], false)) :
    (((s.eventAgain n).stream n).slot j).st = .scan ∧ (((s.eventAgain n).stream n).slot j).tflip = s.now := by
  obtain ⟨v, hv, hc, hx⟩ : ∃ v, s.eventAgain n = v.eventAt inst n ∧ s.Calm v ∧ v.stream n = { s.stream n with evAt := none } := by
    have hset := State.Calm.setStream s n { s.stream n with evAt := none }
    have hcond : ((s.clk != s.clk || ((s.stream n).find .ready).isNone)) = false := by simp [hr]
    simp only [State.eventAgain, he, hcond]
    refine ⟨_, rfl, ?_, ?_⟩
    · split
      · exact hset.trans (State.Spares.wr (by decide) _ 0 _).1
      · exact hset
    · split
      · rw [State.stream_of_fso (s := s.setStream n { s.stream n with evAt := none }) (by simp), State.stream_setStream_same]
      · exact State.stream_setStream_same _ _ _
  have hfind : (v.stream n).find .ready = some j := by rw [hx]; exact hr
  have hmiss : v.missing n = ([], false) := hc.quiet.missing (by rw [hx]) (by rw [hx]) hm
  have hnow : v.now = s.now := by unfold State.now; rw [hc.quiet.clk, hc.quiet.tofs]
  rw [hv, State.eventAt_flips inst hfind (by rw [hx]; exact hs) hmiss, ← hnow]
  exact State.flip_stream hfind []

end Sys2Proof.Machine

namespace Sys2Proof.Machine

variable {s u v : State} {t : Nat}

/-! ### The open frame closes -/

/-- The latch point of a frame that has just been closed in its streams. -/
def State.latchClosed (s : State) : State := (s.modFso fun f => { f with frameOpen := false }).latchDefs

theorem State.latchClosed_spec (s : State) :
    s.Quiet s.latchClosed ∧ s.latchClosed.fso.frameOpen = false ∧ s.latchClosed.fso.latched = true ∧ s.SameCores s.latchClosed := by
  obtain ⟨hq, ho, hl, hc⟩ := (s.modFso fun f => { f with frameOpen := false }).latchDefs_spec
  have h : s.Quiet (s.modFso fun f => { f with frameOpen := false }) := ⟨rfl, rfl, rfl, fun _ _ h => h, rfl⟩
  exact ⟨h.trans hq, ho, hl, hc⟩

theorem State.closeFrame_eq (s : State) :
    s.closeFrame = (List.range 4).foldl State.eventAgain ((List.range 4).foldl State.closeIn s).latchClosed := rfl

/-- The frame is closed, latched, and keeps its number. -/
theorem State.closeFrame_frameOpen (s : State) :
    s.Quiet s.closeFrame ∧ s.closeFrame.fso.frameOpen = false ∧ s.closeFrame.fso.latched = true := by
  rw [State.closeFrame_eq]
  have hc := State.Calm.fold (l := List.range 4) (fun s n hn => State.Calm.closeIn (List.mem_range.mp hn) s) s
  obtain ⟨hq, ho, hl, -⟩ := ((List.range 4).foldl State.closeIn s).latchClosed_spec
  have he := State.Calm.fold (l := List.range 4) (fun s n hn => State.Calm.eventAgain (List.mem_range.mp hn) s)
    ((List.range 4).foldl State.closeIn s).latchClosed
  exact ⟨(hc.quiet.trans hq).trans he.quiet, he.frameOpen.trans ho, he.latched.trans hl⟩

/-- What the frame of a stream that is being built becomes: READY, then what an event of this instant makes of it. -/
theorem State.closeFrame_stream {k j : Nat} (hk : k < 4) (h : (s.stream k).find .asm = some j) :
    ∃ v, s.Quiet v ∧ (v.stream k).core = ((s.stream k).closed j).core ∧
      s.closeFrame.stream k = (v.eventAgain k).stream k := by
  obtain ⟨a, ha, hb⟩ := State.Spares.fold_around (f := State.closeIn) hk (fun s n hn hne => State.Spares.closeIn hn hk hne s) s
  obtain ⟨hq, -, -, hc⟩ := ((List.range 4).foldl State.closeIn s).latchClosed_spec
  obtain ⟨v, hv, hw⟩ := State.Spares.fold_around (f := State.eventAgain) hk (fun s n hn hne => State.Spares.eventAgain hn hk hne s)
    ((List.range 4).foldl State.closeIn s).latchClosed
  have hcl := State.Calm.fold (l := List.range 4) (fun s n hn => State.Calm.closeIn (List.mem_range.mp hn) s) s
  refine ⟨v, (hcl.quiet.trans hq).trans hv.1.quiet, ?_, hw.2⟩
  rw [hv.2, hc k hk, hb.2, State.closeIn_stream (by rw [ha.2]; exact h), ha.2]

theorem Stream.slot_of_core {x y : Stream} (h : x.core = y.core) (k : Nat) : x.slot k = y.slot k :=
  Stream.slot_eq_of_slots (congrArg (·.s0) h :) (congrArg (·.s1) h :) (congrArg (·.s2) h :)

theorem Stream.find_of_core {x y : Stream} (h : x.core = y.core) (st : SlotSt) : x.find st = y.find st := by
  unfold Stream.find
  simp only [Stream.slot_of_core h]

theorem Stream.evAt_of_core {x y : Stream} (h : x.core = y.core) : x.evAt = y.evAt := (congrArg Stream.evAt h :)

theorem Stream.scan_of_core {x y : Stream} (h : x.core = y.core) : x.scan = y.scan := (congrArg Stream.scan h :)

theorem Stream.accs_of_core {x y : Stream} (h : x.core = y.core) : x.accs = y.accs ∧ x.pinAcc = y.pinAcc :=
  ⟨(congrArg Stream.accs h :), (congrArg Stream.pinAcc h :)⟩

/-- The closed frame is READY where no event without a frame came at this instant (R348). -/
theorem State.closeFrame_ready {k j : Nat} (hk : k < 4) (h : (s.stream k).find .asm = some j)
    (he : ∀ e, (s.stream k).evAt = some e → e.1 ≠ s.clk) : ((s.closeFrame.stream k).slot j).st = .ready := by
  obtain ⟨v, hq, hc, hu⟩ := State.closeFrame_stream hk h
  have hev : (v.stream k).evAt = (s.stream k).evAt := (Stream.evAt_of_core hc).trans ((s.stream k).closed_rest j).1
  rw [hu, State.eventAgain_of_past (fun e hx => by rw [hq.clk]; exact he e (hev ▸ hx)), Stream.slot_of_core hc,
    Stream.closed_slot]

/-- It is flipped where one did, no frame is scanned out, no acceptance is missing and no other frame was READY (R360). -/
theorem State.closeFrame_flips {k j inst cnt : Nat} (hk : k < 4) (h : (s.stream k).find .asm = some j)
    (he : (s.stream k).evAt = some (s.clk, inst, cnt)) (hs : (s.stream k).scan = none) (hm : s.missing k = ([], false))
    (ho : ∀ i, i < 3 → i ≠ j → ((s.stream k).slot i).st ≠ .ready) :
    ((s.closeFrame.stream k).slot j).st = .scan ∧ ((s.closeFrame.stream k).slot j).tflip = s.now := by
  obtain ⟨v, hq, hc, hu⟩ := State.closeFrame_stream hk h
  obtain ⟨hev, hsc, ha, hp⟩ := (s.stream k).closed_rest j
  obtain ⟨hca, hcp⟩ := Stream.accs_of_core hc
  rw [hu, ← now_of hq.clk hq.tofs]
  refine State.eventAgain_flips (inst := inst) (cnt := cnt) ?_ ?_ ?_ (hq.missing (hca.trans ha) (hcp.trans hp) hm)
  · rw [Stream.evAt_of_core hc, hev, he, hq.clk]
  · rw [Stream.find_of_core hc, Stream.closed_find h ho]
  · rw [Stream.scan_of_core hc, hsc, hs]

end Sys2Proof.Machine

namespace Sys2Proof.Machine

variable {s u v : State} {t : Nat} {m : Mark} {ms : List Mark} {n : Nat}

/-! ### The mark at the FSO -/

theorem State.markAtFso_of (hs : s.seq.marks = m :: ms) (hn : m.ord = some n) (hr : s.resultsBefore n = false) :
    s.markAtFso = some m := by
  simp [State.markAtFso, hs, hn, hr]

theorem State.passFirst_of_nil (h : s.toPass = []) (has : Mark → Bool) : s.passFirst has = s := by
  unfold State.passFirst
  rw [h]

/-- The EOL of a mark at the FSO is not taken where it has none, or while its SOF is to come. -/
theorem State.settleEol_of_mark (h : s.markAtFso = some m) (he : (m.eol && !m.sof) = false) : s.settleEol = s := by
  unfold State.settleEol
  rw [h]
  dsimp only
  rw [he, if_neg Bool.false_ne_true]

/-- The EOL of a mark at the FSO gives its TAG, and the mark stays for its EOF (R64, R353). -/
theorem State.settleEol_of_eol (hs : s.seq.marks = m :: ms) (h : s.markAtFso = some m) (he : m.eol = true) (hf : m.sof = false) :
    s.settleEol = s.modSeq fun _ =>
      { s.seq with tag := m.tag, marks := if m.eof then { m with eol := false } :: ms else ms } := by
  simp [State.settleEol, h, he, hf, State.setHead, State.modSeq, hs]

/-- EOL at the FSO (R64, R353). -/
theorem eol_at_fso (hs : s.seq.marks = m :: ms) (hn : m.ord = some n) (hp : s.toPass = []) (hr : s.resultsBefore n = false)
    (he : m.eol = true) (hf : m.sof = false) :
    Completes (.eol t) t s [.seq] fun u =>
      u.seq = { s.seq with tag := m.tag, marks := if m.eof then { m with eol := false } :: ms else ms } := by
  have hx : exec (.eol t) s = .next ((s.begin t).modSeq fun _ =>
      { s.seq with tag := m.tag, marks := if m.eof then { m with eol := false } :: ms else ms }) := by
    show Host.Outcome.next (((s.begin t).passFirst Mark.eol).settleEol) = _
    rw [State.passFirst_of_nil (s := s.begin t) hp, State.settleEol_of_eol (s := s.begin t) hs (State.markAtFso_of hs hn hr) he hf]
    rfl
  exact ⟨_, hx, Only.modSeq _ _, rfl⟩

theorem Only.closeFrame (s : State) : Only [.regs, .fso, .cmp, .mem, .lnk, .tbu, .out] s s.closeFrame :=
  ⟨by simp, by simp, fun p hp => by cases p <;> simp_all [Part.same]⟩

theorem Only.openFrame (s : State) : Only [.regs, .fso] s s.openFrame :=
  ⟨by simp, by simp, fun p hp => by cases p <;> simp_all [Part.same]⟩

/-- EOF at the FSO takes the frame's last mark and closes it. -/
theorem execEof_next (hs : s.seq.marks = m :: ms) (hn : m.ord = some n) (hp : s.toPass = []) (hr : s.resultsBefore n = false)
    (he : m.eof = true) (hf : m.sof = false) (hl : m.eol = false) (ho : s.fso.frameOpen = true) :
    exec (.eof t) s = .next ((s.begin t).modSeq fun q => { q with marks := q.marks.tail }).closeFrame := by
  have hm : (s.begin t).markAtFso = some m := State.markAtFso_of (s := s.begin t) hs hn hr
  have hset : (s.begin t).setHead { m with eof := false } = (s.begin t).modSeq fun q => { q with marks := q.marks.tail } := by
    unfold State.setHead
    simp only [hf, hl, Bool.or_self, Bool.false_eq_true, if_false]
  show execEof t s = _
  unfold execEof
  rw [State.passFirst_of_nil (s := s.begin t) hp, State.settleEol_of_mark hm (by rw [hl]; rfl)]
  dsimp only
  rw [hm]
  dsimp only
  rw [hset, he, hf, hl, if_pos (by rfl)]
  exact congrArg Host.Outcome.next (if_pos ho)

theorem eof_closes (hs : s.seq.marks = m :: ms) (hn : m.ord = some n) (hp : s.toPass = []) (hr : s.resultsBefore n = false)
    (he : m.eof = true) (hf : m.sof = false) (hl : m.eol = false) (ho : s.fso.frameOpen = true) :
    Completes (.eof t) t s [.regs, .seq, .fso, .cmp, .mem, .lnk, .tbu, .out] fun u =>
      u.fso.frameOpen = false ∧ u.fso.latched = true ∧ u.fso.fcnt = s.fso.fcnt ∧ u.seq.marks = ms ∧
      ∀ k j, k < 4 → (s.stream k).find .asm = some j →
        ((∀ e, (s.stream k).evAt = some e → e.1 ≠ (s.begin t).clk) → ((u.stream k).slot j).st = .ready) ∧
        (∀ inst cnt, (s.stream k).evAt = some ((s.begin t).clk, inst, cnt) → (s.stream k).scan = none →
          s.missing k = ([], false) → (∀ i, i < 3 → i ≠ j → ((s.stream k).slot i).st ≠ .ready) →
          ((u.stream k).slot j).st = .scan ∧ ((u.stream k).slot j).tflip = (s.begin t).now) := by
  obtain ⟨b, hb⟩ : ∃ b, b = (s.begin t).modSeq fun q => { q with marks := q.marks.tail } := ⟨_, rfl⟩
  have hstr : ∀ k, b.stream k = s.stream k := fun k => by rw [hb]; rfl
  have hmiss : ∀ k, b.missing k = s.missing k := fun k => by rw [hb]; rfl
  have hclk : b.clk = (s.begin t).clk := by rw [hb]; rfl
  have hnow : b.now = (s.begin t).now := by rw [hb]; rfl
  have hx := execEof_next (t := t) hs hn hp hr he hf hl ho
  rw [← hb] at hx
  have honly : Only [.seq] (s.begin t) b := hb ▸ Only.modSeq _ _
  obtain ⟨hq, hopen, hlat⟩ := b.closeFrame_frameOpen
  refine ⟨_, hx, honly.comp (Only.closeFrame b) (by simp) (by simp), hopen, hlat, ?_, ?_, fun k j hk hj => ⟨fun h => ?_, ?_⟩⟩
  · rw [hq.fcnt, hb]
    rfl
  · rw [(Only.closeFrame b).2.2 .seq (by decide), hb]
    exact congrArg List.tail hs
  · exact State.closeFrame_ready hk ((hstr k).symm ▸ hj) fun e h' => hclk ▸ h e (hstr k ▸ h')
  · intro inst cnt hev hsc hm hot
    rw [← hnow]
    exact State.closeFrame_flips hk ((hstr k).symm ▸ hj) (by rw [hstr, hclk, hev]) (by rw [hstr, hsc]) (by rw [hmiss, hm])
      (by rw [hstr]; exact hot)

end Sys2Proof.Machine

namespace Sys2Proof.Machine

variable {s u v : State} {t : Nat} {m : Mark} {ms : List Mark} {n : Nat}

/-! ### A frame opens -/

theorem State.Spares.takeSlot {k n : Nat} (hn : n < 4) (hk : k < 4) (h : k ≠ n) (s : State) (j : Nat) (tj : Bool) :
    State.Spares k s (s.takeSlot n j tj) :=
  State.Spares.setStream hn hk h s _

theorem State.Spares.openIn {k n : Nat} (hn : n < 4) (hk : k < 4) (h : k ≠ n) (s : State) (tj : Bool) :
    State.Spares k s (s.openIn tj n) := by
  unfold State.openIn
  dsimp only
  split
  · exact State.Spares.refl k s
  · split
    · exact State.Spares.takeSlot hn hk h s _ tj
    · split
      · exact (State.Spares.dropFrame hn hk h s _).trans (State.Spares.takeSlot hn hk h _ _ tj)
      · exact State.Spares.inc (by decide) k s

theorem State.Calm.openIn {n : Nat} (hn : n < 4) (s : State) (tj : Bool) : s.Calm (s.openIn tj n) :=
  State.calm_of_spares fun _ hk h => State.Spares.openIn hn hk h s tj

theorem State.openIn_word (s : State) (tj : Bool) (n : Nat) {a : Nat} (hd : a ≠ F.FSO_DROP_COUNT.addr)
    (hb : a ≠ F.FSO_NOBUF_COUNT.addr) : (s.openIn tj n).word a = s.word a := by
  have ht : ∀ (w : State) j, (w.takeSlot n j tj).word a = w.word a := fun w j => State.word_of_regs (by simp) a
  unfold State.openIn
  dsimp only
  split
  · rfl
  · split
    · exact ht _ _
    · split
      · rw [ht, State.dropFrame, word_inc_ne _ _ _ hd]
        exact State.word_of_regs (by simp) a
      · exact word_inc_ne _ _ _ hb

/-- Where slot 0 of a stream is FREE and no frame is pinned, the new frame takes it (R348). -/
theorem State.openIn_free (hon : s.streamOn n = true) (hp : (s.stream n).pin = none) (hf : (s.stream n).find .free = some 0)
    (tj : Bool) : s.openIn tj n = s.takeSlot n 0 tj := by
  have hst := (Stream.find_some hf).2
  have h0 : ((List.range 3).find? fun k => ((s.stream n).slot k).st == .free && (s.stream n).pin != some k) = some 0 :=
    List.find?_cons_of_pos (by rw [hst, hp]; rfl)
  simp only [State.openIn, hon, Bool.not_true, Bool.false_eq_true, if_false, h0]

theorem State.takeSlot_slot (s : State) (n j : Nat) (tj : Bool) :
    (((s.takeSlot n j tj).stream n).slot j).st = .asm ∧ (((s.takeSlot n j tj).stream n).slot j).fcnt = s.fso.fcnt := by
  unfold State.takeSlot
  dsimp only
  rw [State.stream_setStream_same, Stream.slot_setSlot_same]
  exact ⟨rfl, rfl⟩

/-- The state in which the streams take their slots for the new frame. -/
def State.newFrame (s : State) : State :=
  s.modFso fun f => { f with fcnt := (f.fcnt + 1) % 2 ^ 60, frameOpen := true, latched := false, timejump := false }

theorem State.openFrame_eq (s : State) :
    s.openFrame = (List.range 4).foldl (fun w n => State.openIn w s.fso.timejump n) s.newFrame := rfl

theorem State.openFrame_opens (s : State) :
    s.openFrame.fso.frameOpen = true ∧ s.openFrame.fso.latched = false ∧ s.openFrame.fso.fcnt = (s.fso.fcnt + 1) % 2 ^ 60 := by
  have hc := State.Calm.fold (l := List.range 4)
    (fun w n hn => State.Calm.openIn (List.mem_range.mp hn) w s.fso.timejump) s.newFrame
  rw [State.openFrame_eq]
  exact ⟨hc.frameOpen, hc.latched, hc.quiet.fcnt⟩

/-- A stream with its slot 0 FREE and no frame pinned builds the new frame there. -/
theorem State.openFrame_slot {k : Nat} (hk : k < 4) (hon : s.streamOn k = true) (hp : (s.stream k).pin = none)
    (hf : (s.stream k).find .free = some 0) :
    ((s.openFrame.stream k).slot 0).st = .asm ∧ ((s.openFrame.stream k).slot 0).fcnt = s.openFrame.fso.fcnt := by
  obtain ⟨v, ⟨hv, hword⟩, hu, -⟩ := State.fold_around
    (R := fun a b => State.Spares k a b ∧ b.word (0x8050 + 32 * k) = a.word (0x8050 + 32 * k))
    (fun w => ⟨State.Spares.refl k w, rfl⟩) (fun h j => ⟨h.1.trans j.1, j.2.trans h.2⟩)
    (f := fun w n => State.openIn w s.fso.timejump n) hk
    (fun w n hn hne => ⟨State.Spares.openIn hn hk hne w _, State.openIn_word w _ n (by simp only [F.FSO_DROP_COUNT]; omega)
      (by simp only [F.FSO_NOBUF_COUNT]; omega)⟩) s.newFrame
  have hstr : v.stream k = s.stream k := hv.2
  have hvon : v.streamOn k = true := by
    rw [← hon, State.streamOn, hword]
    rfl
  obtain ⟨hst, hfc⟩ := v.takeSlot_slot k 0 s.fso.timejump
  rw [State.openFrame_eq, hu.2, State.openIn_free hvon (hstr ▸ hp) (hstr ▸ hf)]
  refine ⟨hst, hfc.trans ?_⟩
  rw [← State.openFrame_eq, s.openFrame_opens.2.2]
  exact hv.1.quiet.fcnt

/-- The state in which the SOF of the head mark has been taken. -/
def State.sofTaken (s : State) (m : Mark) : State := (s.modSeq fun q => { q with tag := m.tag }).setHead { m with sof := false }

theorem Only.sofTaken (s : State) (m : Mark) : Only [.seq] s (s.sofTaken m) :=
  (Only.modSeq s _).comp (Only.modSeq _ _) (by simp) (by simp)

/-- And its open frame, where there is one, closed. -/
def State.closeOld (s : State) : State := if s.fso.frameOpen then s.closeFrame else s

theorem State.closeOld_quiet (s : State) : s.Quiet s.closeOld ∧ Only [.regs, .fso, .cmp, .mem, .lnk, .tbu, .out] s s.closeOld := by
  unfold State.closeOld
  split
  · exact ⟨s.closeFrame_frameOpen.1, Only.closeFrame s⟩
  · exact ⟨State.Quiet.refl s, rfl, rfl, fun p _ => by cases p <;> rfl⟩

theorem execSof_next (hs : s.seq.marks = m :: ms) (hn : m.ord = some n) (hp : s.toPass = []) (hr : s.resultsBefore n = false)
    (hf : m.sof = true) (hd : s.ready = true) : exec (.sof t) s = .next (((s.begin t).sofTaken m).closeOld).openFrame := by
  have hm : (s.begin t).markAtFso = some m := State.markAtFso_of (s := s.begin t) hs hn hr
  have hready : ((s.begin t).sofTaken m).ready = true := hd
  show execSof t s = _
  unfold execSof
  rw [State.passFirst_of_nil (s := s.begin t) hp, State.settleEol_of_mark hm (by rw [hf, Bool.not_true, Bool.and_false])]
  dsimp only
  rw [hm]
  dsimp only
  rw [if_pos hf, ← State.sofTaken, State.sofAtFso, hready]
  rfl

theorem sof_opens (hs : s.seq.marks = m :: ms) (hn : m.ord = some n) (hp : s.toPass = []) (hr : s.resultsBefore n = false)
    (hf : m.sof = true) (hd : s.ready = true) :
    Completes (.sof t) t s [.regs, .seq, .fso, .cmp, .mem, .lnk, .tbu, .out] fun u =>
      u.fso.frameOpen = true ∧ u.fso.latched = false ∧ u.fso.fcnt = (s.fso.fcnt + 1) % 2 ^ 60 ∧ u.seq.tag = m.tag ∧
      (s.fso.frameOpen = false → ∀ k, k < 4 → s.streamOn k = true → (s.stream k).pin = none →
        (s.stream k).find .free = some 0 → ((u.stream k).slot 0).st = .asm ∧ ((u.stream k).slot 0).fcnt = u.fso.fcnt) := by
  obtain ⟨hq, hold⟩ := ((s.begin t).sofTaken m).closeOld_quiet
  obtain ⟨ho, hl, hc⟩ := (((s.begin t).sofTaken m).closeOld).openFrame_opens
  have honly := Only.openFrame ((s.begin t).sofTaken m).closeOld
  have hparts : Only [.regs, .seq, .fso, .cmp, .mem, .lnk, .tbu, .out] (s.begin t) ((s.begin t).sofTaken m).closeOld :=
    (Only.sofTaken _ m).comp hold (by simp) (by simp)
  refine ⟨_, execSof_next hs hn hp hr hf hd, hparts.comp honly (by simp) (by simp), ho, hl, ?_, ?_, fun hclosed k hk hon hpin hfree => ?_⟩
  · rw [hc, hq.fcnt]
    rfl
  · rw [honly.2.2 .seq (by decide), hold.2.2 .seq (by decide)]
    rfl
  · have hid : ((s.begin t).sofTaken m).closeOld = (s.begin t).sofTaken m := if_neg (by
      rw [Bool.not_eq_true]
      exact hclosed)
    rw [hid]
    exact State.openFrame_slot (s := (s.begin t).sofTaken m) hk hon hpin hfree

end Sys2Proof.Machine

namespace Sys2Proof.Machine

variable {s u v : State} {t : Nat} {m : Mark} {ms : List Mark} {n p q c : Nat} {h : Hist}

/-! ### An EOL that passes the ports (R64, R168) -/

theorem assocDel_cons {α : Type} (e : Nat × α) (l : List (Nat × α)) (k : Nat) :
    assocDel (e :: l) k = if e.1 = k then assocDel l k else e :: assocDel l k := by
  unfold assocDel
  by_cases he : e.1 = k <;> simp [he]

theorem assoc_assocDel_same {α : Type} (l : List (Nat × α)) (k : Nat) : assoc (assocDel l k) k = none := by
  induction l with
  | nil => rfl
  | cons e l ih =>
    rw [assocDel_cons]
    split
    · exact ih
    · next he => rw [assoc_cons, if_neg he, ih]

theorem assoc_assocDel_ne {α : Type} (l : List (Nat × α)) {k j : Nat} (hne : j ≠ k) : assoc (assocDel l k) j = assoc l j := by
  induction l with
  | nil => rfl
  | cons e l ih =>
    rw [assocDel_cons, assoc_cons e l]
    split
    · next he => rw [ih, if_neg (fun hj => hne (hj.symm.trans he))]
    · rw [assoc_cons, ih]

theorem assoc_map_values {α : Type} (f : α → α) (l : List (Nat × α)) (k : Nat) :
    assoc (l.map fun e => (e.1, f e.2)) k = (assoc l k).map f := by
  induction l with
  | nil => rfl
  | cons e l ih =>
    rw [List.map_cons, assoc_cons, assoc_cons, ih]
    split <;> rfl

/-- The hand-over frees the port's buffer and leaves the others. -/
theorem State.handOver_acc (s : State) (h : Hist) : (s.handOver h).rpe.acc = assocDel s.rpe.acc h.port := by
  have hi : ∀ (w : State) (b : Bool) f, (if b then w.inc f else w).rpe = w.rpe := fun w b f => by
    split <;> simp
  have ho : ∀ (w : State) (b : Bool) x, (if b then w.offer x else w).rpe = w.rpe := fun w b x => by
    split <;> simp
  unfold State.handOver
  dsimp only
  simp only [ho, hi, State.noteDrained_frame, modRpe_rpe]

/-- A close leaves an open histogram of another port, or a closed one. -/
theorem State.closeOpen_acc (s : State) (h : Hist) (c q : Nat) :
    assoc (s.closeOpen h c).rpe.acc q = assoc s.rpe.acc q ∧ q ≠ h.port ∨
    ∀ x, assoc (s.closeOpen h c).rpe.acc q = some x → x.cause.isSome = true := by
  unfold State.closeOpen
  dsimp only
  split
  · have hr : ∀ (w : State) (b : Bool), (if b then w.raise 0x08 .warn 0 else w).rpe = w.rpe := fun w b => by
      split <;> simp
    rw [hr]
    simp only [modRpe_rpe]
    by_cases hq : q = h.port
    · rw [hq, assoc_assocPut_same]
      exact .inr fun x hx => by rw [← Option.some.inj hx]; rfl
    · exact .inl ⟨assoc_assocPut_ne _ _ hq, hq⟩
  · rw [State.handOver_acc]
    simp only [modRpe_rpe]
    by_cases hq : q = h.port
    · rw [hq, assoc_assocDel_same]
      exact .inr fun x hx => absurd hx (by simp)
    · exact .inl ⟨assoc_assocDel_ne _ hq, hq⟩

/-- A close event at a port leaves the histograms of the others, or closed ones. -/
theorem State.closeHist_acc (s : State) (p c q : Nat) :
    assoc (s.closeHist p c).rpe.acc q = assoc s.rpe.acc q ∧ (q = p → assoc s.rpe.acc q = none) ∨
    ∀ x, assoc (s.closeHist p c).rpe.acc q = some x → x.cause.isSome = true := by
  have hn : ∀ (b : Bool), ((if b then s.inc F.RPE_NOREC_COUNT else s).noteDrained p).rpe = s.rpe := fun b => by
    split <;> simp
  cases ha : assoc s.rpe.acc p with
  | none =>
    have he : (s.closeHist p c).rpe = s.rpe := by
      unfold State.closeHist
      rw [ha]
      exact hn _
    exact .inl ⟨by rw [he], fun hq => by rw [hq, ha]⟩
  | some h =>
    have he : s.closeHist p c = if h.cause.isSome then s else s.closeOpen { h with port := p } c := by
      unfold State.closeHist
      rw [ha]
    rw [he]
    split
    · next hc =>
      by_cases hq : q = p
      · exact .inr fun x hx => by
          rw [hq, ha] at hx
          rw [← Option.some.inj hx, hc]
      · exact .inl ⟨rfl, fun hq' => absurd hq' hq⟩
    · exact (s.closeOpen_acc { h with port := p } c q).imp_left fun ⟨h1, h2⟩ => ⟨h1, fun hq => absurd hq h2⟩

/-- No histogram is open: those in the buffers are closed and wait for RD (R181). -/
def State.NoneOpen (s : State) : Prop := ∀ q x, assoc s.rpe.acc q = some x → x.cause.isSome = true

/-- After the close events of some ports, what is in the buffer of a port is closed, or the port is none of them and has kept
it. -/
theorem State.closeHists_acc (c q : Nat) : ∀ (l : List Nat) (s : State),
    assoc (l.foldl (fun s p => s.closeHist p c) s).rpe.acc q = assoc s.rpe.acc q ∧ (q ∈ l → assoc s.rpe.acc q = none) ∨
    ∀ x, assoc (l.foldl (fun s p => s.closeHist p c) s).rpe.acc q = some x → x.cause.isSome = true := by
  intro l
  induction l with
  | nil => exact fun s => .inl ⟨rfl, fun h => absurd h (by simp)⟩
  | cons p l ih =>
    intro s
    rw [List.foldl_cons]
    rcases ih (s.closeHist p c) with ⟨h1, h2⟩ | h1
    · rw [h1]
      rcases s.closeHist_acc p c q with ⟨k1, k2⟩ | k1
      · refine .inl ⟨k1, fun hq => ?_⟩
        rcases List.mem_cons.mp hq with hq | hq
        · exact k2 hq
        · rw [← k1, h2 hq]
      · exact .inr k1
    · exact .inr h1

/-- A close event for the whole device leaves no histogram open. -/
theorem State.closeAll_noneOpen (s : State) (c : Nat) : (s.closeAll c).NoneOpen := by
  intro q x hx
  rcases State.closeHists_acc c q ((s.rpe.acc.map Prod.fst).mergeSort (· ≤ ·)) s with ⟨h1, h2⟩ | h1
  · have hs : assoc s.rpe.acc q = some x := h1 ▸ hx
    have hq : q ∈ (s.rpe.acc.map Prod.fst).mergeSort (· ≤ ·) :=
      (List.mergeSort_perm _ _).mem_iff.mpr (List.mem_map_of_mem (f := Prod.fst) (mem_of_assoc hs))
    exact absurd (hs.symm.trans (h2 hq)) (by simp)
  · exact h1 x hx

theorem Hist.lose_cause (h : Hist) : h.lose.cause = h.cause := by
  unfold Hist.lose
  split <;> rfl

theorem State.dropAnchors_noneOpen (hs : s.NoneOpen) : s.dropAnchors.NoneOpen := by
  intro q x hx
  have ha : s.dropAnchors.rpe.acc = s.rpe.acc.map fun e => (e.1, e.2.lose) := rfl
  rw [ha, assoc_map_values] at hx
  obtain ⟨y, hy, rfl⟩ := Option.map_eq_some_iff.mp hx
  rw [Hist.lose_cause]
  exact hs q y hy

/-- A switch reaches the ports: no histogram is open. -/
theorem State.switchPorts_noneOpen (s : State) (c : Nat) : (s.switchPorts c).NoneOpen := by
  have h := State.dropAnchors_noneOpen (s.closeAll_noneOpen c)
  have ha : (s.switchPorts c).rpe.acc = (s.closeAll c).dropAnchors.rpe.acc := by
    unfold State.switchPorts State.clearHistory
    simp
  unfold State.NoneOpen
  rw [ha]
  exact h

/-- Without fires on the path there are no shot sets. -/
theorem State.settleSingles_of_nil (hr : s.rta.recs = []) : s.settleSingles = s := by
  rw [State.settleSingles, hr, List.filter_nil, List.foldl_nil]

theorem State.NoneOpen.modSeq (h : s.NoneOpen) (f : Seq → Seq) : (s.modSeq f).NoneOpen := h

/-- Tokens that pass open no histogram. -/
theorem State.settlePath_noneOpen : ∀ (fuel : Nat) {s : State}, s.rta.recs = [] → s.NoneOpen → (s.settlePath fuel).NoneOpen := by
  intro fuel
  induction fuel with
  | zero =>
    intro s hr hs
    rw [State.settlePath, State.settleSingles_of_nil hr]
    exact hs
  | succ fuel ih =>
    intro s hr hs
    rw [State.settlePath, State.settleSingles_of_nil hr]
    split
    · exact hs
    · split
      · exact hs
      · split
        · refine ih ?_ ((State.switchPorts_noneOpen s _).modSeq _)
          simp [hr]
        · exact hs

/-- A mark with an EOL that passes the ports leaves no histogram open (R168). -/
theorem State.passMark_noneOpen (he : m.eol = true) (hr : s.rta.recs = []) : (s.passMark m).NoneOpen := by
  unfold State.passMark State.settle
  dsimp only
  rw [if_pos (by rw [he]; rfl)]
  refine State.settlePath_noneOpen _ ?_ ((s.closeAll_noneOpen 1).modSeq _)
  simp [hr]

theorem Only.passMark (s : State) (m : Mark) : Only [.regs, .mgmt, .seq, .rta, .rpe, .saf, .cap, .lnk, .out] s (s.passMark m) :=
  ⟨by simp, by simp, fun p hp => by cases p <;> simp_all [Part.same]⟩

theorem Only.settleEol (s : State) : Only [.seq] s s.settleEol :=
  ⟨by simp, by simp, fun p hp => by cases p <;> simp_all [Part.same]⟩

theorem eol_passes (hs : s.seq.marks = m :: ms) (hn : m.ord = none) (hc : m.cause = none) (he : m.eol = true)
    (hb : s.clearBefore m.id = true) (hr : s.rta.recs = []) :
    Completes (.eol t) t s [.regs, .mgmt, .seq, .rta, .rpe, .saf, .cap, .lnk, .out] fun u =>
      ∀ p h, assoc u.rpe.acc p = some h → h.cause.isSome = true := by
  have hp : (s.begin t).toPass = m :: ms.filter fun x => x.ord.isNone := by
    have hp' : s.toPass = m :: ms.filter fun x => x.ord.isNone := by
      rw [State.toPass, hs]
      exact List.filter_cons_of_pos (by rw [hn]; rfl)
    exact hp'
  have hb' : (s.begin t).clearBefore m.id = true := hb
  have hx : exec (.eol t) s = .next ((s.begin t).passMark m).settleEol := by
    show Host.Outcome.next (((s.begin t).passFirst Mark.eol).settleEol) = _
    rw [State.passFirst, hp]
    dsimp only
    rw [hc, he, hb', if_pos (by rfl)]
  refine ⟨_, hx, (Only.passMark _ m).comp (Only.settleEol _) (by simp) (by simp), fun p h hph => ?_⟩
  have hrpe : ((s.begin t).passMark m).settleEol.rpe = ((s.begin t).passMark m).rpe := (Only.settleEol _).2.2 .rpe (by decide)
  rw [hrpe] at hph
  exact State.passMark_noneOpen (s := s.begin t) he hr p h hph

end Sys2Proof.Machine

namespace Sys2Proof.Machine

variable {s u v : State} {t n k j line col w x : Nat} {p : Point} {d : List Word} {off repl : Bool}

/-! ### A point record at the FSO (R343, R346, R354) -/

theorem State.inDove_congr (hr : u.regs = s.regs) (hp : u.lnk.down.params = s.lnk.down.params) (col : Nat) :
    u.inDove col = s.inDove col := by
  have hrd : ∀ f : Fld, u.rd f = s.rd f := fun f => State.rd_of_word (State.word_of_regs hr _)
  have hh : u.isHead = s.isHead := State.flag_of_word (State.word_of_regs hr _)
  have hl : u.dlEff = s.dlEff := by rw [State.dlEff, State.dlEff, hh, hrd]
  have hd : u.drEff = s.drEff := by rw [State.drEff, State.drEff, hp, hrd]
  rw [State.inDove, State.inDove, hl, hd]

/-- What a record writes as a pixel rests on the registers, the datum line and the neighbour downstream. -/
theorem State.pixelOf_congr (hr : u.regs = s.regs) (hd : u.fso.datum = s.fso.datum)
    (hp : u.lnk.down.params = s.lnk.down.params) (n : Nat) (d : List Word) (v : Nat) (p : Point) (off repl : Bool) :
    u.pixelOf n d v p off repl = s.pixelOf n d v p off repl := by
  have hl : u.lambda p.port = s.lambda p.port := State.rd_of_word (State.word_of_regs hr _)
  have hf : u.flagsWord p (venEsel d v) off repl = s.flagsWord p (venEsel d v) off repl := by
    simp only [State.flagsWord, State.inDove_congr hr hp]
  simp only [State.pixelOf, hf, hd, hl]

theorem pixKey_injective {a b : Nat} (h : pixKey a line col = pixKey b line col) : a = b := by
  unfold pixKey at h
  omega

/-- The pixels of a record of a slot, with the word of one Veneer. -/
def pixPut (line col : Nat) (g : Nat → Option Word) (m : List (Nat × Word)) (v : Nat) : List (Nat × Word) :=
  match g v with
  | some w => assocPut m (pixKey v line col) w
  | none => m

theorem pixPut_keeps {g : Nat → Option Word} {m : List (Nat × Word)} {v a : Nat} {w : Word} (hg : g v = some w)
    (hm : assoc m (pixKey v line col) = some w) : assoc (pixPut line col g m a) (pixKey v line col) = some w := by
  unfold pixPut
  split
  · next y hy =>
    by_cases ha : v = a
    · subst ha
      rw [assoc_assocPut_same, ← hg, hy]
    · rw [assoc_assocPut_ne _ _ (fun h => ha (pixKey_injective h)), hm]
  · exact hm

/-- Each Veneer that has a word reads it back. -/
theorem assoc_foldl_pixPut {g : Nat → Option Word} {v : Nat} {w : Word} (hg : g v = some w) {l : List Nat} (hv : v ∈ l)
    (m : List (Nat × Word)) : assoc (l.foldl (pixPut line col g) m) (pixKey v line col) = some w := by
  obtain ⟨as, bs, rfl⟩ := List.append_of_mem hv
  rw [List.foldl_append, List.foldl_cons]
  refine List.foldlRecOn bs (pixPut line col g) (motive := fun m => assoc m (pixKey v line col) = some w) ?_
    fun m hm a _ => pixPut_keeps hg hm
  simp only [pixPut, hg, assoc_assocPut_same]

theorem State.placeIn_of_none (h : (s.stream n).find .asm = none) : s.placeIn n p = s := by
  simp only [State.placeIn, h]

theorem State.placeIn_of_outside (h : (s.stream n).find .asm = some j)
    (hw : inWindow ((s.stream n).slot j).defn p.line p.pix = false) : s.placeIn n p = s := by
  simp only [State.placeIn, h, hw, Bool.not_false, if_true]

/-- The slot of a stream with a record placed in it. -/
def State.placed (s : State) (n : Nat) (f : FrmSlot) (p : Point) (off : Bool) : FrmSlot :=
  { f with
    pix := (vens f.defn).foldl (pixPut p.line p.pix fun v => s.pixelOf n f.defn v p off (f.recd.contains (256 * p.line + p.pix))) f.pix
    recd := if f.recd.contains (256 * p.line + p.pix) then f.recd else (256 * p.line + p.pix) :: f.recd
    lines := assocPut f.lines p.line (s.lineAdd (assoc f.lines p.line) p) }

theorem State.placeIn_of_some (h : (s.stream n).find .asm = some j)
    (hw : inWindow ((s.stream n).slot j).defn p.line p.pix = true) :
    s.placeIn n p =
      let y := s.writeLine n j ((s.stream n).slot j).defn (p.line - defWl0 ((s.stream n).slot j).defn)
      y.setStream n ((s.stream n).setSlot j (y.placed n ((s.stream n).slot j) p (s.portOff p.port))) := by
  simp only [State.placeIn, h, hw, Bool.not_true, Bool.false_eq_true, if_false]
  rfl

theorem State.placeIn_stream (h : (s.stream n).find .asm = some j)
    (hw : inWindow ((s.stream n).slot j).defn p.line p.pix = true) {v : Nat} {w : Word} (hv : v ∈ vens ((s.stream n).slot j).defn)
    (hg : s.pixelOf n ((s.stream n).slot j).defn v p (s.portOff p.port)
      (((s.stream n).slot j).recd.contains (256 * p.line + p.pix)) = some w) :
    assoc (((s.placeIn n p).stream n).slot j).pix (pixKey v p.line p.pix) = some w := by
  rw [State.placeIn_of_some h hw]
  dsimp only
  rw [State.stream_setStream_same, Stream.slot_setSlot_same]
  refine assoc_foldl_pixPut ?_ hv _
  rw [State.pixelOf_congr (s := s) (by simp) (by simp) (by simp), hg]

/-- Placing a record leaves what later placings and the streams' rules rest on. -/
def State.Places (k : Nat) (s u : State) : Prop :=
  u.regs = s.regs ∧ u.fso.datum = s.fso.datum ∧ u.lnk = s.lnk ∧ u.stream k = s.stream k

theorem State.Places.refl (k : Nat) (s : State) : State.Places k s s := ⟨rfl, rfl, rfl, rfl⟩

theorem State.Places.trans {k : Nat} (h : State.Places k s u) (j : State.Places k u v) : State.Places k s v :=
  ⟨j.1.trans h.1, j.2.1.trans h.2.1, j.2.2.1.trans h.2.2.1, j.2.2.2.trans h.2.2.2⟩

theorem State.setStream_datum (s : State) (n : Nat) (x : Stream) : (s.setStream n x).fso.datum = s.fso.datum := by
  match n with
  | 0 | 1 | 2 | _ + 3 => rfl

theorem State.Places.placeIn {k n : Nat} (hn : n < 4) (hk : k < 4) (hne : k ≠ n) (s : State) (p : Point) :
    State.Places k s (s.placeIn n p) := by
  cases hf : (s.stream n).find .asm with
  | none =>
    rw [State.placeIn_of_none hf]
    exact State.Places.refl k s
  | some j =>
    cases hw : inWindow ((s.stream n).slot j).defn p.line p.pix with
    | false =>
      rw [State.placeIn_of_outside hf hw]
      exact State.Places.refl k s
    | true =>
      rw [State.placeIn_of_some hf hw]
      refine ⟨by simp, ?_, by simp, ?_⟩
      · rw [State.setStream_datum]
        simp
      · exact (State.stream_setStream_ne _ _ hn hk hne).trans (State.Spares.writeLine k s n _ _ _).2

/-- Every stream gets the pixels of the Veneers that have one for the record. -/
theorem State.placeAll_pixel {k : Nat} (hk : k < 4) (h : (s.stream k).find .asm = some j)
    (hw : inWindow ((s.stream k).slot j).defn p.line p.pix = true) {v : Nat} {w : Word} (hv : v ∈ vens ((s.stream k).slot j).defn)
    (hg : s.pixelOf k ((s.stream k).slot j).defn v p (s.portOff p.port)
      (((s.stream k).slot j).recd.contains (256 * p.line + p.pix)) = some w) :
    assoc ((((List.range 4).foldl (fun s n => s.placeIn n p) s).stream k).slot j).pix (pixKey v p.line p.pix) = some w := by
  obtain ⟨a, ⟨hr, hd, hl, hs⟩, -, -, -, hu⟩ := State.fold_around (R := State.Places k) (State.Places.refl k) State.Places.trans
    (f := fun s n => State.placeIn s n p) hk (fun s n hn hne => State.Places.placeIn hn hk hne s p) s
  have ho : a.portOff p.port = s.portOff p.port := State.flag_of_word (State.word_of_regs hr _)
  rw [hu]
  refine State.placeIn_stream (by rw [hs, h]) (by rw [hs, hw]) (by rw [hs]; exact hv) ?_
  rw [hs, ho, State.pixelOf_congr hr hd (by rw [hl]), hg]

/-! ### POINT_RECORD_PLACE -/

/-- A record on its way to the FSO leaves the path, and goes to the neighbour that shares its column. -/
def State.pointTaken (s : State) (p : Point) (ps : List Point) : State := (s.modRpe fun r => { r with points := ps }).sendDove p

theorem Only.sendDove (s : State) (p : Point) : Only [.lnk, .out] s (s.sendDove p) :=
  ⟨by simp, by simp, fun p hp => by cases p <;> simp_all [Part.same]⟩

theorem Only.pointTaken (s : State) (p : Point) (ps : List Point) : Only [.rpe, .lnk, .out] s (s.pointTaken p ps) := by
  have h : Only [.rpe] s (s.modRpe fun r => { r with points := ps }) :=
    ⟨by simp, by simp, fun p hp => by cases p <;> simp_all [Part.same]⟩
  exact h.comp (Only.sendDove _ p) (by simp) (by simp)

theorem State.pointTaken_rpe (s : State) (p : Point) (ps : List Point) : (s.pointTaken p ps).rpe = { s.rpe with points := ps } := by
  simp [State.pointTaken]

theorem State.sendChain_params (s : State) (side : ChainSide) (typ : Nat) (l : List Nat) :
    (s.sendChain side typ l).lnk.down.params = s.lnk.down.params := by
  unfold State.sendChain
  split
  · cases side <;> rfl
  · rfl

theorem State.sendDove_params (s : State) (p : Point) : (s.sendDove p).lnk.down.params = s.lnk.down.params := by
  have hs : ∀ (w : State) (c : Bool) side l, (if c then w.sendChain side 0x65 l else w).lnk.down.params = w.lnk.down.params :=
    fun w c side l => by
      split
      · exact State.sendChain_params _ _ _ _
      · rfl
  unfold State.sendDove
  dsimp only
  rw [hs, hs]

section
variable {ps : List Point}

/-- A record that no mark stands before leaves the path (R346). -/
theorem execPointRecordPlace_next (hp : s.rpe.points = p :: ps) (hm : ∀ m ms, s.seq.marks = m :: ms → m.ord = none)
    (hr : s.ready = true) :
    exec (.pointRecordPlace t) s =
      let y := (s.begin t).pointTaken p ps
      if !y.fso.frameOpen then .next (y.inc F.FSO_ORPHAN_COUNT)
      else if Nat.ble y.nlines p.line then .next (y.inc F.FSO_OUTLINE_COUNT)
      else .next ((List.range 4).foldl (fun s n => s.placeIn n p) y) := by
  have hat : (s.begin t).markAtFso = none := by
    show s.markAtFso = none
    unfold State.markAtFso
    split
    · next m ms hs => rw [hm m ms hs]
    · rfl
  have hset : (s.begin t).settleEol = s.begin t := by
    unfold State.settleEol
    rw [hat]
  have hwait : (match (s.begin t).seq.marks with
      | m :: _ => m.ord.any fun n => Nat.ble n p.ord
      | [] => false) = false := by
    split
    · next m ms hs => rw [hm m ms hs]; rfl
    · rfl
  have hpts : (s.begin t).rpe.points = p :: ps := hp
  have hready : ((s.begin t).modRpe fun r => { r with points := ps }).ready = true := hr
  show execPointRecordPlace t s = _
  unfold execPointRecordPlace
  rw [hset]
  dsimp only
  rw [hpts]
  dsimp only
  rw [hready, Bool.not_true, if_neg Bool.false_ne_true]
  refine if_neg ?_
  rw [Bool.not_eq_true]
  exact hwait

/-- A record that no frame takes is counted and dropped (R346, R354). -/
theorem record_dropped {f : Fld} (hf : f.lo ≤ f.hi) (hh : f.hi < 20)
    (hx : exec (.pointRecordPlace t) s = .next (((s.begin t).pointTaken p ps).inc f)) :
    CompletesAt (.pointRecordPlace t) t s [.rpe, .lnk, .out] [f.addr] fun u =>
      u.rpe = { s.rpe with points := ps } ∧ u.rd f = satN (f.hi + 1 - f.lo) (s.rd f + 1) := by
  have honly := Only.pointTaken (s.begin t) p ps
  have hregs : ((s.begin t).pointTaken p ps).regs = s.regs := honly.2.2 .regs (by decide)
  have hword : ∀ a, ((s.begin t).pointTaken p ps).word a = s.word a := State.word_of_regs hregs
  refine ⟨_, hx, honly.comp (Only.inc _ f) (by simp) (by simp), fun a ha => ?_, ?_, ?_⟩
  · rw [word_inc_ne _ _ _ (by simpa using ha), hword]
  · rw [(Only.inc _ f).2.2 .rpe (by decide), State.pointTaken_rpe]
    rfl
  · rw [rd_inc _ f hf hh, State.rd_of_word (hword _)]

variable (hp : s.rpe.points = p :: ps) (hm : ∀ m ms, s.seq.marks = m :: ms → m.ord = none) (hr : s.ready = true)
include hp hm hr

/-- With a frame open, the record writes its pixels (R343, R346). -/
theorem record_placed (ho : s.fso.frameOpen = true) (hl : p.line < s.nlines) :
    Completes (.pointRecordPlace t) t s [.rpe, .fso, .mem, .lnk, .out] fun u =>
      u.rpe = { s.rpe with points := ps } ∧
      ∀ k j v w, k < 4 → (s.stream k).find .asm = some j → inWindow ((s.stream k).slot j).defn p.line p.pix = true →
        v ∈ vens ((s.stream k).slot j).defn →
        s.pixelOf k ((s.stream k).slot j).defn v p (s.portOff p.port)
          (((s.stream k).slot j).recd.contains (256 * p.line + p.pix)) = some w →
        u.pixelAt ((u.stream k).slot j) ((s.stream k).slot j).defn v p.line p.pix = w := by
  have honly := Only.pointTaken (s.begin t) p ps
  have hfso : ((s.begin t).pointTaken p ps).fso = s.fso := honly.2.2 .fso (by decide)
  have hregs : ((s.begin t).pointTaken p ps).regs = s.regs := honly.2.2 .regs (by decide)
  have hpar : ((s.begin t).pointTaken p ps).lnk.down.params = s.lnk.down.params := State.sendDove_params _ _
  have hnl : ((s.begin t).pointTaken p ps).nlines = s.nlines :=
    congrArg (· + 1) (State.rd_of_word (f := F.FSO_CFG_NLM1) (State.word_of_regs hregs _))
  have hx : exec (.pointRecordPlace t) s =
      .next ((List.range 4).foldl (fun s n => s.placeIn n p) ((s.begin t).pointTaken p ps)) := by
    rw [execPointRecordPlace_next hp hm hr]
    dsimp only
    rw [hfso, ho, hnl, Bool.not_true, if_neg Bool.false_ne_true, if_neg (by rw [Nat.ble_eq]; omega)]
  have hplaces : Only [.fso, .mem] ((s.begin t).pointTaken p ps)
      ((List.range 4).foldl (fun s n => s.placeIn n p) ((s.begin t).pointTaken p ps)) :=
    ⟨by simp, by simp, fun p hp => by cases p <;> simp_all [Part.same]⟩
  have hboth : Only [.rpe, .fso, .mem, .lnk, .out] (s.begin t) ((s.begin t).pointTaken p ps) := honly.mono (by simp)
  refine ⟨_, hx, hboth.comp hplaces (by simp) (by simp), ?_, fun k j v w hk hj hw hv hg => ?_⟩
  · rw [hplaces.2.2 .rpe (by decide), State.pointTaken_rpe]
    rfl
  · have hstr : ((s.begin t).pointTaken p ps).stream k = s.stream k := State.stream_of_fso hfso k
    have hoff : ((s.begin t).pointTaken p ps).portOff p.port = s.portOff p.port :=
      State.flag_of_word (State.word_of_regs hregs _)
    rw [State.pixelAt, State.placeAll_pixel hk (by rw [hstr, hj]) (by rw [hstr, hw]) (by rw [hstr]; exact hv)
      (by rw [hstr, hoff, State.pixelOf_congr hregs (by rw [hfso]) hpar, hg])]
    rfl

/-- Without an open frame it is an orphan. -/
theorem record_orphan (ho : s.fso.frameOpen = false) :
    CompletesAt (.pointRecordPlace t) t s [.rpe, .lnk, .out] [F.FSO_ORPHAN_COUNT.addr] fun u =>
      u.rpe = { s.rpe with points := ps } ∧ u.rd F.FSO_ORPHAN_COUNT = satN 20 (s.rd F.FSO_ORPHAN_COUNT + 1) := by
  refine record_dropped (p := p) (f := F.FSO_ORPHAN_COUNT) (by decide) (by decide) ?_
  have hfso : ((s.begin t).pointTaken p ps).fso = s.fso := (Only.pointTaken (s.begin t) p ps).2.2 .fso (by decide)
  rw [execPointRecordPlace_next hp hm hr]
  dsimp only
  rw [hfso, ho, Bool.not_false, if_pos rfl]

/-- So is a record beyond the last line, with its own counter. -/
theorem record_beyond (ho : s.fso.frameOpen = true) (hl : s.nlines ≤ p.line) :
    CompletesAt (.pointRecordPlace t) t s [.rpe, .lnk, .out] [F.FSO_OUTLINE_COUNT.addr] fun u =>
      u.rpe = { s.rpe with points := ps } ∧ u.rd F.FSO_OUTLINE_COUNT = satN 20 (s.rd F.FSO_OUTLINE_COUNT + 1) := by
  refine record_dropped (p := p) (f := F.FSO_OUTLINE_COUNT) (by decide) (by decide) ?_
  have honly := Only.pointTaken (s.begin t) p ps
  have hfso : ((s.begin t).pointTaken p ps).fso = s.fso := honly.2.2 .fso (by decide)
  have hnl : ((s.begin t).pointTaken p ps).nlines = s.nlines :=
    congrArg (· + 1) (State.rd_of_word (f := F.FSO_CFG_NLM1) (State.word_of_regs (honly.2.2 .regs (by decide)) _))
  rw [execPointRecordPlace_next hp hm hr]
  dsimp only
  rw [hfso, ho, hnl, Bool.not_true, if_neg Bool.false_ne_true, if_pos (Nat.ble_eq.mpr hl)]

end

/-- Settles O18: a mark at the FSO opens or closes the frame, or gives its TAG; an EOL at the ports closes their histograms; and a
point record goes into the open frame or is dropped. -/
theorem marksAndPointRecordsMakeFrames : Obligations.MarksAndPointRecordsMakeFrames := by
  unfold Obligations.MarksAndPointRecordsMakeFrames
  refine ⟨fun s t m ms n hs hr => ⟨?_, ?_, ?_, ?_⟩, fun s t p ps hp hm hr => ⟨?_, ?_, ?_⟩⟩
  · exact fun hn hp hb hf => sof_opens hs hn hp hb hf hr
  · exact fun hn hp hb he hf hl ho => eof_closes hs hn hp hb he hf hl ho
  · exact fun hn hp hb he hf => eol_at_fso hs hn hp hb he hf
  · exact fun hn hc he hb _ hrecs => eol_passes hs hn hc he hb hrecs
  · exact fun ho hl _ => record_placed hp hm hr ho hl
  · exact fun ho => record_orphan hp hm hr ho
  · exact fun ho hl => record_beyond hp hm hr ho hl

end Sys2Proof.Machine

/-! ## Rules for starts and readings

The rows of a field of flags, the start reference of a window, and what loop L2 may change. -/

namespace Sys2Proof.Machine

variable {s u : State}

/-! ### A flag of a row, and its event -/

/-- A bit of a field is a bit of its word. -/
theorem State.rd_bit (s : State) {f : Fld} {j : Nat} (h : f.lo + j ≤ f.hi) :
    bitOf (s.rd f) j = bitOf (s.word f.addr).toNat (f.lo + j) := by
  rw [bitOf_eq_testBit, bitOf_eq_testBit, State.rd, bitsOf_testBit]
  simp
  omega

/-- Setting a bit of a field leaves the field's other bits. -/
theorem State.setBit_bit (s : State) {f : Fld} {j k : Nat} (hj : f.lo + j ≤ f.hi) (hk : f.lo + k < 20) :
    bitOf ((s.setBit f k).rd f) j = (bitOf (s.rd f) j || j == k) := by
  have hw : (s.setBit f k).word f.addr = putBits (s.word f.addr) (f.lo + k) (f.lo + k) 1 :=
    (word_wr _ _ _ _).trans (if_pos rfl)
  rw [State.rd_bit _ hj, State.rd_bit _ hj, hw, bitOf_eq_testBit, bitOf_eq_testBit, putBits_testBit _ _ _ _ _ le_rfl hk]
  by_cases hjk : j = k
  · simp [hjk]
  · rw [if_neg (by omega)]
    simp [hjk]

theorem State.setBit_word_ne (s : State) (f : Fld) (k : Nat) {a : Nat} (h : a ≠ f.addr) : (s.setBit f k).word a = s.word a :=
  word_put_ne _ _ _ _ h

/-- The flag of a row is set, and an event of class FAULT tells of it. -/
def State.rowFault (s : State) (f : Fld) (row code : Nat) : State := (s.setBit f row).raise code .fault row

theorem Only.rowFault (s : State) (f : Fld) (row code : Nat) : Only (.regs :: evParts) s (s.rowFault f row code) :=
  (Only.put _ _ _).comp (Only.raise _ _ _ _) (by decide) (by decide)

theorem State.rowFault_word (s : State) (f : Fld) (row code : Nat) {a : Nat} (h : a ∉ f.addr :: evWords) :
    (s.rowFault f row code).word a = s.word a := by
  rw [List.mem_cons, not_or] at h
  exact (State.raise_word _ _ _ _ h.2).trans (State.setBit_word_ne _ _ _ h.1)

theorem State.rowFault_told (s : State) (f : Fld) (row code : Nat) : s.told (s.rowFault f row code) code .fault row :=
  State.told_of (State.raise_told _ _ _ _) (by simp) rfl (now_of (by simp) (by simp))

theorem State.rowFault_bit (s : State) {f : Fld} {row j : Nat} (code : Nat) (hf : f.addr ∉ evWords) (hj : f.lo + j ≤ f.hi)
    (hr : f.lo + row < 20) : bitOf ((s.rowFault f row code).rd f) j = (bitOf (s.rd f) j || j == row) := by
  rw [State.rowFault, State.rd_of_word (State.raise_word _ _ _ _ hf), State.setBit_bit _ hj hr]

/-! ### The start reference -/

/-- Where no LISTEN or CAL window is posted, none opens. -/
theorem State.openDue_of_no_wins (h : s.seq.wins = []) : s.openDue = s := by
  rw [State.openDue, h, State.openDueFrom, State.modSeq, ← h]

theorem Only.modRta (s : State) (f : Rta → Rta) : Only [.rta] s (s.modRta f) :=
  ⟨by simp, by simp, fun p hp => by cases p <;> simp_all [Part.same]⟩

theorem Only.setRef (s : State) (row : Nat) (a : Int) (synth : Bool) : Only [.rta] s (s.setRef row a synth) :=
  ⟨by simp, by simp, fun p hp => by cases p <;> simp_all [Part.same]⟩

theorem Only.noteSeedStart (s : State) (row : Nat) (e : Int) : Only [.rta] s (s.noteSeedStart row e) :=
  ⟨by simp, by simp, fun p hp => by cases p <;> simp_all [Part.same]⟩

theorem Only.chbStart (s : State) (row : Nat) (bin : Int) : Only [.saf] s (s.chbStart row bin) := Only.modSaf _ _

theorem Only.setUnit (s : State) (n : Nat) (x : UnitSt) : Only [.rta] s (s.setUnit n x) := Only.modRta _ _

theorem State.unitSt_setUnit (s : State) (n k : Nat) (x : UnitSt) :
    (s.setUnit n x).unitSt k = if k = n then x else s.unitSt k :=
  SMap.get_put _ _ _ _ _

theorem State.noteSeedStart_wins (s : State) (row : Nat) (e : Int) : (s.noteSeedStart row e).rta.wins = s.rta.wins := by
  dsimp only [State.noteSeedStart]
  split <;> rfl

/-- The open window of the row's fire, which waits for its start reference, has it now (R129, R134). -/
def State.refTaken (s u : State) (row : Nat) (a : Int) (synth : Bool) : Prop :=
  ∀ w, assoc s.rta.wins row = some w → w.kind = .fire → w.ref = none →
    ∃ w', assoc u.rta.wins row = some w' ∧ w'.ref = some a ∧ w'.synth = synth ∧ w'.fire = w.fire ∧ w'.openClk = w.openClk

theorem State.setRef_refTaken (h : u.rta.wins = s.rta.wins) (row : Nat) (a : Int) (synth : Bool) :
    s.refTaken (u.setRef row a synth) row a synth := by
  intro w hw hk hr
  rw [← h] at hw
  have hc : (w.kind != .fire || w.ref.isSome) = false := by rw [hk, hr]; rfl
  unfold State.setRef
  rw [hw]
  dsimp only
  rw [hc, if_neg Bool.false_ne_true]
  exact ⟨_, assoc_assocPut_same _ _ _, rfl, rfl, rfl, rfl⟩

/-- What is said of a reference is said of the receivers' part. -/
theorem State.refTaken.congr {v : State} {row : Nat} {a : Int} {synth : Bool} (h : s.refTaken u row a synth)
    (hv : v.rta = u.rta) : s.refTaken v row a synth := by
  rw [State.refTaken, hv]
  exact h

/-! ### Loop L2 -/

theorem Only.l2Sample (s : State) (row : Nat) (r : Rat) : Only (.regs :: .edu :: evParts) s (s.l2Sample row r) :=
  ⟨by simp, by simp, fun p hp => by cases p <;> simp_all [Part.same, evParts]⟩

/-- The words that L2 may change: the bank in use and ADJ of the rows (R107, R259). -/
def l2Words : List Nat := (F.CEN_CTL_ABANK 2).addr :: (List.range 8).map fun r => (F.EDU_ADJ_ADJ r).addr

/-- The fires that wait for their reading, and the governor's charges, which L2 leaves as they are. -/
def State.charges (s : State) : List Flight × List Charge := (s.edu.reads, s.edu.shots)

theorem State.charges_of_edu (h : u.edu = s.edu) : u.charges = s.charges := by
  simp only [State.charges, h]

theorem State.charges_eq_iff {r : List Flight} {c : List Charge} : s.charges = (r, c) ↔ s.edu.reads = r ∧ s.edu.shots = c :=
  Prod.mk_inj

theorem State.putL2_charges (s : State) (g : Edu → List (Nat × L2Row)) :
    (s.modEdu fun e => { e with l2 := g e }).charges = s.charges := rfl

theorem adj_addr_mem {row : Nat} (h : row < 8) : (F.EDU_ADJ_ADJ row).addr ∈ l2Words :=
  List.mem_cons_of_mem _ (List.mem_map.mpr ⟨row, List.mem_range.mpr h, rfl⟩)

theorem State.limitAdj_charges (s : State) (row : Nat) : (s.limitAdj row).charges = s.charges := by
  dsimp only [State.limitAdj]
  split
  · rfl
  · exact State.charges_of_edu (u := s.wrZ _ _) (by simp)

theorem State.limitAdj_word (s : State) {row a : Nat} (h : a ≠ (F.EDU_ADJ_ADJ row).addr) :
    (s.limitAdj row).word a = s.word a := by
  dsimp only [State.limitAdj]
  split
  · rfl
  · rw [modEdu_word, word_wrZ_ne _ _ _ _ h]

/-- L2 once the bank in use and the limits of ADJ have been taken. -/
def State.l2Limited (s : State) : State := (List.range 8).foldl State.limitAdj (s.takeBank 2)

theorem State.l2Limited_charges (s : State) : s.l2Limited.charges = s.charges :=
  (State.fold_keeps State.charges _ State.limitAdj_charges _ _).trans (State.charges_of_edu (by simp))

theorem State.l2Limited_word (s : State) {a : Nat} (h : a ∉ l2Words) : s.l2Limited.word a = s.word a := by
  have hfold : ∀ (l : List Nat), (∀ r ∈ l, r < 8) → ∀ v : State, (l.foldl State.limitAdj v).word a = v.word a := by
    intro l
    induction l with
    | nil => exact fun _ _ => rfl
    | cons r l ih =>
      intro hl v
      have hr : a ≠ (F.EDU_ADJ_ADJ r).addr := (ne_of_mem_of_not_mem (adj_addr_mem (hl r List.mem_cons_self)) h).symm
      rw [List.foldl_cons, ih (fun x hx => hl x (List.mem_cons_of_mem _ hx)), State.limitAdj_word _ hr]
  rw [State.l2Limited, hfold _ (fun r hr => List.mem_range.mp hr), State.takeBank,
    word_wr_ne _ _ _ _ (List.ne_of_not_mem_cons h)]

theorem State.l2Step_charges (s : State) (row : Nat) (x : L2Row) (up : Bool) : (s.l2Step row x up).charges = s.charges := by
  dsimp only [State.l2Step]
  generalize (if up then _ else _ : Bool) = lim
  cases lim with
  | true =>
    rw [if_pos rfl]
    split
    · rfl
    · exact (State.charges_of_edu ((Only.raise _ _ _ _).2.2 .edu (by decide))).trans rfl
  | false => exact State.charges_of_edu (u := s.wrZ _ _) (by simp)

theorem State.l2Step_word (s : State) {row a : Nat} (x : L2Row) (up : Bool) (h : a ≠ (F.EDU_ADJ_ADJ row).addr) (he : a ∉ evWords) :
    (s.l2Step row x up).word a = s.word a := by
  dsimp only [State.l2Step]
  generalize (if up then _ else _ : Bool) = lim
  cases lim with
  | true =>
    rw [if_pos rfl]
    split
    · rfl
    · rw [State.raise_word _ _ _ _ he, modEdu_word]
  | false => rw [if_neg Bool.false_ne_true, modEdu_word, word_wrZ_ne _ _ _ _ h]

/-- A sample of L2 ends in the limited state, in which the row's data may change, or in a step from it. -/
theorem State.l2Sample_cases (s : State) (row : Nat) (r : Rat) :
    (∃ y, s.l2Sample row r = s.l2Limited.modEdu fun e => { e with l2 := assocPut e.l2 row y }) ∨
    (∃ x up, s.l2Sample row r = s.l2Limited.l2Step row x up) ∨ s.l2Sample row r = s.l2Limited := by
  obtain ⟨v, hv⟩ : ∃ v, s.l2Limited = v := ⟨_, rfl⟩
  rw [hv]
  -- L2 is unfolded as a function, and `v` stands for the limited state: else the kernel evaluates the limits of the eight rows.
  suffices h : ∀ g, g = State.l2Sample → (∃ y, g s row r = v.modEdu fun e => { e with l2 := assocPut e.l2 row y }) ∨
      (∃ x up, g s row r = v.l2Step row x up) ∨ g s row r = v from h _ rfl
  intro g hg
  delta State.l2Sample at hg
  subst hg
  rw [State.l2Limited] at hv
  beta_reduce
  rw [hv]
  dsimp only
  split
  · exact .inl ⟨_, rfl⟩
  · split
    · exact .inr (.inl ⟨_, _, rfl⟩)
    · split
      · exact .inr (.inl ⟨_, _, rfl⟩)
      · exact .inr (.inr rfl)

theorem State.l2Sample_charges (s : State) (row : Nat) (r : Rat) : (s.l2Sample row r).charges = s.charges := by
  rcases s.l2Sample_cases row r with ⟨y, h⟩ | ⟨x, up, h⟩ | h <;> rw [h]
  · exact (State.putL2_charges _ _).trans s.l2Limited_charges
  · rw [State.l2Step_charges, s.l2Limited_charges]
  · exact s.l2Limited_charges

theorem State.l2Sample_word (s : State) {row a : Nat} (r : Rat) (hr : row < 8) (h : a ∉ l2Words) (he : a ∉ evWords) :
    (s.l2Sample row r).word a = s.word a := by
  rcases s.l2Sample_cases row r with ⟨y, hs⟩ | ⟨x, up, hs⟩ | hs <;> rw [hs]
  · rw [modEdu_word, s.l2Limited_word h]
  · rw [State.l2Step_word _ _ _ (ne_of_mem_of_not_mem (adj_addr_mem hr) h).symm he, s.l2Limited_word h]
  · exact s.l2Limited_word h

end Sys2Proof.Machine

/-! ## START_EDGE and START_DEADLINE (R100, R101, R129, R156, R283) -/

namespace Sys2Proof.Machine

variable {s : State} {t row : Nat}

/-! ### START_EDGE -/

/-- The delay of the injected pulse in the row's SKEW slot (R148). -/
def State.skewDelay (s : State) (row : Nat) : Option Nat :=
  ((assoc s.rta.wins row).bind fun w => w.post).bind fun (p : WinPost) =>
    if p.kind == WinKind.cal && p.mode == 1 then some p.delay else none

theorem State.skewDelay_eq_some {d : Nat} : s.skewDelay row = some d ↔
    ∃ w post, assoc s.rta.wins row = some w ∧ w.post = some post ∧ post.kind = .cal ∧ post.mode = 1 ∧ post.delay = d := by
  simp only [State.skewDelay, Option.bind_eq_some_iff, Option.ite_none_right_eq_some, Bool.and_eq_true, beq_iff_eq,
    Option.some.injEq, and_assoc]
  exact ⟨fun ⟨p, ⟨w, hw, hp⟩, h⟩ => ⟨w, p, hw, hp, h⟩, fun ⟨w, p, hw, hp, h⟩ => ⟨p, ⟨w, hw, hp⟩, h⟩⟩

/-- The start skew of the row as of its window's opening (R158). -/
def State.startSkewOf (s : State) (row : Nat) : Int :=
  ((assoc s.rta.wins row).map fun w => w.startSkew).getD (SMap.get (fun _ => 0) s.rta.startSkew row)

/-- The time of an edge of the row's start TDC. -/
def State.startTime (s : State) (row : Nat) (code : PulseCode) : Int := s.edgeTime (264 + row) code.lead

/-- The row's fire whose start is due (R100). -/
def State.startDue (s : State) (row : Nat) : Option Flight :=
  s.edu.starts.find? fun f => f.row == row && Nat.ble s.clk (f.t0 + 5)

/-- The fire waits for no start any longer, and the row's misses in a row are counted (R101). -/
def State.startNoted (s : State) (row : Nat) (f : Flight) (misses : Nat) : State :=
  s.modEdu fun x => { x with starts := x.starts.filter (fun y => y.id != f.id), miss := x.miss.setNat row misses }

theorem State.startNoted_miss (s : State) (row : Nat) (f : Flight) (n : Nat) : (s.startNoted row f n).edu.miss.nat row = n :=
  (SMap.nat_setNat _ _ _ _).trans (if_pos rfl)

/-- What a start edge does besides the window of channel B. -/
def State.edgeTaken (s : State) (row : Nat) (code : PulseCode) : State :=
  let e := s.startTime row code
  match s.skewDelay row, s.startDue row with
  | some d, _ => s.addSkew (264 + row) (e - s.startSkewOf row - 16 * d)
  | none, none =>
    if !s.rowOk row && s.flag (F.RTA_FCFG_S_FEN row) then
      s.setUnit (264 + row) ((s.unitSt (264 + row)).freqEdge (s.rd (F.RTA_FCFG_S_PRESCM1 row) + 1) e
        (code.trail.map (s.edgeTime (264 + row))))
    else s
  | none, some f =>
    if s.startFailed row then s
    else ((s.startNoted row f 0).noteSeedStart row e).setRef row (e - s.startSkewOf row) false

theorem exec_startEdge (hr : row < 8) (hw : s.seq.wins = []) (code : PulseCode) (bin : Int) :
    exec (.startEdge t row code bin) s = .next (((s.begin t).chbStart row bin).edgeTaken row code) := by
  have ho : (s.begin t).openDue = s.begin t := State.openDue_of_no_wins hw
  have h8 : Nat.ble 8 row = false := by rw [← Bool.not_eq_true, Nat.ble_eq]; omega
  have hk : ((s.begin t).chbStart row bin).skewDelay row = s.skewDelay row := rfl
  have hd : ((s.begin t).chbStart row bin).startDue row = (s.begin t).startDue row := rfl
  dsimp only [exec, execStartEdge]
  rw [ho, h8, if_neg Bool.false_ne_true, State.edgeTaken, hk, hd]
  change (match s.skewDelay row with | some d => _ | none => _) = _
  cases s.skewDelay row with
  | some d => rfl
  | none =>
    change (match (s.begin t).startDue row with | none => _ | some f => _) = _
    cases (s.begin t).startDue row with
    | none => exact (apply_ite Host.Outcome.next _ _ _).symm
    | some f => exact (apply_ite Host.Outcome.next _ _ _).symm

/-- A start edge: channel B's window begins (R283), and the rest happens elsewhere. -/
theorem startEdge_completes (hr : row < 8) (hw : s.seq.wins = []) {code : PulseCode} (bin : Int) {ps : List Part}
    {P : State → Prop} (hs : Part.saf ∉ ps)
    (h : let v := (s.begin t).chbStart row bin; Only ps v (v.edgeTaken row code) ∧ P (v.edgeTaken row code)) :
    Completes (.startEdge t row code bin) t s (.saf :: ps) fun u =>
      u.saf = { s.saf with wins := s.saf.wins ++
        [(row, ⟨bin, s.sectorAt (s.begin t).now, s.saf.chB.zs, [], (s.begin t).clk, false⟩)] } ∧ P u := by
  obtain ⟨ho, hp⟩ := h
  exact ⟨_, exec_startEdge hr hw code bin, (Only.chbStart _ row bin).comp ho (by simp) (fun _ => List.mem_cons_of_mem _),
    ho.2.2 .saf hs, hp⟩

section

variable (code : PulseCode) (hk : s.skewDelay row = none)

include hk

/-- A start within its 5 ns is the row's start: the misses end, and its window has its reference (R100, R129). -/
theorem State.edgeTaken_starts {f : Flight} (hd : s.startDue row = some f) (hf : s.startFailed row = false) :
    Only [.edu, .rta] s (s.edgeTaken row code) ∧
    (s.edgeTaken row code).edu.starts = s.edu.starts.filter (fun y => y.id != f.id) ∧
    (s.edgeTaken row code).edu.miss.nat row = 0 ∧
    s.refTaken (s.edgeTaken row code) row (s.startTime row code - s.startSkewOf row) false := by
  have he : s.edgeTaken row code = ((s.startNoted row f 0).noteSeedStart row (s.startTime row code)).setRef row
      (s.startTime row code - s.startSkewOf row) false := by
    simp only [State.edgeTaken, hk, hd, hf, Bool.false_eq_true, if_false]
  have href := (Only.noteSeedStart (s.startNoted row f 0) row (s.startTime row code)).trans
    (Only.setRef _ row (s.startTime row code - s.startSkewOf row) false)
  have hedu := href.2.2 .edu (by decide)
  rw [he]
  refine ⟨(Only.modEdu _ _).comp href (by decide) (by decide), congrArg Edu.starts hedu, ?_, State.setRef_refTaken ?_ _ _ _⟩
  · exact (congrArg (fun e => e.miss.nat row) hedu).trans (State.startNoted_miss _ _ _ _)
  · exact State.noteSeedStart_wins _ _ _

/-- With no start due, the row off and FEN = 1 the edge feeds frequency mode (R156). -/
theorem State.edgeTaken_feeds (hd : s.startDue row = none) (ho : s.rowOk row = false)
    (hf : s.flag (F.RTA_FCFG_S_FEN row) = true) :
    s.edgeTaken row code = s.setUnit (264 + row) ((s.unitSt (264 + row)).freqEdge (s.rd (F.RTA_FCFG_S_PRESCM1 row) + 1)
      (s.startTime row code) (code.trail.map (s.edgeTime (264 + row)))) := by
  simp only [State.edgeTaken, hk, hd, ho, hf, Bool.not_false, Bool.and_self, if_true]

/-- An edge on a failed start TDC reaches channel B alone (R129). -/
theorem State.edgeTaken_of_failed {f : Flight} (hd : s.startDue row = some f) (hf : s.startFailed row = true) :
    s.edgeTaken row code = s := by
  simp only [State.edgeTaken, hk, hd, hf, if_true]

/-- So does one for which neither a fire nor frequency mode waits. -/
theorem State.edgeTaken_of_idle (hd : s.startDue row = none)
    (h : s.rowOk row = true ∨ s.flag (F.RTA_FCFG_S_FEN row) = false) : s.edgeTaken row code = s := by
  have hc : (!s.rowOk row && s.flag (F.RTA_FCFG_S_FEN row)) = false := by rcases h with h | h <;> simp [h]
  simp only [State.edgeTaken, hk, hd, hc, Bool.false_eq_true, if_false]

end

/-- In a SKEW slot the edge is the injected pulse, and enters the mean of the start TDC (R148). -/
theorem State.edgeTaken_skews (code : PulseCode) {d : Nat} (hk : s.skewDelay row = some d) :
    s.edgeTaken row code = s.addSkew (264 + row) (s.startTime row code - s.startSkewOf row - 16 * d) := by
  simp only [State.edgeTaken, hk]

theorem State.unitSt_addSkew (s : State) (n : Nat) (d : Int) : (s.addSkew n d).unitSt n =
    { s.unitSt n with skSum := (s.unitSt n).skSum + d, skN := (s.unitSt n).skN + 1 } :=
  (State.unitSt_setUnit _ _ _ _).trans (if_pos rfl)

/-! ### START_DEADLINE -/

/-- The row's fire whose start has not come in time (R100). -/
def State.startLate (s : State) (row : Nat) : Option Flight :=
  s.edu.starts.find? fun f => f.row == row && Nat.ble (f.t0 + 5) s.clk

/-- The start of a fire is missed: it is counted, and START_OFS is the reference (R100, R101). -/
def State.startMissed (s : State) (row : Nat) (f : Flight) : State :=
  ((s.startNoted row f (s.edu.miss.nat row + 1)).inc (F.EDU_SYNTH_COUNT row)).setRef row (s.startOfs row) true

theorem exec_startDeadline {f : Flight} (h : (s.begin t).startLate row = some f) :
    exec (.startDeadline t row) s = .next (if s.edu.miss.nat row + 1 == 8
      then ((s.begin t).startMissed row f).rowFault F.EDU_FAULT_LASER_FAULT row 0x10 else (s.begin t).startMissed row f) := by
  have hb : ((s.begin t).edu.starts.find? fun f => f.row == row && Nat.ble (f.t0 + 5) (s.begin t).clk) = some f := h
  dsimp only [exec, execStartDeadline]
  rw [hb]
  rfl

theorem Only.startMissed (s : State) (row : Nat) (f : Flight) : Only [.regs, .edu, .rta] s (s.startMissed row f) :=
  ((Only.modEdu s _).comp (Only.inc _ _) (rs := [.regs, .edu]) (by decide) (by decide)).comp (Only.setRef _ _ _ _)
    (by decide) (by decide)

theorem State.startMissed_word (s : State) (row : Nat) (f : Flight) (a : Nat) :
    (s.startMissed row f).word a = (s.inc (F.EDU_SYNTH_COUNT row)).word a :=
  State.word_of_regs ((Only.setRef _ _ _ _).2.2 .regs (by decide)) a

theorem State.startMissed_word_ne (s : State) {row : Nat} (f : Flight) {a : Nat} (h : a ≠ (F.EDU_SYNTH_COUNT row).addr) :
    (s.startMissed row f).word a = s.word a :=
  (s.startMissed_word row f a).trans (word_inc_ne _ _ _ h)

/-- What a missed start leaves: the fire no longer waits, the two counts, and the reference (R100, R101). -/
def State.missNoted (s u : State) (row : Nat) (f : Flight) : Prop :=
  u.edu.starts = s.edu.starts.filter (fun y => y.id != f.id) ∧ u.edu.miss.nat row = s.edu.miss.nat row + 1 ∧
  u.rd (F.EDU_SYNTH_COUNT row) = satN 20 (s.rd (F.EDU_SYNTH_COUNT row) + 1) ∧ s.refTaken u row (s.startOfs row) true

theorem State.startMissed_noted (s : State) (row : Nat) (f : Flight) : s.missNoted (s.startMissed row f) row f := by
  have hedu : (s.startMissed row f).edu = (s.startNoted row f (s.edu.miss.nat row + 1)).edu :=
    ((Only.setRef _ _ _ _).2.2 .edu (by decide)).trans ((Only.inc _ _).2.2 .edu (by decide))
  refine ⟨congrArg Edu.starts hedu, ?_, ?_, State.setRef_refTaken ?_ _ _ _⟩
  · exact (congrArg (fun e => e.miss.nat row) hedu).trans (State.startNoted_miss _ _ _ _)
  · exact (State.rd_of_word (s.startMissed_word row f _)).trans (rd_inc _ _ (Nat.zero_le _) (by simp [F.EDU_SYNTH_COUNT]))
  · exact congrArg Rta.wins ((Only.inc _ _).2.2 .rta (by decide))

/-- EDU_SYNTH is none of the words that a LASER_FAULT writes. -/
theorem synth_addr_not_mem (h : row < 8) : (F.EDU_SYNTH_COUNT row).addr ∉ F.EDU_FAULT_LASER_FAULT.addr :: evWords := by
  simp [F.EDU_SYNTH_COUNT, F.EDU_FAULT_LASER_FAULT, evWords, F.CTL_EVLOST_COUNT, F.LNK_EVLOST_COUNT]
  omega

/-- A miss that is not the eighth in a row. -/
theorem startDeadline_misses {f : Flight} (h : (s.begin t).startLate row = some f) (hn : s.edu.miss.nat row + 1 ≠ 8) :
    CompletesAt (.startDeadline t row) t s [.edu, .rta] [(F.EDU_SYNTH_COUNT row).addr] fun u => s.missNoted u row f := by
  have he := exec_startDeadline h
  rw [if_neg (by simpa using hn)] at he
  exact ⟨_, he, Only.startMissed _ _ _, fun a ha => (s.begin t).startMissed_word_ne f (by simpa using ha),
    (s.begin t).startMissed_noted row f⟩

/-- The eighth miss in a row is a LASER_FAULT (R101). -/
theorem startDeadline_faults {f : Flight} (hr : row < 8) (h : (s.begin t).startLate row = some f)
    (hn : s.edu.miss.nat row + 1 = 8) :
    CompletesAt (.startDeadline t row) t s (.edu :: .rta :: evParts)
      ((F.EDU_SYNTH_COUNT row).addr :: F.EDU_FAULT_LASER_FAULT.addr :: evWords) fun u =>
        s.missNoted u row f ∧ (s.begin t).told u 0x10 .fault row ∧
        ∀ k, k < 8 → bitOf (u.rd F.EDU_FAULT_LASER_FAULT) k = (bitOf (s.rd F.EDU_FAULT_LASER_FAULT) k || k == row) := by
  have he := exec_startDeadline h
  rw [if_pos (by simpa using hn)] at he
  have hm := Only.startMissed (s.begin t) row f
  have hx := Only.rowFault ((s.begin t).startMissed row f) F.EDU_FAULT_LASER_FAULT row 0x10
  obtain ⟨hst, hmi, hsy, href⟩ := (s.begin t).startMissed_noted row f
  have hedu := hx.2.2 .edu (by decide)
  have hq : F.EDU_FAULT_LASER_FAULT.addr ≠ (F.EDU_SYNTH_COUNT row).addr :=
    fun e => synth_addr_not_mem hr (e ▸ List.mem_cons_self)
  refine ⟨_, he, hm.comp hx (by decide) (by decide), fun a ha => ?_, ⟨?_, ?_, ?_, ?_⟩, ?_, fun k hk => ?_⟩
  · rw [List.mem_cons, not_or] at ha
    exact (State.rowFault_word _ _ _ _ ha.2).trans ((s.begin t).startMissed_word_ne f ha.1)
  · exact (congrArg Edu.starts hedu).trans hst
  · exact (congrArg (fun e => e.miss.nat row) hedu).trans hmi
  · exact (State.rd_of_word (State.rowFault_word _ _ _ _ (synth_addr_not_mem hr))).trans hsy
  · exact href.congr (hx.2.2 .rta (by decide))
  · exact State.told_of (State.rowFault_told _ _ _ _) (congrArg Mgmt.evq (hm.2.2 .mgmt (by decide))) rfl
      (now_of hm.1 (hm.2.2 .tofs (by decide)))
  · rw [State.rowFault_bit _ _ (by decide) (by simp [F.EDU_FAULT_LASER_FAULT]; omega)
      (by simp [F.EDU_FAULT_LASER_FAULT]; omega), State.rd_of_word ((s.begin t).startMissed_word_ne f hq)]
    rfl

end Sys2Proof.Machine

/-! ## MPD_READING (R102, R107, R113) -/

namespace Sys2Proof.Machine

variable {s : State} {t row : Nat} {m : BitVec 16} {f : Flight}

/-- The row's oldest fire without a reading whose integration has ended (R102). -/
def State.readingDue (s : State) (row : Nat) : Option Flight :=
  s.edu.reads.find? fun f => f.row == row && Nat.ble (f.endQ + 32) (4 * s.clk)

/-- The energy of a reading (R102). -/
def State.mpdEnergy (s : State) (m : BitVec 16) : Nat := cdiv (m.toNat * s.rd F.EDU_MPD_K_KMPD) (2 ^ 16)

/-- The reading is saturated, or beyond the permitted excess (R102, R113). -/
def State.excessive (s : State) (m : BitVec 16) (f : Flight) : Bool :=
  m.toNat == 0xFFFF || Nat.blt (f.epred * (256 + s.rd F.EDU_EXCESS_EXC)) (256 * s.mpdEnergy m)

/-- EDU_MPD_E of a row holds a reading (R102). -/
def State.mpdPut (s : State) (row m : Nat) (sat : Bool) : State := (s.wr (F.EDU_MPD_E_M row) m).put (F.EDU_MPD_E_SAT row) sat

theorem Only.mpdPut (s : State) (row m : Nat) (sat : Bool) : Only [.regs] s (s.mpdPut row m sat) :=
  (Only.wr _ _ _).trans (Only.put _ _ _)

/-- SAT and M stand in the same word. -/
theorem mpdSat_addr (row : Nat) : (F.EDU_MPD_E_SAT row).addr = (F.EDU_MPD_E_M row).addr := rfl

theorem State.mpdPut_word_ne (s : State) (m : Nat) (sat : Bool) {a : Nat} (h : a ≠ (F.EDU_MPD_E_M row).addr) :
    (s.mpdPut row m sat).word a = s.word a :=
  (word_put_ne _ _ _ _ (mpdSat_addr row ▸ h)).trans (word_wr_ne _ _ _ _ h)

theorem State.mpdPut_rd (s : State) (row m : Nat) (sat : Bool) : (s.mpdPut row m sat).rd (F.EDU_MPD_E_M row) = m % 2 ^ 16 := by
  rw [State.mpdPut, State.put, rd_wr_other _ _ _ _ le_rfl (by simp [F.EDU_MPD_E_SAT]) (by simp [F.EDU_MPD_E_M, F.EDU_MPD_E_SAT]),
    rd_wr _ _ _ (Nat.zero_le _) (by simp [F.EDU_MPD_E_M])]
  simp [F.EDU_MPD_E_M]

theorem State.mpdPut_flag (s : State) (row m : Nat) (sat : Bool) : (s.mpdPut row m sat).flag (F.EDU_MPD_E_SAT row) = sat :=
  flag_put _ _ _ rfl (by simp [F.EDU_MPD_E_SAT])

/-- The fire waits for no reading any longer. -/
def State.readTaken (s : State) (f : Flight) : State :=
  s.modEdu fun e => { e with reads := e.reads.filter fun y => y.id != f.id }

/-- The reading stands in EDU_MPD_E and in the charges. -/
def State.readingNoted (s : State) (row : Nat) (m : BitVec 16) (f : Flight) : State :=
  ((s.readTaken f).mpdPut row m.toNat (m.toNat == 0xFFFF)).addExcess f.t0 (s.mpdEnergy m - f.epred)

/-- The reading has been judged. -/
def State.readingJudged (s : State) (row : Nat) (m : BitVec 16) (f : Flight) : State :=
  if s.excessive m f then (s.readingNoted row m f).rowFault F.EDU_FAULT_EMIT_EXCESS row 0x11 else s.readingNoted row m f

/-- The state after a reading, of which L2 has taken the ratio. -/
def State.readingDone (s : State) (row : Nat) (m : BitVec 16) (f : Flight) : State :=
  let x := (s.readingJudged row m f).ratio (s.mpdEnergy m) f.enom
  x.2.l2Sample row x.1

theorem Only.addExcess (s : State) (t0 extra : Nat) : Only [.edu] s (s.addExcess t0 extra) := by
  unfold State.addExcess
  split
  · exact Only.refl _ _
  · exact Only.modEdu _ _

theorem State.addExcess_charges (s : State) (t0 x y : Nat) :
    (s.addExcess t0 (x - y)).charges = (s.edu.reads, s.edu.shots ++ if x ≤ y then [] else [⟨t0, x - y, s.clk⟩]) := by
  unfold State.addExcess
  by_cases h : x ≤ y
  · rw [if_pos h, if_pos (by simpa using Nat.sub_eq_zero_of_le h), List.append_nil]
    rfl
  · rw [if_neg h, if_neg (by simp; omega)]
    rfl

theorem Only.readingNoted (s : State) (row : Nat) (m : BitVec 16) (f : Flight) :
    Only [.regs, .edu] s (s.readingNoted row m f) :=
  ((Only.modEdu s _).comp (Only.mpdPut _ _ _ _) (rs := [.regs, .edu]) (by decide) (by decide)).comp (Only.addExcess _ _ _)
    (by decide) (by decide)

theorem State.readingNoted_word (s : State) (row : Nat) (m : BitVec 16) (f : Flight) (a : Nat) :
    (s.readingNoted row m f).word a = ((s.readTaken f).mpdPut row m.toNat (m.toNat == 0xFFFF)).word a :=
  State.word_of_regs ((Only.addExcess _ _ _).2.2 .regs (by decide)) a

theorem State.readingNoted_word_ne (s : State) (m : BitVec 16) (f : Flight) {a : Nat} (h : a ≠ (F.EDU_MPD_E_M row).addr) :
    (s.readingNoted row m f).word a = s.word a :=
  (s.readingNoted_word row m f a).trans ((s.readTaken f).mpdPut_word_ne _ _ h)

/-- EDU_MPD_E holds the reading. -/
theorem State.readingNoted_mpd (s : State) (row : Nat) (m : BitVec 16) (f : Flight) :
    (s.readingNoted row m f).rd (F.EDU_MPD_E_M row) = m.toNat ∧
    (s.readingNoted row m f).flag (F.EDU_MPD_E_SAT row) = (m.toNat == 0xFFFF) := by
  refine ⟨(State.rd_of_word (s.readingNoted_word row m f _)).trans ?_,
    (State.flag_of_word (s.readingNoted_word row m f _)).trans (State.mpdPut_flag _ _ _ _)⟩
  rw [State.mpdPut_rd, Nat.mod_eq_of_lt m.isLt]

theorem State.readingNoted_charges (s : State) (row : Nat) (m : BitVec 16) (f : Flight) :
    (s.readingNoted row m f).charges = (s.edu.reads.filter fun y => y.id != f.id,
      s.edu.shots ++ if s.mpdEnergy m ≤ f.epred then [] else [⟨f.t0, s.mpdEnergy m - f.epred, s.clk⟩]) := by
  have hp := Only.mpdPut (s.readTaken f) row m.toNat (m.toNat == 0xFFFF)
  have hedu : ((s.readTaken f).mpdPut row m.toNat (m.toNat == 0xFFFF)).edu = (s.readTaken f).edu := hp.2.2 .edu (by decide)
  rw [State.readingNoted, State.addExcess_charges, hedu, hp.1]
  rfl

/-- EDU_MPD_E is none of the words that the judgement, L2 and the event write. -/
theorem mpd_addr_not_mem (h : row < 8) :
    (F.EDU_MPD_E_M row).addr ∉ F.EDU_FAULT_EMIT_EXCESS.addr :: l2Words ++ evWords := by
  have hl : ∀ a ∈ F.EDU_FAULT_EMIT_EXCESS.addr :: l2Words ++ evWords, a < 0x2018 ∨ 0x2020 ≤ a := by decide
  exact fun hm => by have := hl _ hm; simp only [F.EDU_MPD_E_M] at this; omega

theorem exec_mpdReading (h : (s.begin t).readingDue row = some f) (hr : row < 8) :
    exec (.mpdReading t row m) s = .next ((s.begin t).readingDone row m f) := by
  have hb : ((s.begin t).edu.reads.find? fun f => f.row == row && Nat.ble (f.endQ + 32) (4 * (s.begin t).clk)) = some f := h
  have hx : ((s.begin t).readingNoted row m f).rd F.EDU_EXCESS_EXC = (s.begin t).rd F.EDU_EXCESS_EXC :=
    State.rd_of_word ((s.begin t).readingNoted_word_ne m f (by simp [F.EDU_EXCESS_EXC, F.EDU_MPD_E_M]; omega))
  unfold State.readingDone State.readingJudged State.excessive
  rw [← hx]
  dsimp only [exec, execMpdReading]
  rw [hb]
  rfl

theorem Only.readingJudged (s : State) (row : Nat) (m : BitVec 16) (f : Flight) :
    Only (.regs :: .edu :: evParts) s (s.readingJudged row m f) := by
  unfold State.readingJudged
  split
  · exact (Only.readingNoted _ _ _ _).comp (Only.rowFault _ _ _ _) (by decide) (by decide)
  · exact (Only.readingNoted _ _ _ _).mono (by simp)

theorem State.readingJudged_word (s : State) (m : BitVec 16) (f : Flight) {a : Nat}
    (h : a ∉ F.EDU_FAULT_EMIT_EXCESS.addr :: evWords) : (s.readingJudged row m f).word a = (s.readingNoted row m f).word a := by
  unfold State.readingJudged
  split
  · exact State.rowFault_word _ _ _ _ h
  · rfl

theorem State.readingJudged_charges (s : State) (row : Nat) (m : BitVec 16) (f : Flight) :
    (s.readingJudged row m f).charges = (s.readingNoted row m f).charges := by
  unfold State.readingJudged
  split
  · exact State.charges_of_edu ((Only.rowFault _ _ _ _).2.2 .edu (by decide))
  · rfl

/-- EMIT_EXCESS of the row is set by a reading that is excessive. -/
theorem State.readingJudged_bit (s : State) (hr : row < 8) (m : BitVec 16) (f : Flight) {k : Nat} (hk : k < 8) :
    bitOf ((s.readingJudged row m f).rd F.EDU_FAULT_EMIT_EXCESS) k =
      (bitOf (s.rd F.EDU_FAULT_EMIT_EXCESS) k || (s.excessive m f && k == row)) := by
  have hn : (s.readingNoted row m f).rd F.EDU_FAULT_EMIT_EXCESS = s.rd F.EDU_FAULT_EMIT_EXCESS :=
    State.rd_of_word (s.readingNoted_word_ne m f (by simp [F.EDU_FAULT_EMIT_EXCESS, F.EDU_MPD_E_M]; omega))
  unfold State.readingJudged
  cases s.excessive m f with
  | true =>
    rw [if_pos rfl, State.rowFault_bit _ _ (by decide) (by simp [F.EDU_FAULT_EMIT_EXCESS]; omega)
      (by simp [F.EDU_FAULT_EMIT_EXCESS]; omega), hn, Bool.true_and]
  | false => rw [if_neg Bool.false_ne_true, hn, Bool.false_and, Bool.or_false]

theorem Only.ratio (s : State) (x y : Nat) : Only [.free] s (s.ratio x y).2 :=
  ⟨by simp, by simp, fun p hp => by cases p <;> simp_all [Part.same]⟩

/-- A fire with a nominal energy has a stated ratio, and nothing is drawn. -/
theorem State.ratio_of_ne (s : State) (x : Nat) {y : Nat} (h : y ≠ 0) : (s.ratio x y).2 = s := by
  simp [State.ratio, h]

theorem Only.readingDone (s : State) (row : Nat) (m : BitVec 16) (f : Flight) :
    Only (.regs :: .edu :: .free :: evParts) s (s.readingDone row m f) :=
  ((Only.readingJudged s row m f).comp (Only.ratio _ _ _) (rs := .regs :: .edu :: .free :: evParts) (by decide)
    (by decide)).comp (Only.l2Sample _ _ _) (by decide) (by decide)

theorem State.readingDone_charges (s : State) (row : Nat) (m : BitVec 16) (f : Flight) :
    (s.readingDone row m f).charges = (s.readingNoted row m f).charges := by
  unfold State.readingDone
  rw [State.l2Sample_charges, State.charges_of_edu ((Only.ratio _ _ _).2.2 .edu (by decide)), s.readingJudged_charges]

theorem State.readingDone_word (s : State) (hr : row < 8) (m : BitVec 16) (f : Flight) {a : Nat} (h : a ∉ l2Words)
    (he : a ∉ evWords) : (s.readingDone row m f).word a = (s.readingJudged row m f).word a :=
  (State.l2Sample_word _ _ hr h he).trans (State.word_of_regs ((Only.ratio _ _ _).2.2 .regs (by decide)) a)

theorem State.readingDone_free (s : State) (row : Nat) (m : BitVec 16) (h : f.enom ≠ 0) :
    (s.readingDone row m f).free = s.free := by
  refine ((Only.l2Sample _ _ _).2.2 .free (by decide)).trans ?_
  rw [State.ratio_of_ne _ _ h]
  exact (Only.readingJudged s row m f).2.2 .free (by decide)

/-- The reading of the row's oldest fire, its charge, its judgement, and L2's sample. -/
theorem mpdReading_completes (hr : row < 8) (h : (s.begin t).readingDue row = some f) :
    CompletesAt (.mpdReading t row m) t s (.edu :: .free :: evParts)
      ((F.EDU_MPD_E_M row).addr :: F.EDU_FAULT_EMIT_EXCESS.addr :: l2Words ++ evWords) fun u =>
        u.rd (F.EDU_MPD_E_M row) = m.toNat ∧ u.flag (F.EDU_MPD_E_SAT row) = (m.toNat == 0xFFFF) ∧
        u.edu.reads = s.edu.reads.filter (fun y => y.id != f.id) ∧
        u.edu.shots = s.edu.shots ++ (if s.mpdEnergy m ≤ f.epred then [] else
          [⟨f.t0, s.mpdEnergy m - f.epred, (s.begin t).clk⟩]) ∧
        (∀ k, k < 8 → bitOf (u.rd F.EDU_FAULT_EMIT_EXCESS) k =
          (bitOf (s.rd F.EDU_FAULT_EMIT_EXCESS) k || (s.excessive m f && k == row))) ∧
        (f.enom ≠ 0 → u.free = s.free) := by
  obtain ⟨hreads, hshots⟩ := State.charges_eq_iff.mp
    (((s.begin t).readingDone_charges row m f).trans ((s.begin t).readingNoted_charges row m f))
  have hword : ∀ a, a ∉ F.EDU_FAULT_EMIT_EXCESS.addr :: l2Words ++ evWords →
      ((s.begin t).readingDone row m f).word a = ((s.begin t).readingNoted row m f).word a := by
    intro a ha
    simp only [List.cons_append, List.mem_cons, List.mem_append, not_or] at ha
    obtain ⟨hx, hl, he⟩ := ha
    exact ((s.begin t).readingDone_word hr m f hl he).trans
      ((s.begin t).readingJudged_word m f (by simp only [List.mem_cons, not_or]; exact ⟨hx, he⟩))
  have hmpd := hword _ (mpd_addr_not_mem hr)
  obtain ⟨hm, hsat⟩ := (s.begin t).readingNoted_mpd row m f
  refine ⟨_, exec_mpdReading h hr, Only.readingDone _ _ _ _, fun a ha => ?_, (State.rd_of_word hmpd).trans hm,
    (State.flag_of_word (mpdSat_addr row ▸ hmpd)).trans hsat, hreads, hshots, fun k hk => ?_,
    (s.begin t).readingDone_free row m⟩
  · rw [List.cons_append, List.mem_cons, not_or] at ha
    exact (hword a ha.2).trans ((s.begin t).readingNoted_word_ne m f ha.1)
  · rw [State.rd_of_word ((s.begin t).readingDone_word hr m f (by decide) (by decide))]
    exact (s.begin t).readingJudged_bit hr m f hk

/-- Settles O36, by the branches of a start edge, the missed starts, and the reading with L2's sample. -/
theorem startsAndReadingsAreTakenOrMissed : Obligations.StartsAndReadingsAreTakenOrMissed := by
  refine ⟨fun s t row hr => ⟨fun code bin hw => ?_, fun f hl => ⟨startDeadline_misses hl, startDeadline_faults hr hl⟩⟩,
    fun s t row m f hr hd => mpdReading_completes hr hd⟩
  have hnone : (∀ d, ¬ ∃ w post, assoc s.rta.wins row = some w ∧ w.post = some post ∧ post.kind = .cal ∧ post.mode = 1 ∧
      post.delay = d) → s.skewDelay row = none := fun h =>
    Option.eq_none_iff_forall_ne_some.mpr fun d hd => h d (State.skewDelay_eq_some.mp hd)
  refine ⟨fun hk f hd => ⟨fun hf => ?_, fun hf => ?_⟩, fun hk hd => ⟨fun ho hf => ?_, fun h => ?_⟩, fun d hk => ?_⟩ <;>
    refine startEdge_completes hr hw bin (by decide) ?_ <;> intro v
  · exact State.edgeTaken_starts (s := v) code (hnone hk) hd hf
  · rw [State.edgeTaken_of_failed (s := v) code (hnone hk) hd hf]
    exact ⟨Only.refl _ _, trivial⟩
  · rw [State.edgeTaken_feeds (s := v) code (hnone hk) hd ho hf]
    exact ⟨Only.setUnit _ _ _, (State.unitSt_setUnit _ _ _ _).trans (if_pos rfl),
      fun k h => (State.unitSt_setUnit _ _ _ _).trans (if_neg h)⟩
  · rw [State.edgeTaken_of_idle (s := v) code (hnone hk) hd h]
    exact ⟨Only.refl _ _, trivial⟩
  · rw [State.edgeTaken_skews (s := v) code (State.skewDelay_eq_some.mpr hk)]
    exact ⟨Only.setUnit _ _ _, congrArg UnitSt.skN (v.unitSt_addSkew _ _), congrArg UnitSt.skSum (v.unitSt_addSkew _ _)⟩

end Sys2Proof.Machine

/-! ## RTA_PCFG (R155, R160)

What a WRITE of a register of one word leaves where its rule lets it through, and where it turns it away; and the rule of
RTA_PCFG. -/

namespace Sys2Proof.Machine

variable {s : State} {t a p : Nat} {d : Word} {fs : List FieldDesc} {st : Status} {u : State}

/-! ### A WRITE of a register of one word -/

/-- A register of one word whose rule does not answer OK is as it was. -/
theorem State.writeReg_of_not_ok (hm : multiOf a = none) (hr : s.ruleOf (s.poke a d) a d = (st, u)) (hn : st ≠ .ok) :
    s.writeReg a d = (st, s) := by
  unfold State.writeReg
  rw [hm]
  dsimp only
  rw [hr]
  split
  next he => exact absurd (congrArg Prod.fst he) hn
  next he => rw [(Prod.mk.inj he).1]

/-- What a WRITE leaves that its rule turns away: the response alone. -/
theorem hostWrite_turnedAway {c : Instr} (hc : exec c s = s.hostWrite t a d) (h : s.portOpen)
    (hf : RegMap.fieldsAt a = some fs) (hr : r25 fs = none) (hm : multiOf a = none)
    (hw : (s.begin t).ruleOf ((s.begin t).poke a d) a d = (st, u)) (hn : st ≠ .ok) :
    Completes c t s [.mgmt] fun u => s.answered u a st :=
  ⟨_, hc.trans (State.hostWrite_of_register h hf hr t d (State.writeReg_of_not_ok hm hw hn)),
    Only.respond (Only.refl _ _) (by simp) _ _, State.respond_answered ..⟩

/-- A WRITE that its rule lets through answers the state of the rule. -/
theorem hostWrite_taken {c : Instr} (hc : exec c s = s.hostWrite t a d) (h : s.portOpen)
    (hf : RegMap.fieldsAt a = some fs) (hr : r25 fs = none) (hm : multiOf a = none)
    (hw : (s.begin t).ruleOf ((s.begin t).poke a d) a d = (.ok, u)) :
    exec c s = .next (u.respond ⟨.ok, BitVec.ofNat 16 a, u.view a⟩ s.mgmt.resp) :=
  hc.trans (State.hostWrite_of_register h hf hr t d (State.writeReg_of_ok hm hw))

/-! ### The register -/

theorem fieldsAt_pcfg (hp : p < 256) : ∃ fs, RegMap.fieldsAt (0x4000 + 16 * p) = some fs ∧ r25 fs = none := by
  have hb : (0x4000 + 16 * p) / 4096 = 4 := by omega
  obtain ⟨fs, l, hl, hr⟩ : ∃ fs l, RegMap.rows4 = ⟨0x4000, 256, 16, fs⟩ :: l ∧ r25 fs = none := ⟨_, _, rfl, by decide⟩
  have hh : RegMap.RegRow.has ⟨0x4000, 256, 16, fs⟩ (0x4000 + 16 * p) = true := by simp [RegMap.RegRow.has, hp]
  refine ⟨fs, ?_, hr⟩
  simp only [RegMap.fieldsAt, RegMap.rowsOf, hb, hl, List.find?_cons, hh, Option.map_some]

theorem multiOf_pcfg (hp : p < 256) : multiOf (0x4000 + 16 * p) = none := by
  have hb : (0x4000 + 16 * p) / 4096 = 4 := by omega
  simp [multiOf, multiWords, hb, within]

theorem ruleOf_pcfg (s v : State) (hp : p < 256) (d : Word) :
    s.ruleOf v (0x4000 + 16 * p) d = s.writePcfg v (0x4000 + 16 * p) p := by
  have hb : (0x4000 + 16 * p) / 4096 = 4 := by omega
  have hm : (0x4000 + 16 * p) % 16 = 0 := by omega
  have hi : (0x4000 + 16 * p - 0x4000) / 16 = p := by omega
  simp [State.ruleOf, hb, hm, hi]

theorem exec_portDisable (hp : p < 256) : exec (.portDisable t p d) s = s.hostWrite t (0x4000 + 16 * p) d := by
  have hb : Nat.blt p 256 = true := by simpa using hp
  exact if_pos hb

theorem exec_portEnable (hp : p < 256) : exec (.portEnable t p d) s = s.hostWrite t (0x4000 + 16 * p) d := by
  have hb : Nat.blt p 256 = true := by simpa using hp
  exact if_pos hb

/-! ### The port's conditions -/

theorem State.respond_flag (s : State) (r due : Resp) (f : Fld) : (s.respond r due).flag f = s.flag f :=
  State.flag_of_word (s.respond_word r due _)

theorem poke_pcfg (s : State) (hp : p < 256) (d : Word) :
    s.poke (0x4000 + 16 * p) d = s.setWord (0x4000 + 16 * p) (s.mixed (0x4000 + 16 * p) d) :=
  State.poke_of_one_word _ (multiOf_pcfg hp) _

/-- A write of RTA_PCFG leaves the port's status. -/
theorem pcfgPoke_word_ne (s : State) (hp : p < 256) (d : Word) {b : Nat} (hb : b ≠ 0x4000 + 16 * p) :
    (s.poke (0x4000 + 16 * p) d).word b = s.word b := by
  rw [poke_pcfg s hp, word_setWord, if_neg hb]

theorem pcfgPoke_word (s : State) (hp : p < 256) (d : Word) :
    (s.poke (0x4000 + 16 * p) d).word (0x4000 + 16 * p) = s.mixed (0x4000 + 16 * p) d := by
  rw [poke_pcfg s hp, word_setWord, if_pos rfl]

theorem Only.pcfgPoke (s : State) (hp : p < 256) (d : Word) : Only [.regs] s (s.poke (0x4000 + 16 * p) d) := by
  rw [poke_pcfg s hp]
  exact Only.setWord _ _ _

/-- The fields that a port's taking of stops depends on, besides the receivers. -/
def stopFields (p : Nat) : List Fld :=
  [F.RTA_PCFG_EN p, F.RTA_PSTAT_OFF p, F.CTL_PROFILE_GATED, F.RTA_PSTAT_FAILED p, F.RTA_PSTAT_SPARED p,
    F.RTA_SPARE_INUSE (rowOf p), F.RTA_SPARE_SRC (rowOf p)]

theorem State.takesStops_of (hr : ∀ f ∈ stopFields p, u.rd f = s.rd f) (ha : u.rta = s.rta) :
    u.takesStops p = s.takesStops p := by
  simp only [stopFields, List.forall_mem_cons] at hr
  obtain ⟨hen, hoff, hgated, hfailed, hspared, huse, hsrc, -⟩ := hr
  unfold State.takesStops State.enabled State.portOff State.gated State.servedBy State.substRunning State.flag
  dsimp only
  rw [hen, hoff, hgated, hfailed, hspared, huse, hsrc, ha]

/-- ACTIVE is none of them. -/
theorem State.refreshActive_takesStops (s : State) (p : Nat) : (s.refreshActive p).takesStops p = s.takesStops p := by
  refine State.takesStops_of (fun f hf => rd_wr_other s (F.RTA_PSTAT_ACTIVE p) f _ le_rfl (by simp [F.RTA_PSTAT_ACTIVE]) ?_)
    (by simp)
  simp only [stopFields, List.mem_cons, List.not_mem_nil, or_false] at hf
  rcases hf with rfl | rfl | rfl | rfl | rfl | rfl | rfl
  case inr.inr.inr.inr.inr.inl =>
    exact .inl (by simp [F.RTA_SPARE_INUSE, F.RTA_PSTAT_ACTIVE, rowOf]; omega)
  case inl => exact .inl (by simp [F.RTA_PCFG_EN, F.RTA_PSTAT_ACTIVE])
  all_goals exact .inr (.inl (by simp [F.RTA_PSTAT_ACTIVE, F.RTA_PSTAT_OFF, F.CTL_PROFILE_GATED, F.RTA_PSTAT_FAILED,
    F.RTA_PSTAT_SPARED, F.RTA_SPARE_SRC]))

theorem State.refreshActive_active (s : State) (p : Nat) :
    (s.refreshActive p).flag (F.RTA_PSTAT_ACTIVE p) = s.takesStops p :=
  flag_put _ _ _ rfl (by simp [F.RTA_PSTAT_ACTIVE])

theorem State.refreshActive_word_ne (s : State) {b : Nat} (h : b ≠ 0x4004 + 16 * p) :
    (s.refreshActive p).word b = s.word b :=
  word_put_ne _ _ _ _ h

theorem Only.refreshActive (s : State) (p : Nat) : Only [.regs] s (s.refreshActive p) := Only.put _ _ _

theorem State.respond_takesStops (s : State) (r due : Resp) (p : Nat) : (s.respond r due).takesStops p = s.takesStops p :=
  State.takesStops_of (fun f _ => State.rd_of_word (s.respond_word r due f.addr)) rfl

/-! ### The rule -/

/-- EN = 0 has been taken and waits for the shot boundary (R155). -/
def State.disabling (s : State) (p : Nat) : State :=
  (s.put (F.RTA_PSTAT_PDRAINED p) false).modRta fun x => { x with disabling := p :: x.disabling }

theorem Only.disabling (s : State) (p : Nat) : Only [.regs, .rta] s (s.disabling p) :=
  (Only.put _ _ _).comp (Only.modRta _ _) (by decide) (by decide)

theorem State.disabling_word_ne (s : State) {b : Nat} (h : b ≠ 0x4004 + 16 * p) : (s.disabling p).word b = s.word b :=
  (modRta_word _ _ _).trans (word_put_ne _ _ _ _ h)

theorem State.disabling_drained (s : State) (p : Nat) : (s.disabling p).flag (F.RTA_PSTAT_PDRAINED p) = false :=
  flag_put s (F.RTA_PSTAT_PDRAINED p) false rfl (by simp [F.RTA_PSTAT_PDRAINED])

theorem State.disabling_rta (s : State) (p : Nat) :
    (s.disabling p).rta = { s.rta with disabling := p :: s.rta.disabling } := by
  simp [State.disabling]

section
variable {v : State}

theorem State.writePcfg_disables (hw : s.flag (F.RTA_PCFG_EN p) = true) (hn : v.flag (F.RTA_PCFG_EN p) = false)
    (hl : v.limitOk a = true) : s.writePcfg v a p = (.ok, v.disabling p) := by
  simp [State.writePcfg, hw, hn, hl, State.disabling]

theorem State.writePcfg_enables (hw : s.flag (F.RTA_PCFG_EN p) = false) (hn : v.flag (F.RTA_PCFG_EN p) = true)
    (hd : s.flag (F.RTA_PSTAT_PDRAINED p) = true) (hl : v.limitOk a = true) : s.writePcfg v a p = (.ok, v.refreshActive p) := by
  simp [State.writePcfg, hw, hn, hd, hl]

theorem State.writePcfg_draining (hw : s.flag (F.RTA_PCFG_EN p) = false) (hn : v.flag (F.RTA_PCFG_EN p) = true)
    (hd : s.flag (F.RTA_PSTAT_PDRAINED p) = false) : s.writePcfg v a p = (.draining, s) := by
  simp [State.writePcfg, hw, hn, hd]

end

/-! ### The write -/

section
variable (h : s.portOpen) (hp : p < 256)
include h hp

/-- A write of RTA_PCFG that is taken changes its word and the port's status. -/
theorem pcfgWrite_taken {c : Instr} (hc : exec c s = s.hostWrite t (0x4000 + 16 * p) d) {g : State → State} {ps : List Part}
    (hrule : (s.begin t).writePcfg ((s.begin t).poke (0x4000 + 16 * p) d) (0x4000 + 16 * p) p =
      (.ok, g ((s.begin t).poke (0x4000 + 16 * p) d)))
    (hg : ∀ v : State, Only (.regs :: ps) v (g v)) (hword : ∀ (v : State) b, b ≠ 0x4004 + 16 * p → (g v).word b = v.word b)
    {P : State → Prop} (hP : ∀ (v : State) (r due : Resp), v.rta = s.rta → P ((g v).respond r due)) :
    CompletesAt c t s (.mgmt :: ps) [0x4000 + 16 * p, 0x4000 + 16 * p + 4] fun u =>
      s.answered u (0x4000 + 16 * p) .ok ∧ u.word (0x4000 + 16 * p) = (s.begin t).mixed (0x4000 + 16 * p) d ∧ P u := by
  obtain ⟨fs, hf, hr⟩ := fieldsAt_pcfg hp
  have hne := fun b => pcfgPoke_word_ne (s.begin t) (b := b) hp d
  have hself := pcfgPoke_word (s.begin t) hp d
  have honly := Only.pcfgPoke (s.begin t) hp d
  refine ⟨_, hostWrite_taken hc h hf hr (multiOf_pcfg hp) ((ruleOf_pcfg _ _ hp d).trans hrule), ?_, fun b hb => ?_,
    State.respond_answered .., ?_, hP _ _ _ (honly.2.2 .rta (by decide))⟩
  · exact Only.respond (honly.comp (hg _) (by simp) (fun q hq => by
      rcases List.mem_cons.mp hq with rfl | hq <;> simp [*])) (by simp) _ _
  · simp only [List.mem_cons, List.not_mem_nil, or_false, not_or] at hb
    rw [State.respond_word, hword _ _ (by omega), hne b hb.1, begin_word]
  · rw [State.respond_word, hword _ _ (by omega), hself]

/-- EN = 0 of a port (R155). -/
theorem portDisable_waits (hw : s.flag (F.RTA_PCFG_EN p) = true)
    (hn : ((s.begin t).poke (0x4000 + 16 * p) d).flag (F.RTA_PCFG_EN p) = false)
    (hl : ((s.begin t).poke (0x4000 + 16 * p) d).limitOk (0x4000 + 16 * p) = true) :
    CompletesAt (.portDisable t p d) t s [.mgmt, .rta] [0x4000 + 16 * p, 0x4000 + 16 * p + 4] fun u =>
      s.answered u (0x4000 + 16 * p) .ok ∧ u.word (0x4000 + 16 * p) = (s.begin t).mixed (0x4000 + 16 * p) d ∧
      u.flag (F.RTA_PSTAT_PDRAINED p) = false ∧ u.rta = { s.rta with disabling := p :: s.rta.disabling } :=
  pcfgWrite_taken (ps := [.rta]) (g := (·.disabling p)) h hp (exec_portDisable hp)
    (State.writePcfg_disables ((begin_flag s t _).trans hw) hn hl) (fun v => Only.disabling v p)
    (fun v b => v.disabling_word_ne) fun v r due hv =>
      ⟨(State.respond_flag _ r due _).trans (v.disabling_drained p), (v.disabling_rta p).trans (by rw [hv])⟩

/-- EN = 1 of a drained port (R155). -/
theorem portEnable_activates (hw : s.flag (F.RTA_PCFG_EN p) = false)
    (hn : ((s.begin t).poke (0x4000 + 16 * p) d).flag (F.RTA_PCFG_EN p) = true)
    (hd : s.flag (F.RTA_PSTAT_PDRAINED p) = true)
    (hl : ((s.begin t).poke (0x4000 + 16 * p) d).limitOk (0x4000 + 16 * p) = true) :
    CompletesAt (.portEnable t p d) t s [.mgmt] [0x4000 + 16 * p, 0x4000 + 16 * p + 4] fun u =>
      s.answered u (0x4000 + 16 * p) .ok ∧ u.word (0x4000 + 16 * p) = (s.begin t).mixed (0x4000 + 16 * p) d ∧
      u.flag (F.RTA_PSTAT_ACTIVE p) = u.takesStops p :=
  pcfgWrite_taken (ps := []) (g := (·.refreshActive p)) h hp (exec_portEnable hp)
    (State.writePcfg_enables ((begin_flag s t _).trans hw) hn ((begin_flag s t _).trans hd) hl)
    (fun v => Only.refreshActive v p) (fun v b => v.refreshActive_word_ne) fun v r due _ =>
by
      rw [State.respond_flag, State.respond_takesStops, v.refreshActive_active p, v.refreshActive_takesStops p]

/-- EN = 1 of a port that is not drained (R155). -/
theorem portEnable_draining (hw : s.flag (F.RTA_PCFG_EN p) = false)
    (hn : ((s.begin t).poke (0x4000 + 16 * p) d).flag (F.RTA_PCFG_EN p) = true)
    (hd : s.flag (F.RTA_PSTAT_PDRAINED p) = false) :
    Completes (.portEnable t p d) t s [.mgmt] fun u => s.answered u (0x4000 + 16 * p) .draining := by
  obtain ⟨fs, hf, hr⟩ := fieldsAt_pcfg hp
  exact hostWrite_turnedAway (exec_portEnable hp) h hf hr (multiOf_pcfg hp) ((ruleOf_pcfg _ _ hp d).trans
    (State.writePcfg_draining ((begin_flag s t _).trans hw) hn ((begin_flag s t _).trans hd))) (by decide)

end

/-- Settles O22. -/
theorem portsAreDisabledAndEnabled : Obligations.PortsAreDisabledAndEnabled :=
  fun _ _ _ _ h hp => ⟨portDisable_waits h hp, portEnable_activates h hp, portEnable_draining h hp⟩

end Sys2Proof.Machine

/-! ## RTA_SPAREr, RTA_AIRIDX and RPE_EHIST (R144, R152, R154, R206, R210) -/

namespace Sys2Proof.Machine

variable {s u : State} {t r p : Nat} {d : Word}

/-! ### The registers -/

theorem fieldsAt_spare (hr : r < 8) : ∃ fs, RegMap.fieldsAt (0x5008 + r) = some fs ∧ r25 fs = none := by
  interval_cases r <;> exact ⟨_, rfl, rfl⟩

theorem multiOf_spare (hr : r < 8) : multiOf (0x5008 + r) = none := by interval_cases r <;> rfl

theorem ruleOf_spare (s v : State) (hr : r < 8) (d : Word) : s.ruleOf v (0x5008 + r) d = s.writeSpare r d := by
  interval_cases r <;> rfl

theorem exec_manualSubstitution (hr : r < 8) : exec (.manualSubstitution t r d) s = s.hostWrite t (0x5008 + r) d := by
  have hb : Nat.blt r 8 = true := by simpa using hr
  exact if_pos hb

theorem exec_airidxWrite : exec (.airidxWrite t d) s = s.hostWrite t 0x5004 d := rfl

theorem exec_rpeEhistWrite : exec (.rpeEhistWrite t d) s = s.hostWrite t 0x6014 d := rfl

/-! ### RTA_AIRIDX -/

/-- The one field of RTA_AIRIDX is written whole. -/
theorem State.mixed_airidx (s : State) (d : Word) : s.mixed 0x5004 d = d := by
  have hf : RegMap.fieldsAt 0x5004 = some [⟨19, 0, .rw, 4530⟩] := rfl
  have hrw : RegMap.mask [⟨19, 0, .rw, 4530⟩] (fun x => x == .rw) = BitVec.allOnes 20 := by decide
  have hw1c : RegMap.mask [⟨19, 0, .rw, 4530⟩] (fun x => x == .w1c) = 0#20 := by decide
  have hst : stuckBits 0x5004 = 0#20 := by decide
  unfold State.mixed
  rw [hf]
  dsimp only
  rw [hrw, hw1c, hst]
  simp only [BitVec.not_allOnes, BitVec.and_zero, BitVec.zero_or, BitVec.and_allOnes, BitVec.zero_and, BitVec.not_zero,
    BitVec.or_zero]

theorem State.poke_airidx (s : State) (d : Word) : s.poke 0x5004 d = s.setWord 0x5004 d := by
  rw [State.poke_of_one_word _ rfl, State.mixed_airidx]

theorem State.setWord_airidx (s : State) (d : Word) : (s.setWord 0x5004 d).rd F.RTA_AIRIDX_AIRIDX = d.toNat := by
  have hd := d.isLt
  have hw : (s.setWord 0x5004 d).word F.RTA_AIRIDX_AIRIDX.addr = d := (word_setWord _ _ _ _).trans (if_pos rfl)
  rw [State.rd, hw]
  simp [F.RTA_AIRIDX_AIRIDX, bitsOf]
  omega

theorem State.ruleOf_airidx (s v : State) (d : Word) : s.ruleOf v 0x5004 d = s.writeAir v := rfl

theorem State.writeAir_within (h : ((d.toNat : Int) - s.boot.airidx).natAbs ≤ s.rd F.RTA_AIRDEV_AIRDEV) :
    s.writeAir (s.setWord 0x5004 d) = (.ok, (s.setWord 0x5004 d).setKr) := by
  unfold State.writeAir
  rw [State.setWord_airidx]
  exact if_neg (by simpa using h)

theorem State.writeAir_beyond (h : s.rd F.RTA_AIRDEV_AIRDEV < ((d.toNat : Int) - s.boot.airidx).natAbs) :
    s.writeAir (s.setWord 0x5004 d) = (.refused, s) := by
  unfold State.writeAir
  rw [State.setWord_airidx]
  exact if_pos (by simpa using h)

theorem Only.setKr (s : State) : Only [.regs] s s.setKr := Only.wrWide _ _ _ _

theorem State.kr_lt (s : State) : s.kr < 2 ^ 40 := by
  have hb : s.rd F.RTA_AIRIDX_AIRIDX < 2 ^ 20 := bitsOf_lt _ _ _
  unfold State.kr
  generalize s.rd F.RTA_AIRIDX_AIRIDX = x at hb
  calc (9823599 * 2 ^ 24 + (2 ^ 24 + x) / 2) / (2 ^ 24 + x)
      ≤ (9823599 * 2 ^ 24 + (2 ^ 24 + x) / 2) / 2 ^ 24 := Nat.div_le_div_left (by omega) (by decide)
    _ < 2 ^ 40 := by omega

theorem airidxWrite_taken (h : s.portOpen) (hd : ((d.toNat : Int) - s.boot.airidx).natAbs ≤ s.rd F.RTA_AIRDEV_AIRDEV) :
    CompletesAt (.airidxWrite t d) t s [.mgmt] [0x5004, 0x6300, 0x6301] fun u =>
      s.answered u 0x5004 .ok ∧ u.rd F.RTA_AIRIDX_AIRIDX = d.toNat ∧
      u.rdWide 0x6300 2 = (9823599 * 2 ^ 24 + (2 ^ 24 + d.toNat) / 2) / (2 ^ 24 + d.toNat) := by
  have hrule : (s.begin t).ruleOf ((s.begin t).poke 0x5004 d) 0x5004 d = (.ok, ((s.begin t).setWord 0x5004 d).setKr) := by
    rw [State.poke_airidx]
    exact State.writeAir_within (s := s.begin t) hd
  have hair := (s.begin t).setWord_airidx d
  refine ⟨_, hostWrite_taken exec_airidxWrite h (fs := [⟨19, 0, .rw, 4530⟩]) rfl rfl rfl hrule,
    Only.respond ((Only.setWord _ _ _).comp (Only.setKr _) (by simp) (by simp)) (by simp) _ _, fun a ha => ?_,
    State.respond_answered .., ?_, ?_⟩
  · simp only [List.mem_cons, List.not_mem_nil, or_false, not_or] at ha
    rw [State.respond_word, State.setKr, State.wrWide_word _ _ _ _ (by omega), word_setWord, if_neg ha.1, begin_word]
  · rw [State.rd_of_word (State.respond_word _ _ _ _), State.setKr, State.rd_of_word (State.wrWide_word _ _ _ _ (by decide)),
      hair]
  · rw [State.rdWide_of_words fun i _ => State.respond_word _ _ _ _, State.setKr, State.rdWide_wrWide_two _ _ (State.kr_lt _),
      State.kr, hair]

theorem airidxWrite_refused (h : s.portOpen) (hd : s.rd F.RTA_AIRDEV_AIRDEV < ((d.toNat : Int) - s.boot.airidx).natAbs) :
    Completes (.airidxWrite t d) t s [.mgmt] fun u => s.answered u 0x5004 .refused := by
  have hrule : (s.begin t).ruleOf ((s.begin t).poke 0x5004 d) 0x5004 d = (.refused, s.begin t) := by
    rw [State.poke_airidx]
    exact State.writeAir_beyond (s := s.begin t) hd
  exact hostWrite_turnedAway exec_airidxWrite h (fs := [⟨19, 0, .rw, 4530⟩]) rfl rfl rfl hrule (by decide)

/-! ### RPE_EHIST -/

theorem State.ruleOf_ehist (s v : State) (d : Word) :
    s.ruleOf v 0x6014 d = if v.limitOk 0x6014 then (.ok, v.clearHistory) else (.refused, s) := by
  cases hl : v.limitOk 0x6014 <;> simp [State.ruleOf, hl]

theorem Only.clearHistory (s : State) : Only [.regs, .rpe] s s.clearHistory :=
  ⟨by simp, by simp, fun p hp => by cases p <;> simp_all [Part.same]⟩

theorem State.clearHistory_word (s : State) {a : Nat} (h : a ≠ 0x6030) : s.clearHistory.word a = s.word a := by
  unfold State.clearHistory
  rw [word_wr_ne _ _ _ _ h, modRpe_word]

theorem State.clearHistory_empties (s : State) :
    s.clearHistory.rpe.history = [] ∧ s.clearHistory.rd F.RPE_ESTAT_HFR = 0 :=
  ⟨by simp [State.clearHistory], rd_wr _ _ _ (by decide) (by decide)⟩

theorem rpeEhistWrite_taken (h : s.portOpen) (hl : ((s.begin t).poke 0x6014 d).limitOk 0x6014 = true) :
    CompletesAt (.rpeEhistWrite t d) t s [.mgmt, .rpe] [0x6014, 0x6030] fun u =>
      s.answered u 0x6014 .ok ∧ u.word 0x6014 = (s.begin t).mixed 0x6014 d ∧ u.rpe.history = [] ∧
      u.rd F.RPE_ESTAT_HFR = 0 := by
  have hrule := ((s.begin t).ruleOf_ehist _ d).trans (if_pos hl)
  have hp : (s.begin t).poke 0x6014 d = (s.begin t).setWord 0x6014 ((s.begin t).mixed 0x6014 d) :=
    State.poke_of_one_word _ rfl _
  refine ⟨_, hostWrite_taken exec_rpeEhistWrite h (fs := [⟨3, 0, .rw, 4⟩]) rfl rfl rfl hrule, ?_, fun a ha => ?_,
    State.respond_answered .., ?_, (State.clearHistory_empties _).1,
    (State.rd_of_word (State.respond_word _ _ _ _)).trans (State.clearHistory_empties _).2⟩
  · rw [hp]
    exact Only.respond ((Only.setWord _ _ _).comp (Only.clearHistory _) (by simp) (by simp)) (by simp) _ _
  · simp only [List.mem_cons, List.not_mem_nil, or_false, not_or] at ha
    rw [State.respond_word, State.clearHistory_word _ ha.2, hp, word_setWord, if_neg ha.1, begin_word]
  · rw [State.respond_word, State.clearHistory_word _ (by decide), hp, word_setWord, if_pos rfl]

theorem rpeEhistWrite_refused (h : s.portOpen) (hl : ((s.begin t).poke 0x6014 d).limitOk 0x6014 = false) :
    Completes (.rpeEhistWrite t d) t s [.mgmt] fun u => s.answered u 0x6014 .refused :=
  hostWrite_turnedAway exec_rpeEhistWrite h (fs := [⟨3, 0, .rw, 4⟩]) rfl rfl rfl
    (((s.begin t).ruleOf_ehist _ d).trans (if_neg (by simp [hl]))) (by decide)

/-! ### What the close of a port's histogram leaves -/

/-- The words that the hand-over of a histogram counts in (R192), and those of an event. -/
def closeWords : List Nat :=
  [F.RPE_NOREC_COUNT.addr, F.RPE_PARTIAL_COUNT.addr, F.RPE_STRETCH_COUNT.addr, F.RPE_SATCNT_COUNT.addr, F.RPE_ZLAG_COUNT.addr] ++
    evWords

/-- The close of a port's histogram does not write a field: it is none of the counters, and not PDRAINED. -/
def Fld.outlivesClose (f : Fld) (port : Nat) : Prop :=
  f.addr ∉ closeWords ∧ (f.addr ≠ (F.RTA_PSTAT_PDRAINED port).addr ∨ f.hi < 15 ∨ 15 < f.lo)

variable {f : Fld} {port : Nat}

theorem State.noteDrained_rd (s : State) (hf : f.outlivesClose port) : (s.noteDrained port).rd f = s.rd f := by
  unfold State.noteDrained
  split
  · rfl
  · exact rd_wr_other _ _ _ _ le_rfl (by simp [F.RTA_PSTAT_PDRAINED]) hf.2

/-- A counter of closes that counts on a condition. -/
theorem State.incIf_rd (s : State) (b : Bool) (g : Fld) (h : f.addr ≠ g.addr) :
    (if b then s.inc g else s).rd f = s.rd f := by
  split
  · exact rd_inc_ne _ _ _ h
  · rfl

theorem State.handOver_rd (s : State) (h : Hist) (hf : f.outlivesClose h.port) : (s.handOver h).rd f = s.rd f := by
  have hc := hf.1
  simp only [closeWords, List.cons_append, List.nil_append, List.mem_cons, not_or] at hc
  obtain ⟨-, hp, hst, hsa, hz, -⟩ := hc
  have ho : ∀ (v : State) (b : Bool) x, (if b then v.offer x else v).rd f = v.rd f := fun v b x => by
    split
    · exact State.rd_of_word (State.word_of_regs (by simp) _)
    · rfl
  unfold State.handOver
  dsimp only
  rw [ho, State.noteDrained_rd _ hf, State.incIf_rd _ _ _ hz, State.incIf_rd _ _ _ hsa, State.incIf_rd _ _ _ hst,
    State.incIf_rd _ _ _ hp, modRpe_rd]

theorem State.closeOpen_rd (s : State) (h : Hist) (cause : Nat) (hf : f.outlivesClose h.port) :
    (s.closeOpen h cause).rd f = s.rd f := by
  have he : f.addr ∉ evWords := fun hm => hf.1 (List.mem_append_right _ hm)
  have hk : ∀ (v : State) (k : Hist), k.port = h.port → v.rd f = s.rd f → (v.handOver k).rd f = s.rd f :=
    fun v k hk hv => (State.handOver_rd v k (hk ▸ hf)).trans hv
  unfold State.closeOpen
  dsimp only
  split
  · split
    · rw [State.rd_of_word (State.raise_word _ _ _ _ he), modRpe_rd, modRpe_rd]
    · rw [modRpe_rd, modRpe_rd]
  · exact hk _ _ rfl (modRpe_rd _ _ _)

theorem State.closeHist_rd (s : State) (cause : Nat) (hf : f.outlivesClose port) :
    (s.closeHist port cause).rd f = s.rd f := by
  unfold State.closeHist
  split
  · rw [State.noteDrained_rd _ hf, State.incIf_rd _ _ _ fun hn => hf.1 (by simp [closeWords, hn])]
  · split
    · rfl
    · exact State.closeOpen_rd _ _ _ hf

theorem State.dropAnchor_rd (s : State) (hf : f.addr ≠ (F.RPE_ZANC_ZANC port).addr) : (s.dropAnchor port).rd f = s.rd f := by
  unfold State.dropAnchor
  rw [modRpe_rd]
  exact State.rd_of_word (word_wr_ne _ _ _ _ hf)

theorem State.portClose_rd (s : State) (cause : Nat) (hf : f.outlivesClose port) (hz : f.addr ≠ (F.RPE_ZANC_ZANC port).addr) :
    (s.portClose port cause).rd f = s.rd f := by
  unfold State.portClose
  split
  · rw [State.dropAnchor_rd _ hz, State.closeHist_rd _ _ hf]
  · rw [modRta_rd, State.dropAnchor_rd _ hz]

theorem State.portClose_subs (s : State) (port cause : Nat) : (s.portClose port cause).rta.subs = s.rta.subs := by
  unfold State.portClose
  split <;> simp

/-! ### A substitution starts -/

/-- The marks of a substitution by the spare of a row (R152). -/
def State.substMarked (s : State) (p r : Nat) : State :=
  let s := (s.put (F.RTA_PSTAT_FAILED p) true).put (F.RTA_PSTAT_SPARED p) true
  let s := (s.put (F.RTA_SPARE_INUSE r) true).wr (F.RTA_SPARE_SRC r) (p % 32)
  s.modRta fun a => { a with subs := assocPut a.subs r ⟨p, s.clk, .settling⟩ }

theorem State.substitute_eq (s : State) (p : Nat) :
    s.substitute p = (((s.substMarked p (rowOf p)).refreshActive p).portClose p 4).bridge p := by
  unfold State.substitute State.substMarked
  generalize rowOf p = r
  rfl

theorem rd_put_other (s : State) (f g : Fld) (b : Bool) (h : f.lo ≤ f.hi) (hh : f.hi < 20)
    (d : g.addr ≠ f.addr ∨ g.hi < f.lo ∨ f.hi < g.lo) : (s.put f b).rd g = s.rd g := rd_wr_other s f g _ h hh d

theorem flag_put_other (s : State) (f g : Fld) (b : Bool) (h : f.lo ≤ f.hi) (hh : f.hi < 20)
    (d : g.addr ≠ f.addr ∨ g.hi < f.lo ∨ f.hi < g.lo) : (s.put f b).flag g = s.flag g := by
  rw [State.flag, rd_put_other s f g b h hh d, State.flag]

/-- The marks stand in the port's and in the spare's status. -/
theorem State.substMarked_marks (s : State) (hne : 0x4004 + 16 * p ≠ 0x5008 + r) :
    (s.substMarked p r).flag (F.RTA_SPARE_INUSE r) = true ∧ (s.substMarked p r).rd (F.RTA_SPARE_SRC r) = p % 32 ∧
    (s.substMarked p r).flag (F.RTA_PSTAT_FAILED p) = true ∧ (s.substMarked p r).flag (F.RTA_PSTAT_SPARED p) = true := by
  have hsrc : ∀ (v : State) (g : Fld), g.addr ≠ 0x5008 + r ∨ 12 < g.lo →
      (v.wr (F.RTA_SPARE_SRC r) (p % 32)).flag g = v.flag g := fun v g hg => by
    rw [State.flag, rd_wr_other v _ g _ (by simp [F.RTA_SPARE_SRC]) (by simp [F.RTA_SPARE_SRC]) (hg.imp id .inr), State.flag]
  have huse : ∀ (v : State) (g : Fld), g.addr ≠ 0x5008 + r → (v.put (F.RTA_SPARE_INUSE r) true).flag g = v.flag g :=
    fun v g hg => flag_put_other v _ g _ le_rfl (by simp [F.RTA_SPARE_INUSE]) (.inl hg)
  unfold State.substMarked
  refine ⟨?_, ?_, ?_, ?_⟩
  · rw [modRta_flag, hsrc _ _ (.inr (by simp [F.RTA_SPARE_INUSE]))]
    exact flag_put _ _ _ rfl (by simp [F.RTA_SPARE_INUSE])
  · rw [modRta_rd, rd_wr _ _ _ (by simp [F.RTA_SPARE_SRC]) (by simp [F.RTA_SPARE_SRC])]
    simp [F.RTA_SPARE_SRC]
  · rw [modRta_flag, hsrc _ _ (.inl hne), huse _ _ hne, flag_put_other _ _ _ _ le_rfl (by simp [F.RTA_PSTAT_SPARED])
      (.inr (.inr (by simp [F.RTA_PSTAT_SPARED, F.RTA_PSTAT_FAILED])))]
    exact flag_put _ _ _ rfl (by simp [F.RTA_PSTAT_FAILED])
  · rw [modRta_flag, hsrc _ _ (.inl hne), huse _ _ hne]
    exact flag_put _ _ _ rfl (by simp [F.RTA_PSTAT_SPARED])

theorem State.substMarked_rd (s : State) (h4 : f.addr ≠ 0x4004 + 16 * p) (h5 : f.addr ≠ 0x5008 + r) :
    (s.substMarked p r).rd f = s.rd f := by
  refine State.rd_of_word ((modRta_word _ _ _).trans ?_)
  rw [word_wr_ne _ _ _ _ h5, word_put_ne _ _ _ _ h5, word_put_ne _ _ _ _ h4, word_put_ne _ _ _ _ h4]

theorem Only.substitute (s : State) (p : Nat) :
    Only [.regs, .mgmt, .rta, .rpe, .saf, .cap, .lnk, .out] s (s.substitute p) :=
  ⟨by simp, by simp, fun q hq => by cases q <;> simp_all [Part.same]⟩

theorem State.substMarked_subs (s : State) (p r : Nat) :
    assoc (s.substMarked p r).rta.subs r = some ⟨p, s.clk, .settling⟩ := by
  have hclk : ∀ v : State, v.clk = s.clk → assoc (v.modRta fun a => { a with subs := assocPut a.subs r ⟨p, v.clk, .settling⟩ }).rta.subs r =
      some ⟨p, s.clk, .settling⟩ := fun v hv => by rw [← hv]; exact assoc_assocPut_same _ _ _
  exact hclk _ (by simp)

theorem State.substitute_subs (s : State) (p : Nat) :
    assoc (s.substitute p).rta.subs (rowOf p) = some ⟨p, s.clk, .settling⟩ := by
  have hb : ∀ v : State, (v.bridge p).rta = v.rta := fun v => by simp
  have hr : ∀ v : State, (v.refreshActive p).rta = v.rta := fun v => by simp
  rw [State.substitute_eq, hb, State.portClose_subs, hr, State.substMarked_subs]

/-- With a bridging time the cells are held, and no word changes (R285). -/
theorem State.bridge_word (h : s.rd F.SAF_TBRIDGE_TB ≠ 0) (p a : Nat) : (s.bridge p).word a = s.word a := by
  unfold State.bridge
  rw [if_neg (by simpa using h), modSaf_word]

/-- What the refresh of ACTIVE and the close of the histogram leave of a field. -/
theorem State.closed_rd (s : State) (hc : f.addr ∉ closeWords) (hz : f.addr ≠ 0x6100 + p)
    (h4 : f.addr ≠ 0x4004 + 16 * p ∨ f.hi < 19 ∧ 15 < f.lo) : ((s.refreshActive p).portClose p 4).rd f = s.rd f := by
  rw [State.portClose_rd _ _ ⟨hc, h4.imp id fun h => .inr h.2⟩ hz]
  exact rd_put_other _ _ _ _ le_rfl (by simp [F.RTA_PSTAT_ACTIVE]) (h4.imp id fun h => .inl h.1)

/-- The marks outlast the start of the substitution where the cells are held. -/
theorem State.substitute_rd (hp : p < 256) (h : s.rd F.SAF_TBRIDGE_TB ≠ 0) (hlo : 0x4000 ≤ f.addr) (hhi : f.addr < 0x5100)
    (h4 : f.addr ≠ 0x4004 + 16 * p ∨ f.hi < 19 ∧ 15 < f.lo) :
    (s.substitute p).rd f = (s.substMarked p (rowOf p)).rd f := by
  have hw : ∀ a ∈ closeWords, a < 0x4000 ∨ 0x5100 ≤ a := by decide
  have hc : f.addr ∉ closeWords := fun hm => by have := hw _ hm; omega
  have hrow : rowOf p < 8 := by unfold rowOf; omega
  have htb : (((s.substMarked p (rowOf p)).refreshActive p).portClose p 4).rd F.SAF_TBRIDGE_TB ≠ 0 := by
    generalize rowOf p = r at hrow
    have e1 : F.SAF_TBRIDGE_TB.addr ≠ 0x4004 + 16 * p := by simp [F.SAF_TBRIDGE_TB]; omega
    have e2 : F.SAF_TBRIDGE_TB.addr ≠ 0x5008 + r := by simp [F.SAF_TBRIDGE_TB]; omega
    have e3 : F.SAF_TBRIDGE_TB.addr ≠ 0x6100 + p := by simp [F.SAF_TBRIDGE_TB]; omega
    rwa [State.closed_rd _ (by decide) e3 (.inl e1), State.substMarked_rd _ e1 e2]
  rw [State.substitute_eq, State.rd_of_word (State.bridge_word htb p _), State.closed_rd _ hc (by omega) h4]

theorem State.substitute_marks (hp : p < 256) (h : s.rd F.SAF_TBRIDGE_TB ≠ 0) :
    (s.substitute p).flag (F.RTA_SPARE_INUSE (rowOf p)) = true ∧ (s.substitute p).rd (F.RTA_SPARE_SRC (rowOf p)) = p % 32 ∧
    (s.substitute p).flag (F.RTA_PSTAT_FAILED p) = true ∧ (s.substitute p).flag (F.RTA_PSTAT_SPARED p) = true := by
  have hr := fun f hlo hhi h4 => State.substitute_rd (f := f) hp h hlo hhi h4
  have hrow : rowOf p < 8 := by unfold rowOf; omega
  have hne : 0x4004 + 16 * p ≠ 0x5008 + rowOf p := by unfold rowOf; omega
  generalize rowOf p = r at hr hrow hne
  obtain ⟨huse, hsrc, hfail, hspare⟩ := s.substMarked_marks hne
  refine ⟨?_, ?_, ?_, ?_⟩
  · rw [State.flag, hr _ (by simp [F.RTA_SPARE_INUSE]; omega) (by simp [F.RTA_SPARE_INUSE]; omega) (.inl hne.symm)]
    exact huse
  · rw [hr _ (by simp [F.RTA_SPARE_SRC]; omega) (by simp [F.RTA_SPARE_SRC]; omega) (.inl hne.symm), hsrc]
  · rw [State.flag, hr _ (by simp [F.RTA_PSTAT_FAILED]; omega) (by simp [F.RTA_PSTAT_FAILED]; omega)
      (.inr (by simp [F.RTA_PSTAT_FAILED]))]
    exact hfail
  · rw [State.flag, hr _ (by simp [F.RTA_PSTAT_SPARED]; omega) (by simp [F.RTA_PSTAT_SPARED]; omega)
      (.inr (by simp [F.RTA_PSTAT_SPARED]))]
    exact hspare

/-! ### RTA_SPAREr -/

theorem State.writeSpare_free (hm : bitOf d.toNat 17 = true) (hu : s.flag (F.RTA_SPARE_INUSE r) = false)
    (hf : s.flag (F.RTA_SPARE_FAILED r) = false) :
    s.writeSpare r d = (.ok, s.substitute (32 * r + bitsOf d.toNat 4 0)) := by
  simp [State.writeSpare, hm, hu, hf]

theorem State.writeSpare_taken (hm : bitOf d.toNat 17 = true)
    (h : s.flag (F.RTA_SPARE_INUSE r) = true ∨ s.flag (F.RTA_SPARE_FAILED r) = true) :
    s.writeSpare r d = (.refused, s) := by
  simp [State.writeSpare, hm, h]

/-- A manual substitution by a free, sound spare (R154). -/
theorem manualSubstitution_starts (h : s.portOpen) (hr : r < 8) (hm : bitOf d.toNat 17 = true)
    (hu : s.flag (F.RTA_SPARE_INUSE r) = false) (hf : s.flag (F.RTA_SPARE_FAILED r) = false)
    (hp : p = 32 * r + bitsOf d.toNat 4 0) :
    Completes (.manualSubstitution t r d) t s [.regs, .mgmt, .rta, .rpe, .saf, .cap, .lnk, .out] fun u =>
      s.answered u (0x5008 + r) .ok ∧ assoc u.rta.subs r = some ⟨p, (s.begin t).clk, .settling⟩ ∧
      (s.rd F.SAF_TBRIDGE_TB ≠ 0 → u.flag (F.RTA_SPARE_INUSE r) = true ∧ u.rd (F.RTA_SPARE_SRC r) = p % 32 ∧
        u.flag (F.RTA_PSTAT_FAILED p) = true ∧ u.flag (F.RTA_PSTAT_SPARED p) = true) := by
  obtain ⟨fs, hfs, h25⟩ := fieldsAt_spare hr
  have hb : bitsOf d.toNat 4 0 < 32 := bitsOf_lt _ _ _
  have hrow : rowOf p = r := by unfold rowOf; omega
  have hp8 : p < 256 := by omega
  have hrule := (ruleOf_spare (s.begin t) ((s.begin t).poke (0x5008 + r) d) hr d).trans
    (State.writeSpare_free hm ((begin_flag s t _).trans hu) ((begin_flag s t _).trans hf))
  rw [← hp] at hrule
  refine ⟨_, hostWrite_taken (exec_manualSubstitution hr) h hfs h25 (multiOf_spare hr) hrule,
    Only.respond (Only.substitute _ _) (by simp) _ _, State.respond_answered .., ?_, fun htb => ?_⟩
  · have hsubs := (s.begin t).substitute_subs p
    rw [hrow] at hsubs
    exact hsubs
  · have hmarks := State.substitute_marks (s := s.begin t) hp8 ((begin_rd s t _).symm ▸ htb)
    rw [hrow] at hmarks
    simp only [State.respond_flag, State.rd_of_word (State.respond_word _ _ _ _)]
    exact hmarks

theorem manualSubstitution_refused (h : s.portOpen) (hr : r < 8) (hm : bitOf d.toNat 17 = true)
    (hx : s.flag (F.RTA_SPARE_INUSE r) = true ∨ s.flag (F.RTA_SPARE_FAILED r) = true) :
    Completes (.manualSubstitution t r d) t s [.mgmt] fun u => s.answered u (0x5008 + r) .refused := by
  obtain ⟨fs, hfs, h25⟩ := fieldsAt_spare hr
  exact hostWrite_turnedAway (exec_manualSubstitution hr) h hfs h25 (multiOf_spare hr)
    ((ruleOf_spare _ _ hr d).trans (State.writeSpare_taken hm
      (hx.imp (begin_flag s t _).trans (begin_flag s t _).trans))) (by decide)

end Sys2Proof.Machine

/-! ## SPARE_SETTLED and VERIFICATION_DONE (R152, R153) -/

namespace Sys2Proof.Machine

variable {s u : State} {t row p : Nat} {x : Machine.Sub}

/-! ### The hold of a port's cells -/

theorem State.raise_holds (s : State) (code : Nat) (cls : EvClass) (arg : Nat) :
    (s.raise code cls arg).saf.holds = s.saf.holds :=
  congrArg (fun x => x.2.2.holds) (s.raise_still code cls arg)

theorem State.drive_holds (s : State) (on : Bool) : (s.drive on).saf.holds = s.saf.holds := by
  unfold State.drive
  split <;> rfl

theorem State.safTo_holds (s : State) (st : SafSt) : (s.safTo st).saf.holds = s.saf.holds := by
  by_cases h : s.saf.st = st
  · simp [State.safTo, h]
  · have hs : (s.safTo st).saf.holds = ((s.modSaf fun v => { v with st := st }).drive (st == .clear)).saf.holds :=
      congrArg (fun x => x.2.2.holds) (s.safTo_still st h)
    rw [hs, State.drive_holds]
    rfl

/-- The demands hold no cells and free none. -/
theorem State.safEval_holds (s : State) : s.safEval.saf.holds = s.saf.holds := by
  have he : ∀ (v : State) (c : Bool), (if c then v.safTo .stop else v).saf.holds = v.saf.holds := fun v c => by
    split
    · exact v.safTo_holds _
    · rfl
  exact (he _ _).trans rfl

theorem State.unbridge_holds (s : State) (key : Nat) : assoc (s.unbridge key).saf.holds key = none :=
  assoc_assocDel_same _ _

/-! ### SPARE_SETTLED -/

/-- The spare has the port's configuration, and its verification pulse is injected (R152). -/
def State.verifying (s : State) (row : Nat) (x : Machine.Sub) : State :=
  let s := s.modRta fun a => { a with
    copied := assocPut a.copied row (s.cfgWords x.port), subs := assocPut a.subs row { x with stage := .verifying } }
  s.modRta fun a => { a with verif := assocPut a.verif row (s.openPWin (256 + row) x.port true) }

theorem exec_spareSettled (hx : assoc s.rta.subs row = some x) (hs : x.stage = .settling) (ht : x.t0 + 8000 ≤ (s.begin t).clk) :
    exec (.spareSettled t row) s = .next ((s.begin t).verifying row x) := by
  have hx' : assoc (s.begin t).rta.subs row = some x := hx
  have hlt : Nat.blt (s.begin t).clk (x.t0 + 8000) = false := by rw [← Bool.not_eq_true, Nat.blt_eq]; omega
  have hc : (x.stage != .settling || Nat.blt (s.begin t).clk (x.t0 + 8000)) = false := by rw [hs, hlt]; rfl
  dsimp only [exec, execSpareSettled]
  rw [hx']
  dsimp only
  rw [hc, if_neg Bool.false_ne_true]
  rfl

theorem spareSettled_verifies (hx : assoc s.rta.subs row = some x) (hs : x.stage = .settling)
    (ht : x.t0 + 8000 ≤ (s.begin t).clk) :
    Completes (.spareSettled t row) t s [.rta] fun u =>
      assoc u.rta.subs row = some { x with stage := .verifying } ∧ assoc u.rta.copied row = some (s.cfgWords x.port) ∧
      (assoc u.rta.verif row).isSome = true :=
  ⟨_, exec_spareSettled hx hs ht, (Only.modRta _ _).trans (Only.modRta _ _), assoc_assocPut_same _ _ _,
    assoc_assocPut_same _ _ _, Option.isSome_iff_exists.mpr ⟨_, assoc_assocPut_same _ _ _⟩⟩

/-! ### VERIFICATION_DONE -/

/-- The result of a spare's verification stands in its status, and the substitution is over (R152, R153). -/
def State.verified (s : State) (row : Nat) (ok : Bool) : State :=
  (s.modRta fun a => { a with subs := assocDel a.subs row, verif := assocDel a.verif row }).put (F.RTA_SPARE_PASS row) ok

theorem Only.verified (s : State) (row : Nat) (ok : Bool) : Only [.regs, .rta] s (s.verified row ok) :=
  (Only.modRta _ _).comp (Only.put _ _ _) (by simp) (by simp)

theorem State.verified_rta (s : State) (row : Nat) (ok : Bool) :
    (s.verified row ok).rta = { s.rta with subs := assocDel s.rta.subs row, verif := assocDel s.rta.verif row } := by
  simp [State.verified]

/-- The spare takes the port's stops (R152). -/
def State.spareServes (s : State) (row p : Nat) : State :=
  (((s.wr (F.RTA_SPARE_CHKFAILS row) 0).refreshActive p).unbridge p).safEval

theorem exec_verificationDone (hx : assoc s.rta.subs row = some x) (hs : x.stage = .verifying) {ok : Bool}
    (hok : ((assoc s.rta.verif row).getD default).passes 4096 ((assoc s.rta.verif row).getD default).verifyAmp
      (s.rd F.RTA_CHK_TOL) = ok) :
    exec (.verificationDone t row) s = .next (if ok then ((s.begin t).verified row ok).spareServes row x.port else
      (((s.begin t).verified row ok).spareFail row).portGoesOff x.port) := by
  have hx' : assoc (s.begin t).rta.subs row = some x := hx
  have hc : (x.stage != .verifying) = false := by simp [hs]
  have hok' : ((assoc (s.begin t).rta.verif row).getD default).passes 4096
      ((assoc (s.begin t).rta.verif row).getD default).verifyAmp ((s.begin t).rd F.RTA_CHK_TOL) = ok := by
    rw [begin_rd]
    exact hok
  dsimp only [exec, execVerificationDone]
  rw [hx']
  dsimp only
  rw [hc, if_neg Bool.false_ne_true, hok']
  unfold State.verified State.spareServes
  exact (apply_ite Host.Outcome.next _ _ _).symm

theorem Only.unbridge (s : State) (key : Nat) : Only [.saf] s (s.unbridge key) := Only.modSaf _ _

theorem Only.spareServes (s : State) (row p : Nat) : Only (.regs :: safParts) s (s.spareServes row p) :=
  ((((Only.wr _ _ _).trans (Only.refreshActive _ _)).comp (Only.unbridge _ _) (rs := .regs :: safParts) (by simp)
    (by decide))).trans (Only.safEval _)

theorem verificationDone_serves (hx : assoc s.rta.subs row = some x) (hs : x.stage = .verifying)
    (hok : ((assoc s.rta.verif row).getD default).passes 4096 ((assoc s.rta.verif row).getD default).verifyAmp
      (s.rd F.RTA_CHK_TOL) = true) :
    Completes (.verificationDone t row) t s (.regs :: .rta :: .cap :: evParts) fun u =>
      assoc u.rta.subs row = none ∧ assoc u.rta.verif row = none ∧ assoc u.saf.holds x.port = none := by
  have hrta : (((s.begin t).verified row true).spareServes row x.port).rta = ((s.begin t).verified row true).rta :=
    (Only.spareServes _ _ _).2.2 .rta (by decide)
  have he := exec_verificationDone (t := t) hx hs hok
  rw [if_pos rfl] at he
  refine ⟨_, he, (Only.verified _ _ _).comp (Only.spareServes _ _ _) (by decide) (by decide), ?_⟩
  beta_reduce
  rw [hrta, State.verified_rta]
  refine ⟨assoc_assocDel_same _ _, assoc_assocDel_same _ _, ?_⟩
  rw [State.spareServes, State.safEval_holds]
  exact State.unbridge_holds _ _

/-- A flag that is clear is clear after another is cleared too. -/
theorem State.flag_put_false (s : State) {f g : Fld} (hf : f.lo = f.hi) (hg : g.lo = g.hi) (hh : f.hi < 20)
    (h : s.flag g = false) : (s.put f false).flag g = false := by
  by_cases hd : g.addr ≠ f.addr ∨ g.hi < f.lo ∨ f.hi < g.lo
  · rw [flag_put_other _ _ _ _ hf.le hh hd, h]
  · simp only [not_or, not_not] at hd
    obtain ⟨ha, h1, h2⟩ := hd
    have he : g = f := by
      cases f
      cases g
      simp only [Fld.mk.injEq] at *
      omega
    rw [he]
    exact flag_put _ _ _ hf hh

theorem Only.spareFail (s : State) (row : Nat) : Only [.regs] s (s.spareFail row) := (Only.put _ _ _).trans (Only.put _ _ _)

/-- A spare that fails puts no port OFF of itself. -/
theorem State.spareFail_portOff (s : State) (row p : Nat) : (s.spareFail row).portOff p = s.portOff p := by
  unfold State.portOff State.spareFail
  rw [flag_put_other _ _ _ _ le_rfl (by simp [F.RTA_SPARE_INUSE]) (.inr (.inl (by simp [F.RTA_SPARE_INUSE, F.RTA_PSTAT_OFF]))),
    flag_put_other _ _ _ _ le_rfl (by simp [F.RTA_SPARE_FAILED]) (.inr (.inl (by simp [F.RTA_SPARE_FAILED, F.RTA_PSTAT_OFF])))]

/-- An entry that a list does not have, a part of the list does not have either. -/
theorem assoc_filter_none {α : Type} {l : List (Nat × α)} {k : Nat} (q : Nat × α → Bool) (h : assoc l k = none) :
    assoc (l.filter q) k = none := by
  simp only [assoc, Option.map_eq_none_iff, List.find?_eq_none] at h ⊢
  exact fun e he => h e (List.mem_of_mem_filter he)

theorem Only.portGoesOff (s : State) (p : Nat) :
    Only [.regs, .dev, .mgmt, .rta, .rpe, .saf, .cap, .lnk, .out] s (s.portGoesOff p) :=
  ⟨by simp, by simp, fun q hq => by cases q <;> simp_all [Part.same]⟩

/-- A port that goes OFF ends its substitution, and makes a device in RUN DEGRADED (R153). -/
theorem State.portGoesOff_effect (h : s.portOff p = false) :
    (s.portGoesOff p).rta.subs = s.rta.subs.filter (fun e => e.2.port != p) ∧ (s.dev = .run → (s.portGoesOff p).dev = .degraded) := by
  have hset : ∀ v : State, (if v.dev == .run then v.setDev .degraded else v).rta = v.rta ∧
      (v.dev = .run → (if v.dev == .run then v.setDev .degraded else v).dev = .degraded) := fun v => by
    split
    · exact ⟨rfl, fun _ => rfl⟩
    · next hn => exact ⟨rfl, fun hv => absurd (by rw [hv]; rfl) hn⟩
  have hev : ∀ v : State, (v.unbridge p).safEval.rta = v.rta ∧ (v.unbridge p).safEval.dev = v.dev := fun v => by simp
  unfold State.portGoesOff
  rw [h, if_neg Bool.false_ne_true]
  dsimp only
  rw [(hev _).1, (hev _).2, (hset _).1, State.portClose_subs]
  refine ⟨by simp, fun hr => (hset _).2 (by simpa using hr)⟩

theorem verificationDone_fails (hx : assoc s.rta.subs row = some x) (hs : x.stage = .verifying)
    (hok : ((assoc s.rta.verif row).getD default).passes 4096 ((assoc s.rta.verif row).getD default).verifyAmp
      (s.rd F.RTA_CHK_TOL) = false) (hd : s.dev = .run) (hp : s.portOff x.port = false) :
    Completes (.verificationDone t row) t s (.regs :: .dev :: .rta :: .rpe :: .cap :: evParts) fun u =>
      assoc u.rta.subs row = none ∧ u.dev = .degraded := by
  have hv : ((s.begin t).verified row false).portOff x.port = false :=
    State.flag_put_false _ rfl rfl (by simp [F.RTA_SPARE_PASS]) ((modRta_flag _ _ _).trans ((begin_flag _ _ _).trans hp))
  have hrta := (s.begin t).verified_rta row false
  have hdev : ((s.begin t).verified row false).dev = .run := ((Only.verified _ row false).2.2 .dev (by decide)).trans hd
  have honly := Only.verified (s.begin t) row false
  have he := exec_verificationDone (t := t) hx hs hok
  rw [if_neg Bool.false_ne_true] at he
  refine ⟨_, he, ?_⟩
  clear he
  generalize (s.begin t).verified row false = v at *
  have hf := Only.spareFail v row
  obtain ⟨hsubs, hdeg⟩ := State.portGoesOff_effect ((v.spareFail_portOff row x.port).trans hv)
  refine ⟨(honly.comp hf (rs := [.regs, .rta]) (by decide) (by decide)).comp (Only.portGoesOff _ _) (by decide) (by decide), ?_,
    hdeg ((hf.2.2 .dev (by decide)).trans hdev)⟩
  have hfr : (v.spareFail row).rta = v.rta := hf.2.2 .rta (by decide)
  rw [hsubs, hfr, hrta]
  exact assoc_filter_none _ (assoc_assocDel_same _ _)

/-- Settles O23. -/
theorem sparesSubstituteAndHostWrites : Obligations.SparesSubstituteAndHostWrites :=
  ⟨fun _ _ _ h => ⟨fun _ hr hm hu hf => manualSubstitution_starts h hr hm hu hf rfl,
      fun _ hr hm hx => manualSubstitution_refused h hr hm hx, airidxWrite_taken h, airidxWrite_refused h, rpeEhistWrite_taken h,
      rpeEhistWrite_refused h⟩,
    fun _ _ _ _ hx => ⟨spareSettled_verifies hx, fun hs => ⟨verificationDone_serves hx hs, verificationDone_fails hx hs⟩⟩⟩

end Sys2Proof.Machine

/-! ## COMPARATOR_EDGE (R125 to R128, R133 to R136, R149) -/

namespace Sys2Proof.Machine

variable {s u : State} {t unit g : Nat} {lead : TdcCode} {trail hi : Option TdcCode} {bin : Int} {w : GWin} {p q : PWin}
  {e e0 : Edge} {freq : Option Nat}

/-! ### What becomes of an edge at a unit (R127, R128, R135) -/

/-- The comparators that an edge has been seen at (R151). -/
def PWin.seen (p : PWin) (e : Edge) : PWin := { p with loHit := true, hiHit := p.hiHit || (p.mode == 0 && e.hi.isSome) }

/-- The edge before has left its dead time. -/
def PWin.apart (p : PWin) (e : Edge) : Prop := ∀ x, p.lastEnd = some x → x + 8192 ≤ e.lead

theorem PWin.apart_any (h : p.apart e) : (p.lastEnd.any fun x => Nat.blt e.lead (x + 8192)) = false := by
  cases hl : p.lastEnd with
  | none => rfl
  | some x =>
    have := h x hl
    simp only [Option.any_some, ← Bool.not_eq_true, Nat.blt_eq]
    omega

/-- An edge within reach of the counter, away from the one before, with room for it, is captured. -/
theorem PWin.take_captured {n : Nat} (hn : n < 4096) (ha : p.apart e) (hc : p.ncap < 8) :
    p.take n e none =
      ({ p.seen e with lastEnd := e.trail, ncap := p.ncap + 1, waiting := p.waiting ++ [e] }, .captured) := by
  unfold PWin.take
  dsimp only
  rw [if_neg (by omega), PWin.apart_any ha, if_neg Bool.false_ne_true, if_neg (by omega)]
  rfl

/-- The ninth edge of a window is not captured (R135). -/
theorem PWin.take_uncaptured {n : Nat} (hn : n < 4096) (ha : p.apart e) (hc : 8 ≤ p.ncap) :
    p.take n e none = ({ p.seen e with lastEnd := e.trail, more := true, lastKept := false }, .uncaptured) := by
  unfold PWin.take
  dsimp only
  rw [if_neg (by omega), PWin.apart_any ha, if_neg Bool.false_ne_true, if_pos hc]
  rfl

/-- An edge in the dead time of an edge that still waits is lost, and merges into it (R128). -/
theorem PWin.take_lost {n x : Nat} {ws : List Edge} (hn : n < 4096) (hl : p.lastEnd = some x) (hx : e.lead < x + 8192)
    (hw : p.waiting = ws ++ [e0]) (freq : Option Nat) :
    p.take n e freq = ({ p.seen e with waiting := ws ++ [{ e0 with merged := true }] }, .lost) := by
  have hany : (p.lastEnd.any fun x => Nat.blt e.lead (x + 8192)) = true := by
    rw [hl, Option.any_some, Nat.blt_eq]
    exact hx
  have hlast : p.waiting.getLast? = some e0 := by rw [hw, List.getLast?_concat]
  have hdrop : p.waiting.dropLast = ws := by rw [hw, List.dropLast_concat]
  unfold PWin.take PWin.merge
  dsimp only
  rw [if_neg (by omega), hany, if_pos rfl, hlast, hdrop]
  rfl

/-! ### The window of a unit -/

/-- The open window of a unit. -/
def State.unitWin (s : State) (unit : Nat) : Option PWin :=
  (assoc s.rta.wins (unitGroup unit)).bind fun w => assoc w.units unit

/-- A unit's part of a window once the start reference is known or not (R134, R136). -/
def GWin.settled (w : GWin) (p : PWin) : PWin :=
  match w.ref with
  | none => p
  | some a => p.settle a w.kerf w.len

/-- An edge has come at a unit of a window. -/
def GWin.withUnit (w : GWin) (unit : Nat) (p : PWin) : GWin := GWin.settle { w with units := assocPut w.units unit p }

theorem GWin.withUnit_unit (w : GWin) (unit : Nat) (p : PWin) :
    assoc (w.withUnit unit p).units unit = some (w.settled p) := by
  unfold GWin.withUnit GWin.settle GWin.settled
  cases w.ref with
  | none => exact assoc_assocPut_same _ _ _
  | some a =>
    exact (assoc_map_values (fun p : PWin => p.settle a w.kerf w.len) (assocPut w.units unit p) unit).trans (by
      rw [assoc_assocPut_same, Option.map_some])

/-- A unit's window takes its new state. -/
def State.putUnit (s : State) (unit : Nat) (w : GWin) (p : PWin) : State :=
  s.modRta fun a => { a with wins := assocPut a.wins (unitGroup unit) (w.withUnit unit p) }

theorem State.putUnit_unitWin (s : State) (unit : Nat) (w : GWin) (p : PWin) :
    (s.putUnit unit w p).unitWin unit = some (w.settled p) := by
  have hw : assoc (s.putUnit unit w p).rta.wins (unitGroup unit) = some (w.withUnit unit p) := assoc_assocPut_same _ _ _
  rw [State.unitWin, hw, Option.bind_some, GWin.withUnit_unit]

theorem Only.bgHit (s : State) (unit code : Nat) : Only [.rta] s (s.bgHit unit code) := Only.setUnit _ _ _

theorem State.bgHit_unitWin (s : State) (k code unit : Nat) : (s.bgHit k code).unitWin unit = s.unitWin unit := rfl

/-- A DENSITY window, in which the ring oscillator drives the TDCs (R149). -/
def GWin.density (w : GWin) : Bool := w.kind == .cal && w.post.any fun x => x.mode == 2

/-- The prescaler of a window in frequency mode (R156). -/
def GWin.presc (w : GWin) : Option Nat := (w.post.filter fun x => x.freq).map fun x => x.presc

/-- An edge at an open unit: the unit's window takes it, and in a LISTEN window it enters the density histogram (R133). -/
theorem State.tdcEdge_open (hw : assoc s.rta.wins (unitGroup unit) = some w) (hp : assoc w.units unit = some p)
    (hd : w.density = false) (hs : p.subst = false ∨ 256 ≤ unit) {took : Took} (ht : p.take lead.n e w.presc = (q, took))
    (ho : took ≠ .ovf) :
    s.tdcEdge unit lead e = s.putUnit unit w q ∨ s.tdcEdge unit lead e = (s.putUnit unit w q).bgHit unit e.code := by
  have hskip : (w.density || (p.subst && decide (unit < 256))) = false := by
    rw [hd, Bool.false_or]
    rcases hs with h | h
    · rw [h, Bool.false_and]
    · rw [decide_eq_false (by omega), Bool.and_false]
  have hto : (took == .ovf) = false := by simpa using ho
  obtain ⟨c, he⟩ : ∃ c : Bool, s.tdcEdge unit lead e =
      if c then (s.putUnit unit w q).bgHit unit e.code else s.putUnit unit w q := by
    unfold State.tdcEdge
    dsimp only
    rw [hw, Option.bind_some, hp, Option.map_some]
    dsimp only
    rw [← GWin.density, hskip, if_neg Bool.false_ne_true, ← GWin.presc, ht]
    dsimp only
    rw [hto, if_neg Bool.false_ne_true]
    exact ⟨_, rfl⟩
  rw [he]
  split
  · exact .inr rfl
  · exact .inl rfl

/-- Where no window takes it, an edge leaves the receivers as they are. -/
theorem State.tdcEdge_closed (hw : assoc s.rta.wins (unitGroup unit) = none) (hv : assoc s.rta.verif (unitGroup unit) = none) :
    s.tdcEdge unit lead e = s := by
  unfold State.tdcEdge
  dsimp only
  rw [hw, Option.bind_none]
  dsimp only
  split
  · rfl
  · next hx =>
    split at hx
    · rw [hv] at hx
      exact absurd hx (by simp)
    · exact absurd hx (by simp)

/-! ### COMPARATOR_EDGE -/

theorem Only.tapEdge (s : State) (unit : Nat) (bin : Int) : Only (.regs :: .cap :: evParts) s (s.tapEdge unit bin) :=
  ⟨by simp, by simp, fun p hp => by cases p <;> simp_all [Part.same, evParts]⟩

theorem exec_comparatorEdge (hs : s.seq.wins = []) (hu : unit < 264) (bin : Option Int) :
    exec (.comparatorEdge t unit lead trail hi bin) s = .next (match bin with
      | none => (s.begin t).densityHit unit (s.edgeOf unit lead trail hi)
      | some b => ((s.begin t).tapEdge unit b).tdcEdge unit lead (s.edgeOf unit lead trail hi)) := by
  have ho : (s.begin t).openDue = s.begin t := State.openDue_of_no_wins hs
  have hb : Nat.ble 264 unit = false := by rw [← Bool.not_eq_true, Nat.ble_eq]; omega
  have he : (s.begin t).edgeOf unit lead trail hi = s.edgeOf unit lead trail hi := rfl
  dsimp only [exec, execComparatorEdge]
  rw [ho, hb, if_neg Bool.false_ne_true, he]
  cases bin <;> rfl

section
variable (hs : s.seq.wins = []) (hu : unit < 264)
include hs hu

/-- An edge that an open unit takes or loses. -/
theorem comparatorEdge_at (hw : assoc s.rta.wins (unitGroup unit) = some w) (hp : assoc w.units unit = some p)
    (hd : w.density = false) (hn : p.subst = false ∨ 256 ≤ unit) {took : Took}
    (ht : p.take lead.n (s.edgeOf unit lead trail hi) w.presc = (q, took)) (ho : took ≠ .ovf) :
    Completes (.comparatorEdge t unit lead trail hi (some bin)) t s (.regs :: .rta :: .cap :: evParts) fun u =>
      u.unitWin unit = some (w.settled q) := by
  have htap := Only.tapEdge (s.begin t) unit bin
  have hrta : ((s.begin t).tapEdge unit bin).rta = s.rta := htap.2.2 .rta (by decide)
  refine ⟨_, exec_comparatorEdge hs hu _, ?_⟩
  dsimp only
  generalize (s.begin t).tapEdge unit bin = v at htap hrta
  have hwin := v.putUnit_unitWin unit w q
  have honly : Only [.rta] v (v.putUnit unit w q) := Only.modRta _ _
  rcases State.tdcEdge_open (s := v) (by rw [hrta]; exact hw) hp hd hn ht ho with h | h
  · rw [h]
    exact ⟨htap.comp honly (by decide) (by decide), hwin⟩
  · rw [h]
    exact ⟨htap.comp (honly.trans (Only.bgHit _ _ _)) (by decide) (by decide), hwin⟩

/-- An edge that no window takes. -/
theorem comparatorEdge_untaken (hw : assoc s.rta.wins (unitGroup unit) = none)
    (hv : assoc s.rta.verif (unitGroup unit) = none) :
    Completes (.comparatorEdge t unit lead trail hi (some bin)) t s (.regs :: .rta :: .cap :: evParts) fun u =>
      u.rta.wins = s.rta.wins ∧ u.rta.recs = s.rta.recs := by
  have htap := Only.tapEdge (s.begin t) unit bin
  have hrta : ((s.begin t).tapEdge unit bin).rta = s.rta := htap.2.2 .rta (by decide)
  have he := exec_comparatorEdge (t := t) (lead := lead) (trail := trail) (hi := hi) hs hu (some bin)
  dsimp only at he
  rw [State.tdcEdge_closed (by rw [hrta]; exact hw) (by rw [hrta]; exact hv)] at he
  exact ⟨_, he, htap.mono (by decide), congrArg Rta.wins hrta, congrArg Rta.recs hrta⟩

/-- A hit of the ring oscillator at a unit of a DENSITY window (R149). -/
theorem densityHit_counted (hw : assoc s.rta.wins (unitGroup unit) = some w) (hp : assoc w.units unit = some p)
    (hd : w.density = true) (hj : s.flag F.RTA_JIG_DRAW = false) :
    Completes (.comparatorEdge t unit lead trail hi none) t s [.rta] fun u =>
      (u.unitSt unit).bgN = (s.unitSt unit).bgN + 1 ∧
      (u.unitSt unit).bg.nat lead.p = (s.unitSt unit).bg.nat lead.p + 1 ∧ u.rta.wins = s.rta.wins := by
  have hjig : ∀ (v : State) port e, v.flag F.RTA_JIG_DRAW = false → v.jigHit unit port w p e = v := fun v port e h => by
    unfold State.jigHit
    rw [h]
    rfl
  have hhit : (s.begin t).densityHit unit (s.edgeOf unit lead trail hi) = (s.begin t).bgHit unit lead.p := by
    have hw' : assoc (s.begin t).rta.wins (unitGroup unit) = some w := hw
    unfold State.densityHit
    rw [hw']
    dsimp only
    rw [← GWin.density, hd, hp]
    exact hjig _ _ _ hj
  have he := exec_comparatorEdge (t := t) (lead := lead) (trail := trail) (hi := hi) hs hu none
  dsimp only at he
  rw [hhit] at he
  refine ⟨_, he, Only.bgHit _ _ _, ?_, ?_, rfl⟩
  · rw [State.bgHit, State.unitSt_setUnit, if_pos rfl]
    rfl
  · rw [State.bgHit, State.unitSt_setUnit, if_pos rfl]
    exact (SMap.nat_setNat (s.unitSt unit).bg lead.p ((s.unitSt unit).bg.nat lead.p + 1) lead.p).trans (if_pos rfl)

end

/-- An edge that waits alone becomes a stop at once where the start reference is known (R136). -/
theorem PWin.settle_one (h : p.waiting = []) (e : Edge) (a : Int) (kerf len : Nat) :
    PWin.settle { p with waiting := p.waiting ++ [e] } a kerf len = p.keep kerf len (p.stopOf a e) := by
  have hp : { p with waiting := [] } = p := by rw [← h]
  rw [PWin.settle, h]
  change PWin.keep { p with waiting := [] } kerf len (PWin.stopOf { p with waiting := [] } a e) = _
  rw [hp]

theorem GWin.density_of_post_none (h : w.post = none) : w.density = false := by
  rw [GWin.density, h, Option.any_none, Bool.and_false]

theorem GWin.presc_of_post_none (h : w.post = none) : w.presc = none := by
  rw [GWin.presc, h]
  rfl

/-- A posted window that neither counts a frequency nor draws the ring oscillator's hits. -/
theorem GWin.plain_of_post (h : w.post = none ∨ ∃ post, w.post = some post ∧ post.freq = false ∧ ¬ (w.kind = .cal ∧ post.mode = 2)) :
    w.density = false ∧ w.presc = none := by
  rcases h with h | ⟨post, hp, hf, hd⟩
  · exact ⟨GWin.density_of_post_none h, GWin.presc_of_post_none h⟩
  · rw [GWin.density, GWin.presc, hp, Option.any_some, Option.filter_some, hf]
    exact ⟨by simpa using hd, rfl⟩

/-- Settles O24. -/
theorem edgesBecomeStopsOrAreLost : Obligations.EdgesBecomeStopsOrAreLost := by
  refine ⟨fun s t unit lead trail hi bin w p hs hu hw hp hn hsub => ?_,
    fun s t unit lead trail hi bin hs hu hw hv => comparatorEdge_untaken hs hu hw hv,
    fun s t unit lead trail hi w p post hs hu hw hp hk hpost hm hj => densityHit_counted hs hu hw hp ?_ hj⟩
  · have hnone : ∀ q, w.ref = none → w.settled q = q := fun q hr => by rw [GWin.settled, hr]
    have hopen : ∀ {took : Took} {q r : PWin}, w.density = false →
        p.take lead.n (s.edgeOf unit lead trail hi) w.presc = (q, took) → took ≠ .ovf → w.settled q = r →
        Completes (.comparatorEdge t unit lead trail hi (some bin)) t s (.regs :: .rta :: .cap :: evParts) fun u =>
          u.unitWin unit = some r :=
      fun hd ht ho hr => hr ▸ comparatorEdge_at hs hu hw hp hd hsub ht ho
    refine ⟨fun _ hpost hr ha hc => ?_, fun _ hpost hr ha hc => ?_, fun x ws e0 _ hpost hr hl hx hwait => ?_,
      fun a hpost hr hwait ha hc => ?_⟩
    · exact hopen (GWin.density_of_post_none hpost)
        ((congrArg _ (GWin.presc_of_post_none hpost)).trans (PWin.take_captured hn ha hc)) (by decide) (hnone _ hr)
    · exact hopen (GWin.density_of_post_none hpost)
        ((congrArg _ (GWin.presc_of_post_none hpost)).trans (PWin.take_uncaptured hn ha hc)) (by decide) (hnone _ hr)
    · exact hopen (GWin.density_of_post_none hpost) (PWin.take_lost hn hl hx hwait _) (by decide) (hnone _ hr)
    · obtain ⟨hd, hpr⟩ := GWin.plain_of_post hpost
      refine hopen hd ((congrArg _ hpr).trans (PWin.take_captured hn ha hc)) (by decide) ?_
      rw [GWin.settled, hr]
      exact PWin.settle_one (p := { p.seen (s.edgeOf unit lead trail hi) with
        lastEnd := (s.edgeOf unit lead trail hi).trail, ncap := p.ncap + 1 }) hwait _ _ _ _
  · rw [GWin.density, hk, hpost, Option.any_some, hm]
    rfl

end Sys2Proof.Machine

/-! ## RECEIVER_CLOSE (R135, R137, R141, R156, R159, R184) -/

namespace Sys2Proof.Machine

variable {s u : State} {t unit port g : Nat} {w : GWin} {p : PWin} {post : WinPost} {f : Fire}

/-! ### The counters of a port (R159) -/

theorem Only.count (s : State) (f : Fld) (n : Nat) : Only [.regs] s (s.count f n) :=
  ⟨by simp, by simp, fun p hp => by cases p <;> simp_all [Part.same]⟩

/-- A counter that has counted holds the sum, up to its end (R15). -/
theorem rd_count (s : State) (f : Fld) (n : Nat) (h : f.lo ≤ f.hi) (hh : f.hi < 20) :
    (s.count f n).rd f = satN (f.hi + 1 - f.lo) (s.rd f + n) := by
  have hlt : satN (f.hi + 1 - f.lo) (s.rd f + n) < 2 ^ (f.hi + 1 - f.lo) := by
    have := Nat.two_pow_pos (f.hi + 1 - f.lo)
    unfold satN
    omega
  rw [State.rd, State.count, word_wrNote, if_pos rfl, bitsOf_putBits _ _ _ _ h hh, Nat.mod_eq_of_lt hlt]

theorem rd_count_ne (s : State) (f g : Fld) (n : Nat) (h : g.addr ≠ f.addr) : (s.count f n).rd g = s.rd g :=
  State.rd_of_word (word_count_ne _ _ _ _ h)

/-- The words of the counters of a port. -/
def shotWords (port : Nat) : List Nat :=
  [(F.RTA_PSTOPS_COUNT port).addr, (F.RTA_PEARLY_COUNT port).addr, (F.RTA_PMERGED_COUNT port).addr,
    (F.RTA_POVF_COUNT port).addr, (F.RTA_PMORE_COUNT port).addr]

theorem shotWords_eq (port : Nat) : shotWords port =
    [0x4000 + 16 * port + 5, 0x4000 + 16 * port + 6, 0x4000 + 16 * port + 7, 0x4000 + 16 * port + 8, 0x4000 + 16 * port + 9] := by
  simp only [shotWords, F.RTA_PSTOPS_COUNT, F.RTA_PEARLY_COUNT, F.RTA_PMERGED_COUNT, F.RTA_POVF_COUNT, F.RTA_PMORE_COUNT,
    List.cons.injEq, and_true]
  omega

theorem Only.countShot (s : State) (port : Nat) (p : PWin) : Only [.regs] s (s.countShot port p) :=
  ⟨by simp, by simp, fun p hp => by cases p <;> simp_all [Part.same]⟩

theorem State.countShot_word (s : State) (p : PWin) {a : Nat} (h : a ∉ shotWords port) :
    (s.countShot port p).word a = s.word a := by
  simp only [shotWords, List.mem_cons, List.not_mem_nil, or_false, not_or] at h
  obtain ⟨h5, h6, h7, h8, h9⟩ := h
  unfold State.countShot
  dsimp only
  split
  · rw [word_inc_ne _ _ _ h9, word_count_ne _ _ _ _ h8, word_count_ne _ _ _ _ h7, word_count_ne _ _ _ _ h6,
      word_count_ne _ _ _ _ h5]
  · rw [word_count_ne _ _ _ _ h8, word_count_ne _ _ _ _ h7, word_count_ne _ _ _ _ h6, word_count_ne _ _ _ _ h5]

/-- A closed shot is counted with its stops and its discards. -/
theorem State.countShot_counts (s : State) (port : Nat) (p : PWin) :
    (s.countShot port p).rd (F.RTA_PSTOPS_COUNT port) = satN 20 (s.rd (F.RTA_PSTOPS_COUNT port) + p.stops.length) ∧
    (s.countShot port p).rd (F.RTA_POVF_COUNT port) = satN 20 (s.rd (F.RTA_POVF_COUNT port) + p.discards) := by
  have hm : ∀ (v : State) (g : Fld), g.addr ≠ (F.RTA_PMORE_COUNT port).addr →
      (if p.more then v.inc (F.RTA_PMORE_COUNT port) else v).rd g = v.rd g := fun v g h => v.incIf_rd p.more _ h
  unfold State.countShot
  dsimp only
  constructor
  · rw [hm _ _ (by simp [F.RTA_PSTOPS_COUNT, F.RTA_PMORE_COUNT]),
      rd_count_ne _ _ _ _ (by simp [F.RTA_PSTOPS_COUNT, F.RTA_POVF_COUNT]),
      rd_count_ne _ _ _ _ (by simp [F.RTA_PSTOPS_COUNT, F.RTA_PMERGED_COUNT]),
      rd_count_ne _ _ _ _ (by simp [F.RTA_PSTOPS_COUNT, F.RTA_PEARLY_COUNT]),
      rd_count _ _ _ (Nat.zero_le _) (by simp [F.RTA_PSTOPS_COUNT])]
    simp [F.RTA_PSTOPS_COUNT]
  · rw [hm _ _ (by simp [F.RTA_POVF_COUNT, F.RTA_PMORE_COUNT]), rd_count _ _ _ (Nat.zero_le _) (by simp [F.RTA_POVF_COUNT]),
      rd_count_ne _ _ _ _ (by simp [F.RTA_POVF_COUNT, F.RTA_PMERGED_COUNT]),
      rd_count_ne _ _ _ _ (by simp [F.RTA_POVF_COUNT, F.RTA_PEARLY_COUNT]),
      rd_count_ne _ _ _ _ (by simp [F.RTA_POVF_COUNT, F.RTA_PSTOPS_COUNT])]
    simp [F.RTA_POVF_COUNT]

/-! ### The close of a unit -/

/-- A window of which a unit has closed. -/
def GWin.unitClosed (w : GWin) (unit : Nat) (p : PWin) : GWin :=
  { w with units := assocDel w.units unit, closed := w.closed ++ [(unit, p)] }

/-- The shot of a fire joins the fire's record (R141). -/
def State.shotJoins (s : State) (f : Fire) (port : Nat) (x : Shot) : State :=
  s.modRta fun a => { a with recs := a.recs.map fun r =>
    if r.fire.id == f.id then { r with shots := r.shots ++ [(port, x)] } else r }

theorem Only.shotJoins (s : State) (f : Fire) (port : Nat) (x : Shot) : Only [.rta] s (s.shotJoins f port x) := Only.modRta _ _

theorem State.shotJoins_word (s : State) (f : Fire) (port : Nat) (x : Shot) (a : Nat) :
    (s.shotJoins f port x).word a = s.word a := modRta_word _ _ _

theorem State.shotJoins_recs (s : State) (f : Fire) (port : Nat) (x : Shot) : (s.shotJoins f port x).rta.recs =
    s.rta.recs.map fun r => if r.fire.id = f.id then { r with shots := r.shots ++ [(port, x)] } else r := by
  change s.rta.recs.map _ = _
  simp only [beq_iff_eq]

theorem State.closeUnit_fire (s : State) (hk : w.kind = .fire) (hf : w.fire = some f) (unit port : Nat) (p : PWin) :
    s.closeUnit w unit port p = (s.countShot port p).shotJoins f port (w.shot port p) := by
  unfold State.closeUnit
  dsimp only
  rw [hk, hf]
  rfl

theorem State.closeUnit_listen (s : State) (hk : w.kind = .listen) (hp : w.post = some post) (ha : post.amb = true)
    (hf : post.freq = false) (unit port : Nat) (p : PWin) :
    s.closeUnit w unit port p = (s.countShot port p).listenRecord w post port p := by
  unfold State.closeUnit
  dsimp only
  rw [hk, hp]
  dsimp only
  rw [hf, ha]
  rfl

/-- Whatever a fire's window is, the close of a unit counts, and changes the fires' records at most. -/
theorem Only.closeUnit_fire (s : State) (hk : w.kind = .fire) (unit port : Nat) (p : PWin) :
    Only [.regs, .rta] s (s.closeUnit w unit port p) ∧ (s.closeUnit w unit port p).rta.wins = s.rta.wins := by
  have hc := (Only.countShot s port p).mono (qs := [.regs, .rta]) (by simp)
  have hr : (s.countShot port p).rta = s.rta := (Only.countShot s port p).2.2 .rta (by decide)
  cases hf : w.fire with
  | some f =>
    rw [State.closeUnit_fire _ hk hf]
    exact ⟨hc.trans ((Only.modRta _ _).mono (by simp)), (congrArg Rta.wins hr :)⟩
  | none =>
    have he : s.closeUnit w unit port p = s.countShot port p := by
      unfold State.closeUnit
      dsimp only
      rw [hk, hf]
    rw [he]
    exact ⟨hc, congrArg Rta.wins hr⟩

/-- The LISTEN record of a port waits for the tracker (R184). -/
theorem State.listenRecord_queued (s : State) (w : GWin) (post : WinPost) (port : Nat) (p : PWin) :
    (s.listenRecord w post port p).rpe.ambQ.length = s.rpe.ambQ.length + 1 := by
  unfold State.listenRecord
  dsimp only
  split <;> simp

theorem Only.listenRecord (s : State) (w : GWin) (post : WinPost) (port : Nat) (p : PWin) :
    Only [.rpe, .cap] s (s.listenRecord w post port p) :=
  ⟨by simp, by simp, fun p hp => by cases p <;> simp_all [Part.same]⟩

/-! ### The close of a group -/

/-- The RAW records of a window's units wait for the CAP. -/
theorem Only.offerUnit (s : State) (w : GWin) (e : Nat × PWin) : Only [.cap] s (s.offerUnit w e) :=
  ⟨by simp, by simp, fun p hp => by cases p <;> simp_all [Part.same]⟩

theorem Only.releaseRaw (s : State) : Only [.cap] s s.releaseRaw := Only.modCap _ _

/-- The group of a window is free, and its RAW records may go (R52, R322). -/
def State.groupFreed (s : State) (g : Nat) (w : GWin) : State :=
  ((w.closed.foldl (fun s e => s.offerUnit w e) s).modRta fun a => { a with wins := assocDel a.wins g }).releaseRaw

theorem Only.groupFreed (s : State) (g : Nat) (w : GWin) : Only [.rta, .cap] s (s.groupFreed g w) :=
  (((Only.fold _ (fun v e => Only.offerUnit v w e) _ _).comp (Only.modRta _ _) (rs := [.rta, .cap]) (by simp) (by simp))).trans
    ((Only.releaseRaw _).mono (by simp))

theorem State.groupFreed_wins (s : State) (g : Nat) (w : GWin) : assoc (s.groupFreed g w).rta.wins g = none :=
  assoc_assocDel_same _ _

theorem State.closeGroup_fire (s : State) (hk : w.kind = .fire) (g : Nat) :
    s.closeGroup g w = (s.groupFreed g w).settle := by
  unfold State.closeGroup State.groupFreed
  dsimp only
  rw [hk]

theorem State.settleCloses_wins (s : State) (port : Nat) : (s.settleCloses port).rta.wins = s.rta.wins := by
  unfold State.settleCloses
  split
  · rfl
  · exact State.fold_keeps (fun v : State => v.rta.wins) _ (fun v e => by simp) _ _

theorem State.takeSingle_wins (s : State) (r : FireRec) (p : Nat) : (s.takeSingle r p).rta.wins = s.rta.wins := by
  have ht : ∀ (v : State) i q, (v.takeShot i q).rta.wins = v.rta.wins := fun _ _ _ => rfl
  unfold State.takeSingle
  split
  · rfl
  · dsimp only
    rw [State.settleCloses_wins]
    exact (ht _ _ _).trans (by simp)

theorem State.settleSingles_wins (s : State) : s.settleSingles.rta.wins = s.rta.wins :=
  State.fold_keeps (fun v : State => v.rta.wins) _
    (fun v r => State.fold_keeps (fun v : State => v.rta.wins) _ (fun v p => v.takeSingle_wins r p) _ _) _ _

/-- Settling the data path leaves the windows as they are. -/
theorem State.settle_wins (s : State) : s.settle.rta.wins = s.rta.wins := by
  have hp : ∀ (n : Nat) (v : State), (v.settlePath n).rta.wins = v.rta.wins := by
    intro n
    induction n with
    | zero => exact State.settleSingles_wins
    | succ n ih =>
      intro v
      unfold State.settlePath
      dsimp only
      split
      · exact v.settleSingles_wins
      · split
        · exact v.settleSingles_wins
        · split
          · rw [ih]
            exact (congrArg Rta.wins (by simp)).trans v.settleSingles_wins
          · exact v.settleSingles_wins
  exact hp _ _

theorem Only.settle (s : State) : Only (.regs :: .seq :: .rta :: .rpe :: .cap :: evParts) s s.settle :=
  ⟨by simp, by simp, fun p hp => by cases p <;> simp_all [Part.same, evParts]⟩

/-! ### RECEIVER_CLOSE -/

/-- A unit has closed in its window. -/
def State.winClosed (s : State) (unit : Nat) (w : GWin) (p : PWin) : State :=
  s.modRta fun a => { a with wins := assocPut a.wins (unitGroup unit) (w.unitClosed unit p) }

theorem Only.winClosed (s : State) (unit : Nat) (w : GWin) (p : PWin) : Only [.rta] s (s.winClosed unit w p) := Only.modRta _ _

theorem State.winClosed_win (s : State) (unit : Nat) (w : GWin) (p : PWin) :
    assoc (s.winClosed unit w p).rta.wins (unitGroup unit) = some (w.unitClosed unit p) := assoc_assocPut_same _ _ _

/-- The unit has closed in its window, and its port has what it yields. -/
def State.unitClosing (s : State) (unit port : Nat) (w : GWin) (p : PWin) : State :=
  (s.winClosed unit w p).closeUnit (w.unitClosed unit p) unit port p

section
variable {e : Nat} (hs : s.seq.wins = []) (hw : assoc s.rta.wins (unitGroup unit) = some w) (hp : assoc w.units unit = some p)
  (ho : w.portOf unit = some port) (he : w.endClk = some e) (ht : e ≤ (s.begin t).clk)
include hs hw hp ho he ht

theorem exec_receiverClose : exec (.receiverClose t unit) s = .next
    (if (w.unitClosed unit p).units.isEmpty then
      (((s.begin t).unitClosing unit port w p).closeGroup (unitGroup unit) (w.unitClosed unit p)).openDue
    else ((s.begin t).unitClosing unit port w p).openDue) := by
  have hod : (s.begin t).openDue = s.begin t := State.openDue_of_no_wins hs
  have hw' : assoc (s.begin t).rta.wins (unitGroup unit) = some w := hw
  have hend : (!(w.endClk.any fun x => Nat.ble x (s.begin t).clk)) = false := by
    rw [he, Option.any_some, Nat.ble_eq_true_of_le ht]
    rfl
  have hport : GWin.portOf { w with units := assocDel w.units unit, closed := w.closed ++ [(unit, p)] } unit = some port := ho
  dsimp only [exec, execReceiverClose]
  rw [hod, hw']
  dsimp only
  rw [hp]
  dsimp only
  rw [hend, if_neg Bool.false_ne_true, hport]
  exact congrArg Host.Outcome.next (apply_ite State.openDue _ _ _)

/-- A unit closes while others of its window stay open. -/
theorem exec_receiverClose_more (hm : assocDel w.units unit ≠ []) :
    exec (.receiverClose t unit) s = .next ((s.begin t).unitClosing unit port w p) := by
  have hu : (w.unitClosed unit p).units.isEmpty = false := by simpa [GWin.unitClosed] using hm
  have hq : ((s.begin t).unitClosing unit port w p).seq.wins = [] := by
    simp [State.unitClosing, State.winClosed, hs]
  rw [exec_receiverClose hs hw hp ho he ht, hu, if_neg Bool.false_ne_true, State.openDue_of_no_wins hq]

/-- The last unit of a window closes. -/
theorem exec_receiverClose_last (hm : assocDel w.units unit = []) :
    exec (.receiverClose t unit) s = .next
      (((s.begin t).unitClosing unit port w p).closeGroup (unitGroup unit) (w.unitClosed unit p)).openDue := by
  have hu : (w.unitClosed unit p).units.isEmpty = true := by simpa [GWin.unitClosed] using hm
  rw [exec_receiverClose hs hw hp ho he ht, hu, if_pos rfl]

/-- A unit of a fire closes (R141): its shot joins the fire's record. -/
theorem receiverClose_fire (hk : w.kind = .fire) (hf : w.fire = some f) (hm : assocDel w.units unit ≠ []) :
    CompletesAt (.receiverClose t unit) t s [.rta] (shotWords port) fun u =>
      assoc u.rta.wins (unitGroup unit) = some (w.unitClosed unit p) ∧
      u.rta.recs = s.rta.recs.map (fun r =>
        if r.fire.id = f.id then { r with shots := r.shots ++ [(port, w.shot port p)] } else r) ∧
      u.rd (F.RTA_PSTOPS_COUNT port) = satN 20 (s.rd (F.RTA_PSTOPS_COUNT port) + p.stops.length) ∧
      u.rd (F.RTA_POVF_COUNT port) = satN 20 (s.rd (F.RTA_POVF_COUNT port) + p.discards) := by
  have hx := exec_receiverClose_more hs hw hp ho he ht hm
  rw [State.unitClosing, State.closeUnit_fire _ (w := w.unitClosed unit p) hk hf] at hx
  have hwin := (s.begin t).winClosed_win unit w p
  have hrecs : ((s.begin t).winClosed unit w p).rta.recs = s.rta.recs := rfl
  have hword : ∀ a, ((s.begin t).winClosed unit w p).word a = s.word a := fun a => modRta_word _ _ _
  have hmod := Only.winClosed (s.begin t) unit w p
  generalize (s.begin t).winClosed unit w p = v at *
  have hc := Only.countShot v port p
  have hrta : (v.countShot port p).rta = v.rta := hc.2.2 .rta (by decide)
  obtain ⟨hstops, hovf⟩ := v.countShot_counts port p
  rw [State.rd_of_word (hword _)] at hstops hovf
  refine ⟨_, hx, (hmod.comp hc (rs := [.regs, .rta]) (by simp) (by simp)).trans ((Only.shotJoins _ _ _ _).mono (by simp)),
    fun a ha => ?_, ?_, ?_, ?_, ?_⟩
  · rw [State.shotJoins_word, State.countShot_word _ _ ha, hword]
  · exact (congrArg (fun a : Rta => assoc a.wins (unitGroup unit)) hrta).trans hwin
  · rw [State.shotJoins_recs, hrta, hrecs]
    rfl
  · rw [State.rd_of_word (State.shotJoins_word _ _ _ _ _), hstops]
  · rw [State.rd_of_word (State.shotJoins_word _ _ _ _ _), hovf]

/-- A unit of a LISTEN window closes (R184): its record goes to the tracker. -/
theorem receiverClose_listen (hk : w.kind = .listen) (hpost : w.post = some post) (ha : post.amb = true)
    (hf : post.freq = false) (hm : assocDel w.units unit ≠ []) :
    CompletesAt (.receiverClose t unit) t s [.rta, .rpe, .cap] (shotWords port) fun u =>
      assoc u.rta.wins (unitGroup unit) = some (w.unitClosed unit p) ∧ u.rpe.ambQ.length = s.rpe.ambQ.length + 1 := by
  have hx := exec_receiverClose_more hs hw hp ho he ht hm
  rw [State.unitClosing, State.closeUnit_listen _ (w := w.unitClosed unit p) hk hpost ha hf] at hx
  have hwin := (s.begin t).winClosed_win unit w p
  have hword : ∀ a, ((s.begin t).winClosed unit w p).word a = s.word a := fun a => modRta_word _ _ _
  have hmod := Only.winClosed (s.begin t) unit w p
  generalize (s.begin t).winClosed unit w p = v at *
  have hc := Only.countShot v port p
  have hl := Only.listenRecord (v.countShot port p) (w.unitClosed unit p) post port p
  have hrta := (hl.2.2 .rta (by decide)).trans (hc.2.2 .rta (by decide))
  have hrpe := (hc.2.2 .rpe (by decide)).trans (hmod.2.2 .rpe (by decide))
  refine ⟨_, hx, ((hmod.comp hc (rs := [.regs, .rta]) (by simp) (by simp)).mono (by simp)).trans (hl.mono (by simp)),
    fun a ha => ?_, ?_, ?_⟩
  · rw [State.word_of_regs (hl.2.2 .regs (by decide)), State.countShot_word _ _ ha, hword]
  · exact (congrArg (fun a : Rta => assoc a.wins (unitGroup unit)) hrta).trans hwin
  · exact (State.listenRecord_queued _ _ _ _ _).trans (congrArg (fun r : Rpe => r.ambQ.length + 1) hrpe)

/-- The last unit of a fire's window frees the group (R52). -/
theorem receiverClose_frees (hk : w.kind = .fire) (hm : assocDel w.units unit = []) :
    Completes (.receiverClose t unit) t s (.regs :: .seq :: .rta :: .rpe :: .cap :: evParts) fun u =>
      assoc u.rta.wins (unitGroup unit) = none ∧ u.seq.wins = [] ∧ u.seq.fires = s.seq.fires := by
  have hx := exec_receiverClose_last hs hw hp ho he ht hm
  have hmod := Only.winClosed (s.begin t) unit w p
  obtain ⟨hc, -⟩ := Only.closeUnit_fire ((s.begin t).winClosed unit w p) (w := w.unitClosed unit p) hk unit port p
  have hclose : Only [.regs, .rta] (s.begin t) ((s.begin t).unitClosing unit port w p) := (hmod.mono (by simp)).trans hc
  rw [State.closeGroup_fire _ (w := w.unitClosed unit p) hk] at hx
  generalize (s.begin t).unitClosing unit port w p = v at *
  have hfree := Only.groupFreed v (unitGroup unit) (w.unitClosed unit p)
  have hnone := v.groupFreed_wins (unitGroup unit) (w.unitClosed unit p)
  generalize v.groupFreed (unitGroup unit) (w.unitClosed unit p) = v' at *
  have hseq : v'.seq = s.seq := (hfree.2.2 .seq (by decide)).trans (hclose.2.2 .seq (by decide))
  obtain ⟨ms, hset⟩ := v'.settle_seq
  have hq : v'.settle.seq.wins = [] := by rw [hset, hseq]; exact hs
  rw [State.openDue_of_no_wins hq] at hx
  refine ⟨_, hx, ((hclose.comp hfree (rs := [.regs, .rta, .cap]) (by simp) (by simp)).mono (by simp)).trans (Only.settle _),
    ?_, hq, ?_⟩
  · rw [State.settle_wins]
    exact hnone
  · rw [hset, hseq]

end

/-- Settles O25. -/
theorem receiversCloseWithTheirShots : Obligations.ReceiversCloseWithTheirShots := by
  intro s t unit port w p e b hs hw hp ho _ he ht
  refine ⟨fun f hk hf hm => ?_, fun post hk hpost ha hf hm => ?_, receiverClose_frees hs hw hp ho he ht⟩
  · have h := receiverClose_fire hs hw hp ho he ht hk hf hm
    rw [shotWords_eq] at h
    exact h
  · have h := receiverClose_listen hs hw hp ho he ht hk hpost ha hf hm
    rw [shotWords_eq] at h
    exact h

end Sys2Proof.Machine

/-! ## BACKGROUND_TABLE and SKEW_UPDATE (R129, R131, R133, R148) -/

namespace Sys2Proof.Machine

variable {s u : State} {t p r n : Nat} {x : UnitSt} {d : Int}

/-! ### A failed self-check that is noted (R147) -/

/-- A port's failed self-check is counted; it stays short of the limit, so nothing follows from it. -/
theorem State.selfCheckFails_counted (hp : p < 256) (ha : (s.unitSt p).failAt ≠ some s.clk)
    (hn : s.rd (F.RTA_PSTAT_CHKFAILS p) + 1 < s.rd F.RTA_CHK_NFAIL) :
    s.selfCheckFails p = (s.setUnit p { s.unitSt p with failAt := some s.clk }).wr (F.RTA_PSTAT_CHKFAILS p)
      (min 3 (s.rd (F.RTA_PSTAT_CHKFAILS p) + 1)) := by
  have hat : ((s.unitSt p).failAt == some s.clk) = false := by simpa using ha
  have hbad : decide (max 1 (s.rd F.RTA_CHK_NFAIL) ≤ min 3 (s.rd (F.RTA_PSTAT_CHKFAILS p) + 1)) = false := by
    rw [decide_eq_false_iff_not]
    omega
  unfold State.selfCheckFails State.failCheck
  dsimp only
  rw [if_pos hp, hat, if_neg Bool.false_ne_true]
  dsimp only
  rw [hbad, Bool.not_false, if_pos rfl]

/-! ### BACKGROUND_TABLE -/

/-- A table is near the unit's own (R133). -/
def UnitSt.tracks (x : UnitSt) (new : List Nat) (lim : Nat) : Prop :=
  ∀ i, i < 256 → ((x.entry i : Int) - (new.getD i 0 : Nat)).natAbs ≤ lim

theorem UnitSt.tracks_iff (x : UnitSt) (new : List Nat) (lim : Nat) :
    ((List.range 256).all fun i => Nat.ble ((x.entry i : Int) - (new.getD i 0 : Nat)).natAbs lim) = true ↔ x.tracks new lim := by
  rw [List.all_eq_true]
  exact forall_congr' fun i => imp_congr List.mem_range (iff_of_eq Nat.ble_eq)

/-- The density histogram of a unit begins anew. -/
def UnitSt.emptied (x : UnitSt) : UnitSt := { x with bg := [], bgN := 0 }

section
variable (hne : (s.unitSt p).bgN ≠ 0) (hfull : 16 * s.rd F.RTA_BGH_H ≤ (s.unitSt p).bgN)
include hne hfull

theorem backgroundTable_full : ¬ (Nat.blt ((s.begin t).unitSt p).bgN (16 * (s.begin t).rd F.RTA_BGH_H) ||
    ((s.begin t).unitSt p).bgN == 0) = true := by
  rw [begin_rd]
  change ¬ (Nat.blt (s.unitSt p).bgN (16 * s.rd F.RTA_BGH_H) || (s.unitSt p).bgN == 0) = true
  simp only [Bool.or_eq_true, Nat.blt_eq, beq_iff_eq, not_or, not_lt]
  exact ⟨hfull, hne⟩

/-- A table near the unit's own waits for the shot boundary (R133). -/
theorem backgroundTable_waits (hok : (s.unitSt p).tracks (fineTable (s.unitSt p).bg) (s.rd F.RTA_TRK_LUTTRK)) :
    exec (.backgroundTable t p) s =
      .next ((s.begin t).setUnit p { (s.unitSt p).emptied with pendLut := some (fineTable (s.unitSt p).bg) }) := by
  have hall := (UnitSt.tracks_iff _ _ _).mpr hok
  dsimp only [exec, execBackgroundTable]
  rw [if_neg (backgroundTable_full hne hfull), begin_rd]
  exact if_pos hall

/-- A table far from the unit's own is a jump (R133). -/
theorem backgroundTable_jumps (hp : p < 256) (hok : ¬ (s.unitSt p).tracks (fineTable (s.unitSt p).bg) (s.rd F.RTA_TRK_LUTTRK)) :
    exec (.backgroundTable t p) s =
      .next ((((s.begin t).setUnit p (s.unitSt p).emptied).put (F.RTA_PSTAT_LUTJUMP p) true).selfCheckFails p) := by
  have hall := mt (UnitSt.tracks_iff _ _ _).mp hok
  dsimp only [exec, execBackgroundTable]
  rw [if_neg (backgroundTable_full hne hfull), begin_rd, if_pos hp]
  exact if_neg hall

theorem backgroundTable_near (hok : (s.unitSt p).tracks (fineTable (s.unitSt p).bg) (s.rd F.RTA_TRK_LUTTRK)) :
    Completes (.backgroundTable t p) t s [.rta] fun u =>
      u.unitSt p = { (s.unitSt p).emptied with pendLut := some (fineTable (s.unitSt p).bg) } ∧
      ∀ q, q ≠ p → u.unitSt q = s.unitSt q :=
  ⟨_, backgroundTable_waits hne hfull hok, Only.setUnit _ _ _, (State.unitSt_setUnit _ _ _ _).trans (if_pos rfl),
    fun _ hq => (State.unitSt_setUnit _ _ _ _).trans (if_neg hq)⟩

theorem backgroundTable_far (hp : p < 256)
    (hok : ¬ (s.unitSt p).tracks (fineTable (s.unitSt p).bg) (s.rd F.RTA_TRK_LUTTRK))
    (ha : (s.unitSt p).failAt ≠ some (s.begin t).clk)
    (hn : s.rd (F.RTA_PSTAT_CHKFAILS p) + 1 < s.rd F.RTA_CHK_NFAIL) :
    CompletesAt (.backgroundTable t p) t s [.rta] [0x4004 + 16 * p] fun u =>
      u.unitSt p = { (s.unitSt p).emptied with failAt := some (s.begin t).clk } ∧ u.flag (F.RTA_PSTAT_LUTJUMP p) = true ∧
      u.rd (F.RTA_PSTAT_CHKFAILS p) = min 3 (s.rd (F.RTA_PSTAT_CHKFAILS p) + 1) := by
  have hx := backgroundTable_jumps (t := t) hne hfull hp hok
  have hset := Only.setUnit (s.begin t) p (s.unitSt p).emptied
  have hunit : ((s.begin t).setUnit p (s.unitSt p).emptied).unitSt p = (s.unitSt p).emptied :=
    (State.unitSt_setUnit _ _ _ _).trans (if_pos rfl)
  have hword : ∀ a, ((s.begin t).setUnit p (s.unitSt p).emptied).word a = s.word a := fun a => modRta_word _ _ _
  generalize (s.begin t).setUnit p (s.unitSt p).emptied = v at *
  have hput := Only.put v (F.RTA_PSTAT_LUTJUMP p) true
  have hunit' : (v.put (F.RTA_PSTAT_LUTJUMP p) true).unitSt p = (s.unitSt p).emptied := by
    rw [State.unitSt, hput.2.2 .rta (by decide)]
    exact hunit
  have hclk : (v.put (F.RTA_PSTAT_LUTJUMP p) true).clk = (s.begin t).clk := hput.1.trans hset.1
  have hflag : (v.put (F.RTA_PSTAT_LUTJUMP p) true).flag (F.RTA_PSTAT_LUTJUMP p) = true :=
    flag_put _ _ _ rfl (by simp [F.RTA_PSTAT_LUTJUMP])
  have hfails : (v.put (F.RTA_PSTAT_LUTJUMP p) true).rd (F.RTA_PSTAT_CHKFAILS p) = s.rd (F.RTA_PSTAT_CHKFAILS p) := by
    rw [rd_put_other _ _ _ _ le_rfl (by simp [F.RTA_PSTAT_LUTJUMP]) (.inr (.inl (by simp [F.RTA_PSTAT_LUTJUMP, F.RTA_PSTAT_CHKFAILS]))),
      State.rd_of_word (hword _)]
  have hlim : (v.put (F.RTA_PSTAT_LUTJUMP p) true).rd F.RTA_CHK_NFAIL = s.rd F.RTA_CHK_NFAIL := by
    rw [rd_put_other _ _ _ _ le_rfl (by simp [F.RTA_PSTAT_LUTJUMP]) (.inl (by simp [F.RTA_PSTAT_LUTJUMP, F.RTA_CHK_NFAIL]; omega)),
      State.rd_of_word (hword _)]
  have hne4 : ∀ a, a ∉ [0x4004 + 16 * p] → (v.put (F.RTA_PSTAT_LUTJUMP p) true).word a = s.word a := fun a h => by
    rw [word_put_ne _ _ _ _ (by simpa [F.RTA_PSTAT_LUTJUMP] using h), hword]
  generalize v.put (F.RTA_PSTAT_LUTJUMP p) true = v' at *
  rw [State.selfCheckFails_counted hp (by rw [hunit', hclk]; exact ha) (by rw [hfails, hlim]; exact hn), hunit', hclk, hfails] at hx
  refine ⟨_, hx, ((hset.comp hput (rs := [.regs, .rta]) (by simp) (by simp)).trans ((Only.setUnit _ _ _).mono (by simp))).trans
    ((Only.wr _ _ _).mono (by simp)), fun a h => ?_, ?_, ?_, ?_⟩
  · rw [word_wr_ne _ _ _ _ (by simpa [F.RTA_PSTAT_CHKFAILS] using h)]
    exact (modRta_word _ _ _).trans (hne4 a h)
  · rw [State.unitSt, (Only.wr _ _ _).2.2 .rta (by decide)]
    exact (State.unitSt_setUnit _ _ _ _).trans (if_pos rfl)
  · rw [State.flag, rd_wr_other _ _ _ _ (by simp [F.RTA_PSTAT_CHKFAILS]) (by simp [F.RTA_PSTAT_CHKFAILS])
      (.inr (.inr (by simp [F.RTA_PSTAT_CHKFAILS, F.RTA_PSTAT_LUTJUMP])))]
    exact (modRta_flag _ _ _).trans hflag
  · rw [rd_wr _ _ _ (by simp [F.RTA_PSTAT_CHKFAILS]) (by simp [F.RTA_PSTAT_CHKFAILS])]
    simp only [F.RTA_PSTAT_CHKFAILS]
    omega

end

/-! ### SKEW_UPDATE -/

/-- The slots of a unit's skew have been averaged. -/
def UnitSt.averaged (x : UnitSt) (fails : Nat) : UnitSt := { x with skSum := 0, skN := 0, fails := fails }

/-- The mean skew of a unit's slots (R148). -/
def UnitSt.meanSkew (x : UnitSt) : Int := rdiv0 x.skSum x.skN

/-- A mean within SKEWTRK. -/
def State.smallSkew (s : State) (x : UnitSt) : Bool := Nat.ble x.meanSkew.natAbs (16 * s.rd F.RTA_TRK_SKEWTRK)

section
variable (hne : (s.unitSt n).skN ≠ 0) (hfull : s.rd F.RTA_SKEWN_N ≤ (s.unitSt n).skN)
include hne hfull

theorem exec_skewUpdate : exec (.skewUpdate t n) s =
    let x := s.unitSt n
    let small := s.smallSkew x
    let v := (s.begin t).setUnit n (x.averaged (if 264 ≤ n && small then 0 else x.fails))
    if small then .next (v.moveSkew n x.meanSkew)
    else if 264 ≤ n then .next ((v.moveSkew n x.meanSkew).startFails (n - 264))
    else .next ((if n < 256 then v.put (F.RTA_PSTAT_SKEWJUMP n) true else v).selfCheckFails n) := by
  have hc : ((s.unitSt n).skN == 0 || Nat.blt (s.unitSt n).skN (s.rd F.RTA_SKEWN_N)) = false := by
    rw [← Bool.not_eq_true]
    simp only [Bool.or_eq_true, Nat.blt_eq, beq_iff_eq, not_or, not_lt]
    exact ⟨hne, hfull⟩
  have hu : (s.begin t).unitSt n = s.unitSt n := rfl
  dsimp only [exec, execSkewUpdate]
  rw [hu, begin_rd, begin_rd, hc, if_neg Bool.false_ne_true]
  rfl

end

/-- A number of 16 bits in two's complement reads as it was written (R14). -/
theorem signed_unsigned_clamp (z : Int) :
    signed 16 (unsigned 16 (clampZ (-32768) 32767 z) % 2 ^ 16) = clampZ (-32768) 32767 z := by
  have h : -32768 ≤ clampZ (-32768) 32767 z ∧ clampZ (-32768) 32767 z ≤ 32767 := by
    unfold clampZ
    split <;> [skip; split] <;> omega
  generalize clampZ (-32768) 32767 z = y at h
  unfold signed unsigned
  split <;> omega

/-- The skew Shim of a port moves by the mean. -/
theorem State.moveSkew_port (s : State) (hp : p < 256) (d : Int) :
    s.moveSkew p d = s.wrZ (F.RTA_PSKEW_SKEW p) (clampZ (-32768) 32767 (s.rdZ (F.RTA_PSKEW_SKEW p) + d)) := by
  unfold State.moveSkew
  dsimp only
  rw [if_pos hp]

/-- The skew Shim of a row's start TDC. -/
def State.startShim (s : State) (r : Nat) : Int := SMap.get (fun _ => 0) s.rta.startSkew r

/-- The skew Shim of a start TDC moves by the mean. -/
theorem State.moveSkew_start (s : State) (r : Nat) (d : Int) : ∃ m, s.moveSkew (264 + r) d = s.modRta (fun a => { a with startSkew := m }) ∧
    SMap.get (fun _ => 0) m r = clampZ (-32768) 32767 (s.startShim r + d) := by
  refine ⟨_, ?_, (SMap.get_put _ s.rta.startSkew r r _).trans (if_pos rfl)⟩
  unfold State.moveSkew
  dsimp only
  rw [if_neg (by omega), if_neg (by omega), Nat.add_sub_cancel_left]
  rfl

theorem skewUpdate_port (hp : p < 256) (hne : (s.unitSt p).skN ≠ 0) (hfull : s.rd F.RTA_SKEWN_N ≤ (s.unitSt p).skN)
    (hd : (s.unitSt p).meanSkew.natAbs ≤ 16 * s.rd F.RTA_TRK_SKEWTRK) :
    CompletesAt (.skewUpdate t p) t s [.rta] [0x400F + 16 * p] fun u =>
      u.unitSt p = { s.unitSt p with skSum := 0, skN := 0 } ∧
      u.rdZ (F.RTA_PSKEW_SKEW p) = clampZ (-32768) 32767 (s.rdZ (F.RTA_PSKEW_SKEW p) + (s.unitSt p).meanSkew) := by
  have hsmall : s.smallSkew (s.unitSt p) = true := Nat.ble_eq_true_of_le hd
  have hx := exec_skewUpdate (t := t) hne hfull
  dsimp only at hx
  rw [hsmall, if_pos rfl, decide_eq_false (by omega : ¬ 264 ≤ p), Bool.false_and, if_neg Bool.false_ne_true,
    State.moveSkew_port _ hp] at hx
  have hset := Only.setUnit (s.begin t) p ((s.unitSt p).averaged (s.unitSt p).fails)
  have hunit : ((s.begin t).setUnit p ((s.unitSt p).averaged (s.unitSt p).fails)).unitSt p =
      (s.unitSt p).averaged (s.unitSt p).fails := (State.unitSt_setUnit _ _ _ _).trans (if_pos rfl)
  have hword : ∀ a, ((s.begin t).setUnit p ((s.unitSt p).averaged (s.unitSt p).fails)).word a = s.word a :=
    fun a => modRta_word _ _ _
  generalize (s.begin t).setUnit p ((s.unitSt p).averaged (s.unitSt p).fails) = v at *
  refine ⟨_, hx, hset.comp (Only.wrZ _ _ _) (by simp) (by simp), fun a ha => ?_, ?_, ?_⟩
  · rw [word_wrZ_ne _ _ _ _ (by simpa [F.RTA_PSKEW_SKEW] using ha), hword]
  · rw [State.unitSt, (Only.wrZ _ _ _).2.2 .rta (by decide)]
    exact hunit
  · rw [State.rdZ, State.wrZ, rd_wr _ _ _ (by simp [F.RTA_PSKEW_SKEW]) (by simp [F.RTA_PSKEW_SKEW]), State.rdZ,
      State.rd_of_word (hword _), ← State.rdZ]
    exact signed_unsigned_clamp _

/-! ### The failed self-check of a start TDC (R129) -/

/-- A start TDC's failed self-check is counted. -/
def State.startCounted (s : State) (r : Nat) : State :=
  s.setUnit (264 + r) { s.unitSt (264 + r) with fails := (s.unitSt (264 + r)).fails + 1 }

/-- The start TDC has failed so often in a row that its row is marked. -/
def State.startBad (s : State) (r : Nat) : Prop := max 1 (s.rd F.RTA_CHK_NFAIL) ≤ (s.unitSt (264 + r)).fails + 1

theorem State.startCounted_word (s : State) (r a : Nat) : (s.startCounted r).word a = s.word a := modRta_word _ _ _

/-- The row is marked where the count meets the limit. -/
theorem State.startFails_eq (s : State) (r : Nat) : s.startFails r =
    if Nat.ble (max 1 ((s.startCounted r).rd F.RTA_CHK_NFAIL)) ((s.unitSt (264 + r)).fails + 1) then
      (s.startCounted r).wr F.RTA_STARTFAIL_FAIL ((s.startCounted r).rd F.RTA_STARTFAIL_FAIL ||| 2 ^ r)
    else s.startCounted r := rfl

theorem State.startFails_bad (h : s.startBad r) : s.startFails r =
    (s.startCounted r).wr F.RTA_STARTFAIL_FAIL ((s.startCounted r).rd F.RTA_STARTFAIL_FAIL ||| 2 ^ r) := by
  rw [State.startFails_eq, State.rd_of_word (State.startCounted_word s r F.RTA_CHK_NFAIL.addr)]
  exact if_pos (Nat.ble_eq_true_of_le h)

theorem State.startFails_short (h : ¬ s.startBad r) : s.startFails r = s.startCounted r := by
  rw [State.startFails_eq, State.rd_of_word (State.startCounted_word s r F.RTA_CHK_NFAIL.addr)]
  exact if_neg (mt Nat.le_of_ble_eq_true h)

theorem Only.startFails (s : State) (r : Nat) : Only [.regs, .rta] s (s.startFails r) := by
  have hset : Only [.regs, .rta] s (s.startCounted r) := (Only.setUnit _ _ _).mono (by simp)
  by_cases h : s.startBad r
  · rw [State.startFails_bad h]
    exact hset.trans ((Only.wr _ _ _).mono (by simp))
  · rw [State.startFails_short h]
    exact hset

theorem State.startFails_rta (s : State) (r : Nat) : (s.startFails r).rta = (s.startCounted r).rta := by
  by_cases h : s.startBad r
  · rw [State.startFails_bad h]
    exact (Only.wr _ _ _).2.2 .rta (by decide)
  · rw [State.startFails_short h]

theorem State.startFails_word (s : State) (r : Nat) {a : Nat} (ha : a ≠ 0x5011) : (s.startFails r).word a = s.word a := by
  by_cases h : s.startBad r
  · rw [State.startFails_bad h, word_wr_ne _ _ _ _ ha, State.startCounted_word]
  · rw [State.startFails_short h, State.startCounted_word]

/-- The row of a start TDC that failed too often is marked. -/
theorem State.startFails_bit (hr : r < 8) (h : s.startBad r) : bitOf ((s.startFails r).rd F.RTA_STARTFAIL_FAIL) r = true := by
  rw [State.startFails_bad h, rd_wr _ _ _ (by simp [F.RTA_STARTFAIL_FAIL]) (by simp [F.RTA_STARTFAIL_FAIL]), bitOf_eq_testBit,
    Nat.testBit_mod_two_pow, Nat.testBit_or, Nat.testBit_two_pow_self, Bool.or_true, Bool.and_true]
  exact decide_eq_true hr

/-! ### SKEW_UPDATE of a start TDC -/

/-- The state in which the mean has moved the start TDC's Shim, and the facts of it that the self-check does not change. -/
theorem skewUpdate_start_moved (s : State) (t r fails : Nat) : ∃ v : State,
    ((s.begin t).setUnit (264 + r) ((s.unitSt (264 + r)).averaged fails)).moveSkew (264 + r) (s.unitSt (264 + r)).meanSkew = v ∧
    Only [.rta] (s.begin t) v ∧ (∀ a, v.word a = s.word a) ∧ v.unitSt (264 + r) = (s.unitSt (264 + r)).averaged fails ∧
    v.startShim r = clampZ (-32768) 32767 (s.startShim r + (s.unitSt (264 + r)).meanSkew) := by
  obtain ⟨m, hm, hshim⟩ := State.moveSkew_start ((s.begin t).setUnit (264 + r) ((s.unitSt (264 + r)).averaged fails)) r
    (s.unitSt (264 + r)).meanSkew
  exact ⟨_, hm, (Only.setUnit _ _ _).trans (Only.modRta _ _), fun a => modRta_word _ _ _,
    (State.unitSt_setUnit (s.begin t) _ _ _).trans (if_pos rfl), hshim⟩

section
variable (hne : (s.unitSt (264 + r)).skN ≠ 0) (hfull : s.rd F.RTA_SKEWN_N ≤ (s.unitSt (264 + r)).skN)
include hne hfull

theorem skewUpdate_start_small (hsmall : s.smallSkew (s.unitSt (264 + r)) = true) :
    CompletesAt (.skewUpdate t (264 + r)) t s [.rta] [0x5011] fun u =>
      u.unitSt (264 + r) = (s.unitSt (264 + r)).averaged 0 ∧
      u.startShim r = clampZ (-32768) 32767 (s.startShim r + (s.unitSt (264 + r)).meanSkew) ∧
      u.rd F.RTA_STARTFAIL_FAIL = s.rd F.RTA_STARTFAIL_FAIL := by
  have hx := exec_skewUpdate (t := t) hne hfull
  dsimp only at hx
  rw [hsmall, if_pos rfl, decide_eq_true (by omega : 264 ≤ 264 + r), Bool.true_and, if_pos rfl] at hx
  obtain ⟨v, hv, honly, hword, hunit, hshim⟩ := skewUpdate_start_moved s t r 0
  rw [hv] at hx
  exact ⟨_, hx, honly.mono (by simp), fun a _ => hword a, hunit, hshim, State.rd_of_word (hword _)⟩

theorem skewUpdate_start_large (hr : r < 8) (hlarge : s.smallSkew (s.unitSt (264 + r)) = false) :
    CompletesAt (.skewUpdate t (264 + r)) t s [.rta] [0x5011] fun u =>
      u.unitSt (264 + r) = (s.unitSt (264 + r)).averaged ((s.unitSt (264 + r)).fails + 1) ∧
      u.startShim r = clampZ (-32768) 32767 (s.startShim r + (s.unitSt (264 + r)).meanSkew) ∧
      (¬ s.startBad r → u.rd F.RTA_STARTFAIL_FAIL = s.rd F.RTA_STARTFAIL_FAIL) ∧
      (s.startBad r → bitOf (u.rd F.RTA_STARTFAIL_FAIL) r = true) := by
  have hx := exec_skewUpdate (t := t) hne hfull
  dsimp only at hx
  rw [hlarge, if_neg Bool.false_ne_true, Bool.and_false, if_neg Bool.false_ne_true, if_pos (by omega : 264 ≤ 264 + r),
    Nat.add_sub_cancel_left] at hx
  obtain ⟨v, hv, honly, hword, hunit, hshim⟩ := skewUpdate_start_moved s t r (s.unitSt (264 + r)).fails
  rw [hv] at hx
  have hbad : v.startBad r ↔ s.startBad r := by
    rw [State.startBad, State.startBad, State.rd_of_word (hword _), hunit]
    rfl
  refine ⟨_, hx, (honly.mono (by simp)).trans (Only.startFails v r), fun a ha => ?_, ?_, ?_, fun h => ?_, fun h => ?_⟩
  · rw [State.startFails_word v r (by simpa using ha), hword]
  · rw [State.unitSt, State.startFails_rta]
    refine (State.unitSt_setUnit _ _ _ _).trans ((if_pos rfl).trans ?_)
    rw [hunit]
    rfl
  · rw [State.startShim, State.startFails_rta]
    exact hshim
  · rw [State.startFails_short (mt hbad.mp h), State.rd_of_word (State.startCounted_word _ _ _), State.rd_of_word (hword _)]
  · exact State.startFails_bit hr (hbad.mpr h)

/-- A start TDC's mean always moves its Shim; one beyond SKEWTRK is its failed self-check (log entry 21). -/
theorem skewUpdate_start (hr : r < 8) : CompletesAt (.skewUpdate t (264 + r)) t s [.rta] [0x5011] fun u =>
    u.unitSt (264 + r) = (s.unitSt (264 + r)).averaged
      (if s.smallSkew (s.unitSt (264 + r)) = true then 0 else (s.unitSt (264 + r)).fails + 1) ∧
    u.startShim r = clampZ (-32768) 32767 (s.startShim r + (s.unitSt (264 + r)).meanSkew) ∧
    (s.smallSkew (s.unitSt (264 + r)) = true ∨ (s.unitSt (264 + r)).fails + 1 < max 1 (s.rd F.RTA_CHK_NFAIL) →
      u.rd F.RTA_STARTFAIL_FAIL = s.rd F.RTA_STARTFAIL_FAIL) ∧
    (s.smallSkew (s.unitSt (264 + r)) = false → max 1 (s.rd F.RTA_CHK_NFAIL) ≤ (s.unitSt (264 + r)).fails + 1 →
      bitOf (u.rd F.RTA_STARTFAIL_FAIL) r = true) := by
  cases hsmall : s.smallSkew (s.unitSt (264 + r)) with
  | true =>
    obtain ⟨u, hx, honly, hword, hunit, hshim, hfail⟩ := skewUpdate_start_small (t := t) hne hfull hsmall
    exact ⟨u, hx, honly, hword, hunit, hshim, fun _ => hfail, fun h => absurd h.symm Bool.false_ne_true⟩
  | false =>
    obtain ⟨u, hx, honly, hword, hunit, hshim, hshort, hbad⟩ := skewUpdate_start_large (t := t) hne hfull hr hsmall
    refine ⟨u, hx, honly, hword, hunit, hshim, fun h => hshort ?_, fun _ => hbad⟩
    rw [State.startBad]
    exact Nat.not_le.mpr (h.resolve_left Bool.false_ne_true)

end

end Sys2Proof.Machine

/-! ## GATE_END and HIT_EXPIRY (R156, R157, R163, R231, R232) -/

namespace Sys2Proof.Machine

variable {s u : State} {t p n : Nat}

/-! ### The hit states of the ports and the flag FOREIGN -/

/-- The ports that are hit (R232). -/
def State.hitPorts (s : State) : Nat := (s.rpe.hits.filter fun e => e.2.hit).length

/-- NHIT follows the hit states. -/
def State.hitsCounted (s : State) : State := s.wr F.RPE_FOR_STAT_NHIT s.hitPorts

theorem State.hitsCounted_rd (s : State) {g : Fld} (hg : g.addr ≠ 0x6064) : s.hitsCounted.rd g = s.rd g :=
  rd_wr_other _ _ _ _ (by simp [F.RPE_FOR_STAT_NHIT]) (by simp [F.RPE_FOR_STAT_NHIT]) (.inl hg)

/-- FPORTS ports or more are hit (R232; FPORTS = 0 counts as 1, log entry 75). -/
def State.manyHits (s : State) : Bool := Nat.ble (max 1 (s.rd F.RPE_FOR_PORTS_FPORTS)) s.hitPorts

theorem State.evalForeign_eq (s : State) : s.evalForeign =
    if s.manyHits == s.hitsCounted.flag F.RPE_FOR_STAT_FOREIGN then s.hitsCounted
    else (s.hitsCounted.put F.RPE_FOR_STAT_FOREIGN s.manyHits).raise 0x0A .info (b2n s.manyHits) := by
  have h : Nat.ble (max 1 (s.hitsCounted.rd F.RPE_FOR_PORTS_FPORTS)) s.hitPorts = s.manyHits := by
    rw [State.hitsCounted_rd _ (by simp [F.RPE_FOR_PORTS_FPORTS])]
    rfl
  rw [← h]
  rfl

theorem Only.evalForeign (s : State) : Only (.regs :: evParts) s s.evalForeign := by
  have hn : Only [.regs] s s.hitsCounted := Only.wr _ _ _
  rw [State.evalForeign_eq]
  split
  · exact hn.mono (by simp)
  · exact (hn.comp (Only.put _ _ _) (rs := .regs :: evParts) (by simp) (by simp)).trans
      ((Only.raise _ _ _ _).mono (by simp [evParts]))

/-- The words that the evaluation may change: RPE_FOR_STAT, and the counts of lost events. -/
theorem State.evalForeign_word (s : State) {a : Nat} (ha : a ≠ 0x6064) (he : a ∉ evWords) :
    s.evalForeign.word a = s.word a := by
  have hn : s.hitsCounted.word a = s.word a := word_wr_ne _ _ _ _ ha
  rw [State.evalForeign_eq]
  split
  · exact hn
  · rw [State.raise_word _ _ _ _ he, word_put_ne _ _ _ _ ha, hn]

/-- FOREIGN is set while FPORTS ports or more are hit. -/
theorem State.evalForeign_flag (s : State) : s.evalForeign.flag F.RPE_FOR_STAT_FOREIGN = s.manyHits := by
  rw [State.evalForeign_eq]
  split
  next h => exact (beq_iff_eq.mp h).symm
  next =>
    rw [State.flag_of_word (State.raise_word _ _ _ _ (by decide))]
    exact flag_put _ _ _ rfl (by simp [F.RPE_FOR_STAT_FOREIGN])

theorem Only.modRpe (s : State) (f : Rpe → Rpe) : Only [.rpe] s (s.modRpe f) :=
  ⟨by simp, by simp, fun p hp => by cases p <;> simp_all [Part.same]⟩

/-- A port's hit state as given, and FOREIGN after it. -/
def State.foreignSet (s : State) (p : Nat) (f : Foreign) : State := (s.setForeign p f).evalForeign

theorem Only.foreignSet (s : State) (p : Nat) (f : Foreign) : Only (.regs :: .rpe :: evParts) s (s.foreignSet p f) :=
  ((Only.modRpe s _).comp (Only.put _ _ _) (rs := .regs :: .rpe :: evParts) (by simp) (by simp)).trans
    ((Only.evalForeign _).mono (by simp [evParts]))

theorem State.foreignSet_rpe (s : State) (p : Nat) (f : Foreign) :
    (s.foreignSet p f).rpe = { s.rpe with hits := SMap.put (fun _ => default) s.rpe.hits p f } := by
  have he := (Only.evalForeign (s.setForeign p f)).2.2 .rpe (by decide)
  have hp := (Only.put (s.modRpe fun r => { r with hits := SMap.put (fun _ => default) r.hits p f })
    ⟨0x6068 + p / 16, p % 16, p % 16⟩ f.hit).2.2 .rpe (by decide)
  exact he.trans hp

theorem State.foreignSet_foreignOf (s : State) (p : Nat) (f : Foreign) : (s.foreignSet p f).foreignOf p = f := by
  rw [State.foreignOf, State.foreignSet_rpe]
  exact (SMap.get_put _ _ _ _ _).trans (if_pos rfl)

/-- The words of the ports and the limits of chapter 7 are none of those that a hit state changes. -/
theorem State.foreignSet_word (s : State) (p : Nat) (f : Foreign) {a : Nat} (ha : a < 0x6064) (he : a ∉ evWords) :
    (s.foreignSet p f).word a = s.word a := by
  rw [State.foreignSet, State.evalForeign_word _ (by omega) he, State.setForeign, word_put_ne _ _ _ _ (by dsimp only; omega)]
  exact modRpe_word _ _ _

theorem State.foreignSet_flag (s : State) (hp : p < 256) (f : Foreign) :
    (s.foreignSet p f).flag F.RPE_FOR_STAT_FOREIGN =
      decide (max 1 (s.rd F.RPE_FOR_PORTS_FPORTS) ≤ (s.foreignSet p f).hitPorts) := by
  have hrpe : (s.setForeign p f).hitPorts = (s.foreignSet p f).hitPorts := by
    have he := (Only.evalForeign (s.setForeign p f)).2.2 .rpe (by decide)
    rw [State.hitPorts, State.hitPorts, State.foreignSet, he]
  have hlim : (s.setForeign p f).rd F.RPE_FOR_PORTS_FPORTS = s.rd F.RPE_FOR_PORTS_FPORTS := by
    have hw : (s.setForeign p f).word F.RPE_FOR_PORTS_FPORTS.addr = s.word F.RPE_FOR_PORTS_FPORTS.addr := by
      rw [State.setForeign, word_put_ne _ _ _ _ (by simp only [F.RPE_FOR_PORTS_FPORTS]; omega)]
      exact modRpe_word _ _ _
    exact State.rd_of_word hw
  rw [State.foreignSet, State.evalForeign_flag, State.manyHits, hlim, hrpe, ← State.foreignSet, Bool.eq_iff_iff,
    decide_eq_true_iff]
  exact iff_of_eq Nat.ble_eq

/-! ### HIT_EXPIRY -/

theorem hitExpiry_expires (hh : (s.foreignOf p).hit = true)
    (ha : (s.foreignOf p).gateAt + 1000000 * s.rd F.RPE_FOR_PORTS_FAGE ≤ (s.begin t).clk) :
    Completes (.hitExpiry t p) t s (.regs :: .rpe :: evParts) fun u => u.foreignOf p = { s.foreignOf p with hit := false } := by
  have hf : (s.begin t).foreignOf p = s.foreignOf p := rfl
  have hc : (!(s.foreignOf p).hit || Nat.blt (s.begin t).clk ((s.foreignOf p).gateAt + 1000000 * s.rd F.RPE_FOR_PORTS_FAGE)) =
      false := by
    rw [hh, Bool.not_true, Bool.false_or, ← Bool.not_eq_true, Nat.blt_eq]
    exact Nat.not_lt.mpr ha
  have hx : exec (.hitExpiry t p) s = .next ((s.begin t).foreignSet p { s.foreignOf p with hit := false }) := by
    dsimp only [exec, execHitExpiry]
    rw [hf, begin_rd, hc]
    rfl
  exact ⟨_, hx, Only.foreignSet _ _ _, State.foreignSet_foreignOf _ _ _⟩

/-! ### GATE_END of a port -/

/-- A unit's background gate begins anew. -/
def UnitSt.gateEmptied (x : UnitSt) : UnitSt := { x with fqA := 0, fqB := 0, fqT := 0, fqW := 0 }

/-- The result of a port's gate stands in RTA_PFQN and RTA_PFQP. -/
def State.gateNoted (s : State) (p : Nat) : State :=
  ((s.setUnit p (s.unitSt p).gateEmptied).wr (F.RTA_PFQN_N p) (s.unitSt p).gate.1).wrWide (0x400C + 16 * p) 2 (s.unitSt p).gate.2

theorem State.portGate_eq (s : State) (p : Nat) : s.portGate p p = (s.gateNoted p).foreignSet p
    ⟨(s.gateNoted p).foreignHit (s.unitSt p).gate.1 (s.unitSt p).gate.2 ((s.gateNoted p).foreignOf p).pprev,
      (s.gateNoted p).clk, (s.unitSt p).gate.2⟩ := rfl

theorem Only.gateNoted (s : State) (p : Nat) : Only [.regs, .rta] s (s.gateNoted p) :=
  ((Only.setUnit _ _ _).comp (Only.wr _ _ _) (rs := [.regs, .rta]) (by simp) (by simp)).trans ((Only.wrWide _ _ _ _).mono (by simp))

theorem State.gateNoted_word (s : State) (p : Nat) {a : Nat} (ha : a < 0x400B + 16 * p ∨ 0x400E + 16 * p ≤ a) :
    (s.gateNoted p).word a = s.word a := by
  rw [State.gateNoted, State.wrWide_word _ _ _ _ (by omega), word_wr_ne _ _ _ _ (by simp only [F.RTA_PFQN_N]; omega)]
  exact modRta_word _ _ _

theorem State.gateNoted_unitSt (s : State) (p : Nat) : (s.gateNoted p).unitSt p = (s.unitSt p).gateEmptied := by
  rw [State.unitSt, State.gateNoted, (Only.wrWide _ _ _ _).2.2 .rta (by decide), (Only.wr _ _ _).2.2 .rta (by decide)]
  exact (State.unitSt_setUnit _ _ _ _).trans (if_pos rfl)

theorem State.gateNoted_n (s : State) (p : Nat) : (s.gateNoted p).rd (F.RTA_PFQN_N p) = (s.unitSt p).gate.1 % 2 ^ 20 := by
  rw [State.gateNoted, State.rd_of_word (State.wrWide_word _ _ _ _ (by simp only [F.RTA_PFQN_N]; omega)),
    rd_wr _ _ _ (by simp [F.RTA_PFQN_N]) (by simp [F.RTA_PFQN_N])]
  rfl

theorem State.gateNoted_period (s : State) (p : Nat) :
    (s.gateNoted p).rdWide (0x400C + 16 * p) 2 = (s.unitSt p).gate.2 % 2 ^ 40 := State.rdWide_wrWide _ _ _ _

/-- A period counts as foreign by the limits of RPE_FOR_CFG, RPE_FOR_PMIN and RPE_FOR_PMAX alone (R231). -/
theorem State.foreignHit_of_words (h : ∀ a, 0x6060 ≤ a → u.word a = s.word a) (k per prev : Nat) :
    u.foreignHit k per prev = s.foreignHit k per prev := by
  have hr : ∀ g : Fld, 0x6060 ≤ g.addr → u.rd g = s.rd g := fun g hg => State.rd_of_word (h _ hg)
  unfold State.foreignHit
  rw [hr F.RPE_FOR_CFG_FNMIN (by simp [F.RPE_FOR_CFG_FNMIN]), hr F.RPE_FOR_PMIN_FPMIN (by simp [F.RPE_FOR_PMIN_FPMIN]),
    hr F.RPE_FOR_PMAX_FPMAX (by simp [F.RPE_FOR_PMAX_FPMAX]), hr F.RPE_FOR_CFG_FPTOL (by simp [F.RPE_FOR_CFG_FPTOL])]

/-- The registers of the receivers count no lost events. -/
theorem receiver_word_not_ev {a : Nat} (hlo : 0x4000 ≤ a) (hhi : a < 0x6064) : a ∉ evWords := by
  simp only [evWords, F.CTL_EVLOST_COUNT, F.LNK_EVLOST_COUNT, List.mem_cons, List.not_mem_nil, or_false]
  omega

section
variable (hp : p < 256) (hw : s.rd F.RTA_FQW_W ≠ 0) (hfull : s.rd F.RTA_FQW_W ≤ (s.unitSt p).fqW)
include hp hw hfull

theorem exec_gateEnd_port : exec (.gateEnd t p) s = .next ((s.begin t).portGate p p) := by
  have hport : (s.begin t).portOfUnit p = some p := if_pos hp
  have hu : (s.begin t).unitSt p = s.unitSt p := rfl
  have hc : (s.rd F.RTA_FQW_W == 0 || Nat.blt (s.unitSt p).fqW (s.rd F.RTA_FQW_W)) = false := by
    rw [← Bool.not_eq_true]
    simp only [Bool.or_eq_true, Nat.blt_eq, beq_iff_eq, not_or, not_lt]
    exact ⟨hw, hfull⟩
  dsimp only [exec, execGateEnd]
  rw [if_pos (by omega), hport]
  dsimp only
  rw [begin_rd, hu, hc, if_neg Bool.false_ne_true]

theorem gateEnd_port : Completes (.gateEnd t p) t s (.regs :: .rta :: .rpe :: evParts) fun u =>
    u.rd (F.RTA_PFQN_N p) = (s.unitSt p).gate.1 % 2 ^ 20 ∧
    u.rdWide (0x400C + 16 * p) 2 = (s.unitSt p).gate.2 % 2 ^ 40 ∧ (u.unitSt p).fqW = 0 ∧
    u.foreignOf p = ⟨s.foreignHit (s.unitSt p).gate.1 (s.unitSt p).gate.2 (s.foreignOf p).pprev, (s.begin t).clk,
      (s.unitSt p).gate.2⟩ ∧
    u.flag F.RPE_FOR_STAT_FOREIGN = decide (max 1 (s.rd F.RPE_FOR_PORTS_FPORTS) ≤ u.hitPorts) := by
  have hx := exec_gateEnd_port (t := t) hp hw hfull
  rw [State.portGate_eq] at hx
  have honly := Only.gateNoted (s.begin t) p
  have hword : ∀ a, a < 0x400B + 16 * p ∨ 0x400E + 16 * p ≤ a → ((s.begin t).gateNoted p).word a = s.word a :=
    fun a ha => State.gateNoted_word _ _ ha
  have hunit : ((s.begin t).gateNoted p).unitSt p = (s.unitSt p).gateEmptied := State.gateNoted_unitSt _ _
  have hn : ((s.begin t).gateNoted p).rd (F.RTA_PFQN_N p) = (s.unitSt p).gate.1 % 2 ^ 20 := State.gateNoted_n _ _
  have hper : ((s.begin t).gateNoted p).rdWide (0x400C + 16 * p) 2 = (s.unitSt p).gate.2 % 2 ^ 40 := State.gateNoted_period _ _
  have hu : (s.begin t).unitSt p = s.unitSt p := rfl
  rw [hu] at hx
  generalize (s.begin t).gateNoted p = v at *
  have hprev : v.foreignOf p = s.foreignOf p := by
    rw [State.foreignOf, honly.2.2 .rpe (by decide)]
    rfl
  rw [hprev, honly.1, State.foreignHit_of_words (s := s) fun a ha => hword a (by omega)] at hx
  generalize s.foreignHit (s.unitSt p).gate.1 (s.unitSt p).gate.2 (s.foreignOf p).pprev = hit at hx ⊢
  have hkept : ∀ a, 0x4000 ≤ a → a < 0x6064 →
      (v.foreignSet p ⟨hit, (s.begin t).clk, (s.unitSt p).gate.2⟩).word a = v.word a :=
    fun a hlo hhi => State.foreignSet_word v p _ hhi (receiver_word_not_ev hlo hhi)
  refine ⟨_, hx, (honly.mono (by simp)).trans ((Only.foreignSet _ _ _).mono (by simp [evParts])), ?_, ?_, ?_,
    State.foreignSet_foreignOf _ _ _, ?_⟩
  · rw [State.rd_of_word (hkept _ (by simp [F.RTA_PFQN_N]; omega) (by simp [F.RTA_PFQN_N]; omega)), hn]
  · rw [State.rdWide_of_words fun i hi => hkept _ (by omega) (by omega), hper]
  · rw [State.unitSt, (Only.foreignSet _ _ _).2.2 .rta (by decide), ← State.unitSt, hunit]
    rfl
  · rw [State.foreignSet_flag _ hp, State.rd_of_word (hword _ (by simp only [F.RPE_FOR_PORTS_FPORTS]; omega))]

end

/-! ### GATE_END of a start or trigger TDC -/

/-- A start or trigger TDC out of frequency mode has no gate (R156, R163). -/
theorem gateEnd_tdc_off (hlo : 264 ≤ n) (hoff : s.fqOn n = false) : Completes (.gateEnd t n) t s [] fun _ => True := by
  refine completes_of_next ?_ _
  have hf : (s.begin t).fqOn n = s.fqOn n := rfl
  dsimp only [exec, execGateEnd]
  rw [if_neg (by omega), hf, hoff, Bool.not_false, Bool.or_true, Bool.true_or, Bool.true_or, if_pos rfl]

theorem Only.tdcGate (s : State) (n : Nat) : Only [.regs, .rta] s (s.tdcGate n) :=
  ((Only.setUnit _ _ _).comp (Only.wr _ _ _) (rs := [.regs, .rta]) (by simp) (by simp)).trans ((Only.wrWide _ _ _ _).mono (by simp))

/-- The next gate of a TDC begins where one ends, with nothing captured (R157). -/
theorem State.tdcGate_begins (s : State) (n : Nat) :
    ((s.tdcGate n).unitSt n).gate0 = s.clk ∧ ((s.tdcGate n).unitSt n).fqN = 0 ∧ ((s.tdcGate n).unitSt n).fqSeen = 0 := by
  unfold State.tdcGate
  dsimp only
  rw [State.unitSt, (Only.wrWide _ _ _ _).2.2 .rta (by decide), (Only.wr _ _ _).2.2 .rta (by decide), ← State.unitSt,
    State.unitSt_setUnit, if_pos rfl]
  exact ⟨rfl, rfl, rfl⟩

section
variable (hlo : 264 ≤ n) (hhi : n < 276) (hon : s.fqOn n = true) (hg : 0 < s.rd F.RTA_FGATE_GATE)
  (hend : (s.unitSt n).gate0 + 1000 * s.rd F.RTA_FGATE_GATE ≤ (s.begin t).clk)
include hlo hhi hon hg hend

theorem gateEnd_tdc : Completes (.gateEnd t n) t s [.regs, .rta] fun u =>
    (u.unitSt n).gate0 = (s.begin t).clk ∧ (u.unitSt n).fqN = 0 ∧ (u.unitSt n).fqSeen = 0 := by
  have hf : (s.begin t).fqOn n = s.fqOn n := rfl
  have hu : (s.begin t).unitSt n = s.unitSt n := rfl
  have hc : ¬ (decide (276 ≤ n) || !s.fqOn n || s.rd F.RTA_FGATE_GATE == 0 ||
      Nat.blt (s.begin t).clk ((s.unitSt n).gate0 + 1000 * s.rd F.RTA_FGATE_GATE)) = true := by
    simp only [hon, Bool.or_eq_true, Nat.blt_eq, beq_iff_eq, decide_eq_true_eq, Bool.not_true, Bool.false_eq_true, or_false, not_or]
    omega
  have hx : exec (.gateEnd t n) s = .next ((s.begin t).tdcGate n) := by
    dsimp only [exec, execGateEnd]
    rw [if_neg (by omega), begin_rd, hf, hu]
    exact if_neg hc
  exact ⟨_, hx, Only.tdcGate _ _, State.tdcGate_begins _ _⟩

end

/-! ### The statement -/

/-- Settles O26. -/
theorem tablesSkewsAndGates : Obligations.TablesSkewsAndGates := by
  intro s t b
  refine ⟨fun p hp hne hfull => ?_, fun p hp hne hfull => ?_, fun r hr => ?_, fun p hp hw hfull => ?_,
    fun n hlo _ hoff => gateEnd_tdc_off hlo hoff, fun n hlo hhi hon hg hend => gateEnd_tdc hlo hhi hon hg hend,
    fun p _ hh ha => hitExpiry_expires hh ha⟩
  · exact ⟨fun hok => backgroundTable_near hne hfull hok, fun hok ha hn => backgroundTable_far hne hfull hp hok ha hn⟩
  · exact fun hd => skewUpdate_port hp hne hfull hd
  · exact fun hne hfull => skewUpdate_start hne hfull hr
  · exact gateEnd_port hp hw hfull

end Sys2Proof.Machine

/-! ## BINNING (R167, R168, R170, R180) -/

namespace Sys2Proof.Machine

variable {s u : State} {t port : Nat} {r : FireRec} {sh : Shot}

/-! ### The data path at rest -/

/-- The data path of the ports at rest: no close waits for earlier shots, no token is on its way, and every fire on it bins. -/
structure State.AtRest (s : State) : Prop where
  closing : s.rta.closing = []
  path : s.toPass = []
  binned : ∀ q ∈ s.rta.recs, q.fire.bink ≠ 15

theorem State.AtRest.of_parts (h : s.AtRest) (hr : u.rta = s.rta) (hq : u.seq = s.seq) : u.AtRest :=
  ⟨by rw [hr, h.closing], by rw [State.toPass, hq]; exact h.path, by rw [hr]; exact h.binned⟩

theorem State.AtRest.begin (h : s.AtRest) (t : Nat) : (s.begin t).AtRest := h.of_parts rfl rfl

theorem State.AtRest.mayBin (h : s.AtRest) (id : Nat) : s.mayBin id = true := by
  rw [State.mayBin, h.path, List.all_nil]

theorem State.AtRest.settleCloses (h : s.AtRest) (port : Nat) : s.settleCloses port = s := by
  have hrta : { s.rta with closing := s.rta.closing.filter fun e => e.1 != port } = s.rta := by
    rw [h.closing, List.filter_nil, ← h.closing]
  unfold State.settleCloses
  split
  · rfl
  · dsimp only
    rw [State.modRta, hrta, h.closing, List.filter_nil, List.foldl_nil]

/-- Fires that bin have no shot sets (R186). -/
theorem State.AtRest.settleSingles (h : s.AtRest) : s.settleSingles = s := by
  have hnone : s.rta.recs.filter (fun q => q.fire.bink == 15) = [] :=
    List.filter_eq_nil_iff.mpr fun q hq => by simpa using h.binned q hq
  rw [State.settleSingles, hnone, List.foldl_nil]

theorem State.AtRest.settle (h : s.AtRest) : s.settle = s := by
  unfold State.settle
  cases s.seq.marks.length with
  | zero => exact h.settleSingles
  | succ n => rw [State.settlePath, h.settleSingles, h.path]

theorem State.takeShot_rta (h : u.rta = s.rta) (id port : Nat) : (u.takeShot id port).rta = (s.takeShot id port).rta := by
  simp only [State.takeShot, State.modRta, h]

/-- A fire keeps its posting when a shot of it is taken. -/
theorem State.AtRest.takeShot (h : s.AtRest) (id port : Nat) : (s.takeShot id port).AtRest := by
  refine ⟨h.closing, h.path, fun q hq => ?_⟩
  obtain ⟨q0, hq0, rfl⟩ := List.mem_map.mp (List.mem_of_mem_filter hq)
  split <;> exact h.binned q0 hq0

/-! ### The close of a histogram whose read buffer is free (R180) -/

/-- A histogram as it is closed: with its cause, its place in the order of closes, and the history in force. -/
def State.closedHist (s : State) (h : Hist) (cause : Nat) : Hist :=
  { h with cause := some cause, partialC := cause != 0, ord := s.rpe.nextOrd, gen := s.rpe.gen, live := s.ready }

/-- The next close is one later in the order of closes. -/
def State.closeCounted (s : State) : State := s.modRpe fun x => { x with nextOrd := x.nextOrd + 1 }

theorem State.closeOpen_free (s : State) (h : Hist) (cause : Nat) (hb : s.rdBusy h.port = false) :
    s.closeOpen h cause = s.closeCounted.handOver (s.closedHist h cause) := by
  have hb' : s.closeCounted.rdBusy h.port = false := hb
  rw [State.closeCounted] at hb'
  unfold State.closeOpen
  dsimp only
  rw [hb']
  rfl

theorem Only.handOver (s : State) (h : Hist) : Only [.regs, .rpe, .cap] s (s.handOver h) :=
  ⟨by simp, by simp, fun p hp => by cases p <;> simp_all [Part.same]⟩

/-- The buffers are swapped: the port has no open histogram, and the closed one waits for the echo stage behind the others. -/
theorem State.handOver_rpe (s : State) (h : Hist) : (s.handOver h).rpe = { s.rpe with
    acc := assocDel s.rpe.acc h.port, queue := s.rpe.queue ++ [h],
    ambQ := s.rpe.ambQ ++ [.hist h.port h.ambpost (satN 20 (h.livepost / 4096)) h.more] } := by
  unfold State.handOver
  simp

/-! ### The port's next counted shot -/

/-- What the port's next counted shot makes of its histogram, which it opens where none is open (R167, R170), and the number of
its stops that coincidence rejects (R172). -/
def State.binShot (s : State) (r : FireRec) (port : Nat) (sh : Shot) : Hist × Nat :=
  s.binInto r port sh ((assoc s.rpe.acc port).getD (r.openHist port))

/-- The shot has been taken, and stands in its histogram. -/
def State.shotBinned (s : State) (r : FireRec) (port : Nat) (x : Hist × Nat) : State :=
  ((s.count F.RPE_CREJ_COUNT x.2).takeShot r.fire.id port).modRpe fun e => { e with acc := assocPut e.acc port x.1 }

theorem Only.shotBinned (s : State) (r : FireRec) (port : Nat) (x : Hist × Nat) :
    Only [.regs, .rta, .rpe] s (s.shotBinned r port x) :=
  ((Only.count _ _ _).comp (Only.modRta _ _) (rs := [.regs, .rta, .rpe]) (by simp) (by simp)).trans
    ((Only.modRpe _ _).mono (by simp))

theorem State.shotBinned_rpe (s : State) (r : FireRec) (port : Nat) (x : Hist × Nat) :
    (s.shotBinned r port x).rpe = { s.rpe with acc := assocPut s.rpe.acc port x.1 } := by
  have hkept : ((s.count F.RPE_CREJ_COUNT x.2).takeShot r.fire.id port).rpe = s.rpe := by simp
  exact congrArg (fun e : Rpe => { e with acc := assocPut e.acc port x.1 }) hkept

theorem State.shotBinned_rta (s : State) (r : FireRec) (port : Nat) (x : Hist × Nat) :
    (s.shotBinned r port x).rta = (s.takeShot r.fire.id port).rta :=
  State.takeShot_rta (by simp) _ _

theorem State.AtRest.shotBinned (h : s.AtRest) (r : FireRec) (port : Nat) (x : Hist × Nat) : (s.shotBinned r port x).AtRest :=
  (h.takeShot r.fire.id port).of_parts (s.shotBinned_rta r port x) ((Only.shotBinned s r port x).2.2 .seq (by decide))

/-- The histogram has its N shots, and no cause has closed it before (R168). -/
def Hist.full (h : Hist) : Bool := h.cause.isNone && h.n ≤ h.nshot

section
variable (hn : s.nextShot port = some r) (hb : r.fire.bink ≠ 15) (hset : r.settled port = true)
  (hsh : assoc r.shots port = some sh) (hs : s.AtRest)
include hn hb hset hsh hs

theorem exec_binning : exec (.binning t port) s = .next ((if (s.binShot r port sh).1.full
      then ((s.begin t).shotBinned r port (s.binShot r port sh)).closeOpen (s.binShot r port sh).1 0
      else (s.begin t).shotBinned r port (s.binShot r port sh)).settleCloses port).settle := by
  have hn' : (s.begin t).nextShot port = some r := hn
  have hgo : (r.fire.bink == 15 || !r.settled port || !(s.begin t).mayBin r.fire.id) = false := by
    rw [hset, (hs.begin t).mayBin, beq_eq_false_iff_ne.mpr hb]
    rfl
  dsimp only [exec, execBinning]
  rw [hn']
  dsimp only
  rw [hgo, if_neg Bool.false_ne_true, hsh, State.binShot]
  dsimp only
  cases ho : assoc s.rpe.acc port with
  | none =>
    rw [show assoc (s.begin t).rpe.acc port = none from ho]
    rfl
  | some h =>
    rw [show assoc (s.begin t).rpe.acc port = some h from ho]
    rfl

/-- Short of the Nth shot, and in a stretching histogram, the shot enters and nothing else follows. -/
theorem binning_enters (hf : (s.binShot r port sh).1.full = false) :
    exec (.binning t port) s = .next ((s.begin t).shotBinned r port (s.binShot r port sh)) := by
  have hrest : ((s.begin t).shotBinned r port (s.binShot r port sh)).AtRest :=
    (hs.begin t).shotBinned _ _ _
  rw [exec_binning hn hb hset hsh hs, hf, if_neg Bool.false_ne_true, hrest.settleCloses, hrest.settle]

/-- The Nth shot closes the histogram, which is handed over. -/
theorem binning_closes (hf : (s.binShot r port sh).1.full = true) (hport : (s.binShot r port sh).1.port = port)
    (hrd : s.rdBusy port = false) : exec (.binning t port) s = .next
      (((s.begin t).shotBinned r port (s.binShot r port sh)).closeCounted.handOver
        (((s.begin t).shotBinned r port (s.binShot r port sh)).closedHist (s.binShot r port sh).1 0)) := by
  have hrest : ((s.begin t).shotBinned r port (s.binShot r port sh)).AtRest :=
    (hs.begin t).shotBinned _ _ _
  have hfree : ((s.begin t).shotBinned r port (s.binShot r port sh)).rdBusy (s.binShot r port sh).1.port = false := by
    rw [hport, State.rdBusy, State.shotBinned_rpe]
    exact hrd
  rw [exec_binning hn hb hset hsh hs, hf, if_pos rfl]
  generalize (s.begin t).shotBinned r port (s.binShot r port sh) = v at hrest hfree
  have ho := Only.handOver v.closeCounted (v.closedHist (s.binShot r port sh).1 0)
  have hrest' : (v.closeCounted.handOver (v.closedHist (s.binShot r port sh).1 0)).AtRest :=
    hrest.of_parts (ho.2.2 .rta (by decide)) (ho.2.2 .seq (by decide))
  rw [State.closeOpen_free _ _ _ hfree, hrest'.settleCloses, hrest'.settle]

end

/-- Settles O27: behind the shot the data path is at rest, so that nothing follows but the close of a full histogram, which is
handed over where its port's read buffer is free. -/
theorem shotsEnterHistograms : Obligations.ShotsEnterHistograms := by
  intro s t port r sh hn hb hset hsh hc hp hr h
  have hs : s.AtRest := ⟨hc, hp, hr⟩
  have honly := Only.shotBinned (s.begin t) r port (s.binShot r port sh)
  have hrpe : ((s.begin t).shotBinned r port (s.binShot r port sh)).rpe = { s.rpe with acc := assocPut s.rpe.acc port h } :=
    State.shotBinned_rpe _ _ _ _
  refine ⟨fun hshort => ?_, fun hnone hfull hport hrd => ?_⟩
  · have hf : (s.binShot r port sh).1.full = false := by
      change (h.cause.isNone && decide (h.n ≤ h.nshot)) = false
      rcases hshort with hcause | hless
      · rw [Option.isNone_eq_false_iff.mpr hcause, Bool.false_and]
      · rw [decide_eq_false (Nat.not_le.mpr hless), Bool.and_false]
    refine ⟨_, binning_enters hn hb hset hsh hs hf, honly, ?_, ?_, congrArg Rta.recs (State.shotBinned_rta _ _ _ _)⟩
    · rw [hrpe]
      exact assoc_assocPut_same _ _ _
    · rw [hrpe]
  · have hf : (s.binShot r port sh).1.full = true := by
      change (h.cause.isNone && decide (h.n ≤ h.nshot)) = true
      rw [hnone, decide_eq_true hfull, Bool.and_true]
    have hready : ((s.begin t).shotBinned r port (s.binShot r port sh)).ready = s.ready := by
      rw [State.ready, honly.2.2 .dev (by decide)]
      rfl
    have hx := binning_closes (t := t) hn hb hset hsh hs hf hport hrd
    rw [State.closedHist, hready, hrpe] at hx
    generalize (s.begin t).shotBinned r port (s.binShot r port sh) = v at hx honly hrpe
    refine ⟨_, hx, (honly.comp (Only.modRpe _ _) (rs := [.regs, .rta, .rpe, .cap]) (by simp) (by simp)).trans
      ((Only.handOver _ _).mono (by simp)), ?_, ?_⟩
    · rw [State.handOver_rpe]
      exact (congrArg (assoc _) hport.symm).trans (assoc_assocDel_same _ _)
    · rw [State.handOver_rpe, State.closeCounted, State.modRpe, hrpe]
      rfl

end Sys2Proof.Machine

/-! ## ECHO_EXTRACTION and SHOT_SET (R186, R190, R194 to R196, R212, R214) -/

namespace Sys2Proof.Machine

variable {s : State} {a : Nat}

/-! ### Below the registers of the capture engine a read of the memory changes the words of events alone -/

theorem State.capPoison_word (s : State) (burst : Nat) (ha : a < 0x7000) : (s.capPoison burst).word a = s.word a := by
  have hc : ∀ v : State, (v.inc F.CAP_POISON_COUNT).word a = v.word a :=
    fun v => word_inc_ne _ _ _ (by simp only [F.CAP_POISON_COUNT]; omega)
  unfold State.capPoison
  dsimp only
  split
  · rfl
  · split
    · split
      · rfl
      · split
        · exact hc _
        · rfl
    · split
      · exact hc _
      · exact hc _

theorem State.memInc_word (s : State) {f : Fld} (hf : 0xA000 ≤ f.addr) (ha : a < 0x7000) : (s.inc f).word a = s.word a :=
  word_inc_ne _ _ _ (by omega)

theorem State.memWords_word (s : State) {b : Nat} (ws : List Word) (hb : 0xA000 ≤ b) (ha : a < 0x7000) :
    (s.wrWords b ws).word a = s.word a := by
  rw [State.wrWords_word, if_neg (by omega)]

theorem State.noteCe_word (s : State) (sub client pos : Nat) (demand : Bool) (x : MemHit) (ha : a < 0x7000) :
    (s.noteCe sub client pos demand x).word a = s.word a := by
  have hf : 0xA000 ≤ (if sub == 0 then F.MEM_CE_A_COUNT else F.MEM_CE_B_COUNT).addr := by split <;> decide
  have hleft : ∀ (v : State) m, (v.leaveWrong sub x.burst m).word a = v.word a := fun v m => State.word_of_regs (by simp) a
  have hseen : ∀ (v : State) m, (v.seeWrong sub x.burst m).word a = v.word a := fun v m => State.word_of_regs (by simp) a
  unfold State.noteCe
  dsimp only
  generalize (if sub == 0 then F.MEM_CE_A_COUNT else F.MEM_CE_B_COUNT) = f at hf ⊢
  have hcounted : (((s.inc f).inc (F.MEM_SYMCE_COUNT (20 * sub + 10 * (x.rank % 2) + pos))).wrWords 0xA024
      (errWords sub x.rank client pos x.burst)).word a = s.word a := by
    rw [State.memWords_word _ _ (by omega) ha, State.memInc_word _ (by simp only [F.MEM_SYMCE_COUNT]; omega) ha,
      State.memInc_word _ hf ha]
  split
  · rw [modMem_word, hcounted]
  · split
    · rw [hleft, modMem_word, hcounted]
    · split
      · rw [hleft, modMem_word, modMem_word, hcounted]
      · split
        · rw [hleft, modMem_word, modMem_word, hcounted]
        · rw [hseen, State.memInc_word _ (by decide) ha, modMem_word, modMem_word, hcounted]

theorem State.noteUe_word (s : State) (sub client : Nat) (x : MemHit) (ha : a < 0x7000) (he : a ∉ evWords) :
    (s.noteUe sub client x).word a = s.word a := by
  have hpoison : ∀ v : State, (if sub == 0 then v.capPoison x.burst else v).word a = v.word a := fun v => by
    split
    · exact v.capPoison_word _ ha
    · rfl
  unfold State.noteUe
  split
  · rfl
  · dsimp only
    rw [State.raise_word _ _ _ _ he, hpoison, State.memWords_word _ _ (by omega) ha,
      State.memInc_word _ (by split <;> decide) ha, modMem_word]

theorem State.noteHit_word (s : State) (sub client : Nat) (demand : Bool) (x : MemHit) (ha : a < 0x7000) (he : a ∉ evWords) :
    (s.noteHit sub client demand x).word a = s.word a := by
  unfold State.noteHit
  split
  · exact State.word_of_regs (by simp) a
  · exact s.noteCe_word _ _ _ _ _ ha
  · exact s.noteUe_word _ _ _ ha he

theorem State.judgeMark_word (s : State) (k : Nat) (ha : a < 0x7000) (he : a ∉ evWords) : (s.judgeMark k).word a = s.word a := by
  unfold State.judgeMark
  dsimp only
  split
  · rfl
  · split
    · rw [word_setWord, if_neg (by omega)]
    · split
      · rfl
      · rw [State.raise_word _ _ _ _ he, modMem_word]

theorem State.readBeats_word (sub client : Nat) (demand : Bool) (hits : List MemHit) (ha : a < 0x7000) (he : a ∉ evWords) :
    ∀ s : State, (s.readBeats sub client demand hits).word a = s.word a := by
  induction hits with
  | nil => exact fun _ => rfl
  | cons x hits ih =>
    intro s
    unfold State.readBeats
    dsimp only
    rw [ih]
    split
    · exact s.noteHit_word _ _ _ _ ha he
    · exact (State.fold_keeps (fun v => v.word a) _ (fun v k => v.judgeMark_word k ha he) _ _).trans
        (s.noteHit_word _ _ _ _ ha he)

theorem State.memRead_word (s : State) (sub client : Nat) (demand : Bool) (hits : List MemHit) (ha : a < 0x7000) (he : a ∉ evWords) :
    (s.memRead sub client demand hits).word a = s.word a := by
  rw [State.memRead, State.readBeats_word _ _ _ _ ha he, modMem_word]

end Sys2Proof.Machine

namespace Sys2Proof.Machine

variable {s u : State} {t a : Nat} {h : Hist}

/-! ### The parts of the echo stage -/

theorem State.releaseRd_of_none {port : Nat} (hn : assoc s.rpe.acc port = none) : s.releaseRd port = s := by
  rw [State.releaseRd, hn]

/-- The anchor that an interval of the strongest echo gives (R176). -/
def anchorOf (tq : Option Nat) : Nat := (tq.map fun q => min 0xFFFFE ((q + 128) / 256)).getD 0xFFFFF

theorem anchorOf_lt (tq : Option Nat) : anchorOf tq < 2 ^ 20 := by
  cases tq with
  | none => decide
  | some q => exact lt_of_le_of_lt (Nat.min_le_left _ _) (by decide)

/-- A histogram that only seeds the background estimates leaves its anchor (R196). -/
theorem State.moveAnchor_seeding (hl : s.takesLive h = false) (tq : Option Nat) : s.moveAnchor h tq = s := by
  unfold State.moveAnchor
  rw [hl]
  rfl

theorem State.moveAnchor_rd (hl : s.takesLive h = true) (hz : h.zinv = false) (tq : Option Nat) :
    (s.moveAnchor h tq).rd (F.RPE_ZANC_ZANC h.port) = anchorOf tq := by
  have hx : s.moveAnchor h tq = s.wr (F.RPE_ZANC_ZANC h.port) (anchorOf tq) := by
    unfold State.moveAnchor
    rw [hl, hz]
    cases tq <;> rfl
  rw [hx, rd_wr _ _ _ (Nat.zero_le _) (by simp [F.RPE_ZANC_ZANC])]
  exact Nat.mod_eq_of_lt (anchorOf_lt tq)

theorem Only.moveAnchor (s : State) (h : Hist) (tq : Option Nat) : Only [.regs] s (s.moveAnchor h tq) :=
  ⟨by simp, by simp, fun p hp => by cases p <;> simp_all [Part.same]⟩

theorem Only.writeHistory (s : State) (g key : Nat) (tints : List Nat) : Only [.rpe, .mem] s (s.writeHistory g key tints) :=
  ⟨by simp, by simp, fun p hp => by cases p <;> simp_all [Part.same]⟩

/-- Of the histograms and echoes a slot that is written changes the history alone. -/
theorem State.writeHistory_rpe (s : State) (g key : Nat) (tints : List Nat) :
    ∃ x y, (s.writeHistory g key tints).rpe = { s.rpe with history := x, oldHist := y } := by
  have hb : ∀ (v : State) b, (v.writeBurst 0 b).rpe = v.rpe := fun v b => by simp
  unfold State.writeHistory
  dsimp only
  split
  · exact ⟨_, _, rfl⟩
  · rw [hb]
    split <;> exact ⟨_, _, rfl⟩

/-- The words of the counters of R220. -/
def echoWords : List Nat :=
  [F.RPE_NOECHO_COUNT.addr, F.RPE_ECHOES_COUNT.addr, F.RPE_MOREECHO_COUNT.addr, F.RPE_MISTCNT_COUNT.addr,
    F.RPE_FORCNT_COUNT.addr, F.RPE_BGFALL_COUNT.addr, F.RPE_HISTUE_COUNT.addr]

theorem Only.countRecord (s : State) (p : Point) : Only [.regs] s (s.countRecord p) :=
  ⟨by simp, by simp, fun p hp => by cases p <;> simp_all [Part.same]⟩

theorem State.countRecord_word (s : State) (p : Point) (ha : a ∉ echoWords) : (s.countRecord p).word a = s.word a := by
  simp only [echoWords, List.mem_cons, List.not_mem_nil, or_false, not_or] at ha
  obtain ⟨hno, hec, hmo, hmi, hfo, hbg, hue⟩ := ha
  have hif : ∀ (v : State) (b : Bool) (f : Fld), a ≠ f.addr → (if b then v.inc f else v).word a = v.word a := fun v b f hf => by
    split
    · exact word_inc_ne _ _ _ hf
    · rfl
  unfold State.countRecord
  dsimp only
  rw [hif _ _ _ hue, hif _ _ _ hbg, word_count_ne _ _ _ _ hfo, word_count_ne _ _ _ _ hmi, hif _ _ _ hmo]
  split
  · exact word_inc_ne _ _ _ hno
  · exact word_count_ne _ _ _ _ hec

theorem Only.deliver (s : State) (p : Point) : Only [.rpe, .cap] s (s.deliver p) :=
  ⟨by simp, by simp, fun p hp => by cases p <;> simp_all [Part.same]⟩

/-- A point record goes to the FSO and the SAF under READY (R195, R196). -/
theorem State.deliver_rpe (s : State) (p : Point) : (s.deliver p).rpe =
    if s.ready then { s.rpe with points := s.rpe.points ++ [p], safPoints := s.rpe.safPoints ++ [p] } else s.rpe := by
  unfold State.deliver
  cases s.ready with
  | false => rfl
  | true =>
    rw [Bool.not_true, if_neg Bool.false_ne_true, if_pos rfl]
    simp

/-- The point record names the histogram that it comes from (R212). -/
theorem State.extract_names (s : State) (h : Hist) (nohist histue : Bool) (past : List Nat) :
    (s.extract h nohist histue past).1.port = h.port ∧ (s.extract h nohist histue past).1.ord = h.ord ∧
    (s.extract h nohist histue past).1.line = h.line ∧ (s.extract h nohist histue past).1.pix = h.pix := by
  unfold State.extract
  dsimp only
  split <;> exact ⟨rfl, rfl, rfl, rfl⟩

/-! ### SHOT_SET -/

theorem exec_shotSet {x : Single} {q : List Single} (hx : s.rpe.singles = x :: q) : exec (.shotSet t) s = .next
    ((((s.begin t).modRpe fun e => { e with singles := q }).countRecord (s.singlePoint x)).deliver (s.singlePoint x)) := by
  have hx' : (s.begin t).rpe.singles = x :: q := hx
  dsimp only [exec, execShotSet]
  rw [hx']
  rfl

theorem shotSet_points {x : Single} {q : List Single} (hx : s.rpe.singles = x :: q) :
    CompletesAt (.shotSet t) t s [.rpe, .cap] echoWords fun u => u.rpe.singles = q ∧
      u.rpe.points = (if s.ready then s.rpe.points ++ [s.singlePoint x] else s.rpe.points) ∧
      u.rpe.safPoints = (if s.ready then s.rpe.safPoints ++ [s.singlePoint x] else s.rpe.safPoints) := by
  have hexec := exec_shotSet (t := t) hx
  generalize s.singlePoint x = p at hexec ⊢
  have htaken : Only [.rpe] (s.begin t) ((s.begin t).modRpe fun e => { e with singles := q }) := Only.modRpe _ _
  have hcount := Only.countRecord ((s.begin t).modRpe fun e => { e with singles := q }) p
  have hready : (((s.begin t).modRpe fun e => { e with singles := q }).countRecord p).ready = s.ready := by
    rw [State.ready, hcount.2.2 .dev (by decide)]
    rfl
  have hrpe : (((s.begin t).modRpe fun e => { e with singles := q }).countRecord p).rpe = { s.rpe with singles := q } :=
    hcount.2.2 .rpe (by decide)
  refine ⟨_, hexec, (htaken.comp hcount (rs := [.regs, .rpe, .cap]) (by simp) (by simp)).trans
    ((Only.deliver _ _).mono (by simp)), fun a ha => ?_, ?_⟩
  · rw [State.word_of_regs ((Only.deliver _ _).2.2 .regs (by decide)), State.countRecord_word _ _ ha, modRpe_word, begin_word]
  · dsimp only
    rw [State.deliver_rpe, hready, hrpe]
    cases s.ready <;> exact ⟨rfl, rfl, rfl⟩

/-! ### ECHO_EXTRACTION -/

/-- A histogram has left the echo stage. -/
def State.histTaken (s : State) (h : Hist) : State :=
  s.modRpe fun r => { r with queue := r.queue.filter fun x => x.ord != h.ord }

/-- The state in which a live histogram's pixel has had its history read (R206, R393). -/
def State.echoRead (s : State) (h : Hist) (hits : List MemHit) : State :=
  if s.memAvail 0 then s.memRead 0 2 true (hits.filter fun x => x.burst / 2 == 256 * h.line + h.pix) else s

theorem Only.echoRead (s : State) (h : Hist) (hits : List MemHit) :
    Only [.regs, .cap, .mem, .mgmt, .lnk, .saf, .out] s (s.echoRead h hits) := by
  unfold State.echoRead
  split
  · exact Only.memRead _ _ _ _ _
  · exact Only.refl _ _

theorem State.echoRead_word (s : State) (h : Hist) (hits : List MemHit) (ha : a < 0x7000) (he : a ∉ evWords) :
    (s.echoRead h hits).word a = s.word a := by
  unfold State.echoRead
  split
  · exact State.memRead_word _ _ _ _ _ ha he
  · rfl

/-- The history that a histogram goes by does not depend on what the read of the memory finds. -/
theorem State.echoRead_histGen (s : State) (h : Hist) (hits : List MemHit) (g : Nat) :
    (s.echoRead h hits).histGen g = s.histGen g := by
  rw [State.histGen, State.histGen, (Only.echoRead s h hits).2.2 .rpe (by decide),
    State.rd_of_word (State.echoRead_word _ _ _ (by decide) (by decide))]

theorem State.echoRead_hdepth (s : State) (h : Hist) (hits : List MemHit) : (s.echoRead h hits).hdepth = s.hdepth :=
  State.rd_of_word (State.echoRead_word _ _ _ (by decide) (by decide))

theorem State.takesLive_of_dev (hd : u.dev = s.dev) (h : Hist) : u.takesLive h = s.takesLive h := by
  simp only [State.takesLive, State.ready, hd]

/-- The record and the strongest echo of a histogram in a history. -/
def State.pointIn (s : State) (h : Hist) (hist : Nat × List (Nat × List HistSlot)) (depth : Nat) : Point × Option Nat :=
  let past := s.readHistory hist.2 (256 * h.line + h.pix)
  s.extract h (Nat.blt hist.1 depth) past.2 past.1

/-- The echoes that the history keeps (R206). -/
def Point.kept (p : Point) : List Nat := (p.echoes.filter fun e => e.cls == .surface || e.cls == .nohist).map Echo.tint

/-- A record, its anchor, its history and its counters, before its delivery. -/
def State.echoNoted (s : State) (h : Hist) (x : Point × Option Nat) : State :=
  (((s.histTaken h).moveAnchor h x.2).writeHistory h.gen (256 * h.line + h.pix) x.1.kept).countRecord x.1

section
variable {hits : List MemHit} (hh : s.nextHist = some h) (ha : assoc s.rpe.acc h.port = none)
include hh ha

/-- A live histogram of a port without a stretching one: its record is noted and delivered. -/
theorem exec_echoExtraction_live (hl : s.takesLive h = true) : exec (.echoExtraction t hits) s = .next
    ((((s.begin t).echoRead h hits).echoNoted h (((s.begin t).echoRead h hits).pointIn h (s.histGen h.gen) s.hdepth)).deliver
      (((s.begin t).echoRead h hits).pointIn h (s.histGen h.gen) s.hdepth).1) := by
  have hh' : (s.begin t).nextHist = some h := hh
  have hl' : (s.begin t).takesLive h = true := hl
  have hgen := State.echoRead_histGen (s.begin t) h hits h.gen
  have hdep := State.echoRead_hdepth (s.begin t) h hits
  have hrpe : ((s.begin t).echoRead h hits).rpe = s.rpe := (Only.echoRead (s.begin t) h hits).2.2 .rpe (by decide)
  have hfree : ∀ tq, assoc ((((s.begin t).echoRead h hits).histTaken h).moveAnchor h tq).rpe.acc h.port = none := fun tq => by
    rw [(Only.moveAnchor _ h tq).2.2 .rpe (by decide)]
    exact (congrArg (fun e : Rpe => assoc e.acc h.port) hrpe).trans ha
  dsimp only [exec, execEchoExtraction]
  rw [hh']
  dsimp only
  rw [hl', Bool.true_and]
  change (let v := (s.begin t).echoRead h hits
    let x := v.pointIn h (v.histGen h.gen) v.hdepth
    Host.Outcome.next ((((((v.histTaken h).moveAnchor h x.2).releaseRd h.port).writeHistory h.gen (256 * h.line + h.pix)
      x.1.kept).countRecord x.1).deliver x.1)) = _
  dsimp only
  rw [hgen, hdep, State.releaseRd_of_none (hfree _)]
  rfl

/-- A histogram that only seeds the background estimates leaves, and its record is counted and not delivered. -/
theorem exec_echoExtraction_seeding (hl : s.takesLive h = false) : exec (.echoExtraction t hits) s =
    .next (((s.begin t).histTaken h).countRecord
      ((s.begin t).extract h (Nat.blt (s.histGen h.gen).1 s.hdepth) false []).1) := by
  have hh' : (s.begin t).nextHist = some h := hh
  have hl' : (s.begin t).takesLive h = false := hl
  have hfree : assoc ((s.begin t).histTaken h).rpe.acc h.port = none := ha
  have hseed : ((s.begin t).histTaken h).takesLive h = false := hl
  dsimp only [exec, execEchoExtraction]
  rw [hh']
  dsimp only
  rw [hl', Bool.false_and, if_neg Bool.false_ne_true]
  change (let v := s.begin t
    let x := v.extract h (Nat.blt (v.histGen h.gen).1 v.hdepth) false []
    Host.Outcome.next ((((v.histTaken h).moveAnchor h x.2).releaseRd h.port).countRecord x.1)) = _
  dsimp only
  rw [State.moveAnchor_seeding hseed, State.releaseRd_of_none hfree]
  rfl

end

theorem Only.echoNoted (v : State) (h : Hist) (x : Point × Option Nat) : Only [.regs, .rpe, .mem] v (v.echoNoted h x) :=
  (((Only.modRpe _ _).comp (Only.moveAnchor _ _ _) (rs := [.regs, .rpe, .mem]) (by simp) (by simp)).trans
    ((Only.writeHistory _ _ _ _).mono (by simp))).trans ((Only.countRecord _ _).mono (by simp))

theorem State.echoNoted_rpe (v : State) (h : Hist) (x : Point × Option Nat) : ∃ y z, (v.echoNoted h x).rpe =
    { v.rpe with queue := v.rpe.queue.filter (fun q => q.ord != h.ord), history := y, oldHist := z } := by
  obtain ⟨y, z, hw⟩ :=
    ((v.histTaken h).moveAnchor h x.2).writeHistory_rpe h.gen (256 * h.line + h.pix) x.1.kept
  refine ⟨y, z, ?_⟩
  rw [State.echoNoted, (Only.countRecord _ _).2.2 .rpe (by decide), hw, (Only.moveAnchor _ _ _).2.2 .rpe (by decide)]
  rfl

/-- The anchor of a live histogram follows its strongest echo, and no counter stands in its word (R176, R190). -/
theorem State.echoNoted_rd {v : State} (x : Point × Option Nat) (hl : v.takesLive h = true) (hz : h.zinv = false) :
    (v.echoNoted h x).rd (F.RPE_ZANC_ZANC h.port) = anchorOf x.2 := by
  have hnot : (F.RPE_ZANC_ZANC h.port).addr ∉ echoWords := by
    simp only [echoWords, F.RPE_ZANC_ZANC, F.RPE_NOECHO_COUNT, F.RPE_ECHOES_COUNT, F.RPE_MOREECHO_COUNT, F.RPE_MISTCNT_COUNT,
      F.RPE_FORCNT_COUNT, F.RPE_BGFALL_COUNT, F.RPE_HISTUE_COUNT, List.mem_cons, List.not_mem_nil, or_false]
    omega
  have hlive : (v.histTaken h).takesLive h = true := hl
  rw [State.echoNoted, State.rd_of_word (State.countRecord_word _ _ hnot),
    State.rd_of_word (State.word_of_regs ((Only.writeHistory _ _ _ _).2.2 .regs (by decide)) _), State.moveAnchor_rd hlive hz]

section
variable {hits : List MemHit} (hh : s.nextHist = some h) (ha : assoc s.rpe.acc h.port = none)
include hh ha

theorem echoExtraction_live (hl : s.takesLive h = true) :
    let x := ((s.begin t).echoRead h hits).pointIn h (s.histGen h.gen) s.hdepth
    Completes (.echoExtraction t hits) t s (.regs :: .rpe :: .cap :: .mem :: evParts) fun u =>
      u.rpe.queue = s.rpe.queue.filter (fun y => y.ord != h.ord) ∧ u.rpe.points = s.rpe.points ++ [x.1] ∧
      u.rpe.safPoints = s.rpe.safPoints ++ [x.1] ∧
      x.1.port = h.port ∧ x.1.ord = h.ord ∧ x.1.line = h.line ∧ x.1.pix = h.pix ∧
      (h.zinv = false → u.rd (F.RPE_ZANC_ZANC h.port) = anchorOf x.2) := by
  intro x
  have hexec := exec_echoExtraction_live (t := t) (hits := hits) hh ha hl
  obtain ⟨hport, hord, hline, hpix⟩ : x.1.port = h.port ∧ x.1.ord = h.ord ∧ x.1.line = h.line ∧ x.1.pix = h.pix :=
    State.extract_names _ _ _ _ _
  have hread := Only.echoRead (s.begin t) h hits
  change exec _ s = .next (((((s.begin t).echoRead h hits).echoNoted h x)).deliver x.1) at hexec
  clear_value x
  generalize (s.begin t).echoRead h hits = v at hexec hread
  have hrpe : v.rpe = s.rpe := hread.2.2 .rpe (by decide)
  have hdev : v.dev = s.dev := hread.2.2 .dev (by decide)
  have hlive : v.takesLive h = true := (State.takesLive_of_dev hdev h).trans hl
  have hready : (v.echoNoted h x).ready = true := by
    have hd : (v.echoNoted h x).dev = v.dev := (Only.echoNoted v h x).2.2 .dev (by decide)
    rw [State.ready, hd]
    exact (Bool.and_eq_true_iff.mp hlive).1
  obtain ⟨y, z, hnoted⟩ := v.echoNoted_rpe h x
  have hout : ((v.echoNoted h x).deliver x.1).rpe = { s.rpe with
      queue := s.rpe.queue.filter (fun q => q.ord != h.ord), history := y, oldHist := z,
      points := s.rpe.points ++ [x.1], safPoints := s.rpe.safPoints ++ [x.1] } := by
    rw [State.deliver_rpe, hready, if_pos rfl, hnoted, hrpe]
  have honly : Only (.regs :: .rpe :: .cap :: .mem :: evParts) (s.begin t) ((v.echoNoted h x).deliver x.1) :=
    (hread.comp (Only.echoNoted v h x) (by simp [evParts]) (by simp)).trans ((Only.deliver _ _).mono (by simp))
  refine ⟨_, hexec, honly, ?_, ?_, ?_, hport, hord, hline, hpix, fun hz => ?_⟩
  · rw [hout]
  · rw [hout]
  · rw [hout]
  · rw [State.rd_of_word (State.word_of_regs ((Only.deliver _ _).2.2 .regs (by decide)) _), State.echoNoted_rd x hlive hz]

theorem echoExtraction_seeding (hl : s.takesLive h = false) : Completes (.echoExtraction t hits) t s [.regs, .rpe] fun u =>
    u.rpe = { s.rpe with queue := s.rpe.queue.filter fun x => x.ord != h.ord } :=
  ⟨_, exec_echoExtraction_seeding hh ha hl, (Only.modRpe _ _).comp (Only.countRecord _ _) (by simp) (by simp),
    (Only.countRecord _ _).2.2 .rpe (by decide)⟩

end

/-- Settles O28: the read of the memory leaves the words by which the echo stage goes, and the counters of a record leave the
anchor. -/
theorem histogramsAndShotsBecomePoints : Obligations.HistogramsAndShotsBecomePoints := by
  intro s t b
  refine ⟨fun h hits hh ha hl => ?_, fun h hits hh ha hl => echoExtraction_seeding hh ha hl, fun x q hx => shotSet_points hx⟩
  intro key v past x
  obtain ⟨u, hexec, honly, hqueue, hpoints, hsaf, hport, hord, hline, hpix, hanchor⟩ :=
    echoExtraction_live (t := t) (hits := hits) hh ha hl
  refine ⟨u, hexec, honly, hqueue, hpoints, hsaf, hport, hord, hline, hpix, fun hz => (hanchor hz).trans ?_⟩
  change anchorOf x.2 = _
  cases x.2 <;> rfl

end Sys2Proof.Machine
